-- ==== Sys2Proof/Word.lean ====
section
/-! DEFINITION. The plain word types of the Izica: bytes, register words and status codes (00 R6, R9).
Fields are little-endian with bit 0 least significant (R6); the byte-order helpers are in Machine/Bytes.lean. -/

namespace Sys2Proof

/-- One byte of a structure, a page, a frame or a memory. -/
abbrev Byte := BitVec 8

/-- A 16-bit word; also a status code (R9) and an event code (R446). -/
abbrev Half := BitVec 16

/-- A 32-bit register (R102). -/
abbrev Word := BitVec 32

/-- A 64-bit value: DEVTIME, a semaphore, a page-table entry. -/
abbrev Dword := BitVec 64

/-- A 16-bit status code (R9, R445). -/
abbrev Status := BitVec 16

/-- A 32-bit abort code of the object dictionary (R281). -/
abbrev Abort := BitVec 32

end Sys2Proof
end

