-- ==== Sys2Proof/Machine/Tab.lean ====
section
/-! DEFINITION. Sparse tables: a list of (key, value) pairs with strictly rising keys. Every indexed family of
state (partitions, queue slots, semaphores, graphs, ...) is one, so that State is plain data and small. -/

namespace Sys2Proof

/-- A sparse table: keys strictly rising. -/
abbrev Tab (α : Type) := List (Nat × α)

/-- The entry at key `k`, if the table lists one. -/
def tabGet {α : Type} : Tab α → Nat → Option α
  | [], _ => none
  | (j, a) :: t, k => if j = k then some a else tabGet t k

/-- The entry at key `k`, or `d` where the table lists none. -/
def tabGetD {α : Type} (t : Tab α) (k : Nat) (d : α) : α := (tabGet t k).getD d

/-- The table with `a` at key `k`. -/
def tabSet {α : Type} : Tab α → Nat → α → Tab α
  | [], k, a => [(k, a)]
  | (j, b) :: t, k, a =>
    if k < j then (k, a) :: (j, b) :: t
    else if j = k then (k, a) :: t
    else (j, b) :: tabSet t k a

/-- The table without an entry at key `k`. -/
def tabErase {α : Type} (t : Tab α) (k : Nat) : Tab α := t.filter (fun e => e.1 != k)

/-- The table with `f` applied to the entry at `k`; unchanged where none is listed. -/
def tabModify {α : Type} (t : Tab α) (k : Nat) (f : α → α) : Tab α :=
  t.map (fun e => if e.1 = k then (e.1, f e.2) else e)

/-- The table with `f` applied to every listed entry (key and value). -/
def tabMap {α : Type} (t : Tab α) (f : Nat → α → α) : Tab α := t.map (fun e => (e.1, f e.1 e.2))

/-- The values, in key order. -/
def tabVals {α : Type} (t : Tab α) : List α := t.map (·.2)

/-- The keys, in order. -/
def tabKeys {α : Type} (t : Tab α) : List Nat := t.map (·.1)

/-- The lowest number from `lo` on that is no key of the table and is below `hi`; `fuel` counts the candidates. -/
def lowestFree (used : List Nat) (lo : Nat) : Nat → Option Nat
  | 0 => none
  | fuel + 1 => if used.contains lo then lowestFree used (lo + 1) fuel else some lo

/-- Keys strictly rising (the one form of a table). -/
def tabWf {α : Type} : Tab α → Bool
  | [] => true
  | [_] => true
  | (j, _) :: (k, b) :: t => decide (j < k) && tabWf ((k, b) :: t)

end Sys2Proof
end

