-- ==== Sys2Proof/Machine/Records.lean ====
section
/-! DEFINITION. Records the manual lays out in bytes or bits and that both the commands (Syntax.lean) and the state
(State.lean) use: mailbox headers, Umner frames, network headers, queue descriptors, graph-image parts, state blobs. -/

namespace Sys2Proof

/-- A mailbox request header (11 R244), fields as the mailbox's format lays them out. -/
structure MsgHdr where
  /-- message code (R246) -/
  msg : Nat
  /-- cells the request occupies -/
  cells : Nat
  /-- sequence value, copied into the reply -/
  seq : BitVec 16
  /-- instance acted on -/
  target : Nat
  /-- payload bytes (formats 2 and 3) -/
  len : Nat
  /-- cookie (format 3) -/
  cookie : BitVec 64
  deriving DecidableEq, Repr

/-- An Umner request frame whose CRC and length were good (13 R273); the opcode is the command's row. -/
structure UFrame where
  /-- bits [7:6] of byte 0 or bytes 7:6 not zero -/
  reservedSet : Bool
  /-- transaction identifier -/
  tid : Byte
  /-- dictionary index -/
  index : Nat
  /-- subindex -/
  sub : Nat
  /-- DATA of the frame -/
  data : List Byte
  deriving DecidableEq, Repr

/-- The two paths to the dictionary (13 R284). -/
inductive Path where
  /-- the management link -/
  | link
  /-- the host tunnel -/
  | host
  deriving DecidableEq, Repr

/-- A network header flit (10 R211), the fields the receiver acts on. -/
structure Pkt where
  typ : Nat
  urg : Nat
  src : Nat
  dst : Nat
  mask : BitVec 16
  inst : Nat
  gen : BitVec 16
  slot : Nat
  tag : Nat
  tgen : Nat
  len : Nat
  status : Status
  addr : Nat
  hostSpace : Bool
  bytes : Nat
  deriving DecidableEq, Repr

/-- A request that waits for the next share window of its target (04 R79, 11 R234). -/
structure Waiting where
  write : Bool
  pkt : Pkt
  data : List Byte
  deriving DecidableEq, Repr

/-- A queue descriptor (06 R117). -/
structure QDesc where
  qid : Nat
  format : Nat
  cls : Nat
  irqPolicy : Nat
  vector : Nat
  subLog2 : Nat
  cplLog2 : Nat
  subBase : Nat
  cplBase : Nat
  statusWb : Nat
  holdoff : Nat
  progressMs : Nat
  deriving DecidableEq, Repr

/-- The three SRAMs of a partition (02 R26). -/
inductive Sram where
  | weight | act | scratch
  deriving DecidableEq, Repr

/-- What a request of a partition's DMA engine moves (02 R37): its channel, the SRAM and the offset there; `ring` marks a read of
the weight stream into the landing ring (03 R64). The requests of other initiators carry one without meaning. -/
structure Dma where
  chan : Nat
  sram : Sram
  off : Nat
  ring : Bool
  deriving DecidableEq, Repr

/-- An operand pairing of the array (02 R27), with signedness or FP8 format of each operand. -/
inductive Pairing where
  | int8 (aSigned wSigned : Bool)
  | int4 (aSigned : Bool)
  | fp8 (aE5 wE5 : Bool)
  | bf16
  | fp16
  deriving DecidableEq, Repr

/-- An operand or result of the vector unit: an offset of activation SRAM or of vector scratch (02 R36). -/
structure Place where
  scratch : Bool
  off : Nat
  deriving DecidableEq, Repr

/-- Operations of the vector unit (02 R36). -/
inductive VecOp where
  | fma | add | mul | min | max | lt | le | eq | select
  deriving DecidableEq, Repr

/-- Functions of the table unit (02 R36). -/
inductive TblFn where
  | exp2 | log2 | recip | rsqrt | sigmoid | tanh | gelu
  deriving DecidableEq, Repr

/-- Formats that the vector unit converts FP32 results to; FP8 in one of the two conversion modes (02 R30). -/
inductive Narrow where
  | bf16
  | fp16
  | e4m3 (sat : Bool)
  | e5m2 (sat : Bool)
  deriving DecidableEq, Repr

/-- What the microwords of a tile have its group do (02 R28 to R36, 07 R157). The manual gives the microword's fields and not
the codes of their operations, so a tile's operations come with its end (log entry 88). `q` is a member's place in the group. -/
inductive TileOp where
  /-- an array pass of `m` vectors: weight rows from row `w` of the tile's weights, activation words from `a`, result rows to
  `o`; the incoming partial sums at `carry`, zero where there are none -/
  | pass (fmt : Pairing) (m : Nat) (carry : Option Nat) (w a o : Nat)
  | vector (q : Nat) (op : VecOp) (half : Bool) (lanes : Nat) (x y z d : Place)
  | table (q : Nat) (fn : TblFn) (lanes : Nat) (x d : Place)
  | convert (q : Nat) (fmt : Narrow) (lanes : Nat) (x d : Place)
  /-- INT32 results to INT8 or, with `four`, INT4, with a scale per column -/
  | requant (q : Nat) (four signed : Bool) (lanes : Nat) (x scale d : Place)
  /-- the buffer slot of a relay input edge is read: its token is taken -/
  | take (edge : Nat)
  deriving DecidableEq, Repr

/-- A tile-table entry (02 R38). -/
structure Tile where
  wcCycles : Nat
  cls : Nat
  shape : Nat
  preempt : Bool
  uentry : Nat
  live : Nat
  woff : Nat
  skim : Bool
  deriving DecidableEq, Repr

/-- A variant-table entry (07 R141) with the tile table it names. -/
structure Variant where
  role : Nat
  shape : Nat
  tiles : List Tile
  resOff : Nat
  resMember : Nat
  /-- patchable-region offset of the stream descriptor, none for 0xFFFF_FFFF -/
  skimOff : Option Nat
  wcLaunch : Nat
  deriving DecidableEq, Repr

/-- A relocation-list entry (07 R142). -/
structure Reloc where
  slotOff : Nat
  rd : Bool
  wr : Bool
  nullOk : Bool
  extent : Nat
  deriving DecidableEq, Repr

/-- A relay-map entry (07 R156); its edge number is its place in the map. -/
structure Edge where
  src : Nat
  dst : Nat
  credits : Nat
  deriving DecidableEq, Repr

/-- A Skim stream descriptor (03 R58). -/
structure Stream where
  handle : BitVec 32
  offset : Nat
  blocks : Nat
  passes : Nat
  members : Nat
  deriving DecidableEq, Repr

/-- The fixed section of a graph and the header fields that act later (07 R140). -/
structure GraphFixed where
  relay : Bool
  roleMask : BitVec 16
  cbSize : Nat
  imageLen : Nat
  patchLen : Nat
  variants : List Variant
  relocs : List Reloc
  edges : List Edge
  deriving DecidableEq, Repr

/-- One version of a graph: its number and the store pages of its patchable region (07 R146, R147). -/
structure GVersion where
  num : Nat
  pages : List Nat
  deriving DecidableEq, Repr

/-- A registered graph (07 R143 to R151). -/
structure Graph where
  fixed : GraphFixed
  /-- store pages of the fixed section -/
  fixedPages : List Nat
  /-- the current version's number; none after GRAPH_RELEASE -/
  current : Option Nat
  versions : List GVersion
  /-- the command (slot, SEQ) that holds the patch build -/
  builder : Option (Nat × Nat)
  /-- commands waiting for the build, oldest first -/
  waiters : List (Nat × Nat)
  deriving DecidableEq, Repr

/-- One entry of a handle table (04 R87). -/
structure Handle where
  base : Nat
  /-- size field, 0 for 2^40 -/
  size : Nat
  gen : Nat
  rd : Bool
  wr : Bool
  bound : Bool
  deriving DecidableEq, Repr

/-- A timeline semaphore (06 R129, 18 R388). -/
structure Sem where
  value : BitVec 64
  mirror : Option Nat
  poison : Option (BitVec 64)
  deriving DecidableEq, Repr

/-- A CONTRACT_ADMIT payload (09 R185). -/
structure ContractReq where
  graph : Nat
  role : Nat
  period : Nat
  deadline : Nat
  jitter : Nat
  floor : Nat
  deriving DecidableEq, Repr

/-- Where a launch stands on one replica (01 R16 stages 8 and 9, 09 R206). -/
inductive RepState where
  /-- granted, not yet acknowledged by every member -/
  | granted
  /-- acknowledged, running -/
  | running
  /-- pre-empted, in its leader's resume slot -/
  | saved
  /-- pre-empted launch that an L2 reset or a restore will grant again -/
  | regrant
  /-- end reported or ended by a fault -/
  | ended
  deriving DecidableEq, Repr

/-- One replica launch of a command; for a relay launch, one role (03 R57, 07 R157). -/
structure Replica where
  idx : Nat
  role : Nat
  leader : Nat
  shape : Nat
  state : RepState
  status : Status
  tile : Nat
  detached : Bool
  saturated : Bool
  /-- Skim slot it takes its stream from -/
  skim : Option Nat
  /-- per output edge: credits held, and whether FINAL was sent; per input edge: tokens held, FINAL seen (R157) -/
  outCredits : Tab Nat
  outFinal : List Nat
  inTokens : Tab Nat
  inFinal : List Nat
  /-- output edges on which it has sent a data token; per input edge: slots read whose credit it still owes (R157) -/
  outSent : List Nat := []
  owed : Tab Nat := []
  /-- a relay role that has ended (R158) -/
  done : Bool := false
  /-- landing-ring slots that each member has freed (03 R59) -/
  used : Nat := 0
  deriving DecidableEq, Repr

/-- Where a command stands on the launch path (01 R16). -/
inductive CStage where
  /-- stage 3 passed -/
  | checked
  /-- stage 4 passed -/
  | relocated
  /-- accepted, at stage 6 -/
  | waiting
  /-- stage 6 passed, no priority-queue entry yet -/
  | passed
  /-- in the priority queue -/
  | queued
  /-- granted or executing -/
  | executing
  /-- outcome decided, completion record not yet written -/
  | ended
  /-- completion record (the last one) in flight -/
  | writing
  deriving DecidableEq, Repr

/-- One command of a queue from the end of stage 3 to the end of its records (01 R16, 06 R131, 08 R181). -/
structure Cmd where
  slot : Nat
  seq : Nat
  inst : Nat
  entries : Nat
  bytes : List Byte
  opcode : Nat
  tag : BitVec 32
  fence : Bool
  irq : Bool
  stage : CStage
  status : Status
  result : BitVec 64
  accepted : Bool
  order : Nat
  gen : BitVec 16
  release : Nat
  contract : Nat
  early : Bool
  cls : Nat
  key : Nat
  graph : Nat
  version : Nat
  /-- a launch of a relay graph -/
  relay : Bool
  role : Nat
  partMask : BitVec 16
  pool : Option Nat
  dvas : List Nat
  /-- DVA of each stream the launch may take, by patchable-region offset of its descriptor (R58) -/
  streamDva : Tab Nat
  /-- completion-record reservation held (R132) -/
  resv : Nat
  cb : List Byte
  waitSem : Option (Nat × Nat)
  sigSem : Option (Nat × Nat)
  waitUntil : Option Nat
  stage6At : Nat
  inScoreboard : Bool
  /-- priority-queue entry taken: some true for the contract's reserved one -/
  pqEntry : Option Bool
  /-- copy-engine channel -/
  chan : Option Nat
  /-- progress time used so far and the time it last started, when it runs (R135) -/
  progUsed : Nat
  progFrom : Option Nat
  /-- it has started to execute (R135) -/
  begun : Bool
  replicas : List Replica
  /-- pages a PATCH has built for its new version (R150) -/
  built : Option (List Nat)
  /-- records of this command already written -/
  recordsDone : Nat
  /-- the record being written, not yet acknowledged: its DVA and bytes -/
  inFlight : Option (Nat × List Byte)
  /-- a record of this command was lost to a broken ring: no message for it (R136) -/
  recordLost : Bool
  /-- a stage-5 effect of HANDLE_BIND, HANDLE_FREE or PATCH is done (R182) -/
  effectDone : Bool
  /-- ended by the abort sequencer without a record -/
  cancelled : Bool
  deriving DecidableEq, Repr

/-- An INSTANCE section record of a state blob (12 R258). -/
structure Limits where
  queueLimit : Nat
  semCount : Nat
  graphLimit : Nat
  storeKiB : Nat
  privQuotaMiB : Nat
  privShare : Nat
  hostShare : Nat
  powerShare : Nat
  deriving DecidableEq, Repr

/-- A QUEUES section record of a state blob (12 R258). -/
structure BlobQueue where
  desc : QDesc
  read : BitVec 32
  write : BitVec 32
  cpl : BitVec 32
  cons : BitVec 32
  dbBad : BitVec 16
  /-- 0 when not STOPPED, else the STOPPED cause -/
  stopCause : Nat
  deriving DecidableEq, Repr

/-- A GRAPHS section entry of a state blob (12 R258): pages by content, page maps by place in `pages`. -/
structure BlobGraph where
  id : Nat
  fixed : GraphFixed
  current : Option Nat
  versions : List GVersion
  /-- contents of the fixed section, page by page -/
  fixedPages : List (List Byte)
  pages : List (List Byte)
  deriving DecidableEq, Repr

/-- A CONTRACTS section record of a state blob (12 R258). -/
structure BlobContract where
  id : Nat
  req : ContractReq
  state : Nat
  deriving DecidableEq, Repr

/-- A COMMANDS section record: the queue number and the command with its release held as an offset (12 R258). -/
structure BlobCmd where
  qid : Nat
  cmd : Cmd
  /-- of the LIVE_SETS section: the live set of each member, by index of a saved replica -/
  live : Tab (List (List Byte)) := []
  deriving DecidableEq, Repr

/-- A state blob as RESTORE reads it (12 R257 to R260), sections parsed; log entry 8. -/
structure Blob where
  /-- MAGIC, HEADER_CRC, directory and every section CRC are good -/
  crcGood : Bool
  major : Nat
  minor : Nat
  /-- an unknown section has REQUIRED = 1 -/
  unknownRequired : Bool
  sourceInst : Nat
  sourceGen : BitVec 16
  seqBase : BitVec 16
  frozenAt : Nat
  limits : Limits
  queues : List BlobQueue
  sems : Tab Sem
  handles : Tab Handle
  graphs : List BlobGraph
  cmds : List BlobCmd
  contracts : List BlobContract
  deriving DecidableEq, Repr

end Sys2Proof
end

