-- ==== Sys2Proof/Syntax.lean ====
section
/-! DEFINITION. The commands of the block: one constructor for each row of the table of operations and events
(spec/opcode_table.json, 95_what_each_step_holds.md), in the table's order. The table gives its rows no bits, so a
command is this syntax alone. Operands are what arrives from outside the modelled state: who writes, where and what,
the bytes read from host memory, what a sensor or a pin shows, which partition reports. -/

namespace Sys2Proof

/-- A command of the block. -/
inductive Instr where
  /-- REGISTER_WRITE (R8): A host write to a BAR register or window that has no row of its own takes effect according to its access code, or is counted as a bad access. -/
  | registerWrite (fn : Fin 33) (config : Bool) (poisoned : Bool) (off : Nat) (data : List Byte)
  /-- DOORBELL_WRITE (R119): A host write to one or both halves of a queue doorbell passes Glove check point 1 and is forwarded to the FEP on VC0. -/
  | doorbellWrite (fn : Fin 33) (off : Nat) (data : List Byte)
  /-- DOORBELL (R120): The FEP receives a doorbell, judges the new WRITE or CONS value, and records it and stamps DEVTIME, or ignores it with DOORBELL_BAD. -/
  | doorbell (fn : Fin 33) (q : Fin 16) (high : Bool) (value : BitVec 32)
  /-- HEARTBEAT_WRITE (R333): A write of HEARTBEAT stores its value and, while the timer is armed, restarts the host-loss count. -/
  | heartbeatWrite (value : BitVec 32)
  /-- BEGIN (R319): A write of FW_LOAD_CTL.BEGIN starts a Topcoat load when FW_STATE allows it, or sets RESULT 6. -/
  | fwBegin
  /-- COMMIT (R320): A write of FW_LOAD_CTL.COMMIT ends a load and starts Primer's verification of the image. -/
  | fwCommit
  /-- FW_VERIFY_DONE (R320): Primer ends image verification and either starts Topcoat at ENTRY or sets LOAD_FAILED and zeroes the SRAM. -/
  | fwVerifyDone
  /-- SW_RESET (R316): A write of 0x0000_A55A to SW_RESET acts as the PF0 software reset source at its mapped level. -/
  | swReset (value : BitVec 32)
  /-- ABORT_QUEUE (R383): An abort request for one queue, from ABORT_REQ, MGR_ABORT or an internal event, is latched and the queue stops fetching. -/
  | abortQueue (n : Fin 33) (q : Fin 16) (byManager : Bool)
  /-- ABORT_INSTANCE (R383): An abort request for a whole instance is latched, its queues stop fetching and the instance goes to ABORTING. -/
  | abortInstance (n : Fin 33) (byManager : Bool)
  /-- MMU_INVALIDATE_RANGE (R85): A write of INVAL_CTL.GO with ALL = 0 starts an invalidation of SIZE 64 KiB units from INVAL_ADDR. -/
  | mmuInvalidateRange (n : Fin 33) (value : BitVec 32)
  /-- MMU_INVALIDATE_ALL (R85): A write of INVAL_CTL.GO with ALL = 1 starts an invalidation of the instance's whole space. -/
  | mmuInvalidateAll (n : Fin 33) (value : BitVec 32)
  /-- INVALIDATION_DONE (R85): An invalidation ends once every request translated by a removed entry has been answered, and DONE is set. -/
  | invalidationDone (n : Fin 33)
  /-- PRB_CTL_WRITE (R230): A write of a probe's PRB_CTL configures it, and a rise of EN clears its counters. -/
  | prbCtlWrite (k : Fin 32) (value : BitVec 32)
  /-- TRACE_CTL_WRITE (R232): A write of TRACE_CTL configures tracing, and a rise of EN clears WPTR, FULL and DROPPED. -/
  | traceCtlWrite (value : BitVec 32)
  /-- NET_TMO_WRITE (R232): A write of NET_TMO_PRIV or NET_TMO_HOST stores the limit clamped to 8 to 4,000 µs. -/
  | netTmoWrite (hostLimit : Bool) (value : BitVec 32)
  /-- EMU_WRITE (R324): A write to an emulated register enters the function's 8-entry write queue, or is dropped with FE_OVF when the queue is full. -/
  | emuWrite (fn : Fin 33) (off : Nat) (value : BitVec 32)
  /-- EMU_WRITE_APPLY (R324): Topcoat applies a queued emulated-register write in queue order. -/
  | emuWriteApply (fn : Fin 33)
  /-- EMU_READ (R324): A read of an emulated register is answered by Topcoat, or from the hardware shadow while MGC_DOWN is 1. -/
  | emuRead (fn : Fin 33) (off : Nat) (size : Nat)
  /-- SHADOW_PUBLISH (R324): Topcoat publishes emulated register values into the hardware shadows on change and at least once per ms. -/
  | shadowPublish (fn : Fin 33)
  /-- MSIX_VECTOR_UNMASK (R105): A write that ends a mask or disable condition sends every pending MSI-X message of the vector as one. -/
  | msixVectorUnmask (fn : Fin 33) (vector : Nat)
  /-- MAILBOX_DOORBELL (R245): A write of IN_PROD makes new request cells available to Topcoat, or is ignored when out of range. -/
  | mailboxDoorbell (fn : Fin 33) (value : BitVec 32)
  /-- NOP_MESSAGE (R246): Topcoat takes a NOP message and replies with no payload. -/
  | nopMessage (mb : Fin 33) (h : MsgHdr) (payload : List Byte)
  /-- QUEUE_CREATE (R116): Topcoat takes QUEUE_CREATE, checks the descriptor and assigns the lowest free queue slot. -/
  | queueCreate (mb : Fin 33) (h : MsgHdr) (payload : List Byte)
  /-- QUEUE_DESTROY (R137): Topcoat takes QUEUE_DESTROY and frees the queue's slot when the queue's state allows it. -/
  | queueDestroy (mb : Fin 33) (h : MsgHdr) (payload : List Byte)
  /-- QUEUE_RESET (R137): Topcoat takes QUEUE_RESET of a STOPPED queue, sets READ to the recorded WRITE, clears reservations and returns the queue to ACTIVE. -/
  | queueReset (mb : Fin 33) (h : MsgHdr) (payload : List Byte)
  /-- SEM_SET (R246): Topcoat takes SEM_SET and writes a semaphore value, sets or removes its mirror, or clears its poisoning as FLAGS select. -/
  | semSet (mb : Fin 33) (h : MsgHdr) (payload : List Byte)
  /-- GRAPH_REGISTER (R144): Topcoat takes GRAPH_REGISTER, reads and checks the image and copies it into the graph store as version 1. -/
  | graphRegister (mb : Fin 33) (h : MsgHdr) (payload : List Byte) (host : List Byte)
  /-- GRAPH_RELEASE (R145): Topcoat takes GRAPH_RELEASE and ends the graph's current version. -/
  | graphRelease (mb : Fin 33) (h : MsgHdr) (payload : List Byte)
  /-- GRAPH_QUERY (R246): Topcoat takes GRAPH_QUERY and replies with the current and live versions. -/
  | graphQuery (mb : Fin 33) (h : MsgHdr) (payload : List Byte)
  /-- CONTRACT_ADMIT (R192): Topcoat takes CONTRACT_ADMIT, runs the admission test and reserves resources or refuses the contract naming the failing term. -/
  | contractAdmit (mb : Fin 33) (h : MsgHdr) (payload : List Byte)
  /-- CONTRACT_RELEASE (R199): Topcoat takes CONTRACT_RELEASE and releases the contract. -/
  | contractRelease (mb : Fin 33) (h : MsgHdr) (payload : List Byte)
  /-- CONTRACT_QUERY (R246): Topcoat takes CONTRACT_QUERY and replies with the contract's state and last reason. -/
  | contractQuery (mb : Fin 33) (h : MsgHdr) (payload : List Byte)
  /-- INSTANCE_INFO (R246): Topcoat takes INSTANCE_INFO and replies with the instance's state, generation, owned set and limits. -/
  | instanceInfo (mb : Fin 33) (h : MsgHdr) (payload : List Byte)
  /-- MAILBOX_CLOSE (R246): Topcoat takes MAILBOX_CLOSE, replies and closes the mailbox. -/
  | mailboxClose (mb : Fin 33) (h : MsgHdr) (payload : List Byte)
  /-- INSTANCE_CREATE (R238): Topcoat takes INSTANCE_CREATE for an absent instance and creates it ACTIVE with a new generation. -/
  | instanceCreate (mb : Fin 33) (h : MsgHdr) (payload : List Byte)
  /-- INSTANCE_QUIESCE (R239): Topcoat takes INSTANCE_QUIESCE and runs the seven quiesce steps, ending in QUIESCED. -/
  | instanceQuiesce (mb : Fin 33) (h : MsgHdr) (payload : List Byte)
  /-- INSTANCE_REMOVE (R239): Topcoat takes INSTANCE_REMOVE of a QUIESCED instance and returns it to ABSENT. -/
  | instanceRemove (mb : Fin 33) (h : MsgHdr) (payload : List Byte)
  /-- INSTANCE_RESET (R240): Topcoat takes INSTANCE_RESET, which applies a reset at level L3 to the named instance. -/
  | instanceReset (mb : Fin 33) (h : MsgHdr) (payload : List Byte)
  /-- PART_ASSIGN (R242): Topcoat takes PART_ASSIGN and adds partitions to the instance's owned set. -/
  | partAssign (mb : Fin 33) (h : MsgHdr) (payload : List Byte)
  /-- PART_REVOKE (R242): Topcoat takes PART_REVOKE, reruns the admission test where needed, removes members from bindings and shrinks the owned set. -/
  | partRevoke (mb : Fin 33) (h : MsgHdr) (payload : List Byte)
  /-- ROLE_BIND (R155): Topcoat takes ROLE_BIND, checks the binding and any contracts, and writes the binding word in one write. -/
  | roleBind (mb : Fin 33) (h : MsgHdr) (payload : List Byte)
  /-- ROLE_UNBIND (R154): Topcoat takes ROLE_UNBIND and clears the role's binding word unless a contract uses the role. -/
  | roleUnbind (mb : Fin 33) (h : MsgHdr) (payload : List Byte)
  /-- FREEZE (R253): Topcoat takes FREEZE of an ACTIVE instance, which enters FREEZING, stops fetching and granting, and pre-empts granted launches. -/
  | freeze (mb : Fin 33) (h : MsgHdr) (payload : List Byte)
  /-- FREEZE_COMPLETE (R253): The instance becomes FROZEN once its launches are saved or ended and its writes and records are done, and FROZEN_AT is stamped. -/
  | freezeComplete (n : Fin 33)
  /-- FREEZE_TIMEOUT (R254): TIMEOUT_MS passes before the instance is FROZEN, and the freeze is abandoned with the instance returned to ACTIVE. -/
  | freezeTimeout (n : Fin 33)
  /-- SAVE (R256): Topcoat takes SAVE of a FROZEN instance and the copy engine writes the state blob, header last. -/
  | save (mb : Fin 33) (h : MsgHdr) (payload : List Byte)
  /-- RESTORE (R263): Topcoat takes RESTORE, checks the blob and creates the instance FROZEN with its state, readmitting its contracts. -/
  | restore (mb : Fin 33) (h : MsgHdr) (payload host : List Byte) (sections : Blob)
  /-- THAW (R266): Topcoat takes THAW of a FROZEN instance, shifts release times and stamps, writes pending records and returns its queues to ACTIVE. -/
  | thaw (mb : Fin 33) (h : MsgHdr) (payload : List Byte)
  /-- ATTACH (R337): Topcoat takes ATTACH, checks EXPECT_GEN, advances MGR_GEN and arms the host-loss timer, ends orphan mode, or detaches. -/
  | attach (mb : Fin 33) (h : MsgHdr) (payload : List Byte)
  /-- DICT_TUNNEL (R283): Topcoat takes DICT_TUNNEL and passes its Umner frame to the dictionary serialiser, replying with the response frame. -/
  | dictTunnel (mb : Fin 33) (h : MsgHdr) (payload : List Byte)
  /-- FLR (R107): A configuration write initiating FLR of PF0 or a VF acts as a reset source at its mapped level for that function. -/
  | flr (fn : Fin 33)
  /-- VF_ENABLE_CLEAR (R108): Clearing VF Enable applies an FLR to every existing VF at once. -/
  | vfEnableClear
  /-- VF_ENABLE_SET (R108): Setting VF Enable makes VF1 to VF NumVFs exist without creating instances. -/
  | vfEnableSet
  /-- NUMVFS_WRITE (R108): A write to NumVFs changes the number of VFs, and is ignored when it would remove an existing instance's VF. -/
  | numVfsWrite (value : Nat)
  /-- D3HOT_ENTRY (R350): A function enters D3hot, and its queues become HELD with cause 5; for PF0 every partition is gated and contracts are suspended. -/
  | d3hotEntry (fn : Fin 33)
  /-- D0_RETURN (R350): A function returns to D0, and its queues return to ACTIVE; for PF0 the requested power state is entered and suspended contracts are retested. -/
  | d0Return (fn : Fin 33)
  /-- ATS_INVALIDATE (R72): The host bridge receives an ATS invalidation request and removes the translation from its cache. -/
  | atsInvalidate (fn : Fin 33) (page : Nat)
  /-- ATS_INVALIDATE_COMPLETE (R72): The host bridge sends the invalidation completion once every request that used the translation has left it. -/
  | atsInvalidateComplete (fn : Fin 33) (page : Nat)
  /-- HOST_COMPLETION (R109): A completion for a non-posted device request arrives from the host and is returned to the initiator, or discarded if late or marked. -/
  | hostCompletion (tag : Nat) (status : Nat) (poisoned : Bool) (data : List Byte)
  /-- HOST_CPL_TIMEOUT (R109): The host bridge's completion timeout expires, and it reports AER and ends the access with HOST_CPL_TIMEOUT. -/
  | hostCplTimeout (tag : Nat)
  /-- LINK_DOWN (R115): The host link goes down, and outstanding host requests end with HOST_LINK_DOWN, MSI-X is held and the link-down source acts. -/
  | linkDown (toL2 : Bool)
  /-- HOT_RESET (R364): A hot reset is received on the host link and acts as the link reset source at its mapped level. -/
  | hotReset
  /-- LINK_ACTIVE (R375): The host link reaches its active state after training, enabling configuration answers once the device region is filled. -/
  | linkActive (speed : Nat) (width : Nat) (ucie : Nat)
  /-- PWR_GOOD_RISE (R375): PWR_GOOD rises and the L0 exit sequence begins. -/
  | pwrGoodRise
  /-- PWR_GOOD_FALL (R434): PWR_GOOD falls for at least the qualifying width and an L0 reset is held while it is low. -/
  | pwrGoodFall (ns : Nat)
  /-- RST_N_ASSERT (R374): RST_N is held low long enough and the RST_N source acts at its mapped level. -/
  | rstNAssert (ns : Nat)
  /-- PERST_N_ASSERT (R374): PERST_N is held low long enough in mode P and the PERST_N source acts at its mapped level. -/
  | perstNAssert (ns : Nat)
  /-- PWR_CAP_N_FALL (R360): PWR_CAP_N falls and the CBA sets every ungated partition to the emergency step. -/
  | pwrCapNFall (ns : Nat)
  /-- PWR_CAP_N_RISE (R360): PWR_CAP_N rises and the CBA restores class 0 floors first, then raises clocks toward targets. -/
  | pwrCapNRise
  /-- REFCLK_LOSS (R433): REFCLK has produced no edge for 2 µs while PWR_GOOD is high, and the device behaves as on a fall of PWR_GOOD. -/
  | refclkLoss
  /-- THERMAL_SAMPLE (R354): The 24 thermal sensors are sampled at a whole multiple of 100 µs of DEVTIME. -/
  | thermalSample (temps : List Int)
  /-- THERMAL_EVALUATE (R354): Each cluster thermal loop evaluates its hottest sensor at a whole ms of DEVTIME and moves its clock ceiling. -/
  | thermalEvaluate
  /-- TAP_RESET (R440): The JTAG TAP is reset by TRST_N low, five TCK cycles with TMS high, or an L0 exit, and IDCODE is selected. -/
  | tapReset
  /-- EXTEST (R441): The EXTEST instruction takes control of the boundary pins while RST_N is low, and otherwise acts as BYPASS. -/
  | extest
  /-- SAMPLE_PRELOAD (R440): The SAMPLE/PRELOAD instruction captures or preloads the boundary register. -/
  | samplePreload (cells : BitVec 64) (preload : BitVec 64)
  /-- IDCODE (R440): The IDCODE instruction selects the 32-bit identification register. -/
  | idcode
  /-- CLAMP (R441): The CLAMP instruction holds the pins from the boundary register while RST_N is low, and otherwise acts as BYPASS. -/
  | clamp
  /-- HIGHZ (R441): The HIGHZ instruction sets the pins to high impedance while RST_N is low, and otherwise acts as BYPASS. -/
  | highz
  /-- BYPASS (R440): The BYPASS instruction, or any undefined opcode, selects the one-bit bypass register. -/
  | bypass
  /-- RESPONSE_READ (R272): A private read on the management link returns RSP_LEN and the ready response frame, or 0x00 when not ready. -/
  | responseRead
  /-- READ (R276): An Umner READ request is checked and returns the value of a dictionary entry. -/
  | read (path : Path) (f : UFrame)
  /-- WRITE (R287): An Umner WRITE request to an entry without a row of its own is checked in order and writes the value, advancing the epoch. -/
  | write (path : Path) (f : UFrame)
  /-- WRITE_COND (R276): An Umner WRITE_COND writes the value only if the entry's epoch equals EXPECT. -/
  | writeCond (path : Path) (f : UFrame)
  /-- SEG_READ_START (R277): SEG_READ_START copies a whole value into the path's snapshot buffer and returns its length and CRC-32. -/
  | segReadStart (path : Path) (f : UFrame)
  /-- SEG_READ (R277): SEG_READ returns COUNT bytes of the snapshot from OFFSET. -/
  | segRead (path : Path) (f : UFrame)
  /-- SEG_WRITE_START (R277): SEG_WRITE_START opens a segmented write session with TOTAL, CRC-32 and EXPECT. -/
  | segWriteStart (path : Path) (f : UFrame)
  /-- SEG_WRITE (R277): SEG_WRITE appends a contiguous segment and, on reaching TOTAL, checks the CRC and writes the whole value. -/
  | segWrite (path : Path) (f : UFrame)
  /-- SEG_ABORT (R277): SEG_ABORT ends the path's open segmented session. -/
  | segAbort (path : Path) (f : UFrame)
  /-- SEG_SESSION_TIMEOUT (R277): A segmented session receives no segment for 1 s and ends. -/
  | segSessionTimeout (path : Path)
  /-- ENEC (R271): The ENEC CCC enables in-band interrupts. -/
  | enec
  /-- DISEC (R271): The DISEC CCC disables in-band interrupts. -/
  | disec
  /-- RSTDAA (R270): The RSTDAA CCC clears the dynamic address and returns the device to its static address. -/
  | rstdaa
  /-- ENTDAA (R268): The ENTDAA CCC assigns a dynamic address through arbitration. -/
  | entdaa (addr : BitVec 7)
  /-- SETDASA (R268): The SETDASA CCC assigns a dynamic address from the static address. -/
  | setdasa (addr : BitVec 7)
  /-- SETNEWDA (R268): The SETNEWDA CCC changes the dynamic address. -/
  | setnewda (addr : BitVec 7)
  /-- GETPID (R268): The GETPID CCC returns the 48-bit provisional ID. -/
  | getPid
  /-- GETBCR (R268): The GETBCR CCC returns BCR 0x06. -/
  | getBcr
  /-- GETDCR (R268): The GETDCR CCC returns DCR 0x00. -/
  | getDcr
  /-- GETSTATUS (R268): The GETSTATUS CCC returns the target status. -/
  | getStatus
  /-- GETMWL (R268): The GETMWL CCC returns the maximum write length of 106 bytes. -/
  | getMwl
  /-- GETMRL (R268): The GETMRL CCC returns the maximum read length of 111 bytes. -/
  | getMrl
  /-- MGMT_LINK_LOST (R288): No good frame arrives on the management link for the link-loss time, so the alert bit is set and link claims may be released. -/
  | mgmtLinkLost
  /-- RESET_REQ (R298): A write of 1 to RESET_REQ makes the management-link reset source act at its mapped level. -/
  | resetReq (path : Path) (f : UFrame)
  /-- ALERT_ACK (R298): A write of ALERT_ACK clears the latched ALERT bits written as 1. -/
  | alertAck (path : Path) (f : UFrame)
  /-- CLAIM (R286): A write of a claim subindex claims or releases a claim group for the writing path. -/
  | claim (path : Path) (f : UFrame)
  /-- STORE (R293): A write of STORE starts programming the stored settings into the older settings copy. -/
  | store (path : Path) (f : UFrame)
  /-- RESTORE_DEFAULT (R293): A write of RESTORE_DEFAULT writes the defaults of every entry of the named claim groups, or fails whole. -/
  | restoreDefault (path : Path) (f : UFrame)
  /-- HOST_LOSS_MS (R333): A write of HOST_LOSS_MS sets the host-loss time and restarts the heartbeat count. -/
  | hostLossMs (path : Path) (f : UFrame)
  /-- LINK_LOSS_MS (R288): A write of LINK_LOSS_MS sets the link-loss time and restarts its timer. -/
  | linkLossMs (path : Path) (f : UFrame)
  /-- ENABLE (R302): A write of a partition's ENABLE withdraws it from or returns it to the candidate sets, after the contract checks. -/
  | enable (path : Path) (f : UFrame)
  /-- RETIRE (R303): A write of RETIRE retires a partition, or ends its retirement with an L5 reset. -/
  | retire (path : Path) (f : UFrame)
  /-- PARTITION_RESET (R371): A write of 1 to a partition's RESET entry starts an L5 reset of the partition, or fails with BUSY. -/
  | partitionReset (path : Path) (f : UFrame)
  /-- PRIV_SHARE_MBPS (R305): A write of an instance's private-memory share is accepted only when the sum of shares fits the data bandwidth. -/
  | privShareMbps (path : Path) (f : UFrame)
  /-- POWER_STATE_REQ (R347): A write of POWER_STATE_REQ starts a transition to Active, Trickle or Dormant, or is refused for contracts. -/
  | powerStateReq (path : Path) (f : UFrame)
  /-- BUDGET_MW (R361): A write of BUDGET_MW, EMERGENCY_CAP_MW or PLATFORM_RESERVE_MW changes the CBA's limits and reruns admission. -/
  | budgetMw (path : Path) (f : UFrame)
  /-- CAL_RECORD (R406): A segmented write of CAL_RECORD is checked and starts programming the calibration record into the keep store. -/
  | calRecord (path : Path) (value : List Byte)
  /-- DOWNLOAD (R416): A segmented write of DOWNLOAD starts programming a patch bundle into the inactive bank. -/
  | download (path : Path) (value : List Byte)
  /-- VERIFY (R417): A write of VERIFY checks the inactive bank's bundle and programs its verify word when every check passes. -/
  | verify (path : Path) (f : UFrame)
  /-- ACTIVATE (R418): A write of ACTIVATE selects the verified inactive bank for trial. -/
  | activate (path : Path) (f : UFrame)
  /-- CONFIRM (R419): A write of CONFIRM programs both confirm words of the bank in trial. -/
  | confirm (path : Path) (f : UFrame)
  /-- KEEP_STORE_OP_DONE (R402): The keep-store engine ends an operation list, with success or KEEP_STORE_FAIL, and reports its result. -/
  | keepStoreOpDone (ok : Bool) (failAddr : Nat)
  /-- SERVICE_REQUEST (R172): T7 executes a Topcoat request from the service port ring and writes its result. -/
  | serviceRequest
  /-- FETCH_READ (R166): The fetch unit issues a submission-ring read for the next eligible slot in round robin. -/
  | fetchRead
  /-- COMMAND_CHECK (R128): The last bytes of a command arrive and stage 3 checks its format, opcode and Glove check point 2. -/
  | commandCheck (slot : Fin 512)
  /-- RELOCATE (R88): Stage 4 relocates every handle-plus-offset pair, reading handle-table entries on cache misses. -/
  | relocate (slot : Fin 512) (seq : BitVec 32)
  /-- ACCEPTANCE_POINT (R17): Stage 5 ends: the constant buffer is copied, the version pinned, the generation stamped and READ advanced. -/
  | acceptancePoint (slot : Fin 512) (seq : BitVec 32)
  /-- NOP (R125): The NOP command completes with OK. -/
  | nop (slot : Fin 512) (seq : BitVec 32)
  /-- WAIT (R129): The WAIT command holds its queue at stage 6 until a semaphore reaches a value. -/
  | wait (slot : Fin 512) (seq : BitVec 32)
  /-- SIGNAL (R129): The SIGNAL command raises a semaphore after every earlier command of its queue has completed. -/
  | signal (slot : Fin 512) (seq : BitVec 32)
  /-- BARRIER (R125): The BARRIER command completes after every earlier command of its queue has completed. -/
  | barrier (slot : Fin 512) (seq : BitVec 32)
  /-- COPY (R127): The COPY command copies bytes between two extents on a copy-engine channel. -/
  | copy (slot : Fin 512) (seq : BitVec 32)
  /-- FILL (R127): The FILL command fills an extent with a 32-bit pattern on a copy-engine channel. -/
  | fill (slot : Fin 512) (seq : BitVec 32)
  /-- HANDLE_BIND (R127): The HANDLE_BIND command binds a handle-table entry at stage 5 and returns the new handle. -/
  | handleBind (slot : Fin 512) (seq : BitVec 32)
  /-- HANDLE_FREE (R127): The HANDLE_FREE command frees a handle-table entry at stage 5, advancing its GEN. -/
  | handleFree (slot : Fin 512) (seq : BitVec 32)
  /-- LAUNCH_GRAPH (R128): The LAUNCH_GRAPH command launches a role of a stored graph. -/
  | launchGraph (slot : Fin 512) (seq : BitVec 32)
  /-- PATCH (R150): The PATCH command builds a new graph version under the patch build and makes it current at its acceptance point. -/
  | patch (slot : Fin 512) (seq : BitVec 32)
  /-- SCOREBOARD_ADMIT (R130): A scoreboard entry frees and the oldest waiting command at stage 6 is admitted, or passes when its semaphore is already satisfied. -/
  | scoreboardAdmit
  /-- WAIT_TIMEOUT (R126): A WAIT's TIMEOUT_US expires at stage 6 and it completes with WAIT_TIMEOUT. -/
  | waitTimeout (slot : Fin 512) (seq : BitVec 32)
  /-- PRIORITY_QUEUE_INSERT (R169): A ready launch, COPY or FILL takes a reserved or unreserved priority-queue entry once one is free. -/
  | priorityQueueInsert (slot : Fin 512) (seq : BitVec 32)
  /-- SCAN (R168): The grant unit scans the priority queue in scan order and grants, claims or requests pre-emption. -/
  | scan
  /-- GRANT_ACK (R16): The FEP receives a partition's acknowledgement of a grant, ending stage 8 when all bound partitions have acknowledged. -/
  | grantAck (p : Fin 16)
  /-- FUSION_CHANGE_COMPLETE (R43): A cluster's fusion change completes, the shape register is updated and the first tile may request grants. -/
  | fusionChangeComplete (c : Fin 4)
  /-- CURRENT_GRANT_REQUEST (R357): A partition's microword requests a current grant from the CBA for its next tile. -/
  | currentGrantRequest (p : Fin 16)
  /-- TILE_START_REPORT (R170): The FEP receives a tile start report in directed mode and sends the dispatch of the next tile. -/
  | tileStartReport (p : Fin 16)
  /-- TILE_END (R170): A tile ends at the partition, freeing landing slots and releasing or reporting its boundary. -/
  | tileEnd (p : Fin 16) (work : List TileOp)
  /-- TILE_OVERRUN (R40): A tile's cycle count passes WC_CYCLES and the FEP sends the manager TILE_OVERRUN. -/
  | tileOverrun (p : Fin 16)
  /-- SAVE_REPORT (R204): A pre-empted partition reports its saved live set and the launch moves to the resume slot. -/
  | saveReport (p : Fin 16)
  /-- END_REPORT (R24): A partition reports the end of a launch after every write of it is acknowledged. -/
  | endReport (p : Fin 16)
  /-- COMPLETION_RECORD_WRITE (R24): The FEP writes a command's completion record in queue order once its end reports are in and earlier records are written. -/
  | completionRecordWrite (slot : Fin 512) (seq : BitVec 32)
  /-- RECORD_ACK (R24): The completion record is acknowledged, and the FEP signals semaphores, writes mirrors and sends MSI-X. -/
  | recordAck (slot : Fin 512) (seq : BitVec 32) (status : Status)
  /-- IRQ_HOLDOFF_EXPIRY (R133): A queue's HOLDOFF interval ends and a held-back message is sent. -/
  | irqHoldoffExpiry (slot : Fin 512)
  /-- PROGRESS_TIMEOUT (R135): A command's progress time expires without its records and it becomes the guilty point. -/
  | progressTimeout (slot : Fin 512) (seq : BitVec 32)
  /-- RESET_RECORD (R134): The RESET record is written in the guilty command's place once the round ends, earlier records are written and ring space exists. -/
  | resetRecord (slot : Fin 512) (status : Status)
  /-- MACHINE_CHECK (R49): A partition detects a microword parity error or uncorrectable SRAM error, stops and reports to the FEP. -/
  | machineCheck (p : Fin 16) (cause : Nat) (location : BitVec 27)
  /-- MCHECK_REPORT (R50): The FEP acts on a partition machine check report, completing or relaunching the launch and sending PARTITION_OFFLINE. -/
  | mcheckReport (p : Fin 16)
  /-- SKIM_BLOCK_SEND (R62): A Skim engine sends the next stream block when every attached replica's lag allows it. -/
  | skimBlockSend (g : Fin 8)
  /-- SLOT_CREDIT (R62): A Skim engine receives a slot credit, reducing a replica's lag and possibly ending the group. -/
  | slotCredit (g : Fin 8) (p : Fin 16)
  /-- SKIM_HOLD_EXPIRY (R62): The 4 µs hold limit expires and the engine detaches every replica still blocking the stream. -/
  | skimHoldExpiry (g : Fin 8)
  /-- TOKEN (R157): A relay consumer receives a data-ready token or FINAL marker on an edge. -/
  | token (p : Fin 16) (edge : Fin 32) (final : Bool) (marker : Bool) (pkt : Pkt)
  /-- CREDIT (R157): A relay producer receives a buffer credit on an edge. -/
  | credit (p : Fin 16) (edge : Fin 32) (pkt : Pkt)
  /-- RD (R216): A target receives a read request, checks Glove point 3 and serves it under its ticket. -/
  | rd (pkt : Pkt) (dma : Dma)
  /-- WR (R23): A target receives a write request and performs it, acknowledging once ordered. -/
  | wr (pkt : Pkt) (data : List Byte) (dma : Dma)
  /-- WALK (R82): A memory controller receives a walk request and reads the page-table levels not cached. -/
  | walk (pkt : Pkt) (dva : Nat) (write : Bool)
  /-- IRQ (R105): The host bridge receives an interrupt request and sends the MSI-X message or holds it pending. -/
  | irq (pkt : Pkt) (vector : Nat)
  /-- REG_RD (R221): A node receives a register read request. -/
  | regRd (pkt : Pkt)
  /-- REG_WR (R221): A node receives a register write request. -/
  | regWr (pkt : Pkt) (data : BitVec 32)
  /-- RD_RSP (R380): An initiator receives read data, restores the ticket, and ends the launch if the status is an error. -/
  | rdRsp (pkt : Pkt) (poisoned : Bool)
  /-- WR_ACK (R23): An initiator receives a write acknowledgement, restoring its ticket. -/
  | wrAck (pkt : Pkt)
  /-- REG_RSP (R221): An initiator receives a register response. -/
  | regRsp (pkt : Pkt)
  /-- SKIM (R223): A partition receives its copy of a Skim block into its landing ring after Glove check point 3. -/
  | skim (pkt : Pkt) (p : Fin 16)
  /-- PREEMPT (R204): A partition leader receives a pre-emption request and continues to the next pre-emptible boundary. -/
  | preempt (p : Fin 16)
  /-- VOID (R229): An initiator receives a VOID, restores the ticket and frees the tag with no response. -/
  | voidPkt (pkt : Pkt)
  /-- TICKET_REQ (R216): A target receives a request for 1 to 8 loan tickets. -/
  | ticketReq (pkt : Pkt) (count : Nat)
  /-- TICKET_GRANT (R216): An initiator receives loan tickets from a target's loan pool. -/
  | ticketGrant (pkt : Pkt) (count : Nat)
  /-- GEN_UPDATE (R222): A node receives a generation update and answers with GEN_ACK. -/
  | genUpdate (node : Fin 24) (n : Fin 33) (gen : BitVec 16)
  /-- GEN_ACK (R222): The FEP receives a GEN_ACK, completing the generation advance when every node has answered. -/
  | genAck (node : Fin 24) (n : Fin 33)
  /-- INITIATOR_TIMEOUT (R227): An initiator's timeout expires for a request, which ends with ERR_TIMEOUT, advances TGEN and writes off the ticket. -/
  | initiatorTimeout (src : Fin 24) (tag : Fin 1024)
  /-- BRIDGE_NAK (R224): A bridge receiver refuses a flit with a bad CRC and the sender replays from it. -/
  | bridgeNak (b : Fin 18) (again : Bool)
  /-- LINK_FATAL (R225): A bridge exhausts its retries, poisons the flit, marks the link FATAL and reports LINK_FATAL. -/
  | linkFatal (b : Fin 18)
  /-- LINK_FATAL_INTERVAL_END (R225): The larger initiator timeout has passed since LINK_FATAL and the FEP completes the partition's launch with LINK_FATAL. -/
  | linkFatalIntervalEnd (p : Fin 16)
  /-- DRAIN_ROUND_START (R384): The abort sequencer starts a drain round, writing drain entries for every waiting request into every drain table. -/
  | drainRoundStart
  /-- DRAIN_ROUND_END (R385): Every clear wire has been asserted for 16 cycles, the round ends and the FEP runs the abort bookkeeping. -/
  | drainRoundEnd
  /-- CONTROL_STORE_ERROR (R173): A control-store fetch finds an uncorrectable error, all threads stop and the fatal machine check source acts. -/
  | controlStoreError (addr : BitVec 12) (thread : Fin 8) (flips : BitVec 137)
  /-- SCRUB (R174): The scrubber reads one control-store word every 1,024 network cycles and corrects or repairs it. -/
  | scrub (flips : BitVec 137) (bufferGood : Bool)
  /-- FEP_HANG_WATCHDOG (R179): The FEP hang watchdog expires, all threads stop and the watchdog source acts. -/
  | fepHangWatchdog (stall : Bool) (thread : Fin 8) (addr : BitVec 12)
  /-- MGC_WATCHDOG (R325): The 100 ms MGC watchdog expires and its reset source acts. -/
  | mgcWatchdog
  /-- STACKING_FAULT (R327): An exception push fails its stack checks, the core saves to the shadow bank and takes an L4 reset. -/
  | stackingFault (sp : BitVec 32)
  /-- MGC_RESTART_COMPLETE (R330): Primer's check of the Topcoat SRAM ends a restart, and Topcoat serves again with MGC_RESTART sent or LOAD_WAIT entered. -/
  | mgcRestartComplete
  /-- HOST_LOSS_EXPIRY (R334): The armed host-loss timer reaches HOST_LOSS_MS at a ms evaluation and orphan mode begins in hardware. -/
  | hostLossExpiry
  /-- DICT_REFRESH (R312): Topcoat refreshes the dictionary entries that mirror a changed hardware state. -/
  | dictRefresh
  /-- CONTRACT_LOG_READ (R198): Topcoat reads the contract log at least once per ms and raises the contract events. -/
  | contractLogRead
  /-- L1_RESET (R374): A source at level L1 or L0 acts: DEV_READY falls, partitions stop, the host link and memory are reset and instances end. -/
  | l1Reset
  /-- RESET_HOLD_END (R374): The hold of an L1 or L0 reset ends, by a pin's release, the trip release or a 20 µs expiry, and exit begins. -/
  | resetHoldEnd
  /-- L0_EXIT (R375): The always-on PLL locks, fuses load, straps are sampled and the L0 exit point sets DEVTIME to zero. -/
  | l0Exit
  /-- L1_EXIT (R375): Primer restarts, the keep store is read, stores are built and the fabric is released. -/
  | l1Exit (badStores : BitVec 16)
  /-- MEMORY_TRAINED (R375): Private memory training completes at the configuration in force and the device-region zero-fill begins. -/
  | memoryTrained
  /-- DEVICE_REGION_FILLED (R367): The device region zero-fill completes, allowing configuration requests to be answered. -/
  | deviceRegionFilled
  /-- L2_RESET (R182): A source at L2 acts and the reset sequencer requests pre-emption from every running partition. -/
  | l2Reset
  /-- L2_PREEMPT_DEADLINE (R182): 40 µs after the L2 source, unsaved partitions are stopped, routers drained and stores reloaded. -/
  | l2PreemptDeadline (patchGood imageGood : Bool)
  /-- L2_REBUILD (R182): After the reload, the FEP rebuilds slots, scoreboard and priority queue from its journal and resumes fetching. -/
  | l2Rebuild
  /-- L3_RESET (R240): A reset at level L3 of an instance ends its work, advances its generation and clears its state. -/
  | l3Reset (n : Fin 33)
  /-- L5_RESET_DONE (R51): A partition's L5 reset ends its store read-back, returning it to STATE 1 or leaving it offline with CAUSE 5. -/
  | l5ResetDone (p : Fin 16) (storeGood : Bool) (bufferGood : Bool)
  /-- POWER_STATE_TRANSITION_DONE (R349): A power-state transition completes and POWER_STATE_CHANGED is sent. -/
  | powerStateTransitionDone
  /-- PARTITION_IDLE_GATE (R345): A partition in Active with no binding or saved launch is gated after 10 ms without a grant. -/
  | partitionIdleGate (p : Fin 16)
  /-- PARTITION_UNGATE_DONE (R34): An ungated partition finishes zero-filling its SRAMs and may accept grants. -/
  | partitionUngateDone (p : Fin 16)
  /-- FABRIC_CLOCK_REGATE (R349): In Dormant, the fabric clock is gated again 1 ms after the last fabric activity. -/
  | fabricClockRegate
  /-- RAIL_LOW (R342): An LDO output stays 10 mV below setpoint for 1 µs and the CBA caps the cluster. -/
  | railLow (c : Fin 4) (mV : Nat)
  /-- RAIL_LOW_CLEAR (R342): 100 µs after dropout ends the cluster cap lifts. -/
  | railLowClear (c : Fin 4)
  /-- LDO_SETTLED (R340): A partition LDO reports its output settled and an ordered step up takes effect. -/
  | ldoSettled (p : Fin 16)
  /-- VOLTAGE_TRIM (R353): Each 10 µs the voltage trim moves an LDO setpoint by one 5 mV step. -/
  | voltageTrim (p : Fin 16) (up : Bool)
  /-- READ_ASSIST_STEP (R351): The read-assist loop changes a weight-SRAM bank pair's setting at most once per 100 µs. -/
  | readAssistStep (p : Fin 16) (pair : Fin 16) (setting : Fin 8)
  /-- TELEMETRY_UPDATE (R362): The power telemetry mirror is updated every 100 µs. -/
  | telemetryUpdate (meas : List Nat)
  /-- CORE_FAULT (R328): An exception that Topcoat does not recover from stops the Dreben core and takes an L4 restart with cause FAULT. -/
  | coreFault
  /-- UNDEFINED_MESSAGE (R245): Topcoat takes a request whose MSG is not defined, or whose CELLS are out of range, and replies BAD_MESSAGE or BAD_FIELD, consuming its cells. -/
  | undefinedMessage (mb : Fin 33) (h : MsgHdr) (payload : List Byte)
  /-- REQUEST_FRAME_ERROR (R272): A private write outside 10 to 106 bytes, or one with a bad CRC or an undefined opcode, takes no effect and leaves a FRAME_LENGTH, FRAME_CRC or BAD_OPCODE response. -/
  | requestFrameError (frame : List Byte)
  /-- I3C_BROADCAST_ADDRESS (R269): The first I3C broadcast address 0x7E seen after an L0 exit turns off the 50 ns I2C spike filter. -/
  | i3cBroadcastAddress
  /-- HDR_ENTRY (R268): An HDR entry on the management bus makes the device ignore all traffic until the exit pattern. -/
  | hdrEntry
  /-- HDR_EXIT_PATTERN (R268): The HDR exit pattern on the management bus ends the period of ignored traffic, and SDR transfers are answered again. -/
  | hdrExitPattern
  /-- REFCLK_RESTORED (R433): REFCLK returns after a loss, and the device restarts as after power-on. -/
  | refclkRestored
  /-- SHARE_WINDOW (R79): A new 1 µs share window of DEVTIME opens at each memory controller and at the host bridge, releasing requests that waited for it. -/
  | shareWindow
  /-- CRITICAL_PATH_MONITOR_REPORT (R352): A critical-path monitor reports a margin shortfall, so the clock is stretched within 2 cycles and, once the allowance is spent, the fast boost raises the LDO. -/
  | criticalPathMonitorReport (p : Fin 16) (cycles : Nat)
  /-- BRIDGE_RETRAINED (R225): The I/O node bridge ends its self-retraining within 100 µs of LINK_FATAL, and FATAL clears. -/
  | bridgeRetrained
  /-- LINK_RETRAIN (R111): Host link replay is exhausted, so the link enters retraining or Recovery with a correctable AER error, and traffic is delayed without DL_Down. -/
  | linkRetrain
  /-- RESERVED_TYPE_PACKET (R212): A router or node receives a packet whose TYPE is reserved, and discards and counts it in NET_MALFORMED. -/
  | reservedTypePacket (pkt : Pkt)
  /-- STATUS_WRITE_BACK (R122): The FEP writes a queue's status write-back block within 1 µs of the last change of READ or CPL, at most once per µs. -/
  | statusWriteBack (slot : Fin 512) (status : Status)
  deriving DecidableEq, Repr

end Sys2Proof
end

