-- ==== Sys2Proof/Decode.lean ====
section
/-! DEFINITION. The command that a table word spells. The table of operations gives no row any bits: the Izica takes
its commands as register accesses, messages, frames, packets and pin events, not as instruction words (log entry 22). -/

namespace Sys2Proof

/-- The command that the low `nbits` bits of `w` spell by the table's encodings: none, for no row has bits. -/
def decodeTableWord (nbits w : Nat) : Option Instr :=
  match nbits, w with
  | _, _ => none

end Sys2Proof
end

