-- ==== Sys2Proof/Machine/Bytes.lean ====
section
/-! DEFINITION. Byte order, bit fields, saturating counters and the two CRCs (00 R6; 13 R275, R277). -/

namespace Sys2Proof.Machine
open Sys2Proof

/-- The little-endian value of bytes (R6). -/
def leNat : List Byte → Nat
  | [] => 0
  | b :: t => b.toNat + 256 * leNat t

/-- The `n` little-endian bytes of a value (R6). -/
def leBytes : Nat → Nat → List Byte
  | 0, _ => []
  | n + 1, v => BitVec.ofNat 8 v :: leBytes n (v / 256)

/-- Bytes `off` to `off + n - 1` of a byte string as a little-endian value; bytes past its end count as 0. -/
def field (bs : List Byte) (off n : Nat) : Nat := leNat ((bs.drop off).take n)

/-- Bits `hi` to `lo` of a value. -/
def bits (v hi lo : Nat) : Nat := v / 2 ^ lo % 2 ^ (hi + 1 - lo)

/-- One bit of a value. -/
def bit (v k : Nat) : Bool := v / 2 ^ k % 2 == 1

/-- A Bool as a bit. -/
def b2n (b : Bool) : Nat := if b then 1 else 0

/-- Bytes are all zero. -/
def allZero (bs : List Byte) : Bool := bs.all (fun b => b == 0)

/-- A byte string padded with zeros (or cut) to `n` bytes. -/
def padTo (n : Nat) (bs : List Byte) : List Byte := (bs ++ List.replicate n 0).take n

/-- A byte string padded with zeros to a multiple of `m` bytes. -/
def padUp (m : Nat) (bs : List Byte) : List Byte := bs ++ List.replicate ((m - bs.length % m) % m) 0

/-- Ceiling of a quotient. -/
def ceilDiv (a b : Nat) : Nat := (a + b - 1) / b

/-- A counter that saturates at its largest value. -/
def satInc {w : Nat} (x : BitVec w) : BitVec w := if x = BitVec.allOnes w then x else x + 1

/-- A counter that saturates, advanced by `k`. -/
def satAdd {w : Nat} (x : BitVec w) (k : Nat) : BitVec w :=
  if x.toNat + k ≥ 2 ^ w then BitVec.allOnes w else x + BitVec.ofNat w k

/-- One bit of CRC-16, polynomial 0x1021, not reflected (R275). -/
def crc16Bit (crc : BitVec 16) (b : Bool) : BitVec 16 :=
  if (crc.getLsbD 15 != b) then (crc <<< 1) ^^^ 0x1021 else crc <<< 1

/-- One byte of CRC-16, most significant bit first (R275). -/
def crc16Byte (crc : BitVec 16) (b : Byte) : BitVec 16 :=
  [7, 6, 5, 4, 3, 2, 1, 0].foldl (fun c k => crc16Bit c (b.getLsbD k)) crc

/-- CRC-16 of a frame, initial value 0xFFFF, no final XOR (R275). -/
def crc16 (bs : List Byte) : BitVec 16 := bs.foldl crc16Byte 0xFFFF

/-- CRC-16 of a flit on a bridge: 256 data bits, two flit-kind bits, POISON (10 R224). -/
def crc16Flit (data : List Byte) (kind : BitVec 2) (poison : Bool) : BitVec 16 :=
  crc16Bit (crc16Bit (crc16Bit (crc16 data) (kind.getLsbD 1)) (kind.getLsbD 0)) poison

/-- One bit of the reflected CRC-32. -/
def crc32Bit (crc : BitVec 32) : BitVec 32 :=
  if crc.getLsbD 0 then (crc >>> 1) ^^^ 0xEDB88320 else crc >>> 1

/-- One byte of the reflected CRC-32. -/
def crc32Byte (crc : BitVec 32) (b : Byte) : BitVec 32 :=
  crc32Bit (crc32Bit (crc32Bit (crc32Bit (crc32Bit (crc32Bit (crc32Bit (crc32Bit (crc ^^^ b.setWidth 32))))))))

/-- The IEEE 802.3 CRC-32 (R257, R277). -/
def crc32 (bs : List Byte) : BitVec 32 := ~~~ (bs.foldl crc32Byte 0xFFFFFFFF)

end Sys2Proof.Machine
end

