-- ==== Sys2Proof/Config.lean ====
section
/-! DEFINITION. What the silicon, the fuses and the cryptography fix, and the free values of the model: constants
without a body, so that no proof can lean on a value the manual does not give (log entries 2 and 3). -/

namespace Sys2Proof.Config

/-- SHA-384 of a byte string (R318, R320, R330); not computed here (log entry 3). -/
opaque sha384 : List Byte → List Byte
/-- Whether an ECDSA P-384 signature verifies: public key, SHA-384 digest, signature (R320, R417). -/
opaque ecdsaOk : List Byte → List Byte → List Byte → Bool
/-- SHA-384 hash of the patch-signing key, fused (R309). -/
opaque keyHash : List Byte
/-- Lowest patch level that verification accepts, fused (R309). -/
opaque minPatchLevel : Nat
/-- Version of the FEP base ROM image (R178 FEP_VER.BASE). -/
opaque fepBase : BitVec 16
/-- Version of the sequencer base image (R48 SEQ_VER.BASE). -/
opaque seqBase : BitVec 16
/-- Silicon stepping (R97). -/
opaque stepping : BitVec 8
/-- Laniter's PCI vendor identifier (R98). -/
opaque vendorId : BitVec 16
/-- Subsystem vendor and subsystem identifiers (R98). -/
opaque subsysVendor : BitVec 16
opaque subsysId : BitVec 16
/-- Device Serial Number (R99). -/
opaque serial : BitVec 64
/-- 48-bit I3C provisional identifier (R268). -/
opaque provisionalId : BitVec 48
/-- Laniter's 11-bit JEDEC manufacturer identity in IDCODE (R440). -/
opaque jedecId : BitVec 11
/-- Version of the Primer ROM (R296). -/
opaque primerVer : BitVec 32
/-- A byte the manual leaves open, for the n-th use of the free-value counter of State. -/
opaque freeByte : Nat → Byte
/-- A word the manual leaves open, for the n-th use of the free-value counter of State. -/
opaque freeWord : Nat → Word
/-- A choice the manual leaves open between two outcomes, for the n-th use of the counter (R401, R434). -/
opaque freeBool : Nat → Bool
/-- How the device reports a quotient that is no whole number (R194 fixes the unit, not the rounding). -/
opaque round : Nat → Nat → Nat

/-- Whether an access uses a cached translation that the page tables no longer give: which page it reaches is
undefined until an invalidation ends (R85); by use, instance and page number. -/
opaque staleXlate : Nat → Nat → Nat → Bool

/-- Network cycles that a matching head has waited at a router (R230 PRB_WAITMAX): by DEVTIME, probe and packets counted
before it; the manual gives no cycle of a router, so the wait is open (log entry 5). -/
opaque headWait : Nat → Nat → Nat → BitVec 16
/-- Single-bit errors that a read of private memory corrects with inline ECC on (R76): by DEVTIME, address and length; upsets
come from outside and have no row of their own (log entry 6). -/
opaque memCorrected : Nat → Nat → Nat → Nat
/-- Single-bit SRAM errors that a partition corrects during a tile (R48 CE_COUNT): by DEVTIME and partition (log entry 6). -/
opaque sramCorrected : Nat → Nat → Nat

/-- The FEP base ROM and the sequencer base image, by address (R163, R175; R46, R47). -/
opaque fepRom : Nat → BitVec 128
opaque seqRom : Nat → BitVec 104
/-- What an access past the end of a partition's SRAM reads, by offset; the manual gives no address generator's answer to one. -/
opaque pastEnd : Nat → Byte
/-- The registers that the FEP's microcode leaves behind: by DEVTIME, thread and register; the manual gives no microcode. -/
opaque threadReg : Nat → Nat → Nat → BitVec 32
/-- What the table unit answers (R36): by function and operand, the same on every evaluation of one device. -/
opaque table : Nat → BitVec 32 → BitVec 32
/-- The lane value that a comparison of the vector unit writes (R36 gives none). -/
opaque laneFlag : Bool → BitVec 32
/-- A vector minimum or maximum with a NaN operand, and a requantisation by a scale that is no number (R30, R36 give none). -/
opaque laneOpen : BitVec 32 → BitVec 32 → BitVec 32

end Sys2Proof.Config
end

