-- ==== Sys2Proof/Machine/State.lean ====
section
/-! DEFINITION. The state of the block: every register, queue, table, timer, pin and buffer the manual gives the Izica,
as plain data, grouped by the unit that keeps it, and the queue of commands that are waiting. Tables are sparse
(Tab): a key that is not listed holds the record's default value. -/

namespace Sys2Proof.Machine
open Sys2Proof

/-- Reasons the block stops with a fault. -/
inductive Fault where
  /-- raised by RD and WR for a private address at or above the usable capacity, which no initiator's translation
  yields (04 R70, R81): there is no such byte. Safe: the model stops. -/
  | noSuchPpa
  deriving DecidableEq, Repr

/-- Reasons a command has no meaning in the model. -/
inductive Refusal where
  /-- raised by an arm of exec for a command that has no meaning yet. Safe: the model stops. -/
  | notModelled (mnemonic : String)
  deriving DecidableEq, Repr

/-- DEVTIME and the clock inputs (00 R10, 20 R433). -/
structure Clock where
  devtime : Nat := 0
  /-- reference cycles counted in the current group of 24 -/
  phase : Nat := 0
  /-- PWR_GOOD high and the L0 exit point passed -/
  alive : Bool := true
  refclk : Bool := true
  deriving DecidableEq, Repr

/-- Straps and pins (00 R3, 05 R93, 20 R425 to R435). -/
structure Pins where
  /-- HOST_MODE strap pin, true for P -/
  hostModeStrap : Bool := false
  /-- MGMT_ADDR strap pins -/
  mgmtAddrStrap : BitVec 2 := 0
  /-- HOST_MODE as latched at the last L0 exit, true for P -/
  modeP : Bool := false
  pwrGood : Bool := true
  rstN : Bool := true
  perstN : Bool := true
  pwrCapN : Bool := true
  devReady : Bool := false
  thermTripN : Bool := true
  /-- WAKE_N of mode P (20) -/
  wakeN : Bool := true
  deriving DecidableEq, Repr

/-- A reset source waiting to be resolved (17 R370): its code, when it acted, its subject. -/
structure Acting where
  source : Nat
  at_ : Nat
  arg : Nat
  deriving DecidableEq, Repr

/-- A running reset or exit (17 R374 to R377). -/
inductive RstPhase where
  /-- no reset runs -/
  | none
  /-- an L0 or L1 reset is held -/
  | hold
  /-- released: the L0 exit sequence has begun -/
  | l0Exiting
  /-- L0 exit point passed (or L1 hold ended): Primer and stores next -/
  | l1Exiting
  /-- L2 steps 1 to 2: pre-emption requested -/
  | l2Preempt
  /-- L2 step 3: stopped, drained, stores reloaded -/
  | l2Stopped
  deriving DecidableEq, Repr

/-- The reset controller (17 R364 to R377). -/
structure Rst where
  /-- sources that have acted and are not resolved -/
  acting : List Acting := []
  phase : RstPhase := .none
  /-- level of the running reset, 0 to 5; 9 for none -/
  level : Nat := 9
  source : Nat := 0
  startedAt : Nat := 0
  /-- RST_LAST -/
  lastSource : BitVec 8 := 1
  lastLevel : BitVec 4 := 0
  absorbed : BitVec 8 := 0
  rstTime : BitVec 64 := 0
  /-- RESETS_Lk of 0x8006 by level; key 6 for its MGC_RESTARTS (14 R310) -/
  counts : Tab Nat := []
  /-- reset reach map, source code to level (0x7000 range); the fused default where not listed -/
  map : Tab Nat := []
  deriving DecidableEq, Repr

/-- Private memory (04 R75 to R79, 14 0x2000 range). -/
structure PrivMem where
  /-- bytes that differ from an unlisted byte, addresses rising -/
  cells : List Host.Cell := []
  memType : Nat := 0
  rate : Nat := 6400
  ranks : Nat := 1
  capGiB : Nat := 8
  ecc : Bool := false
  storeMiB : Nat := 256
  trained : Bool := false
  regionFilled : Bool := false
  /-- 64-bit words with an uncorrectable ECC error, by address div 8 (R76); only with inline ECC on -/
  bad : List Nat := []
  /-- bytes counted in the current share window: controller * 64 + instance (R79); key 128 + n for the host bridge -/
  window : Tab Nat := []
  /-- shares of instances, of private memory and of the host link, as they were when the present window began, where they have been
  changed since (11 R241) -/
  oldShares : Tab (Nat × Nat) := []
  /-- requests waiting for the next share window, oldest first (R79, R234) -/
  windowWait : List Waiting := []
  deriving DecidableEq, Repr

/-- Memory-management registers of an instance (04 R84). -/
structure Mmu where
  root : BitVec 64 := 0
  en : Bool := false
  bypass : Bool := false
  ats : Bool := false
  invalAddr : BitVec 64 := 0
  invalGo : Bool := false
  invalAll : Bool := false
  invalDone : Bool := false
  invalSize : BitVec 16 := 0
  /-- the invalidation in progress: first page, pages, and when it began (R85) -/
  invalFrom : Nat := 0
  invalPages : Nat := 0
  invalAt : Nat := 0
  faultDva : BitVec 48 := 0
  faultInfo : BitVec 31 := 0
  faultValid : Bool := false
  /-- translations of the instance in the TLB of its memory controller, 0 or 1 as its number is even or odd: page number (DVA
  div 64 KiB) to the leaf entry (R82) -/
  tlb : Tab (BitVec 64) := []
  /-- its translations in the initiators' micro-TLBs: node * 2^32 + page to the generation they carry and the leaf (R82) -/
  micro : Tab (BitVec 16 × BitVec 64) := []
  /-- its level-1 to level-3 entries cached at that controller, by the address of the entry (R82) -/
  upper : Tab (BitVec 64) := []
  deriving DecidableEq, Repr

/-- The mailbox of an instance (11 R243 to R245). -/
structure Mailbox where
  /-- 0 CLOSED, 1 OPENING, 2 OPEN -/
  state : Nat := 0
  format : Nat := 0
  openResult : Nat := 0
  formats : BitVec 3 := 0
  inProd : Nat := 0
  outCons : Nat := 0
  evCons : Nat := 0
  inCons : Nat := 0
  outProd : Nat := 0
  evProd : Nat := 0
  evLost : Nat := 0
  helloGen : BitVec 16 := 0
  helloMgrGen : BitVec 32 := 0
  helloIfRev : BitVec 16 := 0
  /-- events lost since the last record written -/
  lostNew : Nat := 0
  /-- bytes of the inbound page beyond the control block, by page offset -/
  inPage : Tab Byte := []
  /-- bytes of the outbound page beyond the control block (reply and event rings), by page offset -/
  outPage : Tab Byte := []
  deriving DecidableEq, Repr

/-- Instance states (11 R236), in code order. -/
inductive IState where
  | absent | active | aborting | aborted | quiescing | quiesced | resetting | freezing | frozen
  deriving DecidableEq, Repr

/-- The code of an instance state (11 R236). -/
def IState.code : IState → Nat
  | .absent => 0 | .active => 1 | .aborting => 2 | .aborted => 3 | .quiescing => 4 | .quiesced => 5
  | .resetting => 6 | .freezing => 7 | .frozen => 8

/-- A lost contract of a restored instance (12 R264). -/
structure LostContract where
  id : Nat
  req : ContractReq
  reason : Nat
  status : Status
  deriving DecidableEq, Repr

/-- Per-instance state (04 R84, 11 R234 to R250, 12 R253, 18 R381 to R387). -/
structure Inst where
  state : IState := .absent
  gen : BitVec 16 := 0
  owned : BitVec 16 := 0
  spoofCount : BitVec 16 := 0
  stale : BitVec 32 := 0
  lastSpoof : Option Nat := none
  suppressed : Nat := 0
  mmu : Mmu := {}
  box : Mailbox := {}
  /-- limits in force, as taken from the dictionary at creation and by later writes (14 R305) -/
  limits : Limits := ⟨8, 256, 16, 16384, 0, 1500, 0, 0⟩
  /-- binding words by role (07 R154) -/
  bind : Tab (BitVec 32) := []
  handles : Tab Handle := []
  sems : Tab Sem := []
  graphs : Tab Graph := []
  /-- generation update in progress: nodes that have not answered (10 R222) -/
  genWait : List Nat := []
  /-- freeze: deadline, reply sequence (header) pending, FROZEN_AT, lost contracts -/
  freezeUntil : Nat := 0
  freezeReq : Option (Nat × MsgHdr) := none
  /-- outcome of a freeze whose reply waits for Topcoat (R245) -/
  freezeOut : Option (Status × List Byte) := none
  /-- the FREEZE in progress, or the one that froze it, was sent under HALT_ALL (15 R335) -/
  haltFreeze : Bool := false
  frozenAt : Nat := 0
  /-- a RESTORE made it, and no THAW has followed (21 R443) -/
  restored : Bool := false
  lost : List LostContract := []
  /-- ABORT_STATUS QBUSY and IBUSY -/
  qBusy : BitVec 16 := 0
  iBusy : Bool := false
  /-- ABORT_LAST -/
  lastQid : BitVec 4 := 0
  lastAll : Bool := false
  lastResult : BitVec 2 := 0
  doneCount : BitVec 16 := 0
  abortReqTime : BitVec 64 := 0
  abortDoneTime : BitVec 64 := 0
  /-- EMU_PERF_HINT and EMU_SCRATCH registers, shadows and write queue (15 R323, R324), by index 0 to 4 -/
  emu : Tab (BitVec 32) := []
  shadow : Tab (BitVec 32) := []
  emuQueue : List (Nat × BitVec 32) := []
  feOvf : Bool := false
  ovfCount : BitVec 8 := 0
  deriving DecidableEq, Repr

/-- A queue slot's context (06 R116 to R138). -/
structure Queue where
  inst : Nat
  desc : QDesc
  read : BitVec 32 := 0
  write : BitVec 32 := 0
  cpl : BitVec 32 := 0
  cons : BitVec 32 := 0
  dbBad : BitVec 16 := 0
  /-- 0 while ACTIVE or HELD; the STOPPED cause 1, 2 or 3 -/
  stopCause : Nat := 0
  heldOrphan : Bool := false
  heldD3 : Bool := false
  heldFrozen : Bool := false
  /-- doorbell stamps: (WRITE recorded, DEVTIME), oldest first (R120) -/
  stamps : List (BitVec 32 × Nat) := []
  /-- entry the next fetch starts at -/
  nextFetch : BitVec 32 := 0
  /-- reads issued for the command being fetched; 0 when none is -/
  reads : Nat := 0
  /-- entries the header says the command occupies, once known -/
  need : Option Nat := none
  /-- guilty point: SEQ, status, and whether its RESET record is written -/
  guilty : Option (BitVec 32 × Status) := none
  resetDone : Bool := false
  /-- opcode and tag of a guilty command, none when it was never fetched -/
  guiltyHead : Option (Byte × BitVec 32) := none
  /-- HOLDOFF: DEVTIME until which a message is held, and whether one is held back -/
  holdoffUntil : Nat := 0
  irqHeld : Bool := false
  /-- a change of READ, CPL or state the write-back block does not show; time of the last write-back -/
  wbPending : Bool := false
  wbAt : Option Nat := none
  /-- abort latched for this queue -/
  abortLatched : Bool := false
  /-- the guilt round of R390: 0 none, 1 waiting, 2 running, 3 ended -/
  guiltRound : Nat := 0
  /-- entries the guilty command occupies; of them, those that READ has still to pass (R121, R134) -/
  guiltEntries : Nat := 0
  guiltPass : Nat := 0
  /-- step 5 of R134 is done: the queue is STOPPED and QUEUE_GUILTY sent -/
  guiltSaid : Bool := false
  /-- entries the RESET record counts as discarded (R134) -/
  guiltDiscard : Nat := 0
  deriving DecidableEq, Repr

/-- Contract states (09 R199). -/
inductive CState where
  | admitted | atRisk | suspended | released
  deriving DecidableEq, Repr

/-- An admitted contract (09 R185 to R199). -/
structure Contract where
  inst : Nat
  req : ContractReq
  state : CState := .admitted
  reason : Nat := 0
  lastRelease : Option Nat := none
  skimSlots : Nat := 0
  deriving DecidableEq, Repr

/-- An entry of the contract log (09 R198): a late or early launch. -/
structure LogEntry where
  contract : Nat
  early : Bool
  lateness : Nat
  seq : BitVec 32
  inst : Nat
  deriving DecidableEq, Repr

/-- A thread of the microcode engine (08 R162, R164): its 64 registers, the address last issued, and the command it handles. -/
structure Thread where
  regs : List (BitVec 32) := List.replicate 64 0
  pc : BitVec 12 := 0
  work : Option (Nat × Nat) := none
  deriving DecidableEq, Repr

/-- A request in the service port ring (08 R172): the message that Topcoat executes by it, with the host's bytes that it reads, and
the result once T7 has written one. -/
structure SvcReq where
  code : Nat
  mb : Nat
  hdr : MsgHdr
  payload : List Byte
  host : List Byte := []
  out : Option (Status × List Byte) := none
  deriving DecidableEq, Repr

/-- The front-end processor (08). -/
structure Fep where
  fepPatchLevel : BitVec 8 := 0
  patchBank : Bool := false
  patchPresent : Bool := false
  ceCount : BitVec 16 := 0
  repaired : BitVec 16 := 0
  mcCause : BitVec 4 := 0
  mcAddr : BitVec 12 := 0
  mcThread : BitVec 3 := 0
  mcCount : BitVec 8 := 0
  /-- all threads stopped until the next L2 or above -/
  stopped : Bool := false
  /-- halted with CAUSE 5 (R183) -/
  halted : Bool := false
  /-- address and DEVTIME of the last recovered control-store error -/
  lastRecovered : Option (BitVec 12 × Nat) := none
  lastError : Option (BitVec 12) := none
  scrubPtr : BitVec 12 := 0
  /-- patch buffer holds an uncorrectable error -/
  bufferBad : Bool := false
  /-- next slot in the fetch unit's round robin -/
  rrNext : Nat := 0
  nextOrder : Nat := 0
  /-- pool slots in use -/
  pool : List Nat := []
  /-- what the FEP's reads of host memory have brought, in order, and the status that ended one: by queue slot for the
  fetch unit, by 512 + channel for the copy engine (R127, R166; 18 R384) -/
  hostIn : Tab (List Byte) := []
  readErr : Tab Status := []
  /-- handle cache, most recent first: (instance * 4096 + index, entry) (R90) -/
  hcache : List (Nat × Handle) := []
  /-- commands at stage 6 waiting for a scoreboard entry, oldest first -/
  sbFifo : List (Nat × Nat) := []
  /-- service port ring, the oldest request first; the doorbell counts those rung, and the results those executed -/
  service : List SvcReq := []
  serviceBell : BitVec 32 := 0
  serviceDone : BitVec 32 := 0
  /-- words of the patch buffer, by address (R175), and stored bits of the control store, word then 9 check bits, that differ from
  what the loader wrote (R163) -/
  words : Tab (BitVec 128) := []
  upsets : Tab (BitVec 137) := []
  threads : Tab Thread := []
  /-- contract log -/
  log : List LogEntry := []
  /-- doorbell halves coalesced during an L2 reset: (instance, queue, high, value) -/
  heldBells : List (Nat × Nat × Bool × BitVec 32) := []
  deriving DecidableEq, Repr

/-- A resume slot (09 R206): the launch and replica it holds. -/
structure Resume where
  slot : Nat
  seq : Nat
  idx : Nat
  deriving DecidableEq, Repr

/-- A residency tag (07 R153). -/
structure ResTag where
  inst : Nat
  graph : Nat
  version : Nat
  variant : Nat
  member : Nat
  deriving DecidableEq, Repr

/-- Partition conditions behind PART_STATE (02 R48). -/
inductive PState where
  | gated | idle | busy | fusing | offline | resetting
  deriving DecidableEq, Repr

/-- The STATE code of a partition (02 R48). -/
def PState.code : PState → Nat
  | .gated => 0 | .idle => 1 | .busy => 2 | .fusing => 3 | .offline => 4 | .resetting => 5

/-- A compute partition (02 R26 to R53, 09 R206, 16 R339 to R353). -/
structure Part where
  state : PState := .gated
  /-- dictionary ENABLE and RETIRE (14 R301) -/
  enabled : Bool := true
  retired : Bool := false
  mcCause : BitVec 4 := 0
  mcAddr : BitVec 27 := 0
  mcCount : BitVec 16 := 0
  ceCount : BitVec 32 := 0
  /-- launch held: slot, SEQ, replica index (members hold the leader's) -/
  run : Option (Nat × Nat × Nat) := none
  acked : Bool := false
  /-- a fusion change is pending for the grant held -/
  fuseWait : Bool := false
  /-- current class of the grant held (R357) -/
  grant : Option Nat := none
  tileRunning : Bool := false
  /-- the dispatch of the next tile says the boundary is honoured -/
  honour : Bool := false
  /-- pre-emption request outstanding: requester's floor in MHz -/
  preempt : Option Nat := none
  resume : Option Resume := none
  residency : Option ResTag := none
  /-- the partition SRAMs (R26): bytes that are not zero, by offset -/
  weight : List Host.Cell := []
  act : List Host.Cell := []
  scratch : List Host.Cell := []
  /-- words of the sequencer store, by address, whose stored bits (word, then 13 parity bits) differ from what the image has
  (R46) -/
  seq : Tab (BitVec 117) := []
  /-- stream blocks that the landing ring has received for the launch held; bytes of later ones asked for privately, and come;
  slot credits not yet at the engine (03 R59, R62, R64) -/
  landed : Nat := 0
  ringAsked : Nat := 0
  ringIn : Tab Nat := []
  owed : Nat := 0
  /-- the tile that the grant or the last dispatch names (08 R170) -/
  next : Option Nat := none
  /-- machine check or link failure reported and not acted on -/
  faultPending : Bool := false
  /-- LINK_FATAL interval end -/
  fatalUntil : Option Nat := none
  /-- clock step 0 to 52, present clock in MHz, LDO output and time of the last step down, trim, boosts (16) -/
  step : Nat := 0
  clkMhz : Nat := 0
  downAt : Option Nat := none
  ldoMv : Nat := 0
  ldoSettled : Bool := true
  stepWanted : Option Nat := none
  trimMv : Int := 0
  boosts : Nat := 0
  maxStretch : Nat := 0
  stretched : Nat := 0
  stretchFrom : Nat := 0
  trimAt : Nat := 0
  assistSet : Tab Nat := []
  assistAt : Tab Nat := []
  /-- time since which the partition has had no grant -/
  idleSince : Nat := 0
  /-- 0x8000 telemetry: SATURATED and OVERRUN -/
  satCount : BitVec 32 := 0
  overruns : BitVec 32 := 0
  /-- RESET entry: result and BUSY -/
  rstBusy : Bool := false
  rstResult : Abort := 0
  /-- first tile after an L5 reset: store address of the machine check the reset cleared -/
  lastParity : Option (BitVec 10) := none
  deriving DecidableEq, Repr

/-- A cluster: shape, fusion change, clock ceiling and rail (02 R41 to R43, 16 R342, R354). -/
structure Cluster where
  shape : Nat := 0
  changing : Option Nat := none
  ceiling : Nat := 1600
  held : Bool := false
  railLow : Bool := false
  railCap : Option Nat := none
  deriving DecidableEq, Repr

/-- A stream block sent and not yet received by every partition that it addresses (03 R61). -/
structure SkimCopy where
  /-- the packet's mask, and the partitions that have still to receive it -/
  mask : BitVec 16
  left : BitVec 16
  poison : Bool
  data : List Byte
  deriving DecidableEq, Repr

/-- A Skim slot (03 R60 to R67). -/
structure Skim where
  active : Bool := false
  engine : Nat := 0
  inst : Nat := 0
  graph : Nat := 0
  slot : Nat := 0
  seq : Nat := 0
  stream : Stream := ⟨0, 0, 0, 0, 0⟩
  dva : Nat := 0
  pass : Nat := 0
  head : Nat := 0
  started : Bool := false
  holding : Option Nat := none
  attached : BitVec 16 := 0
  detached : BitVec 16 := 0
  /-- replica leader to its lag in slots over all members (R62) -/
  lag : Tab Nat := []
  /-- replica leader to blocks received so far in all passes -/
  got : Tab Nat := []
  lagDetached : List Nat := []
  detCount : BitVec 32 := 0
  contracted : Bool := false
  /-- bytes of the next block read from the other controller, and whether they hold an uncorrectable error (R61, R380) -/
  fetched : Nat := 0
  poison : Bool := false
  /-- blocks on their way, the oldest first -/
  flight : List SkimCopy := []
  deriving DecidableEq, Repr

/-- An outstanding VC0 request of an initiator (10 R216, R227). -/
structure NetReq where
  dst : Nat
  tgen : Nat
  inst : Nat
  gen : BitVec 16
  slot : Nat
  kind : Nat
  sentAt : Nat
  loaned : Bool
  write : Bool
  /-- the urgency that it had (10 R217) -/
  urg : Nat := 0
  /-- where it goes: an address of private or of host memory -/
  addr : Nat := 0
  host : Bool := false
  /-- for a read of host memory by the FEP: where its bytes belong among those its stream reads, and how many they are -/
  at_ : Nat := 0
  len : Nat := 0
  /-- where a partition's read goes, and what its target has read for it (02 R37) -/
  dma : Option Dma := none
  data : List Byte := []
  deriving DecidableEq, Repr

/-- A bridge (10 R224, R225, R232). -/
structure Bridge where
  fatal : Bool := false
  /-- replays of the flit refused last, and when it was first refused (R224) -/
  replays : Nat := 0
  refusedAt : Option Nat := none
  discard : BitVec 15 := 0
  crcErr : BitVec 16 := 0
  deriving DecidableEq, Repr

/-- A probe (10 R230). -/
structure Probe where
  ctl : BitVec 13 := 0
  filt : BitVec 19 := 0x40820#19
  types : BitVec 32 := 0
  pkts : BitVec 32 := 0
  flits : BitVec 32 := 0
  waitMax : BitVec 16 := 0
  deriving DecidableEq, Repr

/-- The on-chip network (10). -/
structure Net where
  /-- outstanding requests by initiator node * 1024 + tag -/
  reqs : Tab NetReq := []
  /-- tag generations by initiator node * 1024 + tag -/
  tgen : Tab Nat := []
  /-- tickets spent: initiator node * 32 + target node to requests not answered -/
  out : Tab Nat := []
  /-- loaned tickets held by an initiator at a target, same key -/
  loans : Tab Nat := []
  /-- tickets written off (R227) -/
  writtenOff : Tab Nat := []
  /-- loan requests waiting at a target: (target, initiator, count), oldest first -/
  loanQueue : List (Nat × Nat × Nat) := []
  /-- loan tickets each target has lent -/
  lent : Tab Nat := []
  /-- generation tables: node * 64 + instance -/
  gens : Tab (BitVec 16) := []
  bridges : Tab Bridge := []
  probes : Tab Probe := []
  traceEn : Bool := false
  traceWrap : Bool := false
  traceHalf : Bool := false
  traceFull : Bool := false
  wptr : BitVec 12 := 0
  dropped : BitVec 16 := 0
  trace : Tab (BitVec 128) := []
  tmoPriv : Nat := 64
  tmoHost : Nat := 4000
  late : BitVec 32 := 0
  retry : BitVec 32 := 0
  malformed : BitVec 32 := 0
  /-- doorbell packets on VC0 that the FEP has not received: instance, queue, high half, value; oldest first (06 R119) -/
  bells : List (Nat × Nat × Bool × BitVec 32) := []
  deriving DecidableEq, Repr

/-- An MSI-X table entry (05 R104, R105). -/
structure Vector where
  addr : BitVec 64 := 0
  data : BitVec 32 := 0
  masked : Bool := true
  pending : Bool := false
  deriving DecidableEq, Repr

/-- Configuration state of a function (05 R96 to R109). -/
structure Func where
  memEnable : Bool := false
  msixEnable : Bool := false
  msixMask : Bool := false
  vectors : Tab Vector := []
  atsEnable : Bool := false
  d3hot : Bool := false
  cplTimeout : Nat := 0
  /-- the Command register (Memory Space Enable is memEnable), BAR0, Device Control and Device Control 2, Link Control, PME Enable,
  L1 PM Substates Control and the ATS smallest translation unit, as written -/
  command : BitVec 16 := 0
  bar : BitVec 64 := 0
  devCtl : BitVec 16 := 0x2910
  devCtl2 : BitVec 16 := 0
  linkCtl : BitVec 16 := 0
  pmeEn : Bool := false
  l1ss : BitVec 32 := 0
  stu : BitVec 5 := 0
  /-- AER: correctable and uncorrectable status bits -/
  aerCor : BitVec 32 := 0
  aerUnc : BitVec 32 := 0
  /-- severity of uncorrectable errors, 1 fatal (R106); bits of log entry 20 -/
  aerSev : BitVec 32 := 0x00460010
  aerCorMask : BitVec 32 := 0x2000
  aerUncMask : BitVec 32 := 0
  /-- First Error Pointer and header log -/
  aerFirst : BitVec 5 := 0
  aerHdr : List (BitVec 32) := []
  deriving DecidableEq, Repr

/-- What leaves on the host link's posted queue (04 R74, 05 R105). -/
inductive Posted where
  /-- a memory write of a function: address and bytes -/
  | write (fn : Nat) (addr : Nat) (data : List Byte)
  /-- the same with a translated address (04 R72) -/
  | writeAt (fn : Nat) (addr : Nat) (data : List Byte)
  /-- an MSI-X message of a function's vector -/
  | msix (fn : Nat) (vector : Nat) (addr : BitVec 64) (data : BitVec 32)
  /-- an ATS invalidation completion -/
  | atsDone (fn : Nat) (page : Nat)
  /-- an error message of a function -/
  | err (fn : Nat) (bit : Nat)
  deriving DecidableEq, Repr

/-- A non-posted request on the host link (05 R96, R109). -/
structure HostReq where
  fn : Nat
  /-- the network request that it serves -/
  pkt : Pkt
  sentAt : Nat
  /-- its completion is to be discarded (18 R385) -/
  marked : Bool := false
  /-- translated through this ATC page, when one was used -/
  page : Option Nat := none
  /-- it asks for a translation, and this is the access that waits for it (04 R72, R73) -/
  xlat : Option Waiting := none
  deriving DecidableEq, Repr

/-- The host bridge (05). -/
structure HostLink where
  up : Bool := false
  speed : BitVec 4 := 0
  width : BitVec 6 := 0
  ucieVer : BitVec 4 := 0
  downCount : BitVec 16 := 0
  badAccess : BitVec 16 := 0
  gloveDrop : BitVec 16 := 0
  vfEnable : Bool := false
  numVfs : Nat := 0
  /-- of the SR-IOV capability: VF Memory Space Enable, System Page Size, VF BAR0 (R98, R100) -/
  vfMse : Bool := false
  sysPage : BitVec 32 := 1
  vfBar : BitVec 64 := 0
  /-- the link is in L2, on the way to D3cold (R94, R96; 20 R439) -/
  l2 : Bool := false
  outstanding : Tab HostReq := []
  posted : List Posted := []
  /-- ATC entries: function * 2^40 + 4 KiB page to the translated page; and their keys, the oldest first -/
  atc : Tab Nat := []
  atcAge : List Nat := []
  /-- ATS invalidations not completed: (function, page) -/
  atsPending : List (Nat × Nat) := []
  /-- configuration requests are answered (17 R376) -/
  cfgReady : Bool := false
  /-- last value returned to the host by a read command -/
  readData : List Byte := []
  funcs : Tab Func := []
  deriving DecidableEq, Repr

/-- FW_STATE codes (15 R316). -/
inductive FwState where
  | reset | loadWait | loading | verify | running | loadFailed | restarting
  deriving DecidableEq, Repr

/-- An event record waiting for Topcoat (15 R329). -/
structure HeldEvent where
  code : Nat
  subject : Nat
  toInst : Bool
  toMgr : Bool
  time : Nat
  payload : List Byte
  deriving DecidableEq, Repr

/-- The management core, its registers, Primer and Topcoat as far as the manual fixes them (15). -/
structure Mgc where
  heartbeat : BitVec 32 := 0
  fw : FwState := .reset
  lastCause : BitVec 4 := 0
  restarts : BitVec 16 := 0
  /-- Topcoat has started since the last L0 or L1 reset -/
  started : Bool := false
  /-- DEVTIME at which the restart in progress, or the last one, was triggered (R330) -/
  restartAt : Nat := 0
  /-- interface revision of the image that runs (R318) -/
  ifRev : BitVec 16 := 0
  loadPage : BitVec 8 := 0
  loadLen : BitVec 32 := 0
  loadResult : BitVec 4 := 0
  /-- Topcoat SRAM bytes that are not zero -/
  sram : Tab Byte := []
  /-- digest recorded at a good load -/
  digest : List Byte := []
  stkLo : BitVec 32 := 0
  stkHi : BitVec 32 := 0
  sp : BitVec 32 := 0
  /-- shadow bank saved by a stacking fault or core fault: cause and stack pointer -/
  shadowBank : Option (Nat × BitVec 32) := none
  /-- DEVTIME of the last restarts -/
  restartTimes : List Nat := []
  mgrGen : BitVec 32 := 0
  attached : Bool := false
  /-- host-loss timer armed, base of the heartbeat count -/
  armed : Bool := false
  beatBase : Nat := 0
  orphan : Bool := false
  orphanAt : Nat := 0
  /-- instances whose queues an orphan policy halted -/
  halted : Bool := false
  restartsSinceAttach : BitVec 16 := 0
  orphanCount : BitVec 16 := 0
  /-- event records waiting while Topcoat does not serve, oldest first (R329) -/
  holdQueue : List HeldEvent := []
  holdLost : Nat := 0
  deriving DecidableEq, Repr

/-- A segmented session of a path (13 R277). -/
structure Session where
  write : Bool
  index : Nat
  sub : Nat
  total : Nat
  crc : BitVec 32
  expect : BitVec 16
  data : List Byte
  lastAt : Nat
  deriving DecidableEq, Repr

/-- The Umner management link and the dictionary serialiser's own state (13). -/
structure Link where
  dynAddr : Option (BitVec 7) := none
  staticAddr : BitVec 7 := 0x3A
  spikeFilter : Bool := true
  hdr : Bool := false
  ibiEnabled : Bool := false
  /-- in-band interrupts raised -/
  ibis : Nat := 0
  /-- response frame readable on the link -/
  response : List Byte := []
  /-- bytes returned by the last read or CCC on the bus -/
  busOut : List Byte := []
  epochs : Tab (BitVec 16) := []
  lastPath : Tab Nat := []
  claims : Tab Nat := []
  linkSession : Option Session := none
  hostSession : Option Session := none
  /-- abort code that the next segmented request of a path receives because its session was ended (R277, R290) -/
  linkEnded : Abort := 0
  hostEnded : Abort := 0
  /-- response frame of the last request on the host path -/
  hostResponse : List Byte := []
  /-- requests that wait for a restart of the core: opcode and frame, oldest first (R329) -/
  held : List (Nat × UFrame) := []
  lost : Bool := false
  goodAt : Nat := 0
  deriving DecidableEq, Repr

/-- Dictionary entries that are settings, commands or latches of their own (14). -/
structure Dict where
  /-- stored and RW entries by index * 256 + sub; the default where not listed -/
  vals : Tab Nat := []
  /-- staged values in force (0x2000 and 0x2001 ranges) are in PrivMem; COMMAND results by key -/
  cmdResult : Tab (BitVec 32) := []
  /-- latched ALERT bits (R299) -/
  alertLatched : BitVec 32 := 0
  /-- SETTINGS_SEQ -/
  settingsSeq : BitVec 32 := 0
  /-- MEM_MB, counted in bytes -/
  memBytes : Nat := 0
  memCe : BitVec 32 := 0
  memUe : BitVec 32 := 0
  /-- entries that mirror hardware state, as Topcoat last refreshed them, by index * 256 + sub (R312) -/
  mirror : Tab Nat := []
  deriving DecidableEq, Repr

/-- One step of a keep-store operation list (19 R400, R402). -/
inductive KStep where
  /-- a sector erased -/
  | erase (addr : Nat)
  /-- bytes programmed and read back -/
  | program (addr : Nat) (data : List Byte)
  deriving DecidableEq, Repr

/-- An operation list of the keep-store engine (19 R401, R424): its operation, 1 download, 2 verify word, 3 activate,
4 confirm, 5 calibration, 6 settings; and its steps in order. -/
structure KOp where
  code : Nat
  steps : List KStep
  deriving DecidableEq, Repr

/-- The keep store (external NOR) and its engine (19). -/
structure Keep where
  /-- bytes that differ from 0xFF, addresses rising -/
  cells : List Host.Cell := []
  /-- a part answers on the quad-SPI bus -/
  fitted : Bool := true
  /-- operation lists, the one under way first -/
  ops : List KOp := []
  /-- sectors, by number, that a failed list, a reset or a power loss left undefined (R401, R402) -/
  torn : List Nat := []
  deriving DecidableEq, Repr

/-- Calibration and patch state (19 R404 to R420). -/
structure Cal where
  valid : Bool := false
  /-- reason code of R404; 0 while no record has been checked or it is valid -/
  reason : Nat := 0
  /-- record in force -/
  record : List Byte := []
  /-- a record has been written since the last L0 or L1 exit (CAL_STATE 3) -/
  written : Bool := false
  /-- ACTIVE_BANK -/
  activeBank : Nat := 0xFF
  /-- LOAD_RESULT -/
  loadResult : Nat := 0
  /-- words of the sequencer patch in the image buffer, by address (02 R47), and whether the buffer holds an uncorrectable error
  (R51) -/
  seqWords : Tab (BitVec 104) := []
  seqBad : Bool := false
  /-- a revert not yet reported: bank reverted, bank loaded, reason (R420) -/
  reverted : Option (Nat × Nat × Nat) := none
  deriving DecidableEq, Repr

/-- Clocks, power and thermal state of the whole device (16). -/
structure Power where
  /-- 0 Active, 1 Trickle, 2 Dormant -/
  pstate : Nat := 0
  target : Option Nat := none
  tricklePart : Nat := 0
  pf0D3 : Bool := false
  fabricGated : Bool := false
  lastFabric : Nat := 0
  budgetUnmet : Bool := false
  sensors : List Int := List.replicate 24 0
  lastHot : Bool := false
  tripped : Bool := false
  tripAt : Nat := 0
  thermalHold : Bool := false
  /-- telemetry mirror (R362) by register index -/
  mirror : Tab Nat := []
  energy : BitVec 64 := 0
  /-- thermal limit on the budget in mW, 30,000 while no cluster is held (R354) -/
  thermalMw : Nat := 30000
  /-- instances whose WORK_HELD_POWER this stay has sent (R348) -/
  heldReported : List Nat := []
  /-- power events not sent, by event code (R363) -/
  suppressed : Tab Nat := []
  /-- event rate limiters: code * 64 + subject to time of the last report -/
  limiter : Tab Nat := []
  deriving DecidableEq, Repr

/-- A latched abort request (18 R383, R397): a queue, or the whole instance; who asked (0 the function, 1 the manager,
2 QUIESCE, 3 an L3 reset); when it was latched; whether the running round has taken it up. -/
structure AbortReq where
  inst : Nat
  qid : Option Nat
  by_ : Nat
  at_ : Nat
  joined : Bool := false
  deriving DecidableEq, Repr

/-- A drain entry (18 R384). -/
structure DrainEntry where
  inst : Nat
  slot : Nat
  /-- SCOPE: every slot of the instance -/
  scope : Bool
  whole : Bool
  parts : BitVec 16
  chans : BitVec 4
  deriving DecidableEq, Repr

/-- The abort sequencer (18 R384 to R387). -/
structure Seqr where
  roundOn : Bool := false
  /-- requests latched and not done, oldest first -/
  reqs : List AbortReq := []
  /-- the drain table of the running round -/
  entries : List DrainEntry := []
  /-- drain rounds since L0 (R382) -/
  rounds : BitVec 16 := 0
  /-- partitions that the running round stops -/
  parts : List Nat := []
  deriving DecidableEq, Repr

/-- The JTAG TAP (20 R440, R441). -/
structure Tap where
  /-- instruction register, IDCODE after a TAP reset -/
  ir : Nat := 2
  /-- boundary register: what the pins would be driven to, and what they were when last captured -/
  boundary : BitVec 64 := 0
  captured : BitVec 64 := 0
  deriving DecidableEq, Repr

/-- The whole state. -/
structure State where
  clk : Clock := {}
  pins : Pins := {}
  rst : Rst := {}
  mem : PrivMem := {}
  insts : Tab Inst := []
  queues : Tab Queue := []
  cmds : Tab Cmd := []
  contracts : Tab Contract := []
  /-- store pages of the graph store in use: page number to its 256 bytes -/
  pages : Tab (List Byte) := []
  fep : Fep := {}
  parts : Tab Part := []
  clusters : Tab Cluster := []
  skims : Tab Skim := []
  net : Net := {}
  link : HostLink := {}
  mgc : Mgc := {}
  bus : Link := {}
  dict : Dict := {}
  keep : Keep := {}
  cal : Cal := {}
  pwr : Power := {}
  abrt : Seqr := {}
  tap : Tap := {}
  /-- uses of free values so far; the model's own field, no register of the part -/
  freeCount : Nat := 0
  /-- commands waiting, first in first out -/
  pending : List Instr := []
  deriving DecidableEq, Repr

/-- The machine right after reset: the L0 exit point after power-on (17 R375, 00 R10), every field at its default
above; the log names each value that the manual does not give. -/
def State.reset : State :=
  { insts := [(0, { mmu := { bypass := true } })], rst := { phase := .l1Exiting, level := 0, source := 1 } }

end Sys2Proof.Machine
end

