-- ==== Sys2Proof/Machine/Ops.lean ====
section
/-! DEFINITION. The named operations over the state that every family uses: records of the sparse tables, the two
byte memories (private memory and the keep store), free values, DEVTIME. -/

namespace Sys2Proof.Machine
open Sys2Proof

/-- The outcome every meaning answers. -/
abbrev Result := Host.Outcome State Fault Refusal

-- Records of the tables ------------------------------------------------------------------------------------

/-- DEVTIME (R10). -/
def State.now (s : State) : Nat := s.clk.devtime

/-- Instance `n`. -/
def State.inst (s : State) (n : Nat) : Inst := tabGetD s.insts n {}

/-- Instance `n` changed by `f`. -/
def State.updInst (s : State) (n : Nat) (f : Inst → Inst) : State :=
  { s with insts := tabSet s.insts n (f (s.inst n)) }

/-- Partition `p`. -/
def State.part (s : State) (p : Nat) : Part := tabGetD s.parts p {}

/-- Partition `p` changed by `f`. -/
def State.updPart (s : State) (p : Nat) (f : Part → Part) : State :=
  { s with parts := tabSet s.parts p (f (s.part p)) }

/-- Cluster `c`. -/
def State.cluster (s : State) (c : Nat) : Cluster := tabGetD s.clusters c {}

/-- Cluster `c` changed by `f`. -/
def State.updCluster (s : State) (c : Nat) (f : Cluster → Cluster) : State :=
  { s with clusters := tabSet s.clusters c (f (s.cluster c)) }

/-- Skim slot `g`. -/
def State.skim (s : State) (g : Nat) : Skim := tabGetD s.skims g {}

/-- Skim slot `g` changed by `f`. -/
def State.updSkim (s : State) (g : Nat) (f : Skim → Skim) : State :=
  { s with skims := tabSet s.skims g (f (s.skim g)) }

/-- Function `n` of the host link. -/
def State.func (s : State) (n : Nat) : Func := tabGetD s.link.funcs n {}

/-- Function `n` changed by `f`. -/
def State.updFunc (s : State) (n : Nat) (f : Func → Func) : State :=
  { s with link := { s.link with funcs := tabSet s.link.funcs n (f (s.func n)) } }

/-- Bridge `b`. -/
def State.bridge (s : State) (b : Nat) : Bridge := tabGetD s.net.bridges b {}

/-- Bridge `b` changed by `f`. -/
def State.updBridge (s : State) (b : Nat) (f : Bridge → Bridge) : State :=
  { s with net := { s.net with bridges := tabSet s.net.bridges b (f (s.bridge b)) } }

/-- Queue slot `k`, when it holds a queue. -/
def State.queue (s : State) (k : Nat) : Option Queue := tabGet s.queues k

/-- Queue slot `k` changed by `f`, when it holds a queue. -/
def State.updQueue (s : State) (k : Nat) (f : Queue → Queue) : State :=
  { s with queues := tabModify s.queues k f }

/-- The key of a command in the command table. -/
def cmdKey (slot seq : Nat) : Nat := slot * 4294967296 + seq

/-- The command of queue slot `slot` whose first entry is `seq`. -/
def State.cmd (s : State) (slot seq : Nat) : Option Cmd := tabGet s.cmds (cmdKey slot seq)

/-- A command stored. -/
def State.setCmd (s : State) (c : Cmd) : State := { s with cmds := tabSet s.cmds (cmdKey c.slot c.seq) c }

/-- A command changed by `f`, when it is there. -/
def State.updCmd (s : State) (slot seq : Nat) (f : Cmd → Cmd) : State :=
  { s with cmds := tabModify s.cmds (cmdKey slot seq) f }

/-- A command forgotten. -/
def State.dropCmd (s : State) (slot seq : Nat) : State := { s with cmds := tabErase s.cmds (cmdKey slot seq) }

/-- Contract `id` changed by `f`, when it is there. -/
def State.updContract (s : State) (id : Nat) (f : Contract → Contract) : State :=
  { s with contracts := tabModify s.contracts id f }

/-- Every command changed by `f`. -/
def State.mapCmds (s : State) (f : Cmd → Cmd) : State := { s with cmds := tabMap s.cmds (fun _ c => f c) }

/-- Every partition 0 to 15 changed by `f`. -/
def State.mapParts (s : State) (f : Nat → Part → Part) : State :=
  (List.range 16).foldl (fun t p => t.updPart p (f p)) s

/-- The commands of a queue slot, by rising SEQ distance from READ is not needed: by acceptance or fetch order. -/
def State.slotCmds (s : State) (slot : Nat) : List Cmd := (tabVals s.cmds).filter (fun c => c.slot == slot)

-- Free values --------------------------------------------------------------------------------------------

/-- The state with one use of a free value counted. -/
def State.useFree (s : State) : State := { s with freeCount := s.freeCount + 1 }

/-- `n` free bytes and the state that has used them. -/
def freeBytes : Nat → State → List Byte × State
  | 0, s => ([], s)
  | n + 1, s =>
    let r := freeBytes n s.useFree
    (Config.freeByte s.freeCount :: r.1, r.2)

-- Byte memories --------------------------------------------------------------------------------------------

/-- The byte at `a` of a canonical cell list in which an unlisted address reads `d`. -/
def cellRead (d : Byte) : List Host.Cell → Nat → Byte
  | [], _ => d
  | (k, b) :: t, a => if k = a then b else cellRead d t a

/-- A cell list with byte `b` at address `a`, in canonical form: no entry equal to the unlisted value `d`. -/
def cellWrite (d : Byte) : List Host.Cell → Nat → Byte → List Host.Cell
  | [], a, b => if b = d then [] else [(a, b)]
  | (k, c) :: t, a, b =>
    if a < k then (if b = d then (k, c) :: t else (a, b) :: (k, c) :: t)
    else if k = a then (if b = d then t else (a, b) :: t)
    else (k, c) :: cellWrite d t a b

/-- The canonical form: addresses strictly rising, no entry equal to the unlisted value. -/
def cellsWf (d : Byte) : List Host.Cell → Bool
  | [] => true
  | (k, b) :: t => decide (b ≠ d) && t.all (fun e => decide (k < e.1)) && cellsWf d t

/-- `n` bytes from `a` on. -/
def cellReadN (d : Byte) (m : List Host.Cell) (a : Nat) : Nat → List Byte
  | 0 => []
  | n + 1 => cellRead d m a :: cellReadN d m (a + 1) n

/-- Bytes written from `a` on. -/
def cellWriteN (d : Byte) (m : List Host.Cell) (a : Nat) : List Byte → List Host.Cell
  | [] => m
  | b :: t => cellWriteN d (cellWrite d m a b) (a + 1) t

/-- What a byte of private memory that nothing has written reads as (log entry 1): 0. -/
def privUnlisted : Byte := 0

/-- What a byte of the keep store that is not programmed reads as (19 R400): 0xFF. -/
def keepUnlisted : Byte := 0xFF

/-- The byte at private physical address `a`. -/
def State.readPriv (s : State) (a : Nat) : Byte := cellRead privUnlisted s.mem.cells a

/-- `n` bytes of private memory. -/
def State.readPrivN (s : State) (a n : Nat) : List Byte := cellReadN privUnlisted s.mem.cells a n

/-- Bytes written to private memory from `a` on. -/
def State.writePriv (s : State) (a : Nat) (bs : List Byte) : State :=
  { s with mem := { s.mem with cells := cellWriteN privUnlisted s.mem.cells a bs } }

/-- 64-bit words that a write of `len` bytes at `a` wholly covers hold no error any more (04 R76). -/
def clearBad (bad : List Nat) (a len : Nat) : List Nat := bad.filter (fun w => !(decide (a ≤ w * 8) && decide (w * 8 + 8 ≤ a + len)))

/-- A table count raised or lowered; a count of 0 is not listed. -/
def bump (t : Tab Nat) (k : Nat) (f : Nat → Nat) : Tab Nat :=
  let v := f (tabGetD t k 0)
  if v = 0 then tabErase t k else tabSet t k v

/-- Bytes below address `x` that memory controller `c` holds: PPA bit 12 selects the controller (04 R77). -/
def ctlBelow (c x : Nat) : Nat := x / 8192 * 4096 + (if c = 0 then min (x % 8192) 4096 else x % 8192 - 4096)

/-- Bytes of an extent of private memory that controller `c` holds (04 R77). -/
def ctlBytes (c a len : Nat) : Nat := ctlBelow c (a + len) - ctlBelow c a

/-- The shares that the present window measures instance `n` by, of private memory and of the host link (11 R241). -/
def State.sharesNow (s : State) (n : Nat) : Nat × Nat :=
  tabGetD s.mem.oldShares n ((s.inst n).limits.privShare, (s.inst n).limits.hostShare)

/-- The instance is FREEZING or FROZEN (12 R255). -/
def State.freezes (s : State) (n : Nat) : Bool :=
  match (s.inst n).state with
  | .freezing | .frozen => true
  | _ => false

/-- Traffic of instance `n` on private memory, counted in the share window of the controller that holds the bytes and in
MEM_MB (04 R79). -/
def State.chargePriv (s : State) (n a len : Nat) : State :=
  { s with mem := { s.mem with window := bump (bump s.mem.window n (· + ctlBytes 0 a len)) (64 + n) (· + ctlBytes 1 a len) }
           dict := { s.dict with memBytes := s.dict.memBytes + len } }

/-- Bytes that instance `n` writes to private memory: counted, stored, and words wholly overwritten hold no error. -/
def State.storePriv (s : State) (n a : Nat) (bs : List Byte) : State :=
  let t := (s.chargePriv n a bs.length).writePriv a bs
  { t with mem := { t.mem with bad := clearBad t.mem.bad a bs.length } }

/-- PPA of entry `i` of instance `n`'s handle table (04 R78, R87). -/
def handleAddr (n i : Nat) : Nat := 0x10000 * n + 16 * i

/-- The byte of the keep store at `a`. -/
def State.readKeep (s : State) (a : Nat) : Byte := cellRead keepUnlisted s.keep.cells a

/-- `n` bytes of the keep store. -/
def State.readKeepN (s : State) (a n : Nat) : List Byte := cellReadN keepUnlisted s.keep.cells a n

/-- Bytes of the keep store replaced from `a` on (an erase and program of whole lists, 19 R400). -/
def State.writeKeep (s : State) (a : Nat) (bs : List Byte) : State :=
  { s with keep := { s.keep with cells := cellWriteN keepUnlisted s.keep.cells a bs } }

/-- Both byte memories have their canonical form. -/
def Memory.wf (s : State) : Bool := cellsWf privUnlisted s.mem.cells && cellsWf keepUnlisted s.keep.cells

/-- Usable private capacity in bytes (04 R76). -/
def State.usable (s : State) : Nat :=
  if s.mem.ecc then s.mem.capGiB * 1073741824 / 32 * 31 else s.mem.capGiB * 1073741824

/-- First address above the device region (04 R78). -/
def State.regionEnd (s : State) : Nat := 0x2000000 + s.mem.storeMiB * 1048576

-- Functions of the host link (05 R98, R103, R108) ------------------------------------------------------------

/-- The functions that exist: PF0, and VF1 to VF NumVFs while VF Enable is 1 (R98, R108). -/
def State.functions (s : State) : List Nat := if s.link.vfEnable then List.range (s.link.numVfs + 1) else [0]

/-- A function exists. -/
def State.fnExists (s : State) (fn : Nat) : Bool := s.functions.contains fn

/-- The device sees a host request to a BAR of the function: the link is up, the function exists and its Memory Space
Enable is 1 (R103). -/
def State.seen (s : State) (fn : Nat) : Bool := s.link.up && s.fnExists fn && (s.func fn).memEnable

-- DEVTIME ---------------------------------------------------------------------------------------------------

/-- One REFCLK cycle: DEVTIME advances 26 ns, or 27 ns in the 24th cycle of a group (00 R10). -/
def State.tick (s : State) : State :=
  if s.clk.alive && s.clk.refclk then
    if s.clk.phase = 23 then { s with clk := { s.clk with devtime := s.clk.devtime + 27, phase := 0 } }
    else { s with clk := { s.clk with devtime := s.clk.devtime + 26, phase := s.clk.phase + 1 } }
  else s

end Sys2Proof.Machine
end

