-- ==== Sys2Proof/Machine/Status.lean ====
section
/-! DEFINITION. The 16-bit statuses (22 R445, 06 R139, 07 R160, 09 R193, 18 R397, 11 R444) and the event codes
(22 R446, 18 R398) under the manual's names. -/

namespace Sys2Proof.Machine.St
open Sys2Proof

def ok : Status := 0x0000
def semNoChange : Status := 0x0001
def badOpcode : Status := 0x1001
def badFormat : Status := 0x1002
def badField : Status := 0x1003
def nullHandle : Status := 0x1004
def badGraph : Status := 0x1005
def badRole : Status := 0x1006
def badSemaphore : Status := 0x1007
def badLength : Status := 0x1008
def queueExists : Status := 0x1009
def graphImage : Status := 0x100A
def graphLimits : Status := 0x100B
def bindShape : Status := 0x100C
def bindMembers : Status := 0x100D
def relayMap : Status := 0x100E
def graphBase : Status := 0x100F
def badMessage : Status := 0x1010
def notManager : Status := 0x1011
def badInstance : Status := 0x1012
def blobFormat : Status := 0x1020
def blobVersion : Status := 0x1021
def blobCompat : Status := 0x1022
def attachGen : Status := 0x1030
def bundleFormat : Status := 0x1040
def bundleBase : Status := 0x1041
def bundleKey : Status := 0x1042
def bundleSignature : Status := 0x1043
def bundleLevel : Status := 0x1044
def unitWithdrawn : Status := 0x2001
def waitTimeout : Status := 0x2002
def handleBusy : Status := 0x2003
def queueState : Status := 0x2004
def queueSlots : Status := 0x2005
def graphStoreFull : Status := 0x2006
def graphLimit : Status := 0x2007
def instanceState : Status := 0x2008
def limitInUse : Status := 0x2009
def blobSpace : Status := 0x2010
def restoreResources : Status := 0x2011
def freezeTimeout : Status := 0x2012
def shareSum : Status := 0x2013
def busy : Status := 0x2014
def updateState : Status := 0x2015
def keepStoreFail : Status := 0x2016
def contractMismatch : Status := 0x3001
def contractFloor : Status := 0x3002
def contractAtom : Status := 0x3003
def contractBlocking : Status := 0x3004
def contractUtil : Status := 0x3005
def contractResponse : Status := 0x3006
def contractPower : Status := 0x3007
def contractMemory : Status := 0x3008
def contractReserve : Status := 0x3009
def contractSkim : Status := 0x300A
def contractUnbound : Status := 0x300B
def contractBound : Status := 0x300C
def contractUnknown : Status := 0x300D
def powerContract : Status := 0x300E
def contractLost : Status := 0x3010
def partMcheck : Status := 0x4001
def fusionLost : Status := 0x4002
def errTimeout : Status := 0x4003
def linkFatal : Status := 0x4004
def progressTimeout : Status := 0x4005
def handleStale : Status := 0x4010
def handleRange : Status := 0x4011
def handleAccess : Status := 0x4012
def dvaUnmapped : Status := 0x4018
def dvaPerm : Status := 0x4019
def pteFormat : Status := 0x401A
def hostXlate : Status := 0x401B
def memUncorrectable : Status := 0x401C
def hostLinkDown : Status := 0x401D
def hostCplTimeout : Status := 0x401E
def hostPoison : Status := 0x401F
def gloveMismatch : Status := 0x5001
def depAborted : Status := 0x6001
def interrupted : Status := 0x6002

/-- Statuses that make the queue guilty (06 R139). -/
def isGuilty (s : Status) : Bool :=
  s == progressTimeout || s == dvaUnmapped || s == dvaPerm || s == pteFormat || s == hostXlate || s == gloveMismatch

end Sys2Proof.Machine.St

namespace Sys2Proof.Machine.Ev

def doorbellBad : Nat := 0x0101
def eventsLost : Nat := 0x0201
def partsChanged : Nat := 0x0202
def mgmtLinkLost : Nat := 0x0210
def mgmtLinkRestored : Nat := 0x0211
def mgcRestart : Nat := 0x0220
def orphanEntered : Nat := 0x0221
def orphanEnded : Nat := 0x0222
def powerStateChanged : Nat := 0x0230
def budgetUnmet : Nat := 0x0231
def thermalHold : Nat := 0x0232
def thermalRelease : Nat := 0x0233
def railLow : Nat := 0x0234
def workHeldPower : Nat := 0x0235
def keepStoreError : Nat := 0x0240
def patchReverted : Nat := 0x0241
def calInvalid : Nat := 0x0242
def calProgrammed : Nat := 0x0243
def updateDone : Nat := 0x0244
def missRisk : Nat := 0x0301
def missRiskClear : Nat := 0x0302
def missed : Nat := 0x0303
def contractSuspended : Nat := 0x0304
def contractResumed : Nat := 0x0305
def releaseEarly : Nat := 0x0306
def contractLost : Nat := 0x0307
def partitionOffline : Nat := 0x0401
def fusionDissolved : Nat := 0x0402
def tileOverrun : Nat := 0x0403
def skimDetach : Nat := 0x0404
def mmuFault : Nat := 0x0405
def queueGuilty : Nat := 0x0406
def queueBroken : Nat := 0x0407
def linkFatal : Nat := 0x0408
def fepScrubRepair : Nat := 0x0409
def fepHalted : Nat := 0x040A
def spoof : Nat := 0x0501
def instanceStateChange : Nat := 0x0601
def recovery : Nat := 0x0602
def abortDone : Nat := 0x0603

end Sys2Proof.Machine.Ev
end

