-- ==== Sys2Proof/Machine/Events.lean ====
section
/-! DEFINITION. MSI-X messages (05 R105), event records (11 R247, 15 R329) and the Glove's SPOOF event (11 R249). -/

namespace Sys2Proof.Machine
open Sys2Proof

/-- Vector `v` of function `fn`. -/
def State.vector (s : State) (fn v : Nat) : Vector := tabGetD (s.func fn).vectors v {}

/-- Vector `v` of function `fn` changed by `f`. -/
def State.updVector (s : State) (fn v : Nat) (f : Vector → Vector) : State :=
  s.updFunc fn (fun c => { c with vectors := tabSet c.vectors v (f (tabGetD c.vectors v {})) })

/-- An MSI-X message of the vector may leave now (R105, R115). -/
def State.msixOpen (s : State) (fn v : Nat) : Bool :=
  let c := s.func fn
  s.link.up && c.msixEnable && !c.msixMask && !(s.vector fn v).masked && !(decide (fn = 0) && s.mgc.orphan)

/-- Something put on the host link's posted queue (R74). -/
def State.post (s : State) (p : Posted) : State := { s with link := { s.link with posted := s.link.posted ++ [p] } }

/-- Vector `v` of function `fn` is raised: sent, or its pending bit set (R105). -/
def State.msix (s : State) (fn v : Nat) : State :=
  if s.msixOpen fn v then
    (s.updVector fn v (fun x => { x with pending := false })).post
      (.msix fn v (s.vector fn v).addr (s.vector fn v).data)
  else s.updVector fn v (fun x => { x with pending := true })

/-- Every pending vector of the function whose conditions have ended is sent, each as one message (R105). -/
def State.msixFlush (s : State) (fn : Nat) : State :=
  (tabKeys (s.func fn).vectors).foldl
    (fun t v => if (t.vector fn v).pending && t.msixOpen fn v then t.msix fn v else t) s

/-- Bytes written into a page from `off` on. -/
def pageWrite (pg : Tab Byte) (off : Nat) : List Byte → Tab Byte
  | [] => pg
  | b :: t => pageWrite (tabSet pg off b) (off + 1) t

/-- An event record (R247). -/
def eventRecord (code subject : Nat) (lostBefore : Bool) (time : Nat) (payload : List Byte) : List Byte :=
  leBytes 2 code ++ leBytes 1 subject ++ leBytes 1 (b2n lostBefore) ++ leBytes 8 time ++ padTo 20 payload

/-- Free records of the event ring: 64 records, one always free (R243). -/
def Mailbox.evFree (b : Mailbox) : Nat := (b.evCons + 64 - b.evProd - 1) % 64

/-- A record placed in the event ring. -/
def Mailbox.putRecord (b : Mailbox) (r : List Byte) : Mailbox :=
  { b with outPage := pageWrite b.outPage (0x800 + 32 * b.evProd) r, evProd := (b.evProd + 1) % 64 }

/-- An event counted as lost. -/
def Mailbox.lose (b : Mailbox) : Mailbox := { b with evLost := min (b.evLost + 1) 0xFFFF, lostNew := b.lostNew + 1 }

/-- Whether the mailbox takes a record now. -/
def Mailbox.takes (b : Mailbox) : Bool := b.state == 2 && b.evFree != 0

/-- An event written into a mailbox's event ring, with EVENTS_LOST before it where events were lost and space
permits; discarded and counted otherwise (R247). -/
def Mailbox.putEvent (b : Mailbox) (owner code subject time : Nat) (payload : List Byte) : Mailbox :=
  if b.takes then
    if b.lostNew = 0 then b.putRecord (eventRecord code subject false time payload)
    else
      let b1 := if b.evFree ≥ 2 then
          b.putRecord (eventRecord Ev.eventsLost owner false time (leBytes 4 b.lostNew)) else b
      { b1.putRecord (eventRecord code subject true time payload) with lostNew := 0 }
  else b.lose

/-- An event delivered to the ring of instance `n`, with vector 0 of its function (R247). -/
def State.ringEvent (s : State) (n code subject time : Nat) (payload : List Byte) : State :=
  let b := (s.inst n).box
  let t := s.updInst n (fun i => { i with box := b.putEvent n code subject time payload })
  if b.takes then t.msix n 0 else t

/-- Topcoat serves. -/
def State.serving (s : State) : Bool := s.mgc.fw == .running

/-- An event written by Topcoat to the rings its rule names. -/
def State.deliver (s : State) (e : HeldEvent) : State :=
  let t := if e.toInst && !(e.toMgr && decide (e.subject = 0)) then
      s.ringEvent e.subject e.code e.subject e.time e.payload else s
  if e.toMgr then t.ringEvent 0 e.code e.subject e.time e.payload else t

/-- An event raised: written when Topcoat serves, otherwise held in the 256-entry hardware queue (R329). -/
def State.event (s : State) (code subject : Nat) (toInst toMgr : Bool) (payload : List Byte) : State :=
  let e : HeldEvent := ⟨code, subject, toInst, toMgr, s.now, payload⟩
  if s.serving then s.deliver e
  else if s.mgc.holdQueue.length < 256 then
    { s with mgc := { s.mgc with holdQueue := s.mgc.holdQueue ++ [e] } }
  else { s with mgc := { s.mgc with holdLost := s.mgc.holdLost + 1 } }

/-- The held events delivered when Topcoat serves again; a count of lost ones goes to the manager's ring (R329). -/
def State.releaseEvents (s : State) : State :=
  let q := s.mgc.holdQueue
  let lost := s.mgc.holdLost
  let t := q.foldl State.deliver { s with mgc := { s.mgc with holdQueue := [], holdLost := 0 } }
  if lost = 0 then t else t.ringEvent 0 Ev.eventsLost 0 t.now (leBytes 4 lost)

/-- An event of a code and subject that is written at most once per ms (R398, R363). -/
def State.eventLimited (s : State) (code limitSubject subject : Nat) (toInst toMgr : Bool) (payload : List Byte) : State :=
  let k := code * 65536 + limitSubject
  match tabGet s.pwr.limiter k with
  | some t =>
    if s.now < t + 1000000 then s
    else ({ s with pwr := { s.pwr with limiter := tabSet s.pwr.limiter k s.now } }).event code subject toInst toMgr payload
  | none => ({ s with pwr := { s.pwr with limiter := tabSet s.pwr.limiter k s.now } }).event code subject toInst toMgr payload

/-- A Glove mismatch reported: at most one SPOOF per instance and ms, the rest counted in SUPPRESSED (R249). `owner`
is the instance of the queue or function, none where no instance owns the request. -/
def State.spoof (s : State) (point claimed : Nat) (owner : Option Nat) (src dst slot rid kind : Nat) (seq : Nat) : State :=
  let k := owner.getD 0
  let i := s.inst k
  let s1 := if point ≥ 2 && owner.isSome then
      s.updInst k (fun i => { i with spoofCount := satInc i.spoofCount }) else s
  let recent := match i.lastSpoof with
    | some t => decide (s.now < t + 1000000)
    | none => false
  if recent then s1.updInst k (fun i => { i with suppressed := min (i.suppressed + 1) 0xFFFF })
  else
    let payload := leBytes 1 point ++ leBytes 1 claimed ++ leBytes 1 (owner.getD 0xFF) ++ leBytes 1 src ++ leBytes 1 dst
      ++ leBytes 2 slot ++ leBytes 2 rid ++ leBytes 1 kind ++ leBytes 4 seq ++ leBytes 2 i.suppressed
    (s1.updInst k (fun i => { i with lastSpoof := some s.now, suppressed := 0 })).event Ev.spoof k false true payload

end Sys2Proof.Machine
end

