-- ==== Sys2Proof/Machine/Mmu.lean ====
section
/-! DEFINITION. The device MMU (04 R80 to R85): page-table walks, bypass, cached translations, fault records, and
extents read and written through it. Host memory is outside the block: bytes read from it arrive with the command. -/

namespace Sys2Proof.Machine
open Sys2Proof

/-- Outcome of a translation: a private address, a host address, or a fault with its walk level. -/
inductive Xlate where
  | priv (ppa : Nat)
  | host (addr : Nat)
  | fault (status : Status) (level : Nat)
  deriving DecidableEq, Repr

/-- Bits [51:12] of a page-table entry as an address (R80). -/
def pteAddr (e : Nat) : Nat := e / 4096 % 2 ^ 40 * 4096

/-- A valid entry that breaks a rule of R80 at level `lvl` (1 to 4). -/
def pteBad (usable e lvl : Nat) : Bool :=
  let leaf := bit e 1
  let reserved := bits e 11 5 != 0 || bits e 63 52 != 0
  if leaf then
    reserved || decide (lvl < 3)
      || (if lvl = 3 then pteAddr e % 2097152 != 0 else pteAddr e % 65536 != 0)
      || (!bit e 4 && decide (pteAddr e ≥ usable))
  else
    reserved || decide (lvl = 4) || bit e 2 || bit e 3 || bit e 4 || decide (pteAddr e ≥ usable)

/-- Index of a DVA at a walk level (the walk table of chapter 04). -/
def walkIndex (dva lvl : Nat) : Nat :=
  match lvl with
  | 1 => bits dva 47 39
  | 2 => bits dva 38 30
  | 3 => bits dva 29 21
  | _ => bits dva 20 16

/-- The leaf found by a walk, as an entry for the 64 KiB page of the DVA (its reserved bit 5 marks a 2 MiB leaf), or a fault with
its level 0 to 3 (R80, R81). Entries listed in `up`, a cache of upper levels, are taken from there (R82). `fuel` counts the
levels left. -/
def walkFrom (s : State) (up : Tab (BitVec 64)) (dva table : Nat) : Nat → Nat → Except (Status × Nat) (BitVec 64)
  | _, 0 => .error (St.pteFormat, 3)
  | lvl, fuel + 1 =>
    let a := table + 8 * walkIndex dva lvl
    let got := if lvl < 4 then tabGet up a else none
    if got.isNone && s.mem.bad.contains (a / 8) then .error (St.memUncorrectable, lvl - 1)
    else
      let e := match got with
        | some x => x.toNat
        | none => leNat (s.readPrivN a 8)
      if !bit e 0 then .error (St.dvaUnmapped, lvl - 1)
      else if pteBad s.usable e lvl then .error (St.pteFormat, lvl - 1)
      else if bit e 1 then
        .ok (BitVec.ofNat 64 (if lvl = 3 then e + bits dva 20 16 * 65536 + 32 else e))
      else walkFrom s up dva (pteAddr e) (lvl + 1) fuel

/-- Address of an instance's level-1 table (R84). -/
def State.rootOf (s : State) (n : Nat) : Nat := bits (s.inst n).mmu.root.toNat 33 12 * 4096

/-- A walk of instance `n`'s tables from its root (R80). -/
def State.walk (s : State) (n dva : Nat) : Except (Status × Nat) (BitVec 64) :=
  if s.rootOf n ≥ s.usable then .error (St.pteFormat, 0) else walkFrom s [] dva (s.rootOf n) 1 4

/-- The valid entries that a walk reads, in order, as far as memory gives them: address and entry (R82). -/
def walkReads (s : State) (dva table : Nat) : Nat → Nat → List (Nat × BitVec 64)
  | _, 0 => []
  | lvl, fuel + 1 =>
    let a := table + 8 * walkIndex dva lvl
    let e := leNat (s.readPrivN a 8)
    if s.mem.bad.contains (a / 8) || !bit e 0 || pteBad s.usable e lvl then [(a, 0)]
    else (a, BitVec.ofNat 64 e) :: (if bit e 1 then [] else walkReads s dva (pteAddr e) (lvl + 1) fuel)

/-- What a leaf gives for a DVA and an access (R80, R81, R78). -/
def State.applyLeaf (s : State) (leaf : BitVec 64) (dva : Nat) (write : Bool) : Xlate :=
  let e := leaf.toNat
  let a := pteAddr e + dva % 65536
  if (if write then !bit e 3 else !bit e 2) then .fault St.dvaPerm (if bit e 5 then 2 else 3)
  else if bit e 4 then .host a
  else if a < s.regionEnd then .fault St.dvaPerm (if bit e 5 then 2 else 3)
  else .priv a

/-- Cached leaves that an access of a page may meet: in the controller's TLB, in a micro-TLB under the present generation, and
the one a walk through cached upper-level entries ends at (R82). -/
def State.cachedLeaves (s : State) (n dva : Nat) : List (BitVec 64) :=
  let i := s.inst n
  (tabGet i.mmu.tlb (dva / 65536)).toList
    ++ i.mmu.micro.filterMap (fun e => if e.1 % 2 ^ 32 = dva / 65536 ∧ e.2.1 = i.gen then some e.2.2 else none)
    ++ (if i.mmu.upper.isEmpty then [] else match walkFrom s i.mmu.upper dva (s.rootOf n) 1 4 with
      | .ok l => [l]
      | .error _ => [])

/-- Cached leaves of an instance with their pages (R82). -/
def Mmu.leaves (m : Mmu) : List (Nat × BitVec 64) := m.tlb ++ m.micro.map (fun e => (e.1 % 2 ^ 32, e.2.2))

/-- A leaf gives an address of host or private memory. -/
def leafReaches (leaf : BitVec 64) (host : Bool) (addr : Nat) : Bool :=
  bit leaf.toNat 4 == host && decide (pteAddr leaf.toNat ≤ addr) && decide (addr < pteAddr leaf.toNat + 65536)

/-- The leaf in use for a page: the walk's, or, where the tables have changed under a cached one, the one on which the open
choice of R85 falls until an invalidation ends. -/
def State.leafOf (s : State) (n dva : Nat) : Except (Status × Nat) (BitVec 64) :=
  match (s.cachedLeaves n dva).find? (fun l => match s.walk n dva with | .ok x => x != l | .error _ => true) with
  | some l => if Config.staleXlate s.freeCount n (dva / 65536) then .ok l else s.walk n dva
  | none => s.walk n dva

/-- Translation of one access of instance `n` (R80, R81, R84). A DVA has 48 bits; the manual names no status for an access past
them, as a ring whose base and offset run over the top, and the model ends it with DVA_UNMAPPED at level 0 (DESIGN CHOICE, log
entry 81). -/
def State.translate (s : State) (n dva : Nat) (write : Bool) : Xlate :=
  let m := (s.inst n).mmu
  if dva ≥ 2 ^ 48 then .fault St.dvaUnmapped 0
  else if m.en then
    match s.leafOf n dva with
    | .ok l => s.applyLeaf l dva write
    | .error (st, lvl) => .fault st lvl
  else if n = 0 && m.bypass then
    if bit dva 47 then .host (dva % 2 ^ 47)
    else if bits dva 46 34 != 0 then .fault St.dvaUnmapped 0
    else if dva % 2 ^ 34 ≥ s.usable then .fault St.dvaUnmapped 0
    else if dva % 2 ^ 34 < s.regionEnd then .fault St.dvaPerm 0
    else .priv (dva % 2 ^ 34)
  else .fault St.dvaUnmapped 0

-- The translation caches (R82; which entry a full one gives up is open, log entry 82) -------------------------------------------

/-- Room made in a cache of `limit` entries that the instances `among` share: where it is full, one entry is given up. -/
def State.makeRoom (s : State) (among : Nat → Bool) (size : Mmu → Nat) (drop : Mmu → Mmu) (limit : Nat) : State :=
  let held := s.insts.filter (fun e => among e.1 && decide (0 < size e.2.mmu))
  if (held.map (fun e => size e.2.mmu)).sum < limit then s
  else match held with
    | e :: _ => s.updInst e.1 (fun i => { i with mmu := drop i.mmu })
    | [] => s

/-- An instance's translation loaded into its controller's TLB of 2,048 entries. -/
def State.tlbLoad (s : State) (n page : Nat) (leaf : BitVec 64) : State :=
  let s1 := if (tabGet (s.inst n).mmu.tlb page).isSome then s
    else s.makeRoom (fun k => k % 2 == n % 2) (fun m => m.tlb.length) (fun m => { m with tlb := m.tlb.drop 1 }) 2048
  s1.updInst n (fun i => { i with mmu := { i.mmu with tlb := tabSet i.mmu.tlb page leaf } })

/-- Entries of an initiator's micro-TLB that belong to an instance. -/
def Mmu.microOf (m : Mmu) (node : Nat) : List Nat := (tabKeys m.micro).filter (fun k => k / 2 ^ 32 == node)

/-- An instance's translation loaded into an initiator's micro-TLB of 64 entries, under the instance's generation. -/
def State.microLoad (s : State) (n node page : Nat) (leaf : BitVec 64) : State :=
  let k := node * 2 ^ 32 + page
  let s1 := if (tabGet (s.inst n).mmu.micro k).isSome then s
    else s.makeRoom (fun _ => true) (fun m => (m.microOf node).length)
      (fun m => { m with micro := match m.microOf node with
        | j :: _ => tabErase m.micro j
        | [] => m.micro }) 64
  s1.updInst n (fun i => { i with mmu := { i.mmu with micro := tabSet i.mmu.micro k (i.gen, leaf) } })

/-- Upper-level entries that a walk has read, loaded into the controller's cache of 256. -/
def State.upperLoad (s : State) (n : Nat) (es : List (Nat × BitVec 64)) : State :=
  es.foldl (fun t e =>
    let t1 := if (tabGet (t.inst n).mmu.upper e.1).isSome then t
      else t.makeRoom (fun k => k % 2 == n % 2) (fun m => m.upper.length) (fun m => { m with upper := m.upper.drop 1 }) 256
    t1.updInst n (fun i => { i with mmu := { i.mmu with upper := tabSet i.mmu.upper e.1 e.2 } })) s

/-- Single-bit errors that a read of private memory met while inline ECC is on, corrected and counted (R76); how many is open
(log entry 6). -/
def State.corrected (s : State) (a len : Nat) : State :=
  if s.mem.ecc then { s with dict := { s.dict with memCe := satAdd s.dict.memCe (Config.memCorrected s.now a len) } } else s

/-- A walk of the instance's controller: it reads the entries that it has not cached, each counted against the share and checked
by the ECC, and caches the upper ones (R76, R79, R82). -/
def State.walked (s : State) (n dva : Nat) : State :=
  if s.rootOf n ≥ s.usable then s
  else
    let all := walkReads s dva (s.rootOf n) 1 4
    let up := (s.inst n).mmu.upper
    let s1 := (all.filter (fun e => (tabGet up e.1).isNone)).foldl (fun t e => (t.chargePriv n e.1 8).corrected e.1 8) s
    s1.upperLoad n ((all.take 3).filter (fun e => e.2 != 0 && !bit e.2.toNat 1))

/-- What a translation for an initiator leaves in the caches: a micro-TLB miss is served by the controller, and a miss there by
a walk (R82). -/
def State.xlated (s : State) (n node dva : Nat) : State :=
  let i := s.inst n
  if !i.mmu.en || (match tabGet i.mmu.micro (node * 2 ^ 32 + dva / 65536) with | some e => e.1 == i.gen | none => false) then s
  else
    let s1 := if (tabGet i.mmu.tlb (dva / 65536)).isSome then s else s.walked n dva
    match s.leafOf n dva with
    | .ok l => (s1.tlbLoad n (dva / 65536) l).microLoad n node (dva / 65536) l
    | .error _ => s1

-- Host memory (R71 to R74) ----------------------------------------------------------------------------------------------------

/-- A host access goes translated: the function's ATS Enable and its instance's MMU_CTL.ATS are both set (R72). -/
def State.usesAts (s : State) (n : Nat) : Bool := (s.func n).atsEnable && (s.inst n).mmu.ats

/-- Key of a translation in the ATC: requester and 4 KiB page (R72). -/
def atcKey (fn page : Nat) : Nat := fn * 2 ^ 40 + page

/-- A translation that the host gave, in the ATC of 1,024 entries; where it is full the oldest is replaced (log entry 82). -/
def State.cacheAtc (s : State) (fn page dest : Nat) : State :=
  let k := atcKey fn page
  let age := s.link.atcAge.filter (· != k)
  let full := decide (1024 ≤ (tabErase s.link.atc k).length)
  let atc := if full then tabErase s.link.atc (age.headD 0) else s.link.atc
  { s with link := { s.link with atc := tabSet atc k dest, atcAge := (if full then age.drop 1 else age) ++ [k] } }

/-- The bridge holds as many non-posted requests as it can (05 R96). -/
def State.hostFull (s : State) : Bool := decide (512 ≤ s.link.outstanding.length)

/-- The tags of the device's requests to the host, the first and how many: of 5, 8 or 10 bits, as the host enables them in PF0's
Device Control; 10-bit tags are those from 256 on (05 R96). -/
def State.linkTags (s : State) : Nat × Nat :=
  if bit (s.func 0).devCtl2.toNat 12 then (256, 768) else if bit (s.func 0).devCtl.toNat 8 then (0, 256) else (0, 32)

/-- The lowest tag that is free on the host link, as long as the bridge holds fewer than 512 requests (05 R96). -/
def State.freeTag (s : State) : Option Nat :=
  if s.hostFull then none else lowestFree (tabKeys s.link.outstanding) s.linkTags.1 s.linkTags.2

/-- The bridge asks the host for the translation of an access, which waits for the answer under the lowest free link tag (R72,
05 R109); with no tag free it waits for one. -/
def State.askXlat (s : State) (n : Nat) (w : Waiting) : State :=
  match s.freeTag with
  | some t =>
    let r : HostReq := { fn := n, pkt := w.pkt, sentAt := s.now, page := some (w.pkt.addr / 4096), xlat := some w }
    { s with link := { s.link with outstanding := tabSet s.link.outstanding t r } }
  | none => { s with mem := { s.mem with windowWait := s.mem.windowWait ++ [w] } }

/-- The packet in which the FEP's write of host memory reaches the bridge. -/
def fepWrite (n a len : Nat) : Pkt :=
  { typ := 1, urg := 0, src := 19, dst := 16, mask := 0, inst := n, gen := 0, slot := 0x3FF, tag := 0, tgen := 0,
    len := (len + 31) / 32, status := 0, addr := a, hostSpace := true, bytes := len - 1 }

/-- A write of host memory for instance `n` leaves as posted writes of its function, with No Snoop and Relaxed Ordering 0 (R71,
R74): untranslated, or, where its function uses ATS, translated page by page, asking the host for what the ATC lacks (R72). -/
def State.hostPost (s : State) (n a : Nat) (bs : List Byte) : Nat → State
  | 0 => s
  | fuel + 1 =>
    if bs.length = 0 then s
    else if !s.usesAts n then s.post (.write n a bs)
    else
      let k := min bs.length (4096 - a % 4096)
      let t := match tabGet s.link.atc (atcKey n (a / 4096)) with
        | some p => s.post (.writeAt n (p * 4096 + a % 4096) (bs.take k))
        | none => s.askXlat n ⟨true, fepWrite n a k, bs.take k⟩
      t.hostPost n (a + k) (bs.drop k) fuel

/-- A fault of an extent: status, DVA and walk level. -/
structure XFault where
  status : Status
  dva : Nat
  level : Nat
  deriving DecidableEq, Repr

/-- Outcome of reading an extent. -/
inductive ReadRes where
  /-- the bytes, and the host bytes not used -/
  | bytes (bs : List Byte) (rest : List Byte)
  /-- the host bytes have not all arrived -/
  | short
  | fault (f : XFault)
  deriving DecidableEq, Repr

/-- A word with an uncorrectable error among `len` bytes from `a` (R76). -/
def State.badIn (s : State) (a len : Nat) : Bool := s.mem.bad.any (fun w => decide (w * 8 < a + len ∧ a < w * 8 + 8))

/-- The bytes of an extent of instance `n`, page by page; host pages take their bytes from `host` in order. -/
def State.readExtent (s : State) (n dva len : Nat) (host : List Byte) : Nat → ReadRes
  | 0 => .bytes [] host
  | fuel + 1 =>
    if len = 0 then .bytes [] host
    else
      let k := min len (65536 - dva % 65536)
      match s.translate n dva false with
      | .fault st lvl => .fault ⟨st, dva, lvl⟩
      | .priv a =>
        if s.badIn a k then .fault ⟨St.memUncorrectable, dva, 0⟩
        else
          match s.readExtent n (dva + k) (len - k) host fuel with
          | .bytes bs r => .bytes (s.readPrivN a k ++ bs) r
          | r => r
      | .host _ =>
        if !s.link.up then .fault ⟨St.hostLinkDown, dva, 0⟩
        else if host.length < k then .short
        else
          match s.readExtent n (dva + k) (len - k) (host.drop k) fuel with
          | .bytes bs r => .bytes (host.take k ++ bs) r
          | r => r

/-- Pages an extent can touch. -/
def pagesOf (len : Nat) : Nat := len / 65536 + 2

/-- The bytes of an extent (R88). -/
def State.readDva (s : State) (n dva len : Nat) (host : List Byte) : ReadRes := s.readExtent n dva len host (pagesOf len)

/-- What the reads of an extent by node `node` for instance `n` leave behind, page by page: the translation caches, the share
window and MEM_MB, and errors that inline ECC corrected (R76, R79, R82). -/
def State.chargeExtent (s : State) (n node dva len : Nat) : Nat → State
  | 0 => s
  | fuel + 1 =>
    if len = 0 then s
    else
      let k := min len (65536 - dva % 65536)
      let t := match s.translate n dva false with
        | .priv a => ((s.xlated n node dva).chargePriv n a k).corrected a k
        | .host _ => s.xlated n node dva
        | .fault _ _ => s
      t.chargeExtent n node (dva + k) (len - k) fuel

/-- What the FEP's reads of an extent leave behind. -/
def State.chargeRead (s : State) (n dva len : Nat) : State := s.chargeExtent n 19 dva len (pagesOf len)

/-- The instance has spent its private-memory share of the present window at a controller (R79). -/
def State.privSpent (s : State) (n : Nat) : Bool :=
  decide ((s.sharesNow n).1 ≤ 2 * tabGetD s.mem.window n 0) || decide ((s.sharesNow n).1 ≤ 2 * tabGetD s.mem.window (64 + n) 0)

/-- A DVA of an instance lies in private memory. -/
def State.inPriv (s : State) (n dva : Nat) : Bool := match s.translate n dva false with | .priv _ => true | _ => false

/-- Bytes written through the MMU, page by page: private pages at once, host pages as posted writes of the
instance's function (R71, R74). A fault leaves the earlier pages written. -/
def State.writeExtent (s : State) (n dva : Nat) (bs : List Byte) : Nat → State × Option XFault
  | 0 => (s, none)
  | fuel + 1 =>
    if bs.length = 0 then (s, none)
    else
      let k := min bs.length (65536 - dva % 65536)
      match s.translate n dva true with
      | .fault st lvl => (s, some ⟨st, dva, lvl⟩)
      | .priv a => ((s.xlated n 19 dva).storePriv n a (bs.take k)).writeExtent n (dva + k) (bs.drop k) fuel
      | .host a =>
        if s.link.up then
          ((s.xlated n 19 dva).hostPost n a (bs.take k) (k / 4096 + 2)).writeExtent n (dva + k) (bs.drop k) fuel
        else (s, some ⟨St.hostLinkDown, dva, 0⟩)

/-- Bytes written through the MMU. -/
def State.writeDva (s : State) (n dva : Nat) (bs : List Byte) : State × Option XFault :=
  s.writeExtent n dva bs (pagesOf bs.length)

/-- A translation fault (not a data error) (R81). -/
def isXlate (s : Status) : Bool :=
  s == St.dvaUnmapped || s == St.dvaPerm || s == St.pteFormat || s == St.hostXlate

/-- A status with which the MMU ends an access (R81). -/
def isMmuStatus (s : Status) : Bool := isXlate s || s == St.memUncorrectable

/-- The fault registers take the first fault with a status of R81 (R84), and the instance and the manager receive MMU_FAULT for a
translation fault (R81, R398). `initiator`: 0 FEP, 1 DMA engine, 2 Skim engine. -/
def State.mmuFault (s : State) (n : Nat) (f : XFault) (write : Bool) (initiator part slot seq : Nat) : State :=
  if isMmuStatus f.status then
    let m := (s.inst n).mmu
    let info := f.status.toNat + f.level % 4 * 65536 + b2n write * 262144 + initiator * 524288 + part % 16 * 2097152
    let s1 := if m.faultValid then s
      else s.updInst n (fun i => { i with mmu := { i.mmu with
        faultValid := true, faultDva := BitVec.ofNat 48 f.dva, faultInfo := BitVec.ofNat 31 info } })
    if !isXlate f.status then s1
    else s1.event Ev.mmuFault n true true (leBytes 6 f.dva ++ leBytes 2 f.status.toNat ++ leBytes 4 (info / 65536 % 512)
      ++ leBytes 2 slot ++ leBytes 4 seq)
  else s

end Sys2Proof.Machine
end

