-- ==== Sys2Proof/Machine/Operands.lean ====
section
/-! DEFINITION. Operand forms: the command-entry layouts of formats A, B and C (06 R123 to R126), queue descriptors
(06 R117), handle-table words (04 R87), binding words (07 R154), graph images (07 R140 to R142, 02 R38, 03 R58). -/

namespace Sys2Proof.Machine
open Sys2Proof

/-- Opcodes of the command catalogue (R125). -/
def opNop : Nat := 0x00
def opWait : Nat := 0x01
def opSignal : Nat := 0x02
def opBarrier : Nat := 0x03
def opCopy : Nat := 0x10
def opFill : Nat := 0x11
def opHandleBind : Nat := 0x20
def opHandleFree : Nat := 0x21
def opLaunch : Nat := 0x30
def opPatch : Nat := 0x31

/-- An opcode the device executes (R125). -/
def opDefined (op : Nat) : Bool := [0x00, 0x01, 0x02, 0x03, 0x10, 0x11, 0x20, 0x21, 0x30, 0x31].contains op

/-- An opcode is valid in a queue format, 0 A, 1 B, 2 C: COPY is not in format A (R125). -/
def opInFormat (op fmt : Nat) : Bool := !(decide (op = opCopy) && decide (fmt = 0))

/-- Bytes of a queue entry: 32 in format A, 64 in B and C (R123). -/
def entrySize (fmt : Nat) : Nat := if fmt = 0 then 32 else 64

/-- The bits of byte `k` of an entry that the layouts of R123 and R126 define; the rest are reserved. -/
def layoutMask (op fmt k : Nat) : Nat :=
  if k = 0 ∨ k = 1 then 0xFF
  else if k = 2 then 0x03
  else if k = 3 then 0
  else if k < 8 then 0xFF
  else if op = opWait ∨ op = opSignal then
    if k = 8 then 0xFF else if k = 9 then 0x03
    else if 12 ≤ k ∧ k ≤ 15 then (if op = opWait then 0xFF else 0)
    else if 16 ≤ k ∧ k ≤ 23 then 0xFF else 0
  else if op = opCopy then (if k ≤ 39 then 0xFF else 0)
  else if op = opFill then (if k ≤ 31 then 0xFF else 0)
  else if op = opHandleBind then
    if k = 8 then 0xFF else if k = 9 then 0x3F
    else if 16 ≤ k ∧ k ≤ 21 then 0xFF else if 24 ≤ k ∧ k ≤ 28 then 0xFF else 0
  else if op = opHandleFree then
    if k = 8 then 0xFF else if k = 9 then 0x0F else if 10 ≤ k ∧ k ≤ 13 then 0xFF else 0
  else if op = opLaunch then
    if k ≤ 10 then 0xFF else if k = 11 then 0 else if k ≤ 13 then 0xFF
    else if k = 16 ∨ k = 17 then 0xFF
    else if fmt = 0 then 0
    else if k = 14 then 0xFF else if k = 15 then 0x1F
    else if k = 18 ∨ k = 20 then 0xFF else if k = 19 ∨ k = 21 then 0x83
    else if 24 ≤ k ∧ k ≤ 39 then 0xFF else 0
  else if op = opPatch then
    if k ≤ 9 then 0xFF else if k ≤ 11 then 0 else if k ≤ 31 then 0xFF else 0
  else 0

/-- A reserved bit of the entry is set. -/
def reservedSet (op fmt : Nat) : Nat → List Byte → Bool
  | _, [] => false
  | k, b :: t => (b.toNat &&& (0xFF - layoutMask op fmt k) != 0) || reservedSet op fmt (k + 1) t

/-- Fields of the 8-byte header (R123). -/
def hdrFmt (e : List Byte) : Nat := bits (field e 0 4) 9 8
def hdrInst (e : List Byte) : Nat := bits (field e 0 4) 15 10
def hdrFence (e : List Byte) : Bool := bit (field e 0 4) 16
def hdrIrq (e : List Byte) : Bool := bit (field e 0 4) 17
def hdrTag (e : List Byte) : BitVec 32 := BitVec.ofNat 32 (field e 4 4)

/-- Entries a command occupies (R124): more than one only for LAUNCH_GRAPH in format C. -/
def entriesOf (fmt : Nat) (e : List Byte) : Nat :=
  let cb := bits (field e 14 2) 12 0
  if fmt = 2 ∧ field e 0 1 = opLaunch ∧ cb ≤ 4096 then 1 + ceilDiv cb 64 else 1

/-- Fields of WAIT and SIGNAL (R126). -/
def semIndex (e : List Byte) : Nat := bits (field e 8 2) 9 0
def semTimeoutUs (e : List Byte) : Nat := field e 12 4
def semValue (e : List Byte) : Nat := field e 16 8

/-- Fields of LAUNCH_GRAPH (R126). -/
def launchGraphId (e : List Byte) : Nat := field e 8 2
def launchRole (e : List Byte) : Nat := field e 10 1
def launchMask (e : List Byte) : BitVec 16 := BitVec.ofNat 16 (field e 12 2)
def launchContract (e : List Byte) : Nat := field e 16 2
def launchCbLen (fmt : Nat) (e : List Byte) : Nat := if fmt = 0 then 0 else bits (field e 14 2) 12 0
def launchWait (fmt : Nat) (e : List Byte) : Option (Nat × Nat) :=
  if fmt ≠ 0 ∧ bit (field e 18 2) 15 then some (bits (field e 18 2) 9 0, field e 24 8) else none
def launchSig (fmt : Nat) (e : List Byte) : Option (Nat × Nat) :=
  if fmt ≠ 0 ∧ bit (field e 20 2) 15 then some (bits (field e 20 2) 9 0, field e 32 8) else none

/-- A queue descriptor from its 64 bytes (R117). -/
def parseDesc (b : List Byte) : QDesc :=
  { qid := bits (field b 0 1) 3 0, format := bits (field b 1 1) 1 0, cls := bits (field b 1 1) 3 2,
    irqPolicy := bits (field b 1 1) 5 4, vector := field b 2 1, subLog2 := field b 3 1, cplLog2 := field b 4 1,
    subBase := field b 8 6, cplBase := field b 16 6, statusWb := field b 24 6, holdoff := field b 32 2,
    progressMs := field b 36 4 }

/-- The descriptor's reserved bits are zero (R117). -/
def descReservedOk (b : List Byte) : Bool :=
  bits (field b 0 1) 7 4 == 0 && bits (field b 1 1) 7 6 == 0 && field b 5 3 == 0 && field b 14 2 == 0
    && field b 22 2 == 0 && field b 30 2 == 0 && field b 34 2 == 0 && field b 40 8 == 0 && field b 48 8 == 0
    && field b 56 8 == 0

/-- The descriptor's fields lie in their ranges (R117); `n` is the owning instance. -/
def descOk (n : Nat) (d : QDesc) : Bool :=
  d.format != 3 && d.cls != 0 && decide (3 ≤ d.vector) && decide (d.vector ≤ (if n = 0 then 63 else 7))
    && decide ((if d.format = 2 then 7 else 4) ≤ d.subLog2) && decide (d.subLog2 ≤ 14)
    && decide (6 ≤ d.cplLog2) && decide (d.cplLog2 ≤ 16)
    && d.subBase % 4096 == 0 && d.cplBase % 4096 == 0 && d.statusWb % 16 == 0
    && (d.irqPolicy != 3 || decide (1 ≤ d.holdoff))
    && (d.progressMs == 0 || (decide (10 ≤ d.progressMs) && decide (d.progressMs ≤ 60000)))

/-- A queue descriptor back to its 64 bytes (R117). -/
def descBytes (d : QDesc) : List Byte :=
  leBytes 1 d.qid ++ leBytes 1 (d.format + 4 * d.cls + 16 * d.irqPolicy) ++ leBytes 1 d.vector ++ leBytes 1 d.subLog2
    ++ leBytes 1 d.cplLog2 ++ leBytes 3 0 ++ leBytes 8 d.subBase ++ leBytes 8 d.cplBase ++ leBytes 8 d.statusWb
    ++ leBytes 2 d.holdoff ++ leBytes 2 0 ++ leBytes 4 d.progressMs ++ List.replicate 24 0

/-- The handle value of an entry: index in [11:0], generation in [31:12] (04 R86). -/
def handleValue (index gen : Nat) : BitVec 32 := BitVec.ofNat 32 (index + 4096 * gen)

/-- A handle-table entry that no one has bound (R87): GEN 1. -/
def freshHandle : Handle := ⟨0, 0, 1, false, false, false⟩

/-- Entry `i` of instance `n`'s handle table. -/
def State.handle (s : State) (n i : Nat) : Handle := tabGetD (s.inst n).handles i freshHandle

/-- A handle freed: BOUND cleared and GEN advanced, from 0xF_FFFF to 1 (R87). -/
def freeHandle (h : Handle) : Handle := { h with bound := false, gen := if h.gen = 0xFFFFF then 1 else h.gen + 1 }

/-- Entry `i` of instance `n`'s handle table cannot be read: it is not in the FEP's cache (R90), and its words in the device
region hold an uncorrectable error (R76). -/
def State.handleBad (s : State) (n i : Nat) : Bool :=
  s.badIn (handleAddr n i) 16 && !(s.fep.hcache.any (fun e => e.1 == n * 4096 + i))

/-- A handle-plus-offset pair relocated: the checks of R88 in order; a null handle is the caller's. -/
def State.relocPair (s : State) (n : Nat) (h : BitVec 32) (offset len : Nat) (rd wr : Bool) : Except Status Nat :=
  let e := s.handle n (h.toNat % 4096)
  let size := if e.size = 0 then 2 ^ 40 else e.size
  if s.handleBad n (h.toNat % 4096) then .error St.memUncorrectable
  else if !e.bound || e.gen != h.toNat / 4096 then .error St.handleStale
  else if offset + len > size || e.base + offset + len > 2 ^ 48 then .error St.handleRange
  else if (rd && !e.rd) || (wr && !e.wr) then .error St.handleAccess
  else .ok (e.base + offset)

-- Binding words (07 R154) ------------------------------------------------------------------------------------

/-- Members of the group that partition `p` leads in a shape: 1, 2 or 4 partitions (02 R41). -/
def groupParts (shape p : Nat) : List Nat :=
  match shape with
  | 0 => [p]
  | 1 => [p, p + 1]
  | _ => [p, p + 1, p + 2, p + 3]

def bwLeaders (w : BitVec 32) : BitVec 16 := w.setWidth 16
def bwShape (w : BitVec 32) : Nat := bits w.toNat 17 16
def bwGang (w : BitVec 32) : Bool := w.getLsbD 18
def bwValid (w : BitVec 32) : Bool := w.getLsbD 19

/-- The leaders a word names, ascending; a member's place is its replica index (03 R55). -/
def leadersOf (m : BitVec 16) : List Nat := (List.range 16).filter (fun p => m.getLsbD p)

/-- Leaders of a binding word; none when it is not valid. -/
def bwLeaderList (w : BitVec 32) : List Nat := if bwValid w then leadersOf (bwLeaders w) else []

/-- Every partition a binding word includes. -/
def bwParts (w : BitVec 32) : List Nat := (bwLeaderList w).flatMap (groupParts (bwShape w))

/-- A binding word from its fields. -/
def mkBind (leaders : BitVec 16) (shape : Nat) (gang valid : Bool) : BitVec 32 :=
  BitVec.ofNat 32 (leaders.toNat + shape * 65536 + b2n gang * 262144 + b2n valid * 524288)

/-- The binding word of a role of an instance. -/
def State.bindWord (s : State) (n role : Nat) : BitVec 32 := tabGetD (s.inst n).bind role 0

/-- Partitions bound to an instance in some role. -/
def State.boundParts (s : State) (n : Nat) : List Nat :=
  (tabVals (s.inst n).bind).flatMap bwParts

/-- Partition sets as masks. -/
def maskOf (ps : List Nat) : BitVec 16 := ps.foldl (fun m p => m ||| (1 <<< p)) 0

-- Graph images ----------------------------------------------------------------------------------------------

/-- A tile-table entry (02 R38); none when a reserved bit is set. -/
def parseTile (b : List Byte) : Option Tile :=
  let w0 := field b 0 4
  let w1 := field b 4 4
  let w2 := field b 8 4
  if bits w0 31 30 != 0 || bits w1 15 10 != 0 || bits w1 31 23 != 0 || bits w2 31 16 != 0 || field b 12 4 != 0 then none
  else some { wcCycles := bits w0 23 0, cls := bits w0 26 24, shape := bits w0 28 27, preempt := bit w0 29,
              uentry := bits w1 9 0, live := bits w1 22 16, woff := bits w2 14 0, skim := bit w2 15 }

/-- `k` tile-table entries from `off` on. -/
def parseTiles (img : List Byte) : Nat → Nat → Option (List Tile)
  | _, 0 => some []
  | off, k + 1 => do
    let t ← parseTile ((img.drop off).take 16)
    let r ← parseTiles img (off + 16) k
    return t :: r

/-- A section of an image: its kind, its offset and its length (R140). -/
structure Section where
  kind : Nat
  off : Nat
  len : Nat
  deriving DecidableEq, Repr

/-- Two sections share a byte. -/
def Section.overlaps (a b : Section) : Bool := decide (a.off < b.off + b.len ∧ b.off < a.off + a.len)

/-- Sections of different kinds do not overlap, and every section lies within the image (R140). -/
def sectionsOk (imageLen : Nat) (ss : List Section) : Bool :=
  ss.all (fun a => decide (a.off + a.len ≤ imageLen)) &&
    ss.all (fun a => ss.all (fun b => a.kind == b.kind || !a.overlaps b))

/-- A variant-table entry with its tile table and the sections it names (R141). -/
def parseVariant (img : List Byte) (roleMask : BitVec 16) (patchLen : Nat) (b : List Byte) :
    Option (Variant × List Section) := do
  let role := bits (field b 0 1) 3 0
  let shape := field b 1 1
  let tileOff := field b 4 4
  let tiles := field b 8 4
  let paramOff := field b 12 4
  let paramLen := field b 16 4
  let resOff := field b 20 4
  let resMember := field b 24 4
  let skimOff := field b 28 4
  let members := if shape = 0 then 1 else if shape = 1 then 2 else 4
  if bits (field b 0 1) 7 4 != 0 || field b 2 2 != 0 || !allZero ((b.drop 40).take 24) || decide (shape ≥ 3)
      || !roleMask.getLsbD role || tileOff % 16 != 0 || tiles == 0 || decide (tiles > 65536)
      || resOff % 256 != 0 || resMember % 256 != 0 || decide (resMember > 4194304)
      || decide (resOff + members * resMember > patchLen)
      || (skimOff != 0xFFFFFFFF && (skimOff % 32 != 0 || decide (skimOff + 32 > patchLen)))
      || decide (tileOff + 16 * tiles > img.length) then none
  else
    let ts ← parseTiles img tileOff tiles
    return ({ role, shape, tiles := ts, resOff, resMember,
              skimOff := if skimOff = 0xFFFFFFFF then none else some skimOff, wcLaunch := field b 32 8 },
            [⟨4, tileOff, 16 * tiles⟩, ⟨5, paramOff, paramLen⟩])

/-- The variant table. -/
def parseVariants (img : List Byte) (roleMask : BitVec 16) (patchLen : Nat) :
    Nat → Nat → Option (List Variant × List Section)
  | _, 0 => some ([], [])
  | off, k + 1 => do
    let (v, ss) ← parseVariant img roleMask patchLen ((img.drop off).take 64)
    let (vs, rest) ← parseVariants img roleMask patchLen (off + 64) k
    return (v :: vs, ss ++ rest)

/-- A relocation-list entry (R142). -/
def parseReloc (cbSize : Nat) (b : List Byte) : Option Reloc :=
  let so := bits (field b 0 2) 11 0
  let fl := field b 2 1
  let ext := field b 8 8
  if bits (field b 0 2) 15 12 != 0 || decide (fl ≥ 8) || field b 3 5 != 0 || decide (ext > 2 ^ 40) || ext == 0
      || so % 16 != 0 || decide (so + 16 > cbSize) || fl % 4 == 0 then none
  else some { slotOff := so, rd := bit fl 0, wr := bit fl 1, nullOk := bit fl 2, extent := ext }

/-- The relocation list. -/
def parseRelocs (img : List Byte) (cbSize : Nat) : Nat → Nat → Option (List Reloc)
  | _, 0 => some []
  | off, k + 1 => do
    let r ← parseReloc cbSize ((img.drop off).take 16)
    let rs ← parseRelocs img cbSize (off + 16) k
    return r :: rs

/-- A relay-map entry (R156), its reserved bytes zero; the rules of the map are checked later. -/
def parseEdges (img : List Byte) : Nat → Nat → Option (List Edge)
  | _, 0 => some []
  | off, k + 1 => do
    let b := (img.drop off).take 8
    if bits (field b 0 1) 7 4 != 0 || bits (field b 1 1) 7 4 != 0 || field b 3 5 != 0 then none
    let es ← parseEdges img (off + 8) k
    return { src := field b 0 1, dst := field b 1 1, credits := field b 2 1 } :: es

/-- No value twice. -/
def distinct (l : List Nat) : Bool := l.eraseDups.length == l.length

/-- Roles of a mask. -/
def rolesOf (m : BitVec 16) : List Nat := leadersOf m

/-- The fixed section of an image, with PATCH_OFF: check 2 of R144 (the header, section, variant and relocation
rules of R140 to R142). -/
def parseImage (img : List Byte) (msgLen : Nat) : Option (GraphFixed × Nat) := do
  let mode := field img 8 1
  let nVar := field img 9 1
  let roleMask := BitVec.ofNat 16 (field img 10 2)
  let cbSize := field img 12 2
  let nRel := field img 14 1
  let nEdge := field img 15 1
  let imageLen := field img 16 4
  let varOff := field img 20 4
  let relOff := field img 24 4
  let relayOff := field img 28 4
  let patchOff := field img 32 4
  let patchLen := field img 36 4
  if field img 0 4 != 0x49475246 || field img 4 2 != 1 || decide (mode > 1) || nVar == 0 || decide (nVar > 48)
      || cbSize % 16 != 0 || decide (cbSize > 4096) || decide (nRel > 128)
      || (mode == 0 && (nEdge != 0 || relayOff != 0)) || (mode == 1 && (nEdge == 0 || decide (nEdge > 32)))
      || imageLen % 256 != 0 || imageLen != msgLen || imageLen != img.length
      || varOff % 256 != 0 || relOff % 256 != 0 || relayOff % 256 != 0 || patchOff % 256 != 0 || patchLen % 256 != 0
      || decide (patchLen < cbSize) || !allZero ((img.drop 40).take 24) then none
  let (vs, ss) ← parseVariants img roleMask patchLen varOff nVar
  let rs ← parseRelocs img cbSize relOff nRel
  let es ← parseEdges img relayOff nEdge
  let all := [⟨0, 0, 64⟩, ⟨1, varOff, 64 * nVar⟩, ⟨2, relOff, 16 * nRel⟩, ⟨3, relayOff, 8 * nEdge⟩,
    ⟨6, patchOff, patchLen⟩] ++ ss
  let rolesPresent := (rolesOf roleMask).all (fun r => vs.any (fun v => v.role == r))
  let onePerShape := distinct (vs.map (fun v => v.role * 4 + v.shape))
  let patchLast := all.all (fun a => a.kind == 6 || decide (a.len = 0 ∨ a.off < patchOff + patchLen ∧ a.off + a.len ≤ patchOff))
  if !sectionsOk imageLen (all.filter (fun a => a.len != 0)) || !rolesPresent || !onePerShape || !patchLast
      || !distinct (rs.map (·.slotOff)) then none
  return ({ relay := mode == 1, roleMask, cbSize, imageLen, patchLen, variants := vs, relocs := rs, edges := es }, patchOff)

/-- A stream descriptor from its 32 bytes (03 R58); none when a field holds a reserved value or a reserved byte [31:18] is
not zero. That the latter fails, and with the GRAPH_LIMITS of R58's other rules, is the model's choice: R7 lets reserved bits of
a written field be ignored, and R144 check 2 names the image's layout only (DESIGN CHOICE, log entry 83). -/
def parseStream (b : List Byte) : Option Stream :=
  let st : Stream := { handle := BitVec.ofNat 32 (field b 0 4), offset := field b 4 8, blocks := field b 12 4,
                       passes := field b 16 1, members := field b 17 1 }
  if st.offset % 4096 != 0 || st.blocks == 0 || decide (st.blocks > 4194304) || st.passes == 0
      || !([1, 2, 4].contains st.members) || !allZero ((b.drop 18).take 14) then none
  else some st

end Sys2Proof.Machine
end

