-- ==== Sys2Proof/Machine/Queues.lean ====
section
/-! DEFINITION. What every stage of the launch path uses of queues, commands, semaphores, graph versions and contracts
(06 R116 to R138, 07 R145 to R151, 09 R186 and R187, 18 R383 to R390). -/

namespace Sys2Proof.Machine
open Sys2Proof

-- Queues ------------------------------------------------------------------------------------------------------

/-- Some HELD cause is in force (R136). -/
def Queue.heldAny (q : Queue) : Bool := q.heldOrphan || q.heldD3 || q.heldFrozen

/-- QSTATE.STATE of a queue that is not FREE: 1 ACTIVE, 2 HELD, 3 STOPPED (R136, R138). -/
def Queue.stateCode (q : Queue) : Nat := if q.stopCause ≠ 0 then 3 else if q.heldAny then 2 else 1

/-- QSTATE.CAUSE; with several HELD causes in force, the lowest code (R138; log entry 11). -/
def Queue.causeCode (q : Queue) : Nat :=
  if q.stopCause ≠ 0 then q.stopCause else if q.heldOrphan then 4 else if q.heldD3 then 5
  else if q.heldFrozen then 6 else 0

/-- The slot of queue `qid` of instance `n`. -/
def State.slotOf (s : State) (n qid : Nat) : Option Nat :=
  (s.queues.find? (fun e => e.2.inst == n && e.2.desc.qid == qid)).map (·.1)

/-- Slots of instance `n`, ascending. -/
def State.slotsOf (s : State) (n : Nat) : List Nat := tabKeys (s.queues.filter (fun e => e.2.inst == n))

/-- Submission-ring entries. -/
def Queue.entriesMax (q : Queue) : Nat := 2 ^ q.desc.subLog2

/-- Completion-ring records. -/
def Queue.records (q : Queue) : Nat := 2 ^ q.desc.cplLog2

/-- Distance of two free-running 32-bit indices (R120). -/
def dist (a b : BitVec 32) : Nat := (a - b).toNat

/-- A change of READ, CPL or state that the write-back block shall show (R122). -/
def Queue.touch (q : Queue) : Queue := { q with wbPending := true }

/-- Accepted commands of a slot that have not completed, in acceptance order (R121). -/
def State.accepted (s : State) (slot : Nat) : List Cmd :=
  ((s.slotCmds slot).filter (fun c => c.accepted && !c.cancelled)).mergeSort (fun a b => decide (a.order ≤ b.order))

/-- INFLIGHT of a slot (R138). -/
def State.inflight (s : State) (slot : Nat) : Nat := (s.accepted slot).length

/-- Record reservations held by a slot (R132). -/
def State.held (s : State) (slot : Nat) : Nat := ((s.slotCmds slot).map (·.resv)).sum

/-- Free records of a queue's completion ring (R132). -/
def Queue.freeRecords (q : Queue) : Nat := q.records - dist q.cpl q.cons

/-- The instance's queues may fetch and be granted: neither freezing nor ending (R236). -/
def IState.fetches (i : IState) : Bool := i == .active

/-- The FEP's threads run: not stopped by a machine check or watchdog, no reset in progress (R173, R183). -/
def State.fepRuns (s : State) : Bool :=
  !s.fep.stopped && !s.fep.halted && s.rst.phase == .none && s.clk.alive

/-- Thread `k` of the microcode engine has issued words for a command: the registers and the address it leaves are open, for the
manual gives no microcode (R162, R164; log entry 100). -/
def State.onThread (s : State) (k : Nat) (work : Option (Nat × Nat)) : State :=
  let t : Thread := { regs := (List.range 64).map (Config.threadReg s.now k), pc := (Config.threadReg s.now k 64).setWidth 12, work := work }
  { s with fep := { s.fep with threads := tabSet s.fep.threads k t } }

/-- The release time of a command whose last entry is `last`: the stamp of the doorbell that first made that entry
available (R120, R25). -/
def Queue.stampOf (q : Queue) (last : BitVec 32) (dflt : Nat) : Nat :=
  match q.stamps.find? (fun e => decide (dist last q.read < dist e.1 q.read)) with
  | some e => e.2
  | none => dflt

/-- READ advanced past `k` entries; stamps that lie behind it are dropped (R121). -/
def Queue.passEntries (q : Queue) (k : Nat) : Queue :=
  let r := q.read + BitVec.ofNat 32 k
  ({ q with read := r, stamps := q.stamps.filter (fun e =>
      decide (0 < dist e.1 r ∧ dist e.1 r ≤ q.entriesMax)) }).touch

-- Doorbells -----------------------------------------------------------------------------------------------------

/-- A doorbell half ignored: counted in DB_BAD and reported with DOORBELL_BAD (R120, R398). -/
def State.doorbellBad (s : State) (slot : Nat) (q : Queue) (high : Bool) (value recorded : BitVec 32) : State :=
  (s.updQueue slot (fun q => { q with dbBad := satInc q.dbBad })).eventLimited Ev.doorbellBad slot q.inst true false
    (leBytes 1 q.desc.qid ++ leBytes 1 (b2n high) ++ leBytes 4 value.toNat ++ leBytes 4 recorded.toNat)

/-- READ has reached the guilty command that stage 3 dropped (R121). -/
def Queue.atGuilty (q : Queue) : Bool :=
  q.guiltPass != 0 && (match q.guilty with | some (g, _) => g == q.read | none => false)

/-- READ passes the command it stands at, when that is a guilty one that stage 3 dropped, or a refused one whose one record
finds ring space (R121, R132). -/
def State.settleOne (s : State) (slot : Nat) : Option State :=
  match s.queue slot with
  | none => none
  | some q =>
    if q.atGuilty then some (s.updQueue slot (fun q => { q.passEntries q.guiltPass with guiltPass := 0 }))
    else
      match s.cmd slot q.read.toNat with
      | none => none
      | some c =>
        if !c.accepted && c.stage == .ended && c.resv == 0 && decide (q.freeRecords ≥ s.held slot + 1)
            && q.stopCause == 0 then
          some ((s.setCmd { c with resv := 1 }).updQueue slot (fun q => q.passEntries c.entries))
        else none

/-- READ passes such commands one after the other, at most `fuel` of them. -/
def State.settle (s : State) (slot : Nat) : Nat → State
  | 0 => s
  | fuel + 1 =>
    match s.settleOne slot with
    | none => s
    | some t => t.settle slot fuel

/-- READ moved as far as refused and dropped commands let it (R121, R132): after each change of READ, of the ring's space or
of the refused commands. -/
def State.settleRefused (s : State) (slot : Nat) : State := s.settle slot ((s.slotCmds slot).length + 1)

/-- One half of a doorbell judged by the FEP (R120): the low half records WRITE, the high half CONS. -/
def State.doorbellHalf (s : State) (slot : Nat) (high : Bool) (v : BitVec 32) : State :=
  match s.queue slot with
  | none => s
  | some q =>
    if high then
      if dist v q.cons ≤ dist q.cpl q.cons then
        (s.updQueue slot (fun q => { q with cons := v })).settleRefused slot
      else s.doorbellBad slot q true v q.cons
    else
      let d := dist v q.read
      let e := dist q.write q.read
      if d = e then s
      else if e < d ∧ d ≤ q.entriesMax then
        s.updQueue slot (fun q => { q with write := v, stamps := q.stamps ++ [(v, s.now)] })
      else s.doorbellBad slot q false v q.write

-- Semaphores ----------------------------------------------------------------------------------------------------

/-- Semaphore `i` of instance `n`. -/
def State.sem (s : State) (n i : Nat) : Sem := tabGetD (s.inst n).sems i ⟨0, none, none⟩

/-- Semaphore `i` of instance `n` changed. -/
def State.setSem (s : State) (n i : Nat) (x : Sem) : State :=
  s.updInst n (fun t => { t with sems := tabSet t.sems i x })

/-- What a wait for `w` meets: satisfied, ended by poisoning with its value, or waiting (R129, R388). -/
inductive WaitRes where
  | satisfied
  | poisoned (p : BitVec 64)
  | waits
  deriving DecidableEq, Repr

/-- A wait examined. -/
def waitRes (x : Sem) (w : Nat) : WaitRes :=
  if x.value.toNat ≥ w then .satisfied
  else match x.poison with
    | some p => if w ≤ p.toNat then .poisoned p else .waits
    | none => .waits

/-- A command's outcome decided: it waits for its record. -/
def finishCmd (c : Cmd) (st : Status) (result : BitVec 64) : Cmd :=
  { c with stage := .ended, status := st, result := result, waitSem := none, waitUntil := none, inScoreboard := false,
           pqEntry := none }

/-- A command starts to execute: its progress time runs from now until its records are written (R135). -/
def beginCmd (c : Cmd) (now : Nat) : Cmd := { c with progFrom := some (c.progFrom.getD now), begun := true }

/-- A launch's outcome decided: every replica launch has ended, so its pool slot is free (R91), and it waits for its
record. -/
def State.endCmd (s : State) (c : Cmd) (st : Status) (result : BitVec 64) : State :=
  let s1 := match c.pool with
    | some k => { s with fep := { s.fep with pool := s.fep.pool.filter (· != k) } }
    | none => s
  s1.setCmd { finishCmd c st result with pool := none }

/-- A semaphore poisoned with `v`, the largest of it and any earlier poison value (R388). -/
def poisonSem (x : Sem) (v : Nat) : Sem :=
  if v > x.value.toNat then
    { x with poison := some (BitVec.ofNat 64 (max v (x.poison.map (·.toNat) |>.getD 0))) }
  else x

/-- The waiting commands of instance `n` on semaphore `i` re-examined (R130): satisfied ones pass stage 6, those the
poisoning ends get DEP_ABORTED and poison the semaphore they would have raised. `fuel` bounds the chain. -/
def State.wake (s : State) (n i : Nat) : Nat → State
  | 0 => s
  | fuel + 1 =>
    let x := s.sem n i
    match (tabVals s.cmds).find? (fun c => c.inst == n && c.stage == .waiting && c.inScoreboard &&
        (match c.waitSem with | some (j, w) => j == i && waitRes x w != .waits | none => false)) with
    | none => s
    | some c =>
      match c.waitSem with
      | none => s
      | some (_, w) =>
        match waitRes x w with
        | .satisfied =>
          let c1 := if c.opcode = opWait then finishCmd (beginCmd c s.now) St.ok 0
            else { c with stage := .passed, waitSem := none, inScoreboard := false }
          (s.setCmd c1).wake n i fuel
        | .poisoned p =>
          let s1 := s.endCmd c St.depAborted p
          match c.sigSem with
          | some (j, v) => ((s1.setSem n j (poisonSem (s1.sem n j) v)).wake n j fuel).wake n i fuel
          | none => s1.wake n i fuel
        | .waits => s

/-- Steps enough for every waiting command. -/
def State.wakeFuel (s : State) : Nat := s.cmds.length + 1

/-- A semaphore's value written, its poisoning cleared when the value reaches the poison value, its waits
re-examined (R129, R388). -/
def State.writeSem (s : State) (n i : Nat) (v : BitVec 64) : State :=
  let x := s.sem n i
  let p := match x.poison with
    | some p => if v.toNat ≥ p.toNat then none else some p
    | none => none
  (s.setSem n i { x with value := v, poison := p }).wake n i s.wakeFuel

/-- The mirror of a semaphore written after a change of value; an error changes nothing else, a translation fault is
reported with INITIATOR 0 (R129). -/
def State.writeMirror (s : State) (n i slot seq : Nat) : State :=
  match (s.sem n i).mirror with
  | none => s
  | some dva =>
    match s.writeDva n dva (leBytes 8 (s.sem n i).value.toNat) with
    | (t, none) => t
    | (t, some f) => t.mmuFault n f true 0 0 slot seq

/-- A signal of value `v`: the value is raised when `v` exceeds it, and the mirror written (R129). -/
def State.signalSem (s : State) (n i v slot seq : Nat) : State :=
  if v > (s.sem n i).value.toNat then (s.writeSem n i (BitVec.ofNat 64 v)).writeMirror n i slot seq else s

-- Graph versions --------------------------------------------------------------------------------------------------

/-- Graph `g` of instance `n`. -/
def State.graph (s : State) (n g : Nat) : Option Graph := tabGet (s.inst n).graphs g

/-- Graph `g` of instance `n` stored. -/
def State.setGraph (s : State) (n g : Nat) (x : Graph) : State :=
  s.updInst n (fun i => { i with graphs := tabSet i.graphs g x })

/-- A version of a graph is pinned by a launch: accepted and not ended, or between stage 4 and its acceptance point
(R147, R148). So a launch that has passed stage 4 when GRAPH_RELEASE replies keeps its version and is accepted on it, while one
that has only passed stage 3 ends with BAD_GRAPH at stage 4; R145 speaks of neither (DESIGN CHOICE, log entry 77). -/
def State.pinned (s : State) (n g v : Nat) : Bool :=
  (tabVals s.cmds).any (fun c => c.inst == n && c.graph == g && c.opcode == opLaunch && c.version == v
    && (c.accepted || c.stage == .relocated))

/-- Pages held by a list of versions. -/
def versionPages (vs : List GVersion) : List Nat := vs.flatMap (·.pages)

/-- Versions that are neither current nor pinned are released with the store pages no live version shares; a graph
without a version is gone (R145, R147). -/
def State.releaseVersions (s : State) (n g : Nat) : State :=
  match s.graph n g with
  | none => s
  | some x =>
    let live := x.versions.filter (fun v => x.current == some v.num || s.pinned n g v.num)
    let dead := (versionPages x.versions).filter (fun p => !(versionPages live).contains p)
    if live.isEmpty && x.builder.isNone then
      let s1 := s.updInst n (fun i => { i with graphs := tabErase i.graphs g })
      { s1 with pages := s1.pages.filter (fun e => !(dead.contains e.1) && !(x.fixedPages.contains e.1)) }
    else
      let s1 := s.setGraph n g { x with versions := live }
      { s1 with pages := s1.pages.filter (fun e => !(dead.contains e.1)) }

/-- The bytes of a version's patchable region. -/
def State.patchBytes (s : State) (v : GVersion) : List Byte :=
  v.pages.flatMap (fun p => tabGetD s.pages p (List.replicate 256 0))

/-- A version of a graph by number. -/
def graphVersion? (x : Graph) (v : Nat) : Option GVersion := x.versions.find? (fun e => e.num == v)

/-- The variant of a role in a shape (R141). -/
def variantOf? (f : GraphFixed) (role shape : Nat) : Option Variant :=
  f.variants.find? (fun v => v.role == role && v.shape == shape)

/-- The stream descriptor a variant names in a version (R58). -/
def State.streamOf (s : State) (v : GVersion) (var : Variant) : Option Stream :=
  match var.skimOff with
  | none => none
  | some o => parseStream (((s.patchBytes v).drop o).take 32)

/-- Store pages in use by an instance, which its quota counts (R146). -/
def State.storeCharge (s : State) (n : Nat) : Nat :=
  ((tabVals (s.inst n).graphs).map (fun x => x.fixedPages.length + (versionPages x.versions).eraseDups.length)).sum
    + ((tabVals s.cmds).filter (fun c => c.inst == n)).foldl (fun a c => a +
      (match c.built with
       | some ps => (ps.filter (fun p => !((tabVals (s.inst n).graphs).any (fun x => (versionPages x.versions).contains p)))).length
       | none => 0)) 0

/-- Pages of the graph store (R146). -/
def State.storePages (s : State) : Nat := s.mem.storeMiB * 4096

-- Contracts ----------------------------------------------------------------------------------------------------

/-- An accepted launch still names the contract, so its reservations stay (R199). -/
def State.contractBusy (s : State) (id : Nat) : Bool :=
  (tabVals s.cmds).any (fun c => c.contract == id && c.accepted)

/-- Contracts that hold reservations (R187, R199): those in the table. -/
def State.heldContracts (s : State) : Nat := s.contracts.length

/-- A released contract whose last launch has ended gives its reservations back (R199). -/
def State.sweepContract (s : State) (id : Nat) : State :=
  match tabGet s.contracts id with
  | some k => if k.state == .released && !s.contractBusy id then { s with contracts := tabErase s.contracts id } else s
  | none => s

/-- A contract released: its entry stays while an accepted launch names it (R199). -/
def State.releaseContract (s : State) (id : Nat) : State :=
  (s.updContract id (fun k => { k with state := .released })).sweepContract id

-- Ending commands ------------------------------------------------------------------------------------------------

/-- What the end of a command gives back: its pool slot, its version pin, a finished contract (R91, R147, R199). -/
def State.giveBack (s : State) (c : Cmd) : State :=
  let s1 := match c.pool with
    | some k => { s with fep := { s.fep with pool := s.fep.pool.filter (· != k) } }
    | none => s
  let s2 := s1.dropCmd c.slot c.seq
  let s3 := if c.opcode = opLaunch && c.graph ≠ 0 then s2.releaseVersions c.inst c.graph else s2
  if c.contract = 0 then s3 else s3.sweepContract c.contract

/-- The pages a PATCH has built but not made current are freed, and its build passes on (R150, R151). -/
def State.dropBuild (s : State) (c : Cmd) : State :=
  match s.graph c.inst c.graph with
  | none => s
  | some x =>
    let ws := x.waiters.filter (fun w => w != (c.slot, c.seq))
    let mine := decide (x.builder = some (c.slot, c.seq))
    let s1 := s.setGraph c.inst c.graph { x with waiters := ws, builder := if mine then none else x.builder }
    let s2 := match c.built with
      | some ps => { s1 with pages := s1.pages.filter (fun e =>
          !(ps.contains e.1) || (versionPages x.versions).contains e.1) }
      | none => s1
    s2.releaseVersions c.inst c.graph

/-- A partition's hold on a launch ended: it is free again and its idle time starts (R16, R345). -/
def freePart (now : Nat) (p : Part) : Part :=
  { p with run := none, acked := false, fuseWait := false, grant := none, tileRunning := false,
           honour := false, preempt := none, idleSince := now, landed := 0, ringAsked := 0, ringIn := [], owed := 0, next := none,
           state := if p.state == .busy || p.state == .fusing then .idle else p.state }

/-- Every partition that runs replica `idx` of a command is freed. -/
def State.freeReplica (s : State) (slot seq idx : Nat) : State :=
  s.mapParts (fun _ p => if p.run = some (slot, seq, idx) then freePart s.now p else p)

/-- Every partition that runs or holds saved any replica of a command is freed. -/
def State.freeCmdParts (s : State) (slot seq : Nat) : State :=
  s.mapParts (fun _ p =>
    let p1 := match p.run with
      | some (a, b, _) => if a = slot ∧ b = seq then freePart s.now p else p
      | none => p
    match p1.resume with
    | some r => if r.slot = slot ∧ r.seq = seq then { p1 with resume := none } else p1
    | none => p1)

/-- Skim slots of a command released (R66). -/
def State.freeSkims (s : State) (slot seq : Nat) : State :=
  { s with skims := tabMap s.skims (fun _ g =>
      if g.active && g.slot == slot && g.seq == seq then
        { ({} : Skim) with detCount := g.detCount } else g) }

-- Guilt (R134, R390) -------------------------------------------------------------------------------------------

/-- The commands of a slot that a guilt at `seq` ends: accepted ones from it on wait for the round, unaccepted ones are
dropped (R134 step 2). -/
def State.cutFrom (s : State) (slot : Nat) (seq : BitVec 32) (st : Status) : State :=
  (s.slotCmds slot).foldl (fun t c =>
    if decide (dist (BitVec.ofNat 32 c.seq) seq ≤ 2 ^ 31) then
      if c.accepted then t.updCmd c.slot c.seq (fun x =>
        { x with cancelled := true, status := if c.seq = seq.toNat then st else x.status })
      else (t.dropCmd c.slot c.seq).dropBuild c
    else t) s

/-- A queue becomes guilty at `seq` with `st` (R134 steps 1 and 2): it fetches no more, later commands are dropped or wait for
the round that ends them, and the earlier ones go on. An abort already latched wins (R391). `entries` is what the guilty
command occupies, `pass` those of them that READ is to pass because stage 3 dropped it (R121), `head` its opcode and tag where
it was fetched. -/
def State.makeGuilty (s : State) (slot : Nat) (seq : BitVec 32) (entries pass : Nat) (st : Status)
    (head : Option (Byte × BitVec 32)) : State :=
  match s.queue slot with
  | none => s
  | some q =>
    if q.abortLatched || q.resetDone || q.guiltSaid then s
    else if (match q.guilty with | some (g, _) => decide (dist g q.read ≤ dist seq q.read) && decide (dist seq g < 2 ^ 31) | none => false) then s
    else
      ((s.cutFrom slot seq st).updQueue slot (fun q => { q with
        guilty := some (seq, st), guiltyHead := head, guiltRound := 1, guiltEntries := entries, guiltPass := pass, reads := 0,
        need := none })).settleRefused slot

/-- A command made the guilty point (R134). -/
def State.cmdGuilty (s : State) (c : Cmd) (st : Status) : State :=
  s.makeGuilty c.slot (BitVec.ofNat 32 c.seq) c.entries 0 st (some (BitVec.ofNat 8 c.opcode, c.tag))

/-- Step 5 of R134: a guilty queue enters STOPPED and QUEUE_GUILTY is sent, once. The entries discarded are counted here, up to
the WRITE recorded by now, and the RESET record and the event carry that count; R134 does not say at which moment WRITE, which
doorbells may still move, is looked at (DESIGN CHOICE, log entry 78). -/
def State.stopGuilty (s : State) (slot : Nat) : State :=
  match s.queue slot with
  | none => s
  | some q =>
    match q.guilty with
    | none => s
    | some (seq, st) =>
      if q.guiltSaid then s
      else
        let discard := dist q.write (seq + BitVec.ofNat 32 q.guiltEntries)
        (s.updQueue slot (fun q => Queue.touch { q with
          stopCause := if q.stopCause = 0 then 1 else q.stopCause, guiltSaid := true, guiltDiscard := discard })).event
          Ev.queueGuilty q.inst true true
          (leBytes 1 q.desc.qid ++ leBytes 2 slot ++ leBytes 2 st.toNat ++ leBytes 4 seq.toNat ++ leBytes 4 discard)

/-- A completion-ring or write-back write ended with an error: the queue stops with cause 3, whatever stopped it before
(R136). -/
def State.breakQueue (s : State) (slot : Nat) (st : Status) : State :=
  match s.queue slot with
  | none => s
  | some q =>
    if q.stopCause = 3 then s
    else (s.updQueue slot (fun q => Queue.touch { q with stopCause := 3 })).event Ev.queueBroken q.inst true true
      (leBytes 1 q.desc.qid ++ leBytes 2 slot ++ leBytes 2 st.toNat)

/-- A status that ends a launch or one replica of it: a guilty status makes the command the guilty point, any other
becomes the replica's status at its end (R380, R134). -/
def State.replicaError (s : State) (slot seq idx : Nat) (st : Status) : State :=
  match s.cmd slot seq with
  | none => s
  | some c =>
    if c.cancelled then s
    else if St.isGuilty st then s.cmdGuilty c st
    else s.updCmd slot seq (fun c => { c with replicas := c.replicas.map (fun r =>
      if r.idx = idx ∧ r.status = St.ok then { r with status := st } else r) })

-- Aborts (R383) -------------------------------------------------------------------------------------------------

/-- An abort latched for one queue: fetching stops, commands before their acceptance point are dropped (R383). -/
def State.latchQueue (s : State) (slot : Nat) : State :=
  let s1 := (s.slotCmds slot).foldl (fun t c =>
    if c.accepted then t else (t.dropCmd c.slot c.seq).dropBuild c) s
  s1.updQueue slot (fun q => { q with abortLatched := true, reads := 0, need := none })

end Sys2Proof.Machine
end

