-- ==== Sys2Proof/Machine/Num.lean ====
section
/-! DEFINITION. The arithmetic of a partition (02 R27 to R30, R36): floating-point values held exactly, rounding to a format,
the accumulation of an array column, conversions, and the lanes of the vector and table units. -/

namespace Sys2Proof.Machine
open Sys2Proof

-- Floating point ----------------------------------------------------------------------------------------------------------

/-- A floating-point value: exact when it is finite, `m` times 2 to the power `e`. -/
inductive Fl where
  | nan
  | inf (neg : Bool)
  | fin (neg : Bool) (m : Nat) (e : Int)
  deriving DecidableEq, Repr

/-- A binary format: exponent and fraction bits; `noInf` marks E4M3, whose top exponent holds numbers and one NaN (the OCP 8-bit
specification, R27; log entry 89). -/
structure FlFmt where
  eb : Nat
  mb : Nat
  noInf : Bool
  deriving DecidableEq, Repr

def fp32 : FlFmt := ⟨8, 23, false⟩
def bf16 : FlFmt := ⟨8, 7, false⟩
def fp16 : FlFmt := ⟨5, 10, false⟩
def e4m3 : FlFmt := ⟨4, 3, true⟩
def e5m2 : FlFmt := ⟨5, 2, false⟩

/-- Exponent of the smallest subnormal. -/
def FlFmt.low (f : FlFmt) : Int := 2 - 2 ^ (f.eb - 1) - f.mb

/-- The codes, sign apart, of infinity (where there is one), of the NaN that operations give, and of the largest number. -/
def FlFmt.infCode (f : FlFmt) : Nat := (2 ^ f.eb - 1) * 2 ^ f.mb
def FlFmt.nanCode (f : FlFmt) : Nat := if f.noInf then 2 ^ (f.eb + f.mb) - 1 else f.infCode + 2 ^ (f.mb - 1)
def FlFmt.maxCode (f : FlFmt) : Nat := if f.noInf then f.nanCode - 1 else f.infCode - 1

/-- The value of a code; subnormals are honoured (R27). -/
def FlFmt.decode (f : FlFmt) (x : Nat) : Fl :=
  let m := x % 2 ^ f.mb
  let e := x / 2 ^ f.mb % 2 ^ f.eb
  let neg := bit x (f.eb + f.mb)
  if f.noInf ∧ x % 2 ^ (f.eb + f.mb) = f.nanCode then .nan
  else if ¬f.noInf ∧ e = 2 ^ f.eb - 1 then (if m = 0 then .inf neg else .nan)
  else if e = 0 then .fin neg m f.low
  else .fin neg (2 ^ f.mb + m) (f.low + (e - 1 : Nat))

/-- A quotient by a power of two rounded to nearest, ties to even. -/
def roundShift (m k : Nat) : Nat :=
  let q := m / 2 ^ k
  let r := m % 2 ^ k
  if 2 ^ k < 2 * r ∨ (2 * r = 2 ^ k ∧ q % 2 = 1) then q + 1 else q

/-- The code, sign apart, of a magnitude rounded to nearest even, as if the exponent had no upper bound. -/
def FlFmt.roundMag (f : FlFmt) (m : Nat) (e : Int) : Nat :=
  if m = 0 then 0
  else
    let top : Int := e + (Nat.log2 m : Int) - (f.mb : Int)
    let q := max top f.low
    (q - f.low).toNat * 2 ^ f.mb + (if q ≤ e then m * 2 ^ (e - q).toNat else roundShift m (q - e).toNat)

/-- The code of a value in a format, rounded to nearest even. What overflows becomes infinity, or NaN where the format has none;
in a saturating conversion it becomes the largest number, as an infinity does (R28, R30). -/
def FlFmt.encode (f : FlFmt) (sat : Bool) : Fl → Nat
  | .nan => f.nanCode
  | .inf neg => b2n neg * 2 ^ (f.eb + f.mb) + (if sat then f.maxCode else if f.noInf then f.nanCode else f.infCode)
  | .fin neg m e =>
    let c := f.roundMag m e
    b2n neg * 2 ^ (f.eb + f.mb)
      + (if c ≤ f.maxCode then c else if sat then f.maxCode else if f.noInf then f.nanCode else f.infCode)

/-- The exact product; infinity times zero is invalid (R28). -/
def Fl.mul : Fl → Fl → Fl
  | .fin n a d, .fin k b e => .fin (n != k) (a * b) (d + e)
  | .inf n, .inf k => .inf (n != k)
  | .inf n, .fin k m _ => if m = 0 then .nan else .inf (n != k)
  | .fin n m _, .inf k => if m = 0 then .nan else .inf (n != k)
  | _, _ => .nan

/-- A signed magnitude at exponent `e` or above, as a multiple of 2 to the power `e`. -/
def Fl.scaled (neg : Bool) (m : Nat) (d e : Int) : Int := (if neg then -1 else 1) * ((m * 2 ^ (d - e).toNat : Nat) : Int)

/-- The exact sum; an exact zero is positive unless both operands are negative zeros, and infinity minus infinity is invalid
(R28, IEEE 754). -/
def Fl.add : Fl → Fl → Fl
  | .fin n a d, .fin k b e =>
    let l := min d e
    let v := Fl.scaled n a d l + Fl.scaled k b e l
    .fin (if v = 0 then n && k else decide (v < 0)) v.natAbs l
  | .inf n, .inf k => if n = k then .inf n else .nan
  | .inf n, .fin _ _ _ => .inf n
  | .fin _ _ _, .inf k => .inf k
  | _, _ => .nan

/-- `a` is below `b`; false where one is a NaN. -/
def Fl.below : Fl → Fl → Bool
  | .fin n a d, .fin k b e => decide (Fl.scaled n a d (min d e) < Fl.scaled k b e (min d e))
  | .inf n, .inf k => n && !k
  | .inf n, .fin _ _ _ => n
  | .fin _ _ _, .inf k => !k
  | _, _ => false

/-- A finite sign, magnitude and exponent are zero, or the value is none of those. -/
def Fl.isNan (a : Fl) : Bool := a == .nan

-- A cell and a column of the array (R27, R28) --------------------------------------------------------------------------------

/-- Rows and columns of one partition's array as a pass sees them (R27). -/
def Pairing.rows : Pairing → Nat
  | .bf16 | .fp16 => 64
  | _ => 128
def Pairing.cols : Pairing → Nat
  | .bf16 | .fp16 => 64
  | .int4 _ => 128 * 2
  | _ => 128

/-- Whether the accumulator is FP32 (R27). -/
def Pairing.float : Pairing → Bool
  | .int8 _ _ | .int4 _ => false
  | _ => true

/-- Element `k` of a 128-byte activation word, and element `j` of a 128-byte weight row: two INT4 weights of adjacent columns
share a byte, the even column in its low half (R27, R32; log entry 90). -/
def Pairing.actAt (f : Pairing) (w : List Byte) (k : Nat) : Nat :=
  match f with
  | .bf16 | .fp16 => field w (2 * k) 2
  | _ => field w k 1
def Pairing.weightAt (f : Pairing) (row : List Byte) (j : Nat) : Nat :=
  match f with
  | .bf16 | .fp16 => field row (2 * j) 2
  | .int4 _ => bits (field row (j / 2) 1) (4 * (j % 2) + 3) (4 * (j % 2))
  | _ => field row j 1

/-- An integer of `w` bits, signed or unsigned. -/
def intOf (w : Nat) (signed : Bool) (x : Nat) : Int := if signed && bit x (w - 1) then (x : Int) - 2 ^ w else x

/-- A value held to a range. -/
def clamp (lo hi v : Int) : Int := if v < lo then lo else if hi < v then hi else v

/-- INT32 accumulation: the sum saturates, with the sticky flag (R28). -/
def accInt (acc : BitVec 32 × Bool) (p : Int) : BitVec 32 × Bool :=
  let v := acc.1.toInt + p
  let c := clamp (-2147483648) 2147483647 v
  (BitVec.ofInt 32 c, acc.2 || decide (c ≠ v))

/-- FP32 accumulation: the exact product added to the partial sum, rounded to nearest even after the addition (R28). -/
def accFl (acc : BitVec 32) (a w : Fl) : BitVec 32 :=
  BitVec.ofNat 32 (match (Fl.mul a w).add (fp32.decode acc.toNat) with
    | .nan => fp32.nanCode
    | v => fp32.encode false v)

/-- One cell: the partial sum that leaves it, and the saturation flag. -/
def Pairing.cell (f : Pairing) (acc : BitVec 32 × Bool) (a w : Nat) : BitVec 32 × Bool :=
  let fl (x y : FlFmt) : BitVec 32 × Bool := (accFl acc.1 (x.decode a) (y.decode w), acc.2)
  match f with
  | .int8 sa sw => accInt acc (intOf 8 sa a * intOf 8 sw w)
  | .int4 sa => accInt acc (intOf 8 sa a * intOf 4 true w)
  | .fp8 ea ew => fl (if ea then e5m2 else e4m3) (if ew then e5m2 else e4m3)
  | .bf16 => fl Machine.bf16 Machine.bf16
  | .fp16 => fl Machine.fp16 Machine.fp16

/-- A column: its products summed in ascending order of K from the incoming partial sum of its first row (R28). -/
def Pairing.column (f : Pairing) (init : BitVec 32 × Bool) (as ws : List Nat) : BitVec 32 × Bool :=
  (as.zip ws).foldl (fun c e => Pairing.cell f c e.1 e.2) init

/-- Cycles of `n` consecutive passes of `m` vectors on a group of `k` members (R31). -/
def passCycles (f : Pairing) (k n m : Nat) : Nat :=
  let r := Pairing.rows f * (if k = 4 then 2 else 1)
  let c := Pairing.cols f * (if k = 1 then 1 else 2)
  n * max m r + r + c - 1 + (if k = 1 then 0 else if k = 2 then 4 else 8)

-- The vector unit and the table unit (R30, R36) ------------------------------------------------------------------------------------

/-- An FP32 or BF16 lane, and its value. -/
def laneFmt (half : Bool) : FlFmt := if half then Machine.bf16 else fp32
def laneVal (half : Bool) (x : BitVec 32) : Fl := (laneFmt half).decode x.toNat
def laneCode (half : Bool) (v : Fl) : BitVec 32 := BitVec.ofNat 32 ((laneFmt half).encode false v)

/-- One lane of an operation, rounded to nearest even in the lane's format (R36; log entry 91). -/
def VecOp.lane (op : VecOp) (half : Bool) (x y z : BitVec 32) : BitVec 32 :=
  let a := laneVal half x
  let b := laneVal half y
  match op with
  | .fma => laneCode half ((Fl.mul a b).add (laneVal half z))
  | .add => laneCode half (a.add b)
  | .mul => laneCode half (Fl.mul a b)
  | .min => if a.isNan || b.isNan then Config.laneOpen x y else if b.below a then y else x
  | .max => if a.isNan || b.isNan then Config.laneOpen x y else if a.below b then y else x
  | .lt => Config.laneFlag (a.below b)
  | .le => Config.laneFlag (!a.isNan && !b.isNan && !b.below a)
  | .eq => Config.laneFlag (!a.isNan && !b.isNan && !a.below b && !b.below a)
  | .select => if z = Config.laneFlag true then x else y

/-- The number of a table function. -/
def TblFn.code : TblFn → Nat
  | .exp2 => 0 | .log2 => 1 | .recip => 2 | .rsqrt => 3 | .sigmoid => 4 | .tanh => 5 | .gelu => 6

/-- A table evaluation: deterministic on the device, within the bounds of R36 (log entry 92). -/
def TblFn.lane (fn : TblFn) (x : BitVec 32) : BitVec 32 := Config.table (TblFn.code fn) x

/-- The format and the bytes of a conversion's results, and whether it saturates (R30). -/
def Narrow.fmt : Narrow → FlFmt
  | .bf16 => Machine.bf16
  | .fp16 => Machine.fp16
  | .e4m3 _ => Machine.e4m3
  | .e5m2 _ => Machine.e5m2
def Narrow.sat : Narrow → Bool
  | .e4m3 s | .e5m2 s => s
  | _ => false
def Narrow.bytes : Narrow → Nat
  | .bf16 | .fp16 => 2
  | _ => 1

/-- One result converted from FP32 (R30). -/
def Narrow.lane (n : Narrow) (x : BitVec 32) : Nat := (Narrow.fmt n).encode (Narrow.sat n) (fp32.decode x.toNat)

/-- One INT32 result requantised by a scale: their product rounded to nearest even and saturated to `w` bits (R30). -/
def requantLane (w : Nat) (signed : Bool) (x scale : BitVec 32) : Int :=
  let lo : Int := if signed then -(2 ^ (w - 1)) else 0
  let hi : Int := if signed then 2 ^ (w - 1) - 1 else 2 ^ w - 1
  match fp32.decode scale.toNat with
  | .fin neg m e =>
    let p := x.toInt.natAbs * m
    let q := if 0 ≤ e then p * 2 ^ e.toNat else roundShift p (-e).toNat
    clamp lo hi (if (decide (x.toInt < 0)) != neg then -(q : Int) else q)
  | _ => clamp lo hi (Config.laneOpen x scale).toInt

end Sys2Proof.Machine
end

