-- ==== Sys2Proof/Machine/Sram.lean ====
section
/-! DEFINITION. The SRAMs of a partition (02 R26, R32 to R34), its landing ring (03 R59), the sequencer store and its parity
(02 R46, R47), and the words of the FEP's control store (08 R163, R175). -/

namespace Sys2Proof.Machine
open Sys2Proof

-- Partition SRAMs ---------------------------------------------------------------------------------------------------------

/-- Bytes of an SRAM (R26). -/
def sramSize : Sram → Nat
  | .weight => 4194304
  | .act => 2097152
  | .scratch => 262144

/-- The contents of an SRAM; a byte that is not listed is 0, as ungating and an L5 reset leave it (R34). -/
def Part.sram (x : Part) : Sram → List Host.Cell
  | .weight => x.weight
  | .act => x.act
  | .scratch => x.scratch

/-- An SRAM's contents replaced. -/
def Part.setSram (x : Part) (k : Sram) (m : List Host.Cell) : Part :=
  match k with
  | .weight => { x with weight := m }
  | .act => { x with act := m }
  | .scratch => { x with scratch := m }

/-- `n` bytes of an SRAM; what an access past its end reads is open (log entry 88). -/
def Part.readSram (x : Part) (k : Sram) (off n : Nat) : List Byte :=
  if off + n ≤ sramSize k then cellReadN 0 (x.sram k) off n else (List.range n).map (fun i => Config.pastEnd (off + i))

/-- Bytes written to an SRAM; an access past its end finds no word and writes nothing (log entry 88). -/
def Part.writeSram (x : Part) (k : Sram) (off : Nat) (bs : List Byte) : Part :=
  if off + bs.length ≤ sramSize k then x.setSram k (cellWriteN 0 (x.sram k) off bs) else x

/-- All three SRAMs zero under good ECC (R34). -/
def Part.zeroFilled (x : Part) : Part := { x with weight := [], act := [], scratch := [] }

/-- Weight SRAM has taken a load for a launch: the tag of another launch is cleared (07 R153). -/
def Part.loadedBy (x : Part) (inst graph version : Nat) : Part :=
  match x.residency with
  | some t => if t.inst = inst ∧ t.graph = graph ∧ t.version = version then x else { x with residency := none }
  | none => x

/-- The landing ring: the top 64 KiB of weight SRAM, 16 slots of 4 KiB (03 R59). -/
def ringBase : Nat := 0x3F0000

/-- Offset of the ring's slot for the `k`-th block that a member receives; blocks are counted over all passes (log entry 97). -/
def ringSlot (k : Nat) : Nat := ringBase + 4096 * (k % 16)

/-- Where a pre-empted partition's live set is kept in the device region (04 R78, 09 R204). -/
def saveArea (p : Nat) : Nat := 0x400000 + 0x40000 * p

-- The sequencer store (02 R46, R47) -------------------------------------------------------------------------------------------

/-- The fields of a sequencer microword (R46). -/
structure Microword where
  next : Nat
  cond : Nat
  brk : Nat
  loop : Nat
  array : Nat
  wag : Nat
  aag : Nat
  oag : Nat
  fmt : Nat
  vec : Nat
  vsrc : Nat
  tbl : Nat
  dma : Nat
  tok : Nat
  sync : Nat
  cur : Nat
  bnd : Nat
  evt : Nat
  deriving DecidableEq, Repr

/-- A microword's fields at their bits (R46). -/
def microword (w : BitVec 104) : Microword :=
  let f (hi lo : Nat) : Nat := bits w.toNat hi lo
  { next := f 9 0, cond := f 13 10, brk := f 15 14, loop := f 19 16, array := f 27 20, wag := f 33 28, aag := f 39 34,
    oag := f 45 40, fmt := f 49 46, vec := f 65 50, vsrc := f 73 66, tbl := f 77 74, dma := f 85 78, tok := f 91 86,
    sync := f 95 92, cur := f 99 96, bnd := f 101 100, evt := f 103 102 }

/-- Ones among the low `n` bits of a value. -/
def onesOf (v : Nat) : Nat → Nat
  | 0 => 0
  | n + 1 => v % 2 + onesOf (v / 2) n

/-- The odd-parity bit of a byte (R46). -/
def oddParity (b : Nat) : Bool := onesOf b 8 % 2 == 0

/-- A word as it is stored: 104 bits, then a parity bit for each byte (R46). -/
def storedWord (w : BitVec 104) : BitVec 117 :=
  BitVec.ofNat 117 (w.toNat + (((List.range 13).map (fun k => b2n (oddParity (bits w.toNat (8 * k + 7) (8 * k))) * 2 ^ k)).sum) * 2 ^ 104)

/-- The bytes of a stored word whose parity fails, as a mask (R46, R48 MC_ADDR). -/
def parityFails (w : BitVec 117) : Nat :=
  ((List.range 13).map (fun k => b2n (oddParity (bits w.toNat (8 * k + 7) (8 * k)) != bit w.toNat (104 + k)) * 2 ^ k)).sum

/-- The word of the image at an address: the patch's where it has one, otherwise the base image's (R47, 19 R410). -/
def State.seqImage (s : State) (a : Nat) : BitVec 104 := (tabGet s.cal.seqWords a).getD (Config.seqRom a)

/-- The word of a partition's store at an address, as stored. -/
def State.seqStored (s : State) (p a : Nat) : BitVec 117 := (tabGet (s.part p).seq a).getD (storedWord (s.seqImage a))

/-- The store address and the failing bytes of MC_ADDR with CAUSE 1 (R48). -/
def parityLocation (a mask : Nat) : BitVec 27 := BitVec.ofNat 27 (a % 1024 + mask % 8192 * 1024)

/-- A stored word with a bit of each named byte upset, where the byte does not fail already. -/
def upsetWord (w : BitVec 117) (mask : Nat) : BitVec 117 :=
  w ^^^ BitVec.ofNat 117 ((List.range 13).map (fun k => b2n (bit mask k && !bit (parityFails w) k) * 2 ^ (8 * k))).sum

/-- The store of a partition after a parity error at a location. -/
def State.seqUpset (s : State) (p : Nat) (loc : BitVec 27) : Tab (BitVec 117) :=
  tabSet (s.part p).seq (bits loc.toNat 9 0) (upsetWord (s.seqStored p (bits loc.toNat 9 0)) (bits loc.toNat 22 10))

-- The FEP's control store (08 R163, R173 to R175) --------------------------------------------------------------------------------

/-- The fields of a FEP microword (08 R163). -/
structure FepWord where
  next : Nat
  cond : Nat
  brk : Nat
  dsel : Nat
  thr : Nat
  alu : Nat
  srcA : Nat
  srcB : Nat
  dst : Nat
  imm : Nat
  qcx : Nat
  hru : Nat
  sbd : Nat
  prq : Nat
  net : Nat
  vc : Nat
  gnt : Nat
  cpw : Nat
  tmr : Nat
  lat : Nat
  evq : Nat
  pmx : Nat
  cpy : Nat
  deriving DecidableEq, Repr

/-- A FEP microword's fields at their bits (08 R163). -/
def fepMicroword (w : BitVec 128) : FepWord :=
  let f (hi lo : Nat) : Nat := bits w.toNat hi lo
  { next := f 11 0, cond := f 16 12, brk := f 18 17, dsel := f 21 19, thr := f 23 22, alu := f 31 24, srcA := f 37 32,
    srcB := f 43 38, dst := f 49 44, imm := f 65 50, qcx := f 71 66, hru := f 76 72, sbd := f 81 77, prq := f 86 82,
    net := f 92 87, vc := f 94 93, gnt := f 99 95, cpw := f 104 100, tmr := f 108 105, lat := f 112 109, evq := f 116 113,
    pmx := f 121 117, cpy := f 124 122 }

/-- The word that the loader puts at an address: the patch record's where there is one, otherwise the base ROM's (08 R175). -/
def Fep.word (f : Fep) (a : Nat) : BitVec 128 := (tabGet f.words a).getD (Config.fepRom a)

/-- Stored bits in error at an address, among the 128 of the word and the 9 check bits (08 R163). -/
def Fep.errors (f : Fep) (a : Nat) : Nat := onesOf ((tabGet f.upsets a).getD 0).toNat 137

/-- Bits of a stored word upset. -/
def Fep.upset (f : Fep) (a : Nat) (flips : BitVec 137) : Fep :=
  { f with upsets := let u := (tabGet f.upsets a).getD 0 ^^^ flips
                     if u = 0 then tabErase f.upsets a else tabSet f.upsets a u }

/-- A word written again as the loader made it. -/
def Fep.rewrite (f : Fep) (a : Nat) : Fep := { f with upsets := tabErase f.upsets a }

end Sys2Proof.Machine
end

