-- ==== Sys2Proof/Machine/Cba.lean ====
section
/-! DEFINITION. The current budget arbiter (16 R339, R340, R356 to R361): budgets, clock steps, V-f tables, the choice
of clocks, and the power events of R363. -/

namespace Sys2Proof.Machine
open Sys2Proof

-- Settings of the dictionary that the hardware uses (14) ----------------------------------------------------------

/-- Key of a dictionary entry in the table of written settings. -/
def dictKey (index sub : Nat) : Nat := index * 256 + sub

/-- Default of a setting (14 R297 to R306). -/
def dictDefault (index sub : Nat) : Nat :=
  if index = 0x2000 then (match sub with | 2 => 6400 | 3 => 1 | 4 => 8 | 6 => 256 | _ => 0)
  else if index = 0x2100 then (if sub = 1 then 1000 else 0)
  else if index / 16 = 0x300 then (if sub = 1 then 1 else 0)
  else if 0x4000 ≤ index ∧ index ≤ 0x4020 then
    (match sub with | 1 => 8 | 2 => 256 | 3 => 16 | 4 => 16384 | 6 => 1500 | _ => 0)
  else if index = 0x5001 then (match sub with | 1 => 15000 | 2 => 1200 | 4 => 1500 | _ => 0)
  else if index = 0x5002 then (if sub = 1 then 950 else 0)
  else 0

/-- A setting's value. -/
def State.setting (s : State) (index sub : Nat) : Nat := tabGetD s.dict.vals (dictKey index sub) (dictDefault index sub)

/-- A setting written. -/
def State.setSetting (s : State) (index sub v : Nat) : State :=
  { s with dict := { s.dict with vals := tabSet s.dict.vals (dictKey index sub) v } }

/-- PLATFORM_RESERVE_MW (R306). -/
def State.reserveMw (s : State) : Nat := s.setting 0x5001 0x02

/-- BUDGET_IN_FORCE_MW: the lowest of BUDGET_MW, the emergency cap while PWR_CAP_N is low, and the thermal limit
(R306, R354). -/
def State.budgetInForce (s : State) : Nat :=
  let b := min (s.setting 0x5001 0x01) s.pwr.thermalMw
  if s.pins.pwrCapN then b else min b (s.setting 0x5001 0x04)

-- Clock steps and voltages ----------------------------------------------------------------------------------------

/-- The clock of a step in MHz (R339). -/
def stepMhz (k : Nat) : Nat := 300 + 25 * k

/-- A floor or target rounded up to a step (R339). -/
def stepUp (mhz : Nat) : Nat := min 52 ((mhz - 300 + 24) / 25)

/-- The highest step at or below a limit (R354: no partition runs above it). -/
def stepDown (mhz : Nat) : Nat := min 52 ((mhz - 300) / 25)

/-- The clock cap of the device in MHz: 800 while the record in force is invalid (R192, R405). -/
def State.clockCap (s : State) : Nat := if s.cal.valid then 1600 else 800

/-- Table voltage in mV of a partition's step: the record's, or the safe table's (R403, R405). -/
def State.vf (s : State) (p k : Nat) : Nat :=
  if s.cal.valid then field s.cal.record (0x40 + 106 * p + 2 * k) 2 else 550 + 15 * k

/-- The LDO setpoint of a partition at its step: table, record trim and voltage trim (R353, R403). -/
def State.setpoint (s : State) (p k : Nat) : Int :=
  let off : Int := if s.cal.valid then (BitVec.ofNat 16 (field s.cal.record (0x760 + 2 * p) 2)).toInt else 0
  (s.vf p k : Int) + off + (s.part p).trimMv

/-- What an LDO holds now: 10 µs after a step down it begins to fall at 10 mV/µs (R340). -/
def State.ldoNow (s : State) (p : Nat) : Nat :=
  let x := s.part p
  match x.downAt with
  | none => x.ldoMv
  | some t =>
    if s.now < t + 10000 then x.ldoMv
    else max (min x.ldoMv (s.setpoint p x.step).toNat) (x.ldoMv - (s.now - t - 10000) / 100)

-- The power model (R191, R356) --------------------------------------------------------------------------------------

/-- A draw in units of mW / 2,560,000: (class + 1) × 250 × MHz²; a budget of B mW is B × 2,560,000. -/
def drawUnits (cls mhz : Nat) : Nat := (cls + 1) * 250 * mhz * mhz

/-- Units in one mW. -/
def mwUnits : Nat := 2560000

/-- A partition that holds a grant, as the CBA chooses its clock: current class, priority class, instance, floor step
(class 0) and step. -/
structure Job where
  part : Nat
  cur : Nat
  cls : Nat
  inst : Nat
  floor : Nat
  step : Nat
  deriving DecidableEq, Repr

/-- The sum of draws of jobs. -/
def drawOf (js : List Job) : Nat := (js.map (fun j => drawUnits j.cur (stepMhz j.step))).sum

/-- Clock that an EMU_PERF_HINT names in MHz (R358). -/
def hintMhz (hint : Nat) : Nat := if hint = 1 then 800 else if hint = 3 then 1600 else 1200

/-- The highest step a partition may run at, whatever its targets: device cap, rail cap, the Trickle partition, a trip;
`ceil` adds the cluster's thermal ceiling (R346, R354, R355, R358, R405). -/
def State.stepCap (s : State) (p : Nat) (ceil : Bool) : Nat :=
  let c := s.cluster (p / 4)
  let a := stepDown s.clockCap
  let b := match c.railCap with
    | some k => min a k
    | none => a
  let d := if ceil then min b (stepDown c.ceiling) else b
  if s.pwr.tripped || (s.pwr.pstate == 1 && s.pwr.tricklePart == p) then 0 else d

/-- The job of a partition that holds a grant, at its target step (R358 step 1). -/
def State.jobOf (s : State) (p : Nat) (ceil : Bool) : Option Job :=
  let x := s.part p
  match x.grant, x.run with
  | some cur, some (slot, seq, _) =>
    match s.cmd slot seq with
    | none => none
    | some c =>
      let hint := hintMhz ((tabGetD (s.inst c.inst).emu 0 0).toNat % 4)
      let fl := match tabGet s.contracts c.contract with
        | some k => if c.cls = 0 then k.req.floor else 0
        | none => 0
      let pre := x.preempt.getD 0
      some { part := p, cur := cur, cls := c.cls, inst := c.inst, floor := min (stepUp fl) (s.stepCap p ceil),
             step := min (stepUp (max hint (max fl pre))) (s.stepCap p ceil) }
  | _, _ => none

/-- Every job, by partition. -/
def State.jobs (s : State) (ceil : Bool) : List Job := (List.range 16).filterMap (fun p => s.jobOf p ceil)

/-- Jobs chosen by `sel` lowered together one step at a time, not below `lo`, until `fits` holds. -/
def lowerTogether (fits : List Job → Bool) (sel : Job → Bool) (lo : Job → Nat) : Nat → List Job → List Job
  | 0, js => js
  | fuel + 1, js =>
    if fits js || !(js.any (fun j => sel j && decide (lo j < j.step))) then js
    else lowerTogether fits sel lo fuel
      (js.map (fun j => if sel j && decide (lo j < j.step) then { j with step := j.step - 1 } else j))

/-- `a / b` is above `c / d`. -/
def ratioAbove (a b c d : Nat) : Bool := decide (a * d > c * b)

/-- Class 0 jobs lowered by the same fraction of their floors: each time, those whose next lower clock is the largest
fraction of their floor (R358 step 3.3, R200). -/
def lowerFloors (fits : List Job → Bool) : Nat → List Job → List Job
  | 0, js => js
  | fuel + 1, js =>
    let low (j : Job) : Bool := decide (j.cls = 0) && decide (0 < j.step)
    let best (j : Job) : Bool := low j && js.all (fun k => !(low k &&
      ratioAbove (stepMhz (k.step - 1)) (stepMhz k.floor) (stepMhz (j.step - 1)) (stepMhz j.floor)))
    if fits js || !(js.any low) then js
    else lowerFloors fits fuel (js.map (fun j => if best j then { j with step := j.step - 1 } else j))

/-- Power shares (R358 step 2): the jobs of classes 1 to 3 of each instance with a share are lowered until they fit. -/
def State.fitShares (s : State) (js : List Job) : List Job :=
  (List.range 33).foldl (fun js n =>
    let share := (s.inst n).limits.powerShare
    if share = 0 then js
    else lowerTogether (fun js => decide (drawOf (js.filter (fun j => j.inst == n && j.cls != 0)) ≤ share * mwUnits))
      (fun j => j.inst == n && j.cls != 0) (fun _ => 0) 53 js) js

/-- Lowering (R358 step 3) to fit `avail` mW. -/
def fitBudget (avail : Nat) (js : List Job) : List Job :=
  let fits (js : List Job) : Bool := decide (drawOf js ≤ avail * mwUnits)
  let low (c : Nat) (js : List Job) : List Job := lowerTogether fits (fun j => j.cls == c) (fun _ => 0) 53 js
  let a := low 1 (low 2 (low 3 js))
  let b := lowerTogether fits (fun j => j.cls == 0) (·.floor) 53 a
  lowerFloors fits 848 b

/-- Budget available to partitions in mW (R356). -/
def State.available (s : State) : Nat := s.budgetInForce - s.reserveMw

/-- The emergency step (R360): the highest at which all jobs fit the emergency cap less the reserve, never below 0. -/
def State.emergencyStep (s : State) (js : List Job) : Nat :=
  let room := (s.setting 0x5001 0x04 - s.reserveMw) * mwUnits
  ((List.range 53).filter (fun k => decide (drawOf (js.map (fun j => { j with step := k })) ≤ room))).getLast?.getD 0

/-- The steps the CBA chooses for the partitions that hold a grant (R358, R360). -/
def State.choose (s : State) (ceil : Bool) : List Job :=
  let js := fitBudget s.available (s.fitShares (s.jobs ceil))
  if s.pins.pwrCapN then js
  else
    let e := s.emergencyStep js
    js.map (fun j => { j with step := min j.step e })

/-- The quadrants grouped with quadrant `q` in a cluster shape (02 R41). -/
def quadrantsWith (code q : Nat) : List Nat :=
  if code = 4 then [0, 1, 2, 3]
  else if q < 2 then (if code = 1 ∨ code = 3 then [0, 1] else [q])
  else (if code = 2 ∨ code = 3 then [2, 3] else [q])

/-- The partitions fused with a partition, which run on one clock, with or without a launch (02 R41, R44). -/
def State.groupOf (s : State) (p : Nat) : List Nat := (quadrantsWith (s.cluster (p / 4)).shape (p % 4)).map (· + p / 4 * 4)

/-- The partitions that hold the launch group of a partition, or itself alone. -/
def State.runGroup (s : State) (p : Nat) : List Nat :=
  if (s.part p).run.isSome then (List.range 16).filter (fun q => (s.part q).run == (s.part p).run) else [p]

/-- Draw units in mW; where they are no whole number the rounding is open (log entry 2). -/
def mwOf (u : Nat) : Nat := if u % mwUnits = 0 then u / mwUnits else Config.round u mwUnits

/-- A step ordered for a partition (R340): down at once; up at once when the LDO holds the voltage, otherwise once it
reports its output settled; in a group, once every member's LDO holds its voltage (R44; log entry 18). -/
def State.orderStep (s : State) (p k : Nat) : State :=
  let x := s.part p
  let held := s.ldoNow p
  if k < x.step then
    s.updPart p (fun x => { x with step := k, clkMhz := stepMhz k, ldoMv := held, downAt := some s.now,
                                   stepWanted := none, ldoSettled := true })
  else if k = x.step then s.updPart p (fun x => { x with stepWanted := none, ldoSettled := true })
  else if (s.groupOf p).all (fun q => decide (s.setpoint q k ≤ (s.ldoNow q : Int))) then
    s.updPart p (fun x => { x with step := k, clkMhz := stepMhz k, stepWanted := none, ldoSettled := true })
  else s.updPart p (fun x => { x with stepWanted := some k, ldoSettled := false })

/-- An event of R363 for the manager: at most one per code and subject in 10 ms, the rest counted for the next of its
code. `head` stands before the SUPPRESSED field. -/
def State.powerEvent (s : State) (code subject : Nat) (head : List Byte) (withSupp : Bool) : State :=
  let k := code * 65536 + subject
  let late := match tabGet s.pwr.limiter k with
    | some t => decide (t + 10000000 ≤ s.now)
    | none => true
  let n := tabGetD s.pwr.suppressed code 0
  if late then
    ({ s with pwr := { s.pwr with limiter := tabSet s.pwr.limiter k s.now, suppressed := tabSet s.pwr.suppressed code 0 } }).event
      code 0 false true (head ++ (if withSupp then leBytes 2 (min n 0xFFFF) else []))
  else { s with pwr := { s.pwr with suppressed := tabSet s.pwr.suppressed code (n + 1) } }

/-- The step chosen for the group of a partition: the lowest of its members' (02 R44). -/
def State.groupStep (s : State) (js : List Job) (j : Job) : Nat :=
  (js.filter (fun x => (s.groupOf j.part).contains x.part)).foldl (fun k x => min k x.step) j.step

/-- A step ordered for every member of the group of a partition (02 R44). -/
def State.orderGroup (s : State) (p k : Nat) : State := (s.groupOf p).foldl (fun t q => t.orderStep q k) s

/-- The CBA reassesses (R358 to R360): every partition with a grant, and its group, is ordered to its step; an ungated one without a
grant is held at or below the emergency step while PWR_CAP_N is low; draws beyond the budget at step 0 are reported. -/
def State.reassess (s : State) : State :=
  let js := s.choose true
  let s1 := js.foldl (fun t j => t.orderGroup j.part (s.groupStep js j)) s
  let e := s.emergencyStep js
  let s2 := if s.pins.pwrCapN then s1
    else (List.range 16).foldl (fun t p =>
      if (t.part p).state != .gated && (t.part p).grant.isNone && decide (e < (t.part p).step) then t.orderStep p e else t) s1
  let unmet := js.all (fun j => j.step == 0) && decide (drawOf js > s.available * mwUnits)
  let s3 := { s2 with pwr := { s2.pwr with budgetUnmet := unmet } }
  if unmet && !s.pwr.budgetUnmet then
    s3.powerEvent Ev.budgetUnmet 0 (leBytes 4 s.available ++ leBytes 4 (mwOf (drawOf js))) true
  else s3

/-- The power state in force or being entered gates the partition (R344, R350). -/
def State.powerGates (s : State) (p : Nat) : Bool :=
  s.pwr.pf0D3 || (match s.pwr.target.getD s.pwr.pstate with
    | 0 => false
    | 1 => p != s.pwr.tricklePart
    | _ => true)

/-- A partition gated (R344); its SRAMs lose their contents (02 R34). -/
def gatePart (p : Part) : Part :=
  let y := p.zeroFilled
  { y with state := .gated, residency := none, grant := none, step := 0, clkMhz := 0, ldoMv := 0,
           stepWanted := none, ldoSettled := true, downAt := none, trimMv := 0 }

end Sys2Proof.Machine
end

