-- ==== Sys2Proof/Machine/Admission.lean ====
section
/-! DEFINITION. The admission test (09 R185 to R195, 21 R442): interference terms, the checks in their order, the fields
of a reply, and the events that follow when a contract's conditions start or stop failing (R197 to R202). -/

namespace Sys2Proof.Machine
open Sys2Proof

/-- A partition is out of service: offline, resetting, withdrawn or retired (R195, R302, R303). -/
def Part.out (p : Part) : Bool := p.state == .offline || p.state == .resetting || !p.enabled || p.retired

/-- A contract as the test sees it: its identifier (0 for the one requested), owner, terms and its graph's fixed
section with the version the stream terms come from. -/
structure Load where
  id : Nat
  inst : Nat
  req : ContractReq
  graph : GraphFixed
  version : GVersion
  deriving DecidableEq, Repr

/-- The load of a contract's terms; the current version, or the last one of a released graph. -/
def State.loadOf (s : State) (n id : Nat) (r : ContractReq) : Option Load := do
  let g ← s.graph n r.graph
  let v ← (g.current.bind (graphVersion? g)).or g.versions.getLast?
  return ⟨id, n, r, g.fixed, v⟩

/-- Roles a launch of the load runs: its own, or every role of a relay graph (R442). -/
def Load.roles (l : Load) : List Nat := if l.graph.relay then rolesOf l.graph.roleMask else [l.req.role]

/-- The variant a role runs in its present binding. -/
def State.boundVariant (s : State) (l : Load) (role : Nat) : Option Variant :=
  variantOf? l.graph role (bwShape (s.bindWord l.inst role))

/-- The terms of one launch at one role in ns (R188, R190). -/
structure Terms where
  compute : Rat := 0
  grants : Rat := 0
  dispatch : Rat := 0
  fusion : Rat := 0
  preload : Rat := 0
  stream : Rat := 0
  retry : Rat := 0
  front : Rat := 0
  deriving DecidableEq, Repr

/-- A time of `bytes` at a rate in MB/s, in ns; at rate 0 the traffic never moves, and the bound is one that no
limit reaches (log entry 19). -/
def atRate (bytes rate : Nat) : Rat :=
  if bytes = 0 then 0 else if rate = 0 then 18446744073709551615 else (bytes * 1000 : Rat) / rate

/-- Data bandwidth in MB/s of a rate in MT/s, with inline ECC or not (R75, R76). -/
def dataBandwidth (rate : Nat) (ecc : Bool) : Nat := if ecc then 8 * rate * 31 / 32 else 8 * rate

/-- Read rate of a stream in MB/s at a share (R68, R69). -/
def State.streamRate (s : State) (share : Nat) : Nat := min share (min 57600 (dataBandwidth s.mem.rate s.mem.ecc))

/-- A tile or atom of `cycles` at `mhz`, in ns. -/
def cyclesNs (cycles mhz : Nat) : Rat := (cycles * 1000 : Rat) / mhz

/-- The terms of a load at a role (R188 to R190). -/
def State.termsAt (s : State) (l : Load) (role : Nat) : Terms :=
  match s.boundVariant l role with
  | none => {}
  | some v =>
    let w := s.bindWord l.inst role
    let members := (groupParts (bwShape w) 0).length
    let replicas := (bwLeaderList w).length
    let streams := if bwGang w then replicas else 1
    let share := (s.inst l.inst).limits.privShare
    let c := cyclesNs v.wcLaunch l.req.floor * 33 / 32
    let i9 : Rat := match s.streamOf l.version v with
      | some d => atRate (d.blocks * 4096 * d.passes) (s.streamRate share) + ((streams - 1) * 4000 : Nat)
      | none => 0
    let nRd := ceilDiv (1 + ceilDiv l.graph.cbSize 64) 4
    let i3 := if s.pins.modeP then 12000 else 6000
    { compute := if i9 > c then 0 else c
      stream := if i9 > c then i9 else 0
      grants := (200 * v.tiles.length : Nat)
      dispatch := if l.graph.relay then 0
        else (v.tiles.map (fun t => max 0 (300 - cyclesNs t.wcCycles l.req.floor))).sum
      fusion := 2000
      preload := atRate (members * replicas * v.resMember) share + 3600
      retry := 2000
      front := (6000 + nRd * (1200 + i3) + ceilDiv l.graph.relocs.length 8 * 1200 : Nat) }

/-- Occupancy E (R190). -/
def Terms.occupancy (t : Terms) : Rat := t.compute + t.grants + t.dispatch + t.fusion + t.preload + t.stream + t.retry

/-- The contributions to E with their TERM codes (R194). -/
def Terms.parts (t : Terms) : List (Nat × Rat) :=
  [(1, t.compute), (2, t.grants), (3, t.dispatch), (4, t.fusion), (5, t.preload), (6, t.stream), (7, t.retry)]

/-- Effective period P − J (R186). -/
def effPeriod (r : ContractReq) : Nat := r.period - r.jitter

/-- The load's terms at partition `p`, when one of its roles is bound there (S(p) of R192). -/
def State.presentAt (s : State) (l : Load) (p : Nat) : Option Terms :=
  (l.roles.find? (fun r => (bwParts (s.bindWord l.inst r)).contains p)).map (s.termsAt l)

/-- Partitions of a load, ascending. -/
def State.loadParts (s : State) (l : Load) : List Nat :=
  (List.range 16).filter (fun p => (s.presentAt l p).isSome)

/-- Totals of the atoms of a tile table: runs of tiles that end at a pre-emptible boundary (02). -/
def atomCycles (ts : List Tile) : List Nat :=
  let r := ts.foldl (fun (a : List Nat × Nat × Bool) t =>
    let c := a.2.1 + t.wcCycles
    if t.preempt then (c :: a.1, 0, false) else (a.1, c, true)) ([], 0, false)
  if r.2.2 then (r.2.1 :: r.1).reverse else r.1.reverse

/-- The outcome of a test that failed, with the reply's fields (R193, R194). -/
structure AdmitFail where
  status : Status
  contract : Nat
  part : Nat
  term : Nat
  value : Rat
  limit : Rat
  terms : List Rat
  deriving DecidableEq, Repr

/-- A reported quantity; where it is no whole number the rounding is open (log entry 2). -/
def reported (q : Rat) : Nat := if q.den = 1 then q.num.toNat else Config.round q.num.toNat q.den

/-- The code of the largest contribution; the lowest code among equals. -/
def largestTerm (l : List (Nat × Rat)) : Nat :=
  (l.foldl (fun (b : Nat × Rat) e => if e.2 > b.2 then e else b) (0, 0)).1

/-- E, F, block and interf of load `i` at a partition whose loads and terms are `sp` (R192). -/
def responseTerms (sp : List (Load × Terms)) (i : Load × Terms) : List Rat :=
  let block := sp.foldl (fun b j => if j.1.req.deadline > i.1.req.deadline then max b j.2.occupancy else b) (40000 : Rat)
  let interf : Rat := sp.foldl (fun (a : Rat) (j : Load × Terms) => if j.1.id = i.1.id then a
    else a + j.2.occupancy * ((ceilDiv i.1.req.deadline (effPeriod j.1.req) : Nat) : Rat)) 0
  [i.2.occupancy, i.2.front, block, interf]

/-- The utilisation and response checks at one partition (R192), new load first, then by ascending identifier. -/
def checkPart (p : Nat) (sp : List (Load × Terms)) (new : Load) : Option AdmitFail :=
  let util : Rat := (sp.map (fun (j : Load × Terms) => j.2.occupancy / ((effPeriod j.1.req : Nat) : Rat))).sum
  let utilParts : List (Nat × Rat) := (List.range 7).map (fun k => (k + 1, (sp.map (fun (j : Load × Terms) =>
    ((j.2.parts[k]?).map (·.2) |>.getD 0) / ((effPeriod j.1.req : Nat) : Rat))).sum))
  let tm (i : Load × Terms) : List Rat := responseTerms sp i
  match sp.find? (fun i => i.1.id == new.id) with
  | none => none
  | some me =>
    if util > 1 then
      some ⟨St.contractUtil, new.id, p, largestTerm utilParts, ((effPeriod me.1.req) : Rat) * util, (effPeriod me.1.req), tm me⟩
    else
      (me :: sp.filter (fun i => i.1.id != new.id)).findSome? (fun i =>
        let t := tm i
        let total := t.sum
        if total > i.1.req.deadline then
          some ⟨St.contractResponse, i.1.id, p,
            largestTerm (i.2.parts ++ [(8, i.2.front), (9, t.getD 2 0), (10, t.getD 3 0)]), total, i.1.req.deadline, t⟩
        else none)

/-- The draw of a load at a partition by R191, in units of mW / 2,560,000. -/
def State.loadDraw (s : State) (l : Load) (p : Nat) : Nat :=
  match l.roles.find? (fun r => (bwParts (s.bindWord l.inst r)).contains p) with
  | none => 0
  | some r => match s.boundVariant l r with
    | none => 0
    | some v => drawUnits ((v.tiles.map (·.cls)).foldl max 0) l.req.floor

/-- The sum of partition reservations of loads (R191). -/
def State.reservations (s : State) (ls : List Load) : Nat :=
  ((List.range 16).map (fun p => (ls.map (fun l => s.loadDraw l p)).foldl max 0)).sum

/-- Bytes a launch of a load moves (R192). -/
def State.loadBytes (s : State) (l : Load) : Nat :=
  (l.roles.map (fun r =>
    match s.boundVariant l r with
    | none => 0
    | some v =>
      let w := s.bindWord l.inst r
      (groupParts (bwShape w) 0).length * (bwLeaderList w).length * v.resMember
        + (match s.streamOf l.version v with | some d => d.blocks * 4096 * d.passes | none => 0))).sum

/-- Skim slots R69 reserves for a load. -/
def State.loadSkims (s : State) (l : Load) : Nat :=
  (l.roles.filter (fun r => match s.boundVariant l r with
    | some v => (s.streamOf l.version v).isSome
    | none => false)).length

/-- The loads of the contracts in force: not released, or released and still held by a launch (R199). -/
def State.loads (s : State) : List Load := s.contracts.filterMap (fun e => s.loadOf e.2.inst e.1 e.2.req)

/-- Graphs of any instance with a role bound onto partition `p`: their fixed sections (R192). -/
def State.graphsAt (s : State) (p : Nat) : List GraphFixed :=
  s.insts.flatMap (fun e => (tabVals e.2.graphs).filterMap (fun g =>
    if (rolesOf g.fixed.roleMask).any (fun r => (bwParts (s.bindWord e.1 r)).contains p) then some g.fixed else none))

/-- 16 µs in ns, the longest a tile or atom may take (02, R192). -/
def atomLimit : Rat := 16000

/-- The checks of one contract's own variants: floor and atoms (R192). -/
def State.checkOwn (s : State) (new : Load) : Option AdmitFail :=
  let f := new.req.floor
  if f > s.clockCap then some ⟨St.contractFloor, new.id, 0xFF, 0, f, s.clockCap, [0, 0, 0, 0]⟩
  else
    match new.roles.findSome? (fun r => (s.boundVariant new r).bind (fun v =>
        (v.tiles.map (·.wcCycles) ++ atomCycles v.tiles).find? (fun c => cyclesNs c f > atomLimit))) with
    | some c => some ⟨St.contractAtom, new.id, 0xFF, 1, cyclesNs c f, atomLimit, [0, 0, 0, 0]⟩
    | none => none

/-- The blocking check at one partition: every atom there at the lowest floor of S(p) (R192). -/
def State.checkBlocking (s : State) (p : Nat) (sp : List (Load × Terms)) (new : Load) : Option AdmitFail :=
  let lowest := (sp.map (·.1.req.floor)).foldl min 1600
  let cs := (s.graphsAt p).flatMap (fun g => g.variants.flatMap (fun v => atomCycles v.tiles))
  match cs.find? (fun c => cyclesNs c lowest > atomLimit) with
  | some c => some ⟨St.contractBlocking, new.id, p, 1, cyclesNs c lowest, atomLimit, [0, 0, 0, 0]⟩
  | none => none

/-- S(p) with terms: the new load and the admitted ones present at `p`, by ascending identifier. -/
def State.loadsAt (s : State) (new : Load) (p : Nat) : List (Load × Terms) :=
  (new :: s.loads.filter (fun l => l.id != new.id)).filterMap (fun l => (s.presentAt l p).map (fun t => (l, t)))

/-- The power, memory and Skim checks (R192). -/
def State.checkTotals (s : State) (new : Load) (skims : Bool) : Option AdmitFail :=
  let ls := new :: s.loads.filter (fun l => l.id != new.id)
  let res := s.reservations ls + s.reserveMw * mwUnits
  let mine := ls.filter (fun l => l.inst == new.inst)
  let mb := (mine.map (fun l => ((s.loadBytes l * 1000 : Nat) : Rat) / (effPeriod l.req))).sum
  let share := (s.inst new.inst).limits.privShare
  let held := (s.contracts.map (fun e => if e.1 = new.id then 0 else e.2.skimSlots)).sum + s.loadSkims new
  if res > s.budgetInForce * mwUnits then
    some ⟨St.contractPower, new.id, 0xFF, 11, (res : Rat) / mwUnits, s.budgetInForce, [0, 0, 0, 0]⟩
  else if mb > share then some ⟨St.contractMemory, new.id, 0xFF, 12, mb, share, [0, 0, 0, 0]⟩
  else if skims && decide (held > 8) then some ⟨St.contractSkim, new.id, 0xFF, 0, held, 8, [0, 0, 0, 0]⟩
  else none

/-- The test from the binding check on (R192), for a new contract or one that stands already. -/
def State.admitTest (s : State) (new : Load) (skims : Bool) : Option AdmitFail :=
  if new.roles.any (fun r => !bwValid (s.bindWord new.inst r)
      || (bwParts (s.bindWord new.inst r)).any (fun p => (s.part p).out)) then
    some ⟨St.contractUnbound, new.id, 0xFF, 0, 0, 0, [0, 0, 0, 0]⟩
  else
    match s.checkOwn new with
    | some e => some e
    | none =>
      let ps := s.loadParts new
      match ps.findSome? (fun p => s.checkBlocking p (s.loadsAt new p) new) with
      | some e => some e
      | none =>
        match ps.findSome? (fun p => checkPart p (s.loadsAt new p) new) with
        | some e => some e
        | none => s.checkTotals new skims

/-- The terms reported with an accepted contract: those at its first partition (R194; log entry 17). -/
def State.acceptedTerms (s : State) (new : Load) : AdmitFail :=
  let p := (s.loadParts new).headD 0
  let sp := s.loadsAt new p
  match sp.find? (fun i => i.1.id == new.id) with
  | some me =>
    let t := responseTerms sp me
    ⟨St.ok, new.id, p, 0, t.sum, new.req.deadline, t⟩
  | none => ⟨St.ok, new.id, p, 0, 0, new.req.deadline, [0, 0, 0, 0]⟩

/-- The test rerun for a contract that stands; none when it passes (R195). -/
def State.rerun (s : State) (id : Nat) : Option AdmitFail :=
  match tabGet s.contracts id with
  | none => none
  | some k => match s.loadOf k.inst id k.req with
    | none => some ⟨St.contractUnbound, id, 0xFF, 0, 0, 0, [0, 0, 0, 0]⟩
    | some l => s.admitTest l false

/-- Contracts not released that are present at partition `p`. -/
def State.contractsAt (s : State) (p : Nat) : List Nat :=
  (s.contracts.filter (fun e => e.2.state != .released && (match s.loadOf e.2.inst e.1 e.2.req with
    | some l => (s.presentAt l p).isSome
    | none => false))).map (·.1)

/-- Contracts of instance `n` that use role `r` and are not released. -/
def State.contractsOn (s : State) (n r : Nat) : List Nat :=
  (s.contracts.filter (fun e => e.2.inst == n && e.2.state != .released && (match s.loadOf n e.1 e.2.req with
    | some l => l.roles.contains r
    | none => false))).map (·.1)

/-- The first contract of a list whose rerun fails. -/
def State.rerunAll (s : State) (ids : List Nat) : Option AdmitFail := ids.findSome? s.rerun

-- Contract states and events (R197 to R202) ----------------------------------------------------------------------

/-- MISS_RISK: an admitted contract goes to AT_RISK (R197, R199), unless its instance is FREEZING or FROZEN (12 R255). -/
def State.missRisk (s : State) (id reason part : Nat) : State :=
  match tabGet s.contracts id with
  | some k =>
    if k.state == .admitted && !s.freezes k.inst then
      (s.updContract id (fun k => { k with state := .atRisk, reason := reason })).event Ev.missRisk k.inst true true
        (leBytes 2 id ++ leBytes 1 reason ++ leBytes 1 part)
    else s
  | none => s

/-- MISS_RISK_CLEAR: the condition has ended and the test passes again (R199). -/
def State.missClear (s : State) (id : Nat) : State :=
  match tabGet s.contracts id with
  | some k =>
    if k.state == .atRisk && (s.rerun id).isNone then
      (s.updContract id (fun k => { k with state := .admitted })).event Ev.missRiskClear k.inst true true (leBytes 2 id)
    else s
  | none => s

/-- Contracts that fail their rerun after a partition left service go to AT_RISK with reason OFFLINE (R195, R302). -/
def State.riskOfflineOf (s : State) (ids : List Nat) (p : Nat) : State :=
  ids.foldl (fun t id => if (t.rerun id).isSome then t.missRisk id 4 p else t) s

/-- Those of the contracts present at the partition. -/
def State.riskOffline (s : State) (p : Nat) : State := s.riskOfflineOf (s.contractsAt p) p

/-- CONTRACT_SUSPENDED with a cause: 1 thermal trip, 2 D3hot (R202, R350). -/
def State.suspend (s : State) (id cause : Nat) : State :=
  match tabGet s.contracts id with
  | some k =>
    if k.state == .admitted || k.state == .atRisk then
      (s.updContract id (fun k => { k with state := .suspended })).event Ev.contractSuspended k.inst true true
        (leBytes 2 id ++ leBytes 1 cause)
    else s
  | none => s

/-- A suspended contract tested again: resumed, or kept suspended with its event repeated carrying the failing status
(R202, R350). -/
def State.retest (s : State) (cause : Nat) (id : Nat) : State :=
  match tabGet s.contracts id with
  | some k =>
    if k.state == .suspended then
      match s.rerun id with
      | none => (s.updContract id (fun k => { k with state := .admitted, reason := 0 })).event Ev.contractResumed k.inst true true
          (leBytes 2 id)
      | some f => s.event Ev.contractSuspended k.inst true true (leBytes 2 id ++ leBytes 1 cause ++ leBytes 2 f.status.toNat)
    else s
  | none => s

/-- The conditions of R197 that hold a contract at risk now: reason and partition; none when every one is met. -/
def State.riskOf (s : State) (id : Nat) : Option (Nat × Nat) :=
  match tabGet s.contracts id with
  | none => none
  | some k =>
    match s.loadOf k.inst id k.req with
    | none => none
    | some l =>
      let ps := s.loadParts l
      let budget := s.setting 0x5001 0x01
      if !s.pins.pwrCapN then some (2, 0xFF)
      else if s.reservations s.loads + s.reserveMw * mwUnits > min budget s.pwr.thermalMw * mwUnits then some (1, 0xFF)
      else
        match ps.find? (fun p => match (s.cluster (p / 4)).railCap with
            | some st => decide (stepMhz st < k.req.floor)
            | none => false) with
        | some p => some (1, p)
        | none =>
          match ps.find? (fun p => decide ((s.cluster (p / 4)).ceiling < k.req.floor)) with
          | some p => some (3, p)
          | none => (ps.find? (fun p => (s.part p).out)).map (fun p => (4, p))

/-- Every contract compared with the conditions of R197: MISS_RISK where one fails, MISS_RISK_CLEAR where all hold
again and the test passes. -/
def State.riskScan (s : State) : State :=
  (tabKeys s.contracts).foldl (fun t id =>
    match t.riskOf id with
    | some (r, p) => if r = 4 ∧ (t.rerun id).isNone then t else t.missRisk id r p
    | none => t.missClear id) s

/-- Every contract suspended (R202, R350). -/
def State.suspendAll (s : State) (cause : Nat) : State := (tabKeys s.contracts).foldl (fun t id => t.suspend id cause) s

/-- Every suspended contract tested again. -/
def State.retestAll (s : State) (cause : Nat) : State := (tabKeys s.contracts).foldl (State.retest · cause) s

end Sys2Proof.Machine
end

