-- ==== Sys2Proof/Machine/Groups.lean ====
section
/-! DEFINITION. Fused groups and the launches on them: cluster shapes (02 R41 to R45), Skim groups (03 R60 to R66), the
loss of a member (02 R50 to R53, 07 R159, 10 R225). -/

namespace Sys2Proof.Machine
open Sys2Proof

-- Shapes ------------------------------------------------------------------------------------------------------------

/-- The shape that has the group of `shape` led by quadrant `q` and keeps every other group it can (R41, R42). -/
def shapeWith (code shape q : Nat) : Nat :=
  let pair01 := code = 1 ∨ code = 3
  let pair23 := code = 2 ∨ code = 3
  if shape = 2 then 4
  else if shape = 1 then (if q = 0 then (if pair23 then 3 else 1) else (if pair01 then 3 else 2))
  else if q < 2 then (if pair23 then 2 else 0)
  else (if pair01 then 1 else 0)

/-- The group of `shape` led by partition `p` stands in its cluster as it is. -/
def State.hasGroup (s : State) (shape p : Nat) : Bool :=
  quadrantsWith (s.cluster (p / 4)).shape (p % 4) == (groupParts shape p).map (· % 4)

/-- Partitions a grant of `shape` at leader `p` needs: its members, and those whose present group must change (R42). -/
def State.concerned (s : State) (shape p : Nat) : List Nat :=
  ((groupParts shape p).flatMap (fun q =>
    (quadrantsWith (s.cluster (p / 4)).shape (q % 4)).map (fun k => p / 4 * 4 + k))).eraseDups

-- Launches ------------------------------------------------------------------------------------------------------------

/-- Replica `idx` of a command. -/
def replica? (c : Cmd) (idx : Nat) : Option Replica := c.replicas.find? (fun r => r.idx == idx)

/-- Replica `idx` of a command changed. -/
def State.updReplica (s : State) (slot seq idx : Nat) (f : Replica → Replica) : State :=
  s.updCmd slot seq (fun c => { c with replicas := c.replicas.map (fun r => if r.idx = idx then f r else r) })

/-- The launch a partition holds: its command and replica. -/
def State.runOf (s : State) (p : Nat) : Option (Cmd × Replica) := do
  let (slot, seq, idx) ← (s.part p).run
  let c ← s.cmd slot seq
  let r ← replica? c idx
  return (c, r)

/-- The graph version a launch is pinned to. -/
def State.pinnedVersion (s : State) (c : Cmd) : Option (Graph × GVersion) := do
  let g ← s.graph c.inst c.graph
  let v ← graphVersion? g c.version
  return (g, v)

/-- The variant a replica runs, with its place in the variant table. -/
def State.variantOf (s : State) (c : Cmd) (r : Replica) : Option (Nat × Variant) := do
  let g ← s.graph c.inst c.graph
  let v ← variantOf? g.fixed r.role r.shape
  let i ← g.fixed.variants.findIdx? (· == v)
  return (i, v)

-- Skim groups (R60 to R66) --------------------------------------------------------------------------------------------

/-- A Skim slot set free; DET_COUNT stays (R66). R67 does not say what the other fields of its status read once the group has
ended: they read as after a reset (DESIGN CHOICE, log entry 94). -/
def freeSkim (g : Skim) : Skim := { ({} : Skim) with detCount := g.detCount }

/-- The place in its pass of the block that the engine sends next, and of the pass. -/
def Skim.block (g : Skim) : Nat := if g.stream.blocks ≤ g.head then 0 else g.head

/-- Every block of every pass has been sent. -/
def Skim.allSent (g : Skim) : Bool := g.started && decide (g.stream.passes ≤ g.pass + 1) && decide (g.stream.blocks ≤ g.head)

/-- Leaders of the attached replicas. -/
def Skim.leaders (g : Skim) : List Nat := tabKeys g.lag

/-- The partitions of the attached replicas that a block addresses: in a pair or quad, block b is member (b mod MEMBERS)'s
(R58). -/
def Skim.maskFor (g : Skim) (b : Nat) : BitVec 16 := maskOf (g.leaders.map (· + b % max 1 g.stream.members))

/-- A replica launch of the group has not acknowledged its grant yet and may still join. -/
def State.skimWaits (s : State) (g : Nat) : Bool :=
  match s.cmd (s.skim g).slot (s.skim g).seq with
  | some c => c.replicas.any (fun r => r.skim == some g && (r.state == .granted || r.state == .regrant))
  | none => false

/-- The group ends when no replica is attached, unless one may still join before block 0 (R60, R66). -/
def State.sweepSkim (s : State) (g : Nat) : State :=
  if (s.skim g).active && (s.skim g).lag.isEmpty && ((s.skim g).started || !s.skimWaits g) then s.updSkim g freeSkim else s

/-- The groups of a command swept. -/
def State.sweepSkims (s : State) (slot seq : Nat) : State :=
  (List.range 8).foldl (fun t g => if (t.skim g).slot = slot ∧ (t.skim g).seq = seq then t.sweepSkim g else t) s

/-- Every replica launch has ended: the command's outcome is decided, its Skim and pool slots are free, and its record follows
(R24, R57, R66, R91). -/
def State.endIfDone (s : State) (slot seq : Nat) : State :=
  match s.cmd slot seq with
  | some c =>
    if !c.replicas.isEmpty && c.replicas.all (fun r => r.state == .ended) && c.stage == .executing && !c.cancelled then
      let st := if c.relay then (c.replicas.find? (fun r => r.status != St.ok)).map (·.status) |>.getD St.ok else c.status
      (s.freeSkims slot seq).endCmd c st 0
    else s.sweepSkims slot seq
  | none => s

/-- A replica leaves a group because its last slot is freed (R66). -/
def State.leaveSkim (s : State) (g leader shape : Nat) : State :=
  (s.updSkim g (fun x => { x with lag := tabErase x.lag leader,
                                  attached := x.attached &&& ~~~ maskOf (groupParts shape leader) })).sweepSkim g

/-- A replica detached with a cause: 0 LAG, 1 FAULT, 2 PREEMPT (R63). -/
def State.detach (s : State) (g leader shape cause : Nat) : State :=
  let x := s.skim g
  match tabGet x.lag leader with
  | none => s
  | some _ =>
    let m := maskOf (groupParts shape leader)
    let at_ := tabGetD x.got leader 0
    let s1 := s.updSkim g (fun x => { x with
      lag := tabErase x.lag leader, attached := x.attached &&& ~~~ m, detached := x.detached ||| m,
      detCount := satInc x.detCount, lagDetached := if cause = 0 then x.lagDetached ++ [leader] else x.lagDetached })
    let s2 := s1.updCmd x.slot x.seq (fun c => { c with replicas := c.replicas.map (fun r =>
      if r.leader = leader ∧ r.skim = some g then { r with detached := true, skim := none } else r) })
    let blocks := max 1 x.stream.blocks
    let body := leBytes 1 leader ++ leBytes 1 g ++ leBytes 1 cause ++ leBytes 4 (at_ % blocks) ++ leBytes 1 (at_ / blocks)
    (s2.eventLimited Ev.skimDetach leader x.inst true true body).sweepSkim g

/-- Skim slots that contracts hold reserved and do not use (R69). -/
def State.skimReserve (s : State) : Nat :=
  (s.contracts.map (fun e => e.2.skimSlots - ((tabVals s.skims).filter (fun x => x.active && x.contracted &&
    (match s.cmd x.slot x.seq with | some c => c.contract == e.1 | none => false))).length)).sum

/-- Whether a command takes reserved Skim slots: its contract reserves some that no earlier launch of it holds. -/
def State.skimReserved (s : State) (c : Cmd) (k : Nat) : Bool :=
  match tabGet s.contracts c.contract with
  | some x => c.cls == 0 && decide (k + ((tabVals s.skims).filter (fun y => y.active && y.contracted &&
      (match s.cmd y.slot y.seq with | some d => d.contract == c.contract | none => false))).length ≤ x.skimSlots)
  | none => false

/-- `k` more Skim slots may be taken by a command (R60, R69). -/
def State.skimsFree (s : State) (c : Cmd) (k : Nat) : Bool :=
  let used := ((tabVals s.skims).filter (·.active)).length
  if s.skimReserved c k then decide (used + k ≤ 8) else decide (used + s.skimReserve + k ≤ 8)

/-- A Skim slot taken for a stream of a command: the lowest free number, the engine with the fewer groups (R60). -/
def State.takeSkim (s : State) (c : Cmd) (st : Stream) (dva : Nat) : Option (Nat × State) :=
  let act := s.skims.filter (fun e => e.2.active)
  match lowestFree (tabKeys act) 0 8 with
  | none => none
  | some g =>
    let e0 := (act.filter (fun e => e.2.engine == 0)).length
    let e1 := (act.filter (fun e => e.2.engine == 1)).length
    some (g, s.updSkim g (fun x => { (freeSkim x) with
      active := true, engine := if e1 < e0 then 1 else 0, inst := c.inst, graph := c.graph, slot := c.slot, seq := c.seq,
      stream := st, dva := dva, contracted := s.skimReserved c 1 }))

-- The loss of a partition (R50 to R53, R159, R207, R225) -----------------------------------------------------------------

/-- PARTITION_OFFLINE (R398) to the owning instance and the manager. `inst` is the instance of the launch held. -/
def State.partOffline (s : State) (p cause : Nat) (held : Option (Nat × Nat)) : State :=
  let body := leBytes 1 p ++ leBytes 1 cause ++ leBytes 1 ((held.map (·.1)).getD 0xFF)
    ++ leBytes 2 ((held.map (·.2)).getD 0x3FF)
  let owners := (List.range 33).filter (fun n => (s.inst n).owned.getLsbD p)
  let s1 := owners.foldl (fun t n => if n = 0 then t else t.event Ev.partitionOffline n true false body) s
  s1.event Ev.partitionOffline 0 false true body

/-- The shape in which the group of quadrant `q` is singles and every other group of `code` stays (R52). -/
def shapeWithout (code q : Nat) : Nat := if (quadrantsWith code q).length = 1 then code else shapeWith code 0 q

/-- The cluster's group that contains a partition, formed or being formed, dissolves into singles (R52), with
FUSION_DISSOLVED; a change of the cluster's other pair goes on. -/
def State.dissolve (s : State) (p : Nat) : State :=
  let c := s.cluster (p / 4)
  let sh := c.changing.getD c.shape
  if (quadrantsWith sh (p % 4)).length = 1 && (quadrantsWith c.shape (p % 4)).length = 1 then s
  else
    let now := shapeWithout c.shape (p % 4)
    let new := shapeWithout sh (p % 4)
    (s.updCluster (p / 4) (fun c => { c with shape := now, changing := if new = now then none else some new })).event
      Ev.fusionDissolved 0 false true (leBytes 1 (p / 4) ++ leBytes 1 sh ++ leBytes 1 new ++ leBytes 1 p)

/-- The binding word that R53 writes: every partition of every member but `p` as a single, or for a relay role only
`keep`. -/
def splitBinding (w : BitVec 32) (p : Nat) (relay : Bool) (keep : Nat) : BitVec 32 :=
  mkBind (if relay then maskOf [keep] else maskOf ((bwParts w).filter (· != p))) 0 (bwGang w) true

/-- A role of an instance bound anew. -/
def State.setBind (s : State) (n role : Nat) (w : BitVec 32) : State :=
  s.updInst n (fun i => { i with bind := tabSet i.bind role w })

/-- A request of the node is not answered, or a stream block is on its way to it (R50: the launch completes once they have
completed). -/
def State.nodeIdle (s : State) (node : Nat) : Bool :=
  s.net.reqs.all (fun e => e.1 / 1024 != node) && s.skims.all (fun e => e.2.flight.all (fun k => !k.left.getLsbD node))

/-- Every partition of a replica launch is idle in that sense. -/
def State.replicaIdle (s : State) (r : Replica) : Bool := (groupParts r.shape r.leader).all s.nodeIdle

/-- Every replica of a command ended, its partitions and Skim slots given back. -/
def State.endAll (s : State) (c : Cmd) (st : Status) : State :=
  let s1 := (s.freeCmdParts c.slot c.seq).freeSkims c.slot c.seq
  (s1.updCmd c.slot c.seq (fun c => { c with replicas := c.replicas.map (fun r =>
    { r with state := .ended, status := if r.status = St.ok then st else r.status }) })).endIfDone c.slot c.seq

/-- A launch whose partition `p` is lost, with the status `st` of the loss (R50, R52, R53, R159, R225). -/
def State.launchLost (s : State) (c : Cmd) (r : Replica) (p : Nat) (st : Status) : State :=
  let w := s.bindWord c.inst r.role
  let survivors := (groupParts r.shape r.leader).filter (· != p)
  let single := match s.graph c.inst c.graph with
    | some g => (variantOf? g.fixed r.role 0).isSome
    | none => false
  let fused := decide (r.shape ≠ 0)
  let s1 := match r.skim with
    | some g => s.detach g r.leader r.shape 1
    | none => s
  let s2 := if fused then
      (if single then s1.setBind c.inst r.role (splitBinding w p c.relay (survivors.headD 0))
       else s1.setBind c.inst r.role 0)
    else s1
  if c.relay then s2.endAll c (if fused && !single then St.fusionLost else st)
  else
    let s3 := s2.freeReplica c.slot c.seq r.idx
    if fused && single then
      s3.updReplica c.slot c.seq r.idx (fun r => { r with
        leader := survivors.headD 0, shape := 0, tile := 0, used := 0, state := .regrant, skim := none })
    else
      (s3.updReplica c.slot c.seq r.idx (fun r => { r with
        state := .ended, status := if fused then St.fusionLost else st })).endIfDone c.slot c.seq

/-- A launch saved in a lost partition's resume slot completes with UNIT_WITHDRAWN (R207). -/
def State.savedLost (s : State) (p : Nat) : State :=
  match (s.part p).resume with
  | none => s
  | some x =>
    let s1 := s.updPart p (fun x => { x with resume := none })
    match s1.cmd x.slot x.seq with
    | none => s1
    | some c => if c.relay then s1.endAll c St.unitWithdrawn
      else (s1.updReplica x.slot x.seq x.idx (fun r => { r with state := .ended, status := St.unitWithdrawn })).endIfDone x.slot x.seq

/-- The leaders whose resume slots hold a launch saved over partition `p`, as a member of its group or alone (R206). -/
def State.savedOver (s : State) (p : Nat) : List Nat :=
  (List.range 16).filter (fun q => match (s.part q).resume with
    | some r => (match (s.cmd r.slot r.seq).bind (replica? · r.idx) with
      | some x => (groupParts x.shape q).contains p
      | none => decide (q = p))
    | none => false)

/-- The replica launches that a loss at a partition stops: its own, or for a relay every role's (R159). -/
def State.lostWith (s : State) (p : Nat) : List Replica :=
  match s.runOf p with
  | some (c, r) => if c.relay then c.replicas else [r]
  | none => []

/-- The partitions stop at their next microword and release their current grants (R49, R52, R159). -/
def State.haltParts (s : State) (ps : List Nat) : State :=
  ps.foldl (fun t q => t.updPart q (fun x => { x with grant := none, tileRunning := false })) s

/-- The report of a lost partition: its group's members, and for a relay every other role, stop, and the group dissolves (R52,
R159). -/
def State.lossReported (s : State) (p : Nat) : State :=
  ((s.haltParts ((s.lostWith p).flatMap (fun r => groupParts r.shape r.leader))).dissolve p)

/-- Every request that the interrupted launch had issued has completed, `p`'s own apart where `others` (R50, R53, R159, R225). -/
def State.lossReady (s : State) (p : Nat) (others : Bool) : Bool :=
  (p :: (s.lostWith p).flatMap (fun r => groupParts r.shape r.leader)).all (fun q => (others && q == p) || s.nodeIdle q)

/-- The FEP acts on a lost partition: the launch it held, its fused partners, a launch saved there, the events and the
contracts, which are those of the binding as it was (R50 to R53, R195, R207). -/
def State.memberLost (s : State) (p cause : Nat) (st : Status) : State :=
  let held := s.runOf p
  let ids := s.contractsAt p
  let s0 := s.updPart p (fun x => { x with faultPending := false })
  let s1 := s0.partOffline p cause (held.map (fun h => (h.1.inst, h.1.slot)))
  let s2 := match held with
    | some (c, r) => if c.cancelled then s1 else s1.launchLost c r p st
    | none => s1
  let s3 := s2.dissolve p
  let saved := s3.savedOver p
  ((saved.foldl State.savedLost s3).riskOfflineOf ids p).reassess

end Sys2Proof.Machine
end

