-- ==== Sys2Proof/Machine/Probes.lean ====
section
/-! DEFINITION. The nodes of the on-chip network, the packet types, their routes and urgencies, and the probes that see them
(10 R208, R212 to R217, R230, R231). -/

namespace Sys2Proof.Machine
open Sys2Proof

-- Nodes, types, routes (R208, R212, R213) ------------------------------------------------------------------------------

/-- Node numbers of R208. -/
def nHost : Nat := 16
def nFep : Nat := 19
def nMgc : Nat := 20

/-- The router of a node (R208). -/
def routerOf (node : Nat) : Nat :=
  match node with
  | 16 => 0 | 17 => 5 | 18 => 10 | 19 => 6 | 20 => 9 | 21 => 15 | 22 => 5 | 23 => 10
  | p => p % 16

/-- A defined packet type (R212). -/
def typeDefined (t : Nat) : Bool :=
  decide (t ≤ 0x06) || (decide (0x08 ≤ t) && decide (t ≤ 0x0A)) || t == 0x0C || (decide (0x10 ≤ t) && decide (t ≤ 0x1B))

/-- Virtual channel of a type (R212). -/
def typeVc (t : Nat) : Nat := if t < 0x08 then 0 else if t < 0x0C then 1 else if t = 0x0C then 2 else 3

/-- One hop of a ring of four from `a` toward `b`: positive where both ways are two hops (R213). -/
def ringPositive (a b : Nat) : Bool := decide ((b + 4 - a) % 4 ≤ 2)

/-- A router on a route with the ports used: router, input port, output port (R230: 0 X+, 1 X−, 2 Y+, 3 Y−, 4 local,
5 edge), and the LANE that it forwards the packet with (R214). -/
structure Hop where
  router : Nat
  inp : Nat
  out : Nat
  lane : Nat
  deriving DecidableEq, Repr

/-- The port of a node at its router. -/
def nodePort (node : Nat) : Nat := if node < 16 then 4 else 5

/-- The LANE of a packet that leaves position `a` of a ring: 1 across the dateline between positions 3 and 0, and as it came
otherwise (R208, R214). -/
def laneAfter (lane a : Nat) (up : Bool) : Nat := if (if up then a = 3 else a = 0) then 1 else lane

/-- The hops from router `r` to the destination, X first, then Y, the turn into Y being on lane 0 (R213, R214). `fuel` counts
routers left. -/
def hopsFrom (dst r inp lane : Nat) : Nat → List Hop
  | 0 => []
  | fuel + 1 =>
    let d := routerOf dst
    let (x, y, dx, dy) := (r % 4, r / 4, d % 4, d / 4)
    let ly := if inp < 2 then 0 else lane
    if x ≠ dx then
      if ringPositive x dx then
        ⟨r, inp, 0, laneAfter lane x true⟩ :: hopsFrom dst (y * 4 + (x + 1) % 4) 1 (laneAfter lane x true) fuel
      else ⟨r, inp, 1, laneAfter lane x false⟩ :: hopsFrom dst (y * 4 + (x + 3) % 4) 0 (laneAfter lane x false) fuel
    else if y ≠ dy then
      if ringPositive y dy then
        ⟨r, inp, 2, laneAfter ly y true⟩ :: hopsFrom dst ((y + 1) % 4 * 4 + x) 3 (laneAfter ly y true) fuel
      else ⟨r, inp, 3, laneAfter ly y false⟩ :: hopsFrom dst ((y + 3) % 4 * 4 + x) 2 (laneAfter ly y false) fuel
    else [⟨r, inp, nodePort dst, lane⟩]

/-- The route between two nodes (R213): at most 4 hops, five routers. It enters on lane 0 (R214). -/
def route (src dst : Nat) : List Hop := hopsFrom dst (routerOf src) (nodePort src) 0 5

-- Probes and trace (R230, R231) -------------------------------------------------------------------------------------------

/-- A probe's filter matches a header, by type, channel, urgency, source, destination and instance. -/
def Probe.matches (q : Probe) (p : Pkt) : Bool :=
  let f := q.filt.toNat
  q.ctl.getLsbD 0 && bit q.types.toNat p.typ && bit (bits q.ctl.toNat 9 6) (typeVc p.typ)
    && decide (bits q.ctl.toNat 12 10 ≤ p.urg) && (bit f 5 || bits f 4 0 == p.src)
    && (bit f 11 || (if p.typ = 0x0C then p.mask.getLsbD (bits f 10 6) else bits f 10 6 == p.dst))
    && (bit f 18 || bits f 17 12 == p.inst)

/-- A trace record (R231). -/
def traceRecord (now router probe port : Nat) (out : Bool) (p : Pkt) : BitVec 128 :=
  BitVec.ofNat 128 (now % 2 ^ 40 + router * 2 ^ 40 + probe * 2 ^ 44 + port * 2 ^ 45 + b2n out * 2 ^ 48 + p.typ % 32 * 2 ^ 49
    + typeVc p.typ * 2 ^ 54 + p.urg % 8 * 2 ^ 56 + p.src % 32 * 2 ^ 59
    + (if p.typ = 0x0C then 0x1F else p.dst % 32) * 2 ^ 64 + p.inst % 64 * 2 ^ 69 + p.slot % 1024 * 2 ^ 75
    + p.len % 256 * 2 ^ 85 + p.tag % 1024 * 2 ^ 93)

/-- A record for the trace buffer: kept while it is enabled and has room or wraps, else dropped and counted (R231,
R232). -/
def Net.record (n : Net) (r : BitVec 128) : Net :=
  if !n.traceEn then n
  else if n.traceFull && !n.traceWrap then { n with dropped := satInc n.dropped }
  else { n with trace := tabSet n.trace n.wptr.toNat r, wptr := n.wptr + 1,
                traceFull := n.traceFull || n.wptr == 4095 }

/-- A probe of a router sees a header at one of its ports (R230); how long the head waited is open (log entry 5). -/
def Net.observe (n : Net) (now k port : Nat) (out : Bool) (p : Pkt) : Net :=
  let q := tabGetD n.probes k {}
  let sel := bits q.ctl.toNat 4 2
  if q.ctl.getLsbD 5 == out && (sel == 6 || sel == port) && q.matches p then
    let w := Config.headWait now k q.pkts.toNat
    let n1 := { n with probes := tabSet n.probes k { q with
      pkts := satInc q.pkts, flits := satAdd q.flits (p.len + 1), waitMax := if q.waitMax < w then w else q.waitMax } }
    if q.ctl.getLsbD 1 then n1.record (traceRecord now (k / 2) (k % 2) port out p) else n1
  else n

/-- The header passes a router: both its probes see the input and the output. -/
def Net.passHop (n : Net) (now : Nat) (p : Pkt) (h : Hop) : Net :=
  let at_ (n : Net) (k : Nat) : Net := (n.observe now k h.inp false p).observe now k h.out true p
  at_ (at_ n (2 * h.router)) (2 * h.router + 1)

-- Urgencies (R217) --------------------------------------------------------------------------------------------------------

/-- The launch whose stream an engine serves for a slot. -/
def State.skimLaunch (s : State) (node slot : Nat) : Option Cmd :=
  (s.skims.find? (fun e => e.2.active && e.2.engine + 22 == node && e.2.slot == slot)).bind (fun e => s.cmd e.2.slot e.2.seq)

/-- Key of an initiator and a tag. -/
def tagKey (src tag : Nat) : Nat := src * 1024 + tag

/-- The urgency that a packet is created with (R217): a ticket request of the FEP 4 and every other packet of VC3 7, a WALK that of
its access, a response that of its request, DMA and Skim traffic of class 0 4 but for private fetching, the FEP's but for the copy
channels' 4, the MGC complex and the I/O node 2. -/
def State.startUrg (s : State) (p : Pkt) (ring : Bool) : Nat :=
  if p.typ = 0x18 ∧ p.src = nFep then 4
  else if typeVc p.typ = 3 then 7
  else if typeVc p.typ = 1 then
    (match tabGet s.net.reqs (tagKey p.dst p.tag) with | some r => if r.tgen = p.tgen then r.urg else 0 | none => 0)
  else if p.typ = 0x02 then 0
  else if p.src < 16 then (match s.runOf p.src with | some (c, _) => if c.cls = 0 && !ring then 4 else 0 | none => 0)
  else if p.src = 22 ∨ p.src = 23 then (match s.skimLaunch p.src p.slot with | some c => if c.cls = 0 then 4 else 0 | none => 0)
  else if p.src = nFep then (if bits p.tag 9 8 = 3 then 0 else 4)
  else if p.src = nMgc ∨ p.src = 21 then 2 else 0

/-- The packet's urgency is at least that of its start: what the command gives above it is its age (R217; log entry 101). -/
def State.urged (s : State) (p : Pkt) : Pkt :=
  let ring := match tabGet s.net.reqs (tagKey p.src p.tag) with | some r => r.tgen == p.tgen && r.dma.any (·.ring) | none => false
  { p with urg := max p.urg (s.startUrg p ring) }

/-- The header passes its route, with the urgency that it has. -/
def State.observe (s : State) (p0 : Pkt) : State :=
  let p := s.urged p0
  { s with net := (route p.src p.dst).foldl (fun n h => n.passHop s.now p h) s.net }

/-- A VC3 packet of a command that the model gives no header (R212): it bears INST, GEN and SLOT of the launch of the partition that
sends or receives it, and INST 0 where there is none (R221). -/
def State.vc3 (s : State) (typ src dst p : Nat) : State :=
  let k := match s.runOf p with | some (c, _) => (c.inst, c.gen, c.slot) | none => (0, (s.inst 0).gen, 0x3FF)
  s.observe { typ := typ, urg := 7, src := src, dst := dst, mask := 0, inst := k.1, gen := k.2.1, slot := k.2.2, tag := 0, tgen := 0,
              len := 0, status := 0, addr := 0, hostSpace := false, bytes := 0 }

/-- GRANT, DISPATCH, REPORT, PREEMPT, SLOT_CREDIT, and the two packets of a generation table, which are the FEP's bookkeeping. -/
def State.grantSeen (s : State) (p : Nat) : State := s.vc3 0x10 nFep p p
def State.dispatchSeen (s : State) (p : Nat) : State := s.vc3 0x11 nFep p p
def State.reportSeen (s : State) (p : Nat) : State := s.vc3 0x12 p nFep p
def State.preemptSeen (s : State) (p : Nat) : State := s.vc3 0x13 nFep p p
def State.slotCreditSeen (s : State) (p engine : Nat) : State := s.vc3 0x16 p (22 + engine) p
def State.genUpdateSeen (s : State) (node : Nat) : State := s.vc3 0x1A nFep node 24
def State.genAckSeen (s : State) (node : Nat) : State := s.vc3 0x1B node nFep 24

/-- A Skim block passes its tree: each router's input once, each of its outputs once (R215). -/
def State.observeSkim (s : State) (p : Pkt) : State :=
  let hops := (leadersOf p.mask).flatMap (fun q => route p.src q)
  let ins := (hops.map (fun h => (h.router, h.inp))).eraseDups
  let outs := (hops.map (fun h => (h.router, h.out))).eraseDups
  let n1 := ins.foldl (fun n e => (n.observe s.now (2 * e.1) e.2 false p).observe s.now (2 * e.1 + 1) e.2 false p) s.net
  { s with net := outs.foldl (fun n e => (n.observe s.now (2 * e.1) e.2 true p).observe s.now (2 * e.1 + 1) e.2 true p) n1 }

end Sys2Proof.Machine
end

