-- ==== Sys2Proof/Machine/Fep.lean ====
section
/-! DEFINITION. The front-end commands of stages 1 to 7 and 10 (01 R16 to R25, 06, 07 R149 to R151, 08 R166 to R172):
fetching, checking, relocating, accepting, the simple commands, completion records and their interrupts. -/

namespace Sys2Proof.Machine
open Sys2Proof

-- Stage 2: fetching (R166) -----------------------------------------------------------------------------------------

/-- A refused command of the slot still waits for ring space for its record, so nothing later is fetched (R132). -/
def State.refusedWaits (s : State) (slot : Nat) : Bool :=
  (s.slotCmds slot).any (fun c => !c.accepted && c.stage == .ended && c.resv == 0)

/-- Where the FEP keeps what a read of host memory under this tag brings: the copy channel's place, or the queue slot's (18
R384: copy channel c alone issues TAG[9:8] = 3 with TAG[7:6] = c). -/
def fepStream (slot tag : Nat) : Nat := if bits tag 9 8 = 3 then 512 + bits tag 7 6 else slot

/-- Requests of the FEP for a stream that have not been answered. -/
def State.fepOut (s : State) (k : Nat) : List (Nat × NetReq) :=
  s.net.reqs.filter (fun e => e.1 / 1024 == 19 && fepStream e.2.slot (e.1 % 1024) == k)

/-- What the FEP's reads of host memory for a stream have brought. -/
def State.hostBytes (s : State) (k : Nat) : List Byte := tabGetD s.fep.hostIn k []

/-- The status that ended an access of a stream, when one has (18 R380). -/
def State.streamErr (s : State) (k : Nat) : Option Status := tabGet s.fep.readErr k

/-- A stream at its start: nothing read, no error. -/
def State.resetStream (s : State) (k : Nat) : State :=
  { s with fep := { s.fep with hostIn := tabErase s.fep.hostIn k, readErr := tabErase s.fep.readErr k } }

/-- The fetch unit may serve the slot (R166, R120, R121): its queue is ACTIVE and not guilty (R134), a command that is not begun is not
of an instance that freezes (12 R253), one of the unit's 64 reads is
free (R161), and no read of a command that was given up is still out. -/
def State.fetchable (s : State) (slot : Nat) (q : Queue) : Bool :=
  q.stateCode == 1 && q.guilty.isNone && decide (((tabVals s.queues).map (·.reads)).sum < 64)
    && ((s.inst q.inst).state.fetches || (q.reads != 0 && s.freezes q.inst)) && !q.abortLatched && !(s.inst q.inst).iBusy
    && decide (0 < dist q.write q.nextFetch) && decide (s.inflight slot < 32) && !s.refusedWaits slot
    && (match q.need with
        | none => q.reads == 0
        | some e => decide (e ≤ dist q.write q.nextFetch) && decide (4 * q.reads < e))
    && (q.reads != 0 || (s.fepOut slot).isEmpty)

/-- The next slot in round robin (R166). -/
def State.nextFetchSlot (s : State) : Option Nat :=
  let ok := s.queues.filter (fun e => s.fetchable e.1 e.2)
  match ok.find? (fun e => decide (s.fep.rrNext ≤ e.1)) with
  | some e => some e.1
  | none => (ok.head?).map (·.1)

/-- FETCH_READ: one read for the next eligible slot; the first of a command starts its stream. -/
def fetchRead (s : State) : State :=
  if s.fepRuns then
    match s.nextFetchSlot with
    | some k =>
      let s0 := if ((s.queue k).map (·.reads)).getD 0 = 0 then s.resetStream k else s
      let s1 := (s0.updQueue k (fun q => { q with reads := q.reads + 1 })).onThread 0 (some (k, ((s.queue k).map (·.nextFetch.toNat)).getD 0))
      { s1 with fep := { s1.fep with rrNext := k + 1 } }
    | none => s
  else s

/-- FETCH_READ (R166). -/
def execFetchRead (s : State) : Result := .next (fetchRead s)

-- Stage 3: checking (R128, R139) -------------------------------------------------------------------------------------

/-- Outcome of stage 3. -/
inductive Check where
  | pass
  | refuse (st : Status)
  /-- Glove check point 2 failed -/
  | glove
  deriving DecidableEq, Repr

/-- Checks of a LAUNCH_GRAPH after Glove check point 2 (R128, R126, R149, R157). -/
def State.checkLaunch (s : State) (n fmt : Nat) (e : List Byte) : Check :=
  let cbLen := launchCbLen fmt e
  let semN := (s.inst n).limits.semCount
  let badSem (x : Option (Nat × Nat)) : Bool := match x with | some (i, _) => decide (i ≥ semN) | none => false
  match s.graph n (launchGraphId e) with
  | none => .refuse St.badGraph
  | some g =>
    if g.current.isNone then .refuse St.badGraph
    else if (if g.fixed.relay then launchRole e != 0 else decide (launchRole e ≥ 16) || !g.fixed.roleMask.getLsbD (launchRole e)) then
      .refuse St.badRole
    else if badSem (launchWait fmt e) || badSem (launchSig fmt e) then .refuse St.badSemaphore
    else if cbLen > g.fixed.cbSize then .refuse St.badLength
    else if launchContract e ≠ 0 && !(match tabGet s.contracts (launchContract e) with
        | some k => k.inst == n && k.req.graph == launchGraphId e && k.state != .released
        | none => false) then .refuse St.contractMismatch
    else .pass

/-- Field checks of the other commands (R126, R127, R150). -/
def State.checkFields (s : State) (n op : Nat) (e : List Byte) : Check :=
  let lenOk (l : Nat) : Bool := decide (1 ≤ l) && decide (l ≤ 2 ^ 40)
  if op = opWait ∨ op = opSignal then
    if semIndex e ≥ (s.inst n).limits.semCount then .refuse St.badSemaphore else .pass
  else if op = opCopy then (if lenOk (field e 32 8) then .pass else .refuse St.badLength)
  else if op = opFill then
    if lenOk (field e 24 8) && field e 24 8 % 4 == 0 && field e 16 8 % 4 == 0 then .pass else .refuse St.badLength
  else if op = opHandleBind then (if bits (field e 8 2) 11 0 = 0 then .refuse St.badField else .pass)
  else if op = opHandleFree then
    if bits (field e 8 2) 11 0 = 0 || bits (field e 10 4) 11 0 != bits (field e 8 2) 11 0 then .refuse St.badField
    else .pass
  else if op = opPatch then
    match s.graph n (field e 8 2) with
    | none => .refuse St.badGraph
    | some g =>
      let tgt := field e 24 4
      let len := field e 28 4
      if g.current.isNone then .refuse St.badGraph
      else if tgt % 4 != 0 || len % 4 != 0 || decide (len < 4) || decide (len > 65536)
          || decide (tgt + len > g.fixed.patchLen) then .refuse St.badLength
      else .pass
  else .pass

/-- Stage 3 of a command of the queue, given its first entry: Glove check point 2 first, then opcode, format,
reserved bits and the command's own checks (R128, R139, R16; log entry 12). -/
def State.stage3 (s : State) (q : Queue) (e : List Byte) : Check :=
  let op := field e 0 1
  let fmt := q.desc.format
  if hdrInst e ≠ q.inst then .glove
  else if op = opLaunch && !((leadersOf (launchMask e)).all (fun p => (s.boundParts q.inst).contains p)) then .glove
  else if !opDefined op then .refuse St.badOpcode
  else if hdrFmt e ≠ fmt || !opInFormat op fmt then .refuse St.badFormat
  else if reservedSet op fmt 0 e then .refuse St.badField
  else if op = opLaunch && (if fmt = 1 then launchCbLen fmt e != 0 else launchCbLen fmt e % 16 != 0) then
    .refuse St.badField
  else if op = opLaunch then s.checkLaunch q.inst fmt e
  else s.checkFields q.inst op e

/-- A command as it leaves stage 3. -/
def mkCmd (slot : Nat) (q : Queue) (bytes : List Byte) (entries : Nat) (now : Nat) : Cmd :=
  let e := bytes.take (entrySize q.desc.format)
  let op := field e 0 1
  let launch := decide (op = opLaunch)
  { slot := slot, seq := q.nextFetch.toNat, inst := q.inst, entries := entries, bytes := bytes, opcode := op,
    tag := hdrTag e, fence := hdrFence e, irq := hdrIrq e, stage := .checked, status := St.ok, result := 0,
    accepted := false, order := 0, gen := 0,
    release := q.stampOf (q.nextFetch + BitVec.ofNat 32 (entries - 1)) now,
    contract := if launch then launchContract e else 0, early := false, cls := q.desc.cls, key := 0,
    graph := if launch then launchGraphId e else if op = opPatch then field e 8 2 else 0, version := 0,
    relay := false, role := if launch then launchRole e else 0, partMask := if launch then launchMask e else 0,
    pool := none, dvas := [], streamDva := [], resv := 0, cb := [],
    waitSem := if launch then launchWait q.desc.format e
      else if op = opWait then some (semIndex e, semValue e) else none,
    sigSem := if launch then launchSig q.desc.format e
      else if op = opSignal then some (semIndex e, semValue e) else none,
    waitUntil := none, stage6At := 0, inScoreboard := false, pqEntry := none, chan := none, progUsed := 0,
    progFrom := none, begun := false, replicas := [], built := none, recordsDone := 0, inFlight := none, recordLost := false,
    effectDone := false, cancelled := false }

/-- A command refused or dropped at stage 3, 4 or 5 without guilt: it keeps its status until its one record is
written in its place (R132). -/
def State.refuse (s : State) (c : Cmd) (st : Status) : State :=
  (s.setCmd (finishCmd c st 0)).settleRefused c.slot

/-- The bytes of `k` ring entries from index `i`, wrapping where the ring ends (R124, R166). -/
def State.readRing (s : State) (q : Queue) (i : BitVec 32) (k : Nat) (host : List Byte) : ReadRes :=
  let size := entrySize q.desc.format
  let at_ := i.toNat % q.entriesMax
  let k1 := min k (q.entriesMax - at_)
  match s.readDva q.inst (q.desc.subBase + size * at_) (size * k1) host with
  | .bytes b rest =>
    match s.readDva q.inst q.desc.subBase (size * (k - k1)) rest with
    | .bytes b2 r2 => .bytes (b ++ b2) r2
    | r => r
  | r => r

/-- A read of the submission ring ended with an error: the queue is guilty at the entry it could not read (R134). -/
def State.ringFault (s : State) (slot : Nat) (q : Queue) (f : XFault) : State :=
  ((s.resetStream slot).mmuFault q.inst f false 0 0 slot q.nextFetch.toNat).makeGuilty slot q.nextFetch 1 0 f.status none

/-- The stage-3 outcome applied. READ passes a command that Glove check point 2 drops, in its turn (R121). -/
def State.applyCheck (s : State) (slot : Nat) (q : Queue) (bytes : List Byte) (e : Nat) : State :=
  let c := mkCmd slot q bytes e s.now
  let s1 := ((s.onThread 1 (some (slot, c.seq))).resetStream slot).updQueue slot (fun q =>
    { q with nextFetch := q.nextFetch + BitVec.ofNat 32 e, reads := 0, need := none })
  match s.stage3 q (bytes.take (entrySize q.desc.format)) with
  | .pass => s1.setCmd c
  | .refuse st => s1.refuse c st
  | .glove =>
    (s1.spoof 2 (hdrInst bytes) (some q.inst) 0xFF 0xFF slot 0 c.opcode c.seq).makeGuilty slot
      (BitVec.ofNat 32 c.seq) e e St.gloveMismatch (some (BitVec.ofNat 8 c.opcode, c.tag))

/-- The bytes of the ring that one fetch of `k` entries reads, counted for the shares of its instance (R79). -/
def State.chargeRing (s : State) (q : Queue) (k : Nat) : State :=
  s.chargeRead q.inst (q.desc.subBase + entrySize q.desc.format * (q.nextFetch.toNat % q.entriesMax)) (entrySize q.desc.format * k)

/-- COMMAND_CHECK: the reads of the command being fetched have been answered. When they did not bring its last bytes, the
header says how many entries it occupies and the fetch goes on (R124, R166); entries beyond WRITE wait for a later doorbell
(R120). A read that ended with an error makes the queue guilty (R134). -/
def commandCheck (slot : Nat) (s : State) : State :=
  match s.queue slot with
  | none => s
  | some q =>
    if !s.fepRuns || q.reads = 0 || q.stopCause ≠ 0 || q.guilty.isSome || q.abortLatched || !(s.fepOut slot).isEmpty then s
    else
      match s.streamErr slot with
      | some st => s.ringFault slot q ⟨st, q.desc.subBase + entrySize q.desc.format * (q.nextFetch.toNat % q.entriesMax), 0⟩
      | none =>
        match s.readRing q q.nextFetch 1 (s.hostBytes slot) with
        | .short => s
        | .fault f => s.ringFault slot q f
        | .bytes hd _ =>
          let e := entriesOf q.desc.format hd
          if e > dist q.write q.nextFetch then (s.resetStream slot).updQueue slot (fun q => { q with reads := 0, need := some e })
          else if 4 * q.reads < e then s.updQueue slot (fun q => { q with need := some e })
          else
            match s.readRing q q.nextFetch e (s.hostBytes slot) with
            | .short => s
            | .fault f => s.ringFault slot q f
            | .bytes bs _ => (s.chargeRing q e).applyCheck slot q bs e

/-- COMMAND_CHECK (R128). -/
def execCommandCheck (slot : Fin 512) (s : State) : Result := .next (commandCheck slot s)

-- Stage 4: relocation (R88, R89, R149) -------------------------------------------------------------------------------

/-- `a` stands before `b` in queue order. -/
def before (a b : Nat) : Bool :=
  let d := dist (BitVec.ofNat 32 b) (BitVec.ofNat 32 a)
  decide (0 < d) && decide (d < 2 ^ 31)

/-- Earlier commands of the same queue. -/
def State.earlier (s : State) (c : Cmd) : List Cmd := (s.slotCmds c.slot).filter (fun x => before x.seq c.seq)

/-- A handle command. -/
def isHandleCmd (c : Cmd) : Bool := c.opcode == opHandleBind || c.opcode == opHandleFree

/-- The pairs that a command other than a launch names, in order: handle, offset, length, reads, writes (R126). -/
def cmdPairs (c : Cmd) : List (BitVec 32 × Nat × Nat × Bool × Bool) :=
  let h (o : Nat) : BitVec 32 := BitVec.ofNat 32 (field c.bytes o 4)
  if c.opcode = opCopy then
    [(h 8, field c.bytes 16 8, field c.bytes 32 8, true, false), (h 12, field c.bytes 24 8, field c.bytes 32 8, false, true)]
  else if c.opcode = opFill then [(h 8, field c.bytes 16 8, field c.bytes 24 8, false, true)]
  else if c.opcode = opPatch then [(h 12, field c.bytes 16 8, field c.bytes 28 4, true, false)]
  else []

/-- Pairs relocated in order; a null handle is not allowed in any of them (R86, R88). -/
def State.relocPairs (s : State) (n : Nat) : List (BitVec 32 × Nat × Nat × Bool × Bool) → Except Status (List Nat)
  | [] => .ok []
  | (h, o, l, rd, wr) :: t =>
    if h = 0 then .error St.nullHandle
    else match s.relocPair n h o l rd wr with
      | .error st => .error st
      | .ok d => match s.relocPairs n t with
        | .error st => .error st
        | .ok ds => .ok (d :: ds)

/-- Bytes of a byte string replaced from `off` on. -/
def patchAt (bs : List Byte) (off : Nat) (new : List Byte) : List Byte := bs.take off ++ new ++ bs.drop (off + new.length)

/-- The relocation slots of an assembled constant buffer replaced by DVAs, in list order (R88, R89, R149). -/
def State.relocCb (s : State) (n : Nat) : List Reloc → List Byte → Except Status (List Byte × List Nat)
  | [], cb => .ok (cb, [])
  | r :: t, cb =>
    let h := BitVec.ofNat 32 (field cb r.slotOff 4)
    let put (d : Nat) : List Byte := patchAt cb r.slotOff (leBytes 8 d ++ leBytes 8 0)
    if h = 0 then
      if !r.nullOk then .error St.nullHandle
      else match s.relocCb n t (put 0) with
        | .error st => .error st
        | .ok (c, ds) => .ok (c, 0 :: ds)
    else match s.relocPair n h (field cb (r.slotOff + 8) 8) r.extent r.rd r.wr with
      | .error st => .error st
      | .ok d => match s.relocCb n t (put d) with
        | .error st => .error st
        | .ok (c, ds) => .ok (c, d :: ds)

/-- The streams a launch may take, their DVAs added to `tab`: each descriptor of its roles' variants, in the order of the
variant table, relocated as a read extent; the first that fails gives the status (R58, R61, R88). At stage 4 no shape is bound
yet (R21), so the descriptors of every shape's variant are relocated; R58 does not say which (DESIGN CHOICE, log entry 13). -/
def State.relocStreams (s : State) (n : Nat) (v : GVersion) : List Variant → Tab Nat → Except Status (Tab Nat)
  | [], tab => .ok tab
  | var :: t, tab =>
    match var.skimOff, s.streamOf v var with
    | some o, some d =>
      if d.handle = 0 then .error St.nullHandle
      else match s.relocPair n d.handle d.offset (d.blocks * 4096) true false with
        | .error st => .error st
        | .ok a => s.relocStreams n v t (tabSet tab o a)
    | _, _ => s.relocStreams n v t tab

/-- The handles that a command's relocation reads, null ones apart (R88, R90). -/
def State.handlesOf (s : State) (c : Cmd) (fmt : Nat) : List (BitVec 32) :=
  (if c.opcode = opLaunch then
    match (s.graph c.inst c.graph).bind (fun g => (g.current.bind (graphVersion? g)).map (fun v => (g, v))) with
    | none => []
    | some (g, v) =>
      let cb := (g.fixed.relocs.map (fun r => BitVec.ofNat 32 (field ((c.bytes.drop 64).take (launchCbLen fmt c.bytes)) r.slotOff 4)))
      cb ++ (g.fixed.variants.filter (fun x => g.fixed.relay || x.role == c.role)).filterMap (fun x => (s.streamOf v x).map (·.handle))
  else (cmdPairs c).map (·.1)).filter (· != 0)

/-- The handle cache after a relocation that has read these handles: they are in it, the most recent first, 1,024 in all
(R90). -/
def State.cacheHandles (s : State) (n : Nat) (hs : List (BitVec 32)) : State :=
  { s with fep := { s.fep with hcache := hs.foldl (fun t h =>
      let k := n * 4096 + h.toNat % 4096
      ((k, s.handle n (h.toNat % 4096)) :: t.filter (fun e => e.1 != k)).take 1024) s.fep.hcache } }

/-- Variants that a launch can run: those of its role, or of every role of a relay graph. -/
def launchVariants (g : GraphFixed) (role : Nat) : List Variant :=
  if g.relay then g.variants else g.variants.filter (fun v => v.role == role)

/-- The assembled constant buffer: the command's inline bytes, then the version's default (R149). -/
def assembleCb (g : GraphFixed) (dflt inline : List Byte) : List Byte :=
  (inline.take g.cbSize ++ (dflt.take g.cbSize).drop inline.length).take g.cbSize

/-- Stage 4 of one command. -/
def State.relocateCmd (s : State) (c : Cmd) (fmt : Nat) : State :=
  if c.opcode = opLaunch then
    match s.graph c.inst c.graph with
    | none => s.refuse c St.badGraph
    | some g =>
      match g.current.bind (graphVersion? g) with
      | none => s.refuse c St.badGraph
      | some v =>
        let inline := (c.bytes.drop 64).take (launchCbLen fmt c.bytes)
        match s.relocCb c.inst g.fixed.relocs (assembleCb g.fixed (s.patchBytes v) inline) with
        | .error st => s.refuse c st
        | .ok (cb, ds) =>
          match s.relocStreams c.inst v (launchVariants g.fixed c.role) [] with
          | .error st => s.refuse c st
          | .ok sd => s.setCmd { c with stage := .relocated, cb := cb, dvas := ds, streamDva := sd, version := v.num,
                                        relay := g.fixed.relay }
  else
    match s.relocPairs c.inst (cmdPairs c) with
    | .error st => s.refuse c st
    | .ok ds => s.setCmd { c with stage := .relocated, dvas := ds }

/-- An earlier command of the queue lets a later one pass stage 4: it has passed that stage itself, its handle effect is made
(R90), and a PATCH has reached its acceptance point or ended (R148, R151). -/
def Cmd.letsRelocate (x : Cmd) : Bool :=
  x.stage != .checked && (!isHandleCmd x || x.effectDone || x.stage == .ended)
    && (x.opcode != opPatch || x.accepted || x.stage == .ended)

/-- RELOCATE: commands of a queue pass stage 4 in order (R90, R121, R151). -/
def relocate (slot : Nat) (seq : Nat) (s : State) : State :=
  match s.cmd slot seq, s.queue slot with
  | some c, some q =>
    if s.fepRuns && c.stage == .checked && (s.earlier c).all Cmd.letsRelocate then
      ((s.onThread 2 (some (slot, seq))).relocateCmd c q.desc.format).cacheHandles c.inst (s.handlesOf c q.desc.format)
    else s
  | _, _ => s

/-- RELOCATE (R88). -/
def execRelocate (slot : Fin 512) (seq : BitVec 32) (s : State) : Result := .next (relocate slot seq.toNat s)

-- Stage 5: acceptance (R17, R18, R89, R91, R132, R148) ---------------------------------------------------------------

/-- The instance's accepted work goes on: it is not frozen, and not being ended (R236, R255). -/
def State.instWorks (s : State) (n : Nat) : Bool :=
  match (s.inst n).state with
  | .active | .freezing => true
  | _ => false

/-- Pool slots held in reserve by admitted contracts other than `id` whose slot is not in use (R91). -/
def State.poolReserve (s : State) (id : Nat) : Nat :=
  (s.contracts.filter (fun e => e.1 != id && !((tabVals s.cmds).any (fun c => c.contract == e.1 && c.pool.isSome)))).length

/-- A free pool slot for a command, when one may be taken (R91): the lowest-numbered, for R91 says only 'a free slot' (DESIGN
CHOICE, log entry 79). -/
def State.poolSlot (s : State) (id : Nat) : Option Nat :=
  if s.fep.pool.length + s.poolReserve id < 2048 then lowestFree s.fep.pool 0 2048 else none

/-- Ring space for the command's reservation (R132). -/
def State.ringSpace (s : State) (slot : Nat) (q : Queue) (need : Nat) : Bool :=
  decide (q.freeRecords ≥ s.held slot + need)

/-- Whether a launch that names an admitted contract is early (R186). -/
def isEarly (k : Contract) (release : Nat) : Bool :=
  match k.lastRelease with
  | some t => decide (release < t + (k.req.period - k.req.jitter))
  | none => false

/-- The acceptance point of a command whose conditions hold: order, generation stamp, class and key, reservation, READ
(R17, R18, R121, R132, R148, R167, R186). -/
def State.acceptCmd (s : State) (c : Cmd) (need : Nat) (pool : Option Nat) : State :=
  let k := tabGet s.contracts c.contract
  let early := match k with
    | some x => isEarly x c.release
    | none => false
  let cls0 : Bool := match k with
    | some x => decide (c.contract ≠ 0) && !early && (x.state == .admitted || x.state == .atRisk)
    | none => false
  let key := match k with
    | some x => if cls0 then c.release + x.req.deadline else 0
    | none => 0
  let c1 := { c with accepted := true, order := s.fep.nextOrder, gen := (s.inst c.inst).gen, early := early,
                     cls := if cls0 then 0 else c.cls, key := key, resv := need, pool := pool, stage := .waiting,
                     stage6At := s.now }
  let s1 := ((s.onThread 3 (some (c.slot, c.seq))).setCmd c1).updQueue c.slot (fun q => q.passEntries c.entries)
  let s2 := { s1 with fep := { s1.fep with
    nextOrder := s1.fep.nextOrder + 1
    pool := match pool with
      | some p => p :: s1.fep.pool
      | none => s1.fep.pool
    log := if early then s1.fep.log ++ [⟨c.contract, true, 0, BitVec.ofNat 32 c.seq, c.inst⟩] else s1.fep.log } }
  let s3 := if c.contract ≠ 0 then s2.updContract c.contract (fun x => { x with lastRelease := some c.release }) else s2
  match pool with
  | some p => s3.writePriv (0x800000 + 4096 * p) c.cb
  | none => s3

/-- The next version number of a graph: the current number plus one, passing over live ones (R147). -/
def nextVersionNum (live : List Nat) (v : Nat) : Nat → Nat
  | 0 => v
  | fuel + 1 =>
    let w := if v = 0xFFFF then 1 else v + 1
    if live.contains w then nextVersionNum live w fuel else w

/-- A PATCH whose pages are built makes its version current at its acceptance point (R148, R150). -/
def State.acceptPatch (s : State) (c : Cmd) : State :=
  match s.graph c.inst c.graph, c.built with
  | some g, some pages =>
    match g.current with
    | none => s.refuse c St.badGraph
    | some cur =>
      let num := nextVersionNum (g.versions.map (·.num)) cur 8
      let s1 := s.acceptCmd c 1 none
      let s2 := s1.setGraph c.inst c.graph { g with versions := g.versions ++ [⟨num, pages⟩], current := some num,
                                                    builder := none }
      ((s2.updCmd c.slot c.seq (fun c => { finishCmd c St.ok 0 with version := 0, built := none, effectDone := true,
                                                                    chan := none })).releaseVersions c.inst c.graph).settleRefused c.slot
  | _, _ => s

/-- ACCEPTANCE_POINT: stage 5 ends for the command at the front of its queue's unaccepted ones, when ring space, a
pool slot and the generation allow it. A PATCH waits for its build and for launches of its graph between stage 4 and
acceptance. -/
def acceptancePoint (slot seq : Nat) (s : State) : State :=
  match s.cmd slot seq, s.queue slot with
  | some c, some q =>
    let need := if c.opcode = opLaunch then 16 else 1
    if s.fepRuns && c.stage == .relocated && q.read.toNat == seq && q.stopCause == 0 && !q.abortLatched
        && (s.inst c.inst).genWait.isEmpty && s.instWorks c.inst && decide (s.inflight slot < 32)
        && s.ringSpace slot q need then
      if c.opcode = opPatch then
        if (tabVals s.cmds).any (fun x => x.opcode == opLaunch && x.stage == .relocated && x.inst == c.inst
            && x.graph == c.graph) then s
        else s.acceptPatch c
      else if c.cb.isEmpty then (s.acceptCmd c need none).settleRefused slot
      else match s.poolSlot c.contract with
        | some p => (s.acceptCmd c need (some p)).settleRefused slot
        | none => s
    else s
  | _, _ => s

/-- ACCEPTANCE_POINT (R17). -/
def execAcceptancePoint (slot : Fin 512) (seq : BitVec 32) (s : State) : Result :=
  .next (acceptancePoint slot seq.toNat s)

-- Stage 6 (R121, R129, R130) ---------------------------------------------------------------------------------------

/-- The command is at stage 6 and no earlier command of its queue is held there (R121). -/
def State.headOfSix (s : State) (c : Cmd) : Bool :=
  c.accepted && !c.cancelled && (s.earlier c).all (fun x => x.stage != .waiting && x.stage != .passed
    && x.stage != .checked && x.stage != .relocated)

/-- Every earlier command of the queue has its completion record (R123, R125). -/
def State.earlierDone (s : State) (c : Cmd) : Bool := (s.earlier c).isEmpty

/-- FENCE allows execution (R123). -/
def State.fenceOk (s : State) (c : Cmd) : Bool := !c.fence || s.earlierDone c

/-- A stage-6 command of opcode `op` that may act now. -/
def State.sixReady (s : State) (slot seq op : Nat) : Option Cmd :=
  match s.cmd slot seq with
  | some c => if s.fepRuns && c.opcode == op && c.stage == .waiting && s.headOfSix c && s.instWorks c.inst then some c
      else none
  | none => none

/-- NOP (R125): completes with OK, behind a FENCE after the earlier commands. -/
def execNop (slot : Fin 512) (seq : BitVec 32) (s : State) : Result :=
  match s.sixReady slot seq.toNat opNop with
  | some c => .next (if s.fenceOk c then (s.onThread 4 (some (c.slot, c.seq))).setCmd (finishCmd (beginCmd c s.now) St.ok 0) else s)
  | none => .next s

/-- BARRIER (R125): completes once every earlier command of its queue has its record. -/
def execBarrier (slot : Fin 512) (seq : BitVec 32) (s : State) : Result :=
  match s.sixReady slot seq.toNat opBarrier with
  | some c => .next (if s.earlierDone c then (s.onThread 4 (some (c.slot, c.seq))).setCmd (finishCmd (beginCmd c s.now) St.ok 0) else s)
  | none => .next s

/-- SIGNAL (R129): after every earlier command has completed its outcome is decided; the value is raised once its
record is acknowledged (R24). -/
def execSignal (slot : Fin 512) (seq : BitVec 32) (s : State) : Result :=
  match s.sixReady slot seq.toNat opSignal with
  | some c =>
    if s.earlierDone c then
      match c.sigSem with
      | some (i, v) => .next ((s.onThread 4 (some (c.slot, c.seq))).setCmd (finishCmd (beginCmd c s.now) (if v > (s.sem c.inst i).value.toNat then St.ok else St.semNoChange) 0))
      | none => .next s
    else .next s
  | none => .next s

/-- Scoreboard entries in use, and entries admitted contracts hold in reserve (R130). -/
def State.sbUsed (s : State) : Nat := ((tabVals s.cmds).filter (·.inScoreboard)).length
def State.sbReserve (s : State) (id : Nat) : Nat :=
  (s.contracts.filter (fun e => e.1 != id && !((tabVals s.cmds).any (fun c => c.contract == e.1 && c.inScoreboard)))).length

/-- A scoreboard entry is free for a command of contract `id` (0 for none). -/
def State.sbFree (s : State) (id : Nat) : Bool := decide (s.sbUsed + s.sbReserve id < 1024)

/-- The entry that contract `id` holds in reserve is free (R130). -/
def State.sbOwn (s : State) (id : Nat) : Bool :=
  (tabGet s.contracts id).isSome && !((tabVals s.cmds).any (fun c => c.contract == id && c.inScoreboard))

/-- The command of this slot and SEQ still waits at stage 6 for a scoreboard entry. -/
def State.sbWaits (s : State) (e : Nat × Nat) : Bool :=
  match s.cmd e.1 e.2 with
  | some c => c.stage == .waiting && !c.cancelled && !c.inScoreboard
  | none => false

/-- The command that came to stage 6 first of those that wait for an entry (R130). -/
def State.sbFirst (s : State) : Option (Nat × Nat) := s.fep.sbFifo.find? s.sbWaits

/-- A command may take an entry now: its contract's reserved one, or a free one when no other command came to stage 6 before it
and still waits (R130). -/
def State.sbTurn (s : State) (c : Cmd) : Bool :=
  s.sbFree c.contract && (s.sbOwn c.contract || s.sbFirst.all (· == (c.slot, c.seq)))

/-- The command waits for no entry any more. -/
def State.sbLeave (s : State) (slot seq : Nat) : State :=
  { s with fep := { s.fep with sbFifo := s.fep.sbFifo.filter (· != (slot, seq)) } }

/-- The poisoned end of a waiting command: DEP_ABORTED with P, and its own semaphore poisoned (R130, R388). -/
def State.depAbort (s : State) (c : Cmd) (p : BitVec 64) : State :=
  let s1 := s.endCmd c St.depAborted p
  match c.sigSem with
  | some (j, v) => (s1.setSem c.inst j (poisonSem (s1.sem c.inst j) v)).wake c.inst j s1.wakeFuel
  | none => s1

/-- A command with a wait at stage 6: passes, ends by poisoning, takes a scoreboard entry, or waits for one in order
of arrival (R130). -/
def State.resolveWait (s : State) (c : Cmd) : State :=
  match c.waitSem with
  | none => s.setCmd (if c.opcode = opWait then finishCmd (beginCmd c s.now) St.ok 0 else { c with stage := .passed })
  | some (i, w) =>
    match waitRes (s.sem c.inst i) w with
    | .satisfied =>
      s.setCmd (if c.opcode = opWait then finishCmd (beginCmd c s.now) St.ok 0
        else { c with stage := .passed, waitSem := none, inScoreboard := false })
    | .poisoned p => s.depAbort c p
    | .waits =>
      let t := semTimeoutUs c.bytes
      let c1 := { c with waitUntil := if c.opcode = opWait ∧ t ≠ 0 then some (c.stage6At + t * 1000) else none }
      if c.inScoreboard then s
      else if s.sbTurn c then (s.sbLeave c.slot c.seq).setCmd { c1 with inScoreboard := true }
      else
        let s1 := s.setCmd c1
        if s1.fep.sbFifo.contains (c.slot, c.seq) then s1
        else { s1 with fep := { s1.fep with sbFifo := s1.fep.sbFifo ++ [(c.slot, c.seq)] } }

/-- WAIT (R129): its time at stage 6 starts when it is first the command that holds its queue there; a FENCE holds it until the
earlier commands have their records (R123). -/
def execWait (slot : Fin 512) (seq : BitVec 32) (s : State) : Result :=
  match s.sixReady slot seq.toNat opWait with
  | some c => .next (if s.fenceOk c then (s.onThread 4 (some (c.slot, c.seq))).resolveWait c else s)
  | none => .next s

/-- LAUNCH_GRAPH (R128, R129): the embedded wait of a launch at stage 6. -/
def execLaunchGraph (slot : Fin 512) (seq : BitVec 32) (s : State) : Result :=
  match s.sixReady slot seq.toNat opLaunch with
  | some c => .next ((s.onThread 4 (some (c.slot, c.seq))).resolveWait c)
  | none => .next s

/-- SCOREBOARD_ADMIT (R130): the oldest command that waits for an entry takes a free one, or passes when its semaphore already
satisfies it. -/
def scoreboardAdmit (s : State) : State :=
  match s.sbFirst with
  | none => s
  | some (a, b) =>
    match s.cmd a b with
    | none => s
    | some c =>
      match c.waitSem with
      | none => s.sbLeave a b
      | some (i, w) =>
        if waitRes (s.sem c.inst i) w != .waits || s.sbFree c.contract then (s.resolveWait c).sbLeave a b else s

/-- SCOREBOARD_ADMIT (R130). -/
def execScoreboardAdmit (s : State) : Result := .next (if s.fepRuns then scoreboardAdmit s else s)

/-- WAIT_TIMEOUT (R126): the WAIT's TIMEOUT_US has passed at stage 6. -/
def execWaitTimeout (slot : Fin 512) (seq : BitVec 32) (s : State) : Result :=
  match s.cmd slot seq.toNat with
  | some c =>
    match c.waitUntil with
    | some t => .next (if s.fepRuns && c.stage == .waiting && !c.cancelled && s.instWorks c.inst && decide (t ≤ s.now) then
        (s.sbLeave c.slot c.seq).setCmd (finishCmd c St.waitTimeout 0) else s)
    | none => .next s
  | none => .next s

-- Stage 7 (R20, R167, R169) ------------------------------------------------------------------------------------------

/-- Priority-queue entries in use, and those of them that are contracts' reserved ones. -/
def State.pqUsed (s : State) : Nat := ((tabVals s.cmds).filter (fun c => c.pqEntry.isSome)).length
def State.pqReservedUsed (s : State) : Nat := ((tabVals s.cmds).filter (fun c => c.pqEntry == some true)).length

/-- The entry a ready command may take: its contract's reserved one when it is not early and that entry is free,
otherwise an unreserved one (R20, R169). -/
def State.pqChoice (s : State) (c : Cmd) : Option Bool :=
  if c.contract ≠ 0 && !c.early && (tabGet s.contracts c.contract).isSome
      && !((tabVals s.cmds).any (fun x => x.contract == c.contract && x.pqEntry == some true)) then some true
  else if s.pqUsed - s.pqReservedUsed < 256 - s.heldContracts then some false
  else none

/-- A command that has ended stage 6 and goes through the priority queue. -/
def State.pqReady (s : State) (c : Cmd) : Bool :=
  if c.opcode = opLaunch then c.stage == .passed && !c.cancelled
  else (c.opcode == opCopy || c.opcode == opFill) && c.stage == .waiting && s.headOfSix c

/-- The class a command enters the priority queue in: a launch whose contract is SUSPENDED by then takes its queue's (R167,
R199, R202). -/
def State.entryClass (s : State) (c : Cmd) : Nat :=
  match tabGet s.contracts c.contract, s.queue c.slot with
  | some k, some q => if c.cls = 0 ∧ k.state = .suspended then q.desc.cls else c.cls
  | _, _ => c.cls

/-- PRIORITY_QUEUE_INSERT: class 1 to 3 entries take DEVTIME at entry as their key (R167). -/
def priorityQueueInsert (slot seq : Nat) (s : State) : State :=
  match s.cmd slot seq with
  | none => s
  | some c =>
    if s.fepRuns && s.pqReady c && s.instWorks c.inst then
      match s.pqChoice c with
      | some r =>
        let k := if s.entryClass c = 0 then c.key else s.now
        (s.onThread 4 (some (slot, seq))).setCmd { c with stage := .queued, pqEntry := some r, cls := s.entryClass c, key := k }
      | none => s
    else s

/-- PRIORITY_QUEUE_INSERT (R169). -/
def execPriorityQueueInsert (slot : Fin 512) (seq : BitVec 32) (s : State) : Result :=
  .next (priorityQueueInsert slot seq.toNat s)

-- Commands the FEP executes itself (R127, R87, R150) ----------------------------------------------------------------

/-- An access of the FEP for a command ended with a fault: guilty for a translation fault, else its status (R81). -/
def State.fepFault (s : State) (c : Cmd) (f : XFault) (write : Bool) : State :=
  let s1 := (s.resetStream (512 + c.chan.getD 0)).mmuFault c.inst f write 0 0 c.slot c.seq
  if St.isGuilty f.status then s1.cmdGuilty c f.status
  else s1.setCmd { finishCmd c f.status 0 with chan := none }

/-- Two extents of one DVA space share a byte. -/
def overlap (a b len : Nat) : Bool := decide (a < b + len ∧ b < a + len)

/-- The bytes a COPY writes: its source's; where source and destination overlap the manual does not give the result,
and they are free (log entry 14). -/
def copyBytes (c : Cmd) (bs : List Byte) (s : State) : List Byte × State :=
  match c.dvas with
  | [src, dst] => if overlap src dst bs.length then freeBytes bs.length s else (bs, s)
  | _ => (bs, s)

/-- A command on copy channel `ch` ends well: the channel is free. -/
def State.chanDone (s : State) (c : Cmd) (ch : Nat) : State :=
  (s.resetStream (512 + ch)).setCmd { finishCmd c St.ok 0 with chan := none }

/-- COPY: the granted copy channel reads the source extent and writes the destination (R127). Bytes of host memory are those
its requests have brought; an error response ends it (18 R380). -/
def copyRun (c : Cmd) (ch : Nat) (s : State) : State :=
  match c.dvas with
  | [src, dst] =>
    match s.streamErr (512 + ch) with
    | some st => s.fepFault c ⟨st, src, 0⟩ false
    | none =>
      match s.readDva c.inst src (field c.bytes 32 8) (s.hostBytes (512 + ch)) with
      | .short => s
      | .fault f => s.fepFault c f false
      | .bytes bs _ =>
        let r := copyBytes c bs (s.chargeRead c.inst src (field c.bytes 32 8))
        match r.2.writeDva c.inst dst r.1 with
        | (t, some f) => t.fepFault c f true
        | (t, none) => t.chanDone c ch
  | _ => s

/-- A COPY or FILL that executes on a copy channel whose requests have all been answered, and whose instance has not spent its
private-memory share (R79, R127). -/
def State.onChannel (s : State) (slot seq op : Nat) : Option (Cmd × Nat) :=
  match s.cmd slot seq with
  | some c =>
    match c.chan with
    | some ch =>
      if s.fepRuns && c.opcode == op && c.stage == .executing && !c.cancelled && (s.fepOut (512 + ch)).isEmpty
          && !s.privSpent c.inst then some (c, ch) else none
    | none => none
  | none => none

/-- COPY (R127). -/
def execCopy (slot : Fin 512) (seq : BitVec 32) (s : State) : Result :=
  match s.onChannel slot seq.toNat opCopy with
  | some (c, ch) => .next (copyRun c ch s)
  | none => .next s

/-- The pattern repeated over `len` bytes, a multiple of 4 (R126). -/
def fillBytes (pattern len : Nat) : List Byte := (List.replicate (len / 4) (leBytes 4 pattern)).flatten

/-- FILL: the granted copy channel writes the pattern over the extent (R127). -/
def execFill (slot : Fin 512) (seq : BitVec 32) (s : State) : Result :=
  match s.onChannel slot seq.toNat opFill with
  | some (c, ch) => .next (match c.dvas with
      | [dst] =>
        match s.streamErr (512 + ch) with
        | some st => s.fepFault c ⟨st, dst, 0⟩ true
        | none =>
          match s.writeDva c.inst dst (fillBytes (field c.bytes 12 4) (field c.bytes 24 8)) with
          | (t, some f) => t.fepFault c f true
          | (t, none) => t.chanDone c ch
      | _ => s)
  | none => .next s

/-- An accepted handle command whose stage-5 effect is due: every earlier handle command has had its own, and a FENCE is met
(R90, R123). -/
def State.handleReady (s : State) (slot seq op : Nat) : Option Cmd :=
  match s.cmd slot seq with
  | some c => if s.fepRuns && c.opcode == op && c.accepted && c.stage == .waiting && !c.effectDone && !c.cancelled
      && s.instWorks c.inst && s.fenceOk c && (s.earlier c).all (fun x => !isHandleCmd x || x.effectDone) then
      some (beginCmd c s.now) else none
  | none => none

/-- Entry `i` of instance `n`'s handle table written; the FEP's cache drops it (R90), and the words it lies in hold no error
any more. -/
def State.setHandle (s : State) (n i : Nat) (h : Handle) : State :=
  let s1 := s.updInst n (fun t => { t with handles := tabSet t.handles i h })
  { s1 with fep := { s1.fep with hcache := s1.fep.hcache.filter (fun e => e.1 != n * 4096 + i) }
            mem := { s1.mem with bad := clearBad s1.mem.bad (handleAddr n i) 16 } }

/-- HANDLE_BIND (R87, R127): BASE, SIZE, RD, WR written and BOUND set, GEN kept; the new handle in RESULT. -/
def execHandleBind (slot : Fin 512) (seq : BitVec 32) (s : State) : Result :=
  match s.handleReady slot seq.toNat opHandleBind with
  | some c =>
    let i := bits (field c.bytes 8 2) 11 0
    let h := s.handle c.inst i
    if h.bound then .next (s.setCmd { finishCmd c St.handleBusy 0 with effectDone := true })
    else
      let h1 : Handle := { base := field c.bytes 16 6, size := field c.bytes 24 5, gen := h.gen,
                           rd := bit (field c.bytes 8 2) 12, wr := bit (field c.bytes 8 2) 13, bound := true }
      .next ((s.setHandle c.inst i h1).setCmd
        { finishCmd c St.ok ((handleValue i h.gen).setWidth 64) with effectDone := true })
  | none => .next s

/-- HANDLE_FREE (R87, R127): a bound entry whose generation matches is freed, its GEN advanced. -/
def execHandleFree (slot : Fin 512) (seq : BitVec 32) (s : State) : Result :=
  match s.handleReady slot seq.toNat opHandleFree with
  | some c =>
    let i := bits (field c.bytes 8 2) 11 0
    let h := s.handle c.inst i
    if !h.bound || h.gen != field c.bytes 10 4 / 4096 then
      .next (s.setCmd { finishCmd c St.handleStale 0 with effectDone := true })
    else .next ((s.setHandle c.inst i (freeHandle h)).setCmd { finishCmd c St.ok 0 with effectDone := true })
  | none => .next s

/-- Copy-engine channels in use, 0 to 3 (R127): a command holds one until it has ended, and its reads until they are answered. -/
def State.chansUsed (s : State) : List Nat :=
  (tabVals s.cmds).filterMap (·.chan) ++ (List.range 4).filter (fun ch => !(s.fepOut (512 + ch)).isEmpty)

/-- `k` free store pages, lowest first, when there are so many. -/
def freePages (used : List Nat) (lo total : Nat) : Nat → Option (List Nat)
  | 0 => some []
  | k + 1 =>
    match lowestFree used lo (total - lo) with
    | none => none
    | some p => (freePages used (p + 1) total k).map (p :: ·)

/-- The patchable region with the patched bytes in place (R150). -/
def patched (old : List Byte) (target : Nat) (new : List Byte) : List Byte := patchAt old target new

/-- The new page map of a PATCH: touched pages named anew, the rest shared (R146, R150). -/
def newPageMap (old : List Nat) (lo hi : Nat) (fresh : List Nat) : List Nat :=
  old.take lo ++ fresh ++ old.drop (hi + 1)

/-- Store pages written with consecutive 256-byte pieces of `bs`. -/
def State.putPages (s : State) : List Nat → List Byte → State
  | [], _ => s
  | p :: t, bs => State.putPages { s with pages := tabSet s.pages p (padTo 256 (bs.take 256)) } t (bs.drop 256)

/-- The version a PATCH would make meets R58 and R141's patchable-region rules (check 4 of R144 and step 3 of R150):
every descriptor a variant names is legal, its MEMBERS that of the variant's shape, and resident weights stay below
the landing ring. -/
def streamsOk (f : GraphFixed) (region : List Byte) : Bool :=
  f.variants.all (fun v => match v.skimOff with
    | none => true
    | some o => match parseStream ((region.drop o).take 32) with
      | none => false
      | some d => d.members == (if v.shape = 0 then 1 else if v.shape = 1 then 2 else 4)
          && decide (v.resMember ≤ 0x3F0000))

/-- Steps 2 to 4 of R150 for the holder of the patch build. -/
def State.buildPatch (s : State) (c : Cmd) (g : Graph) (cur : GVersion) (src : List Byte) : State :=
  let tgt := field c.bytes 24 4
  let lo := tgt / 256
  let hi := (tgt + src.length - 1) / 256
  let k := hi + 1 - lo
  let quota := (s.inst c.inst).limits.storeKiB * 4
  let fail (st : Status) : State :=
    ((s.setGraph c.inst c.graph { g with builder := none }).refuse { c with chan := none } st)
  if s.storeCharge c.inst + k > quota then fail St.graphStoreFull
  else match freePages (tabKeys s.pages) 0 s.storePages k with
    | none => fail St.graphStoreFull
    | some fresh =>
      let region := patched (s.patchBytes cur) tgt src
      if !streamsOk g.fixed region then fail St.graphLimits
      else
        let s1 := s.putPages fresh ((region.drop (256 * lo)).take (256 * k))
        s1.setCmd { c with built := some (newPageMap cur.pages lo hi fresh), chan := none }

/-- An access to the source of a PATCH ended with an error: its build passes on, and the status ends it, guilty where R139
makes it so (R150). -/
def State.patchFault (s : State) (c : Cmd) (g : Graph) (ch : Nat) (f : XFault) : State :=
  let s1 := (((s.setGraph c.inst c.graph { g with builder := none }).resetStream (512 + ch)).setCmd { c with chan := none }).mmuFault
    c.inst f false 0 0 c.slot c.seq
  if St.isGuilty f.status then s1.cmdGuilty { c with chan := none } f.status else s1.refuse { c with chan := none } f.status

/-- The holder of the build works on copy channel `ch` (R150 steps 2 to 4): it reads its source, then takes its pages. Where
the source faults and the store is full, the source's status wins, for the model reads first; R150 gives no order within step 2
(DESIGN CHOICE, log entry 80). -/
def State.patchBuild (s : State) (c : Cmd) (g : Graph) (cur : GVersion) (ch : Nat) : State :=
  if !(s.fepOut (512 + ch)).isEmpty || s.privSpent c.inst then s
  else
    match s.streamErr (512 + ch) with
    | some st => s.patchFault c g ch ⟨st, c.dvas.headD 0, 0⟩
    | none =>
      match s.readDva c.inst (c.dvas.headD 0) (field c.bytes 28 4) (s.hostBytes (512 + ch)) with
      | .short => s
      | .fault f => s.patchFault c g ch f
      | .bytes bs _ =>
        ((s.resetStream (512 + ch)).chargeRead c.inst (c.dvas.headD 0) (field c.bytes 28 4)).buildPatch c g cur bs

/-- PATCH: a relocated PATCH takes its graph's build in its turn when no other holds it, at most 7 versions live, a copy
channel is free and its FENCE is met, and builds its pages; otherwise it waits (R123, R127, R150, R151). -/
def patchRun (c : Cmd) (s : State) : State :=
  match s.graph c.inst c.graph with
  | none => s.refuse c St.badGraph
  | some g =>
    match g.current.bind (graphVersion? g) with
    | none => (s.dropBuild c).refuse { c with built := none, chan := none } St.badGraph
    | some cur =>
      if c.built.isSome then s
      else
        match c.chan with
        | some ch => s.patchBuild c g cur ch
        | none =>
          let ws := if g.waiters.contains (c.slot, c.seq) then g.waiters else g.waiters ++ [(c.slot, c.seq)]
          match lowestFree s.chansUsed 0 4 with
          | some ch =>
            if g.builder.isSome || ws.head? != some (c.slot, c.seq) || decide (g.versions.length > 7) || !s.fenceOk c then
              s.setGraph c.inst c.graph { g with waiters := ws }
            else
              let g1 := { g with builder := some (c.slot, c.seq), waiters := ws.filter (· != (c.slot, c.seq)) }
              let c1 := { beginCmd c s.now with chan := some ch }
              State.patchBuild (((s.setGraph c.inst c.graph g1).resetStream (512 + ch)).setCmd c1) c1 g1 cur ch
          | none => s.setGraph c.inst c.graph { g with waiters := ws }

/-- PATCH (R150). -/
def execPatch (slot : Fin 512) (seq : BitVec 32) (s : State) : Result :=
  match s.cmd slot seq.toNat with
  | some c => .next (if s.fepRuns && c.opcode == opPatch && c.stage == .relocated then patchRun c s else s)
  | none => .next s

-- Stage 10 (R24, R25, R131 to R133) -----------------------------------------------------------------------------------

/-- Records a command writes: one, or one per replica launch of a GANG launch (R57, R131, R158). -/
def recordsOf (c : Cmd) : Nat := if c.relay || c.replicas.isEmpty then 1 else c.replicas.length

/-- The replica whose record is the `k`-th, ascending by index. -/
def replicaAt (c : Cmd) (k : Nat) : Option Replica :=
  if c.relay then none else (c.replicas.mergeSort (fun a b => decide (a.idx ≤ b.idx)))[k]?

/-- The contract that a launch runs under: one of its own instance and graph that it names and that it was not refused for
(R128). -/
def State.contractOf (s : State) (c : Cmd) : Option Contract :=
  if c.contract = 0 ∨ c.status = St.contractMismatch then none
  else (tabGet s.contracts c.contract).bind (fun k => if k.inst = c.inst ∧ k.req.graph = c.graph then some k else none)

/-- Lateness in ns of a contracted launch at a record written now; early launches and dropped contracts carry 0
(R25, R186). -/
def State.lateness (s : State) (c : Cmd) : Nat :=
  match s.contractOf c with
  | some k => if !c.early then s.now - (c.release + k.req.deadline) else 0
  | none => 0

/-- The PHASE bit at a count of CPL (R131). -/
def phaseBit (q : Queue) : Nat := (q.cpl.toNat / q.records + 1) % 2

/-- A completion record (R131). -/
def recordBytes (tag : BitVec 32) (st : Status) (opcode phase : Nat) (reset detached saturated late : Bool) (seq replica
    replicas part version time : Nat) (result : BitVec 64) : List Byte :=
  leBytes 4 tag.toNat ++ leBytes 2 st.toNat ++ leBytes 1 opcode
    ++ leBytes 1 (phase + 2 * b2n reset + 4 * b2n detached + 8 * b2n saturated + 16 * b2n late)
    ++ leBytes 4 seq ++ leBytes 1 replica ++ leBytes 1 replicas ++ leBytes 1 part ++ leBytes 1 version
    ++ leBytes 8 time ++ leBytes 8 result.toNat

/-- The leader of a relay's sink: the role with no output edge (R156, R158). -/
def sinkRole (g : GraphFixed) : Nat :=
  ((rolesOf g.roleMask).find? (fun r => !(g.edges.any (fun e => e.src == r)))).getD 0

/-- The next record of a command as it is written now. -/
def State.nextRecord (s : State) (q : Queue) (c : Cmd) : List Byte :=
  let late := s.lateness c
  match replicaAt c c.recordsDone with
  | some r =>
    recordBytes c.tag r.status c.opcode (phaseBit q) false r.detached r.saturated (decide (late > 0)) c.seq r.idx
      c.replicas.length r.leader (c.version % 256) s.now (BitVec.ofNat 64 late)
  | none =>
    let sink := match s.graph c.inst c.graph with
      | some g => (c.replicas.find? (fun r => r.role == sinkRole g.fixed)).map (·.leader) |>.getD 0
      | none => 0
    let sat := c.replicas.any (·.saturated)
    recordBytes c.tag c.status c.opcode (phaseBit q) false (c.replicas.any (·.detached)) sat (decide (late > 0)) c.seq 0 1
      (if c.relay then sink else 0) (if c.opcode = opLaunch then c.version % 256 else 0) s.now
      (if c.status = St.depAborted then c.result else if (s.contractOf c).isSome then BitVec.ofNat 64 late else c.result)

/-- The earlier commands of the queue have their records: each has been acknowledged (R24). -/
def State.recordTurn (s : State) (c : Cmd) : Bool := (s.earlier c).all (fun x => x.cancelled)

/-- The message of a queue after a command's records (R133). -/
def State.queueIrq (s : State) (slot : Nat) (flagged : Bool) : State :=
  match s.queue slot with
  | none => s
  | some q =>
    match q.desc.irqPolicy with
    | 1 => s.msix q.inst q.desc.vector
    | 2 => if flagged then s.msix q.inst q.desc.vector else s
    | 3 =>
      if q.holdoffUntil ≤ s.now then
        (s.updQueue slot (fun q => { q with holdoffUntil := s.now + q.desc.holdoff * 1000, irqHeld := false })).msix
          q.inst q.desc.vector
      else s.updQueue slot (fun q => { q with irqHeld := true })
    | _ => s

/-- Everything after a command's last record: semaphores, mirrors, the message, and what the command held (R24). -/
def State.completeCmd (s : State) (c : Cmd) : State :=
  let s1 := match c.sigSem with
    | some (i, v) => if c.status = St.depAborted || !c.accepted then s else s.signalSem c.inst i v c.slot c.seq
    | none => s
  let s2 := if c.recordLost then s1 else s1.queueIrq c.slot c.irq
  (s2.giveBack c).settleRefused c.slot

/-- The lateness of a record of a contracted launch, zero or positive, posted to the contract log that Topcoat reads (R25, R198,
R199): for every record, and for a suspended contract too. -/
def State.logLate (s : State) (c : Cmd) : State :=
  if (s.contractOf c).isSome ∧ !c.early then
    { s with fep := { s.fep with log := s.fep.log ++ [⟨c.contract, false, s.lateness c, BitVec.ofNat 32 c.seq, c.inst⟩] } }
  else s

/-- A command has ring space for the records it has still to write: its reservation, or, after a QUEUE_RESET has cleared that
(R137), free records beside those reserved; no record is written over one not consumed (R132). -/
def State.recordRoom (s : State) (c : Cmd) (q : Queue) : Bool :=
  c.resv != 0 || (c.accepted && decide (q.freeRecords ≥ s.held c.slot + (recordsOf c - c.recordsDone)))

/-- COMPLETION_RECORD_WRITE: the next record of an ended command goes out in queue order. A stale generation discards
it (R18); a broken queue loses it (R136). -/
def completionRecordWrite (slot seq : Nat) (s : State) : State :=
  match s.cmd slot seq, s.queue slot with
  | some c, some q =>
    if !s.fepRuns || c.stage != .ended || c.cancelled || c.inFlight.isSome || !s.recordTurn c || !s.recordRoom c q
        || (s.inst c.inst).state == .frozen then s
    else if c.accepted && c.gen != (s.inst c.inst).gen then
      (s.giveBack c).updInst c.inst (fun i => { i with stale := satInc i.stale })
    else if q.stopCause = 3 then
      (s.logLate c).completeCmd { c with recordLost := true }
    else
      let a := q.desc.cplBase + 32 * (q.cpl.toNat % q.records)
      let last := decide (c.recordsDone + 1 = recordsOf c)
      let c1 := { c with inFlight := some (a, s.nextRecord q c), stage := if last then .writing else .ended,
                         resv := if last then 0 else c.resv }
      (((s.onThread 6 (some (slot, seq))).logLate c).setCmd c1).updQueue slot
        (fun q => { q with cpl := q.cpl + 1 }.touch)
  | _, _ => s

/-- COMPLETION_RECORD_WRITE (R24). -/
def execCompletionRecordWrite (slot : Fin 512) (seq : BitVec 32) (s : State) : Result :=
  .next (completionRecordWrite slot seq.toNat s)

/-- The end of a record's write: landed in the ring, or the status that ended it. -/
def State.landRecord (s : State) (n : Nat) (a : Nat) (bs : List Byte) (status : Status) : State × Status :=
  if status ≠ St.ok then (s, status)
  else match s.writeDva n a bs with
    | (t, none) => (t, St.ok)
    | (t, some f) => (t.mmuFault n f true 0 0 0x3FF 0, f.status)

/-- RECORD_ACK: a record's write ends with a status; after the last one the command completes (R24, R136). -/
def recordAck (slot seq : Nat) (status : Status) (s : State) : State :=
  match s.cmd slot seq with
  | none => s
  | some c =>
    match c.inFlight with
    | none => s
    | some (a, bs) =>
      if !s.fepRuns || c.cancelled then s
      else
        let r := s.landRecord c.inst a bs status
        let lost := decide (r.2 ≠ St.ok)
        let c1 := { c with inFlight := none, recordsDone := c.recordsDone + 1, recordLost := c.recordLost || lost }
        let s1 := (if lost then r.1.breakQueue slot r.2 else r.1).setCmd c1
        if c1.stage == .writing then s1.completeCmd c1 else s1

/-- RECORD_ACK (R24). -/
def execRecordAck (slot : Fin 512) (seq : BitVec 32) (status : Status) (s : State) : Result :=
  .next (recordAck slot seq.toNat status s)

/-- IRQ_HOLDOFF_EXPIRY (R133): the HOLDOFF interval has ended and a message was held back. -/
def execIrqHoldoffExpiry (slot : Fin 512) (s : State) : Result :=
  match s.queue slot with
  | some q => .next (if q.irqHeld && decide (q.holdoffUntil ≤ s.now) then
      (s.updQueue slot (fun q => { q with irqHeld := false, holdoffUntil := s.now + q.desc.holdoff * 1000 })).msix
        q.inst q.desc.vector else s)
  | none => .next s

/-- Progress time of a command so far, in ns (R135). -/
def State.progress (s : State) (c : Cmd) : Nat :=
  c.progUsed + (match c.progFrom with | some t => s.now - t | none => 0)

/-- The queue's progress limit in ns: PROGRESS_MS, 0 meaning 2,000 (R117). -/
def progressLimit (d : QDesc) : Nat := (if d.progressMs = 0 then 2000 else d.progressMs) * 1000000

/-- PROGRESS_TIMEOUT (R135): the command's progress time has passed without its records; ignored after an abort is
latched (R391). -/
def execProgressTimeout (slot : Fin 512) (seq : BitVec 32) (s : State) : Result :=
  match s.cmd slot seq.toNat, s.queue slot with
  | some c, some q => .next (if c.progFrom.isSome && !c.cancelled && decide (s.progress c ≥ progressLimit q.desc) then
      s.cmdGuilty c St.progressTimeout else s)
  | _, _ => .next s

/-- The RESET record of a guilty queue as it is written now (R131, R134). -/
def Queue.resetBytes (q : Queue) (seq : BitVec 32) (st : Status) (now : Nat) : List Byte :=
  recordBytes (q.guiltyHead.map (·.2) |>.getD 0) st (q.guiltyHead.map (·.1.toNat) |>.getD 0xFF) (phaseBit q) true false false
    false seq.toNat 0 1 0 0 now (BitVec.ofNat 64 q.guiltDiscard)

/-- RESET_RECORD: once the round has ended and every earlier command has its record, the queue enters STOPPED with QUEUE_GUILTY,
and the RESET record is written in the guilty command's place when ring space exists (R134, R132, R390); then its message
(R133). `status` is what ends the write: an error breaks the queue, and a queue broken before loses the record (R136). -/
def resetRecord (slot : Nat) (status : Status) (s0 : State) : State :=
  let s := (s0.onThread 7 none).stopGuilty slot
  match s0.queue slot, s.queue slot with
  | some q0, some q =>
    match q0.guilty with
    | none => s0
    | some (seq, st) =>
      if !s0.fepRuns || q0.resetDone || q0.guiltRound != 3 || !((s0.slotCmds slot).isEmpty) then s0
      else if q.stopCause = 3 then s.updQueue slot (fun q => { q with resetDone := true })
      else if q.freeRecords = 0 then s
      else
        let r := s.landRecord q.inst (q.desc.cplBase + 32 * (q.cpl.toNat % q.records)) (q.resetBytes seq st s.now) status
        let s1 := r.1.updQueue slot (fun q => { q with cpl := q.cpl + 1, resetDone := true }.touch)
        if r.2 = St.ok then s1.queueIrq slot true else s1.breakQueue slot r.2
  | _, _ => s0

/-- RESET_RECORD (R134). -/
def execResetRecord (slot : Fin 512) (status : Status) (s : State) : Result := .next (resetRecord slot status s)

/-- STATUS_WRITE_BACK (R122): READ, CPL and the queue state written to the queue's block, at most once per µs; `status` is what
ends the write, and an error breaks the queue (R136). -/
def statusWriteBack (slot : Nat) (status : Status) (s : State) : State :=
  match s.queue slot with
  | none => s
  | some q =>
    let due := match q.wbAt with
      | some t => decide (t + 1000 ≤ s.now)
      | none => true
    if !s.fepRuns || !q.wbPending || !due || q.desc.statusWb = 0 || (s.inst q.inst).state == .frozen then s
    else
      let bs := leBytes 4 q.read.toNat ++ leBytes 4 q.cpl.toNat ++ leBytes 1 (q.stateCode + 4 * q.causeCode)
        ++ List.replicate 7 0
      let s0 := s.updQueue slot (fun q => { q with wbPending := false, wbAt := some s.now })
      if status ≠ St.ok then s0.breakQueue slot status
      else match s0.writeDva q.inst q.desc.statusWb bs with
        | (t, none) => t
        | (t, some f) => (t.mmuFault q.inst f true 0 0 slot 0).breakQueue slot f.status

/-- STATUS_WRITE_BACK (R122). -/
def execStatusWriteBack (slot : Fin 512) (status : Status) (s : State) : Result := .next (statusWriteBack slot status s)

end Sys2Proof.Machine
end

