-- ==== Sys2Proof/Machine/KeepStore.lean ====
section
/-! DEFINITION. The keep store (19 R399 to R422): its layout, the engine's steps, the calibration record's checks, the
settings copies, patch bundles, bank states, the selector and the trial counter. -/

namespace Sys2Proof.Machine
open Sys2Proof

-- Layout (R400) -----------------------------------------------------------------------------------------------------

def ksCal : Nat := 0x1000
def ksFlag : Nat := 0x2000
def ksSelector (copy : Nat) : Nat := if copy = 1 then 0x3000 else 0x4000
def ksTrial : Nat := 0x5000
def ksSettings (copy : Nat) : Nat := if copy = 0 then 0x6000 else 0x7000
def ksMeta (bank : Nat) : Nat := if bank = 0 then 0x10000 else 0x30000
def ksConfirm (bank : Nat) : Nat := if bank = 0 then 0x11000 else 0x31000
def ksBundle (bank : Nat) : Nat := if bank = 0 then 0x20000 else 0x40000

/-- The sector of an address. -/
def sectorOf (a : Nat) : Nat := a / 4096

/-- A read of these bytes gives what was written: a part answers and no sector they touch was left undefined. -/
def State.keepSound (s : State) (a n : Nat) : Bool :=
  s.keep.fitted && !(s.keep.torn.any (fun k => decide (sectorOf a ≤ k) && decide (k ≤ sectorOf (a + n - 1))))

-- The engine (R401, R402) ----------------------------------------------------------------------------------------------

/-- Cells of a sector removed: every byte of it reads 0xFF. -/
def eraseSector (cells : List Host.Cell) (a : Nat) : List Host.Cell :=
  cells.filter (fun e => sectorOf e.1 != sectorOf a)

/-- Bytes programmed: a page program clears bits and sets none. -/
def programCells (cells : List Host.Cell) (a : Nat) : List Byte → List Host.Cell
  | [] => cells
  | b :: t => programCells (cellWrite keepUnlisted cells a (cellRead keepUnlisted cells a &&& b)) (a + 1) t

/-- The address of a step. -/
def KStep.addr : KStep → Nat
  | .erase a => a
  | .program a _ => a

/-- The step touches sector `k`. -/
def KStep.touches (st : KStep) (k : Nat) : Bool :=
  match st with
  | .erase a => sectorOf a == k
  | .program a d => decide (sectorOf a ≤ k) && decide (k ≤ sectorOf (a + d.length - 1))

/-- One step done; an erased sector is defined again. -/
def Keep.doStep (k : Keep) (st : KStep) : Keep :=
  match st with
  | .erase a => { k with cells := eraseSector k.cells a, torn := k.torn.filter (· != sectorOf a) }
  | .program a d => { k with cells := programCells k.cells a d }

/-- A whole list done. -/
def Keep.doSteps (k : Keep) (l : List KStep) : Keep := l.foldl Keep.doStep k

/-- A list that ends before its step `n`: the earlier ones are done and the sector of that step is undefined (R401,
R402). -/
def Keep.tear (k : Keep) (l : List KStep) (n : Nat) : Keep :=
  let k1 := k.doSteps (l.take n)
  match l.drop n with
  | st :: _ => { k1 with torn := sectorOf st.addr :: k1.torn.filter (· != sectorOf st.addr) }
  | [] => k1

/-- A list that failed at an address of the keep store. -/
def Keep.failAt (k : Keep) (l : List KStep) (a : Nat) : Keep :=
  k.tear l ((l.findIdx? (fun st => st.touches (sectorOf a))).getD 0)

/-- The engine's lists abandoned by a reset or a power loss: how far the one under way came is open (R401, R422; log
entry 2). -/
def State.tearOp (s : State) : State :=
  match s.keep.ops with
  | [] => s
  | op :: _ =>
    let n := (Config.freeWord s.freeCount).toNat % (op.steps.length + 1)
    { s.useFree with keep := { s.keep.tear op.steps n with ops := [] } }

/-- A list given to the engine, behind those it has. -/
def State.startOp (s : State) (code : Nat) (steps : List KStep) : State :=
  { s with keep := { s.keep with ops := s.keep.ops ++ [⟨code, steps⟩] } }

/-- The engine has a list of these operations. -/
def State.keepBusy (s : State) (codes : List Nat) : Bool := s.keep.ops.any (fun op => codes.contains op.code)

/-- Bytes read by the device for itself; none where the part does not answer or a sector is undefined. -/
def State.keepRead? (s : State) (a n : Nat) : Option (List Byte) := if s.keepSound a n then some (s.readKeepN a n) else none

-- The calibration record (R403, R404) -----------------------------------------------------------------------------------

/-- The U16 and I16 at an offset. -/
def u16At (b : List Byte) (o : Nat) : Nat := field b o 2
def i16At (b : List Byte) (o : Nat) : Int := (BitVec.ofNat 16 (field b o 2)).toInt

/-- Every field of the record lies within its rule (R403). -/
def calRanges (b : List Byte) : Bool :=
  let vf (p s : Nat) : Nat := u16At b (0x40 + 106 * p + 2 * s)
  (List.range 16).all (fun p => (List.range 53).all (fun s =>
      decide (500 ≤ vf p s) && decide (vf p s ≤ 850) && (s == 0 || decide (vf p (s - 1) ≤ vf p s))))
    && (List.range 128).all (fun k => decide (1 ≤ field b (0x6E0 + k) 1) && decide (field b (0x6E0 + k) 1 ≤ 63))
    && (List.range 16).all (fun p => decide (-20 ≤ i16At b (0x760 + 2 * p)) && decide (i16At b (0x760 + 2 * p) ≤ 20))
    && (List.range 256).all (fun k => decide (field b (0x780 + k) 1 ≤ 7))
    && (List.range 8).all (fun k => decide (32768 ≤ field b (0x880 + 4 * k) 4) && decide (field b (0x880 + 4 * k) 4 ≤ 131072))

/-- The reason a record fails checks 2 to 5, or 0 (R404). -/
def calReason (b : List Byte) : Nat :=
  if field b 0 4 != 0x4C414331 || field b 4 2 != 1 || field b 6 2 != 0 || !allZero ((b.drop 0x10).take 48)
      || !allZero ((b.drop 0x8A0).take 1884) then 2
  else if field b 0xFFC 4 != (crc32 (b.take 0xFFC)).toNat then 3
  else if field b 8 8 != Config.serial.toNat then 4
  else if !calRanges b then 5
  else 0

/-- CAL_CRC: the CRC of the bytes of the record now in the keep store, free where a sector is undefined (R406; log entry 2). -/
def State.calCrc (s : State) : Nat :=
  if s.keepSound ksCal 4096 then (crc32 (s.readKeepN ksCal 4096)).toNat else (Config.freeWord s.freeCount).toNat

/-- The record taken into force at an L1 exit (R404, R405). -/
def State.loadCal (s : State) : State :=
  match s.keepRead? ksCal 4096 with
  | none => { s with cal := { s.cal with valid := false, reason := if s.keep.fitted then 3 else 1, record := [], written := false } }
  | some b =>
    let r := calReason b
    { s with cal := { s.cal with valid := r == 0, reason := r, record := if r = 0 then b else [], written := false } }

/-- The steps of a record's programming (R406). -/
def State.calSteps (s : State) (b : List Byte) : List KStep :=
  (if s.readKeep ksFlag = 0xFF then [.program ksFlag [0]] else []) ++ [.erase ksCal, .program ksCal b]

-- Settings copies (R408) ---------------------------------------------------------------------------------------------------

/-- SEQ and the entry area of a settings copy, where it is valid. -/
def State.settingsCopy (s : State) (copy : Nat) : Option (Nat × List Byte) :=
  match s.keepRead? (ksSettings copy) 4096 with
  | none => none
  | some b =>
    let seq := field b 0xFF8 4
    if field b 0 4 = 0x53455431 && field b 0xFF4 4 == (crc32 (b.take 0xFF4)).toNat && seq != 0xFFFFFFFF then
      some (seq, (b.drop 8).take (field b 4 4))
    else none

/-- The copy that a load uses: the valid one of the higher SEQ. -/
def State.settingsInUse (s : State) : Option (Nat × List Byte) :=
  match s.settingsCopy 0, s.settingsCopy 1 with
  | some a, some b => if a.1 < b.1 then some b else some a
  | some a, none => some a
  | none, b => b

/-- Entries of an entry area: index, subindex, value. `fuel` counts entries. -/
def settingsEntries : Nat → List Byte → List (Nat × Nat × List Byte)
  | 0, _ => []
  | fuel + 1, b =>
    if b.length < 4 then []
    else
      let n := field b 3 1
      (field b 0 2, field b 2 1, (b.drop 4).take n) :: settingsEntries fuel (b.drop (4 + n))

/-- The steps of a STORE of an entry area: the older copy, its SEQ last (R293, R408), with the new SEQ. -/
def State.storeSteps (s : State) (area : List Byte) : Nat × List KStep :=
  let (copy, seq) := match s.settingsCopy 0, s.settingsCopy 1 with
    | some a, some b => if a.1 < b.1 then (0, b.1 + 1) else (1, a.1 + 1)
    | some a, none => (1, a.1 + 1)
    | none, some b => (0, b.1 + 1)
    | none, none => (0, 1)
  let body := padTo 0xFF4 (leBytes 4 0x53455431 ++ leBytes 4 area.length ++ area)
  (seq, [.erase (ksSettings copy), .program (ksSettings copy) (body ++ leBytes 4 (crc32 body).toNat),
    .program (ksSettings copy + 0xFF8) (leBytes 4 seq)])

-- Patch bundles (R176, R409, R410) --------------------------------------------------------------------------------------------

/-- A section's COUNT, BASE and LEVEL. -/
structure PatchSec where
  count : Nat
  base : Nat
  level : Nat
  deriving DecidableEq, Repr

/-- The header of a section. -/
def secHead (b : List Byte) : PatchSec := ⟨field b 0 2, field b 2 2, field b 4 1⟩

/-- Record addresses of a section with records of `size` bytes. -/
def secAddrs (b : List Byte) (count size : Nat) : List Nat := (List.range count).map (fun k => field b (16 + size * k) 2)

/-- No value twice. -/
def noTwice (l : List Nat) : Bool := l.eraseDups.length == l.length

/-- A FEP section keeps R176's limits: COUNT, reserved fields, distinct addresses. -/
def fepSecOk (b : List Byte) : Bool :=
  let h := secHead b
  decide (h.count ≤ 512) && allZero ((b.drop 5).take 11)
    && (List.range h.count).all (fun k => decide (field b (16 + 24 * k) 2 < 4096) && allZero ((b.drop (16 + 24 * k + 2)).take 6))
    && noTwice (secAddrs b h.count 24)

/-- A sequencer section keeps the same limits with its own fields (R410). -/
def seqSecOk (b : List Byte) : Bool :=
  let h := secHead b
  decide (h.count ≤ 1024) && allZero ((b.drop 5).take 11)
    && (List.range h.count).all (fun k => decide (field b (16 + 16 * k) 2 < 1024) && field b (16 + 16 * k + 15) 1 == 0)
    && noTwice (secAddrs b h.count 16)

/-- The FEP and the sequencer section of a bundle. -/
def fepSec (b : List Byte) : List Byte := (b.drop (field b 12 4)).take (field b 16 4)
def seqSec (b : List Byte) : List Byte := (b.drop (field b 20 4)).take (field b 24 4)

/-- Bytes of the bundle outside its header and sections are zero. -/
def outsideZero (b : List Byte) : Bool :=
  let f0 := field b 12 4
  let f1 := f0 + field b 16 4
  let s0 := field b 20 4
  let s1 := s0 + field b 24 4
  b.zipIdx.all (fun e => e.1 == 0 || decide (e.2 < 512) || (decide (f0 ≤ e.2) && decide (e.2 < f1))
    || (decide (s0 ≤ e.2) && decide (e.2 < s1)))

/-- The rules of R409 and R410 with the limits of R176 (check 2 of R417). -/
def bundleOk (b : List Byte) : Bool :=
  let total := field b 8 4
  let fo := field b 12 4
  let fl := field b 16 4
  let so := field b 20 4
  let sl := field b 24 4
  field b 0 4 == 0x42544150 && field b 4 2 == 1 && field b 6 1 != 0 && field b 7 1 == 0
    && decide (544 ≤ total) && decide (total ≤ 65536) && total % 16 == 0 && decide (total ≤ b.length)
    && fo % 16 == 0 && decide (512 ≤ fo) && decide (16 ≤ fl) && decide (fl ≤ 16384) && so % 16 == 0 && decide (512 ≤ so)
    && decide (16 ≤ sl) && decide (fo + fl ≤ total) && decide (so + sl ≤ total) && (decide (fo + fl ≤ so) || decide (so + sl ≤ fo))
    && fl == 16 + 24 * (secHead (fepSec b)).count && sl == 16 + 16 * (secHead (seqSec b)).count
    && allZero ((b.drop 28).take 36) && allZero ((b.drop 0xA1).take 31) && allZero ((b.drop 0x120).take 224)
    && (secHead (fepSec b)).level == field b 6 1 && (secHead (seqSec b)).level == field b 6 1
    && fepSecOk (fepSec b) && seqSecOk (seqSec b) && outsideZero b

/-- A byte string with its SIG field as zero bytes (R318, R409). -/
def sigZeroed (b : List Byte) : List Byte := b.take 0xC0 ++ List.replicate 96 0 ++ b.drop 0x120

/-- Checks 4 and 5 of R417: the key's hash and the signature over the first `n` bytes. -/
def keyOk (b : List Byte) : Bool := Config.sha384 ((b.drop 0x40).take 97) == Config.keyHash
def sigOk (b : List Byte) (n : Nat) : Bool :=
  Config.ecdsaOk ((b.drop 0x40).take 97) (Config.sha384 (sigZeroed (b.take n))) ((b.drop 0xC0).take 96)

-- Banks (R411, R412) ---------------------------------------------------------------------------------------------------------

/-- LENGTH, BCRC and LEVEL of a bank's header, where it is valid (R411). -/
def State.bankHeader (s : State) (k : Nat) : Option (Nat × Nat × Nat) :=
  match s.keepRead? (ksMeta k) 32 with
  | none => none
  | some b => if field b 0 4 = 0x4B4E4142 && field b 28 4 == (crc32 (b.take 28)).toNat then
      some (field b 4 4, field b 8 4, field b 12 1) else none

/-- The bank's verify word is valid and repeats the header's BCRC. -/
def State.bankVerified (s : State) (k : Nat) : Bool :=
  match s.bankHeader k, s.keepRead? (ksMeta k + 0x100) 16 with
  | some (_, bcrc, _), some b => field b 0 4 == 0x56524659 && field b 4 4 == bcrc && field b 12 4 == (crc32 (b.take 12)).toNat
  | _, _ => false

/-- The verify word is valid by itself. -/
def State.verifyWordValid (s : State) (k : Nat) : Bool :=
  match s.keepRead? (ksMeta k + 0x100) 16 with
  | some b => field b 0 4 == 0x56524659 && field b 12 4 == (crc32 (b.take 12)).toNat
  | none => false

/-- Both confirm words are exact. -/
def State.bankConfirmed (s : State) (k : Nat) : Bool :=
  match s.keepRead? (ksConfirm k) 8 with
  | some b => field b 0 4 == 0x43464D31 && field b 4 4 == 0x43464D32
  | none => false

/-- One selector copy: SEQ, ACTIVE, PREVIOUS (R413). -/
def State.selectorCopy (s : State) (c : Nat) : Option (Nat × Nat × Nat) :=
  match s.keepRead? (ksSelector c) 32 with
  | none => none
  | some b => if field b 0 4 = 0x53454C31 && field b 28 4 == (crc32 (b.take 28)).toNat then
      some (field b 4 4, field b 8 1, field b 9 1) else none

/-- The selector in use (R413). -/
def State.selector (s : State) : Option (Nat × Nat × Nat) :=
  match s.selectorCopy 1, s.selectorCopy 2 with
  | some a, some b => if a.1 < b.1 then some b else some a
  | some a, none => some a
  | none, b => b

/-- The bank that the selector in use names, when it names one. -/
def State.selected (s : State) : Option Nat :=
  match s.selector with
  | some (_, a, _) => if a ≤ 1 then some a else none
  | none => none

/-- The inactive bank (R414). -/
def State.inactive (s : State) : Nat := match s.selected with | some 0 => 1 | _ => 0

/-- The state of a bank (R412). -/
def State.bankState (s : State) (k : Nat) : Nat :=
  if (s.bankHeader k).isNone then 0
  else if !s.verifyWordValid k then 1
  else if !s.bankVerified k then 1
  else if s.bankConfirmed k then 4
  else if s.selected = some k then 3
  else 2

/-- The selected bank is in trial. -/
def State.inTrial (s : State) : Bool := match s.selected with | some k => s.bankState k == 3 | none => false

/-- Ones among the low three bits. -/
def ones3 (n : Nat) : Nat := n % 2 + n / 2 % 2 + n / 4 % 2

/-- The trial counter's COUNT, when its record is valid for the selector in use (R414). -/
def State.trialCount (s : State) : Option Nat :=
  match s.keepRead? ksTrial 16, s.selector with
  | some b, some (seq, _, _) =>
    if field b 0 4 = 0x54524C31 && field b 8 4 == (crc32 (b.take 8)).toNat && field b 4 4 == seq then some (field b 12 4 % 8) else none
  | _, _ => none

/-- TRIAL_LEFT while the selected bank is in trial (R414). -/
def State.trialLeft (s : State) : Nat := if s.inTrial then (s.trialCount.map ones3).getD 3 else 0

/-- A selector record (R413). -/
def selectorRecord (seq active previous : Nat) : List Byte :=
  let b := padTo 28 (leBytes 4 0x53454C31 ++ leBytes 4 seq ++ leBytes 1 active ++ leBytes 1 previous)
  b ++ leBytes 4 (crc32 b).toNat

/-- The steps that write the selector (R413). -/
def State.selectorSteps (s : State) (active previous : Nat) : List KStep :=
  let r := selectorRecord ((s.selector.map (·.1)).getD 0 + 1) active previous
  [.erase (ksSelector 1), .program (ksSelector 1) r, .erase (ksSelector 2), .program (ksSelector 2) r]

/-- A fresh trial-counter record for a selector SEQ (R414). -/
def trialRecord (seq : Nat) : List Byte :=
  let b := leBytes 4 0x54524C31 ++ leBytes 4 seq
  b ++ leBytes 4 (crc32 b).toNat ++ leBytes 4 0xFFFFFFFF

/-- The bytes of a bank's bundle. -/
def State.bundleBytes (s : State) (k : Nat) : List Byte :=
  s.readKeepN (ksBundle k) (min 65536 ((s.bankHeader k).map (·.1) |>.getD 0))

/-- BCRC of the bytes read equals the header's (R417 check 1). -/
def State.bcrcOk (s : State) (k : Nat) : Bool :=
  match s.bankHeader k with
  | some (len, bcrc, _) => s.keepSound (ksBundle k) (max 1 (min 65536 len)) && (crc32 (s.bundleBytes k)).toNat == bcrc
  | none => false

/-- The outcome of checks 1 to 6 of R417. -/
def State.verifyBank (s : State) (k : Nat) : Status :=
  let b := s.bundleBytes k
  if !s.bcrcOk k || !bundleOk b then St.bundleFormat
  else if (secHead (fepSec b)).base ≠ Config.fepBase.toNat || (secHead (seqSec b)).base ≠ Config.seqBase.toNat then St.bundleBase
  else if !keyOk b then St.bundleKey
  else if !sigOk b (field b 8 4) then St.bundleSignature
  else if field b 6 1 < Config.minPatchLevel then St.bundleLevel
  else St.ok

-- Boot selection (R420) -------------------------------------------------------------------------------------------------------

/-- The boot check of a bank. -/
def State.bootCheck (s : State) (k : Nat) : Bool :=
  s.bcrcOk k && s.bankVerified k && keyOk (s.bundleBytes k) && sigOk (s.bundleBytes k) (field (s.bundleBytes k) 8 4)

/-- The records of a FEP section and of a sequencer section, by store address (R176, R410). -/
def fepRecords (b : List Byte) : Tab (BitVec 128) :=
  (List.range (secHead b).count).foldl (fun t k => tabSet t (field b (16 + 24 * k) 2) (BitVec.ofNat 128 (field b (16 + 24 * k + 8) 16))) []
def seqRecords (b : List Byte) : Tab (BitVec 104) :=
  (List.range (secHead b).count).foldl (fun t k => tabSet t (field b (16 + 16 * k) 2) (BitVec.ofNat 104 (field b (16 + 16 * k + 2) 13))) []

/-- A bank loaded into the patch buffer and the image buffer; the loader keeps it when R176 allows, and otherwise loads
the base images alone. -/
def State.loadBank (s : State) (bank : Option Nat) (result : Nat) : State :=
  match bank with
  | none => { s with cal := { s.cal with activeBank := 0xFF, loadResult := result, seqWords := [], seqBad := false }
                     fep := { s.fep with fepPatchLevel := 0, patchBank := false, patchPresent := false, words := [], upsets := [],
                                         bufferBad := false } }
  | some k =>
    let b := s.bundleBytes k
    let ok := fepSecOk (fepSec b) && seqSecOk (seqSec b) && (secHead (fepSec b)).base == Config.fepBase.toNat
      && (secHead (seqSec b)).base == Config.seqBase.toNat
    { s with
      cal := { s.cal with activeBank := k, loadResult := if ok || result == 3 then result else 2,
                          seqWords := if ok then seqRecords (seqSec b) else [], seqBad := false }
      fep := { s.fep with fepPatchLevel := if ok then BitVec.ofNat 8 (field b 6 1) else 0, patchBank := ok && k == 1,
                          patchPresent := ok, words := if ok then fepRecords (fepSec b) else [], upsets := [],
                          bufferBad := false } }

/-- Steps of the boot done at once (they run before anything else can act). -/
def State.bootSteps (s : State) (l : List KStep) : State := { s with keep := s.keep.doSteps l }

/-- The revert of R420. -/
def State.revert (s : State) (reason : Nat) : State :=
  let bad := (s.selected).getD 0xFF
  let p := match s.selector with
    | some (_, _, p) => if p ≤ 1 && s.bankConfirmed p && s.bootCheck p then some p else none
    | none => none
  let s1 := s.bootSteps (s.selectorSteps (p.getD 0xFF) 0xFF)
  let s2 := s1.loadBank p 3
  { s2 with cal := { s2.cal with reverted := some (bad, p.getD 0xFF, reason) } }

/-- One trial used: the lowest bit that is 1 is programmed to 0, in a fresh record where the present one is not the
selector's (R414). -/
def State.useTrial (s : State) : State :=
  let seq := (s.selector.map (·.1)).getD 0
  let (s1, c) := match s.trialCount with
    | some c => (s, c)
    | none => (s.bootSteps [.erase ksTrial, .program ksTrial (trialRecord seq)], 7)
  let low := if c % 2 = 1 then 1 else if c / 2 % 2 = 1 then 2 else 4
  s1.bootSteps [.program (ksTrial + 12) (leBytes 4 (0xFFFFFFF8 + (c - low)))]

/-- Boot selection and load at step 2 of an L1 exit (R420, R375). -/
def State.bootSelect (s : State) : State :=
  match s.selector with
  | none => s.loadBank none 1
  | some _ =>
    match s.selected with
    | none => s.loadBank none 0
    | some k =>
      if !s.bootCheck k then s.revert 1
      else if !s.bankConfirmed k then
        if s.trialLeft = 0 then s.revert 0 else (s.useTrial).loadBank (some k) 0
      else s.loadBank (some k) 0

end Sys2Proof.Machine
end

