-- ==== Sys2Proof/Machine/Flags.lean ====
section
/-! DEFINITION. The alert summary (14 R299), ALERT_N and the in-band interrupt of the management link (13 R271). -/

namespace Sys2Proof.Machine
open Sys2Proof

/-- Latched bits of ALERT (R299). -/
def alertTrip : Nat := 1
def alertRestarted : Nat := 8
def alertDefaults : Nat := 9

/-- The level bits of ALERT (R299): each follows its condition. -/
def State.alertLevel (s : State) : Nat :=
  b2n ((tabVals s.clusters).any (·.held)) + b2n (s.cal.reason != 0) * 4 + b2n s.bus.lost * 8
    + b2n ((tabVals s.parts).any (fun p => p.state == .offline)) * 16 + b2n s.fep.halted * 32 + b2n s.mgc.orphan * 64
    + b2n s.inTrial * 128 + b2n (!s.pins.pwrCapN) * 1024

/-- ALERT (R299): level bits and latched bits. -/
def State.alert (s : State) : BitVec 32 := BitVec.ofNat 32 s.alertLevel ||| s.dict.alertLatched

/-- ALERT_N as its pull-up and the device leave it: low while ALERT is nonzero (R271), high in an L0 reset, in which the pin is
high impedance (05 R113, 17 R372). -/
def State.alertN (s : State) : Bool := s.alert == 0 || !s.clk.alive

/-- A bit of ALERT latched. -/
def State.latchAlert (s : State) (k : Nat) : State :=
  { s with dict := { s.dict with alertLatched := s.dict.alertLatched ||| (1#32 <<< k) } }

/-- The in-band interrupt of a change of ALERT from zero to nonzero between two states (R271). -/
def alerted (before after : State) : State :=
  if before.alert = 0 && after.alert != 0 && after.bus.ibiEnabled then
    { after with bus := { after.bus with ibis := after.bus.ibis + 1 } }
  else after

end Sys2Proof.Machine
end

