-- ==== Sys2Proof/Machine/Tile.lean ====
section
/-! DEFINITION. What a tile does to the SRAMs of its group (02 R27 to R36, R41): array passes in the layout of the group's shape,
the vector and the table unit. A group is the list of its members, from the leader on. -/

namespace Sys2Proof.Machine
open Sys2Proof

/-- Where the weight rows of a tile stand in each member's weight SRAM: from WOFF, or in the landing ring after the slots already
consumed, of which `base` bytes are past (R38, R59). -/
structure Feed where
  ring : Bool
  base : Nat
  deriving DecidableEq, Repr

/-- Offset of weight row `k` of a tile. -/
def Feed.rowAt (f : Feed) (k : Nat) : Nat := if f.ring then ringBase + (f.base + 128 * k) % 65536 else f.base + 128 * k

/-- The feed of a tile, after `used` ring slots (R38, R59). -/
def Tile.feed (t : Tile) (used : Nat) : Feed := if t.skim then ⟨true, 4096 * used⟩ else ⟨false, 128 * t.woff⟩

/-- Weight rows that an operation reads, counted from the tile's first. -/
def TileOp.rowsTo : TileOp → Nat
  | .pass f _ _ w _ _ => w + Pairing.rows f
  | _ => 0

/-- Landing-ring slots that a tile consumes in each member: those its weight rows reach (R59). -/
def slotsOf (t : Tile) (work : List TileOp) : Nat :=
  if t.skim then ((work.map TileOp.rowsTo).foldl max 0 + 31) / 32 else 0

/-- Member `q` of a group. -/
def memberAt (g : List Part) (q : Nat) : Part := g.getD q {}

/-- Member `q` changed. -/
def setMember (g : List Part) (q : Nat) (f : Part → Part) : List Part := g.zipIdx.map (fun e => if e.2 = q then f e.1 else e.1)

/-- A member's read of activation word `i` from offset `a`, and of weight row `k` (R32). -/
def actWord (g : List Part) (q a i : Nat) : List Byte := (memberAt g q).readSram .act (a + 128 * i) 128
def weightRow (g : List Part) (feed : Feed) (q k : Nat) : List Byte := (memberAt g q).readSram .weight (feed.rowAt k) 128

/-- The layout of a group (R41): each member that results leave, with the blocks of rows that they pass through, in ascending K:
the member whose activations feed the block, and the member whose weights and cells it uses. -/
def groupLayout (members : Nat) : List (Nat × List (Nat × Nat)) :=
  if members = 4 then [(2, [(0, 0), (2, 2)]), (3, [(0, 1), (2, 3)])]
  else if members = 2 then [(0, [(0, 0)]), (1, [(0, 1)])]
  else [(0, [(0, 0)])]

/-- The incoming partial sum of column `j` of vector `i` at the first row: zero, or the one carried from an earlier pass through
the activation SRAM of the member that results leave (R28). -/
def passInit (g : List Part) (f : Pairing) (carry : Option Nat) (out i j : Nat) : BitVec 32 :=
  match carry with
  | none => 0
  | some a => BitVec.ofNat 32 (leNat ((memberAt g out).readSram .act (a + 4 * (Pairing.cols f * i + j)) 4))

/-- Column `j` of the result row of vector `i`: its products summed block by block, from the top row down (R28, R41). -/
def passColumn (g : List Part) (f : Pairing) (feed : Feed) (carry : Option Nat) (w a i j : Nat) (out : Nat × List (Nat × Nat)) :
    BitVec 32 × Bool :=
  out.2.foldl (fun acc b =>
    Pairing.column f acc ((List.range (Pairing.rows f)).map (Pairing.actAt f (actWord g b.1 a i)))
      ((List.range (Pairing.rows f)).map (fun k => Pairing.weightAt f (weightRow g feed b.2 (w + k)) j)))
    (passInit g f carry out.1 i j, false)

/-- The result row of vector `i` at the member that it leaves, and whether a sum saturated. -/
def passRow (g : List Part) (f : Pairing) (feed : Feed) (carry : Option Nat) (w a i : Nat) (out : Nat × List (Nat × Nat)) :
    List Byte × Bool :=
  let cs := (List.range (Pairing.cols f)).map (fun j => passColumn g f feed carry w a i j out)
  (cs.flatMap (fun c => leBytes 4 c.1.toNat), cs.any (·.2))

/-- An array pass of `m` vectors: every read is made of what the SRAMs hold when it starts (R32; log entry 88). -/
def runPass (g : List Part) (f : Pairing) (feed : Feed) (m : Nat) (carry : Option Nat) (w a o : Nat) : List Part × Bool :=
  let rows := (groupLayout g.length).flatMap (fun out => (List.range m).map (fun i => (out.1, i, passRow g f feed carry w a i out)))
  (rows.foldl (fun t e => setMember t e.1 (fun x => x.writeSram .act (o + 4 * Pairing.cols f * e.2.1) e.2.2.1)) g, rows.any (·.2.2.2))

/-- The SRAM that a place of the vector unit lies in. -/
def Place.sram (x : Place) : Sram := if x.scratch then .scratch else .act

/-- `n` lanes of `k` bytes from a place, each as a 32-bit value. -/
def Part.lanes (p : Part) (x : Place) (k n : Nat) : List (BitVec 32) :=
  (List.range n).map (fun i => BitVec.ofNat 32 (leNat (p.readSram (Place.sram x) (x.off + k * i) k)))

/-- Lanes written to a place, each of `k` bytes. -/
def Part.putLanes (p : Part) (x : Place) (k : Nat) (vs : List Nat) : Part :=
  p.writeSram (Place.sram x) x.off (vs.flatMap (leBytes k))

/-- Four-bit results packed two to a byte, the earlier in the low half (log entry 90). -/
def packNibbles : List Nat → List Nat
  | [] => []
  | [a] => [a % 16]
  | a :: b :: t => (a % 16 + b % 16 * 16) :: packNibbles t

/-- One operation of the vector unit: lane by lane (R36). -/
def vectorOp (p : Part) (op : VecOp) (half : Bool) (n : Nat) (x y z d : Place) : Part :=
  let k := if half then 2 else 4
  let vs := ((p.lanes x k n).zip ((p.lanes y k n).zip (p.lanes z k n))).map (fun e => (VecOp.lane op half e.1 e.2.1 e.2.2).toNat)
  p.putLanes d k vs

/-- One operation of the table unit (R36). -/
def tableOp (p : Part) (fn : TblFn) (n : Nat) (x d : Place) : Part :=
  p.putLanes d 4 ((p.lanes x 4 n).map (fun v => (TblFn.lane fn v).toNat))

/-- FP32 results converted to a narrower format (R30). -/
def convertOp (p : Part) (f : Narrow) (n : Nat) (x d : Place) : Part :=
  p.putLanes d (Narrow.bytes f) ((p.lanes x 4 n).map (Narrow.lane f))

/-- INT32 results requantised, each by the scale of its column (R30). -/
def requantOp (p : Part) (four signed : Bool) (n : Nat) (x scale d : Place) : Part :=
  let w := if four then 4 else 8
  let vs := ((p.lanes x 4 n).zip (p.lanes scale 4 n)).map (fun e => (BitVec.ofInt w (requantLane w signed e.1 e.2)).toNat)
  p.putLanes d 1 (if four then packNibbles vs else vs)

/-- One operation of a tile on its group, and whether it saturated a sum. -/
def TileOp.run (feed : Feed) (g : List Part) : TileOp → List Part × Bool
  | .pass f m carry w a o => runPass g f feed m carry w a o
  | .vector q op half n x y z d => (setMember g q (fun p => vectorOp p op half n x y z d), false)
  | .table q fn n x d => (setMember g q (fun p => tableOp p fn n x d), false)
  | .convert q f n x d => (setMember g q (fun p => convertOp p f n x d), false)
  | .requant q four signed n x scale d => (setMember g q (fun p => requantOp p four signed n x scale d), false)
  | .take _ => (g, false)

/-- The operations of a tile in order, and the tile's sticky saturation flag (R28). -/
def runWork (feed : Feed) (work : List TileOp) (g : List Part) : List Part × Bool :=
  work.foldl (fun t op => ((TileOp.run feed t.1 op).1, t.2 || (TileOp.run feed t.1 op).2)) (g, false)

/-- How often a tile takes a token of an edge (07 R157). -/
def takesOf (work : List TileOp) (e : Nat) : Nat := (work.filter (· == .take e)).length

end Sys2Proof.Machine
end

