-- ==== Sys2Proof/Machine/FepRun.lean ====
section
/-! DEFINITION. Stages 7 to 9 (01 R20 to R22, 02 R40 to R53, 03 R56, R57, 07 R153 to R159, 08 R167 to R171, 09 R203 to R207): the
scan, grants, tiles, pre-emption, ends, machine checks. -/

namespace Sys2Proof.Machine
open Sys2Proof

-- The scan (R167, R168) -----------------------------------------------------------------------------------------------

/-- What the scan treats as an entry: 0 a queued command, 1 a replica launch not yet granted, 2 a launch saved in a
resume slot (R206); `idx` its replica. -/
structure Item where
  kind : Nat
  cmd : Cmd
  idx : Nat
  deriving DecidableEq, Repr

/-- Entries of the scan. A relay launch that waits or is saved is one entry, under its lowest role (R159). -/
def State.items (s : State) : List Item :=
  (tabVals s.cmds).flatMap (fun c =>
    if c.cancelled then []
    else if c.stage == .queued then [⟨0, c, 0⟩]
    else if c.stage == .executing && c.opcode == opLaunch then
      let rs := c.replicas.filter (fun r => r.state == .regrant || r.state == .saved)
      let all := if c.relay then (if rs.length = c.replicas.length then rs.take 1 else []) else rs
      all.map (fun r => ⟨if r.state == .saved then 2 else 1, c, r.idx⟩)
    else [])

/-- Scan order (R167). -/
def itemBefore (a b : Item) : Bool :=
  let ka := (a.cmd.cls, a.cmd.key, a.cmd.order, a.idx)
  let kb := (b.cmd.cls, b.cmd.key, b.cmd.order, b.idx)
  decide (ka.1 < kb.1) || (ka.1 == kb.1 && (decide (ka.2.1 < kb.2.1) || (ka.2.1 == kb.2.1 &&
    (decide (ka.2.2.1 < kb.2.2.1) || (ka.2.2.1 == kb.2.2.1 && decide (ka.2.2.2 ≤ kb.2.2.2))))))

/-- One member that an entry needs: its replica index, role, shape and leader. -/
structure Need where
  idx : Nat
  role : Nat
  shape : Nat
  leader : Nat
  deriving DecidableEq, Repr

/-- A partition is not gated, offline, withdrawn or retired. -/
def Part.inService (p : Part) : Bool := !p.out

/-- The candidate members of a role (R128, R56): allowed by PART_MASK and in service. -/
def State.candidates (s : State) (c : Cmd) (role : Nat) : List Need :=
  let w := s.bindWord c.inst role
  let ls := bwLeaderList w
  (ls.zipIdx.filter (fun e => (c.partMask == 0 || c.partMask.getLsbD e.1)
    && (groupParts (bwShape w) e.1).all (fun p => (s.part p).inService))).map (fun e => ⟨e.2, role, bwShape w, e.1⟩)

/-- The launches saved over partition `p` let a command in (R206): class 0, the saved launch itself and, unless its instance
is freezing or frozen (12 R255), an entry whose class may pre-empt it (R184, R203), for without that the entry that asked for
the save would wait for ever. DEDUCED. -/
def State.resumeLets (s : State) (c : Cmd) (p : Nat) : Bool :=
  c.cls == 0 || (s.savedOver p).all (fun q => match (s.part q).resume with
    | none => true
    | some x => (x.slot == c.slot && x.seq == c.seq)
        || (match s.cmd x.slot x.seq with
          | some d => decide (c.cls < d.cls) && (s.inst d.inst).state != .freezing && (s.inst d.inst).state != .frozen
          | none => true))

/-- The group of a partition is being changed; a change of the cluster's other pair does not concern it (R42). -/
def State.inChange (s : State) (p : Nat) : Bool :=
  match (s.cluster (p / 4)).changing with
  | none => false
  | some sh => quadrantsWith sh (p % 4) != quadrantsWith (s.cluster (p / 4)).shape (p % 4)

/-- A partition runs nothing that keeps an entry away: no launch, no claim of this scan, no change of its group, not
named by a running drain round. -/
def State.unheld (s : State) (claims : List Nat) (p : Nat) : Bool :=
  (s.part p).run.isNone && !claims.contains p && !s.inChange p
    && !(s.abrt.roundOn && s.abrt.parts.contains p) && !s.powerGates p

/-- A member can be granted now (R168 step 2, R42, R206). -/
def State.memberFree (s : State) (claims : List Nat) (c : Cmd) (n : Need) : Bool :=
  (groupParts n.shape n.leader).all (fun p => (s.part p).state == .idle && s.resumeLets c p)
    && (s.concerned n.shape n.leader).all (s.unheld claims)

/-- The class of the work on a partition, when it runs a launch. -/
def State.runClass (s : State) (p : Nat) : Option Nat := (s.runOf p).map (fun h => h.1.cls)

/-- A pre-emption request may be raised for a member (R184, R203); no launch is saved where the resume slot is taken, for
there is one a partition (R206). -/
def State.mayPreempt (s : State) (claims : List Nat) (c : Cmd) (n : Need) : Bool :=
  let ps := s.concerned n.shape n.leader
  let busy := ps.filter (fun p => (s.part p).run.isSome)
  !busy.isEmpty && ps.all (fun p => !claims.contains p && !s.inChange p
      && !(s.abrt.roundOn && s.abrt.parts.contains p))
    && (groupParts n.shape n.leader).all (fun p => (s.part p).state == .idle || (s.part p).state == .busy || (s.part p).state == .fusing)
    && busy.all (fun p => (match s.runClass p with | some k => decide (c.cls < k) | none => false)
        && (s.part p).preempt.isNone && (s.savedOver p).isEmpty)
    && ps.all (s.resumeLets c)

/-- The clock floor of a requester in MHz: its contract's, or none (R203). -/
def State.floorOf (s : State) (c : Cmd) : Nat :=
  match tabGet s.contracts c.contract with
  | some k => if c.cls = 0 then k.req.floor else 0
  | none => 0

/-- The request raised: every partition of the launches concerned carries it until it is free; a relay launch as a
whole (R203, R159). -/
def State.raisePreempt (s : State) (c : Cmd) (n : Need) : State :=
  let vs := (s.concerned n.shape n.leader).filterMap (fun p => (s.part p).run)
  let whole (v : Nat × Nat × Nat) : Bool := match s.cmd v.1 v.2.1 with | some d => d.relay | none => false
  s.mapParts (fun _ x => match x.run with
    | some r => if vs.contains r || vs.any (fun v => whole v && v.1 == r.1 && v.2.1 == r.2.1) then
        { x with preempt := some (s.floorOf c) } else x
    | none => x)

/-- A member granted: its partitions hold the launch, the grant names the first tile (R170), and the ring is empty but for the
slots already freed; where the cluster's shape lacks the group, the change starts, beside one of the other pair (R42, R43). -/
def State.grantMember (s : State) (c : Cmd) (n : Need) : State :=
  let ok := s.hasGroup n.shape n.leader
  let from_ := ((replica? c n.idx).map (fun r => (r.tile, r.used))).getD (0, 0)
  let s1 := (groupParts n.shape n.leader).foldl (fun t p => t.updPart p (fun x =>
    { x with run := some (c.slot, c.seq, n.idx), acked := false, fuseWait := !ok, preempt := none, honour := false,
             tileRunning := false, next := some from_.1, landed := from_.2, ringAsked := 0, ringIn := [], owed := 0,
             resume := (match x.resume with
               | some y => if y.slot = c.slot ∧ y.seq = c.seq then none else x.resume
               | none => none),
             state := if ok then .busy else .fusing })) s
  if ok then s1
  else s1.updCluster (n.leader / 4) (fun k =>
    { k with changing := some (shapeWith (k.changing.getD k.shape) n.shape (n.leader % 4)) })

/-- A fresh replica launch, with its credits at the grant (R157). -/
def mkReplica (g : Option GraphFixed) (relay : Bool) (n : Need) (st : RepState) (skim : Option Nat) : Replica :=
  let es := match g with | some f => f.edges.zipIdx | none => []
  { idx := n.idx, role := n.role, leader := n.leader, shape := n.shape, state := st, status := St.ok, tile := 0,
    detached := false, saturated := false, skim := skim,
    outCredits := if relay then (es.filter (fun e => e.1.src == n.role)).map (fun e => (e.2, e.1.credits)) else [],
    outFinal := [],
    inTokens := if relay then (es.filter (fun e => e.1.dst == n.role)).map (fun e => (e.2, 0)) else [],
    inFinal := [] }

/-- The stream descriptor a member would take, with its DVA (R58). -/
def State.needStream (s : State) (c : Cmd) (n : Need) : Option (Stream × Nat) := do
  let (g, v) ← s.pinnedVersion c
  let var ← variantOf? g.fixed n.role n.shape
  let o ← var.skimOff
  let st ← s.streamOf v var
  return (st, tabGetD c.streamDva o 0)

/-- Skim slots taken for the members in order; for a group launch one slot serves all. -/
def State.takeSkims (s : State) (c : Cmd) (shared : Bool) : List Need → State × List (Need × Option Nat)
  | [] => (s, [])
  | n :: t =>
    match s.needStream c n with
    | none =>
      let r := s.takeSkims c shared t
      (r.1, (n, none) :: r.2)
    | some (st, dva) =>
      match s.takeSkim c st dva with
      | none => (s, (n :: t).map (fun m => (m, none)))
      | some (g, s1) =>
        if shared then (s1, (n :: t).map (fun m => (m, some g)))
        else
          let r := s1.takeSkims c shared t
          (r.1, (n, some g) :: r.2)

/-- A launch's members granted for the first time: those of `now_` at once, the others of `later` when they are free
(R57, R65, R157). -/
def State.startLaunch (s : State) (c : Cmd) (now_ later : List Need) : State :=
  let g := (s.graph c.inst c.graph).map (·.fixed)
  let all := (now_ ++ later).mergeSort (fun a b => decide (a.idx ≤ b.idx))
  let r := s.takeSkims c (!c.relay) all
  let rs := r.2.map (fun e => mkReplica g c.relay e.1 (if now_.contains e.1 then .granted else .regrant) e.2)
  let s1 := r.1.setCmd { beginCmd c s.now with stage := .executing, pqEntry := none, replicas := rs }
  now_.foldl (fun t n => t.grantMember c n) s1

/-- Skim slots a set of members would take. -/
def State.skimNeed (s : State) (c : Cmd) (ns : List Need) : Nat :=
  let k := (ns.filter (fun n => (s.needStream c n).isSome)).length
  if c.relay then k else min k 1

/-- A launch ended at stage 8 with UNIT_WITHDRAWN (R21, R128, R157). -/
def State.withdraw (s : State) (c : Cmd) : State := s.endCmd c St.unitWithdrawn 0

/-- WORK_HELD_POWER, once for each instance in each stay in the state (R348). -/
def State.heldPower (s : State) (c : Cmd) : State :=
  if s.pwr.heldReported.contains c.inst then s
  else ({ s with pwr := { s.pwr with heldReported := s.pwr.heldReported ++ [c.inst] } }).powerEvent Ev.workHeldPower c.inst
    (leBytes 1 c.inst ++ leBytes 2 c.slot) false

/-- A state in which partitions are gated for power, or one being entered: Trickle, Dormant, or PF0 in D3hot (R344). -/
def State.powerHeld (s : State) : Bool := s.pwr.target.getD s.pwr.pstate != 0 || s.pwr.pf0D3

/-- The outcome of one entry: the state and the claims after it (R168). -/
structure Scan where
  st : State
  claims : List Nat

/-- Members that cannot be granted now claim their partitions for the rest of the scan (R168 step 3). -/
def Scan.claim (k : Scan) (ns : List Need) : Scan :=
  ⟨k.st, k.claims ++ ns.flatMap (fun n => k.st.concerned n.shape n.leader)⟩

/-- Members that cannot be granted now: their partitions claimed, with a pre-emption request where one is allowed
(R168 steps 3 and 4). All of them are pre-empted, or, of members of which any one will do, the first in replica order that allows
it: the manual does not say which (DESIGN CHOICE, log entry 95). -/
def Scan.hold (k : Scan) (c : Cmd) (ns : List Need) (all : Bool) : Scan :=
  let may := ns.filter (fun n => !k.st.memberFree k.claims c n && k.st.mayPreempt k.claims c n)
  let fit := if all then (if ns.all (fun n => k.st.memberFree k.claims c n || k.st.mayPreempt k.claims c n) then may else [])
    else may.take 1
  let s1 := if c.cls = 3 then k.st else fit.foldl (fun t n => t.raisePreempt c n) k.st
  ⟨s1, (k.claim ns).claims⟩

/-- Members each of which is granted by itself, held one by one. -/
def Scan.holdEach (k : Scan) (c : Cmd) (ns : List Need) : Scan := ns.foldl (fun k n => k.hold c [n] true) k

/-- Members of which every one is gated wait at stage 7 for power (R348). -/
def State.allGated (s : State) (ns : List Need) : Bool :=
  s.powerHeld && ns.all (fun n => (groupParts n.shape n.leader).any (fun p => (s.part p).state == .gated || s.powerGates p))

/-- A queued launch of one role: SPREAD grants the idle member of the lowest index, as replica 0 (R131), GANG every
free one, and its other members claim their partitions in the same scan (R56, R57, R65). One that lacks a Skim slot claims and
pre-empts nothing, for that would not give it one (R60, R168). -/
def Scan.launch (k : Scan) (c : Cmd) : Scan :=
  let s := k.st
  let ns := s.candidates c c.role
  if ns.isEmpty then ⟨s.withdraw c, k.claims⟩
  else if s.allGated ns then ⟨s.heldPower c, k.claims⟩
  else
    let gang := bwGang (s.bindWord c.inst c.role)
    let free := ns.filter (s.memberFree k.claims c)
    let take := if gang then free else (free.take 1).map (fun n => { n with idx := 0 })
    if !s.skimsFree c (s.skimNeed c ns) then k.claim ns
    else if take.isEmpty then (if gang then k.holdEach c ns else k.hold c ns false)
    else
      let later := if gang then ns.filter (fun n => !free.contains n) else []
      (⟨s.startLaunch c take later, k.claims⟩ : Scan).holdEach c later

/-- A queued relay launch: every role together, each on its single bound group (R157). -/
def Scan.relay (k : Scan) (c : Cmd) : Scan :=
  let s := k.st
  match s.graph c.inst c.graph with
  | none => ⟨s.withdraw c, k.claims⟩
  | some g =>
    let roles := rolesOf g.fixed.roleMask
    let per := roles.map (fun r => ((s.candidates c r).map (fun n => { n with idx := r })))
    let leaders := roles.flatMap (fun r => bwLeaderList (s.bindWord c.inst r))
    if per.any (fun l => l.length != 1) || (c.partMask != 0 && !(leaders.all (fun p => c.partMask.getLsbD p))) then
      ⟨s.withdraw c, k.claims⟩
    else
      let ns := per.flatten
      if s.allGated ns then ⟨s.heldPower c, k.claims⟩
      else if !s.skimsFree c (s.skimNeed c ns) then k.claim ns
      else if ns.all (s.memberFree k.claims c) then ⟨s.startLaunch c ns [], k.claims⟩
      else k.hold c ns true

/-- A replica launch that waits for its member, or a saved launch: granted again on the same partitions in the same
shape (R65, R182, R206). -/
def Scan.again (k : Scan) (c : Cmd) (rs : List Replica) : Scan :=
  let s := k.st
  let ns := rs.map (fun r => (⟨r.idx, r.role, r.shape, r.leader⟩ : Need))
  let saved := rs.any (fun r => r.state == .saved)
  let lost := ns.any (fun n => (groupParts n.shape n.leader).any (fun p =>
    (s.part p).state == .offline || (s.part p).state == .resetting || (!saved && !(s.part p).inService)))
  if lost then
    ⟨if c.relay then s.endAll c St.unitWithdrawn
     else (rs.foldl (fun t r => t.updReplica c.slot c.seq r.idx (fun r => { r with state := .ended, status := St.unitWithdrawn })) s).endIfDone c.slot c.seq,
      k.claims⟩
  else if s.allGated ns then ⟨s.heldPower c, k.claims⟩
  else if ns.all (s.memberFree k.claims c) then
    ⟨ns.foldl (fun t n => (t.grantMember c n).updReplica c.slot c.seq n.idx (fun r => { r with state := .granted })) s, k.claims⟩
  else k.hold c ns true

/-- A COPY or FILL: the lowest free copy channel (R127, R168). -/
def Scan.chan (k : Scan) (c : Cmd) : Scan :=
  match lowestFree k.st.chansUsed 0 4 with
  | some ch => ⟨(k.st.resetStream (512 + ch)).setCmd { beginCmd c k.st.now with stage := .executing, pqEntry := none, chan := some ch },
      k.claims⟩
  | none => k

/-- One entry of the scan. A FENCE not yet met, or an instance that is freezing, frozen or ending, claims nothing. -/
def Scan.entry (k : Scan) (it : Item) : Scan :=
  match k.st.cmd it.cmd.slot it.cmd.seq with
  | none => k
  | some c =>
    if !(k.st.inst c.inst).state.fetches || (it.kind == 0 && !k.st.fenceOk c) then k
    else if it.kind = 0 then
      if c.opcode = opLaunch then (if c.relay then k.relay c else k.launch c) else k.chan c
    else if c.relay then k.again c c.replicas
    else k.again c (c.replicas.filter (fun r => r.idx == it.idx))

/-- SCAN: one pass over the entries in scan order. -/
def scan (s : State) : State :=
  if s.fepRuns then ((s.items.mergeSort itemBefore).foldl Scan.entry ⟨s.onThread 5 none, []⟩).st.reassess else s

/-- SCAN (R168). -/
def execScan (s : State) : Result := .next (scan s)

-- Grants and tiles (R16, R22, R43, R153, R170, R171, R357) -----------------------------------------------------------------

/-- The tile a replica runs, or would run next. -/
def State.tileOf (s : State) (c : Cmd) (r : Replica) (k : Nat) : Option Tile := do
  let (_, v) ← s.variantOf c r
  v.tiles[k]?

/-- Bytes of the store pages that a member's resident weights span, counted against the share of the instance (R79, R153). -/
def State.chargeStore (s : State) (n : Nat) (pages : List Nat) : State :=
  pages.foldl (fun t k => t.chargePriv n (0x2000000 + 256 * k) 256) s

/-- The member of place `m` in its group loads its resident weights where its residency tag differs from the launch's values, and
sets the tag; a tag that matches loads nothing (R153). -/
def State.loadResident (s : State) (c : Cmd) (r : Replica) (p m : Nat) : State :=
  match s.pinnedVersion c, s.variantOf c r with
  | some (_, v), some (i, var) =>
    let tag : ResTag := ⟨c.inst, c.graph, c.version, i, m⟩
    if (s.part p).residency = some tag then s
    else
      let at_ := var.resOff + m * var.resMember
      let s1 := s.chargeStore c.inst ((v.pages.drop (at_ / 256)).take (var.resMember / 256))
      s1.updPart p (fun x => { x.writeSram .weight 0 (((s.patchBytes v).drop at_).take var.resMember) with residency := some tag })
  | _, _ => s

/-- A member joins its Skim group when it has acknowledged before block 0 is sent, and while the slot still serves its launch;
otherwise it fetches privately (R60, R65). -/
def State.joinSkim (s : State) (c : Cmd) (r : Replica) : State :=
  match r.skim with
  | none => s
  | some g =>
    let x := s.skim g
    if x.active && x.slot == c.slot && x.seq == c.seq && !x.started then s.updSkim g (fun x => { x with
      lag := tabSet x.lag r.leader 0, got := tabSet x.got r.leader 0,
      attached := x.attached ||| maskOf (groupParts r.shape r.leader) })
    else s.updReplica c.slot c.seq r.idx (fun r => { r with skim := none })

/-- Bytes of the live set at the boundary after tile `k - 1`; none before the first tile (R39). -/
def State.liveBytes (s : State) (c : Cmd) (r : Replica) : Nat :=
  if r.tile = 0 then 0 else 4096 * ((s.tileOf c r (r.tile - 1)).map (·.live)).getD 0

/-- The live set of a resumed member read back from its save area into its activation SRAM, from offset 0 on (R206; log entry
96). -/
def State.restoreLive (s : State) (c : Cmd) (r : Replica) (p : Nat) : State :=
  let n := s.liveBytes c r
  if n = 0 then s
  else
    let s1 := (s.chargePriv c.inst (saveArea p) n).corrected (saveArea p) n
    if s.badIn (saveArea p) n then s1.replicaError c.slot c.seq r.idx St.memUncorrectable
    else s1.updPart p (fun x => x.writeSram .act 0 (s.readPrivN (saveArea p) n))

/-- A replica whose members have all acknowledged starts: it joins its Skim group, and a saved one has its live set back. -/
def State.startReplica (s : State) (c : Cmd) (r : Replica) : State :=
  let s1 := (groupParts r.shape r.leader).foldl (fun t q => t.restoreLive c r q) (s.joinSkim c r)
  s1.updReplica c.slot c.seq r.idx (fun r => { r with state := .running })

/-- Every member of a replica has acknowledged its grant. -/
def State.ackedAll (s : State) (r : Replica) : Bool := (groupParts r.shape r.leader).all (fun q => (s.part q).acked)

/-- GRANT_ACK: partition `p` acknowledges its grant; once every member has, stage 8 of the replica ends, and for a relay launch
once every member of every role has (R16, R157). A gated partition's bridge answers with GATED, and the launch completes with
UNIT_WITHDRAWN (R226). -/
def grantAck (p : Nat) (s : State) : State :=
  match s.runOf p with
  | none => s
  | some (c, r) =>
    if !s.fepRuns || r.state != .granted || (s.part p).acked || c.cancelled then s
    else if (s.part p).state == .gated then
      let s1 := ((s.grantSeen p).freeReplica c.slot c.seq r.idx).updReplica c.slot c.seq r.idx (fun r =>
        { r with state := .ended, status := St.unitWithdrawn })
      if c.relay then s1.endAll c St.unitWithdrawn else s1.endIfDone c.slot c.seq
    else
      let s1 := ((s.grantSeen p).reportSeen p).updPart p (fun x => { x with acked := true })
      if c.relay then
        if c.replicas.all (fun x => x.state == .granted && s1.ackedAll x) then
          c.replicas.foldl (fun t x => t.startReplica c x) s1
        else s1
      else if s1.ackedAll r then s1.startReplica c r
      else s1

/-- GRANT_ACK (R16). -/
def execGrantAck (p : Fin 16) (s : State) : Result := .next (grantAck p.val s)

/-- The members of the groups that a change of shape forms run on one clock: the lowest of theirs (R43, R44; the CBA then sets the
group's, DEDUCED: the manual gives the clock by which a group starts no other value). -/
def State.groupClocks (s : State) (c old : Nat) : State :=
  (List.range 4).foldl (fun t q =>
    let g := (s.groupOf (4 * c + q))
    if g.length = (quadrantsWith old q).length then t
    else t.orderStep (4 * c + q) (g.foldl (fun k p => min k (s.part p).step) (s.part (4 * c + q)).step)) s

/-- FUSION_CHANGE_COMPLETE: the shape register is updated, the members run on the group clock and may request their grants; every
SRAM keeps its contents (R42 to R44). -/
def fusionChangeComplete (c : Nat) (s : State) : State :=
  match (s.cluster c).changing with
  | none => s
  | some sh =>
    let old := (s.cluster c).shape
    let s1 := s.updCluster c (fun k => { k with shape := sh, changing := none })
    let s2 := s1.mapParts (fun p x => if p / 4 = c then
      { x with fuseWait := false, state := if x.state == .fusing then (if x.run.isSome then .busy else .idle) else x.state }
      else x)
    (s2.groupClocks c old).reassess

/-- FUSION_CHANGE_COMPLETE (R43). -/
def execFusionChangeComplete (c : Fin 4) (s : State) : Result := .next (fusionChangeComplete c.val s)

/-- The tile that last ended has a pre-emptible boundary after it; before the first tile there is nothing to save and
any boundary does, as for a relay role that has ended. -/
def State.atBoundary (s : State) (c : Cmd) (r : Replica) : Bool :=
  r.tile == 0 || r.done || ((s.tileOf c r (r.tile - 1)).map (·.preempt)).getD false

/-- The launch goes on: nothing has ended it, and no member of it, of any role in a relay, is lost (R52, R159, R380). -/
def State.goes (s : State) (c : Cmd) (r : Replica) : Bool :=
  !c.cancelled && (if c.relay then c.replicas else [r]).all (fun x =>
    x.status == St.ok && (groupParts x.shape x.leader).all (fun q => !(s.part q).faultPending))

/-- The boundary that a replica stands at is to be honoured: it saves there and starts no further tile (R170, R204). -/
def State.boundaryHeld (s : State) (c : Cmd) (r : Replica) : Bool :=
  (s.part r.leader).honour && s.atBoundary c r && (groupParts r.shape r.leader).all (fun q => (s.savedOver q).isEmpty)

/-- A partition may request a current grant: its launch runs and has a tile left, its group has formed, no tile runs on it, the
boundary is not held, and in directed mode the dispatch of that tile has come (R22, R43, R170, R171). -/
def State.mayTile (s : State) (p : Nat) : Bool :=
  (match s.runOf p with
   | some (c, r) => r.state == .running && !r.done && s.goes c r && (s.tileOf c r r.tile).isSome
      && (c.relay || (s.part r.leader).next == some r.tile) && !s.boundaryHeld c r
      && (groupParts r.shape r.leader).all (fun q => (s.part q).state == .busy)
   | none => false)
    && !(s.part p).fuseWait && (s.part p).state == .busy && !(s.part p).tileRunning

/-- The current grants of a group released (R204, R357), and the single-bit SRAM errors of the tile counted (R48
CE_COUNT); how many is open (log entry 6). -/
def State.releaseGrants (s : State) (ps : List Nat) : State :=
  ps.foldl (fun t q => t.updPart q (fun x => { x with
    grant := none, tileRunning := false, ceCount := satAdd x.ceCount (Config.sramCorrected s.now q) })) s

-- Machine checks (R49 to R53) ------------------------------------------------------------------------------------------------

/-- MACHINE_CHECK: the partition stops, releases its grant, records CAUSE and LOCATION and goes to STATE 4 (R49). Its Skim group
detaches its replica at once (R63), and the other members of its group stop and release their grants (R52). A parity error at the
address that failed before an L5 reset, in the first tile after it, is persistent (R51). -/
def machineCheck (p cause : Nat) (location : BitVec 27) (s : State) : State :=
  let x := s.part p
  if x.state != .idle && x.state != .busy && x.state != .fusing then s
  else
    let again := decide (cause = 1) && decide (x.lastParity = some (location.setWidth 10))
    let s1 := s.updPart p (fun x => { x with
      state := .offline, mcCause := BitVec.ofNat 4 (if again then 5 else cause), mcAddr := location,
      seq := if cause = 1 then s.seqUpset p location else x.seq,
      mcCount := satInc x.mcCount, grant := none, tileRunning := false, residency := none, faultPending := true })
    let s2 := match s.runOf p with
      | some (_, r) => (match r.skim with
        | some g => (s1.haltParts (groupParts r.shape r.leader)).detach g r.leader r.shape 1
        | none => s1.haltParts (groupParts r.shape r.leader))
      | none => s1
    (alerted s s2).reassess

/-- MACHINE_CHECK (R49): causes 1 to 4 are the ones a partition detects. -/
def execMachineCheck (p : Fin 16) (cause : Nat) (location : BitVec 27) (s : State) : Result :=
  .next (if 1 ≤ cause ∧ cause ≤ 4 then machineCheck p.val cause location s else s)

/-- MCHECK_REPORT: the group dissolves, and once every request of the launch has completed, the FEP acts on it (R50, R52, R53,
R159). -/
def execMcheckReport (p : Fin 16) (s : State) : Result :=
  .next (if s.fepRuns && (s.part p.val).faultPending && (s.part p.val).fatalUntil.isNone then
    let s1 := (s.reportSeen p.val).lossReported p.val
    if s.lossReady p.val false then s1.memberLost p.val (s.part p.val).mcCause.toNat St.partMcheck else s1
    else s)

-- Tiles (R22, R28, R38, R46, R59, R170, R357) ------------------------------------------------------------------------------------

/-- CURRENT_GRANT_REQUEST: the partition has its resident weights and fetches the tile's first microword, whose parity is checked
(R46, R49, R153). The CBA issues the grant of the tile's class at once, naming a step; the tile runs once every member of the
group holds one (R22, R357). -/
def currentGrantRequest (p : Nat) (s : State) : State :=
  if !s.mayTile p || (s.abrt.roundOn && s.abrt.parts.contains p) then s
  else
    match s.runOf p with
    | none => s
    | some (c, r) =>
      match s.tileOf c r r.tile with
      | none => s
      | some t =>
        let fails := parityFails (s.seqStored p t.uentry)
        if fails ≠ 0 then machineCheck p 1 (parityLocation t.uentry fails) s
        else
          let s1 := (s.loadResident c r p (p - r.leader)).updPart p (fun x => { x with grant := some t.cls })
          let g := groupParts r.shape r.leader
          let s2 := if g.all (fun q => (s1.part q).grant.isSome) then
              g.foldl (fun t q => t.updPart q (fun x => { x with tileRunning := true })) s1
            else s1
          s2.reassess

/-- CURRENT_GRANT_REQUEST (R357). -/
def execCurrentGrantRequest (p : Fin 16) (s : State) : Result := .next (currentGrantRequest p.val s)

/-- A boundary is to be honoured: a pre-emption request, by which work makes way for others or for a change of shape, is
outstanding (R42, R170, R204). -/
def Part.wanted (p : Part) : Bool := p.preempt.isSome

/-- TILE_START_REPORT: the leader's report, in directed mode. The FEP dispatches the next tile at once, and says whether the
boundary after this one is honoured (R170). -/
def execTileStartReport (p : Fin 16) (s : State) : Result :=
  match s.runOf p.val with
  | some (c, r) => .next (if s.fepRuns && !c.relay && r.leader == p.val && (s.part p.val).tileRunning then
      ((s.reportSeen p.val).dispatchSeen p.val).updPart p.val (fun x => { x with next := some (r.tile + 1), honour := x.wanted }) else s)
  | none => .next s

/-- A tile has what its work reads: the ring slots that it consumes have landed in every member, and a token is there for every
slot of a relay edge that it takes (R59, R157). -/
def State.tileFed (s : State) (r : Replica) (slots : Nat) (work : List TileOp) : Bool :=
  (groupParts r.shape r.leader).all (fun q => decide (r.used + slots ≤ (s.part q).landed))
    && (List.range 32).all (fun e => decide (takesOf work e ≤ tabGetD r.inTokens e 0))

/-- The replica after a tile: its place moves on, its slots are freed, its tokens taken and credits owed for them (R59, R157). -/
def pastTile (r : Replica) (slots : Nat) (sat : Bool) (work : List TileOp) : Replica :=
  { r with
    tile := r.tile + 1, used := r.used + slots, saturated := r.saturated || sat
    inTokens := tabMap r.inTokens (fun e n => n - takesOf work e)
    owed := (List.range 32).foldl (fun t e => if takesOf work e = 0 then t else tabSet t e (tabGetD t e 0 + takesOf work e)) r.owed }

/-- TILE_END: the tile has done its work on the SRAMs of its group, its grants end, the launch's place moves on, a saturation is
counted, and the ring slots it consumed are free (R28, R59, R170). -/
def tileEnd (p : Nat) (work : List TileOp) (s : State) : State :=
  match s.runOf p with
  | some (c, r) =>
    match s.tileOf c r r.tile with
    | none => s
    | some t =>
      let g := groupParts r.shape r.leader
      let slots := slotsOf t work
      if r.leader != p || !g.all (fun q => (s.part q).tileRunning) || c.cancelled || !s.tileFed r slots work then s
      else
        let done := runWork (Tile.feed t r.used) work (g.map s.part)
        let s0 := if c.relay then s else s.reportSeen p
        let s1 := (s0.releaseGrants g).updPart p (fun x => { x with satCount := if done.2 then satInc x.satCount else x.satCount })
        let s2 := (g.zip done.1).foldl (fun t e => t.updPart e.1 (fun x =>
          { x with weight := e.2.weight, act := e.2.act, scratch := e.2.scratch, lastParity := none,
                   owed := if r.skim.isSome then x.owed + slots else x.owed })) s1
        (s2.updReplica c.slot c.seq r.idx (fun r => pastTile r slots done.2 work)).reassess
  | none => s

/-- TILE_END (R170). -/
def execTileEnd (p : Fin 16) (work : List TileOp) (s : State) : Result := .next (tileEnd p.val work s)

/-- TILE_OVERRUN (R40, R197): the event, the telemetry count, and a contract at risk with reason 5. The cycles run are
open (log entry 2). -/
def execTileOverrun (p : Fin 16) (s : State) : Result :=
  match s.runOf p.val with
  | some (c, r) =>
    if !(s.part p.val).tileRunning then .next s
    else
      let wc := ((s.tileOf c r r.tile).map (·.wcCycles)).getD 0
      let b := freeBytes 4 s
      let s1 := b.2.updPart p.val (fun x => { x with overruns := satInc x.overruns })
      let s2 := s1.eventLimited Ev.tileOverrun p.val 0 false true (leBytes 1 p.val ++ leBytes 2 c.graph ++ leBytes 2 c.version
        ++ leBytes 4 r.tile ++ leBytes 3 wc ++ b.1)
      .next (if c.contract ≠ 0 ∧ c.cls = 0 then s2.missRisk c.contract 5 p.val else s2)
  | none => .next s

-- Pre-emption (R203 to R206) --------------------------------------------------------------------------------------------

/-- PREEMPT: the request reaches the leader, which will honour its next pre-emptible boundary (R204). -/
def execPreempt (p : Fin 16) (s : State) : Result :=
  .next (if (s.part p.val).run.isSome && (s.part p.val).preempt.isSome then
    (s.preemptSeen p.val).updPart p.val (fun x => { x with honour := true }) else s)

/-- The live set of a member written into its save area (R78, R204; log entry 96). -/
def State.saveLive (s : State) (c : Cmd) (r : Replica) (p : Nat) : State :=
  let n := s.liveBytes c r
  if n = 0 then s else s.storePriv c.inst (saveArea p) ((s.part p).readSram .act 0 n)

/-- SAVE_REPORT: each member saves its live set, and the launch leaves its partitions for the leader's resume slot with its tile,
token and credit counts (R204, R206); a Skim replica is detached with cause PREEMPT (R63). A relay role that has ended is saved
with the others (R159). -/
def saveReport (p : Nat) (s : State) : State :=
  match s.runOf p with
  | some (c, r) =>
    if r.leader != p || !s.boundaryHeld c r || (s.part p).tileRunning || r.state != .running || c.cancelled
        || !s.replicaIdle r || !(s.fepRuns || s.rst.phase == .l2Preempt) then s
    else
      let s0 := s.reportSeen p
      let s1 := match r.skim with
        | some g => s0.detach g r.leader r.shape 2
        | none => s0
      let s2 := (groupParts r.shape r.leader).foldl (fun t q => t.saveLive c r q) s1
      let s3 := (s2.freeReplica c.slot c.seq r.idx).updPart p (fun x => { x with resume := some ⟨c.slot, c.seq, r.idx⟩ })
      (s3.updReplica c.slot c.seq r.idx (fun r => { r with state := .saved })).reassess
  | none => s

/-- SAVE_REPORT (R204). -/
def execSaveReport (p : Fin 16) (s : State) : Result := .next (saveReport p.val s)

-- The end of a launch (R24, R158) ------------------------------------------------------------------------------------------

/-- The replica's tiles have ended, or an error status stops it. -/
def State.replicaDone (s : State) (c : Cmd) (r : Replica) : Bool :=
  r.status != St.ok || (match s.variantOf c r with
    | some (_, v) => decide (v.tiles.length ≤ r.tile)
    | none => true)

/-- FINAL has been sent on every output edge; and has arrived on every input edge (R157, R158). -/
def finalsSent (r : Replica) : Bool := (tabKeys r.outCredits).all (fun e => r.outFinal.contains e)
def finalsCome (r : Replica) : Bool := (tabKeys r.inTokens).all (fun e => r.inFinal.contains e)

/-- A role of a relay has ended its tiles and its writes, FINAL being sent on its output edges: it has ended, or, when it is the
sink, whose input FINALs have come and which ends last, the launch has (R158). An error of any role ends the launch, once every
role's requests have completed (R159, R380). -/
def State.endRole (s : State) (c : Cmd) (r : Replica) : State :=
  let others := c.replicas.filter (fun x => x.idx != r.idx)
  if r.status != St.ok then
    if c.replicas.all (fun x => s.replicaIdle x && (groupParts x.shape x.leader).all (fun q => !(s.part q).faultPending)) then
      s.endAll c r.status
    else s
  else if !s.goes c r || !s.replicaIdle r then s
  else if (tabKeys r.outCredits).isEmpty then
    if finalsCome r && others.all (·.done) then s.endAll c St.ok else s
  else if finalsSent r then s.updReplica c.slot c.seq r.idx (fun r => { r with done := true })
  else s

/-- END_REPORT: the leader reports the end of its launch after every write is acknowledged; in a relay only the sink's
report ends the launch (R24, R158, R171). -/
def endReport (p : Nat) (s : State) : State :=
  match s.runOf p with
  | some (c, r) =>
    if !s.fepRuns || r.leader != p || r.state != .running || (s.part p).tileRunning || !s.replicaDone c r || c.cancelled then s
    else if c.relay then ((s.reportSeen p).endRole c r).reassess
    else if !s.replicaIdle r || !(groupParts r.shape r.leader).all (fun q => !(s.part q).faultPending) then s
    else
      let s0 := s.reportSeen p
      let s1 := match r.skim with
        | some g => s0.leaveSkim g r.leader r.shape
        | none => s0
      (((s1.freeReplica c.slot c.seq r.idx).updReplica c.slot c.seq r.idx (fun r =>
        { r with state := .ended })).endIfDone c.slot c.seq).reassess
  | none => s

/-- END_REPORT (R24). -/
def execEndReport (p : Fin 16) (s : State) : Result := .next (endReport p.val s)

end Sys2Proof.Machine
end

