-- ==== Sys2Proof/Machine/SkimEngine.lean ====
section
/-! DEFINITION. The Skim engines (03 R61 to R66) and the tokens and credits of relay launches (07 R157). -/

namespace Sys2Proof.Machine
open Sys2Proof

-- The blocks of a stream (R61, R62) ---------------------------------------------------------------------------------------------

/-- Blocks of 4 KiB in the 64 KiB drift window (R62). -/
def driftBlocks : Nat := 16

/-- The node of a Skim engine (10 R208). -/
def engineNode (e : Nat) : Nat := 22 + e

/-- The lag of a replica would pass 64 KiB with one block more. -/
def Skim.blocked (x : Skim) : Bool := x.lag.any (fun e => decide (driftBlocks < e.2 + 1))

/-- Device-virtual address of the block that the engine sends next. -/
def Skim.nextDva (x : Skim) : Nat := x.dva + 4096 * x.block

/-- Bytes of an extent of instance `n` that memory controller `c` holds. -/
def State.bytesAt (s : State) (c n dva len : Nat) : Nat → Nat
  | 0 => 0
  | fuel + 1 =>
    if len = 0 then 0
    else
      let k := min len (65536 - dva % 65536)
      (match s.translate n dva false with
        | .priv a => ctlBytes c a k
        | _ => 0) + s.bytesAt c n (dva + k) (len - k) fuel

/-- Bytes of the next block that the other controller holds, which the engine reads over VC0 under its standing tickets (R61). -/
def State.foreign (s : State) (x : Skim) : Nat := s.bytesAt (1 - x.engine) x.inst x.nextDva 4096 (pagesOf 4096)

/-- What the engine's reads of a block on its own controller leave behind: the translation caches, the share window, MEM_MB and
corrected errors (04 R76, R79, R82). -/
def State.chargeBlock (s : State) (x : Skim) (dva len : Nat) : Nat → State
  | 0 => s
  | fuel + 1 =>
    if len = 0 then s
    else
      let k := min len (65536 - dva % 65536)
      let t := match s.translate x.inst dva false with
        | .priv a =>
          let n := ctlBytes x.engine a k
          let u := (s.xlated x.inst (engineNode x.engine) dva).corrected a k
          { u with mem := { u.mem with window := bump u.mem.window (64 * x.engine + x.inst) (· + n) }
                   dict := { u.dict with memBytes := u.dict.memBytes + n } }
        | .host _ => s.xlated x.inst (engineNode x.engine) dva
        | .fault _ _ => s
      t.chargeBlock x (dva + k) (len - k) fuel

/-- The next block sent: its packet is on the way, head, lags and blocks received advance (R61, R62). HEAD shows the blocks sent in
the pass, and the last count of a pass until the next one begins (R67). -/
def Skim.advance (x : Skim) (poison : Bool) (data : List Byte) : Skim :=
  let b := x.block
  let copy : SkimCopy := { mask := x.maskFor b, left := x.maskFor b, poison := poison, data := data }
  { x with started := true, holding := none, pass := if x.stream.blocks ≤ x.head then x.pass + 1 else x.pass, head := b + 1,
           lag := tabMap x.lag (fun _ l => l + 1), got := tabMap x.got (fun k n => if (tabGet x.lag k).isSome then n + 1 else n),
           fetched := 0, poison := false, flight := x.flight ++ [copy] }

/-- A read of the engine that a translation fault or another error ends (04 R81, 18 R380): a guilty status makes the launch guilty,
and any other ends each replica that the block addresses. -/
def State.skimFault (s : State) (g : Nat) (f : XFault) : State :=
  let x := s.skim g
  let s1 := s.mmuFault x.inst f false 2 0 x.slot x.seq
  match s1.cmd x.slot x.seq with
  | none => s1
  | some c =>
    if St.isGuilty f.status then s1.cmdGuilty c f.status
    else x.leaders.foldl (fun t l => t.updCmd x.slot x.seq (fun c => { c with replicas := c.replicas.map (fun r =>
      if r.leader = l ∧ r.status = St.ok then { r with status := f.status } else r) })) s1

/-- The next block sent with its data, or poisoned where a word of it is uncorrectable. -/
def State.sendBlock (s : State) (g : Nat) (poison : Bool) (data : List Byte) : State :=
  let x := s.skim g
  (s.chargeBlock x x.nextDva 4096 (pagesOf 4096)).updSkim g (fun x => x.advance (poison || x.poison) data)

/-- The running drain stops the group's engine: it issues no request for the launch (18 R384). -/
def State.skimDrained (s : State) (x : Skim) : Bool :=
  s.abrt.roundOn && s.abrt.entries.any (fun e => e.inst == x.inst && (e.scope || e.slot == x.slot))

/-- SKIM_BLOCK_SEND: the engine sends the next block to the attached replicas when every lag allows it, and otherwise a hold starts
(R61, R62). It waits for the bytes of the other controller, and for the next window where the share is spent (04 R79). The bytes of
a page in host memory are open: R61 names no such read. -/
def skimBlockSend (g : Nat) (s : State) : State :=
  let x := s.skim g
  if !x.active || x.lag.isEmpty || x.allSent || s.rst.phase != .none || s.skimDrained x then s
  else if x.blocked then
    if x.holding.isSome then s else s.updSkim g (fun x => { x with holding := some s.now })
  else if (s.sharesNow x.inst).1 ≤ 2 * tabGetD s.mem.window (64 * x.engine + x.inst) 0 then s
  else
    match s.readDva x.inst x.nextDva 4096 [] with
    | .fault f =>
      if f.status = St.memUncorrectable then (s.sendBlock g true (List.replicate 4096 0)).mmuFault x.inst f false 2 0 x.slot x.seq
      else s.skimFault g f
    | .bytes bs _ => if x.fetched < s.foreign x then s else s.sendBlock g false bs
    | .short =>
      let b := freeBytes 4096 s
      if x.fetched < s.foreign x then s else b.2.sendBlock g false b.1

/-- SKIM_BLOCK_SEND (R62). -/
def execSkimBlockSend (g : Fin 8) (s : State) : Result := .next (skimBlockSend g.val s)

/-- SLOT_CREDIT: the credit of a slot that a member of an attached replica freed reaches the engine; with its last slot of the last
pass freed the replica leaves the group. The credits of a detached replica are not counted (R62, R63, R66). -/
def slotCredit (g p : Nat) (s : State) : State :=
  let x := s.skim g
  match x.leaders.find? (fun l => match s.runOf l with
      | some (c, r) => c.slot == x.slot && c.seq == x.seq && (groupParts r.shape r.leader).contains p
      | none => false) with
  | none => s
  | some l =>
    if (s.part p).owed = 0 then s
    else
      let s1 := ((s.slotCreditSeen p x.engine).updPart p (fun x => { x with owed := x.owed - 1 })).updSkim g (fun x => { x with lag := tabModify x.lag l (· - 1) })
      let s2 := s1.updSkim g (fun x => { x with holding := if x.blocked then x.holding else none })
      if (s2.skim g).allSent && tabGetD (s2.skim g).lag l 1 == 0 then
        match s2.runOf l with
        | some (_, r) => s2.leaveSkim g l r.shape
        | none => s2
      else s2

/-- SLOT_CREDIT (R62). -/
def execSlotCredit (g : Fin 8) (p : Fin 16) (s : State) : Result := .next (slotCredit g.val p.val s)

/-- Replicas that still block the stream when the hold limit expires are detached, unless one was detached for lag before, or is the
last attached (R62). When every attached replica blocks, R62 does not say which counts as the last attached: the model goes
through them as they joined and keeps the last of them (DESIGN CHOICE, log entry 93). -/
def State.holdExpiry (s : State) (g : Nat) : State :=
  let x := s.skim g
  (x.leaders.filter (fun l => decide (driftBlocks < tabGetD x.lag l 0 + 1))).foldl (fun t l =>
    if (t.skim g).lag.length ≤ 1 ∨ (t.skim g).lagDetached.contains l then t
    else
      match t.runOf l with
      | some (_, r) => t.detach g l r.shape 0
      | none => t) s

/-- SKIM_HOLD_EXPIRY (R62): 4 µs after the hold began. The engine goes on holding while the last attached replica still blocks
(R67). -/
def execSkimHoldExpiry (g : Fin 8) (s : State) : Result :=
  match (s.skim g.val).holding with
  | some t => .next (if t + 4000 ≤ s.now then
      (s.holdExpiry g.val).updSkim g.val (fun x => { x with holding := if x.blocked then x.holding else none }) else s)
  | none => .next s

/-- The block that a group's engine has on its way to partition `p`, the oldest first. -/
def Skim.copyFor (x : Skim) (p : Nat) : Option SkimCopy := x.flight.find? (fun k => k.left.getLsbD p)

/-- The oldest block for partition `p` has reached it, or its bridge. -/
def takeCopy (p : Nat) : List SkimCopy → List SkimCopy
  | [] => []
  | k :: t =>
    if k.left.getLsbD p then
      let l := k.left &&& ~~~ maskOf [p]
      if l = 0 then t else { k with left := l } :: t
    else k :: takeCopy p t

/-- A block's copy lands in the slot of the ring that follows the last one, as the load of the launch; a poisoned one ends the
replica and writes nothing (R59, 07 R153, 18 R380). -/
def State.landBlock (s : State) (p : Nat) (c : Cmd) (r : Replica) (poison : Bool) (data : List Byte) : State :=
  let s1 := s.updPart p (fun x =>
    let y := if poison then x else (x.loadedBy c.inst c.graph c.version).writeSram .weight (ringSlot x.landed) data
    { y with landed := x.landed + 1 })
  if poison then s1.replicaError c.slot c.seq r.idx St.memUncorrectable else s1

-- Relay tokens and credits (R157) ------------------------------------------------------------------------------------------------

/-- The replica of a relay launch that has role `role`. -/
def roleReplica (c : Cmd) (role : Nat) : Option Replica := c.replicas.find? (fun r => r.role == role)

/-- The edge `e` of a launch's relay map. -/
def State.edgeOf (s : State) (c : Cmd) (e : Nat) : Option Edge := do
  let g ← s.graph c.inst c.graph
  g.fixed.edges[e]?

/-- A member of a replica has a write that is not acknowledged. -/
def State.writesOpen (s : State) (r : Replica) : Bool :=
  s.net.reqs.any (fun e => e.2.write && (groupParts r.shape r.leader).contains (e.1 / 1024))

/-- The producer `r` of an edge, which runs, sends this: a token while it holds a credit, before FINAL, and once its writes are acknowledged (which
of them are the slot's the manual leaves to the microcode; log entry 99); the FINAL marker at its end, where it has sent no token
(R157). -/
def State.maySend (s : State) (c : Cmd) (r : Replica) (edge : Nat) (marker : Bool) : Bool :=
  r.state == .running && !r.outFinal.contains edge &&
    (if marker then !r.outSent.contains edge && s.replicaDone c r
     else decide (0 < tabGetD r.outCredits edge 0) && !s.writesOpen r)

/-- A token or FINAL marker from its producer to its consumer: a token spends a credit and is counted at the consumer; FINAL is
noted on both sides (R157). -/
def tokenArrive (c : Cmd) (e : Edge) (edge : Nat) (final marker : Bool) (s : State) : State :=
  match roleReplica c e.src with
  | none => s
  | some r =>
    if !s.maySend c r edge marker then s
    else
      let fin (l : List Nat) : List Nat := if final then l ++ [edge] else l
      (s.updReplica c.slot c.seq r.idx (fun r =>
        if marker then { r with outFinal := fin r.outFinal }
        else { r with outFinal := fin r.outFinal, outSent := if r.outSent.contains edge then r.outSent else r.outSent ++ [edge],
                      outCredits := tabSet r.outCredits edge (tabGetD r.outCredits edge 0 - 1) })).updCmd c.slot c.seq (fun d =>
        { d with replicas := d.replicas.map (fun x => if x.role = e.dst then
          (if marker then { x with inFinal := fin x.inFinal }
           else { x with inFinal := fin x.inFinal, inTokens := tabSet x.inTokens edge (tabGetD x.inTokens edge 0 + 1) })
          else x) })

/-- A credit from the consumer to the producer, for a slot that an ended tile has read (R157). -/
def creditArrive (c : Cmd) (e : Edge) (edge : Nat) (s : State) : State :=
  match roleReplica c e.dst with
  | none => s
  | some d =>
    if d.state != .running || tabGetD d.owed edge 0 == 0 then s
    else
      (s.updReplica c.slot c.seq d.idx (fun r => { r with owed := tabModify r.owed edge (· - 1) })).updCmd c.slot c.seq (fun c =>
        { c with replicas := c.replicas.map (fun x => if x.role = e.src then
          { x with outCredits := tabSet x.outCredits edge (tabGetD x.outCredits edge 0 + 1) } else x) })

/-- The relay launch and role that a partition's resume slot holds for the queue slot `slot` (R159). -/
def State.savedRole (s : State) (p slot : Nat) : Option (Cmd × Replica) :=
  match (s.part p).resume with
  | none => none
  | some x => if x.slot = slot then (do
      let c ← s.cmd x.slot x.seq
      let r ← replica? c x.idx
      if c.relay && !c.cancelled then some (c, r) else none) else none

end Sys2Proof.Machine
end

