-- ==== Sys2Proof/Machine/Network.lean ====
section
/-! DEFINITION. The on-chip network (10 R208 to R233): tickets, the Glove's check point 3, generation
tables, the packets that targets and initiators receive, bridges and timeouts. -/

namespace Sys2Proof.Machine
open Sys2Proof

-- Tickets and tags (R216, R227) ---------------------------------------------------------------------------------------------

/-- Standing batches (R216). A partition has 8 tickets more at each memory controller for its save path alone, which moves a live
set without a packet of its own (log entry 96). -/
def standing (src dst : Nat) : Nat :=
  if dst = 17 ∨ dst = 18 then
    if src < 16 then 16
    else if src = nFep then 32
    else if (src = 22 ∧ dst = 18) ∨ (src = 23 ∧ dst = 17) then 32
    else if (src = 17 ∧ dst = 18) ∨ (src = 18 ∧ dst = 17) then 16 else 0
  else if dst = nHost then (if src < 16 then 8 else if src = nFep then 64 else 0)
  else if dst = nFep then (if src = nHost then 64 else 0)
  else if dst = nMgc then (if src = nFep then 8 else if src = nHost then 16 else 0)
  else 0

/-- Loan pools (R216). -/
def loanPool (dst : Nat) : Nat :=
  if dst = 17 ∨ dst = 18 ∨ dst = nHost then 32 else if dst = nFep ∨ dst = nMgc then 16 else 0

/-- Skim engines read their own controller without a ticket, and registers of partitions need none (R216). -/
def needsTicket (src dst : Nat) : Bool :=
  (dst == 17 || dst == 18 || dst == nHost || dst == nFep || dst == nMgc) && !((src == 22 && dst == 17) || (src == 23 && dst == 18))

/-- Key of an initiator and a target. -/
def pairKey (src dst : Nat) : Nat := src * 32 + dst

/-- The initiator holds a ticket for the target (R216, R227). -/
def Net.hasTicket (n : Net) (src dst : Nat) : Bool :=
  !needsTicket src dst ||
    decide (tabGetD n.out (pairKey src dst) 0 + tabGetD n.writtenOff (pairKey src dst) 0
      < standing src dst + tabGetD n.loans (pairKey src dst) 0)

/-- Bytes that the FEP has asked of host memory for a stream, answered or not. -/
def State.streamLen (s : State) (k : Nat) : Nat :=
  (s.fepOut k).foldl (fun a e => max a (e.2.at_ + e.2.len)) (s.hostBytes k).length

-- The DMA engines of partitions and the reads of Skim engines (02 R37, 03 R61, R64) ----------------------------------------------

/-- The blocks of a stream in one pass that member `m` of `n` receives (R58). -/
def memberBlocks (blocks n m : Nat) : Nat := (blocks + n - 1 - m) / n

/-- The next private read of the stream by partition `p`, whose replica is not attached: the ordinal of its block among those that
the member receives, and the address and bytes left of the block from there on (03 R64). A block goes to a slot that is free, no
copy of the engine's is on its way, and the stream has a block left. -/
def State.ringNext (s : State) (p : Nat) : Option (Nat × Nat × Nat) := do
  let (c, r) ← s.runOf p
  let (st, dva) ← s.needStream c ⟨r.idx, r.role, r.shape, r.leader⟩
  let n := max 1 st.members
  let x := s.part p
  let k := x.landed + x.ringAsked / 4096
  let per := memberBlocks st.blocks n (p - r.leader)
  if r.skim.isSome || s.skims.any (fun e => (e.2.copyFor p).isSome) || decide (r.used + 16 ≤ k) || decide (st.passes * per ≤ k) then none
  else some (k, dva + 4096 * (k % per * n + (p - r.leader)) + x.ringAsked % 4096, 4096 - x.ringAsked % 4096)

/-- A private read of the stream goes to where the translation of its address lies, at urgency 0 (03 R64). -/
def State.ringReadOk (s : State) (p : Pkt) : Bool :=
  p.typ == 0 && p.urg == 0 && (match s.ringNext p.src with
    | some (_, dva, left) => decide (p.bytes + 1 ≤ left) && (match s.translate p.inst dva false with
      | .priv a => !p.hostSpace && p.addr == a
      | .host a => p.hostSpace && p.addr == a
      | .fault _ _ => false)
    | none => false)

/-- The group of an engine's slot whose next block has bytes of the other controller still to be read (03 R61). -/
def State.skimReads (s : State) (node slot : Nat) : Option Nat :=
  (s.skims.find? (fun e => e.2.active && e.2.engine + 22 == node && e.2.slot == slot && !e.2.lag.isEmpty && !e.2.allSent
    && decide (e.2.fetched < s.foreign e.2))).map (·.1)

/-- Where a partition's read goes: what the request says, or the slot of the ring for a private read of the stream. -/
def State.dmaOf (s : State) (p : Pkt) (d : Dma) : Option Dma :=
  if !d.ring then some d
  else (s.ringNext p.src).map (fun e => { d with sram := .weight, off := ringSlot e.1 + (4096 - e.2.2) })

/-- A request as its initiator keeps it. -/
def State.reqOf (s : State) (p : Pkt) (d : Option Dma) : NetReq :=
  let fep := decide (p.src = nFep ∧ p.typ = 0 ∧ p.dst = nHost)
  let grp := if (p.src = 22 ∧ p.dst = 18) ∨ (p.src = 23 ∧ p.dst = 17) then s.skimReads p.src p.slot else none
  let ring := if p.src < 16 ∧ d.any (·.ring) then s.ringNext p.src else none
  { dst := p.dst, tgen := p.tgen, inst := p.inst, gen := p.gen, slot := p.slot, kind := p.typ, sentAt := s.now,
    loaned := decide (standing p.src p.dst ≤ tabGetD s.net.out (pairKey p.src p.dst) 0 + tabGetD s.net.writtenOff (pairKey p.src p.dst) 0),
    write := p.typ == 1, addr := p.addr, host := p.hostSpace, urg := max p.urg (s.startUrg p ring.isSome),
    at_ := if fep then s.streamLen (fepStream p.slot p.tag) else (grp <|> ring.map (·.1)).getD 0
    len := if fep || grp.isSome || (p.src < 16 && p.typ == 0) then p.bytes + 1 else 0
    dma := if p.src < 16 then d.bind (s.dmaOf p) else none }

/-- A request sent: its ticket is spent and its tag in use; a loaned ticket is used when the batch is out. -/
def State.sent (s : State) (p : Pkt) (d : Option Dma) : State :=
  let s1 := { s with net := { s.net with
    out := bump s.net.out (pairKey p.src p.dst) (· + 1)
    reqs := tabSet s.net.reqs (tagKey p.src p.tag) (s.reqOf p d) } }
  if p.src < 16 ∧ d.any (·.ring) then s1.updPart p.src (fun x => { x with ringAsked := x.ringAsked + (p.bytes + 1) }) else s1

/-- A ticket back at its initiator; a loaned one returns to the pool (R216). -/
def Net.giveTicket (n : Net) (src dst : Nat) (loaned : Bool) : Net :=
  let k := pairKey src dst
  { n with out := bump n.out k (· - 1),
           loans := if loaned then bump n.loans k (· - 1) else n.loans,
           lent := if loaned then bump n.lent dst (· - 1) else n.lent }

/-- The request of an initiator's tag ended: its tag is free and its ticket back. -/
def State.answered (s : State) (src tag : Nat) : State :=
  match tabGet s.net.reqs (tagKey src tag) with
  | none => s
  | some r =>
    let n := s.net.giveTicket src r.dst r.loaned
    { s with net := { n with reqs := tabErase n.reqs (tagKey src tag) } }

/-- The present generation of a tag. -/
def State.tagGen (s : State) (src tag : Nat) : Nat := tabGetD s.net.tgen (tagKey src tag) 0

-- Arrival at a node: drains, bridges, the Glove (R223, R226, R229) -------------------------------------------------------------

/-- A bridge stands between the network and the node: partitions, MGC complex, I/O node (R224). -/
def bridgeOf (node : Nat) : Option Nat := if node < 16 then some node else if node = 20 then some 16 else if node = 21 then some 17 else none

/-- The node is cut off by a FATAL bridge. -/
def State.cutOff (s : State) (node : Nat) : Bool := match bridgeOf node with | some b => (s.bridge b).fatal | none => false

/-- A drain entry matches traffic of an instance and slot between two nodes under a tag (18 R384). -/
def DrainEntry.matches (e : DrainEntry) (inst slot src dst tag : Nat) : Bool :=
  e.inst == inst && (e.scope || e.slot == slot)
    && (e.whole || (decide (src < 16) && e.parts.getLsbD src) || (decide (dst < 16) && e.parts.getLsbD dst)
      || ((src == nFep || dst == nFep) && bits tag 9 8 == 3 && e.chans.getLsbD (bits tag 7 6)))

/-- The running drain voids the packet (R229). -/
def State.voided (s : State) (p : Pkt) : Bool :=
  s.abrt.roundOn && s.abrt.entries.any (fun e => e.matches p.inst p.slot p.src p.dst p.tag)

/-- A gated partition's bridge sinks the packet and counts it (R226). -/
def State.sink (s : State) (p : Nat) : State := s.updBridge p (fun b => { b with discard := satInc b.discard })

/-- The generation table entry of a node (R222); the FEP keeps the generations itself. -/
def State.nodeGen (s : State) (node n : Nat) : BitVec 16 :=
  if node = nFep then (s.inst n).gen else tabGetD s.net.gens (node * 64 + n) 0

/-- The queue at SLOT becomes guilty with GLOVE_MISMATCH at its oldest accepted command, or at READ (R223). -/
def State.gloveGuilty (s : State) (slot : Nat) : State :=
  match s.queue slot with
  | none => s
  | some q => match (s.accepted slot).head? with
    | some c => s.cmdGuilty c St.gloveMismatch
    | none => s.makeGuilty slot q.read 1 0 St.gloveMismatch none

/-- Outcome of check point 3. -/
inductive Glove where
  | pass
  | discard (s : State)

/-- Check point 3 at the node that receives the packet (R223). -/
def State.glove3 (s : State) (node : Nat) (p : Pkt) : Glove :=
  let exists_ := decide (p.inst ≤ 32) && (s.inst p.inst).state != .absent
  let mine := decide (node ≥ 16) || (match s.runOf node with | some (c, _) => c.inst == p.inst | none => false)
  if !exists_ || !mine then
    let owner := (s.queue p.slot).map (·.inst)
    let s1 := s.spoof 3 p.inst owner p.src p.dst p.slot 0 p.typ 0
    .discard (if p.slot = 0x3FF then s1 else s1.gloveGuilty p.slot)
  else if p.gen ≠ s.nodeGen node p.inst then .discard (s.updInst p.inst (fun i => { i with stale := satInc i.stale }))
  else .pass

/-- The packet with INST, GEN and SLOT as the interface of its source writes them (R221): a partition those of its launch, a
Skim engine those of the group's, the FEP those of the queue or of the command on the copy channel, and INST 0 for its
bookkeeping and the MGC complex. An INST that no instance can have is what a failed interface writes. -/
def State.filled (s : State) (p : Pkt) : Pkt :=
  let of (c : Cmd) : Pkt := { p with inst := c.inst, gen := c.gen, slot := c.slot }
  if 32 < p.inst then p
  else if p.src < 16 then (match s.runOf p.src with | some (c, _) => of c | none => p)
  else if p.src = 22 ∨ p.src = 23 then (match s.skimLaunch p.src p.slot with | some c => of c | none => p)
  else if p.src = nFep then
    if bits p.tag 9 8 = 3 then
      match (tabVals s.cmds).find? (fun c => c.chan == some (bits p.tag 7 6)) with
      | some c => of c
      | none => p
    else match s.queue p.slot with
      | some q => { p with inst := q.inst, gen := (s.inst q.inst).gen }
      | none => { p with inst := 0, gen := (s.inst 0).gen, slot := 0x3FF }
  else if p.src = nMgc then { p with inst := 0, gen := (s.inst 0).gen }
  else p

/-- The initiator may issue a new request. A partition does for the launch it runs, unless a member of it is offline (02 R49, R52),
a drain round stops it (18 R385) or an error response has ended its launch (18 R380), and reads its stream for itself only as
03 R64 has it. A Skim engine does for a group of that slot, and no other FEP request than a copy channel's, for the command on it,
uses TAG[9:8] = 3 (18 R384). -/
def State.mayIssue (s : State) (p : Pkt) (d : Option Dma) : Bool :=
  if p.src < 16 then
    (match s.runOf p.src with
     | some (c, r) => s.goes c r && r.state == .running && !r.done
        && (groupParts r.shape r.leader).all (fun q => (s.part q).state == .busy)
     | none => false)
      && (s.part p.src).state == .busy && !(s.abrt.roundOn && s.abrt.parts.contains p.src)
      && (!d.any (·.ring) || s.ringReadOk p)
  else if p.src = 22 ∨ p.src = 23 then (s.skimLaunch p.src p.slot).isSome
  else if p.src = nFep then
    s.fepRuns && (bits p.tag 9 8 != 3 || (tabVals s.cmds).any (fun c => c.chan == some (bits p.tag 7 6) && !c.cancelled))
  else true

/-- The request is addressed as initiators address theirs: host addresses to the host bridge, and a private one to the memory
controller that PPA bit 12 selects (R211, 04 R77). -/
def addressed (p : Pkt) : Bool :=
  if p.dst = nHost then p.hostSpace
  else if p.dst = 17 ∨ p.dst = 18 then !p.hostSpace && decide (p.dst = 17 + p.addr / 4096 % 2)
  else true

/-- A VC0 request arrives at its target: its source has filled in whose it is, it has passed its route, its ticket is spent, and
unless a drain, a FATAL bridge or the Glove takes it, `f` serves it. A request without a ticket is not sent; one whose tag was
timed out is served without a new tag. `d` is what a partition's DMA engine moves by it. -/
def State.dmaRequest (s : State) (p0 : Pkt) (d : Option Dma) (f : Pkt → State → State) : State :=
  let p := s.filled p0
  let key := tagKey p.src p.tag
  let known := (tabGet s.net.reqs key).isSome
  let current := decide (p.tgen = s.tagGen p.src p.tag)
  if s.cutOff p.src || (!known && current && (!s.net.hasTicket p.src p.dst || !s.mayIssue p d)) then s
  else
    let s1 := (if known || !current then s else s.sent p d).observe p
    if s.cutOff p.dst || s1.voided p then s1
    else match s1.glove3 p.dst p with
      | .discard t => t
      | .pass => f p s1

/-- A request that moves no data of a partition's SRAM. -/
def State.request (s : State) (p : Pkt) (f : Pkt → State → State) : State := s.dmaRequest p none f

/-- A request of the initiator's tag still waits at its target, or for the host: it has no response yet (R23, R216). -/
def State.waitsAt (s : State) (src tag tgen : Nat) : Bool :=
  let is (p : Pkt) : Bool := p.src == src && p.tag == tag && p.tgen == tgen
  s.mem.windowWait.any (fun w => is w.pkt) || (tabVals s.link.outstanding).any (fun r => is r.pkt && !r.marked)

/-- A VC1 response or a VOID arrives at its initiator (DST): one with a stale TGEN is counted in NET_LATE and restores a
written-off ticket (R227); one the Glove discards returns its ticket (R223); otherwise `f` takes it and the tag is free. It
copies INST, GEN and SLOT from its request (R221). A gated partition's bridge sinks it (R226). -/
def State.response (s : State) (p : Pkt) (f : NetReq → State → State) : State :=
  let s1 := s.observe p
  if s.cutOff p.src || s.cutOff p.dst then s1
  else if p.dst < 16 && (s1.part p.dst).state == .gated then s1.sink p.dst
  else if p.tgen ≠ s.tagGen p.dst p.tag then
    { s1 with net := { s1.net with late := satInc s1.net.late, writtenOff := bump s1.net.writtenOff (pairKey p.dst p.src) (· - 1) } }
  else
    match tabGet s1.net.reqs (tagKey p.dst p.tag) with
    | none => s1
    | some r =>
      let s2 := s1.answered p.dst p.tag
      if p.typ = 0x17 || s1.voided p then s2
      else match s2.glove3 p.dst (if 32 < p.inst then p else { p with inst := r.inst, gen := r.gen, slot := r.slot }) with
        | .discard t => t
        | .pass => f r s2

-- Error responses (18 R380, 04 R73, R81) --------------------------------------------------------------------------------------------

/-- The DVA of a request that the host has refused: the one that a cached translation gives its address, and free where none
does. -/
def State.dvaOf (s : State) (r : NetReq) : Nat × State :=
  match (s.inst r.inst).mmu.leaves.find? (fun e => leafReaches e.2 r.host r.addr) with
  | some e => (e.1 * 65536 + r.addr % 65536, s)
  | none => ((Config.freeWord s.freeCount).toNat, s.useFree)

/-- The first error that ended an access of one of the FEP's streams. -/
def State.streamFails (s : State) (k : Nat) (st : Status) : State :=
  if (s.streamErr k).isSome then s else { s with fep := { s.fep with readErr := tabSet s.fep.readErr k st } }

/-- An error response ends the work that its request was made for (R380): a partition's launch, with the fault recorded where the
host refused its translation (04 R73, R81), the replicas that a Skim engine's block addresses, an uncorrectable word making the
block a poisoned one, or the fetch or command of the FEP. -/
def State.errorResponse (s : State) (node tag : Nat) (r : NetReq) (st : Status) : State :=
  if node < 16 then
    let s1 := if st = St.hostXlate then
        let d := s.dvaOf r
        d.2.mmuFault r.inst ⟨st, d.1, 0⟩ r.write 1 node r.slot (((s.runOf node).map (·.1.seq)).getD 0)
      else s
    match s.runOf node with
    | some (c, x) => s1.replicaError c.slot c.seq x.idx st
    | none => s1
  else if node = 22 ∨ node = 23 then
    let x := s.skim r.at_
    if !x.active || x.engine + 22 != node || x.slot != r.slot || r.len == 0 then s
    else if st = St.memUncorrectable then s.updSkim r.at_ (fun x => { x with fetched := x.fetched + r.len, poison := true })
    else s.skimFault r.at_ ⟨st, x.nextDva, 0⟩
  else if node = nFep then s.streamFails (fepStream r.slot tag) st
  else s

/-- Bytes that a read of host memory has brought for the FEP, in their place among those of its stream. -/
def State.streamData (s : State) (tag : Nat) (r : NetReq) (data : List Byte) : State :=
  if r.len = 0 then s
  else
    let k := fepStream r.slot tag
    let bs := s.hostBytes k
    { s with fep := { s.fep with hostIn := tabSet s.fep.hostIn k (patchAt (padTo (max bs.length r.at_) bs) r.at_ (padTo r.len data)) } }

/-- Blocks of a private fetch that have come whole land in order (03 R64). -/
def Part.landRing (x : Part) : Nat → Part
  | 0 => x
  | fuel + 1 =>
    if tabGetD x.ringIn x.landed 0 = 4096 then
      ({ x with landed := x.landed + 1, ringAsked := x.ringAsked - 4096, ringIn := tabErase x.ringIn x.landed }).landRing fuel
    else x

/-- Data of a read that a partition's DMA engine issued, moved into its SRAM (02 R37); weight SRAM is then no longer another
launch's (07 R153). -/
def State.dmaLand (s : State) (p : Nat) (r : NetReq) (data : List Byte) : State :=
  match r.dma, s.runOf p with
  | some d, some (c, _) => s.updPart p (fun x =>
      let y := if d.sram = .weight then x.loadedBy c.inst c.graph c.version else x
      let z := y.writeSram d.sram d.off (padTo r.len (data.take r.len))
      if d.ring then ({ z with ringIn := bump z.ringIn r.at_ (· + r.len) }).landRing 16 else z)
  | _, _ => s

/-- The data of a read at its initiator: a stream of the FEP, a partition's SRAM, the next block of a Skim engine. -/
def State.readArrived (s : State) (node tag : Nat) (r : NetReq) (data : List Byte) : State :=
  if node < 16 then s.dmaLand node r data
  else if node = nFep then (if r.dst = nHost then s.streamData tag r data else s)
  else if node = 22 ∨ node = 23 then
    if (s.skim r.at_).active && (s.skim r.at_).engine + 22 == node && (s.skim r.at_).slot == r.slot then
      s.updSkim r.at_ (fun x => { x with fetched := x.fetched + r.len }) else s
  else s

/-- The response of a host read goes back to its initiator with a status; a marked one is discarded (18 R385). -/
def State.endHostRead (s : State) (tag : Nat) (h : HostReq) (st : Status) (data : List Byte) : State :=
  let s1 := { s with link := { s.link with outstanding := tabErase s.link.outstanding tag } }
  if h.marked then s1
  else
    let p : Pkt := { h.pkt with typ := if h.xlat.any (·.write) then 0x09 else 0x08, src := nHost, dst := h.pkt.src, status := st }
    s1.response p (fun r t => if st = St.ok then (if r.write then t else t.readArrived h.pkt.src h.pkt.tag r data)
      else t.errorResponse h.pkt.src h.pkt.tag r st)

-- Requests served (R23, R76, R79, R82, R105) -------------------------------------------------------------------------------------

/-- The window of the request is spent: half the private share at the controller that it goes to, the whole host ceiling; a host
ceiling of 0 is none (R79, R234). A change of a share acts from the next window on (R241). -/
def State.windowSpent (s : State) (p : Pkt) : Bool :=
  let l := s.sharesNow p.inst
  if p.dst = nHost then l.2 != 0 && decide (l.2 ≤ tabGetD s.mem.window (128 + p.inst) 0)
  else decide (l.1 ≤ 2 * tabGetD s.mem.window ((p.dst - 17) * 64 + p.inst) 0)

/-- Traffic of an instance on host memory counted in the window of the host bridge (R234). -/
def State.chargeHost (s : State) (n k : Nat) : State :=
  { s with mem := { s.mem with window := bump s.mem.window (128 + n) (· + k) } }

/-- A host read enters the bridge with the lowest free link tag (R109). -/
def State.hostRead (s : State) (p : Pkt) : State :=
  match s.freeTag with
  | some t =>
    let r : HostReq := { fn := p.inst, pkt := p, sentAt := s.now, page := if s.usesAts p.inst then some (p.addr / 4096) else none }
    { s with link := { s.link with outstanding := tabSet s.link.outstanding t r } }
  | none => s

/-- A read of host memory that the bridge cannot send because the link is down (R115). -/
def State.refuseRead (s : State) (p : Pkt) : State :=
  s.response { p with typ := 0x08, src := nHost, dst := p.src, status := St.hostLinkDown }
    (fun r t => t.errorResponse p.src p.tag r St.hostLinkDown)

/-- A request at the host bridge: with address-translation services it goes translated, and asks the host first for a page that
the ATC lacks (R72); without, as it is. A write while the link is down is discarded (R115). -/
def State.performHost (s : State) (w : Waiting) : State :=
  let n := w.pkt.inst
  let k := w.pkt.bytes + 1
  if !s.link.up then (if w.write then s else s.refuseRead w.pkt)
  else
    let known := tabGet s.link.atc (atcKey n (w.pkt.addr / 4096))
    if s.usesAts n && known.isNone then s.askXlat n w
    else if w.write then
      if w.data.isEmpty then s
      else s.post (match known with
        | some a => if s.usesAts n then .writeAt n (a * 4096 + w.pkt.addr % 4096) (w.data.take k) else .write n w.pkt.addr (w.data.take k)
        | none => .write n w.pkt.addr (w.data.take k))
    else s.hostRead w.pkt

/-- The bytes that a memory controller has read for a request go with its response. -/
def State.readFor (s : State) (p : Pkt) (bs : List Byte) : State :=
  { s with net := { s.net with reqs := tabModify s.net.reqs (tagKey p.src p.tag) (fun r => if r.tgen = p.tgen then { r with data := bs } else r) } }

/-- A read or write performed at its target, a memory controller or the host bridge (R208, R216); at any other node it
finds nothing to serve it. -/
def State.perform (s : State) (w : Waiting) : State :=
  let len := w.pkt.bytes + 1
  let n := w.pkt.inst
  if w.pkt.dst = nHost then (s.chargeHost n len).performHost w
  else if w.pkt.dst ≠ 17 ∧ w.pkt.dst ≠ 18 then s
  else if w.write then s.storePriv n w.pkt.addr (w.data.take len)
  else
    let s2 := ((s.chargePriv n w.pkt.addr len).corrected w.pkt.addr len).readFor w.pkt (s.readPrivN w.pkt.addr len)
    if s.badIn w.pkt.addr len then { s2 with dict := { s2.dict with memUe := satInc s2.dict.memUe } } else s2

/-- Two requests of one initiator that may not pass each other: to the same 64-byte block of private memory, or in host memory
any after a write (R92). -/
def inOrder (a b : Pkt) (aWrites : Bool) : Bool :=
  a.src == b.src && a.dst == b.dst
    && (if a.dst = nHost then aWrites
        else decide (a.addr / 64 ≤ (b.addr + b.bytes) / 64) && decide (b.addr / 64 ≤ (a.addr + a.bytes) / 64))

/-- A request has to wait at its target: its window is spent (R79, R234), the bridge holds no more reads (05 R96), or one that it
may not pass waits (R92). -/
def State.mustWait (s : State) (w : Waiting) : Bool :=
  (w.pkt.dst == nHost || w.pkt.dst == 17 || w.pkt.dst == 18)
    && (s.windowSpent w.pkt || (w.pkt.dst == nHost && !w.write && s.freeTag.isNone)
      || s.mem.windowWait.any (fun v => inOrder v.pkt w.pkt v.write))

/-- A read or write performed, or held. -/
def State.performOrWait (s : State) (w : Waiting) : State :=
  if s.mustWait w then { s with mem := { s.mem with windowWait := s.mem.windowWait ++ [w] } } else s.perform w

/-- The packet's data flits are those its type and byte count need (R211, R212). -/
def lenOk (write : Bool) (p : Pkt) : Bool :=
  if write then decide (1 ≤ p.len) && decide (p.len ≤ 8) && decide (p.bytes < 32 * p.len) else p.len == 0

/-- A private address of a memory controller that no translation yields (R70, R81). -/
def State.ppaMissing (s : State) (p : Pkt) : Bool :=
  (p.dst == 17 || p.dst == 18) && decide (s.usable < p.addr + p.bytes + 1)

/-- A malformed packet is discarded and counted (R232). -/
def State.malformed (s : State) : State := { s with net := { s.net with malformed := satInc s.net.malformed } }

/-- RD (R216): a read request at a memory controller or the host bridge. -/
def execRd (pkt : Pkt) (dma : Dma) (s : State) : Result :=
  if !lenOk false pkt then .next s.malformed
  else if s.ppaMissing pkt then .fault .noSuchPpa
  else if !addressed pkt then .next s
  else .next (s.dmaRequest pkt (some dma) (fun p t => t.performOrWait ⟨false, p, []⟩))

/-- The bytes of a write: those of the partition's SRAM for its DMA engine (02 R37). -/
def State.writeData (s : State) (p : Pkt) (data : List Byte) (d : Dma) : List Byte :=
  if p.src < 16 then (s.part p.src).readSram d.sram d.off (p.bytes + 1) else data

/-- WR (R23): a write request at a memory controller or the host bridge. -/
def execWr (pkt : Pkt) (data : List Byte) (dma : Dma) (s : State) : Result :=
  if !lenOk true pkt || decide (16 ≤ pkt.src ∧ data.length < pkt.bytes + 1) then .next s.malformed
  else if s.ppaMissing pkt then .fault .noSuchPpa
  else if !addressed pkt then .next s
  else .next (s.dmaRequest pkt (some { dma with ring := false }) (fun p t => t.performOrWait ⟨true, p, s.writeData p data dma⟩))

/-- A walk at a memory controller for an initiator's access: it is translated as the MMU stands, the caches take what they lack
(R82), and a fault is recorded and reported (R81, R84); the response carries its status. -/
def State.serveWalk (s : State) (p : Pkt) (dva : Nat) (write : Bool) : State :=
  let who := if p.src < 16 then 1 else if p.src = 22 ∨ p.src = 23 then 2 else 0
  let seq := if p.src < 16 then ((s.runOf p.src).map (·.1.seq)).getD 0 else ((s.skimLaunch p.src p.slot).map (·.seq)).getD 0
  match s.translate p.inst dva write with
  | .fault st lvl =>
    (s.xlated p.inst p.src dva).mmuFault p.inst ⟨st, dva, lvl⟩ write who (if p.src < 16 then p.src else 0) p.slot seq
  | _ => s.xlated p.inst p.src dva

/-- WALK (R82). -/
def execWalk (pkt : Pkt) (dva : Nat) (write : Bool) (s : State) : Result :=
  .next (if pkt.len ≠ 0 then s.malformed
    else s.request pkt (fun p t => if dva < 2 ^ 48 && decide (p.dst = 17 + p.inst % 2) then t.serveWalk p dva write else t))

/-- IRQ (R105): an interrupt request at the host bridge. -/
def execIrq (pkt : Pkt) (vector : Nat) (s : State) : Result :=
  .next (if pkt.len ≠ 0 then s.malformed
    else s.request pkt (fun p t => if vector < (if p.inst = 0 then 64 else 8) then t.msix p.inst vector else t))

-- Responses (R23, R216, R227, R380) -------------------------------------------------------------------------------------------------

/-- The request was one of a memory controller. -/
def NetReq.atMc (r : NetReq) : Bool := r.dst == 17 || r.dst == 18

/-- RD_RSP (R380): the data that the target has read, at its initiator. An uncorrectable word of private memory is known bad from then on; with inline ECC
off the device detects none (R76). -/
def execRdRsp (pkt : Pkt) (poisoned : Bool) (s : State) : Result :=
  .next (if 8 < pkt.len then s.malformed
    else if s.waitsAt pkt.dst pkt.tag pkt.tgen
      || ((pkt.src == 17 || pkt.src == 18) && !s.mem.ecc && (poisoned || pkt.status == St.memUncorrectable)) then s
    else s.response pkt (fun r t =>
      let t1 := if pkt.status = St.memUncorrectable && r.atMc && !t.mem.bad.contains (r.addr / 8) then
          { t with mem := { t.mem with bad := t.mem.bad ++ [r.addr / 8] } } else t
      if pkt.status ≠ St.ok then t1.errorResponse pkt.dst pkt.tag r pkt.status
      else if poisoned then t1.errorResponse pkt.dst pkt.tag r (if r.dst = nHost then St.hostPoison else St.memUncorrectable)
      else if r.atMc && !r.write then t1.readArrived pkt.dst pkt.tag r r.data
      else t1))

/-- WR_ACK (R23): sent once the write is performed. -/
def execWrAck (pkt : Pkt) (s : State) : Result :=
  .next (if pkt.len ≠ 0 then s.malformed
    else if s.waitsAt pkt.dst pkt.tag pkt.tgen then s
    else s.response pkt (fun r t => if pkt.status ≠ St.ok then t.errorResponse pkt.dst pkt.tag r pkt.status else t))

/-- REG_RSP (R221). -/
def execRegRsp (pkt : Pkt) (s : State) : Result :=
  .next (if 1 < pkt.len then s.malformed else s.response pkt (fun _ t => t))

/-- VOID (R229): the ticket comes back and the tag is free, with no response. -/
def execVoidPkt (pkt : Pkt) (s : State) : Result :=
  .next (if pkt.len ≠ 0 then s.malformed else s.response { pkt with typ := 0x17 } (fun _ t => t))

-- VC2 and VC3 packets at partitions (R157, R223, R226) ---------------------------------------------------------------------------------

/-- A VC2 or VC3 packet at partition `p`: sunk by a gated partition's bridge, dropped by a FATAL one, voided by a drain,
checked by the Glove, then taken by `f`. -/
def State.control (s : State) (p : Nat) (pkt : Pkt) (f : State → State) : State :=
  let s1 := if pkt.typ = 0x0C then s else s.observe pkt
  if s.cutOff pkt.src || s.cutOff p then s1
  else if (s1.part p).state == .gated then s1.sink p
  else if s1.voided pkt then s1
  else match s1.glove3 p pkt with
    | .discard t => t
    | .pass => f s1

/-- The packet of a stream block as its engine's interface writes it: the partitions that the block addresses, urgency 4 for a
contracted launch and 0 otherwise, and the launch's INST and GEN (03 R61, R221); an INST that no instance can have is what a failed
interface writes. -/
def skimPkt (pkt : Pkt) (k : SkimCopy) (c : Cmd) : Pkt :=
  { pkt with typ := 0x0C, mask := k.mask, urg := if c.cls = 0 then 4 else 0, inst := if 32 < pkt.inst then pkt.inst else c.inst,
             gen := c.gen }

/-- SKIM (R223): a partition's copy of the stream block that the engine at SRC has sent it longest ago lands in its ring (03 R59). The
probes see the whole tree with the copy of the lowest partition (R215). -/
def execSkim (pkt : Pkt) (p : Fin 16) (s : State) : Result :=
  .next (if pkt.len ≠ 128 then s.malformed
    else match s.skims.find? (fun e => e.2.engine + 22 == pkt.src && e.2.slot == pkt.slot && (e.2.copyFor p.val).isSome) with
    | none => s
    | some (g, x) => match x.copyFor p.val, s.cmd x.slot x.seq with
      | some k, some c =>
        let h := skimPkt pkt k c
        let s1 := (if (leadersOf k.mask).head? = some p.val then s.observeSkim h else s).updSkim g (fun x =>
          { x with flight := takeCopy p.val x.flight })
        s1.control p.val h (fun t => match t.runOf p.val with
          | some (d, r) => if d.slot = c.slot ∧ d.seq = c.seq then t.landBlock p.val d r k.poison k.data else t
          | none => t)
      | _, _ => s)

/-- A token or credit reaches the role of a relay launch on partition `p`. Where the role is saved already it is counted there, with
the counts that its resume brings back (R159; log entry 99). -/
def State.relayPacket (s : State) (p : Nat) (pkt : Pkt) (f : Cmd → Replica → State → State) : State :=
  match s.savedRole p pkt.slot with
  | some (c, r) => f c r (s.observe pkt)
  | none => s.control p pkt (fun t => match t.runOf p with
    | some (c, r) => f c r t
    | none => t)

/-- TOKEN (R157): a data-ready token, or a FINAL marker, at the consumer of an edge. -/
def execToken (p : Fin 16) (edge : Fin 32) (final marker : Bool) (pkt : Pkt) (s : State) : Result :=
  .next (s.relayPacket p.val (s.filled pkt) (fun c r t => match t.edgeOf c edge.val with
    | some e => if c.relay && e.dst == r.role && r.leader == p.val && (final || !marker) then
        tokenArrive c e edge.val final marker t else t
    | none => t))

/-- CREDIT (R157): a buffer credit at the producer of an edge. -/
def execCredit (p : Fin 16) (edge : Fin 32) (pkt : Pkt) (s : State) : Result :=
  .next (s.relayPacket p.val (s.filled pkt) (fun c r t => match t.edgeOf c edge.val with
    | some e => if c.relay && e.src == r.role && r.leader == p.val then creditArrive c e edge.val t else t
    | none => t))

-- Loans (R216) ----------------------------------------------------------------------------------------------------------------------------

/-- TICKET_REQ (R216): a request for 1 to 8 loan tickets joins the target's queue. -/
def execTicketReq (pkt : Pkt) (count : Nat) (s : State) : Result :=
  .next (if pkt.len ≠ 0 then s.malformed
    else if count = 0 ∨ 8 < count ∨ loanPool pkt.dst < count then s.observe pkt
    else
      let s1 := s.observe pkt
      { s1 with net := { s1.net with loanQueue := s1.net.loanQueue ++ [(pkt.dst, pkt.src, count)] } })

/-- TICKET_GRANT (R216): the oldest request at the target (SRC) is granted to its initiator (DST) when the pool holds the
tickets. -/
def execTicketGrant (pkt : Pkt) (count : Nat) (s : State) : Result :=
  let s1 := s.observe pkt
  if pkt.dst < 16 && (s1.part pkt.dst).state == .gated then .next (s1.sink pkt.dst)
  else match s1.net.loanQueue.find? (fun e => e.1 == pkt.src) with
  | some e =>
    .next (if e == (pkt.src, pkt.dst, count) && decide (tabGetD s1.net.lent pkt.src 0 + count ≤ loanPool pkt.src)
        && !s1.cutOff pkt.dst then
      { s1 with net := { s1.net with
        loanQueue := s1.net.loanQueue.erase e
        lent := bump s1.net.lent pkt.src (· + count)
        loans := bump s1.net.loans (pairKey pkt.dst pkt.src) (· + count) } }
      else s1)
  | none => .next s1

-- Generations (R222, R250) ------------------------------------------------------------------------------------------------------------------

/-- Nodes that keep a generation table and answer a GEN_UPDATE: every one but the FEP (R222). -/
def genNodes : List Nat := (List.range 24).filter (· != nFep)

/-- A generation advanced by one, 0xFFFF going to 1; every node that is not cut off has to answer (R222, R250). -/
def State.advanceGen (s : State) (n : Nat) : State :=
  s.updInst n (fun i => { i with gen := if i.gen = 0xFFFF then 1 else i.gen + 1,
                                 genWait := genNodes.filter (fun k => !s.cutOff k) })

/-- GEN_UPDATE (R222): a node takes the FEP's entry for an instance into its table. -/
def execGenUpdate (node : Fin 24) (n : Fin 33) (gen : BitVec 16) (s : State) : Result :=
  .next (if (s.inst n.val).genWait.contains node.val && gen == (s.inst n.val).gen && !s.cutOff node.val then
    let t := s.genUpdateSeen node.val
    { t with net := { t.net with gens := tabSet t.net.gens (node.val * 64 + n.val) gen } } else s)

/-- GEN_ACK (R222): the FEP receives a node's answer; the advance is complete when every node has answered. -/
def execGenAck (node : Fin 24) (n : Fin 33) (s : State) : Result :=
  .next (if s.nodeGen node.val n.val = (s.inst n.val).gen then
    (s.genAckSeen node.val).updInst n.val (fun i => { i with genWait := i.genWait.filter (· != node.val) }) else s)

/-- A node whose bridge is trained again receives the tables before any packet (R222). -/
def State.refillGens (s : State) (node : Nat) : State :=
  { s with net := { s.net with gens := (List.range 33).foldl (fun g n => tabSet g (node * 64 + n) (s.inst n).gen) s.net.gens } }

-- Timeouts and bridges (R224 to R227) ---------------------------------------------------------------------------------------------------------

/-- INITIATOR_TIMEOUT (R227): the request ends as with ERR_TIMEOUT, TGEN advances and the ticket is written off. -/
def execInitiatorTimeout (src : Fin 24) (tag : Fin 1024) (s : State) : Result :=
  let k := tagKey src.val tag.val
  match tabGet s.net.reqs k with
  | none => .next s
  | some r =>
    let lim := (if r.dst = nHost then s.net.tmoHost else s.net.tmoPriv) * 1000
    .next (if s.now < r.sentAt + lim then s
      else
        let pk := pairKey src.val r.dst
        let s1 := { s with net := { s.net with
          reqs := tabErase s.net.reqs k
          tgen := bump s.net.tgen k (fun g => (g + 1) % 16)
          out := bump s.net.out pk (· - 1)
          writtenOff := bump s.net.writtenOff pk (· + 1) } }
        s1.errorResponse src.val tag.val r St.errTimeout)

/-- The larger initiator timeout in ns (R225). -/
def State.fatalInterval (s : State) : Nat := max s.net.tmoPriv s.net.tmoHost * 1000

/-- A partition whose bridge gave up shows STATE 4 with CAUSE 0, and its group dissolves at once (R225, 02 R52). -/
def State.partFatal (s : State) (p : Nat) : State :=
  let s1 := s.updPart p (fun x => { x with
    state := .offline, mcCause := 0, grant := none, tileRunning := false, residency := none,
    faultPending := true, fatalUntil := some (s.now + s.fatalInterval) })
  (alerted s (s1.lossReported p)).reassess

/-- LINK_FATAL_INTERVAL_END (R225): the FEP acts on the partition's launch, once the requests of its other members and roles have
completed too (02 R53, 07 R159). -/
def execLinkFatalIntervalEnd (p : Fin 16) (s : State) : Result :=
  match (s.part p.val).fatalUntil with
  | some t => .next (if s.fepRuns && decide (t ≤ s.now) && s.lossReady p.val true then
      (s.updPart p.val (fun x => { x with fatalUntil := none })).memberLost p.val 0x10 St.linkFatal else s)
  | none => .next s

/-- BRIDGE_RETRAINED (R225): the I/O node's bridge has trained itself again. -/
def execBridgeRetrained (s : State) : Result :=
  .next (if (s.bridge 17).fatal then (s.updBridge 17 (fun b => { b with fatal := false })).refillGens 21 else s)

/-- RESERVED_TYPE_PACKET (R212). -/
def execReservedTypePacket (pkt : Pkt) (s : State) : Result := .next (if typeDefined pkt.typ then s else s.malformed)

/-- Requests held for a window performed in order, as far as the new window allows. -/
def State.releaseWaiting (s : State) : State :=
  s.mem.windowWait.foldl State.performOrWait { s with mem := { s.mem with windowWait := [] } }

/-- SHARE_WINDOW (R79, R234): a new window of 1 µs at each controller and the host bridge, with the shares as they are (R241). -/
def execShareWindow (s : State) : Result := .next { s with mem := { s.mem with window := [], oldShares := [] } }.releaseWaiting

end Sys2Proof.Machine
end

