-- ==== Sys2Proof/Machine/Reply.lean ====
section
/-! DEFINITION. The mailbox's shared operations (11 R243 to R247): how Topcoat takes a request, the checks it makes on
every one, the reply it writes; and the change of an instance's state with its event (11 R236, R247). -/

namespace Sys2Proof.Machine
open Sys2Proof

-- Formats (R243, R244) ------------------------------------------------------------------------------------------------

/-- Bytes of a cell. -/
def cellSize (fmt : Nat) : Nat := if fmt = 1 then 32 else 64

/-- Cells of the request and the reply ring. -/
def inCells (fmt : Nat) : Nat := if fmt = 1 then 126 else 63
def outCells (fmt : Nat) : Nat := if fmt = 1 then 62 else 31

/-- Bytes of a message header. -/
def headerSize (fmt : Nat) : Nat := if fmt = 1 then 8 else if fmt = 2 then 16 else 32

/-- The most cells of one message. -/
def maxCells (fmt : Nat) : Nat := if fmt = 2 then 2 else 4

/-- A message of the catalogue (R246): its code, the lowest format it is available in, whether only the manager may send
it, and the length of its payload where the catalogue fixes it. -/
structure MsgKind where
  code : Nat
  minFormat : Nat
  manager : Bool
  size : Option Nat
  deriving DecidableEq, Repr

/-- Requests the mailbox holds, in cells (R243). -/
def Mailbox.waitingCells (b : Mailbox) : Nat := (b.inProd + inCells b.format - b.inCons) % inCells b.format

/-- Free cells of the reply ring (R243). -/
def Mailbox.replyRoom (b : Mailbox) : Nat := (b.outCons + outCells b.format - b.outProd - 1) % outCells b.format

/-- CELLS of a header is in the format's range. -/
def cellsInRange (fmt : Nat) (h : MsgHdr) : Bool := decide (1 ≤ h.cells) && decide (h.cells ≤ maxCells fmt)

/-- Cells a request consumes: those its header names, one where CELLS is out of range (R245). -/
def takenCells (fmt : Nat) (h : MsgHdr) : Nat := if cellsInRange fmt h then h.cells else 1

/-- A FREEZE of some instance is in hand, so PF0's mailbox takes nothing (R245: one request at a time). -/
def State.freezeInHand (s : State) : Bool := s.insts.any (fun e => e.2.freezeReq.isSome)

/-- Topcoat takes the request at IN_CONS now: one of a mailbox at a time (R245). -/
def State.takesRequest (s : State) (mb : Nat) (h : MsgHdr) : Bool :=
  let b := (s.inst mb).box
  s.serving && b.state == 2 && decide (takenCells b.format h ≤ b.waitingCells) && decide (maxCells b.format ≤ b.replyRoom)
    && !(mb == 0 && s.freezeInHand) && !s.fep.service.any (fun r => r.mb == mb)

/-- The checks of R245, in its table's order, then the length of the payload (R244, R246). -/
def msgFault (k : MsgKind) (mb fmt : Nat) (h : MsgHdr) (payload : List Byte) : Option Status :=
  let len := if fmt = 1 then k.size.getD payload.length else h.len
  if fmt < k.minFormat then some St.badFormat
  else if k.manager && mb ≠ 0 then some St.notManager
  else if !cellsInRange fmt h || decide (h.cells * cellSize fmt < headerSize fmt + len) then some St.badField
  else if decide (32 < h.target) || (!k.manager && h.target ≠ 0) then some St.badInstance
  else if (match k.size with | some n => decide (len ≠ n) | none => false) || decide (payload.length < len) then
    some St.badField
  else none

/-- The bytes of a reply (R244). -/
def replyBytes (fmt : Nat) (h : MsgHdr) (st : Status) (now : Nat) (payload : List Byte) : List Byte :=
  let cells := ceilDiv (headerSize fmt + payload.length) (cellSize fmt)
  let head :=
    if fmt = 1 then
      leBytes 2 h.msg ++ leBytes 1 cells ++ leBytes 1 h.seq.toNat ++ leBytes 2 st.toNat ++ leBytes 1 h.target ++ leBytes 1 0
    else
      let a := leBytes 2 h.msg ++ leBytes 1 cells ++ leBytes 1 h.target ++ leBytes 2 h.seq.toNat ++ leBytes 2 st.toNat
        ++ leBytes 2 payload.length ++ leBytes 6 0
      if fmt = 2 then a else a ++ leBytes 8 h.cookie.toNat ++ leBytes 8 now
  padUp (cellSize fmt) (head ++ payload)

/-- Bytes of whole cells written into the reply ring from its producer on, wrapping where the ring ends; one cell at a
time. -/
def Mailbox.putCells (b : Mailbox) (bs : List Byte) : Nat → Mailbox
  | 0 => b
  | n + 1 =>
    let sz := cellSize b.format
    let b1 : Mailbox := { b with outPage := pageWrite b.outPage (0x40 + sz * b.outProd) (bs.take sz),
                                 outProd := (b.outProd + 1) % outCells b.format }
    b1.putCells (bs.drop sz) n

/-- A reply written to the mailbox of instance `mb`, with vector 1 of its function (R245). -/
def State.reply (s : State) (mb : Nat) (h : MsgHdr) (st : Status) (payload : List Byte) : State :=
  let fmt := (s.inst mb).box.format
  let bs := replyBytes fmt h st s.now payload
  (s.updInst mb (fun i => { i with box := i.box.putCells bs (bs.length / cellSize fmt) })).msix mb 1

/-- IN_CONS advanced past a request that Topcoat takes (R245). -/
def State.takeRequest (s : State) (mb : Nat) (h : MsgHdr) : State :=
  s.updInst mb (fun i => { i with box := { i.box with
    inCons := (i.box.inCons + takenCells i.box.format h) % inCells i.box.format } })

/-- One message: taken, checked, applied by `body`, replied to (R245). `body` answers the state, the status and the
payload of the reply; none where the reply comes later. -/
def State.message (s : State) (mb : Nat) (h : MsgHdr) (payload : List Byte) (k : MsgKind)
    (body : State → List Byte → State × Option (Status × List Byte)) : State :=
  if h.msg ≠ k.code || !s.takesRequest mb h then s
  else
    let fmt := (s.inst mb).box.format
    let s1 := s.takeRequest mb h
    match msgFault k mb fmt h payload with
    | some st => s1.reply mb h st []
    | none =>
      let n := if fmt = 1 then k.size.getD payload.length else h.len
      match body s1 (payload.take n) with
      | (t, some (st, out)) => t.reply mb h st out
      | (t, none) => t

/-- A body that refuses and changes nothing. -/
def refuseWith (s : State) (st : Status) : State × Option (Status × List Byte) := (s, some (st, []))

/-- A body that ends with OK. -/
def okWith (s : State) (out : List Byte) : State × Option (Status × List Byte) := (s, some (St.ok, out))

-- The service port (08 R172) --------------------------------------------------------------------------------------------------

/-- A request rung at the service port; with `now_`, T7 executes it at once. -/
def State.rung (s : State) (now_ : Bool) : State :=
  let s1 := if now_ then s.onThread 7 none else s
  { s1 with fep := { s1.fep with serviceBell := s1.fep.serviceBell + 1,
                                 serviceDone := if now_ then s1.fep.serviceDone + 1 else s1.fep.serviceDone } }

/-- A request appended to the service port ring. -/
def State.appendService (s : State) (r : SvcReq) : State :=
  { s.rung false with fep := { (s.rung false).fep with service := s.fep.service ++ [r] } }

/-- T7 executes a request of the service port at once: the FEP runs and no earlier request of the ring waits for it (R172). -/
def State.portOpen (s : State) : Bool := s.fepRuns && s.fep.service.all (·.out.isSome)

/-- A message that Topcoat can execute only through the service port (R172): T7 executes it at once while the FEP runs and no earlier
request waits; otherwise it waits in the ring, of 64 entries, and the reply comes after T7 has executed it, in ring order. -/
def State.viaPort (s : State) (mb : Nat) (h : MsgHdr) (payload host : List Byte) (k : MsgKind)
    (body : State → List Byte → State × Option (Status × List Byte)) : State :=
  if s.portOpen then s.message mb h payload k (fun t b => body (t.rung true) b)
  else if 64 ≤ s.fep.service.length then s
  else s.message mb h payload k (fun t b =>
    (t.appendService { code := k.code, mb := mb, hdr := h, payload := b, host := host }, none))

/-- Replies to executed requests of the ring that Topcoat has still to write, in ring order. -/
def State.flushService (s : State) : State :=
  if s.serving then
    (s.fep.service.filter (·.out.isSome)).foldl (fun t r => match r.out with
        | some (st, out) => t.reply r.mb r.hdr st out
        | none => t)
      { s with fep := { s.fep with service := s.fep.service.filter (·.out.isNone) } }
  else s

-- Instance states (R236, R247) --------------------------------------------------------------------------------------------

/-- An instance goes to a state, and the manager receives INSTANCE_STATE_CHANGE with the cause (R247). -/
def State.setIState (s : State) (n : Nat) (new : IState) (cause : Nat) : State :=
  let old := (s.inst n).state
  if old = new then s
  else
    let s1 := s.updInst n (fun i => { i with state := new })
    s1.event Ev.instanceStateChange n false true
      (leBytes 1 old.code ++ leBytes 1 new.code ++ leBytes 1 cause ++ leBytes 1 0 ++ leBytes 2 (s1.inst n).gen.toNat)

/-- The mailbox of an instance closed; the reply and event rings keep their bytes (R243a). What it asked for at the service port is
forgotten. -/
def State.closeBox (s : State) (n : Nat) : State :=
  ({ s with fep := { s.fep with service := s.fep.service.filter (fun r => r.mb != n) } }).updInst n (fun i => { i with box := { i.box with state := 0, format := 0 } })

/-- A FREEZE in hand is answered; while Topcoat does not serve, its answer waits (R245, R253, R254, R237). -/
def State.endFreeze (s : State) (n : Nat) (st : Status) (out : List Byte) : State :=
  match (s.inst n).freezeReq with
  | none => s
  | some (mb, h) =>
    if s.serving then (s.updInst n (fun i => { i with freezeReq := none, freezeOut := none })).reply mb h st out
    else s.updInst n (fun i => { i with freezeOut := some (st, out) })

/-- FREEZE replies that waited for Topcoat are written. -/
def State.flushFreeze (s : State) : State :=
  (tabKeys s.insts).foldl (fun t n => match (t.inst n).freezeOut with
    | some (st, out) => t.endFreeze n st out
    | none => t) s

end Sys2Proof.Machine
end

