-- ==== Sys2Proof/Machine/Aborts.lean ====
section
/-! DEFINITION. Aborts (18 R381 to R392): requests, drain rounds, the abort bookkeeping, ABORT_DONE; guilt rounds (R390). -/

namespace Sys2Proof.Machine
open Sys2Proof

-- ABORT_DONE (R387) -----------------------------------------------------------------------------------------------------

/-- ABORT_DONE: the registers, vector 2, and the event (R387, R398). `at_` is when the request was latched; `counts` are
commands aborted, semaphores poisoned and waits ended. -/
def State.abortDone (s : State) (n : Nat) (q : Option Nat) (by_ result at_ : Nat) (counts : Nat × Nat × Nat) : State :=
  let s1 := s.updInst n (fun i => { i with
    qBusy := match q with | some k => i.qBusy &&& ~~~ (1#16 <<< k) | none => i.qBusy
    iBusy := match q with | some _ => i.iBusy | none => false
    lastQid := BitVec.ofNat 4 (q.getD 0), lastAll := q.isNone, lastResult := BitVec.ofNat 2 result
    doneCount := i.doneCount + 1, abortDoneTime := BitVec.ofNat 64 s.now })
  let s2 := s1.msix n 2
  let s3 := if n = 0 then s2 else s2.msix 0 2
  s3.event Ev.abortDone n true true
    (leBytes 1 (q.getD 0xFF) ++ leBytes 1 by_ ++ leBytes 1 result ++ leBytes 8 at_ ++ leBytes 2 counts.1
      ++ leBytes 2 counts.2.1 ++ leBytes 2 counts.2.2)

-- Requests (R383) --------------------------------------------------------------------------------------------------------

/-- An abort of this work is latched already: the same queue's, or the instance's. -/
def State.abortLatched (s : State) (n : Nat) (q : Option Nat) : Bool :=
  s.abrt.reqs.any (fun r => r.inst == n && (r.qid.isNone || r.qid == q))

/-- Queue `k` of an instance has work an abort ends: it is ACTIVE or HELD, or guilty with its RESET record not yet
written (R383, R391). -/
def Queue.abortable (q : Queue) : Bool := q.stopCause == 0 || (q.stopCause == 1 && q.guilty.isSome && !q.resetDone)

/-- RESULT of a request that is answered at once, none where it is latched (R383). -/
def State.abortVerdict (s : State) (n : Nat) (q : Option Nat) : Option Nat :=
  match (s.inst n).state, q with
  | .absent, _ => some 1
  | .quiesced, _ => some 1
  | .quiescing, _ => some 2
  | .resetting, _ => some 2
  | .aborted, none => some 1
  | _, none => none
  | _, some k => match (s.slotOf n k).bind s.queue with
    | some x => if x.abortable then none else some 1
    | none => some 1

/-- The request latched: the queues it names stop fetching, and an instance goes to ABORTING, which ends a freeze (R383,
R236, R237). -/
def State.latch (s : State) (n : Nat) (q : Option Nat) (by_ : Nat) : State :=
  let r : AbortReq := { inst := n, qid := q, by_ := by_, at_ := s.now }
  let s1 := { s with abrt := { s.abrt with reqs := s.abrt.reqs ++ [r] } }
  match q with
  | some k =>
    let s2 := s1.updInst n (fun i => { i with qBusy := i.qBusy ||| (1#16 <<< k) })
    match s2.slotOf n k with
    | some slot => s2.latchQueue slot
    | none => s2
  | none =>
    let s2 := s1.updInst n (fun i => { i with iBusy := true })
    let s3 := (s2.slotsOf n).foldl State.latchQueue s2
    ((s3.setIState n .aborting 0).endFreeze n St.instanceState []).updInst n (fun i => { i with freezeUntil := 0 })

/-- An abort request (R383): answered at once, merged with one already latched, or latched. -/
def State.requestAbort (s : State) (n : Nat) (q : Option Nat) (by_ : Nat) : State :=
  if s.abortLatched n q then s
  else
    let s1 := s.updInst n (fun i => { i with abortReqTime := BitVec.ofNat 64 s.now })
    match s.abortVerdict n q with
    | some r => s1.abortDone n q by_ r s.now (0, 0, 0)
    | none => s1.latch n q by_

-- What a round stops (R385) -------------------------------------------------------------------------------------------------

/-- The command's work is to end: it is accepted and its slot is among those aborted. -/
def abortHits (s : State) (n : Nat) (q : Option Nat) (c : Cmd) : Bool :=
  c.inst == n && (match q with | none => true | some k => s.slotOf n k == some c.slot)

/-- The accepted commands of an aborted queue or instance are marked to end (R386). -/
def State.markAborted (s : State) (n : Nat) (q : Option Nat) : State :=
  s.mapCmds (fun c => if c.accepted && abortHits s n q c then { c with cancelled := true } else c)

/-- A partition runs a launch that is to end. -/
def State.runsCancelled (s : State) (p : Nat) : Bool :=
  match (s.part p).run with
  | some (a, b, _) => (match s.cmd a b with | some c => c.cancelled | none => false)
  | none => false

/-- A partition's resume slot holds a launch that is to end. -/
def State.savesCancelled (s : State) (p : Nat) : Bool :=
  match (s.part p).resume with
  | some r => (match s.cmd r.slot r.seq with | some c => c.cancelled | none => false)
  | none => false

/-- Partitions that run, or hold in their resume slots, launches to end. -/
def State.roundParts (s : State) : List Nat := (List.range 16).filter (fun p => s.runsCancelled p || s.savesCancelled p)

/-- A partition stopped by a round: no request, no current grant, no pre-emption; a residency tag whose load was under
way is cleared; a resume slot is freed (R385). -/
def State.stopPart (s : State) (p : Nat) : State :=
  let run := s.runsCancelled p
  let saved := s.savesCancelled p
  s.updPart p (fun x =>
    let y := if run then { x with grant := none, tileRunning := false, honour := false, preempt := none,
                                  residency := if x.acked then x.residency else none } else x
    if saved then { y with resume := none } else y)

/-- The drain entry of a request (R384). -/
def State.entryOf (s : State) (n : Nat) (q : Option Nat) : DrainEntry :=
  { inst := n, slot := match q with | some k => (s.slotOf n k).getD 0 | none => 0, scope := q.isNone, whole := true,
    parts := 0, chans := 0 }

/-- Partitions that a slot's ending commands hold (R390). -/
def State.partsOfSlot (s : State) (slot : Nat) : List Nat :=
  (List.range 16).filter (fun p =>
    (match (s.part p).run with | some (a, _, _) => a == slot && s.runsCancelled p | none => false)
      || (match (s.part p).resume with | some r => r.slot == slot && s.savesCancelled p | none => false))

/-- The drain entry of a guilty queue: only its ending commands' partitions and channels (R390). -/
def State.guiltEntry (s : State) (slot : Nat) (q : Queue) : DrainEntry :=
  let chans := (s.slotCmds slot).filterMap (fun c => if c.cancelled then c.chan else none)
  { inst := q.inst, slot := slot, scope := false, whole := false, parts := maskOf (s.partsOfSlot slot),
    chans := chans.foldl (fun m k => m ||| (1#4 <<< k)) 0 }

/-- A request of a node's tag matches an entry of the table. -/
def reqMatches (es : List DrainEntry) (key : Nat) (r : NetReq) : Bool :=
  es.any (fun e => e.matches r.inst r.slot (key / 1024) r.dst (key % 1024))

/-- Requests that wait at a target and match are discarded; the outstanding tags of matching host reads are marked so
that their completions are discarded (R385). -/
def State.drainTargets (s : State) : State :=
  let es := s.abrt.entries
  { s with
    mem := { s.mem with windowWait := s.mem.windowWait.filter (fun w =>
      !(es.any (fun e => e.matches w.pkt.inst w.pkt.slot w.pkt.src w.pkt.dst w.pkt.tag))) }
    link := { s.link with outstanding := tabMap s.link.outstanding (fun _ h =>
      match tabGet s.net.reqs (tagKey h.pkt.src h.pkt.tag) with
      | some r => if reqMatches es (tagKey h.pkt.src h.pkt.tag) r then { h with marked := true } else h
      | none => h) } }

/-- Guilty queues that wait for a round (R390). -/
def State.guiltWaiting (s : State) : List Nat := tabKeys (s.queues.filter (fun e => e.2.guiltRound == 1))

/-- DRAIN_ROUND_START: every request and guilty point that waits joins; their work is stopped (R384, R385). -/
def drainRoundStart (s : State) : State :=
  let reqs := s.abrt.reqs.filter (fun r => !r.joined)
  let slots := s.guiltWaiting
  if s.abrt.roundOn || (reqs.isEmpty && slots.isEmpty) then s
  else
    let s1 := reqs.foldl (fun t r => t.markAborted r.inst r.qid) s
    let entries := reqs.map (fun r => s1.entryOf r.inst r.qid)
      ++ slots.filterMap (fun k => (s1.queue k).map (s1.guiltEntry k))
    let parts := s1.roundParts
    let s2 := parts.foldl State.stopPart { s1 with abrt := { s1.abrt with
      roundOn := true, entries := entries, parts := parts,
      reqs := s1.abrt.reqs.map (fun r => { r with joined := true }) } }
    let s3 := slots.foldl (fun t k => t.updQueue k (fun q => { q with guiltRound := 2 })) s2
    s3.drainTargets.reassess

/-- DRAIN_ROUND_START (R384). -/
def execDrainRoundStart (s : State) : Result := .next (drainRoundStart s)

-- The bookkeeping (R387, R388) ------------------------------------------------------------------------------------------------

/-- Commands that a poisoning ended. -/
def State.depEnded (s : State) : Nat := ((tabVals s.cmds).filter (fun c => c.status == St.depAborted)).length

/-- The semaphore that an ended command would have raised is poisoned, and its waits examined; with how many were
poisoned (R388). -/
def State.poisonOf (s : State) (c : Cmd) : State × Nat :=
  match c.sigSem with
  | some (i, v) =>
    if v > (s.sem c.inst i).value.toNat then ((s.setSem c.inst i (poisonSem (s.sem c.inst i) v)).wake c.inst i s.wakeFuel, 1)
    else (s, 0)
  | none => (s, 0)

/-- What one ended command held is freed: partitions, Skim slots, its build, pool slot and version pin (R387). -/
def State.freeEnded (s : State) (c : Cmd) : State :=
  (((s.freeCmdParts c.slot c.seq).freeSkims c.slot c.seq).dropBuild c).giveBack c

/-- The ended commands of a list: poisoned in acceptance order, then freed; with the counts of ABORT_DONE. -/
def State.endCmds (s : State) (cs : List Cmd) : State × (Nat × Nat × Nat) :=
  let before := s.depEnded
  let r := cs.foldl (fun (a : State × Nat) c => let x := a.1.poisonOf c; (x.1, a.2 + x.2)) (s, 0)
  let waits := r.1.depEnded - before
  (cs.foldl State.freeEnded r.1, (cs.length, r.2, waits))

/-- Ended commands that a predicate selects, in acceptance order. -/
def State.cancelledCmds (s : State) (sel : Cmd → Bool) : List Cmd :=
  ((tabVals s.cmds).filter (fun c => c.cancelled && sel c)).mergeSort (fun a b => decide (a.order ≤ b.order))

/-- A queue that an abort stops: cause 2, or the cause it has, which for a guilty queue is about to be 1 (R387, R391); a freeze
no longer holds it. -/
def stopQueue (q : Queue) : Queue :=
  Queue.touch { q with stopCause := if q.stopCause = 0 && (q.guilty.isNone || q.guiltSaid) then 2 else q.stopCause, abortLatched := false, heldFrozen := false,
                       reads := 0, need := none, guiltRound := if q.guiltRound = 0 then 0 else 3 }

/-- Slots that a request names. -/
def State.slotsNamed (s : State) (n : Nat) (q : Option Nat) : List Nat :=
  match q with
  | some k => (s.slotOf n k).toList
  | none => s.slotsOf n

/-- The bookkeeping of one request: its commands ended, its queues STOPPED; a guilty queue's RESET record is written
before ABORT_DONE (R387, R391). -/
def State.bookAbort (s : State) (n : Nat) (q : Option Nat) : State × (Nat × Nat × Nat) :=
  let r := s.endCmds (s.cancelledCmds (fun c => abortHits s n q c))
  let slots := r.1.slotsNamed n q
  let s1 := slots.foldl (fun t k => t.updQueue k stopQueue) r.1
  (slots.foldl (fun t k => resetRecord k St.ok (t.stopGuilty k)) s1, r.2)

/-- A latched request done (R387). -/
def State.finishRequest (s : State) (r : AbortReq) : State :=
  let b := s.bookAbort r.inst r.qid
  let s1 := if r.qid.isNone then b.1.setIState r.inst .aborted 0 else b.1
  s1.abortDone r.inst r.qid r.by_ 0 r.at_ b.2

/-- A guilty queue's round done: its ended commands are gone and its RESET record may follow (R390). -/
def State.finishGuilt (s : State) (slot : Nat) : State :=
  let r := s.endCmds (s.cancelledCmds (fun c => c.slot == slot))
  r.1.updQueue slot (fun q => { q with guiltRound := 3 })

/-- The VC0 requests that match the table end with no response: tickets and tags come back (R229). -/
def State.endMatching (s : State) (es : List DrainEntry) : State :=
  s.net.reqs.foldl (fun t e => if reqMatches es e.1 e.2 then t.answered (e.1 / 1024) (e.1 % 1024) else t) s

/-- DRAIN_ROUND_END: the entries are removed and the bookkeeping runs for each request and guilty point of the round
(R385, R387, R390). -/
def drainRoundEnd (s : State) : State :=
  if !s.abrt.roundOn then s
  else
    let slots := tabKeys (s.queues.filter (fun e => e.2.guiltRound == 2 && !e.2.abortLatched))
    let mine := s.abrt.reqs.filter (·.joined)
    let s1 := s.endMatching s.abrt.entries
    let s2 := { s1 with abrt := { s1.abrt with
      roundOn := false, entries := [], parts := [], rounds := satInc s1.abrt.rounds,
      reqs := s1.abrt.reqs.filter (fun r => !r.joined) } }
    let s3 := slots.foldl State.finishGuilt s2
    (mine.foldl State.finishRequest s3).reassess

/-- DRAIN_ROUND_END (R385). -/
def execDrainRoundEnd (s : State) : Result := .next (drainRoundEnd s)

-- The whole work of an instance ended within a sequence (R239, R240) -------------------------------------------------------------

/-- The work of an instance ended through the sequencer by QUIESCE (2) or an L3 reset (3), its round run within the
sequence: requests latched for it before are answered with it (R239, R240, R383). -/
def State.endInstance (s : State) (n by_ : Nat) : State :=
  let before := s.abrt.reqs.filter (fun r => r.inst == n)
  let s1 := (s.slotsOf n).foldl State.latchQueue s
  let s2 := s1.markAborted n none
  let parts := s2.roundParts.filter (fun p => !s2.abrt.parts.contains p)
  let s3 := parts.foldl State.stopPart s2
  let e : DrainEntry := { inst := n, slot := 0, scope := true, whole := true, parts := 0, chans := 0 }
  let keep := s3.abrt
  let s4 := ({ s3 with abrt := { keep with entries := [e] } }).drainTargets.endMatching [e]
  let s5 := { s4 with abrt := { keep with
    entries := keep.entries.filter (fun x => x.inst != n), reqs := keep.reqs.filter (fun r => r.inst != n),
    rounds := satInc keep.rounds } }
  let b := s5.bookAbort n none
  let s6 := before.foldl (fun t r => t.abortDone n r.qid r.by_ 0 r.at_ (0, 0, 0)) b.1
  (s6.abortDone n none by_ 0 s.now b.2).reassess

end Sys2Proof.Machine
end

