-- ==== Sys2Proof/Machine/Lifecycle.lean ====
section
/-! DEFINITION. Sequences that several commands share: what an instance gives back at its end (11 R238 to R240), an L5
reset of a partition (02 R51), gating and ungating (16 R344 to R346). -/

namespace Sys2Proof.Machine
open Sys2Proof

-- What an instance gives back (R238 to R240) ----------------------------------------------------------------------------

/-- Every contract of an instance released with its reservations (R187, R239). -/
def State.releaseContracts (s : State) (n : Nat) : State :=
  (tabKeys (s.contracts.filter (fun e => e.2.inst == n))).foldl State.releaseContract s

/-- Every queue of an instance becomes FREE, and its slot with it (R239, R240). -/
def State.dropQueues (s : State) (n : Nat) : State :=
  let mine := s.slotsOf n
  { s with
    cmds := s.cmds.filter (fun e => !(mine.contains e.2.slot))
    queues := s.queues.filter (fun e => e.2.inst != n)
    fep := { s.fep with sbFifo := s.fep.sbFifo.filter (fun e => !(mine.contains e.1)),
                        heldBells := s.fep.heldBells.filter (fun e => e.1 != n) } }

/-- Store pages that a graph holds. -/
def graphPages (g : Graph) : List Nat := g.fixedPages ++ versionPages g.versions

/-- Every graph of an instance released and its store pages freed (R239). -/
def State.dropGraphs (s : State) (n : Nat) : State :=
  let gone := (tabVals (s.inst n).graphs).flatMap graphPages
  let s1 := s.updInst n (fun i => { i with graphs := [] })
  { s1 with pages := s1.pages.filter (fun e => !(gone.contains e.1)) }

/-- Bound handle-table entries freed, each advancing its GEN (R87). -/
def freeHandles (t : Tab Handle) : Tab Handle := tabMap t (fun _ h => if h.bound then freeHandle h else h)

/-- The MMU registers of an instance at their reset values (R84). -/
def mmuReset (n : Nat) : Mmu := { bypass := decide (n = 0) }

/-- What a freeze left in an instance is dropped. -/
def clearFreeze (i : Inst) : Inst := { i with freezeUntil := 0, frozenAt := 0, lost := [], haltFreeze := false }

-- QUIESCE and the L3 reset ------------------------------------------------------------------------------------------------

/-- The seven steps of QUIESCE, from QUIESCING to QUIESCED (R239). -/
def State.quiesce (s : State) (n : Nat) : State :=
  let s1 := (s.setIState n .quiescing 0).endInstance n 2
  let s2 := s1.releaseContracts n
  let s3 := s2.updInst n (fun i => { i with bind := [], owned := 0 })
  let s4 := (s3.dropQueues n).dropGraphs n
  let s5 := s4.updInst n (fun i => clearFreeze { i with handles := freeHandles i.handles, sems := [] })
  ((s5.closeBox n).advanceGen n).setIState n .quiesced 0

/-- The abort part of an L3 reset: the instance is RESETTING and its work ends (R240, R370). -/
def State.beginReset (s : State) (n cause : Nat) : State :=
  ((s.setIState n .resetting cause).endFreeze n St.instanceState []).endInstance n 3

/-- The emulated registers that an L3 reset clears: the scratch registers and the write queue (R323, R324). -/
def clearEmu (i : Inst) : Inst :=
  { i with emu := i.emu.filter (fun e => decide (e.1 = 0)), emuQueue := [] }

/-- A reset of instance `n` at level L3, with a source code as its cause; an absent instance has nothing to reset
(R240). -/
def State.resetInstance (s : State) (n cause : Nat) : State :=
  if (s.inst n).state == .absent then s
  else
    let s1 := if (s.inst n).state == .resetting then s else s.beginReset n cause
    let s2 := (s1.advanceGen n).releaseContracts n
    let s3 := s2.dropQueues n
    let s4 := (tabKeys (s3.inst n).graphs).foldl (State.releaseVersions · n) s3
    let s5 := s4.updInst n (fun i => clearEmu (clearFreeze { i with
      handles := freeHandles i.handles, sems := [], bind := [], mmu := mmuReset n }))
    let s6 := { (s5.closeBox n) with rst := { s5.rst with counts := bump s5.rst.counts 3 (· + 1) } }
    s6.setIState n .active cause

-- Partitions (R51, R344, R345) ----------------------------------------------------------------------------------------------

/-- A role of some instance is bound onto partition `p`. -/
def State.isBound (s : State) (p : Nat) : Bool := s.insts.any (fun e => (s.boundParts e.1).contains p)

/-- The partition holds a saved launch, its own or its group leader's. -/
def State.isSaved (s : State) (p : Nat) : Bool := !(s.savedOver p).isEmpty

/-- Whether the power state in Active wants the partition on: a member of a bound group or the holder of a saved launch,
and not retired (R303, R345). -/
def State.wantsOn (s : State) (p : Nat) : Bool := !(s.part p).retired && (s.isBound p || s.isSaved p)

/-- An ungated partition: SRAMs zero under good ECC, step 0, its LDO at the table voltage, its generation table filled
before it may send or receive (R34, R222, R345). -/
def State.ungateNow (s : State) (p : Nat) : State :=
  if (s.part p).state == .gated then
    (s.updPart p (fun x => { x with
      state := .idle, residency := none, step := 0, clkMhz := stepMhz 0, ldoMv := s.vf p 0,
      ldoSettled := true, stepWanted := none, downAt := none, idleSince := s.now })).refillGens p
  else s

/-- A partition without work is gated (R344). -/
def State.gateIfIdle (s : State) (p : Nat) : State :=
  let x := s.part p
  if x.state == .idle && x.run.isNone then s.updPart p gatePart else s

/-- The Trickle partition that entering Trickle chooses (R346). -/
def State.trickleChoice (s : State) : Nat :=
  let ok (p : Nat) : Bool := (s.part p).enabled && !(s.part p).retired && (s.part p).state != .offline
    && (s.part p).state != .resetting
  let single (p : Nat) : Bool := s.insts.any (fun e => (tabVals e.2.bind).any (fun w => bwValid w && bwShape w == 0
    && (bwLeaderList w).contains p))
  let ps := List.range 16
  (ps.find? (fun p => ok p && single p)).getD ((ps.find? ok).getD 0)

/-- A pre-emption asked of every launch of classes 1 to 3 on partitions that `sel` names (R348). -/
def State.preemptParts (s : State) (sel : Nat → Bool) : State :=
  ((List.range 16).filter sel).foldl (fun t p =>
    match t.runOf p with
    | some (c, _) => if c.cls = 0 || (t.part p).preempt.isSome then t else t.updPart p (fun x => { x with preempt := some 0 })
    | none => t) s

/-- An L5 reset of a partition begins: one that shows STATE 4 with CAUSE 5 or 6 stays so, with result PART_MCHECK (R51);
it zeroes the SRAMs, and the address of a parity error that it clears is remembered for the first tile. -/
def State.startL5 (s : State) (p : Nat) : State :=
  let x := s.part p
  if x.state == .resetting then s
  else if x.state == .offline && (x.mcCause == 5 || x.mcCause == 6) then
    s.updPart p (fun x => { x with rstBusy := false, rstResult := 0x06004001#32 })
  else
    let y : Part := { x.zeroFilled with
      state := .resetting, rstBusy := true, fatalUntil := none, residency := none,
      step := 0, clkMhz := stepMhz 0, stepWanted := none, ldoSettled := true,
      lastParity := if x.state == .offline && x.mcCause == 1 then some (BitVec.ofNat 10 (bits x.mcAddr.toNat 9 0)) else none }
    (alerted s (s.updPart p (fun _ => y))).reassess

-- Bindings (R155) -------------------------------------------------------------------------------------------------------------

/-- The cause for which ROLE_BIND refuses a word for a role, if there is one (R45, R155). -/
def State.bindFault (s : State) (n role : Nat) (w : BitVec 32) : Option Status :=
  let i := s.inst n
  let parts := bwParts w
  let leaders := bwLeaderList w
  let others := (i.bind.filter (fun e => e.1 != role)).flatMap (fun e => bwParts e.2)
  let graphs := (tabVals i.graphs).filter (fun g => g.current.isSome && g.fixed.roleMask.getLsbD role)
  if 15 < role ∨ bits w.toNat 31 20 ≠ 0 ∨ bwShape w = 3 ∨ bwLeaders w = 0 ∨ bwValid w = false then some St.badField
  else if (bwShape w == 1 && leaders.any (fun p => p % 2 != 0)) || (bwShape w == 2 && leaders.any (fun p => p % 4 != 0))
      || parts.any (fun p => !i.owned.getLsbD p || (s.part p).state == .offline) || !distinct parts
      || parts.any (fun p => others.contains p)
      || (graphs.any (fun g => g.fixed.relay) && decide (1 < leaders.length)) then some St.bindMembers
  else if graphs.any (fun g => (variantOf? g.fixed role (bwShape w)).isNone) then some St.bindShape
  else none

/-- Partitions of an instance's bindings that Active wants on are ungated before the reply that binds them (R345). -/
def State.ungateBound (s : State) (n : Nat) : State :=
  ((s.boundParts n).filter (fun p => s.wantsOn p && !s.powerGates p)).foldl State.ungateNow s

end Sys2Proof.Machine
end

