-- ==== Sys2Proof/Machine/Freeze.lean ====
section
/-! DEFINITION. Freezing, saving and restoring an instance (12): FREEZE, its end and its timeout, the state blob, RESTORE
and THAW. The messages that ask for them are in the mailbox's file. -/

namespace Sys2Proof.Machine
open Sys2Proof

-- FREEZE (R252 to R255) -------------------------------------------------------------------------------------------------

/-- A freeze begins: FREEZING, a deadline, and a pre-emption asked of every granted launch of classes 1 to 3 (R253). -/
def State.startFreeze (s : State) (n ms : Nat) (req : Option (Nat × MsgHdr)) (halt : Bool) : State :=
  let s1 := (s.setIState n .freezing 0).updInst n (fun i => { i with
    freezeUntil := s.now + ms * 1000000, freezeReq := req, haltFreeze := halt })
  s1.preemptParts (fun p => match s1.runOf p with | some (c, _) => c.inst == n | none => false)

/-- A command of a freezing instance is where the freeze leaves it: none of its replicas is granted or running, it is no
COPY or FILL under way, and its record is neither in flight nor able to go out (R253). -/
def State.settled (s : State) (c : Cmd) : Bool :=
  c.replicas.all (fun r => r.state != .granted && r.state != .running) && c.chan.isNone && c.inFlight.isNone
    && c.stage != .writing && !(c.stage == .ended && c.accepted && s.recordTurn c && !c.cancelled)

/-- The command that each queue had begun to fetch is fetched, every launch is saved or ended, every write acknowledged and every record of ended work written (R253 step 5). -/
def State.freezeDone (s : State) (n : Nat) : Bool :=
  (tabVals s.cmds).all (fun c => c.inst != n || s.settled c) && s.net.reqs.all (fun e => e.2.inst != n || !e.2.write)
    && (tabVals s.queues).all (fun q => q.inst != n || q.guilty.isNone || q.guiltSaid || q.stopCause == 3)
    && (tabVals s.queues).all (fun q => q.inst != n || q.reads == 0 || q.stateCode != 1 || q.guilty.isSome)

/-- Launches of an instance that are saved, whole or in part. -/
def State.savedLaunches (s : State) (n : Nat) : Nat :=
  ((tabVals s.cmds).filter (fun c => c.inst == n && c.replicas.any (fun r => r.state == .saved))).length

-- The length of a blob (R257, R258) ----------------------------------------------------------------------------------------

/-- A length padded to 256 bytes. -/
def pad256 (n : Nat) : Nat := ceilDiv n 256 * 256

/-- Accepted commands of an instance that have no record, by queue and order. -/
def State.blobCmds (s : State) (n : Nat) : List Cmd :=
  ((tabVals s.cmds).filter (fun c => c.inst == n && c.accepted && !c.cancelled)).mergeSort (fun a b =>
    decide (a.order ≤ b.order))

/-- Bytes of a graph in the GRAPHS section. -/
def graphBlobLen (g : Graph) : Nat :=
  128 + 256 * g.fixedPages.length + (g.versions.map (fun v => 128 + 4 * v.pages.length)).sum
    + 256 * (versionPages g.versions).eraseDups.length

/-- Bytes of a saved replica in the LIVE_SETS section: its record and LIVE 4 KiB units for each member. -/
def State.liveLen (s : State) (c : Cmd) (r : Replica) : Nat :=
  256 + s.liveBytes c r * (groupParts r.shape r.leader).length

/-- The sections of a blob: type, records, bytes before padding (R258). -/
def State.blobSections (s : State) (n : Nat) : List (Nat × Nat × Nat) :=
  let i := s.inst n
  let cs := s.blobCmds n
  let gs := tabVals i.graphs
  let saved := cs.flatMap (fun c => (c.replicas.filter (fun r => r.state == .saved)).map (fun r => s.liveLen c r))
  let ks := s.contracts.filter (fun e => e.2.inst == n && e.2.state != .released)
  let qs := s.slotsOf n
  [(1, 1, 256), (2, qs.length, 128 * qs.length), (3, i.limits.semCount, 16 * i.limits.semCount), (4, 4096, 65536),
   (5, gs.length, (gs.map graphBlobLen).sum), (6, cs.length, (cs.map (fun c => 256 + pad256 c.cb.length)).sum),
   (7, saved.length, saved.sum), (8, ks.length, 64 * ks.length)]

/-- TOTAL_LEN of the blob that SAVE would write now. -/
def State.blobLen (s : State) (n : Nat) : Nat := 512 + ((s.blobSections n).map (fun e => pad256 e.2.2)).sum

-- The end of a freeze --------------------------------------------------------------------------------------------------------

/-- Progress times stop where they stand (R266). -/
def State.stopProgress (s : State) (n : Nat) : State :=
  s.mapCmds (fun c => if c.inst = n then { c with progUsed := s.progress c, progFrom := none } else c)

/-- Progress times go on (R266): of commands that have started to execute. -/
def State.resumeProgress (s : State) (n : Nat) : State :=
  s.mapCmds (fun c => if c.inst = n ∧ c.begun = true then { c with progFrom := some s.now } else c)

/-- The instance is FROZEN: queues that are not STOPPED are HELD with cause 6, FROZEN_AT is stamped, and the FREEZE is
answered (R253). -/
def freezeComplete (n : Nat) (s : State) : State :=
  if (s.inst n).state == .freezing && s.rst.phase == .none && s.freezeDone n then
    let s1 := (s.setIState n .frozen 0).updInst n (fun i => { i with frozenAt := s.now, freezeUntil := 0 })
    let s2 := (s1.slotsOf n).foldl (fun t k => t.updQueue k (fun q =>
      if q.stopCause = 0 then Queue.touch { q with heldFrozen := true } else q)) s1
    let s3 := s2.stopProgress n
    s3.endFreeze n St.ok (leBytes 8 s.now ++ leBytes 2 (s3.savedLaunches n) ++ leBytes 6 0 ++ leBytes 8 (s3.blobLen n))
  else s

/-- FREEZE_COMPLETE (R253). -/
def execFreezeComplete (n : Fin 33) (s : State) : Result := .next (freezeComplete n.val s)

/-- FREEZE_TIMEOUT (R254): the freeze is abandoned; one of HALT_ALL is sent again while Topcoat serves (R335). -/
def freezeTimeout (n : Nat) (s : State) : State :=
  if (s.inst n).state == .freezing && decide ((s.inst n).freezeUntil ≤ s.now) then
    let s1 := (s.setIState n .active 0).endFreeze n St.freezeTimeout []
    let again := (s.inst n).haltFreeze && s.mgc.orphan
    let s2 := s1.updInst n (fun i => { i with freezeUntil := 0, haltFreeze := again })
    if again && s.serving then s2.startFreeze n 10000 none true else s2
  else s

/-- FREEZE_TIMEOUT (R254). -/
def execFreezeTimeout (n : Fin 33) (s : State) : Result := .next (freezeTimeout n.val s)

/-- Freezes of HALT_ALL that are due again when Topcoat serves (R335). -/
def State.repeatFreezes (s : State) : State :=
  (tabKeys s.insts).foldl (fun t n => if t.mgc.orphan && (t.inst n).state == .active && (t.inst n).haltFreeze then t.startFreeze n 10000 none true
    else t) s

-- SAVE (R256) -----------------------------------------------------------------------------------------------------------------

/-- A handle-table entry in its 16 bytes (R87). -/
def handleBytes (h : Handle) : List Byte :=
  leBytes 8 h.base ++ leBytes 8 (h.size % 2 ^ 40 + h.gen * 2 ^ 40 + b2n h.rd * 2 ^ 60 + b2n h.wr * 2 ^ 61 + b2n h.bound * 2 ^ 62)

/-- The handle table as the HANDLES section. -/
def State.handleSection (s : State) (n : Nat) : List Byte := (List.range 4096).flatMap (fun k => handleBytes (s.handle n k))

/-- A part of a section: bytes of a record, of which R258 names the contents and not the places, and the bytes that follow it. -/
structure Piece where
  record : Nat
  bytes : List Byte
  deriving DecidableEq, Repr

/-- A graph in the GRAPHS section: its fixed section, for each live version the page map, the distinct pages (R258). -/
def State.graphPieces (s : State) (g : Graph) : List Piece :=
  let page (k : Nat) : List Byte := padTo 256 (tabGetD s.pages k [])
  let all := (versionPages g.versions).eraseDups
  ⟨128, g.fixedPages.flatMap page⟩ ::
    (g.versions.map (fun v => (⟨128, v.pages.flatMap (fun k => leBytes 4 ((all.findIdx? (· == k)).getD 0))⟩ : Piece)))
    ++ [⟨0, all.flatMap page⟩]

/-- A saved replica in the LIVE_SETS section: its record, then the live set of each member from its save area (R258). -/
def State.livePiece (s : State) (c : Cmd) (r : Replica) : Piece :=
  let n := (s.liveLen c r - 256) / (groupParts r.shape r.leader).length
  ⟨256, (groupParts r.shape r.leader).flatMap (fun p => s.readPrivN (saveArea p) n)⟩

/-- What a section is made of (R258). -/
def State.sectionPieces (s : State) (n ty len : Nat) : List Piece :=
  let cs := s.blobCmds n
  if ty = 4 then [⟨0, s.handleSection n⟩]
  else if ty = 5 then (tabVals (s.inst n).graphs).flatMap s.graphPieces
  else if ty = 6 then cs.map (fun c => ⟨256, padTo (pad256 c.cb.length) c.cb⟩)
  else if ty = 7 then cs.flatMap (fun c => (c.replicas.filter (fun r => r.state == .saved)).map (s.livePiece c))
  else [⟨len, []⟩]

/-- The bytes of pieces in order: those of records are free (log entry 2). -/
def pieceBytes : List Piece → State → List Byte × State
  | [], s => ([], s)
  | p :: t, s =>
    let a := freeBytes p.record s
    let b := pieceBytes t a.2
    (a.1 ++ p.bytes ++ b.1, b.2)

/-- The bytes of the sections of a blob of instance `n`, each padded. -/
def blobBodies (n : Nat) : List (Nat × Nat × Nat) → State → List (Nat × Nat × List Byte) × State
  | [], s => ([], s)
  | (ty, count, len) :: t, s =>
    let a := pieceBytes (s.sectionPieces n ty len) s
    let b := blobBodies n t a.2
    ((ty, count, padTo (pad256 len) a.1) :: b.1, b.2)

/-- The directory of a blob: one entry of 32 bytes for each section, offsets following one another (R257). -/
def blobDirectory : List (Nat × Nat × List Byte) → Nat → List Byte
  | [], _ => []
  | (ty, count, b) :: t, off =>
    leBytes 2 ty ++ leBytes 2 1 ++ leBytes 4 (crc32 b).toNat ++ leBytes 8 off ++ leBytes 8 b.length ++ leBytes 4 count
      ++ leBytes 4 0 ++ blobDirectory t (off + b.length)

/-- The header of a blob (R257). -/
def State.blobHeader (s : State) (n : Nat) (bodies : List (Nat × Nat × List Byte)) : List Byte :=
  let i := s.inst n
  let total := 512 + (bodies.map (fun e => e.2.2.length)).sum
  let a := leBytes 4 0x49424C5A ++ leBytes 2 1 ++ leBytes 2 0 ++ leBytes 8 total ++ leBytes 8 Config.serial.toNat
    ++ leBytes 1 n ++ leBytes 1 8 ++ leBytes 2 i.gen.toNat ++ leBytes 2 Config.seqBase.toNat ++ leBytes 2 Config.fepBase.toNat
    ++ leBytes 8 i.frozenAt
  let b := padTo 0x1FC (padTo 0x40 a ++ blobDirectory bodies 512)
  b ++ leBytes 4 (crc32 b).toNat

/-- SAVE's effect: the sections, then the header, written under instance 0's translation; with the status and length. -/
def State.saveBlob (s : State) (n dva cap : Nat) : State × Status × List Byte :=
  if cap < s.blobLen n then (s, St.blobSpace, [])
  else
    let (bodies, s1) := blobBodies n (s.blobSections n) s
    let body := bodies.flatMap (·.2.2)
    match s1.writeDva 0 (dva + 512) body with
    | (t, some f) => (t.mmuFault 0 f true 0 0 0x3FF 0, f.status, [])
    | (t, none) =>
      match t.writeDva 0 dva (s1.blobHeader n bodies) with
      | (u, some f) => (u.mmuFault 0 f true 0 0 0x3FF 0, f.status, [])
      | (u, none) => (u, St.ok, leBytes 8 (512 + body.length))

-- Reading a blob (R257, R260, R263) ---------------------------------------------------------------------------------------------

/-- A handle-table entry from its 16 bytes (R87). -/
def parseHandle (e : List Byte) : Handle :=
  let w := field e 8 8
  let size := bits w 39 0
  { base := bits (field e 0 8) 47 0, size := if size = 0 then 2 ^ 40 else size, gen := bits w 59 40, rd := bit w 60, wr := bit w 61,
    bound := bit w 62 }

/-- The HANDLES section: entries that a creation does not leave so. -/
def parseHandles (b : List Byte) : Tab Handle :=
  ((List.range (b.length / 16)).map (fun k => (k, parseHandle ((b.drop (16 * k)).take 16)))).filter (fun e =>
    decide (e.2 ≠ freshHandle) && (e.2.bound || e.2.gen != freshHandle.gen))

/-- A directory entry: type, flags, CRC, offset, length. -/
structure DirEntry where
  type : Nat
  flags : Nat
  crc : Nat
  off : Nat
  len : Nat
  deriving DecidableEq, Repr

/-- The directory of a blob (R257). -/
def blobDir (bs : List Byte) : List DirEntry :=
  (List.range (min 8 (field bs 25 1))).map (fun k =>
    let o := 0x40 + 32 * k
    ⟨field bs o 2, field bs (o + 2) 2, field bs (o + 4) 4, field bs (o + 8) 8, field bs (o + 16) 8⟩)

/-- The bytes of a section. -/
def DirEntry.body (e : DirEntry) (bs : List Byte) : List Byte := (bs.drop e.off).take e.len

/-- Sections follow one another from `at_` to `total` in type order, each with its CRC (R257). -/
def dirOk (bs : List Byte) (total : Nat) : Nat → Nat → List DirEntry → Bool
  | at_, _, [] => at_ == total
  | at_, ty, e :: t =>
    decide (ty < e.type) && e.off == at_ && e.len % 256 == 0 && decide (e.off + e.len ≤ bs.length)
      && e.crc == (crc32 (e.body bs)).toNat && dirOk bs total (at_ + e.len) e.type t

/-- MAGIC, HEADER_CRC, the directory and every section CRC check (R263 step 1). -/
def blobFormOk (bs : List Byte) : Bool :=
  decide (512 ≤ bs.length) && field bs 0 4 == 0x49424C5A && field bs 0x1FC 4 == (crc32 (bs.take 0x1FC)).toNat
    && decide (field bs 25 1 ≤ 8) && dirOk bs (field bs 8 8) 512 0 (blobDir bs)

/-- A blob as RESTORE reads it: its header, its checks and its handle table from the bytes at the DVA, and the other sections, of
which R258 gives the contents and not the places in a record, as they come with the command (log entry 8). -/
def readBlob (bs : List Byte) (sections : Blob) : Blob :=
  { sections with
    crcGood := blobFormOk bs, major := field bs 4 2, minor := field bs 6 2,
    unknownRequired := (blobDir bs).any (fun e => (e.type == 0 || decide (8 < e.type)) && bit e.flags 0),
    sourceInst := field bs 24 1, sourceGen := BitVec.ofNat 16 (field bs 26 2), seqBase := BitVec.ofNat 16 (field bs 28 2),
    frozenAt := field bs 32 8,
    handles := ((blobDir bs).find? (fun e => e.type == 4)).elim [] (fun e => parseHandles (e.body bs)) }

-- Creating an instance (R238) -----------------------------------------------------------------------------------------------------

/-- Limits of an instance from its dictionary entries (R234, R304). -/
def State.dictLimits (s : State) (n : Nat) : Limits :=
  let g (k : Nat) : Nat := s.setting (0x4000 + n) k
  ⟨g 1, g 2, g 3, g 4, g 5, g 6, g 7, g 8⟩

/-- The steps of INSTANCE_CREATE, up to the state that follows (R238). -/
def State.freshInstance (s : State) (n : Nat) : State :=
  (s.updInst n (fun i => { i with
    handles := [], sems := [], graphs := [], bind := [], owned := 0, mmu := mmuReset n, limits := s.dictLimits n,
    box := { i.box with state := 0, format := 0 }, lost := [], frozenAt := 0, restored := false, freezeUntil := 0, haltFreeze := false })).advanceGen n

/-- The refusal of INSTANCE_CREATE and RESTORE for an instance, if there is one (R237, R238, R262). -/
def State.createFault (s : State) (n : Nat) : Option Status :=
  if n = 0 ∨ 32 < n ∨ s.link.vfEnable = false ∨ s.link.numVfs < n then some St.badInstance
  else if (s.inst n).state != .absent then some St.instanceState
  else none

-- Contracts admitted (R187, R192) ---------------------------------------------------------------------------------------------------

/-- A contract reserved under an identifier (R187). -/
def State.holdContract (s : State) (n id : Nat) (r : ContractReq) : State :=
  let skims := match s.loadOf n id r with | some l => s.loadSkims l | none => 0
  { s with contracts := tabSet s.contracts id { inst := n, req := r, skimSlots := skims } }

/-- The lowest free contract identifier (R187). -/
def State.freeContractId (s : State) : Nat := (lowestFree (tabKeys s.contracts) 1 129).getD 129

/-- The test of a contract requested: the terms of the admission, or the failure (R192, R194). -/
def State.tryAdmit (s : State) (n : Nat) (r : ContractReq) : Except AdmitFail AdmitFail :=
  if 128 ≤ s.contracts.length then .error ⟨St.contractReserve, 0, 0xFF, 0, s.contracts.length, 128, [0, 0, 0, 0]⟩
  else match s.loadOf n 0 r with
    | none => .error ⟨St.badField, 0, 0xFF, 0, 0, 0, [0, 0, 0, 0]⟩
    | some l => match s.admitTest l true with
      | some f => .error f
      | none => .ok (s.acceptedTerms l)

-- RESTORE (R263, R264) -------------------------------------------------------------------------------------------------------------

/-- Queues of a blob placed in the lowest free slots, HELD with cause 6 unless STOPPED; none when no slot is free. -/
def State.placeQueues (s : State) (n : Nat) : List BlobQueue → Option State
  | [] => some s
  | b :: t =>
    match lowestFree (tabKeys s.queues) 0 512 with
    | none => none
    | some k =>
      let q : Queue := { inst := n, desc := b.desc, read := b.read, write := b.write, cpl := b.cpl, cons := b.cons,
                         dbBad := b.dbBad, stopCause := b.stopCause, heldFrozen := b.stopCause == 0, nextFetch := b.read,
                         stamps := if b.write = b.read then [] else [(b.write, s.now)], wbPending := true }
      State.placeQueues { s with queues := tabSet s.queues k q } n t

/-- Graphs of a blob placed in the store, each distinct page once; none when the store is full (R146). -/
def State.placeGraphs (s : State) (n : Nat) : List BlobGraph → Option State
  | [] => some s
  | b :: t =>
    match freePages (tabKeys s.pages) 0 s.storePages (b.fixedPages.length + b.pages.length) with
    | none => none
    | some ps =>
      let fp := ps.take b.fixedPages.length
      let vp := ps.drop b.fixedPages.length
      let pages := (ps.zip (b.fixedPages ++ b.pages)).foldl (fun a e => tabSet a e.1 (padTo 256 e.2)) s.pages
      let g : Graph := { fixed := b.fixed, fixedPages := fp, current := b.current, builder := none, waiters := [],
                         versions := b.versions.map (fun v => { v with pages := v.pages.map (fun k => vp.getD k 0) }) }
      State.placeGraphs (({ s with pages := pages }).setGraph n b.id g) n t

/-- A saved replica placed on the new binding: in the resume slot of the member with its index and shape, its live set in the save
areas there, or to be granted again from its first tile on that member; one whose member is missing ends with UNIT_WITHDRAWN (R263,
R128). -/
def State.placeReplica (s : State) (n : Nat) (c : Cmd) (live : Tab (List (List Byte))) (r : Replica) : State × Replica :=
  if r.state = .ended then (s, r)
  else
    let w := s.bindWord n r.role
    match (bwLeaderList w)[if c.relay then 0 else r.idx]? with
    | none => (s, { r with state := .ended, status := St.unitWithdrawn, skim := none })
    | some p =>
      if r.state = .saved ∧ bwShape w = r.shape ∧ (s.part p).resume.isNone then
        let s1 := ((groupParts r.shape p).zip (tabGetD live r.idx [])).foldl (fun t e => t.writePriv (saveArea e.1) e.2) s
        (s1.updPart p (fun x => { x with resume := some ⟨c.slot, c.seq, r.idx⟩ }), { r with leader := p, skim := none })
      else (s, { r with leader := p, shape := bwShape w, tile := 0, used := 0, state := .regrant, skim := none })

/-- The replicas of a command placed one after the other. -/
def State.placeReplicas (s : State) (n : Nat) (c : Cmd) (live : Tab (List (List Byte))) : List Replica → State × List Replica
  | [] => (s, [])
  | r :: t =>
    let (s1, r1) := s.placeReplica n c live r
    let (s2, rs) := s1.placeReplicas n c live t
    (s2, r1 :: rs)

/-- Every replica that has not ended finds its member with its shape and a free resume slot. -/
def State.replicasFit (s : State) (n : Nat) (c : Cmd) : Bool :=
  c.replicas.all (fun r => r.state == .ended ||
    (match (bwLeaderList (s.bindWord n r.role))[if c.relay then 0 else r.idx]? with
     | some p => bwShape (s.bindWord n r.role) == r.shape && (s.part p).resume.isNone
     | none => false))

/-- The launches of a command placed (R263): a relay, or a launch on one member, that does not fit the new binding goes
back to the priority queue and starts from its first tile. -/
def State.placeLaunch (s : State) (n : Nat) (c : Cmd) (live : Tab (List (List Byte))) : State × Cmd :=
  if (c.relay || c.replicas.length == 1) && !s.replicasFit n c then
    (s, { c with stage := .queued, pqEntry := some false, replicas := [] })
  else
    let r := s.placeReplicas n c live c.replicas
    (r.1, { c with replicas := r.2 })

/-- One accepted command of a blob placed at its recorded stage, with the new generation (R263 step 6). -/
def State.placeCmd (s : State) (n frozenAt : Nat) (b : BlobCmd) : Option State :=
  match s.slotOf n b.qid with
  | none => none
  | some slot =>
    let pool := match b.cmd.pool with
      | some _ => (lowestFree s.fep.pool 0 2048).map some
      | none => some none
    match pool with
    | none => none
    | some pool =>
      if b.cmd.inScoreboard && !s.sbFree b.cmd.contract then none
      else
        let c0 : Cmd := { b.cmd with slot := slot, inst := n, gen := (s.inst n).gen, release := frozenAt - b.cmd.release,
                                     order := s.fep.nextOrder, pool := pool, chan := none, inFlight := none, cancelled := false,
                                     progFrom := none, accepted := true }
        let c1 : Cmd := { c0 with key := match tabGet s.contracts c0.contract with
          | some k => if c0.cls = 0 then c0.release + k.req.deadline else s.now
          | none => s.now }
        let r := s.placeLaunch n c1 b.live
        let s1 := { r.1 with fep := { r.1.fep with nextOrder := r.1.fep.nextOrder + 1,
                                                   pool := match pool with | some p => p :: r.1.fep.pool | none => r.1.fep.pool } }
        some ((s1.setCmd r.2).endIfDone slot c1.seq)

/-- The commands of a blob placed in their order. -/
def State.placeCmds (s : State) (n frozenAt : Nat) : List BlobCmd → Option State
  | [] => some s
  | b :: t => match s.placeCmd n frozenAt b with
    | some s1 => s1.placeCmds n frozenAt t
    | none => none

/-- A contract of a blob admitted again under its identifier, or lost with its event (R264). -/
def State.readmit (s : State) (n : Nat) (b : BlobContract) : State :=
  let lose (reason : Nat) (st : Status) : State :=
    (s.updInst n (fun i => { i with lost := i.lost ++ [⟨b.id, b.req, reason, st⟩] })).event Ev.contractLost n false true
      (leBytes 2 b.id ++ leBytes 1 reason ++ leBytes 1 0 ++ leBytes 2 st.toNat)
  if (tabGet s.contracts b.id).isSome then lose 2 0
  else if !(match s.loadOf n b.id b.req with | some l => l.roles | none => [b.req.role]).all (fun k => bwValid (s.bindWord n k)) then
    lose 3 0
  else match s.tryAdmit n b.req with
    | .error f => lose 1 f.status
    | .ok _ => s.holdContract n b.id b.req

/-- Limits stored in the dictionary entries of an instance (R304). -/
def State.setLimits (s : State) (n : Nat) (l : Limits) : State :=
  let f (t : State) (e : Nat × Nat) : State := t.setSetting (0x4000 + n) e.1 e.2
  [(1, l.queueLimit), (2, l.semCount), (3, l.graphLimit), (4, l.storeKiB), (5, l.privQuotaMiB), (6, l.privShare),
    (7, l.hostShare), (8, l.powerShare)].foldl f (s.updInst n (fun i => { i with limits := l }))

/-- The sum of all private-memory shares in MB/s (R305). -/
def State.shareSum (s : State) : Nat := ((List.range 33).map (fun n => s.setting (0x4000 + n) 6)).sum

/-- Limits of a blob that cannot be met on this device (R263 step 4). -/
def State.limitsFail (s : State) (n : Nat) (b : Blob) : Bool :=
  let l := b.limits
  decide (16 < l.queueLimit) || decide (l.queueLimit < b.queues.length) || decide (1024 < l.semCount)
    || decide (256 < l.graphLimit) || decide (l.graphLimit < b.graphs.length)
    || decide (l.storeKiB * 4 < (b.graphs.map (fun g => g.fixedPages.length + g.pages.length)).sum)
    || decide (dataBandwidth s.mem.rate s.mem.ecc < s.shareSum - s.setting (0x4000 + n) 6 + l.privShare)

/-- The bindings of a RESTORE applied, or the status of the first that R155 refuses. -/
def State.applyBinds (s : State) (n : Nat) : Nat → List (BitVec 32) → Except Status State
  | _, [] => .ok s
  | role, w :: t =>
    if !bwValid w then s.applyBinds n (role + 1) t
    else match s.bindFault n role w with
      | some st => .error st
      | none => (s.setBind n role w).applyBinds n (role + 1) t

/-- Steps 4 to 6 of RESTORE: the instance as it would be, or the refusal (R263). -/
def State.rebuildFrom (s : State) (n : Nat) (owned : BitVec 16) (binds : List (BitVec 32)) (b : Blob) : Except Status State :=
  if s.limitsFail n b then .error St.restoreResources
  else
    let s1 := ((s.freshInstance n).setLimits n b.limits).updInst n (fun i => { i with
      owned := owned, handles := b.handles, sems := b.sems, frozenAt := b.frozenAt, restored := true })
    match s1.placeGraphs n b.graphs with
    | none => .error St.restoreResources
    | some s2 => match s2.applyBinds n 0 binds with
      | .error st => .error st
      | .ok s3 => match s3.placeQueues n b.queues with
        | none => .error St.restoreResources
        | some s4 => match s4.placeCmds n b.frozenAt b.cmds with
          | none => .error St.restoreResources
          | some s5 => .ok (s5.ungateBound n)

/-- RESTORE's effect, with status and reply (R263). -/
def State.restoreBlob (s : State) (n : Nat) (owned : BitVec 16) (binds : List (BitVec 32)) (b : Blob) :
    State × Status × List Byte :=
  if !b.crcGood then (s, St.blobFormat, [])
  else if b.major ≠ 1 ∨ 0 < b.minor ∨ b.unknownRequired = true then (s, St.blobVersion, [])
  else if b.seqBase ≠ Config.seqBase then (s, St.blobCompat, [])
  else match s.rebuildFrom n owned binds b with
    | .error st => (s, st, [])
    | .ok s1 =>
      let ks := b.contracts.mergeSort (fun x y => decide (x.id ≤ y.id))
      let s2 := (ks.foldl (fun t k => t.readmit n k) s1).setIState n .frozen 0
      let lost := (s2.inst n).lost
      (s2, if lost.isEmpty then St.ok else St.contractLost,
        leBytes 2 (s2.inst n).gen.toNat ++ leBytes 1 lost.length ++ leBytes 5 0
          ++ (lost.take 40).flatMap (fun x => leBytes 2 x.id))

-- THAW (R265, R266) ----------------------------------------------------------------------------------------------------------------

/-- Lost contracts tested again; those that pass are admitted (R265). -/
def State.retryLost (s : State) (n : Nat) : State :=
  (s.inst n).lost.foldl (fun t x =>
    if (tabGet t.contracts x.id).isNone && bwValid (t.bindWord n x.req.role) then
      match t.tryAdmit n x.req with
      | .ok _ => (t.holdContract n x.id x.req).updInst n (fun i => { i with lost := i.lost.filter (fun y => y.id != x.id) })
      | .error _ => t
    else t) s

/-- Release times and keys of contracted launches move by the time spent frozen (R266 step 1). -/
def State.shiftReleases (s : State) (n : Nat) : State :=
  let at_ := (s.inst n).frozenAt
  let moved (t : Nat) : Nat := s.now - (at_ - t)
  let live (id t : Nat) : Bool := (tabVals s.cmds).any (fun c => c.inst == n && c.accepted && c.contract == id && c.release == t)
  let s1 := { s with contracts := tabMap s.contracts (fun id k =>
    match k.lastRelease with
    | some t => if k.inst = n ∧ live id t = true then { k with lastRelease := some (moved t) } else k
    | none => k) }
  s1.mapCmds (fun c => if c.inst = n ∧ c.accepted = true ∧ c.contract ≠ 0 then
    { c with release := moved c.release, key := if c.cls = 0 then moved c.release + (c.key - c.release) else c.key } else c)

/-- The stamp that THAW gives an entry whose doorbell was recorded at `t` (21 R443). -/
def Inst.restamp (i : Inst) (now t : Nat) : Nat := if i.restored then now else now - (i.frozenAt - t)

/-- The entries beyond READ stamped anew, and the release times derived from their stamps: in place by the time from the stamp
to FROZEN_AT, on a restored instance with the time of THAW (21 R443). -/
def State.restampQueues (s : State) (n : Nat) : State :=
  let f (t : Nat) : Nat := (s.inst n).restamp s.now t
  let s1 := (s.slotsOf n).foldl (fun u k => u.updQueue k (fun q => { q with stamps := q.stamps.map (fun e => (e.1, f e.2)) })) s
  s1.mapCmds (fun c => if c.inst = n ∧ c.accepted = false then { c with release := f c.release } else c)

/-- The records of one slot that pend are written and acknowledged in queue order (R266 step 3). -/
def State.writePending (s : State) (slot : Nat) : State :=
  (s.accepted slot).foldl (fun t c =>
    (List.range (recordsOf c)).foldl (fun t _ => recordAck c.slot c.seq St.ok (completionRecordWrite c.slot c.seq t)) t) s

/-- Launches of contracts that THAW discards run in their queue's CLASS, without a contract (R265). -/
def State.dropLost (s : State) (n : Nat) : State :=
  let ids := ((s.inst n).lost).map (·.id)
  let s1 := s.mapCmds (fun c => if c.inst = n ∧ ids.contains c.contract = true then
    { c with contract := 0, early := false, cls := ((s.queue c.slot).map (·.desc.cls)).getD c.cls, key := s.now } else c)
  s1.updInst n (fun i => { i with lost := [] })

/-- THAW's effect on a FROZEN instance, with its status (R265, R266). -/
def State.thawInst (s : State) (n : Nat) (retry drop : Bool) : State × Status :=
  let s1 := if retry then s.retryLost n else s
  if !((s1.inst n).lost.isEmpty) && !drop then (s, St.contractLost)
  else
    let s2 := (((s1.dropLost n).shiftReleases n).restampQueues n).resumeProgress n
    let s3 := s2.setIState n .active 0
    let s4 := (s3.slotsOf n).foldl State.writePending s3
    let s5 := (s4.slotsOf n).foldl (fun t k => t.updQueue k (fun q => Queue.touch { q with heldFrozen := false })) s4
    ((s5.updInst n (fun i => { i with frozenAt := 0, restored := false, haltFreeze := false })).reassess, St.ok)

end Sys2Proof.Machine
end

