-- ==== Sys2Proof/Machine/Firmware.lean ====
section
/-! DEFINITION. Reset sources and their levels (17 R364 to R371), the restart of the Dreben core alone (15 R328 to R331),
orphan mode (15 R332 to R335) and the emulated registers (15 R323, R324), as operations that several commands share. -/

namespace Sys2Proof.Machine
open Sys2Proof

-- Sources and levels (R364, R368) ----------------------------------------------------------------------------------------

/-- Levels a source may be mapped to, widest first (R368). -/
def allowedLevels (source : Nat) : List Nat :=
  match source with
  | 1 => [0] | 2 => [0, 1] | 3 => [1, 2] | 4 => [0, 1] | 5 => [2, 3] | 6 => [3] | 7 => [0, 1, 2] | 8 => [1, 4]
  | 9 => [1, 2] | 10 => [1, 2] | 11 => [0, 1, 2] | 12 => [1, 2] | 13 => [5] | 14 => [4] | _ => [3]

/-- Laniter's fusing of a source (R368), and the fixed requests (R364). -/
def fusedLevel (source : Nat) : Nat :=
  match source with
  | 1 => 0 | 2 => 1 | 3 => 1 | 4 => 1 | 5 => 3 | 6 => 3 | 7 => 1 | 8 => 4 | 9 => 2 | 10 => 2 | 11 => 1 | 12 => 1
  | 13 => 5 | 14 => 4 | _ => 3

/-- The level in force of a source: the map's code, or the widest allowed one where the map holds a code outside the
allowed levels (R368). -/
def State.levelOf (s : State) (source : Nat) : Nat :=
  let l := tabGetD s.rst.map source (fusedLevel source)
  if (allowedLevels source).contains l then l else (allowedLevels source).headD 3

/-- An L0 or L1 reset runs, its exit included up to the release of the fabric (R374, R375). -/
def State.wideRuns (s : State) : Bool :=
  match s.rst.phase with
  | .hold | .l0Exiting | .l1Exiting => true
  | _ => false

/-- An L2 reset runs (R182). -/
def State.l2Runs (s : State) : Bool :=
  match s.rst.phase with
  | .l2Preempt | .l2Stopped => true
  | _ => false

/-- A source absorbed into the reset that runs (R370). -/
def State.absorb (s : State) : State := { s with rst := { s.rst with absorbed := satInc s.rst.absorbed } }

/-- A reset at a level counted (R310); key 6 counts restarts of the core. -/
def State.countReset (s : State) (k : Nat) : State := { s with rst := { s.rst with counts := bump s.rst.counts k (· + 1) } }

-- The restart of the core alone (R328 to R330) ------------------------------------------------------------------------------

/-- What the firmware state becomes when the core stops: a running Topcoat restarts; a load in progress is lost. -/
def fwStopped (started : Bool) (f : FwState) : FwState :=
  match f with
  | .running => .restarting
  | .loading | .verify => if started then .loadWait else .reset
  | x => x

/-- UPDATE_DONE (19 R424) and the result of a stage's COMMAND entry. -/
def State.stageDone (s : State) (stage : Nat) (result : Abort) : State :=
  let s1 := if stage = 1 then s
    else { s with dict := { s.dict with cmdResult := tabSet s.dict.cmdResult (dictKey 0x9001 stage) result } }
  s1.event Ev.updateDone 0 false true (leBytes 1 stage ++ leBytes 4 result.toNat)

/-- VERIFY meets a stop of the core: it reads RESTARTED and the verify word is not written, where its checks had not
ended, which is open (19 R417; log entry 2). -/
def State.stopVerify (s : State) : State :=
  if !s.keepBusy [2] then s
  else if Config.freeBool s.freeCount then
    State.stageDone { s.useFree with keep := { s.keep with ops := s.keep.ops.filter (fun o => o.code != 2) } } 2 0x05000002
  else s.useFree

/-- An L4 reset with a cause (R328): the core stops, MGC_DOWN is 1, RESTARTS counts, MGC_RESTARTED is latched; the bridge
of the MGC complex trains again (R225). -/
def State.restartCore (s : State) (cause : Nat) : State :=
  let recent := s.mgc.restartTimes.filter (fun t => decide (s.now ≤ t + 1000000000))
  let s1 := { s with mgc := { s.mgc with
    fw := fwStopped s.mgc.started s.mgc.fw, lastCause := BitVec.ofNat 4 cause, restarts := satInc s.mgc.restarts,
    restartsSinceAttach := satInc s.mgc.restartsSinceAttach, restartAt := s.now, restartTimes := recent ++ [s.now] } }
  let s2 := (s1.countReset 6).countReset 4
  let s3 := if (s2.bridge 16).fatal then (s2.updBridge 16 (fun b => { b with fatal := false })).refillGens nMgc else s2
  alerted s (s3.latchAlert alertRestarted).stopVerify

/-- The restart is the third within 1 s, so Topcoat is not started again (R331). -/
def State.thirdRestart (s : State) : Bool :=
  decide (3 ≤ (s.mgc.restartTimes.filter (fun t => decide (s.mgc.restartAt ≤ t + 1000000000))).length)

-- A source acts (R370) ---------------------------------------------------------------------------------------------------------

/-- A source put among those that have acted and are not resolved. -/
def State.pushActing (s : State) (source arg : Nat) : State :=
  { s with rst := { s.rst with acting := s.rst.acting ++ [⟨source, s.now, arg⟩] } }

/-- A reset source acts; `arg` is the instance of an L3 or the partition of an L5, and the cause of an L4 (R364, R370). -/
def State.actSource (s : State) (source arg : Nat) : State :=
  let lvl := s.levelOf source
  if s.wideRuns then
    (if s.rst.level = 1 ∧ lvl = 0 then s.pushActing source arg else s.absorb)
  else if s.l2Runs then
    if lvl ≤ 1 then s.pushActing source arg
    else if lvl = 2 then s.absorb
    else if lvl = 3 then
      (if s.rst.acting.any (fun a => s.levelOf a.source == 3 && a.arg == arg) || (s.inst arg).state == .absent then s
       else (s.beginReset arg source).pushActing source arg)
    else if lvl = 4 then s.restartCore arg
    else s.pushActing source arg
  else if lvl = 4 then s.restartCore arg
  else if lvl = 5 then s.startL5 arg
  else if lvl = 3 && s.rst.acting.any (fun a => s.levelOf a.source == 3 && a.arg == arg) then s
  else s.pushActing source arg

-- Emulated registers (R323, R324) -------------------------------------------------------------------------------------------------

/-- The writable emulated register at an offset: 0 EMU_PERF_HINT, 1 to 4 EMU_SCRATCH0 to 3. -/
def emuIndex (off : Nat) : Option Nat :=
  match off with
  | 0x008 => some 0 | 0x010 => some 1 | 0x014 => some 2 | 0x018 => some 3 | 0x01C => some 4 | _ => none

/-- A queued write applied: EMU_PERF_HINT keeps two bits (R323). -/
def applyEmu (i : Inst) : Inst :=
  match i.emuQueue with
  | [] => i
  | (k, v) :: t => { i with emuQueue := t, emu := tabSet i.emu k (if k = 0 then v &&& 3 else v) }

/-- EMU_POWER_MW (R323): the mean power of an instance over the last 1 ms, as the telemetry mirror holds it (16 R362). -/
def State.emuPower (s : State) (n : Nat) : BitVec 32 := BitVec.ofNat 32 (tabGetD s.pwr.mirror (0x180 + 4 * n) 0)

/-- A contract of the instance is AT_RISK or SUSPENDED. -/
def State.instRisk (s : State) (n : Nat) : Bool :=
  s.contracts.any (fun e => e.2.inst == n && (e.2.state == .atRisk || e.2.state == .suspended))

/-- The value Topcoat answers for an emulated register (R323). -/
def State.emuValue (s : State) (n off : Nat) : BitVec 32 :=
  let i := s.inst n
  match off with
  | 0x000 => BitVec.ofNat 32 (s.mgc.ifRev.toNat + 65536 * n)
  | 0x004 => BitVec.ofNat 32 (i.state.code + 16 * i.box.state + 64 * b2n (n == 0 && s.mgc.orphan) + 128 * b2n (s.instRisk n)
      + 65536 * i.gen.toNat)
  | 0x00C => s.emuPower n
  | o => match emuIndex o with
    | some k => tabGetD i.emu k 0
    | none => 0

/-- Offsets of the emulated registers. -/
def emuOffsets : List Nat := [0x000, 0x004, 0x008, 0x00C, 0x010, 0x014, 0x018, 0x01C]

/-- The shadows of a function published (R324). -/
def State.publish (s : State) (n : Nat) : State :=
  let vals := emuOffsets.map (fun o => (o, s.emuValue n o))
  s.updInst n (fun i => { i with shadow := vals.foldl (fun t e => tabSet t e.1 e.2) i.shadow })

/-- FE_STATUS (R323). -/
def State.feStatus (s : State) (n : Nat) : BitVec 32 :=
  let i := s.inst n
  BitVec.ofNat 32 (b2n (!s.serving) + 2 * b2n i.feOvf + 4 * i.emuQueue.length + 65536 * i.ovfCount.toNat)

/-- EMU_WRITE_APPLY (R324): while Topcoat serves, the oldest queued write of a function takes effect; a hint moves the
clocks of its work (R358). -/
def execEmuWriteApply (fn : Fin 33) (s : State) : Result :=
  .next (if s.serving then (s.updInst fn.val applyEmu).reassess else s)

/-- SHADOW_PUBLISH (R324). -/
def execShadowPublish (fn : Fin 33) (s : State) : Result := .next (if s.serving then s.publish fn.val else s)

-- Mailbox opens (R243a) -----------------------------------------------------------------------------------------------------------

/-- The highest format a host offers. -/
def bestFormat (f : BitVec 3) : Nat := if f.getLsbD 2 then 3 else if f.getLsbD 1 then 2 else if f.getLsbD 0 then 1 else 0

/-- Topcoat completes the open of a mailbox in OPENING, and sends vector 1 (R243a). -/
def State.completeOpen (s : State) (n : Nat) : State :=
  let b := (s.inst n).box
  if b.state ≠ 1 then s
  else
    let fmt := bestFormat b.formats
    let nb : Mailbox :=
      if b.inProd ≠ 0 ∨ b.outCons ≠ 0 ∨ b.evCons ≠ 0 then { b with state := 0, openResult := 2 }
      else if fmt = 0 then { b with state := 0, openResult := 3 }
      else { b with state := 2, format := fmt, openResult := 1, inCons := 0, outProd := 0, evProd := 0,
                    helloGen := (s.inst n).gen, helloMgrGen := if n = 0 then s.mgc.mgrGen else 0,
                    helloIfRev := s.mgc.ifRev }
    (s.updInst n (fun i => { i with box := nb })).msix n 1

-- Orphan mode (R334, R335) ----------------------------------------------------------------------------------------------------------

/-- ORPHAN_POLICY is HALT_ALL (R335). -/
def State.haltAll (s : State) : Bool := s.setting 0x2100 0x02 == 1

/-- HALT_ALL applied: FREEZE with 10,000 ms sent to every tenant that is ACTIVE (R335). -/
def State.applyPolicy (s : State) : State :=
  if s.haltAll then
    let s1 := { s with mgc := { s.mgc with halted := true } }
    ((List.range 33).filter (fun n => n != 0 && (s1.inst n).state == .active)).foldl
      (fun t n => t.startFreeze n 10000 none true) s1
  else s

/-- Orphan mode begins (R334): instance 0's queues are HELD with cause 4, PF0's messages pend, the flags are set, and
ORPHAN_ENTERED is sent; Topcoat applies the policy when it serves. -/
def State.beginOrphan (s : State) : State :=
  if s.mgc.orphan then { s with mgc := { s.mgc with armed := false } }
  else
    let s1 := { s with mgc := { s.mgc with armed := false, orphan := true, orphanAt := s.now, halted := false,
                                           orphanCount := satInc s.mgc.orphanCount } }
    let s2 := (s1.slotsOf 0).foldl (fun t k => t.updQueue k (fun q =>
      if q.stopCause = 0 then Queue.touch { q with heldOrphan := true } else q)) s1
    let s3 := s2.event Ev.orphanEntered 0 false true (leBytes 8 s.now)
    let s4 := if s.serving then s3.applyPolicy else s3
    alerted s s4

/-- HOST_LOSS_EXPIRY (R333): the armed timer has reached HOST_LOSS_MS. -/
def execHostLossExpiry (s : State) : Result :=
  .next (if s.mgc.armed && decide (s.mgc.beatBase + s.setting 0x2100 0x01 * 1000000 ≤ s.now) then s.beginOrphan else s)

-- Topcoat serves (R320, R329, R330) ---------------------------------------------------------------------------------------------------

/-- The MGC_RESTART event for the manager and every instance whose mailbox is OPEN (R330). -/
def State.restartEvent (s : State) : State :=
  let body := leBytes 1 s.mgc.lastCause.toNat ++ leBytes 8 s.mgc.restartAt ++ leBytes 2 s.mgc.restarts.toNat
  let s1 := s.event Ev.mgcRestart 0 false true body
  ((List.range 33).filter (fun n => n != 0 && (s1.inst n).box.state == 2)).foldl
    (fun t n => t.event Ev.mgcRestart n true false body) s1

/-- What waited for Topcoat is taken up: queued emulated writes, events, opens, FREEZE replies, the policy of an orphan
mode that began since the core stopped, the freezes of HALT_ALL (R324, R329, R335). -/
def State.takeUp (s : State) : State :=
  let s1 := s.releaseEvents
  let all := List.range 33
  let s2 := all.foldl (fun t n => (List.range 8).foldl (fun t _ => t.updInst n applyEmu) t) s1
  let s3 := all.foldl State.completeOpen s2
  let s4 := s3.flushFreeze.flushService
  let s5 := if s4.mgc.orphan && decide (s4.mgc.restartAt ≤ s4.mgc.orphanAt) then s4.applyPolicy else s4
  all.foldl State.publish s5.repeatFreezes

-- Loading (R317 to R321) -----------------------------------------------------------------------------------------------------------

/-- Bytes of the Topcoat SRAM from its start. -/
def State.sramBytes (s : State) (n : Nat) : List Byte := (List.range n).map (fun k => tabGetD s.mgc.sram k 0)

/-- A load may begin (R319). -/
def FwState.mayBegin (f : FwState) : Bool := f == .reset || f == .loadWait || f == .loadFailed

/-- Fabric activity: in Dormant the fabric clock restarts on a doorbell, a mailbox write or a BAR access (16 R344, R349). -/
def State.wakeFabric (s : State) : State := { s with pwr := { s.pwr with fabricGated := false, lastFabric := s.now } }

/-- BEGIN written (R319). -/
def State.loadBegin (s : State) : State :=
  if s.mgc.fw.mayBegin then { s with mgc := { s.mgc with fw := .loading, loadResult := 1 } }
  else { s with mgc := { s.mgc with loadResult := 6 } }

/-- BEGIN (R319). -/
def execFwBegin (s : State) : Result := .next (if s.seen 0 then s.wakeFabric.loadBegin else s)

/-- COMMIT written (R319, R320): ignored outside LOADING. -/
def State.loadCommit (s : State) : State :=
  if s.mgc.fw == .loading then { s with mgc := { s.mgc with fw := .verify } } else s

/-- COMMIT (R319, R320). -/
def execFwCommit (s : State) : Result := .next (if s.seen 0 then s.wakeFabric.loadCommit else s)

/-- The first check of R320 that an image fails, as RESULT; 0 where it passes. -/
def imageFault (img : List Byte) (length : Nat) : Nat :=
  if field img 0 4 ≠ 0x54434F50 ∨ field img 6 2 ≠ 0 ∨ allZero ((img.drop 24).take 40) = false
      ∨ allZero ((img.drop 0xA1).take 31) = false ∨ allZero ((img.drop 0x120).take 224) = false
      ∨ field img 8 4 % 256 ≠ 0 ∨ field img 8 4 < 4096 ∨ 524288 < field img 8 4
      ∨ field img 12 4 % 4 ≠ 0 ∨ field img 8 4 ≤ field img 12 4 then 2
  else if length ≠ field img 8 4 then 3
  else if keyOk img = false then 4
  else if sigOk img (field img 8 4) = false then 5
  else 0

/-- A failed load: RESULT, SRAM zeroed, LOAD_FAILED (R320). -/
def State.loadFails (s : State) (r : Nat) : State :=
  { s with mgc := { s.mgc with fw := .loadFailed, loadResult := BitVec.ofNat 4 r, sram := [] } }

/-- The image in the SRAM as the check reads it. -/
def State.image (s : State) : List Byte := s.sramBytes (min 524288 (max 512 (field (s.sramBytes 16) 8 4)))

/-- The stack bounds and the stack pointer that Primer sets at each start, which the manual does not give (R326). -/
def State.primerStack (s : State) : State :=
  let w (k : Nat) : BitVec 32 := Config.freeWord (s.freeCount + k)
  { s with freeCount := s.freeCount + 3, mgc := { s.mgc with stkLo := w 0, stkHi := w 1, sp := w 2 } }

/-- The events of the boot that waited for Topcoat: a keep store that could not be read, an invalid calibration record, a
revert (R404, R420, R424). -/
def State.bootEvents (s : State) : State :=
  let s1 := if s.cal.reason = 1 then s.event Ev.keepStoreError 0 false true (leBytes 1 7 ++ leBytes 3 ksCal) else s
  let s2 := if s1.cal.reason ≠ 0 then s1.event Ev.calInvalid 0 false true (leBytes 1 s1.cal.reason) else s1
  match s2.cal.reverted with
  | some (bad, now_, reason) =>
    ({ s2 with cal := { s2.cal with reverted := none } }).event Ev.patchReverted 0 false true
      (leBytes 1 bad ++ leBytes 1 now_ ++ leBytes 1 reason)
  | none => s2

/-- Topcoat starts after an L0 or L1 reset: MGR_GEN 1, instance 0 ACTIVE with generation 1, detached, DEV_READY, and what
waited is taken up (R235, R250, R320, R366). -/
def State.coldStart (s : State) : State :=
  let s1 := { s with mgc := { s.mgc with fw := .running, started := true, mgrGen := 1, attached := false, orphan := false,
                                         armed := false, loadResult := 1 }
                     pins := { s.pins with devReady := true } }
  let s2 := s1.updInst 0 (fun i => { i with limits := s1.dictLimits 0 })
  (((s2.advanceGen 0).setIState 0 .active 0).takeUp).primerStack.bootEvents

/-- Topcoat starts again after a load from LOAD_WAIT: a restart with cause RELOAD (R331). -/
def State.reload (s : State) : State :=
  let s0 := s.restartCore 6
  let s1 := { s0 with mgc := { s0.mgc with fw := .running, loadResult := 1, restartAt := s.mgc.restartAt }
                      pins := { s0.pins with devReady := true } }
  let s2 := s1.takeUp
  ({ s2 with mgc := { s2.mgc with restartAt := s.now } }).primerStack.restartEvent

/-- HEARTBEAT written (R333). -/
def State.heartbeat (s : State) (value : BitVec 32) : State :=
  { s with mgc := { s.mgc with heartbeat := value, beatBase := if s.mgc.armed then s.now else s.mgc.beatBase } }

/-- HEARTBEAT_WRITE (R333). -/
def execHeartbeatWrite (value : BitVec 32) (s : State) : Result := .next (if s.seen 0 then s.wakeFabric.heartbeat value else s)

/-- SW_RESET written (R316). -/
def State.swReset (s : State) (value : BitVec 32) : State := if value = 0xA55A then s.actSource 12 0 else s

/-- SW_RESET (R316). -/
def execSwReset (value : BitVec 32) (s : State) : Result := .next (if s.seen 0 then s.wakeFabric.swReset value else s)

/-- MGC_WATCHDOG (R325): its reset source; at L4 with cause WATCHDOG. Primer services it while it waits. -/
def execMgcWatchdog (s : State) : Result := .next (if s.serving then s.actSource 8 2 else s)

/-- The push of an exception is allowed: the four conditions of R326, both bounds within the 512 KiB SRAM. -/
def pushOk (sp lo hi : Nat) : Bool :=
  sp % 8 == 0 && decide (sp ≤ hi) && decide (lo + 32 ≤ sp) && decide (lo < hi) && decide (hi ≤ 524288)

/-- STACKING_FAULT (R327): a push from SP that fails R326 saves to the shadow bank and restarts the core with cause
STACK; one that passes is an exception the core takes and nothing outside sees. -/
def execStackingFault (sp : BitVec 32) (s : State) : Result :=
  .next (if s.serving && !pushOk sp.toNat s.mgc.stkLo.toNat s.mgc.stkHi.toNat then
    ({ s with mgc := { s.mgc with sp := sp, shadowBank := some (1, sp) } }).actSource 14 1 else s)

/-- CORE_FAULT (R328): an exception that Topcoat does not recover from. -/
def execCoreFault (s : State) : Result :=
  .next (if s.serving then ({ s with mgc := { s.mgc with shadowBank := some (4, s.mgc.sp) } }).actSource 14 4 else s)

end Sys2Proof.Machine
end

