-- ==== Sys2Proof/Machine/CfgSpace.lean ====
section
/-! DEFINITION. PCI Express configuration space (05 R96, R98 to R100, R105 to R107, R109; 04 R72): what a function's registers
take and what they read. The manual gives the capability structures and their offsets; the places of the fields in them are
PCI Express's (log entry 23). -/

namespace Sys2Proof.Machine
open Sys2Proof

-- Writes --------------------------------------------------------------------------------------------------------------------

/-- A byte of a register replaced. -/
def setByte {w : Nat} (old : BitVec w) (k : Nat) (b : Byte) : BitVec w :=
  (old &&& ~~~ (0xFF#w <<< (8 * k))) ||| (b.setWidth w <<< (8 * k))

/-- A byte of a register whose bits a 1 clears. -/
def clearByte (old : BitVec 32) (k : Nat) (b : Byte) : BitVec 32 := old &&& ~~~ (b.setWidth 32 <<< (8 * k))

/-- Where a byte lies in the register at `base` of `n` bytes. -/
def inReg (off base n : Nat) : Option Nat := if base ≤ off ∧ off < base + n then some (off - base) else none

/-- A byte of a function's configuration space written. BAR0 of PF0 has 1 MiB (R100). -/
def Func.cfgByte (c : Func) (off : Nat) (b : Byte) : Func :=
  match off with
  | 0x004 => { c with memEnable := b.getLsbD 1, command := setByte c.command 0 b }
  | 0x005 => { c with command := setByte c.command 1 b }
  | 0x045 => { c with pmeEn := b.getLsbD 0 }
  | 0x053 => { c with msixEnable := b.getLsbD 7, msixMask := b.getLsbD 6 }
  | 0x098 => { c with cplTimeout := bits b.toNat 3 0, devCtl2 := setByte c.devCtl2 0 b }
  | 0x099 => { c with devCtl2 := setByte c.devCtl2 1 b }
  | 0x1A6 => { c with stu := b.setWidth 5 }
  | 0x1A7 => { c with atsEnable := b.getLsbD 7 }
  | o =>
    match inReg o 0x010 8, inReg o 0x078 2, inReg o 0x080 2, inReg o 0x104 4, inReg o 0x108 4, inReg o 0x10C 4, inReg o 0x110 4,
      inReg o 0x114 4, inReg o 0x308 4 with
    | some k, _, _, _, _, _, _, _, _ => { c with bar := setByte c.bar k b &&& ~~~ 0xFFFFF#64 }
    | _, some k, _, _, _, _, _, _, _ => { c with devCtl := setByte c.devCtl k b }
    | _, _, some k, _, _, _, _, _, _ => { c with linkCtl := setByte c.linkCtl k b }
    | _, _, _, some k, _, _, _, _, _ => { c with aerUnc := clearByte c.aerUnc k b }
    | _, _, _, _, some k, _, _, _, _ => { c with aerUncMask := setByte c.aerUncMask k b }
    | _, _, _, _, _, some k, _, _, _ => { c with aerSev := setByte c.aerSev k b }
    | _, _, _, _, _, _, some k, _, _ => { c with aerCor := clearByte c.aerCor k b }
    | _, _, _, _, _, _, _, some k, _ => { c with aerCorMask := setByte c.aerCorMask k b }
    | _, _, _, _, _, _, _, _, some k => { c with l1ss := setByte c.l1ss k b }
    | _, _, _, _, _, _, _, _, _ => c

/-- A byte of PF0's SR-IOV capability written, as far as it has no row of its own: VF Memory Space Enable, the system page size
and the VF BAR of 64 KiB windows (R98, R100). -/
def HostLink.sriovByte (l : HostLink) (off : Nat) (b : Byte) : HostLink :=
  match off with
  | 0x168 => { l with vfMse := b.getLsbD 3 }
  | o =>
    match inReg o 0x180 4, inReg o 0x184 8 with
    | some k, _ => { l with sysPage := setByte l.sysPage k b }
    | _, some k => { l with vfBar := setByte l.vfBar k b &&& ~~~ 0xFFFF#64 }
    | _, _ => l

/-- One byte of a configuration write. -/
def State.cfgByteAt (s : State) (fn off : Nat) (b : Byte) : State :=
  let t := s.updFunc fn (fun c => c.cfgByte off b)
  if fn = 0 then { t with link := t.link.sriovByte off b } else t

/-- A configuration write of a function (R105): a condition that it ends lets the pending messages go. -/
def State.cfgWrite (s : State) (fn off : Nat) (data : List Byte) : State :=
  ((data.foldl (fun (a : State × Nat) b => (a.1.cfgByteAt fn a.2 b, a.2 + 1)) (s, off)).1).msixFlush fn

-- AER (R106; log entry 20) ------------------------------------------------------------------------------------------------------

def aerPoisoned : Nat := 12
def aerCplTimeout : Nat := 14
def aerUnexpectedCpl : Nat := 16
def aerUnsupported : Nat := 20
def aerInternal : Nat := 22
def aerReplayRollover : Nat := 8

/-- Errors whose packet the header log keeps: poisoned TLP, unexpected completion, Unsupported Request. -/
def aerLogs (b : Nat) : Bool := b == aerPoisoned || b == aerUnexpectedCpl || b == aerUnsupported

/-- Four free words: the header of a packet, which no command carries. -/
def freeHeader (s : State) : List (BitVec 32) × State :=
  ([Config.freeWord s.freeCount, Config.freeWord (s.freeCount + 1), Config.freeWord (s.freeCount + 2), Config.freeWord (s.freeCount + 3)],
    { s with freeCount := s.freeCount + 4 })

/-- An error reported by one function: its status bit, for the first uncorrectable one the First Error Pointer and the header log
(multiple headers are not recorded), and an error message where the link is up and the error is not masked. -/
def State.aerFn (s : State) (correctable : Bool) (b fn : Nat) : State :=
  let c := s.func fn
  let first := !correctable && c.aerUnc == 0
  let h := if first && aerLogs b then freeHeader s else (List.replicate 4 0, s)
  let t := h.2.updFunc fn (fun c => if correctable then { c with aerCor := c.aerCor ||| (1#32 <<< b) }
    else { c with aerUnc := c.aerUnc ||| (1#32 <<< b), aerFirst := if first then BitVec.ofNat 5 b else c.aerFirst,
                  aerHdr := if first then h.1 else c.aerHdr })
  if t.link.up && !(if correctable then c.aerCorMask.getLsbD b else c.aerUncMask.getLsbD b) then t.post (.err fn b) else t

/-- An error of the host link reported on every function (R106). -/
def State.aer (s : State) (correctable : Bool) (b : Nat) : State :=
  s.functions.foldl (fun t fn => t.aerFn correctable b fn) s

-- FLR (R107) ------------------------------------------------------------------------------------------------------------------

/-- An FLR of the function runs: its reset source has acted and is not resolved, or the reset it led to is under way (R107). -/
def State.flrRuns (s : State) (fn : Nat) : Bool :=
  s.rst.acting.any (fun a => (a.source == 5 || a.source == 6) && a.arg == fn)
    || (s.rst.phase != .none && decide (fn = 0) && s.rst.source == 5)

-- Reads ------------------------------------------------------------------------------------------------------------------------

/-- The extended capabilities of a function in the order of the list: offset, identifier and version (R99). A structure that the
mode in force or a VF does not have is passed over. -/
def extCaps (vf modeP : Bool) : List (Nat × Nat × Nat) :=
  [(0x100, 0x0001, 2)] ++ (if vf then [] else [(0x148, 0x0003, 1)]) ++ [(0x158, 0x000E, 1)]
    ++ (if vf then [] else [(0x160, 0x0010, 1)]) ++ [(0x1A0, 0x000F, 1)]
    ++ (if vf then []
        else if modeP then [(0x1B0, 0x0018, 1), (0x1C0, 0x0019, 1), (0x1F0, 0x0026, 1), (0x220, 0x0027, 1), (0x260, 0x002A, 1),
          (0x300, 0x001E, 1)]
        else [(0x400, 0x0023, 1)])

/-- The header of the extended capability at `off`, none where there is none. -/
def extHeader (off : Nat) : List (Nat × Nat × Nat) → Option (BitVec 32)
  | [] => none
  | (a, id, ver) :: t =>
    if a = off then some (BitVec.ofNat 32 (id + ver * 65536 + (match t with | (b, _, _) :: _ => b | [] => 0) * 1048576))
    else extHeader off t

/-- The Link Status field for a trained rate and width: rates 1 to 5 of PCI Express from the SPEED codes of R97. -/
def linkStatus (speed : BitVec 4) (width : BitVec 6) : Nat :=
  (match speed.toNat with | 1 => 1 | 3 => 2 | 4 => 3 | 6 => 4 | 7 => 5 | _ => 0) + width.toNat * 16

/-- The doubleword at `off` of PF0's or a VF's configuration space, apart from the headers of extended capabilities, for a
function in the state `c` (R98, R99, R106, R109; 04 R72). -/
def State.cfgWord (s : State) (fn off : Nat) (c : Func) : BitVec 32 :=
  let w (v : Nat) : BitVec 32 := BitVec.ofNat 32 v
  let vf := decide (fn ≠ 0)
  let table := if vf then 0x8000 else 0x60000
  match off with
  | 0x000 => if vf then 0xFFFFFFFF else w (Config.vendorId.toNat + 0x1632 * 65536)
  | 0x004 => w (c.command.toNat / 4 * 4 + c.command.toNat % 2 + b2n c.memEnable * 2 + 0x00100000)
  | 0x008 => w (Config.stepping.toNat + 0x120000 * 256)
  | 0x010 => if vf then 0 else w (c.bar.toNat + 4)
  | 0x014 => if vf then 0 else w (c.bar.toNat / 4294967296)
  | 0x02C => w (Config.subsysVendor.toNat + Config.subsysId.toNat * 65536)
  | 0x034 => 0x40
  | 0x040 => w (0x00035001 + b2n (s.pins.modeP && !vf) * 0x80000000)
  | 0x044 => w ((if c.d3hot then 3 else 0) + 8 + b2n c.pmeEn * 256)
  | 0x050 => w (0x7011 + (if vf then 7 else 63) * 65536 + b2n c.msixMask * 0x40000000 + b2n c.msixEnable * 0x80000000)
  | 0x054 => w table
  | 0x058 => w (table + 0x1000)
  | 0x070 => 0x00020010
  | 0x074 => 0x10008021
  | 0x078 => w c.devCtl.toNat
  | 0x07C => if s.pins.modeP then 0x00000845 else 0x00000100
  | 0x080 => w (c.linkCtl.toNat + linkStatus s.link.speed s.link.width * 65536)
  | 0x094 => w (0x00030001 + b2n (s.pins.modeP && !vf) * 0x800)
  | 0x098 => w c.devCtl2.toNat
  | 0x104 => c.aerUnc
  | 0x108 => c.aerUncMask
  | 0x10C => c.aerSev
  | 0x110 => c.aerCor
  | 0x114 => c.aerCorMask
  | 0x118 => w c.aerFirst.toNat
  | 0x11C => c.aerHdr.getD 0 0
  | 0x120 => c.aerHdr.getD 1 0
  | 0x124 => c.aerHdr.getD 2 0
  | 0x128 => c.aerHdr.getD 3 0
  | 0x14C => if vf then 0 else w Config.serial.toNat
  | 0x150 => if vf then 0 else w (Config.serial.toNat / 4294967296)
  | 0x168 => if vf then 0 else w (b2n s.link.vfEnable + b2n s.link.vfMse * 8)
  | 0x16C => if vf then 0 else w (32 + 32 * 65536)
  | 0x170 => if vf then 0 else w s.link.numVfs
  | 0x174 => if vf then 0 else w (1 + 1 * 65536)
  | 0x178 => if vf then 0 else w (0x1633 * 65536)
  | 0x17C => if vf then 0 else 0x1F
  | 0x180 => if vf then 0 else s.link.sysPage
  | 0x184 => if vf then 0 else w (s.link.vfBar.toNat + 4)
  | 0x188 => if vf then 0 else w (s.link.vfBar.toNat / 4294967296)
  | 0x1A4 => w (0x20 + c.stu.toNat * 65536 + b2n c.atsEnable * 0x80000000)
  | 0x308 => if vf || !s.pins.modeP then 0 else c.l1ss
  | _ => 0

/-- What a configuration read of a doubleword answers (R99, R107, R113): nothing while the link is down or the function does not
exist, Configuration Request Retry Status until configuration is ready, reset values while an FLR runs. -/
inductive CfgRead where
  | nothing
  | retry
  | value (v : BitVec 32)
  deriving DecidableEq, Repr

/-- A configuration read. The table of commands has no row for one. -/
def State.cfgRead (s : State) (fn off : Nat) : CfgRead :=
  if !s.link.up || !s.fnExists fn then .nothing
  else if !s.link.cfgReady then .retry
  else
    let c : Func := if s.flrRuns fn then {} else s.func fn
    .value ((extHeader off (extCaps (decide (fn ≠ 0)) s.pins.modeP)).getD (s.cfgWord fn off c))

-- BARs (R100) ---------------------------------------------------------------------------------------------------------------------

/-- Bytes of a function's BAR0: an access past them is none of its accesses (R100). -/
def barSize (fn : Nat) : Nat := if fn = 0 then 0x100000 else 0x10000

/-- Where a function's BAR0 begins: VF n at the VF BAR0 base plus (n − 1) × 0x1_0000 (R100). -/
def State.barBase (s : State) (fn : Nat) : Nat :=
  if fn = 0 then (s.func 0).bar.toNat else s.link.vfBar.toNat + (fn - 1) * 0x10000

/-- The function whose BAR claims an address, and the offset in it (R100, R103). -/
def State.barClaims (s : State) (a : Nat) : Option (Nat × Nat) :=
  (s.functions.find? (fun fn => decide (s.barBase fn ≤ a) && decide (a < s.barBase fn + barSize fn))).map (fun fn => (fn, a - s.barBase fn))

end Sys2Proof.Machine
end

