-- ==== Sys2Proof/Machine/Messages.lean ====
section
/-! DEFINITION. The mailbox messages (11 R234 to R246): queues and semaphores (06), graphs (07), contracts (09), the
lifecycle and the partitions of an instance (11), freezing (12), ATTACH (15 R336, R337). -/

namespace Sys2Proof.Machine
open Sys2Proof

-- The catalogue (R246) --------------------------------------------------------------------------------------------------

def kNop : MsgKind := ⟨0x0001, 1, false, some 0⟩
def kQueueCreate : MsgKind := ⟨0x0010, 1, false, some 64⟩
def kQueueDestroy : MsgKind := ⟨0x0011, 1, false, some 1⟩
def kQueueReset : MsgKind := ⟨0x0012, 1, false, some 1⟩
def kSemSet : MsgKind := ⟨0x0018, 1, false, some 24⟩
def kGraphRegister : MsgKind := ⟨0x0020, 1, false, some 20⟩
def kGraphRelease : MsgKind := ⟨0x0021, 1, false, some 2⟩
def kGraphQuery : MsgKind := ⟨0x0022, 1, false, some 2⟩
def kContractAdmit : MsgKind := ⟨0x0030, 2, false, some 32⟩
def kContractRelease : MsgKind := ⟨0x0031, 2, false, some 2⟩
def kContractQuery : MsgKind := ⟨0x0032, 2, false, some 2⟩
def kInstanceInfo : MsgKind := ⟨0x0040, 1, false, some 0⟩
def kMailboxClose : MsgKind := ⟨0x0041, 1, false, some 0⟩
def kInstanceCreate : MsgKind := ⟨0x0100, 1, true, some 0⟩
def kInstanceQuiesce : MsgKind := ⟨0x0101, 1, true, some 0⟩
def kInstanceRemove : MsgKind := ⟨0x0102, 1, true, some 0⟩
def kInstanceReset : MsgKind := ⟨0x0103, 1, true, some 0⟩
def kPartAssign : MsgKind := ⟨0x0110, 1, true, some 2⟩
def kPartRevoke : MsgKind := ⟨0x0111, 1, true, some 2⟩
def kRoleBind : MsgKind := ⟨0x0112, 1, true, some 8⟩
def kRoleUnbind : MsgKind := ⟨0x0113, 1, true, some 1⟩
def kFreeze : MsgKind := ⟨0x0120, 2, true, some 8⟩
def kSave : MsgKind := ⟨0x0121, 2, true, some 16⟩
def kRestore : MsgKind := ⟨0x0122, 2, true, some 96⟩
def kThaw : MsgKind := ⟨0x0123, 2, true, some 1⟩
def kAttach : MsgKind := ⟨0x0130, 1, true, some 8⟩
def kDictTunnel : MsgKind := ⟨0x0140, 2, true, none⟩

/-- Every message of the catalogue. -/
def catalogue : List MsgKind :=
  [kNop, kQueueCreate, kQueueDestroy, kQueueReset, kSemSet, kGraphRegister, kGraphRelease, kGraphQuery, kContractAdmit,
    kContractRelease, kContractQuery, kInstanceInfo, kMailboxClose, kInstanceCreate, kInstanceQuiesce, kInstanceRemove,
    kInstanceReset, kPartAssign, kPartRevoke, kRoleBind, kRoleUnbind, kFreeze, kSave, kRestore, kThaw, kAttach, kDictTunnel]

/-- What a message does: on the state, with its payload. -/
abbrev Body := State → List Byte → State × Option (Status × List Byte)

/-- The body of a message of an instance about itself, which is not served while it is FREEZING or FROZEN (R255). -/
def unfrozen (mb : Nat) (body : Body) : Body := fun t p => if t.freezes mb then refuseWith t St.instanceState else body t p

/-- A message of an instance about itself. -/
def State.ownMessage (s : State) (mb : Nat) (h : MsgHdr) (payload : List Byte) (k : MsgKind) (body : Body) : State :=
  s.message mb h payload k (unfrozen mb body)

/-- A body that applies a change or refuses with its status. -/
def applyOr (s : State) (r : Except Status State) (out : State → List Byte) : State × Option (Status × List Byte) :=
  match r with
  | .ok t => okWith t (out t)
  | .error st => refuseWith s st

/-- UNDEFINED_MESSAGE (R245): a code that the catalogue does not list. -/
def execUndefinedMessage (mb : Fin 33) (h : MsgHdr) (_payload : List Byte) (s : State) : Result :=
  .next (if catalogue.any (fun k => k.code == h.msg) || !s.takesRequest mb.val h then s
    else (s.takeRequest mb.val h).reply mb.val h St.badMessage [])

/-- NOP (R246). -/
def execNopMessage (mb : Fin 33) (h : MsgHdr) (payload : List Byte) (s : State) : Result :=
  .next (s.message mb.val h payload kNop (fun t _ => okWith t []))

-- Queues (R116, R117, R136, R137, R392) ----------------------------------------------------------------------------------

/-- A queue made from its descriptor in the lowest free slot, or the refusal of R116. -/
def State.createQueue (s : State) (n : Nat) (b : List Byte) : Except Status (State × Nat) :=
  let d := parseDesc b
  if (s.slotOf n d.qid).isSome then .error St.queueExists
  else if !descReservedOk b || !descOk n d then .error St.badField
  else if (s.inst n).limits.queueLimit ≤ (s.slotsOf n).length then .error St.queueSlots
  else match lowestFree (tabKeys s.queues) 0 512 with
    | none => .error St.queueSlots
    | some k =>
      let q : Queue := { inst := n, desc := d, heldOrphan := decide (n = 0) && s.mgc.orphan, heldD3 := s.pwr.pf0D3 || (s.func n).d3hot,
                         wbPending := true }
      .ok ({ s with queues := tabSet s.queues k q }, k)

/-- QUEUE_CREATE's body (R116). An aborted instance has no queue that is not STOPPED (R236), so it is refused there. -/
def queueCreateBody (mb : Nat) : Body := unfrozen mb (fun t b =>
  if (t.inst mb).state != .active then refuseWith t St.instanceState
  else match t.createQueue mb b with
    | .ok (u, k) => okWith u (leBytes 2 k)
    | .error st => refuseWith t st)

/-- QUEUE_CREATE (R116). -/
def execQueueCreate (mb : Fin 33) (h : MsgHdr) (payload : List Byte) (s : State) : Result :=
  .next (s.viaPort mb.val h payload [] kQueueCreate (queueCreateBody mb.val))

/-- What a slot still holds is given up: accepted commands end without records, the others are dropped. -/
def State.clearSlot (s : State) (slot : Nat) (sel : Cmd → Bool) : State :=
  let cs := (s.slotCmds slot).filter sel
  let s1 := (s.endCmds ((cs.filter (·.accepted)).mergeSort (fun a b => decide (a.order ≤ b.order)))).1
  (cs.filter (fun c => !c.accepted)).foldl (fun t c => (t.dropCmd c.slot c.seq).dropBuild c) s1

/-- QUEUE_DESTROY of the queue in a slot, with its status (R137, R392). -/
def State.destroyQueue (s : State) (slot : Nat) (q : Queue) : Except Status State :=
  if q.abortLatched then .error St.queueState
  else if q.stateCode = 3 ∨ (q.stateCode = 1 ∧ q.read = q.write ∧ s.inflight slot = 0) then
    let s1 := (s.clearSlot slot (fun _ => true)).resetStream slot
    .ok { s1 with
      queues := tabErase s1.queues slot
      fep := { s1.fep with sbFifo := s1.fep.sbFifo.filter (fun e => e.1 != slot),
                           heldBells := s1.fep.heldBells.filter (fun e => !(e.1 == q.inst && e.2.1 == q.desc.qid)) } }
  else .error St.queueState

/-- A STOPPED queue made ACTIVE again: READ at the recorded WRITE, reservations cleared (R137). -/
def restartQueue (q : Queue) : Queue :=
  Queue.touch { q with read := q.write, nextFetch := q.write, stamps := [], stopCause := 0, guilty := none, resetDone := false,
                       guiltyHead := none, guiltRound := 0, guiltEntries := 0, guiltPass := 0, guiltSaid := false,
                       guiltDiscard := 0, reads := 0, need := none }

/-- QUEUE_RESET of the queue in a slot, with its status (R137, R392). -/
def State.restartSlot (s : State) (slot : Nat) (q : Queue) : Except Status State :=
  if q.abortLatched || q.stateCode ≠ 3 then .error St.queueState
  else
    let s1 := s.clearSlot slot (fun c => c.cancelled || !c.accepted)
    let s2 := s1.mapCmds (fun c => if c.slot = slot then { c with resv := 0 } else c)
    .ok (s2.updQueue slot restartQueue)

/-- A QID message: the queue it names, or QUEUE_STATE when the instance has none by that number. -/
def State.queueMessage (s : State) (n : Nat) (b : List Byte) (f : Nat → Queue → Except Status State) : Except Status State :=
  if 15 < field b 0 1 then .error St.badField
  else match (s.slotOf n (field b 0 1)).bind (fun k => (s.queue k).map (fun q => (k, q))) with
    | some (k, q) => f k q
    | none => .error St.queueState

/-- QUEUE_DESTROY's body (R137). -/
def queueDestroyBody (mb : Nat) : Body := unfrozen mb (fun t b => applyOr t (t.queueMessage mb b t.destroyQueue) (fun _ => []))

/-- QUEUE_DESTROY (R137). -/
def execQueueDestroy (mb : Fin 33) (h : MsgHdr) (payload : List Byte) (s : State) : Result :=
  .next (s.viaPort mb.val h payload [] kQueueDestroy (queueDestroyBody mb.val))

/-- QUEUE_RESET's body (R137): of any queue of an ABORTED instance, the instance is ACTIVE again (R236). -/
def queueResetBody (mb : Nat) : Body := unfrozen mb (fun t b =>
  match t.queueMessage mb b t.restartSlot with
  | .ok u => okWith (if (u.inst mb).state == .aborted then u.setIState mb .active 0 else u) []
  | .error st => refuseWith t st)

/-- QUEUE_RESET (R137). -/
def execQueueReset (mb : Fin 33) (h : MsgHdr) (payload : List Byte) (s : State) : Result :=
  .next (s.viaPort mb.val h payload [] kQueueReset (queueResetBody mb.val))

-- Semaphores (R129, R246, R388) --------------------------------------------------------------------------------------------

/-- SEM_SET's effect: the mirror set or removed, the poisoning cleared, then the value written. -/
def State.semSet (s : State) (n i flags value mirror : Nat) : State :=
  let x := s.sem n i
  let y : Sem := { x with mirror := if bit flags 1 then some mirror else if bit flags 2 then none else x.mirror
                          poison := if bit flags 3 then none else x.poison }
  let s1 := s.setSem n i y
  if bit flags 0 then
    let s2 := s1.writeSem n i (BitVec.ofNat 64 value)
    if y.value.toNat = value then s2 else s2.writeMirror n i 0x3FF 0
  else s1

/-- SEM_SET's body (R246). -/
def semSetBody (mb : Nat) : Body := unfrozen mb (fun t b =>
  let i := field b 0 2
  let f := field b 2 1
  if (t.inst mb).limits.semCount ≤ i then refuseWith t St.badSemaphore
  else if (bit f 1 && bit f 2) || (bit f 1 && decide (2 ^ 48 ≤ field b 16 8)) then refuseWith t St.badField
  else okWith (t.semSet mb i f (field b 8 8) (field b 16 8)) [])

/-- SEM_SET (R246). -/
def execSemSet (mb : Fin 33) (h : MsgHdr) (payload : List Byte) (s : State) : Result :=
  .next (s.viaPort mb.val h payload [] kSemSet (semSetBody mb.val))

-- Graphs (R143 to R147, R156) ------------------------------------------------------------------------------------------------

/-- Roles reached from a set over at most `k` edges. -/
def reachFrom (es : List Edge) : Nat → List Nat → List Nat
  | 0, l => l
  | k + 1, l => reachFrom es k ((l ++ l.flatMap (fun r => (es.filter (fun e => e.src == r)).map (·.dst))).eraseDups)

/-- The relay map meets R156. -/
def relayOk (f : GraphFixed) : Bool :=
  let es := f.edges
  let roles := rolesOf f.roleMask
  let next (r : Nat) : List Nat := (es.filter (fun e => e.src == r)).map (·.dst)
  let sinks := roles.filter (fun r => (next r).isEmpty)
  es.all (fun e => decide (1 ≤ e.credits) && decide (e.credits ≤ 16) && e.src != e.dst && roles.contains e.src && roles.contains e.dst)
    && distinct (es.map (fun e => e.src * 16 + e.dst))
    && roles.all (fun r => !(reachFrom es 16 (next r)).contains r)
    && roles.all (fun r => decide ((next r).length ≤ 8) && decide ((es.filter (fun e => e.dst == r)).length ≤ 8))
    && sinks.length == 1
    && roles.all (fun r => (reachFrom es 16 [r]).any sinks.contains)

/-- Tile tables meet R39, stream descriptors R58 (check 4 of R144). -/
def limitsOk (f : GraphFixed) (region : List Byte) : Bool :=
  f.variants.all (fun v =>
    v.tiles.all (fun t => decide (t.live ≤ 64) && t.shape == v.shape && !(t.skim && v.skimOff.isNone) && decide (t.wcCycles ≤ 25600))
      && (atomCycles v.tiles).all (fun c => decide (c ≤ 25600)))
    && streamsOk f region

/-- The lowest graph identifier that is free (R143). -/
def State.freeGraphId (s : State) (n : Nat) : Nat := (lowestFree (tabKeys (s.inst n).graphs) 1 65535).getD 65535

/-- Checks 2 to 8 of R144 on an image that has been read, then the tests of R195; the graph's identifier. Check 7 counts the
graphs that have a current version; whether a released one whose pages a launch still holds counts is not said (DESIGN CHOICE,
log entry 84). -/
def State.registerImage (s : State) (n : Nat) (img : List Byte) (len : Nat) : Except Status (State × Nat) :=
  match parseImage img len with
  | none => .error St.graphImage
  | some (f, off) =>
    let region := (img.drop off).take f.patchLen
    let fixed := img.take off ++ img.drop (off + f.patchLen)
    let nf := ceilDiv fixed.length 256
    let np := f.patchLen / 256
    let bound := (rolesOf f.roleMask).filter (fun r => bwValid (s.bindWord n r))
    if field img 6 2 ≠ Config.seqBase.toNat then .error St.graphBase
    else if !limitsOk f region then .error St.graphLimits
    else if f.relay && !relayOk f then .error St.relayMap
    else if bound.any (fun r => (variantOf? f r (bwShape (s.bindWord n r))).isNone) then .error St.bindShape
    else if (s.inst n).limits.graphLimit ≤ ((tabVals (s.inst n).graphs).filter (·.current.isSome)).length then .error St.graphLimit
    else if (s.inst n).limits.storeKiB * 4 < s.storeCharge n + nf + np then .error St.graphStoreFull
    else match freePages (tabKeys s.pages) 0 s.storePages (nf + np) with
      | none => .error St.graphStoreFull
      | some ps =>
        let g : Graph := { fixed := f, fixedPages := ps.take nf, current := some 1, versions := [⟨1, ps.drop nf⟩],
                           builder := none, waiters := [] }
        let id := s.freeGraphId n
        let s1 := (((s.putPages (ps.take nf) fixed).putPages (ps.drop nf) region)).setGraph n id g
        let near := (bound.flatMap (fun r => bwParts (s.bindWord n r))).eraseDups
        if (s1.rerunAll ((near.flatMap s1.contractsAt).eraseDups)).isSome then .error St.contractBlocking
        else .ok (s1, id)

/-- The host bytes given with a GRAPH_REGISTER do not cover the extent it names: no such event. -/
def State.imageShort (s : State) (n : Nat) (b host : List Byte) : Bool :=
  match s.relocPair n (BitVec.ofNat 32 (field b 0 4)) (field b 8 8) (field b 16 4) true false with
  | .ok dva => s.readDva n dva (field b 16 4) host == .short
  | .error _ => false

/-- GRAPH_REGISTER's body (R143, R144): the image is read through the handle, checked and copied into the store. -/
def graphRegisterBody (n : Nat) (host : List Byte) : Body := unfrozen n (fun t b =>
  let len := field b 16 4
  let hd := BitVec.ofNat 32 (field b 0 4)
  if hd = 0 then refuseWith t St.nullHandle
  else match t.relocPair n hd (field b 8 8) len true false with
    | .error st => refuseWith t st
    | .ok dva => match t.readDva n dva len host with
      | .short => refuseWith t St.graphImage
      | .fault f => refuseWith (t.mmuFault n f false 0 0 0x3FF 0) f.status
      | .bytes img _ => match (t.chargeRead n dva len).registerImage n img len with
        | .error st => refuseWith t st
        | .ok (u, id) => okWith u (leBytes 2 id ++ leBytes 2 1))

/-- GRAPH_REGISTER (R143, R144). -/
def execGraphRegister (mb : Fin 33) (h : MsgHdr) (payload host : List Byte) (s : State) : Result :=
  .next (if s.imageShort mb.val payload host then s
    else s.viaPort mb.val h payload host kGraphRegister (graphRegisterBody mb.val host))

/-- The graph an instance names, while it has a current version (R145). -/
def State.currentGraph (s : State) (n : Nat) (b : List Byte) : Option (Nat × Graph × Nat) :=
  (s.graph n (field b 0 2)).bind (fun g => g.current.map (fun v => (field b 0 2, g, v)))

/-- PATCHes that wait for the build of an ended graph end with BAD_GRAPH (R151). -/
def State.endPatches (s : State) (n g : Nat) : State :=
  ((tabVals s.cmds).filter (fun c => c.inst == n && c.graph == g && c.opcode == opPatch && c.stage == .relocated)).foldl
    (fun t c => (t.dropBuild c).refuse { c with built := none } St.badGraph) s

/-- GRAPH_RELEASE (R145, R147): the graph has no current version from the reply on. -/
def execGraphRelease (mb : Fin 33) (h : MsgHdr) (payload : List Byte) (s : State) : Result :=
  .next (s.ownMessage mb.val h payload kGraphRelease (fun t b =>
    match t.currentGraph mb.val b with
    | none => refuseWith t St.badGraph
    | some (id, g, _) =>
      okWith (((t.setGraph mb.val id { g with current := none }).endPatches mb.val id).releaseVersions mb.val id) []))

/-- GRAPH_QUERY (R246): the current version and how many are live. -/
def execGraphQuery (mb : Fin 33) (h : MsgHdr) (payload : List Byte) (s : State) : Result :=
  .next (s.message mb.val h payload kGraphQuery (fun t b =>
    match t.currentGraph mb.val b with
    | none => refuseWith t St.badGraph
    | some (_, g, v) => okWith t (leBytes 2 v ++ leBytes 1 g.versions.length)))

-- Contracts (R185 to R199) -----------------------------------------------------------------------------------------------------

/-- A CONTRACT_ADMIT payload (R185). -/
def parseContract (b : List Byte) : ContractReq :=
  ⟨field b 0 2, bits (field b 2 1) 3 0, field b 4 4, field b 8 4, field b 12 4, field b 16 2⟩

/-- The fields of a requested contract keep their rules (R185). -/
def State.contractFieldsOk (s : State) (n : Nat) (b : List Byte) : Bool :=
  let r := parseContract b
  bits (field b 2 1) 7 4 == 0 && field b 3 1 == 0 && allZero ((b.drop 18).take 14)
    && decide (100000 ≤ r.period) && decide (r.period ≤ 4000000000) && decide (50000 ≤ r.deadline)
    && decide (r.deadline ≤ r.period) && decide (2 * r.jitter ≤ r.period) && decide (300 ≤ r.floor) && decide (r.floor ≤ 1600)
    && (match s.graph n r.graph with
      | some g => g.current.isSome && g.fixed.roleMask.getLsbD r.role && (!g.fixed.relay || r.role == 0)
      | none => false)

/-- The payload of a CONTRACT_ADMIT reply (R194, R246). -/
def admitReply (id : Nat) (f : AdmitFail) : List Byte :=
  leBytes 2 id ++ leBytes 1 f.part ++ leBytes 1 f.term ++ leBytes 2 f.contract ++ leBytes 2 0 ++ leBytes 8 (reported f.value)
    ++ leBytes 8 (reported f.limit) ++ f.terms.flatMap (fun q => leBytes 8 (reported q))

/-- CONTRACT_ADMIT's body (R192, R194). -/
def contractAdmitBody (n : Nat) : Body := unfrozen n (fun t b =>
  let bad : AdmitFail := ⟨St.badField, 0, 0xFF, 0, 0, 0, [0, 0, 0, 0]⟩
  match (if t.contractFieldsOk n b then t.tryAdmit n (parseContract b) else .error bad) with
  | .error f => (t, some (f.status, admitReply 0 f))
  | .ok f =>
    let id := t.freeContractId
    okWith (t.holdContract n id (parseContract b)) (admitReply id { f with contract := id, term := 0 }))

/-- CONTRACT_ADMIT (R192, R194). -/
def execContractAdmit (mb : Fin 33) (h : MsgHdr) (payload : List Byte) (s : State) : Result :=
  .next (s.viaPort mb.val h payload [] kContractAdmit (contractAdmitBody mb.val))

/-- The contract an instance names and has not released. -/
def State.ownContract (s : State) (n : Nat) (b : List Byte) : Option (Nat × Contract) :=
  match tabGet s.contracts (field b 0 2) with
  | some k => if k.inst = n ∧ k.state ≠ .released then some (field b 0 2, k) else none
  | none => none

/-- CONTRACT_RELEASE's body (R193, R199). -/
def contractReleaseBody (mb : Nat) : Body := unfrozen mb (fun t b =>
  match t.ownContract mb b with
  | none => refuseWith t St.contractUnknown
  | some (id, _) => okWith (t.releaseContract id) [])

/-- CONTRACT_RELEASE (R193, R199). -/
def execContractRelease (mb : Fin 33) (h : MsgHdr) (payload : List Byte) (s : State) : Result :=
  .next (s.viaPort mb.val h payload [] kContractRelease (contractReleaseBody mb.val))

/-- The state code of CONTRACT_QUERY (R246). -/
def CState.code : CState → Nat
  | .admitted => 0 | .atRisk => 1 | .suspended => 2 | .released => 3

/-- CONTRACT_QUERY (R246). -/
def execContractQuery (mb : Fin 33) (h : MsgHdr) (payload : List Byte) (s : State) : Result :=
  .next (s.message mb.val h payload kContractQuery (fun t b =>
    match t.ownContract mb.val b with
    | none => refuseWith t St.contractUnknown
    | some (_, k) => okWith t (leBytes 1 k.state.code ++ leBytes 1 k.reason)))

-- The instance's own messages ------------------------------------------------------------------------------------------------------

/-- INSTANCE_INFO (R246). -/
def execInstanceInfo (mb : Fin 33) (h : MsgHdr) (payload : List Byte) (s : State) : Result :=
  .next (s.message mb.val h payload kInstanceInfo (fun t _ =>
    let i := t.inst mb.val
    okWith t (leBytes 1 mb.val ++ leBytes 1 i.state.code ++ leBytes 2 i.gen.toNat ++ leBytes 2 i.owned.toNat
      ++ leBytes 1 i.limits.queueLimit ++ leBytes 1 0 ++ leBytes 2 i.limits.semCount ++ leBytes 2 i.limits.graphLimit)))

/-- MAILBOX_CLOSE (R246): CLOSED after the reply. -/
def execMailboxClose (mb : Fin 33) (h : MsgHdr) (payload : List Byte) (s : State) : Result :=
  .next (s.ownMessage mb.val h payload kMailboxClose (fun t _ => ((t.reply mb.val h St.ok []).closeBox mb.val, none)))

-- The lifecycle (R236 to R240) ---------------------------------------------------------------------------------------------------------

/-- The new generation as a reply's payload. -/
def State.genReply (s : State) (n : Nat) : List Byte := leBytes 2 (s.inst n).gen.toNat

/-- INSTANCE_CREATE (R238). -/
def execInstanceCreate (mb : Fin 33) (h : MsgHdr) (payload : List Byte) (s : State) : Result :=
  .next (s.message mb.val h payload kInstanceCreate (fun t _ =>
    match t.createFault h.target with
    | some st => refuseWith t st
    | none =>
      let u := (t.freshInstance h.target).setIState h.target .active 0
      okWith u (u.genReply h.target)))

/-- A lifecycle message is accepted in these states only; instance 0 has none of them (R237). -/
def State.lifecycleFault (s : State) (n : Nat) (states : List IState) : Option Status :=
  if n = 0 then some St.badInstance else if states.contains (s.inst n).state then none else some St.instanceState

/-- INSTANCE_QUIESCE (R239). Topcoat takes it when no reset runs. -/
def execInstanceQuiesce (mb : Fin 33) (h : MsgHdr) (payload : List Byte) (s : State) : Result :=
  .next (if s.rst.phase != .none then s
    else s.message mb.val h payload kInstanceQuiesce (fun t _ =>
      match t.lifecycleFault h.target [.active, .aborted, .frozen] with
      | some st => refuseWith t st
      | none => okWith (t.quiesce h.target) []))

/-- INSTANCE_REMOVE (R239). -/
def execInstanceRemove (mb : Fin 33) (h : MsgHdr) (payload : List Byte) (s : State) : Result :=
  .next (s.message mb.val h payload kInstanceRemove (fun t _ =>
    match t.lifecycleFault h.target [.quiesced] with
    | some st => refuseWith t st
    | none => okWith (t.setIState h.target .absent 0) []))

/-- INSTANCE_RESET (R236, R240, R267): of instance 0 it closes the mailbox that a reply would go to. Topcoat takes it when
no reset runs. -/
def execInstanceReset (mb : Fin 33) (h : MsgHdr) (payload : List Byte) (s : State) : Result :=
  .next (if s.rst.phase != .none then s
    else s.message mb.val h payload kInstanceReset (fun t _ =>
      if [IState.active, .aborted, .quiesced, .freezing, .frozen].contains (t.inst h.target).state then
        let u := t.resetInstance h.target 0
        if h.target = 0 then (u, none) else okWith u (u.genReply h.target)
      else refuseWith t St.instanceState))

-- Partitions and roles (R154, R155, R195, R242) ------------------------------------------------------------------------------------------

/-- States in which an instance's partitions and bindings may change (R236, R255, R392). -/
def State.bindable (s : State) (n : Nat) : Bool := [IState.active, .aborting, .aborted].contains (s.inst n).state

/-- The owned set as a reply's payload. -/
def State.ownedReply (s : State) (n : Nat) : List Byte := leBytes 2 (s.inst n).owned.toNat

/-- PART_ASSIGN (R242). -/
def execPartAssign (mb : Fin 33) (h : MsgHdr) (payload : List Byte) (s : State) : Result :=
  .next (s.message mb.val h payload kPartAssign (fun t b =>
    let m := BitVec.ofNat 16 (field b 0 2)
    if !t.bindable h.target then refuseWith t St.instanceState
    else if (leadersOf m).any (fun p => (t.part p).retired) then refuseWith t St.badField
    else
      let u := t.updInst h.target (fun i => { i with owned := i.owned ||| m })
      okWith u (u.ownedReply h.target)))

/-- A binding word without the members that hold a partition of `m`; not valid when none is left (R242). -/
def revokeWord (m : BitVec 16) (w : BitVec 32) : BitVec 32 :=
  let left := (bwLeaderList w).filter (fun p => (groupParts (bwShape w) p).all (fun q => !m.getLsbD q))
  if left.isEmpty then 0 else mkBind (maskOf left) (bwShape w) (bwGang w) true

/-- Partitions removed from the owned set of an instance, with its bindings, or the refusal (R242). -/
def State.revoke (s : State) (n : Nat) (m : BitVec 16) : Except Status State :=
  let hit := (s.inst n).bind.filter (fun e => (bwParts e.2).any m.getLsbD)
  let gone := hit.filter (fun e => !bwValid (revokeWord m e.2))
  let s1 := hit.foldl (fun t e => t.setBind n e.1 (revokeWord m e.2)) s
  if gone.any (fun e => !(s.contractsOn n e.1).isEmpty) then .error St.contractBound
  else match s1.rerunAll (hit.flatMap (fun e => s.contractsOn n e.1)).eraseDups with
    | some f => .error f.status
    | none =>
      if (s.inst n).owned &&& m = 0 then .ok s1
      else
        let s2 := s1.updInst n (fun i => { i with owned := i.owned &&& ~~~ m })
        .ok (s2.event Ev.partsChanged n true false (s2.ownedReply n))

/-- PART_REVOKE (R242). -/
def execPartRevoke (mb : Fin 33) (h : MsgHdr) (payload : List Byte) (s : State) : Result :=
  .next (s.message mb.val h payload kPartRevoke (fun t b =>
    if !t.bindable h.target then refuseWith t St.instanceState
    else applyOr t (t.revoke h.target (BitVec.ofNat 16 (field b 0 2))) (fun u => u.ownedReply h.target)))

/-- ROLE_BIND's checks and effect (R155, R195, R345). -/
def State.bindRole (s : State) (n role : Nat) (w : BitVec 32) : Except Status State :=
  match s.bindFault n role w with
  | some st => .error st
  | none =>
    let s1 := s.setBind n role w
    match s1.rerunAll (s.contractsOn n role ++ (bwParts w).flatMap s1.contractsAt).eraseDups with
    | some f => .error f.status
    | none => .ok (s1.ungateBound n)

/-- ROLE_BIND's body (R154, R155), for the instance `n` that it names. -/
def roleBindBody (n : Nat) : Body := fun t b =>
  if !t.bindable n then refuseWith t St.instanceState
  else applyOr t (t.bindRole n (field b 0 1) (BitVec.ofNat 32 (field b 4 4))) (fun _ => [])

/-- ROLE_BIND (R154, R155). -/
def execRoleBind (mb : Fin 33) (h : MsgHdr) (payload : List Byte) (s : State) : Result :=
  .next (s.viaPort mb.val h payload [] kRoleBind (roleBindBody h.target))

/-- ROLE_UNBIND's body (R154, R195). -/
def roleUnbindBody (n : Nat) : Body := fun t b =>
  let r := field b 0 1
  if !t.bindable n then refuseWith t St.instanceState
  else if 15 < r then refuseWith t St.badField
  else if !(t.contractsOn n r).isEmpty then refuseWith t St.contractBound
  else okWith (t.setBind n r 0) []

/-- ROLE_UNBIND (R154, R195). -/
def execRoleUnbind (mb : Fin 33) (h : MsgHdr) (payload : List Byte) (s : State) : Result :=
  .next (s.viaPort mb.val h payload [] kRoleUnbind (roleUnbindBody h.target))

-- The service port (08 R172) ------------------------------------------------------------------------------------------------------------

/-- What T7 does for a request of the ring. -/
def serviceBody (r : SvcReq) : Body :=
  if r.code = kQueueCreate.code then queueCreateBody r.mb
  else if r.code = kQueueDestroy.code then queueDestroyBody r.mb
  else if r.code = kQueueReset.code then queueResetBody r.mb
  else if r.code = kSemSet.code then semSetBody r.mb
  else if r.code = kGraphRegister.code then graphRegisterBody r.mb r.host
  else if r.code = kContractAdmit.code then contractAdmitBody r.mb
  else if r.code = kContractRelease.code then contractReleaseBody r.mb
  else if r.code = kRoleBind.code then roleBindBody r.hdr.target
  else roleUnbindBody r.hdr.target

/-- The oldest request without a result has one. -/
def setResult (out : Status × List Byte) : List SvcReq → List SvcReq
  | [] => []
  | r :: t => if r.out.isNone then { r with out := some out } :: t else r :: setResult out t

/-- T7 executes the oldest request of the ring that has no result, and writes one into it. -/
def State.serveOne (s : State) (r : SvcReq) : State :=
  let t := serviceBody r (s.onThread 7 none) r.payload
  let u := t.1
  { u with fep := { u.fep with service := setResult (t.2.getD (St.ok, [])) u.fep.service, serviceDone := u.fep.serviceDone + 1 } }

/-- SERVICE_REQUEST (R172): T7 executes the oldest request of the service port ring; Topcoat then replies, at once or when it serves
again. A request is whole in the ring or not there: one half-written when the core stopped is written again and leaves no trace
(log entry 15). -/
def execServiceRequest (s : State) : Result :=
  .next (if !s.fepRuns then s
    else match s.fep.service.find? (·.out.isNone) with
      | some r => (s.serveOne r).flushService
      | none => s)

-- Freezing (R252 to R266) ------------------------------------------------------------------------------------------------------------------

/-- FREEZE (R252, R253): the reply follows the end of the freeze. -/
def execFreeze (mb : Fin 33) (h : MsgHdr) (payload : List Byte) (s : State) : Result :=
  .next (s.message mb.val h payload kFreeze (fun t b =>
    let ms := field b 0 4
    match t.lifecycleFault h.target [.active] with
    | some st => refuseWith t st
    | none =>
      if 10000 < ms then refuseWith t St.badField
      else (t.startFreeze h.target (if ms = 0 then 100 else ms) (some (mb.val, h)) false, none)))

/-- SAVE (R256). Its copy engine needs the FEP, so Topcoat takes it when the FEP runs. -/
def execSave (mb : Fin 33) (h : MsgHdr) (payload : List Byte) (s : State) : Result :=
  .next (if !s.fepRuns then s
    else s.message mb.val h payload kSave (fun t b =>
      if (t.inst h.target).state != .frozen then refuseWith t St.instanceState
      else if field b 0 8 % 4096 ≠ 0 then refuseWith t St.badField
      else
        let r := t.saveBlob h.target (field b 0 8) (field b 8 8)
        (r.1, some r.2)))

/-- RESTORE (R262, R263): the blob is read under instance 0's translation, `host` giving the bytes of host pages, and `sections` what
its records hold (log entry 8). -/
def execRestore (mb : Fin 33) (h : MsgHdr) (payload host : List Byte) (sections : Blob) (s : State) : Result :=
  .next (if !s.fepRuns || s.readDva 0 (field payload 0 8) (field payload 8 8) host == .short then s
    else s.message mb.val h payload kRestore (fun t b =>
      match t.createFault h.target with
      | some st => refuseWith t st
      | none => match t.readDva 0 (field b 0 8) (field b 8 8) host with
        | .fault f => refuseWith (t.mmuFault 0 f false 0 0 0x3FF 0) f.status
        | .short => refuseWith t St.blobFormat
        | .bytes bs _ =>
          let binds := (List.range 16).map (fun r => BitVec.ofNat 32 (field b (24 + 4 * r) 4))
          let r := (t.chargeRead 0 (field b 0 8) (field b 8 8)).restoreBlob h.target (BitVec.ofNat 16 (field b 16 2)) binds
            (readBlob bs sections)
          (r.1, some r.2)))

/-- THAW (R265, R266). -/
def execThaw (mb : Fin 33) (h : MsgHdr) (payload : List Byte) (s : State) : Result :=
  .next (if !s.fepRuns then s
    else s.message mb.val h payload kThaw (fun t b =>
      if (t.inst h.target).state != .frozen then refuseWith t St.instanceState
      else
        let r := t.thawInst h.target (bit (field b 0 1) 0) (bit (field b 0 1) 1)
        (r.1, some (r.2, []))))

-- ATTACH (R336, R337) ------------------------------------------------------------------------------------------------------------------------

/-- Instances frozen under HALT_ALL that are still FROZEN. -/
def State.haltFrozen (s : State) : List Nat :=
  (List.range 33).filter (fun n => (s.inst n).haltFreeze && (s.inst n).state == .frozen)

/-- The end of orphan mode by an ATTACH: PF0's queues run again, its pending messages go out, the flags are cleared, the
halted instances are thawed where it asks so (R337). -/
def State.endOrphan (s : State) (thaw : Bool) : State :=
  let s1 := { s with mgc := { s.mgc with orphan := false, halted := false } }
  let s2 := (s1.slotsOf 0).foldl (fun t k => t.updQueue k (fun q =>
    if q.heldOrphan then Queue.touch { q with heldOrphan := false } else q)) s1
  let s3 := s2.msixFlush 0
  let s4 := if thaw then s3.haltFrozen.foldl (fun t n => (t.thawInst n false false).1) s3 else s3
  s4.event Ev.orphanEnded 0 false true []

/-- ATTACH's effect and the payload of its reply (R336, R337). -/
def State.attachManager (s : State) (flags : Nat) : State × List Byte :=
  let detach := bit flags 0
  let was := s.mgc.orphan && !detach
  let halted := was && s.mgc.halted
  let s1 := { s with mgc := { s.mgc with
    mgrGen := if s.mgc.mgrGen = 0xFFFFFFFF then 1 else s.mgc.mgrGen + 1, attached := !detach, armed := !detach,
    beatBase := if detach then s.mgc.beatBase else s.now, restartsSinceAttach := 0 } }
  let s2 := if detach then s1.beginOrphan else if was then s1.endOrphan (bit flags 1) else s1
  (s2, leBytes 4 s2.mgc.mgrGen.toNat ++ leBytes 1 (b2n was + 2 * b2n halted) ++ leBytes 3 0
    ++ leBytes 8 (if was then s.now - s.mgc.orphanAt else 0) ++ leBytes 2 s.mgc.restartsSinceAttach.toNat ++ leBytes 6 0
    ++ leBytes 8 ((s2.haltFrozen.map (fun n => 2 ^ n)).sum))

/-- ATTACH (R337). -/
def execAttach (mb : Fin 33) (h : MsgHdr) (payload : List Byte) (s : State) : Result :=
  .next (s.message mb.val h payload kAttach (fun t b =>
    if BitVec.ofNat 32 (field b 0 4) ≠ t.mgc.mgrGen then refuseWith t St.attachGen
    else
      let r := t.attachManager (field b 4 1)
      okWith r.1 r.2))

end Sys2Proof.Machine
end

