-- ==== Sys2Proof/Machine/Dict.lean ====
section
/-! DEFINITION. The object dictionary (14): its table of entries, the value of each entry, the checks of a write in the
order of 13 R287, and what a write does. -/

namespace Sys2Proof.Machine
open Sys2Proof

-- Abort codes (13 R281) ---------------------------------------------------------------------------------------------------

def abFrameCrc : Abort := 0x01000001
def abFrameLength : Abort := 0x01000002
def abBadOpcode : Abort := 0x01000003
def abReservedField : Abort := 0x01000004
def abNoIndex : Abort := 0x02000001
def abNoSubindex : Abort := 0x02000002
def abTypeLength : Abort := 0x02000003
def abValueRange : Abort := 0x02000004
def abReadOnly : Abort := 0x02000005
def abWriteOnly : Abort := 0x02000006
def abSegmentRequired : Abort := 0x02000007
def abPathDenied : Abort := 0x03000001
def abClaimedByOther : Abort := 0x03000002
def abClaimPath : Abort := 0x03000003
def abEpochMismatch : Abort := 0x03000004
def abSegNoSession : Abort := 0x04000001
def abSegOffset : Abort := 0x04000002
def abSegTimeout : Abort := 0x04000003
def abSegAborted : Abort := 0x04000004
def abSegCrc : Abort := 0x04000005
def abNotAvailable : Abort := 0x05000001
def abRestarted : Abort := 0x05000002

/-- The abort code of a status with which the device refuses a write; OK for status 0. -/
def abStatus (st : Status) : Abort := if st = 0 then 0 else 0x06000000 + st.setWidth 32

-- Entries (R291 to R311) ----------------------------------------------------------------------------------------------------

/-- Access codes (13 R279); a staged entry (RWS) is one of `rw` here, its companion an entry of its own. -/
inductive Acc where
  | const | ro | rw | wo
  deriving DecidableEq, Repr

/-- The write half of a path code (13 R280); the read half of every entry is B. -/
inductive WPath where
  | both | link | none
  deriving DecidableEq, Repr

/-- An entry: bytes of its type (0 for DOMAIN), access, write path, whether it is a stored setting, and the range of the
values a write may give. -/
structure Entry where
  size : Nat
  acc : Acc
  path : WPath
  stored : Bool
  lo : Nat
  hi : Nat
  deriving DecidableEq, Repr

def eConst (n : Nat) : Entry := ⟨n, .const, .none, false, 0, 0⟩
def eRo (n : Nat) : Entry := ⟨n, .ro, .none, false, 0, 0⟩
def eRw (n lo hi : Nat) : Entry := ⟨n, .rw, .both, false, lo, hi⟩
def eSet (n lo hi : Nat) : Entry := ⟨n, .rw, .both, true, lo, hi⟩
def eCmd : Entry := ⟨4, .rw, .both, false, 1, 1⟩

/-- The entries of an implemented index from subindex 1 on; none for an index that is not implemented. -/
def entriesAt (index : Nat) : Option (List Entry) :=
  if index = 0x1000 then some ([2, 2, 1, 8, 6, 2, 2].map eConst ++ [eRo 1, eRo 1, eConst 2, eConst 2, eRo 2, eConst 4, eRo 4,
    eRo 4, eRo 4, eConst 14])
  else if index = 0x2000 then some [eSet 1 0 1, eSet 2 6400 8533, eSet 1 1 2, eSet 1 4 16, eSet 1 0 1, eSet 2 16 1024]
  else if index = 0x2001 then some ([1, 2, 1, 1, 1, 2, 4, 4].map eRo)
  else if index = 0x2002 then some [⟨4, .rw, .link, false, 1, 1⟩]
  else if index = 0x2003 then some [eRo 4, ⟨4, .wo, .both, false, 0, 0xFFFFFFFF⟩]
  else if index = 0x2004 then some [eCmd, eRw 4 0 127, eRo 1, eRo 4]
  else if index = 0x2010 then some (List.replicate 7 (eRw 1 0 255))
  else if index = 0x2100 then some [eSet 4 200 60000, eSet 1 0 1, eSet 4 0 60000, eSet 1 0 1, eRo 1, eRo 4, eRo 2]
  else if index / 16 = 0x300 then some [eRw 1 0 1, eRo 1, eRo 1, eRo 2, eRo 4, eCmd, eSet 1 0 1, eRo 2, eRo 8, eRo 1]
  else if 0x4000 ≤ index ∧ index ≤ 0x4020 then
    some ([eSet 1 0 16, eSet 2 0 1024, eSet 2 0 256, eSet 4 0 0xFFFFFFFF, eSet 4 0 0xFFFFFFFF, eSet 4 0 68264,
      eSet 4 0 0xFFFFFFFF, eSet 4 0 30000] ++ [1, 2, 2, 1, 4, 4, 2, 1].map eRo)
  else if index = 0x5000 then some [eRw 1 0 2, eRo 1]
  else if index = 0x5001 then some [eSet 4 1500 30000, eSet 4 0 30000, eRo 4, eSet 4 300 30000, eRo 4, eRo 1]
  else if index = 0x5002 then some [eSet 2 600 1000, eConst 2]
  else if index = 0x6000 then some [eRw 0 0 0, eRo 1, eRo 4, eRo 1, eRo 2, eRo 1]
  else if index = 0x7000 then some (List.replicate 12 (eConst 1))
  else if index = 0x7001 then some [eConst 16]
  else if index = 0x7002 then some [eConst 48, eConst 1]
  else if index = 0x8000 then some (List.replicate 24 (eRo 2))
  else if index = 0x8001 then some (List.replicate 4 (eRo 2))
  else if index = 0x8002 then some ([4, 4, 4, 4, 4, 4, 8].map eRo)
  else if index = 0x8003 then some ([4, 4, 8].map eRo)
  else if index = 0x8004 ∨ index = 0x8005 then some (List.replicate 16 (eRo 4))
  else if index = 0x8006 then some (List.replicate 7 (eRo 4))
  else if index = 0x8007 then some [eRo 8]
  else if index = 0x9000 then some ([1, 1, 1, 1, 1, 4, 1, 1].map eRo)
  else if index = 0x9001 then some [⟨0, .wo, .both, false, 0, 0⟩, eCmd, eCmd, eCmd, eRo 1]
  else none

/-- The entry at an index and subindex; subindex 0 is a U8 CONST (R291). -/
def entryAt (index sub : Nat) : Except Abort Entry :=
  match entriesAt index with
  | none => .error abNoIndex
  | some es => if sub = 0 then .ok (eConst 1) else match es[sub - 1]? with
    | some e => .ok e
    | none => .error abNoSubindex

/-- The claim group of an index (13 R286). -/
def claimGroup (index : Nat) : Option Nat :=
  if index / 256 = 0x50 then some 0
  else if index / 16 = 0x300 then some 1
  else if 0x4000 ≤ index ∧ index ≤ 0x4020 then some 2
  else if index / 256 = 0x21 then some 3
  else if index / 256 = 0x60 then some 4
  else if index / 256 = 0x90 then some 5
  else if index / 256 = 0x20 ∧ index ≠ 0x2010 then some 6
  else none

/-- Every stored setting, by index and subindex, ascending (R292). -/
def storedKeys : List (Nat × Nat) :=
  ([0x2000, 0x2100] ++ (List.range 16).map (0x3000 + ·) ++ (List.range 33).map (0x4000 + ·) ++ [0x5001, 0x5002]).flatMap
    (fun i => match entriesAt i with
      | some es => (es.zipIdx.filter (fun (e : Entry × Nat) => e.1.stored)).map (fun (e : Entry × Nat) => (i, e.2 + 1))
      | none => [])

-- Values (R296 to R311) --------------------------------------------------------------------------------------------------------

/-- A path's value in a claim and in LAST_PATH plus one (13 R286, R274). -/
def pathValue : Path → Nat
  | .link => 1
  | .host => 2

/-- Version registers FEP_VER and SEQ_VER (02 R48, 08 R178). -/
def State.version (s : State) (base : BitVec 16) : Nat :=
  base.toNat + s.fep.fepPatchLevel.toNat * 65536 + b2n s.fep.patchBank * 16777216 + b2n s.fep.patchPresent * 33554432

/-- STATE of a partition (R301). -/
def State.partShown (s : State) (p : Nat) : Nat :=
  let x := s.part p
  if x.retired then 7 else if !x.enabled && x.state == .idle then 6 else x.state.code

/-- OWNERS of a partition (R301). -/
def State.owners (s : State) (p : Nat) : Nat :=
  ((List.range 33).map (fun n => if (s.inst n).owned.getLsbD p then 2 ^ n else 0)).sum

/-- Hottest sensor of a cluster in 0.1 °C. -/
def State.clusterMax (s : State) (c : Nat) : Int :=
  ((List.range 6).map (fun k => s.pwr.sensors.getD (6 * c + k) 0)).foldl max (s.pwr.sensors.getD (6 * c) 0)

/-- A signed 16-bit value as it is stored. -/
def i16 (v : Int) : Nat := (BitVec.ofInt 16 v).toNat

/-- A word of the power telemetry mirror (16 R362), by its offset from 0x4_0000. -/
def State.telemetry (s : State) (off : Nat) : Nat := tabGetD s.pwr.mirror off 0

/-- CAL_STATE (R307, 19 R406). -/
def State.calState (s : State) : Nat :=
  if s.keepBusy [5] then 2 else if s.cal.written then 3 else if s.cal.valid then 0 else 1

/-- HEARTBEAT_AGE_MS (R300): the age of the last HEARTBEAT, or of the ATTACH that armed the timer. -/
def State.beatAge (s : State) : Nat :=
  if s.mgc.beatBase = 0 && !s.mgc.armed then 0 else min ((s.now - s.mgc.beatBase) / 1000000) 0xFFFFFFFF

/-- The value that the entries of a partition, of an instance or of power show of the hardware now. -/
def State.mirrored (s : State) (index sub : Nat) : Option Nat :=
  if index / 16 = 0x300 then
    let p := index % 16
    let x := s.part p
    match sub with
    | 2 => some (s.partShown p) | 3 => some x.mcCause.toNat | 4 => some x.mcCount.toNat | 5 => some x.ceCount.toNat
    | 8 => some x.clkMhz | 9 => some (s.owners p) | _ => none
  else if 0x4000 ≤ index ∧ index ≤ 0x4020 then
    let n := index - 0x4000
    let i := s.inst n
    match sub with
    | 9 => some i.state.code | 10 => some i.gen.toNat | 11 => some i.owned.toNat
    | 12 => some (s.contracts.filter (fun e => e.2.inst == n && e.2.state != .released)).length
    | 13 => some ((s.storeCharge n + 3) / 4) | 14 => some i.stale.toNat | 15 => some i.spoofCount.toNat
    | 16 => some i.box.format | _ => none
  else if index = 0x5000 ∧ sub = 2 then some s.pwr.pstate
  else if index = 0x5001 then
    match sub with
    | 3 => some s.budgetInForce | 5 => some (mwOf (s.reservations s.loads)) | 6 => some (b2n (!s.pins.pwrCapN)) | _ => none
  else none

/-- Every mirrored entry (R312). -/
def mirroredKeys : List (Nat × Nat) :=
  (List.range 16).flatMap (fun p => [2, 3, 4, 5, 8, 9].map (fun k => (0x3000 + p, k)))
    ++ (List.range 33).flatMap (fun n => (List.range 8).map (fun k => (0x4000 + n, 9 + k)))
    ++ [(0x5000, 2), (0x5001, 3), (0x5001, 5), (0x5001, 6)]

/-- The mirrored entries refreshed (R312). -/
def State.refreshMirror (s : State) : State :=
  let m := mirroredKeys.foldl (fun t k => match s.mirrored k.1 k.2 with
    | some v => tabSet t (dictKey k.1 k.2) v
    | none => t) s.dict.mirror
  { s with dict := { s.dict with mirror := m } }

/-- The result of a COMMAND entry's last action. -/
def State.cmdResult (s : State) (index sub : Nat) : Nat := (tabGetD s.dict.cmdResult (dictKey index sub) 0).toNat

/-- The value of an entry of the identity index. -/
def State.identity (s : State) (sub : Nat) : Nat :=
  match sub with
  | 1 => Config.vendorId.toNat | 2 => 0x1632 | 3 => Config.stepping.toNat | 4 => Config.serial.toNat
  | 5 => Config.provisionalId.toNat | 6 => Config.subsysVendor.toNat | 7 => Config.subsysId.toNat
  | 8 => b2n s.pins.modeP | 9 => s.bus.staticAddr.toNat | 10 => 0x0100 | 11 => 0x0100
  | 12 => if s.serving then s.mgc.ifRev.toNat else 0 | 13 => Config.primerVer.toNat
  | 14 => s.version Config.fepBase | 15 => s.version Config.seqBase | 16 => s.mgc.mgrGen.toNat
  | _ => leNat ([0x49, 0x7A, 0x69, 0x63, 0x61, 0x20, 0x4C, 0x42, 0x5A, 0x2D, 0x31, 0x36, 0x33, 0x32].map (BitVec.ofNat 8))

/-- The value of an entry of the 0x2000 range. -/
def State.ownership (s : State) (index sub : Nat) : Nat :=
  if index = 0x2001 then
    match sub with
    | 1 => s.mem.memType | 2 => s.mem.rate | 3 => s.mem.ranks | 4 => s.mem.capGiB | 5 => b2n s.mem.ecc | 6 => s.mem.storeMiB
    | 7 => dataBandwidth s.mem.rate s.mem.ecc | _ => s.usable / 1048576
  else if index = 0x2002 then s.cmdResult index sub
  else if index = 0x2003 then s.alert.toNat
  else if index = 0x2004 then
    match sub with
    | 3 => b2n (s.keepBusy [6]) | 4 => s.dict.settingsSeq.toNat | _ => s.cmdResult index sub
  else if index = 0x2010 then tabGetD s.bus.claims (sub - 1) 0
  else s.setting index sub

/-- The value of an entry of telemetry (R310). -/
def State.counters (s : State) (index sub : Nat) : Nat :=
  if index = 0x8000 then i16 (s.pwr.sensors.getD (sub - 1) 0)
  else if index = 0x8001 then i16 (s.clusterMax (sub - 1))
  else if index = 0x8002 then
    match sub with
    | 1 => s.telemetry 0 | 6 => s.telemetry 0x30 | 7 => s.pwr.energy.toNat | k => s.telemetry (0x20 + 4 * (k - 2))
  else if index = 0x8003 then
    match sub with
    | 1 => s.dict.memCe.toNat | 2 => s.dict.memUe.toNat | _ => s.dict.memBytes / 1000000
  else if index = 0x8004 then (s.part (sub - 1)).satCount.toNat
  else if index = 0x8005 then (s.part (sub - 1)).overruns.toNat
  else if index = 0x8006 then min (tabGetD s.rst.counts (sub - 1) 0) 0xFFFFFFFF
  else s.now

/-- The value of an entry of the update range (R311). -/
def State.update (s : State) (index sub : Nat) : Nat :=
  let level (k : Nat) : Nat := match s.bankHeader k with | some (_, _, l) => l | none => 0
  if index = 0x9000 then
    match sub with
    | 1 => s.cal.activeBank | 2 => s.bankState 0 | 3 => s.bankState 1 | 4 => level 0 | 5 => level 1
    | 6 => (s.selector.map (·.1)).getD 0 | 7 => s.trialLeft | _ => s.cal.loadResult
  else match sub with
    | 5 => b2n (s.keepBusy [1, 2, 3, 4])
    | _ => s.cmdResult index sub

/-- The pin reset map: two bits a pin in the order of the signal list (R309, 20 R426). -/
def pinMap : Nat := 0x03FC6AA8

/-- The value of an entry that is no DOMAIN, as the device has it now. -/
def State.liveValue (s : State) (index sub : Nat) : Nat :=
  if sub = 0 then ((entriesAt index).getD []).length
  else match s.mirrored index sub with
    | some v => v
    | none =>
      if index = 0x1000 then s.identity sub
      else if index / 256 = 0x20 then s.ownership index sub
      else if index = 0x2100 then
        match sub with
        | 5 => b2n s.mgc.orphan | 6 => s.beatAge | 7 => s.mgc.orphanCount.toNat | k => s.setting index k
      else if index / 16 = 0x300 then
        let x := s.part (index % 16)
        match sub with
        | 1 => b2n x.enabled | 6 => x.rstResult.toNat | 7 => b2n x.retired | _ => b2n x.rstBusy
      else if index = 0x5002 ∧ sub = 2 then 1100
      else if index = 0x6000 then
        match sub with
        | 2 => s.calState
        | 3 => s.calCrc
        | 4 => b2n (s.readKeep ksFlag != 0xFF) | 5 => s.clockCap | _ => b2n (s.keepBusy [5])
      else if index = 0x7000 then s.levelOf sub
      else if index = 0x7001 then pinMap
      else if index = 0x7002 then (if sub = 1 then leNat Config.keyHash else Config.minPatchLevel)
      else if index / 256 = 0x80 then s.counters index sub
      else if index / 256 = 0x90 then s.update index sub
      else s.setting index sub

/-- What a read returns of an entry of `size` bytes: for an entry that mirrors the hardware, what it shows now or, until
the refresh within 1 ms of a change, what it showed before (R312; log entry 40). -/
def State.readValue (s : State) (index sub size : Nat) : List Byte × State :=
  let live := s.liveValue index sub
  let old := if (s.mirrored index sub).isSome then tabGetD s.dict.mirror (dictKey index sub) live else live
  if old = live then (leBytes size live, s)
  else (leBytes size (if Config.freeBool s.freeCount then live else old), s.useFree)

/-- The bytes of a DOMAIN entry: CAL_RECORD as the keep store holds it, whose undefined sectors read free values (R307,
19 R407). -/
def State.readDomain (s : State) : List Byte × State :=
  if s.keepSound ksCal 4096 then (s.readKeepN ksCal 4096, s) else freeBytes 4096 s

-- The claim and path checks (13 R287) -------------------------------------------------------------------------------------------

/-- Who holds the claim group of an index: 0 for nobody. -/
def State.holder (s : State) (index : Nat) : Nat :=
  match claimGroup index with
  | some g => tabGetD s.bus.claims g 0
  | none => 0

/-- Checks 2 to 6 of a write: the entry, path, claim, access, type and length. -/
def State.writeFault (s : State) (path : Path) (index sub : Nat) (len : Nat) (seg : Bool) : Except Abort Entry :=
  match entryAt index sub with
  | .error a => .error a
  | .ok e =>
    if e.path = .none ∨ (e.path = .link ∧ path = .host) then .error abPathDenied
    else if s.holder index ≠ 0 ∧ s.holder index ≠ (pathValue path) then .error abClaimedByOther
    else if e.acc = .const ∨ e.acc = .ro then .error abReadOnly
    else if (e.size = 0) ≠ seg then .error abSegmentRequired
    else if e.size = 0 ∧ (len = 0 ∨ 65536 < len) then .error abTypeLength
    else if e.size ≠ 0 ∧ len ≠ e.size then .error abTypeLength
    else .ok e

/-- A memory configuration that the interface supports (04 R75, R78). -/
def memConfigOk (typ rate ranks gib store : Nat) : Bool :=
  (rate == 6400 || (typ == 0 && (rate == 7500 || rate == 8533))) && decide (typ ≤ 1) && (ranks == 1 || ranks == 2)
    && (gib == 4 || gib == 8 || gib == 16) && decide (16 ≤ store) && decide (store ≤ 1024) && store % 16 == 0

/-- Check 7: the value lies in the entry's range. -/
def State.rangeFault (s : State) (path : Path) (index sub v : Nat) (e : Entry) : Abort :=
  let g (k : Nat) : Nat := if k = sub then v else s.setting index k
  if index = 0x2010 then
    let held := tabGetD s.bus.claims (sub - 1) 0
    if v = 0 then (if held = (pathValue path) then 0 else abClaimPath)
    else if v ≠ (pathValue path) then abClaimPath
    else if held ≠ 0 ∧ held ≠ (pathValue path) then abClaimedByOther else 0
  else if v < e.lo ∨ e.hi < v then abValueRange
  else if index = 0x2000 && !memConfigOk (g 1) (g 2) (g 3) (g 4) (g 6) then abValueRange
  else if index = 0x2100 ∧ sub = 3 ∧ v ≠ 0 ∧ v < 100 then abValueRange
  else if 0x4000 ≤ index ∧ index ≤ 0x4020 ∧ sub = 4 ∧ s.mem.storeMiB * 1024 < v then abValueRange
  else if 0x4000 ≤ index ∧ index ≤ 0x4020 ∧ sub = 8 ∧ v ≠ 0 ∧ v < 100 then abValueRange
  else 0

-- Effects ---------------------------------------------------------------------------------------------------------------------

/-- A write's outcome: the state after it, or the abort code with which it fails. -/
abbrev Written := Except Abort State

/-- A refusal with a status. -/
def refused {α : Type} (st : Status) : Except Abort α := .error (abStatus st)

/-- Data bandwidth of the staged memory configuration (R305). -/
def State.stagedBandwidth (s : State) : Nat := dataBandwidth (s.setting 0x2000 2) (s.setting 0x2000 5 == 1)

/-- The sum of the shares fits the bandwidth in force and the staged one (R305). -/
def State.sharesFit (s : State) : Bool :=
  decide (s.shareSum ≤ dataBandwidth s.mem.rate s.mem.ecc) && decide (s.shareSum ≤ s.stagedBandwidth)

/-- A contracted role would have no member in service without partition `p` (R302). -/
def State.leavesUnserved (s : State) (p : Nat) : Bool :=
  s.contracts.any (fun e => e.2.state != .released && (match s.loadOf e.2.inst e.1 e.2.req with
    | none => false
    | some l => l.roles.any (fun r =>
      let w := s.bindWord l.inst r
      (bwParts w).contains p && !((bwLeaderList w).any (fun q =>
        (groupParts (bwShape w) q).all (fun k => k != p && !(s.part k).out))))))

/-- ENABLE written (R302). -/
def State.writeEnable (s : State) (p v : Nat) : Written :=
  if v = 0 then
    if s.leavesUnserved p then refused St.contractBound
    else .ok (State.riskOffline (s.updPart p (fun x => { x with enabled := false })) p)
  else .ok (State.riskScan (s.updPart p (fun x => { x with enabled := true })))

/-- A partition taken from every instance that owns it or has it bound (R242, R303). -/
def State.revokeAll (s : State) (p : Nat) : Except Status State :=
  let ns := (List.range 33).filter (fun n => (s.inst n).owned.getLsbD p || (s.boundParts n).contains p)
  if ns.any s.freezes then .error St.instanceState
  else ns.foldl (fun r n => match r with
    | .ok t => t.revoke n (maskOf [p])
    | .error e => .error e) (.ok s)

/-- A retired partition gated once nothing runs or is saved there (R303). -/
def State.gateRetired (s : State) (p : Nat) : State := if s.isSaved p then s else s.gateIfIdle p

/-- RETIRE written (R303). -/
def State.writeRetire (s : State) (p v : Nat) : Written :=
  let x := s.part p
  if v = 1 then
    if x.retired then .ok s
    else match s.revokeAll p with
      | .error st => refused st
      | .ok t => .ok ((t.updPart p (fun x => { x with retired := true })).gateRetired p)
  else if x.retired then
    .ok ((s.updPart p (fun x => { x with retired := false })).actSource 13 p)
  else .ok s

/-- RESET of a partition (R301, 17 R371). -/
def State.writePartReset (s : State) (p : Nat) : Written :=
  let x := s.part p
  if (x.state == .idle || x.state == .offline) && x.resume.isNone && !x.rstBusy then
    .ok (State.actSource (s.updPart p (fun x => { x with rstBusy := true })) 13 p)
  else refused St.busy

/-- A semaphore at or above a count is not 0 or has a waiter (11 R241). -/
def State.semsInUse (s : State) (n count : Nat) : Bool :=
  (s.inst n).sems.any (fun e => decide (count ≤ e.1) && e.2.value != 0)
    || (tabVals s.cmds).any (fun c => c.inst == n && c.stage == .waiting && (match c.waitSem with
      | some (i, _) => decide (count ≤ i)
      | none => false))

/-- A limit of an existing instance is lowered below what is in use (11 R241). -/
def State.limitInUse (s : State) (n sub v : Nat) : Bool :=
  (s.inst n).state != .absent && (match sub with
    | 1 => decide (v < (s.slotsOf n).length)
    | 2 => s.semsInUse n v
    | 3 => decide (v < ((tabVals (s.inst n).graphs).filter (·.current.isSome)).length)
    | 4 => decide (v * 4 < s.storeCharge n)
    | _ => false)

/-- An instance's limits taken from the dictionary while it exists (R304); the window that runs keeps the shares that it began with
(11 R241). -/
def State.syncLimits (s : State) (n : Nat) : State :=
  if (s.inst n).state == .absent then s
  else
    let s1 := { s with mem := { s.mem with oldShares := tabSet s.mem.oldShares n (s.sharesNow n) } }
    s1.updInst n (fun i => { i with limits := s.dictLimits n })

/-- An instance entry written (R304, R305); `sums` asks for the check of the shares. -/
def State.writeInstance (s : State) (n sub v : Nat) (sums : Bool) : Written :=
  let t := s.setSetting (0x4000 + n) sub v
  if s.freezes n then refused St.instanceState
  else if s.limitInUse n sub v then refused St.limitInUse
  else if sums && sub == 6 && !t.sharesFit then refused St.shareSum
  else .ok (t.syncLimits n).reassess

/-- The Trickle partition of a request (16 R346). -/
def State.trickleFor (s : State) : Nat :=
  if s.pwr.pstate = 1 ∧ s.pwr.target.isNone then s.pwr.tricklePart else s.trickleChoice

/-- A requested power state would gate a contracted member, or hold one below its floor (16 R347). -/
def State.powerContract (s : State) (v : Nat) : Bool :=
  let tp := s.trickleFor
  s.contracts.any (fun e => e.2.state != .released && (match s.loadOf e.2.inst e.1 e.2.req with
    | none => false
    | some l =>
      let ps := s.loadParts l
      if v = 2 then !ps.isEmpty else ps.any (· != tp) || (ps.contains tp && decide (300 < l.req.floor))))

/-- POWER_STATE_REQ written (16 R347, R348): Active, while PF0 is in D3cold with the link in L2 in mode P, asserts WAKE_N (20 R439). -/
def State.writePowerState (s : State) (v : Nat) : Written :=
  if v ≠ 0 && s.powerContract v then refused St.powerContract
  else
    let tp := s.trickleFor
    let s1 := s.setSetting 0x5000 1 v
    let wake := decide (v = 0) && s.pins.modeP && s.link.l2
    let s1 := if wake then { s1 with pins := { s1.pins with wakeN := false } } else s1
    if s.pwr.target.getD s.pwr.pstate = v then .ok s1
    else
      let s2 := { s1 with pwr := { s1.pwr with target := some v, tricklePart := if v = 1 then tp else s1.pwr.tricklePart } }
      .ok (s2.preemptParts s2.powerGates)

/-- RESET_REQ written (R298): the management-link reset source acts. -/
def State.writeResetReq (s : State) : Written :=
  .ok (State.actSource { s with dict := { s.dict with cmdResult := tabSet s.dict.cmdResult (dictKey 0x2002 1) 0 } } 7 0)

/-- The entry area of a STORE: INDEX, SUB, SIZE and value of every stored setting (19 R408). -/
def State.settingsArea (s : State) : List Byte :=
  storedKeys.flatMap (fun k => match entryAt k.1 k.2 with
    | .ok e => leBytes 2 k.1 ++ leBytes 1 k.2 ++ leBytes 1 e.size ++ leBytes e.size (s.liveValue k.1 k.2)
    | .error _ => [])

/-- STORE started (R293). -/
def State.writeStore (s : State) : Written :=
  if s.keepBusy [6] then refused St.busy
  else if !s.keep.fitted then refused St.keepStoreFail
  else .ok (s.startOp 6 (s.storeSteps s.settingsArea).2)

/-- The verify word of a bank (19 R411). -/
def verifyWord (bcrc : Nat) : List Byte :=
  let b := leBytes 4 0x56524659 ++ leBytes 4 bcrc ++ leBytes 4 0
  b ++ leBytes 4 (crc32 b).toNat

/-- VERIFY started (19 R417): the engine's part is the verify word of a bank in state 1 that passes. -/
def State.writeVerify (s : State) : Written :=
  let k := s.inactive
  let st := s.bankState k
  if !([1, 2, 4].contains st) then refused St.updateState
  else .ok (s.startOp 2 (match s.bankHeader k with
    | some (_, bcrc, _) => if st = 1 ∧ s.verifyBank k = St.ok then [.program (ksMeta k + 0x100) (verifyWord bcrc)] else []
    | none => []))

/-- ACTIVATE started (19 R418). -/
def State.writeActivate (s : State) : Written :=
  let k := s.inactive
  let seq := (s.selector.map (·.1)).getD 0 + 1
  if s.inTrial || !([2, 4].contains (s.bankState k)) then refused St.updateState
  else .ok (s.startOp 3 ([.erase (ksConfirm k), .erase ksTrial, .program ksTrial (trialRecord seq)]
    ++ s.selectorSteps k (s.selected.getD 0xFF)))

/-- CONFIRM started (19 R419). -/
def State.writeConfirm (s : State) : Written :=
  if s.inTrial && s.selected == some s.cal.activeBank then
    let k := s.cal.activeBank
    .ok (s.startOp 4 [.program (ksConfirm k) (leBytes 4 0x43464D31), .program (ksConfirm k + 4) (leBytes 4 0x43464D32)])
  else refused St.updateState

/-- A stage of an update (19 R415): BUSY, then the keep store, then its own conditions. -/
def State.writeStage (s : State) (sub : Nat) : Written :=
  if s.keepBusy [1, 2, 3, 4] then refused St.busy
  else if !s.keep.fitted then refused St.keepStoreFail
  else match sub with
    | 2 => s.writeVerify
    | 3 => s.writeActivate
    | _ => s.writeConfirm

/-- DOWNLOAD's programming (19 R416). -/
def State.downloadSteps (s : State) (b : List Byte) : List KStep :=
  let k := s.inactive
  let head := leBytes 4 0x4B4E4142 ++ leBytes 4 b.length ++ leBytes 4 (crc32 b).toNat ++ leBytes 1 (field b 6 1) ++ padTo 15 []
  [.erase (ksMeta k), .erase (ksConfirm k)]
    ++ (List.range (ceilDiv b.length 4096)).map (fun j => .erase (ksBundle k + 4096 * j))
    ++ [.program (ksBundle k) b, .program (ksMeta k) (head ++ leBytes 4 (crc32 head).toNat)]

/-- A whole DOMAIN value written at its arrival point: DOWNLOAD (19 R415, R416) or CAL_RECORD (19 R406). -/
def State.writeDomain (s : State) (index : Nat) (b : List Byte) : Written :=
  if index = 0x9001 then
    if b.length < 544 then .error abValueRange
    else if s.keepBusy [1, 2, 3, 4] then refused St.busy
    else if !s.keep.fitted then refused St.keepStoreFail
    else if s.inTrial then refused St.updateState
    else .ok (s.startOp 1 (s.downloadSteps b))
  else if b.length ≠ 4096 ∨ calReason b ≠ 0 then .error abValueRange
  else if s.keepBusy [5] then refused St.busy
  else .ok (s.startOp 5 (s.calSteps b))

/-- Check 9 and the effect of a write of value `v`; `sums` asks for the check of the shares at once. RESTORE_DEFAULT is
apart. -/
def State.writeEffect (s : State) (path : Path) (index sub v : Nat) (sums : Bool) : Written :=
  if index = 0x2000 then
    let t := s.setSetting index sub v
    if sums && t.stagedBandwidth != s.stagedBandwidth && decide (t.stagedBandwidth < t.shareSum) then refused St.shareSum
    else .ok t
  else if index = 0x2002 then s.writeResetReq
  else if index = 0x2003 then
    .ok { s with dict := { s.dict with alertLatched := s.dict.alertLatched &&& ~~~ (BitVec.ofNat 32 v) } }
  else if index = 0x2004 then s.writeStore
  else if index = 0x2010 then
    .ok { s with bus := { s.bus with claims := tabSet s.bus.claims (sub - 1) (if v = 0 then 0 else (pathValue path)) } }
  else if index = 0x2100 then
    let t := s.setSetting index sub v
    .ok (match sub with
      | 1 => if t.mgc.armed then { t with mgc := { t.mgc with beatBase := t.now } } else t
      | 3 => { t with bus := { t.bus with goodAt := t.now } }
      | _ => t)
  else if index / 16 = 0x300 then
    match sub with
    | 1 => s.writeEnable (index % 16) v
    | 6 => s.writePartReset (index % 16)
    | _ => s.writeRetire (index % 16) v
  else if 0x4000 ≤ index ∧ index ≤ 0x4020 then s.writeInstance (index - 0x4000) sub v sums
  else if index = 0x5000 then s.writePowerState v
  else if index = 0x5001 then .ok ((s.setSetting index sub v).reassess).riskScan
  else if index = 0x9001 then s.writeStage sub
  else .ok (s.setSetting index sub v)

-- RESTORE_DEFAULT (R293) ----------------------------------------------------------------------------------------------------------

/-- The writable entries of a claim group that hold a value: index, subindex. -/
def groupKeys (g : Nat) : List (Nat × Nat) :=
  match g with
  | 0 => [(0x5000, 1), (0x5001, 1), (0x5001, 2), (0x5001, 4), (0x5002, 1)]
  | 1 => (List.range 16).flatMap (fun p => [(0x3000 + p, 1), (0x3000 + p, 7)])
  | 2 => (List.range 33).flatMap (fun n => (List.range 8).map (fun k => (0x4000 + n, k + 1)))
  | 3 => (List.range 4).map (fun k => (0x2100, k + 1))
  | 6 => (List.range 6).map (fun k => (0x2000, k + 1))
  | _ => []

/-- The epoch of an index advanced, and the path of its last write kept (13 R285). -/
def State.bumpEpoch (s : State) (path : Path) (index : Nat) : State :=
  let e := tabGetD s.bus.epochs index 0
  { s with bus := { s.bus with epochs := tabSet s.bus.epochs index (if e = 0xFFFF then 1 else e + 1)
                               lastPath := tabSet s.bus.lastPath index ((pathValue path) - 1) } }

/-- RESTORE_DEFAULT of the groups of `mask`: all of it or none. -/
def State.restoreDefaults (s : State) (path : Path) (mask : Nat) : Written :=
  let gs := (List.range 7).filter (fun g => bit mask g)
  if gs.any (fun g => let h := tabGetD s.bus.claims g 0; h != 0 && h != (pathValue path)) then .error abClaimedByOther
  else if s.keepBusy [6] then refused St.busy
  else
    let keys := (gs.flatMap groupKeys).filter (fun k => s.liveValue k.1 k.2 != dictDefault k.1 k.2)
    let r : Written := keys.foldl (fun r k => match r with
      | .ok t => t.writeEffect path k.1 k.2 (dictDefault k.1 k.2) false
      | .error e => .error e) (.ok s)
    match r with
    | .error e => .error e
    | .ok t =>
      if keys.any (fun k => k.1 == 0x2000 || k.2 == 6) && !t.sharesFit then refused St.shareSum
      else
        let t1 := ((keys.map (·.1)).eraseDups).foldl (fun t i => t.bumpEpoch path i) t
        .ok { t1 with dict := { t1.dict with cmdResult := tabSet t1.dict.cmdResult (dictKey 0x2004 2) 0 } }

-- A whole write (13 R287) -------------------------------------------------------------------------------------------------------------

/-- A write of `data`, checks 2 to 9 in order and then its effect; `expect` is the epoch it asks for. -/
def State.dictWrite (s : State) (path : Path) (index sub : Nat) (data : List Byte) (expect : Option (BitVec 16))
    (seg : Bool) : State × Abort :=
  match s.writeFault path index sub data.length seg with
  | .error a => (s, a)
  | .ok e =>
    let v := leNat data
    let range := if e.size = 0 then 0 else s.rangeFault path index sub v e
    let epochBad := match expect with | some x => tabGetD s.bus.epochs index 0 != x | none => false
    if range ≠ 0 then (s, range)
    else if epochBad then (s, abEpochMismatch)
    else
      let r := if e.size = 0 then s.writeDomain index data
        else if index = 0x2004 ∧ sub = 2 then s.restoreDefaults path v
        else s.writeEffect path index sub v true
      match r with
      | .error a => (s, a)
      | .ok t => (alerted s (t.bumpEpoch path index), 0)

/-- A read of an entry (13 R279, R280): the value, or the abort code. -/
def State.dictRead (s : State) (index sub : Nat) (seg : Bool) : Except Abort (List Byte × State) :=
  match entryAt index sub with
  | .error a => .error a
  | .ok e =>
    if e.acc = .wo then .error abWriteOnly
    else if (e.size = 0) ≠ seg then .error abSegmentRequired
    else .ok (if e.size = 0 then s.readDomain else s.readValue index sub e.size)

end Sys2Proof.Machine
end

