-- ==== Sys2Proof/Machine/Umner.lean ====
section
/-! DEFINITION. The Umner management link (13): frames, the serialiser and its two paths, segmented transfers, the CCCs and
addressing of the bus, silence on the link; the end of a keep-store operation (19 R402). -/

namespace Sys2Proof.Machine
open Sys2Proof

-- Who answers (R270, R289, R290) ------------------------------------------------------------------------------------------

/-- What stands behind the dictionary: nothing (no address is acknowledged), a core that restarts (responses wait), Primer,
or Topcoat. -/
inductive Server where
  | off | waiting | primer | topcoat
  deriving DecidableEq, Repr

/-- The server now: none from the start of an L0 reset until Primer starts; none ready while an L1 reset holds the core or
the core restarts. -/
def State.server (s : State) : Server :=
  if !s.clk.alive then .off
  else match s.rst.phase with
    | .l0Exiting => .off
    | .hold => if s.rst.level = 0 then .off else .waiting
    | _ => match s.mgc.fw with
      | .running => .topcoat
      | .restarting => .waiting
      | _ => .primer

/-- The target answers the bus: it is on and outside an HDR period (R268). -/
def State.busOn (s : State) : Bool := s.server != .off && !s.bus.hdr

-- Opcodes and frames (R273 to R276) --------------------------------------------------------------------------------------------

def ocRead : Nat := 0x01
def ocWrite : Nat := 0x02
def ocWriteCond : Nat := 0x03
def ocSegReadStart : Nat := 0x10
def ocSegRead : Nat := 0x11
def ocSegWriteStart : Nat := 0x12
def ocSegWrite : Nat := 0x13
def ocSegAbort : Nat := 0x14

/-- The opcodes that the device executes. -/
def ocDefined (o : Nat) : Bool := [0x01, 0x02, 0x03, 0x10, 0x11, 0x12, 0x13, 0x14].contains o

/-- The length of a request's DATA suits its opcode (R276; log entry 41). -/
def dataLenOk (o n : Nat) : Bool :=
  if o = ocWrite then decide (n ≤ 96)
  else if o = ocWriteCond then decide (2 ≤ n) && decide (n ≤ 96)
  else if o = ocSegRead then n == 5
  else if o = ocSegWriteStart then n == 10
  else if o = ocSegWrite then decide (4 ≤ n) && decide (n ≤ 96)
  else n == 0

/-- A response frame (R274), with the epoch and LAST_PATH as they stand. -/
def State.responseFrame (s : State) (opc tid index sub : Nat) (ab : Abort) (data : List Byte) : List Byte :=
  let b := leBytes 1 (opc % 64 + tabGetD s.bus.lastPath index 0 * 64 + 128) ++ leBytes 1 tid ++ leBytes 2 index ++ leBytes 1 sub
    ++ leBytes 1 data.length ++ leBytes 2 (tabGetD s.bus.epochs index 0).toNat ++ leBytes 4 ab.toNat ++ data
  b ++ leBytes 2 (crc16 b).toNat

-- Sessions (R277) ------------------------------------------------------------------------------------------------------------

/-- The open session of a path. -/
def State.session (s : State) (p : Path) : Option Session :=
  match p with | .link => s.bus.linkSession | .host => s.bus.hostSession

/-- A path's session set. -/
def State.setSession (s : State) (p : Path) (x : Option Session) : State :=
  match p with
  | .link => { s with bus := { s.bus with linkSession := x } }
  | .host => { s with bus := { s.bus with hostSession := x } }

/-- The abort code that a path's next segmented request receives because its session was ended. -/
def State.sessionEnded (s : State) (p : Path) : Abort := match p with | .link => s.bus.linkEnded | .host => s.bus.hostEnded

/-- That code set. -/
def State.setEnded (s : State) (p : Path) (a : Abort) : State :=
  match p with
  | .link => { s with bus := { s.bus with linkEnded := a } }
  | .host => { s with bus := { s.bus with hostEnded := a } }

/-- A session ended with a code for the next segmented request. -/
def State.endSession (s : State) (p : Path) (a : Abort) : State :=
  match s.session p with
  | some _ => (s.setSession p none).setEnded p a
  | none => s

/-- A session has had no segment for 1 s. -/
def State.sessionStale (s : State) (p : Path) : Bool :=
  match s.session p with | some x => decide (x.lastAt + 1000000000 ≤ s.now) | none => false

/-- SEG_READ_START (R277). -/
def State.segReadStart (s : State) (p : Path) (f : UFrame) : State × Abort × List Byte :=
  match s.dictRead f.index f.sub true with
  | .error a => (s, a, [])
  | .ok (v, t) =>
    let x : Session := { write := false, index := f.index, sub := f.sub, total := v.length, crc := crc32 v, expect := 0,
                         data := v, lastAt := s.now }
    (t.setSession p (some x), 0, leBytes 4 v.length ++ leBytes 4 (crc32 v).toNat)

/-- SEG_WRITE_START (R277): only the entry, its type and TOTAL are checked here. -/
def State.segWriteStart (s : State) (p : Path) (f : UFrame) : State × Abort × List Byte :=
  match entryAt f.index f.sub with
  | .error a => (s, a, [])
  | .ok e =>
    let total := field f.data 0 4
    if e.size ≠ 0 then (s, abSegmentRequired, [])
    else if total = 0 ∨ 65536 < total then (s, abValueRange, [])
    else
      let x : Session := { write := true, index := f.index, sub := f.sub, total := total,
                           crc := BitVec.ofNat 32 (field f.data 4 4), expect := BitVec.ofNat 16 (field f.data 8 2),
                           data := [], lastAt := s.now }
      (s.setSession p (some x), 0, [])

/-- SEG_READ of an open read session (R277). -/
def State.segRead (s : State) (p : Path) (x : Session) (f : UFrame) : State × Abort × List Byte :=
  let count := field f.data 4 1
  let t := s.setSession p (some { x with lastAt := s.now })
  if count = 0 ∨ 96 < count then (t, abValueRange, [])
  else (t, 0, (x.data.drop (field f.data 0 4)).take count)

/-- SEG_WRITE of an open write session (R277): contiguous bytes; at TOTAL the CRC-32, EXPECT and the write itself. -/
def State.segWrite (s : State) (p : Path) (x : Session) (f : UFrame) : State × Abort × List Byte :=
  let d := x.data ++ f.data.drop 4
  if field f.data 0 4 ≠ x.data.length ∨ x.total < d.length then (s.setSession p none, abSegOffset, [])
  else if d.length < x.total then (s.setSession p (some { x with data := d, lastAt := s.now }), 0, [])
  else
    let t := s.setSession p none
    if crc32 d ≠ x.crc then (t, abSegCrc, [])
    else
      let r := t.dictWrite p x.index x.sub d (if x.expect = 0 then none else some x.expect) true
      (r.1, r.2, [])

/-- A segmented request of a path (R277, R281). -/
def State.segmented (s : State) (p : Path) (opc : Nat) (f : UFrame) : State × Abort × List Byte :=
  let s0 := if s.sessionStale p then s.endSession p abSegTimeout else s
  let ended := s0.sessionEnded p
  let start := opc == ocSegReadStart || opc == ocSegWriteStart
  let s1 := s0.setEnded p 0
  if ended = abSegTimeout ∨ (ended ≠ 0 ∧ start = false) then (s1, ended, [])
  else if opc = ocSegReadStart then (s1.setSession p none).segReadStart p f
  else if opc = ocSegWriteStart then (s1.setSession p none).segWriteStart p f
  else match s1.session p with
    | none => (s1, abSegNoSession, [])
    | some x =>
      if opc = ocSegAbort then (s1.setSession p none, 0, [])
      else if x.index ≠ f.index ∨ x.sub ≠ f.sub ∨ x.write ≠ (opc == ocSegWrite) then (s1, abSegNoSession, [])
      else if x.write then s1.segWrite p x f
      else s1.segRead p x f

-- The serialiser (R284, R287, R289) -------------------------------------------------------------------------------------------

/-- Primer serves the request (R289). -/
def primerServes (opc index sub : Nat) : Bool :=
  if opc = ocRead ∨ opc = ocSegReadStart ∨ opc = ocSegRead ∨ opc = ocSegAbort then
    index / 256 == 0x10 || index / 256 == 0x70 || index == 0x9000 || index == 0x8000 || index == 0x8001
  else opc == ocWrite && index == 0x2002 && sub == 1

/-- A request whose CRC and length are good, executed: the state, the abort code and the response's DATA. -/
def State.serve (s : State) (p : Path) (opc : Nat) (f : UFrame) : State × Abort × List Byte :=
  if f.reservedSet then (s, abReservedField, [])
  else if !ocDefined opc then (s, abBadOpcode, [])
  else if !dataLenOk opc f.data.length then (s, abFrameLength, [])
  else if s.server ≠ .topcoat ∧ primerServes opc f.index f.sub = false then (s, abNotAvailable, [])
  else if opc = ocRead then
    match s.dictRead f.index f.sub false with
    | .error a => (s, a, [])
    | .ok (v, t) => (t, 0, v)
  else if opc = ocWrite then
    let r := s.dictWrite p f.index f.sub f.data none false
    (r.1, r.2, [])
  else if opc = ocWriteCond then
    let r := s.dictWrite p f.index f.sub (f.data.drop 2) (some (BitVec.ofNat 16 (field f.data 0 2))) false
    (r.1, r.2, [])
  else s.segmented p opc f

/-- A request executed, with its response frame. -/
def State.answerFrame (s : State) (p : Path) (opc : Nat) (f : UFrame) : State × List Byte :=
  let r := s.serve p opc f
  (r.1, r.1.responseFrame opc f.tid.toNat f.index f.sub r.2.1 r.2.2)

/-- A frame with a good CRC has arrived on the link (R288): the timer restarts, and the loss of the link ends. -/
def State.goodFrame (s : State) : State :=
  let s1 := { s with bus := { s.bus with goodAt := s.now, lost := false } }
  if s.bus.lost then s1.event Ev.mgmtLinkRestored 0 false true [] else s1

/-- A request on a path. On the link it is a private write: it discards the earlier response (R272), and while no server
is ready it waits (R290). The tunnel exists only while Topcoat serves (R283). -/
def State.umner (s : State) (p : Path) (opc : Nat) (f : UFrame) : State :=
  match p with
  | .link =>
    if !s.busOn then s
    else
      let s1 := s.goodFrame
      if s.server = .waiting then
        { s1 with bus := { s1.bus with response := [], held := s1.bus.held ++ [(opc, f)] } }
      else
        let r := s1.answerFrame .link opc f
        { r.1 with bus := { r.1.bus with response := r.2 } }
  | .host =>
    if !s.serving then s
    else
      let r := s.answerFrame .host opc f
      { r.1 with bus := { r.1.bus with hostResponse := r.2 } }

/-- Requests that waited for a server, taken up in arrival order; the last one's response stays readable (R272, R290,
R329). -/
def State.serveHeld (s : State) : State :=
  let q := s.bus.held
  q.foldl (fun t e =>
    let r := t.answerFrame .link e.1 e.2
    { r.1 with bus := { r.1.bus with response := r.2 } }) { s with bus := { s.bus with held := [] } }

/-- READ (R276). -/
def execRead (path : Path) (f : UFrame) (s : State) : Result := .next (s.umner path ocRead f)

/-- WRITE (R287). -/
def execWrite (path : Path) (f : UFrame) (s : State) : Result := .next (s.umner path ocWrite f)

/-- WRITE_COND (R276). -/
def execWriteCond (path : Path) (f : UFrame) (s : State) : Result := .next (s.umner path ocWriteCond f)

/-- SEG_READ_START (R277). -/
def execSegReadStart (path : Path) (f : UFrame) (s : State) : Result := .next (s.umner path ocSegReadStart f)

/-- SEG_READ (R277). -/
def execSegRead (path : Path) (f : UFrame) (s : State) : Result := .next (s.umner path ocSegRead f)

/-- SEG_WRITE_START (R277). -/
def execSegWriteStart (path : Path) (f : UFrame) (s : State) : Result := .next (s.umner path ocSegWriteStart f)

/-- SEG_WRITE (R277). -/
def execSegWrite (path : Path) (f : UFrame) (s : State) : Result := .next (s.umner path ocSegWrite f)

/-- SEG_ABORT (R277). -/
def execSegAbort (path : Path) (f : UFrame) (s : State) : Result := .next (s.umner path ocSegAbort f)

/-- SEG_SESSION_TIMEOUT (R277, R290): a session with no segment for 1 s ends; its timer stands while the core restarts. -/
def execSegSessionTimeout (path : Path) (s : State) : Result :=
  .next (if s.sessionStale path && s.server != .waiting then s.endSession path abSegTimeout else s)

-- Entries with rows of their own ---------------------------------------------------------------------------------------------------

/-- A WRITE that a row of its own stands for: the frame names that entry. -/
def State.entryWrite (s : State) (path : Path) (f : UFrame) (ok : Bool) : State := if ok then s.umner path ocWrite f else s

/-- RESET_REQ (R298). -/
def execResetReq (path : Path) (f : UFrame) (s : State) : Result :=
  .next (s.entryWrite path f (f.index == 0x2002 && f.sub == 1))

/-- ALERT_ACK (R298, R299). -/
def execAlertAck (path : Path) (f : UFrame) (s : State) : Result :=
  .next (s.entryWrite path f (f.index == 0x2003 && f.sub == 2))

/-- CLAIM_g (R286). -/
def execClaim (path : Path) (f : UFrame) (s : State) : Result := .next (s.entryWrite path f (f.index == 0x2010))

/-- STORE (R293). -/
def execStore (path : Path) (f : UFrame) (s : State) : Result :=
  .next (s.entryWrite path f (f.index == 0x2004 && f.sub == 1))

/-- RESTORE_DEFAULT (R293). -/
def execRestoreDefault (path : Path) (f : UFrame) (s : State) : Result :=
  .next (s.entryWrite path f (f.index == 0x2004 && f.sub == 2))

/-- HOST_LOSS_MS (R300, R333). -/
def execHostLossMs (path : Path) (f : UFrame) (s : State) : Result :=
  .next (s.entryWrite path f (f.index == 0x2100 && f.sub == 1))

/-- LINK_LOSS_MS (R288, R300). -/
def execLinkLossMs (path : Path) (f : UFrame) (s : State) : Result :=
  .next (s.entryWrite path f (f.index == 0x2100 && f.sub == 3))

/-- ENABLE (R302). -/
def execEnable (path : Path) (f : UFrame) (s : State) : Result :=
  .next (s.entryWrite path f (f.index / 16 == 0x300 && f.sub == 1))

/-- RETIRE (R303). -/
def execRetire (path : Path) (f : UFrame) (s : State) : Result :=
  .next (s.entryWrite path f (f.index / 16 == 0x300 && f.sub == 7))

/-- RESET of a partition (R301, R371). -/
def execPartitionReset (path : Path) (f : UFrame) (s : State) : Result :=
  .next (s.entryWrite path f (f.index / 16 == 0x300 && f.sub == 6))

/-- PRIV_SHARE_MBPS (R305). -/
def execPrivShareMbps (path : Path) (f : UFrame) (s : State) : Result :=
  .next (s.entryWrite path f (decide (0x4000 ≤ f.index ∧ f.index ≤ 0x4020) && f.sub == 6))

/-- POWER_STATE_REQ (16 R347). -/
def execPowerStateReq (path : Path) (f : UFrame) (s : State) : Result :=
  .next (s.entryWrite path f (f.index == 0x5000 && f.sub == 1))

/-- BUDGET_MW (R306, 16 R361). -/
def execBudgetMw (path : Path) (f : UFrame) (s : State) : Result :=
  .next (s.entryWrite path f (f.index == 0x5001 && f.sub == 1))

/-- VERIFY (19 R417). -/
def execVerify (path : Path) (f : UFrame) (s : State) : Result :=
  .next (s.entryWrite path f (f.index == 0x9001 && f.sub == 2))

/-- ACTIVATE (19 R418). -/
def execActivate (path : Path) (f : UFrame) (s : State) : Result :=
  .next (s.entryWrite path f (f.index == 0x9001 && f.sub == 3))

/-- CONFIRM (19 R419). -/
def execConfirm (path : Path) (f : UFrame) (s : State) : Result :=
  .next (s.entryWrite path f (f.index == 0x9001 && f.sub == 4))

/-- A whole segmented write of a DOMAIN entry: the last SEG_WRITE of its session, with TID 0 (R277; log entry 42). Only
Topcoat serves it. -/
def State.domainWrite (s : State) (path : Path) (index : Nat) (value : List Byte) : State :=
  if !s.serving || (path == .link && !s.busOn) then s
  else
    let s1 := match path with | .link => s.goodFrame | .host => s
    let r := ((s1.setSession path none).setEnded path 0).dictWrite path index 1 value none true
    let out := r.1.responseFrame ocSegWrite 0 index 1 r.2 []
    match path with
    | .link => { r.1 with bus := { r.1.bus with response := out } }
    | .host => { r.1 with bus := { r.1.bus with hostResponse := out } }

/-- CAL_RECORD (R307, 19 R406). -/
def execCalRecord (path : Path) (value : List Byte) (s : State) : Result := .next (s.domainWrite path 0x6000 value)

/-- DOWNLOAD (R311, 19 R416). -/
def execDownload (path : Path) (value : List Byte) (s : State) : Result := .next (s.domainWrite path 0x9001 value)

-- Raw frames (R272, R275, R283) -------------------------------------------------------------------------------------------------------

/-- The bytes of a frame before its CRC match the CRC. -/
def frameCrcOk (b : List Byte) : Bool :=
  let n := b.length - 2
  decide (2 ≤ b.length) && crc16 (b.take n) == BitVec.ofNat 16 (field b n 2)

/-- A frame's opcode and fields. -/
def parseFrame (b : List Byte) : Nat × UFrame :=
  (field b 0 1 % 64,
    { reservedSet := decide (64 ≤ field b 0 1) || field b 6 2 != 0, tid := BitVec.ofNat 8 (field b 1 1), index := field b 2 2,
      sub := field b 4 1, data := (b.drop 8).take (field b 5 1) })

/-- What the frame checks of R275 and R281 find in a frame of 10 to 106 bytes: FRAME_CRC, then FRAME_LENGTH. -/
def frameFault (b : List Byte) : Abort :=
  if !frameCrcOk b then abFrameCrc
  else if b.length ≠ 10 + field b 5 1 ∨ 96 < field b 5 1 then abFrameLength
  else 0

/-- REQUEST_FRAME_ERROR (R272, R275, R276): a private write that the frame checks refuse; one that they pass is a request. -/
def execRequestFrameError (frame : List Byte) (s : State) : Result :=
  .next (if !s.busOn then s
    else if frame.length < 10 ∨ 106 < frame.length then
      { s with bus := { s.bus with response := s.responseFrame 0 0 0 0 abFrameLength [] } }
    else
      let (opc, f) := parseFrame frame
      match frameFault frame with
      | 0 => s.umner .link opc f
      | a =>
        let t := if a = abFrameCrc then s else s.goodFrame
        { t with bus := { t.bus with response := t.responseFrame opc f.tid.toNat f.index f.sub a [] } })

/-- DICT_TUNNEL (R283). -/
def execDictTunnel (mb : Fin 33) (h : MsgHdr) (payload : List Byte) (s : State) : Result :=
  .next (s.message mb.val h payload kDictTunnel (fun t b =>
    if b.length ≠ 10 + field b 5 1 then refuseWith t St.badField
    else
      let (opc, f) := parseFrame b
      let r := match frameFault b with
        | 0 => t.answerFrame .host opc f
        | a => (t, t.responseFrame opc f.tid.toNat f.index f.sub a [])
      okWith { r.1 with bus := { r.1.bus with hostResponse := r.2 } } r.2))

/-- RESPONSE_READ (R272): RSP_LEN and the frame, or RSP_LEN 0 while none is ready. -/
def execResponseRead (s : State) : Result :=
  .next (if !s.busOn then s
    else { s with bus := { s.bus with busOut := leBytes 1 s.bus.response.length ++ s.bus.response } })

-- The bus (R268 to R271) -----------------------------------------------------------------------------------------------------------------

/-- A CCC that the target answers, with the bytes it returns. -/
def State.ccc (s : State) (out : List Byte) (f : Link → Link) : State :=
  if s.busOn then { s with bus := { f s.bus with busOut := out } } else s

/-- The provisional ID, most significant byte first, as I3C sends it. -/
def pidBytes : List Byte := (leBytes 6 Config.provisionalId.toNat).reverse

/-- ENEC (R271). -/
def execEnec (s : State) : Result := .next (s.ccc [] (fun b => { b with ibiEnabled := true }))

/-- DISEC (R271). -/
def execDisec (s : State) : Result := .next (s.ccc [] (fun b => { b with ibiEnabled := false }))

/-- RSTDAA (R270). -/
def execRstdaa (s : State) : Result := .next (s.ccc [] (fun b => { b with dynAddr := none }))

/-- ENTDAA (R268): a target without a dynamic address answers with its provisional ID, BCR and DCR and takes one. -/
def execEntdaa (addr : BitVec 7) (s : State) : Result :=
  .next (if s.bus.dynAddr.isSome then s else s.ccc (pidBytes ++ [0x06, 0x00]) (fun b => { b with dynAddr := some addr }))

/-- SETDASA (R268, R270): sent to the static address, which answers until a dynamic address is assigned. -/
def execSetdasa (addr : BitVec 7) (s : State) : Result :=
  .next (if s.bus.dynAddr.isSome then s else s.ccc [] (fun b => { b with dynAddr := some addr }))

/-- SETNEWDA (R268): a new dynamic address in place of the one held. -/
def execSetnewda (addr : BitVec 7) (s : State) : Result :=
  .next (if s.bus.dynAddr.isNone then s else s.ccc [] (fun b => { b with dynAddr := some addr }))

/-- GETPID (R268). -/
def execGetPid (s : State) : Result := .next (s.ccc pidBytes id)

/-- GETBCR (R268). -/
def execGetBcr (s : State) : Result := .next (s.ccc [0x06] id)

/-- GETDCR (R268). -/
def execGetDcr (s : State) : Result := .next (s.ccc [0x00] id)

/-- GETSTATUS (R268): two bytes whose values the manual does not give (log entry 2). -/
def execGetStatus (s : State) : Result :=
  let r := freeBytes 2 s
  .next (if s.busOn then r.2.ccc r.1 id else s)

/-- GETMWL (R268): 106, most significant byte first. -/
def execGetMwl (s : State) : Result := .next (s.ccc [0x00, 0x6A] id)

/-- GETMRL (R268): 111, most significant byte first, and the length of an in-band interrupt's payload. -/
def execGetMrl (s : State) : Result := .next (s.ccc [0x00, 0x6F, 0x01] id)

/-- I3C_BROADCAST_ADDRESS (R269). -/
def execI3cBroadcastAddress (s : State) : Result :=
  .next (if s.busOn then { s with bus := { s.bus with spikeFilter := false } } else s)

/-- HDR_ENTRY (R268). -/
def execHdrEntry (s : State) : Result :=
  .next (if s.server = .off then s else { s with bus := { s.bus with hdr := true } })

/-- HDR_EXIT_PATTERN (R268). -/
def execHdrExitPattern (s : State) : Result := .next { s with bus := { s.bus with hdr := false } }

-- Silence (R288) --------------------------------------------------------------------------------------------------------------------------

/-- MGMT_LINK_LOST (R288). -/
def execMgmtLinkLost (s : State) : Result :=
  let ms := s.setting 0x2100 3
  .next (if ms ≠ 0 && !s.bus.lost && s.server != .off && decide (s.bus.goodAt + ms * 1000000 ≤ s.now) then
    let free := s.setting 0x2100 4 == 1
    let s1 := { s with bus := { s.bus with
      lost := true, claims := if free then tabMap s.bus.claims (fun _ c => if c = 1 then 0 else c) else s.bus.claims } }
    alerted s (s1.event Ev.mgmtLinkLost 0 false true [])
  else s)

-- The keep store's engine (19 R401, R402, R424) ----------------------------------------------------------------------------------------------

/-- What follows the end of an operation list: its result in its COMMAND entry, and its event (19 R406, R415, R424). -/
def State.opEnded (s : State) (op : KOp) (st : Status) : State :=
  match op.code with
  | 2 => s.stageDone 2 (abStatus (if s.verifyBank s.inactive = St.ok then st else s.verifyBank s.inactive))
  | 5 =>
    let s1 := { s with cal := { s.cal with written := true } }
    s1.event Ev.calProgrammed 0 false true (leBytes 4 (abStatus st).toNat ++ leBytes 4 s1.calCrc)
  | 6 =>
    { s with dict := { s.dict with cmdResult := tabSet s.dict.cmdResult (dictKey 0x2004 1) (abStatus st)
                                   settingsSeq := if st = St.ok then BitVec.ofNat 32 ((s.settingsInUse.map (·.1)).getD 0)
                                     else s.dict.settingsSeq } }
  | k => s.stageDone k (abStatus st)

/-- KEEP_STORE_OP_DONE (19 R402): the list under way ends, with success, or with KEEP_STORE_FAIL at an address of the
store; a list without steps cannot fail. -/
def execKeepStoreOpDone (ok : Bool) (failAddr : Nat) (s : State) : Result :=
  .next (match s.keep.ops with
    | [] => s
    | op :: rest =>
      let k := { s.keep with ops := rest }
      if ok || op.steps.isEmpty then
        alerted s (State.opEnded { s with keep := k.doSteps op.steps } op St.ok)
      else
        let s1 := { s with keep := k.failAt op.steps failAddr }
        let s2 := s1.event Ev.keepStoreError 0 false true (leBytes 1 op.code ++ leBytes 3 (sectorOf failAddr * 4096))
        alerted s (s2.opEnded op St.keepStoreFail))

end Sys2Proof.Machine
end

