-- ==== Sys2Proof/Machine/Regs.lean ====
section
/-! DEFINITION. The register map of the host (05 R97 to R105, 22): regions of the BARs, what each register reads as, what a
write does by its access code, Glove check point 1, and the rows that write or read registers. -/

namespace Sys2Proof.Machine
open Sys2Proof

-- Regions (R100, R101) ---------------------------------------------------------------------------------------------------

/-- A region of a BAR (R101). -/
inductive Region where
  | ident | doorbell | inbound | outbound | emu | abort | msix | pba | window | recovery | network | telemetry
  /-- the manager view of an instance -/
  | view (n : Nat)
  deriving DecidableEq, Repr

/-- The page layout that PF0 and the VFs share, by page number of the VF BAR (R101). -/
def pageRegion (page : Nat) : Option Region :=
  match page with
  | 0 => some .doorbell | 1 => some .inbound | 2 => some .outbound | 3 => some .emu | 4 => some .abort
  | 8 => some .msix | 9 => some .pba | _ => none

/-- The region of an offset of a function's BAR0, and the offset within it; none where it is unassigned (R101). -/
def regionOf (fn off : Nat) : Option (Region × Nat) :=
  let page := off / 4096
  if fn ≠ 0 then (if page < 16 then (pageRegion page).map (fun r => (r, off % 4096)) else none)
  else if off < 0x2000 then some (.ident, off)
  else if off < 0x7000 then (pageRegion (page - 2)).map (fun r => (r, off % 4096))
  else if off / 65536 = 1 then some (.window, off % 65536)
  else if off / 65536 = 2 then some (.recovery, off % 65536)
  else if off / 65536 = 3 then some (.network, off % 65536)
  else if off / 65536 = 4 then some (.telemetry, off % 65536)
  else if page = 0x60 then some (.msix, off % 4096)
  else if page = 0x61 then some (.pba, off % 4096)
  else if 0x80000 ≤ off ∧ off < 0xA1000 then some (.view ((off - 0x80000) / 4096), off % 4096)
  else none

/-- Sizes that a region accepts in a write: 4 and 8 bytes, the mailbox pages also 16, 32 and 64, naturally aligned (R102). -/
def sizeOk (r : Region) (off len : Nat) : Bool :=
  ([4, 8].contains len || ((r == .inbound || r == .outbound) && [16, 32, 64].contains len)) && off % len == 0

/-- MSI-X vectors of a function (R104). -/
def vectorsOf (fn : Nat) : Nat := if fn = 0 then 64 else 8

-- Counters of HOST_ERR (R102) ----------------------------------------------------------------------------------------------

/-- An access counted in HOST_ERR.BAD_ACCESS (R102). -/
def State.badAccess (s : State) : State := { s with link := { s.link with badAccess := satInc s.link.badAccess } }

/-- A write dropped at Glove check point 1: both counters count it, and the manager receives SPOOF (R103, R249). -/
def State.glove1 (s : State) (fn : Nat) : State :=
  (State.badAccess { s with link := { s.link with gloveDrop := satInc s.link.gloveDrop } }).spoof 1 0xFF none 0xFF 0xFF 0x3FF fn 0 0

/-- Glove check point 1 stops a write to a region of this function: its instance does not exist, or has been removed
(R103). Instance 0 always exists to the manager's own pages (R235). -/
def State.glove1Stops (s : State) (fn : Nat) (r : Region) : Bool :=
  decide (fn ≠ 0) && (s.inst fn).state == .absent && (r == .doorbell || r == .inbound || r == .outbound || r == .abort)

-- What registers read as ----------------------------------------------------------------------------------------------------

/-- A 32-bit word of a value. -/
def word (v : Nat) : BitVec 32 := BitVec.ofNat 32 v

/-- The low or high word of a 64-bit value. -/
def half (v : Nat) (high : Bool) : BitVec 32 := if high then word (v / 4294967296) else word v

/-- PART_STATE.GROUP (R48). -/
def State.groupCode (s : State) (p : Nat) : Nat :=
  let g := quadrantsWith (s.cluster (p / 4)).shape (p % 4)
  let lead := decide (g.headD 0 = p % 4)
  if g.length = 4 then (if lead then 3 else 4) else if g.length = 2 then (if lead then 1 else 2) else 0

/-- A partition's status block (R48). -/
def State.partWord (s : State) (p off : Nat) : BitVec 32 :=
  let x := s.part p
  match off with
  | 0x00 =>
    let owner := (s.runOf p).map (fun h => h.1.inst)
    word (x.state.code + s.groupCode p * 8 + owner.getD 0 * 64 + x.clkMhz * 65536)
  | 0x04 => word (s.version Config.seqBase)
  | 0x08 => word (x.mcCause.toNat + x.mcCount.toNat * 65536)
  | 0x0C => word x.mcAddr.toNat
  | 0x10 => x.ceCount
  | _ => 0

/-- A Skim slot's status block (03 R67). -/
def State.skimWord (s : State) (g off : Nat) : BitVec 32 :=
  let x := s.skim g
  match off with
  | 0x0 => word (b2n x.active + x.engine * 2 + x.inst * 4 + x.pass % 256 * 256 + x.graph * 65536)
  | 0x4 => word (x.attached.toNat + x.detached.toNat * 65536)
  | 0x8 => word (x.head % 2 ^ 23 + b2n x.holding.isSome * 2 ^ 23)
  | _ => x.detCount

/-- FEP registers (08 R178). -/
def State.fepWord (s : State) (off : Nat) : BitVec 32 :=
  let f := s.fep
  match off with
  | 0x0 => word (s.version Config.fepBase)
  | 0x4 => word (f.ceCount.toNat + f.repaired.toNat * 65536)
  | 0x8 => word (f.mcCause.toNat + f.mcAddr.toNat * 16 + f.mcThread.toNat * 65536 + f.mcCount.toNat * 16777216)
  | _ => word (s.pqUsed + s.heldContracts * 65536)

/-- FW_STATE codes (15 R316). -/
def FwState.code : FwState → Nat
  | .reset => 0 | .loading => 1 | .verify => 2 | .running => 3 | .restarting => 4 | .loadWait => 5 | .loadFailed => 6

/-- The identity, status and device control region of PF0 (R48, R67, R97, R102, 08 R178, 15 R316, 17 R369). -/
def State.identWord (s : State) (off : Nat) : BitVec 32 :=
  if 0x400 ≤ off ∧ off < 0x600 then s.partWord ((off - 0x400) / 32) (off % 32)
  else if 0x600 ≤ off ∧ off < 0x610 then
    let c := s.cluster ((off - 0x600) / 4)
    word (c.shape + b2n c.changing.isSome * 8)
  else if 0x700 ≤ off ∧ off < 0x780 then s.skimWord ((off - 0x700) / 16) (off % 16)
  else if 0x800 ≤ off ∧ off < 0x810 then s.fepWord (off - 0x800)
  else match off with
    | 0x0000 => word (0x1632 + Config.stepping.toNat * 65536)
    | 0x0008 => word (b2n s.pins.modeP + s.link.speed.toNat * 2 + s.link.width.toNat % 32 * 32 + s.link.ucieVer.toNat % 4 * 1024
        + s.link.downCount.toNat * 65536)
    | 0x000C => word (s.link.badAccess.toNat + s.link.gloveDrop.toNat * 65536)
    | 0x0010 => word (s.rst.lastSource.toNat % 16 + s.rst.lastLevel.toNat % 8 * 16 + s.rst.absorbed.toNat * 65536)
    | 0x0018 => half s.rst.rstTime.toNat false
    | 0x001C => half s.rst.rstTime.toNat true
    | 0x1000 => s.mgc.heartbeat
    | 0x1004 => word (s.mgc.fw.code + b2n s.mgc.attached * 8 + b2n s.mgc.orphan * 16 + s.mgc.lastCause.toNat * 256
        + s.mgc.restarts.toNat * 65536)
    | 0x1008 => word (s.mgc.loadPage.toNat % 8 * 4)
    | 0x100C => s.mgc.loadLen
    | 0x1010 => word s.mgc.loadResult.toNat
    | 0x1018 => s.mgc.mgrGen
    | _ => 0

/-- Bytes of a page as a word. -/
def pageWord (pg : Tab Byte) (off : Nat) : BitVec 32 :=
  word (leNat ((List.range 4).map (fun k => tabGetD pg (off + k) 0)))

/-- The mailbox pages (11 R243). -/
def State.mailboxWord (s : State) (n : Nat) (inbound : Bool) (off : Nat) : BitVec 32 :=
  let b := (s.inst n).box
  if 0x40 ≤ off then pageWord (if inbound then b.inPage else b.outPage) off
  else if inbound then
    match off with
    | 0x00 => word b.inProd | 0x04 => word b.outCons | 0x08 => word b.evCons | 0x0C => word (b.formats.toNat * 2) | _ => 0
  else
    match off with
    | 0x00 => word b.inCons | 0x04 => word b.outProd | 0x08 => word b.evProd
    | 0x0C => word (b.state + b.format * 4 + b.openResult * 16 + b.evLost * 65536)
    | 0x10 => word b.helloIfRev.toNat
    | 0x14 => b.helloMgrGen
    | 0x18 => word (n + b.helloGen.toNat * 65536)
    | _ => 0

/-- The abort page of an instance (18 R381). -/
def State.abortWord (s : State) (n off : Nat) : BitVec 32 :=
  let i := s.inst n
  match off with
  | 0x004 => word (i.qBusy.toNat + b2n i.iBusy * 65536)
  | 0x008 => word (i.lastQid.toNat + b2n i.lastAll * 16 + i.lastResult.toNat * 32 + i.doneCount.toNat * 65536)
  | 0x010 => half i.abortReqTime.toNat false
  | 0x014 => half i.abortReqTime.toNat true
  | 0x018 => half i.abortDoneTime.toNat false
  | 0x01C => half i.abortDoneTime.toNat true
  | _ => 0

/-- A vector's table entry (R104). -/
def Vector.word (v : Vector) (off : Nat) : BitVec 32 :=
  match off with
  | 0x0 => half v.addr.toNat false
  | 0x4 => half v.addr.toNat true
  | 0x8 => v.data
  | _ => BitVec.ofNat 32 (b2n v.masked)

/-- The MSI-X table. -/
def State.msixWord (s : State) (fn off : Nat) : BitVec 32 :=
  if off / 16 < vectorsOf fn then (s.vector fn (off / 16)).word (off % 16) else 0

/-- The pending bit array. -/
def State.pbaWord (s : State) (fn off : Nat) : BitVec 32 :=
  if off < 8 then
    word (((List.range 32).map (fun k => if (s.vector fn (off * 8 + k)).pending then 2 ^ k else 0)).sum)
  else 0

/-- REC_STATUS.STEP (18 R382, 08 R182). -/
def State.recoveryStep (s : State) : Nat :=
  match s.rst.phase with | .l2Preempt => 1 | .l2Stopped => 3 | _ => 0

/-- The abort and recovery region (18 R382). -/
def State.recoveryWord (s : State) (off : Nat) : BitVec 32 :=
  if 0x100 ≤ off ∧ off < 0x520 then
    (if off % 32 = 0 then 0 else s.abortWord ((off - 0x100) / 32) (off % 32))
  else match off with
    | 0x10 => word (b2n s.l2Runs + s.recoveryStep * 2 + (if s.rst.lastLevel = 2 then s.rst.lastSource.toNat % 16 else 0) * 16
        + b2n s.fep.halted * 256 + min (tabGetD s.rst.counts 2 0) 0xFFFF * 65536)
    | 0x14 => word s.abrt.rounds.toNat
    | _ => 0

/-- A probe's block (10 R230). -/
def Probe.word (q : Probe) (off : Nat) : BitVec 32 :=
  match off with
  | 0x00 => BitVec.ofNat 32 q.ctl.toNat
  | 0x04 => BitVec.ofNat 32 q.filt.toNat
  | 0x08 => q.types
  | 0x0C => q.pkts
  | 0x10 => q.flits
  | 0x14 => BitVec.ofNat 32 q.waitMax.toNat
  | _ => 0

/-- BRG_STAT (10 R232). -/
def Bridge.word (b : Bridge) : BitVec 32 := BitVec.ofNat 32 (b2n b.fatal + b.discard.toNat * 2 + b.crcErr.toNat * 65536)

/-- The network region (10 R230 to R232). -/
def State.networkWord (s : State) (off : Nat) : BitVec 32 :=
  let n := s.net
  if off < 0x400 then (tabGetD n.probes (off / 32) {}).word (off % 32)
  else if 0x500 ≤ off ∧ off < 0x548 then (s.bridge ((off - 0x500) / 4)).word
  else if 0x8000 ≤ off then
    let k := (off - 0x8000) / 16 + (if n.traceHalf then 2048 else 0)
    word ((tabGetD n.trace k 0).toNat / 2 ^ (off % 16 * 8))
  else match off with
    | 0x400 => word (b2n n.traceEn + b2n n.traceWrap * 2 + b2n n.traceHalf * 4 + b2n n.traceFull * 8 + n.wptr.toNat * 16
        + n.dropped.toNat * 65536)
    | 0x410 => word n.tmoPriv
    | 0x414 => word n.tmoHost
    | 0x418 => n.late
    | 0x41C => n.retry
    | 0x420 => n.malformed
    | _ => 0

/-- The MMU registers of an instance (04 R84). -/
def Mmu.word (m : Mmu) (n off : Nat) : BitVec 32 :=
  match off with
  | 0x100 => half m.root.toNat false
  | 0x104 => half m.root.toNat true
  | 0x108 => BitVec.ofNat 32 (b2n m.en + b2n (m.bypass && n == 0) * 2 + b2n m.ats * 4)
  | 0x110 => half m.invalAddr.toNat false
  | 0x114 => half m.invalAddr.toNat true
  | 0x118 => BitVec.ofNat 32 (b2n m.invalGo + b2n m.invalAll * 2 + b2n m.invalDone * 4 + m.invalSize.toNat * 65536)
  | 0x120 => half m.faultDva.toNat false
  | 0x124 => half m.faultDva.toNat true
  | 0x128 => BitVec.ofNat 32 (m.faultInfo.toNat + b2n m.faultValid * 2147483648)
  | _ => 0

/-- A queue's block of the manager view (06 R138). Of a queue that is destroyed every word reads 0, and DB_BAD starts at 0 in a
queue that is created; R138 names only resets as what clears them (DESIGN CHOICE, log entry 85). -/
def State.queueWord (s : State) (n q off : Nat) : BitVec 32 :=
  match s.slotOf n q with
  | none => 0
  | some slot => match s.queue slot with
    | none => 0
    | some x => match off with
      | 0x00 => word (x.stateCode + x.causeCode * 4 + x.desc.format * 64 + x.desc.cls * 256 + slot * 1024)
      | 0x04 => x.read
      | 0x08 => x.write
      | 0x0C => x.cpl
      | 0x10 => x.cons
      | 0x14 => word x.dbBad.toNat
      | 0x18 => word (s.inflight slot % 64)
      | _ => 0

/-- The manager view of an instance (04 R84, 06 R138, 07 R154, 10 R233, 11 R235). -/
def State.viewWord (s : State) (n off : Nat) : BitVec 32 :=
  let i := s.inst n
  if 0x100 ≤ off ∧ off < 0x12C then i.mmu.word n off
  else if 0x200 ≤ off ∧ off < 0x240 then s.bindWord n ((off - 0x200) / 4)
  else if 0x400 ≤ off ∧ off < 0x600 then s.queueWord n ((off - 0x400) / 32) (off % 32)
  else match off with
    | 0x000 => word (i.state.code + i.box.state * 16 + i.box.format * 64 + i.gen.toNat * 65536)
    | 0x004 => word i.owned.toNat
    | 0x008 => word i.spoofCount.toNat
    | 0x140 => i.stale
    | _ => 0

/-- An emulated register as it reads (15 R323, R324): Topcoat's value while it serves, otherwise the shadow; FE_STATUS is
hardware. -/
def State.emuWord (s : State) (n off : Nat) : BitVec 32 :=
  if off = 0x0F0 then s.feStatus n
  else if !(emuOffsets.contains off) then 0
  else if s.serving then s.emuValue n off
  else tabGetD (s.inst n).shadow off 0

/-- A word of a region, read through function `fn` (its own pages) or PF0's other regions. -/
def State.regionWord (s : State) (fn : Nat) (r : Region) (off : Nat) : BitVec 32 :=
  match r with
  | .ident => s.identWord off
  | .doorbell => 0
  | .inbound => s.mailboxWord fn true off
  | .outbound => s.mailboxWord fn false off
  | .emu => s.emuWord fn off
  | .abort => s.abortWord fn off
  | .msix => s.msixWord fn off
  | .pba => s.pbaWord fn off
  | .window => word (leNat ((List.range 4).map (fun k =>
      tabGetD s.mgc.sram (s.mgc.loadPage.toNat % 8 * 65536 + off + k) 0)))
  | .recovery => s.recoveryWord off
  | .network => s.networkWord off
  | .telemetry => word (s.telemetry off)
  | .view n => s.viewWord n off

/-- The word at an aligned offset of a function's BAR0; 0 where nothing is assigned, and for the pages of an instance that
does not exist (R102, R103). -/
def State.readWord (s : State) (fn off : Nat) : BitVec 32 :=
  if fn ≠ 0 && (s.inst fn).state == .absent then 0
  else match regionOf fn off with
    | some (r, o) => s.regionWord fn r o
    | none => 0

-- Writes of single registers ---------------------------------------------------------------------------------------------------

/-- A write's outcome: the state, and whether the access counts as a bad one. -/
abbrev RegWrite := State × Bool

/-- A write that takes effect. -/
def took (s : State) : RegWrite := (s, false)

/-- FW_LOAD_CTL written: PAGE, then BEGIN, then COMMIT (15 R316, R319). -/
def State.writeLoadCtl (s : State) (v : BitVec 32) : State :=
  let s1 := { s with mgc := { s.mgc with loadPage := BitVec.ofNat 8 (bits v.toNat 4 2) } }
  let s2 := if v.getLsbD 0 then s1.loadBegin else s1
  if v.getLsbD 1 then s2.loadCommit else s2

/-- The identity and device control region written. -/
def State.writeIdent (s : State) (off : Nat) (v : BitVec 32) : State :=
  match off with
  | 0x1000 => s.heartbeat v
  | 0x1008 => s.writeLoadCtl v
  | 0x100C => { s with mgc := { s.mgc with loadLen := v &&& 0xFFFFF } }
  | 0x1014 => s.swReset v
  | _ => s

/-- IN_PROD written, a mailbox doorbell (11 R243, R245). -/
def State.writeInProd (s : State) (n : Nat) (v : BitVec 32) : RegWrite :=
  let i := bits v.toNat 6 0
  let f := (s.inst n).box.format
  if f ≠ 0 ∧ inCells f ≤ i then (s, true) else took (s.updInst n (fun x => { x with box := { x.box with inProd := i } }))

/-- GO written (11 R243a): accepted for a CLOSED mailbox of an instance that may open one. -/
def State.openBox (s : State) (n : Nat) (formats : BitVec 3) : State :=
  let i := s.inst n
  if i.box.state = 0 && !([IState.absent, .quiescing, .quiesced, .resetting].contains i.state) then
    let t := s.updInst n (fun i => { i with box := { i.box with state := 1, formats := formats, openResult := 0, evLost := 0, lostNew := 0 } })
    if t.serving then t.completeOpen n else t
  else s

/-- The inbound page written (11 R243). -/
def State.writeInbound (s : State) (n off : Nat) (v : BitVec 32) : RegWrite :=
  if 0x40 ≤ off then took (s.updInst n (fun i => { i with box := { i.box with inPage := pageWrite i.box.inPage off (leBytes 4 v.toNat) } }))
  else match off with
    | 0x00 => s.writeInProd n v
    | 0x04 =>
      let i := bits v.toNat 5 0
      let f := (s.inst n).box.format
      if f ≠ 0 ∧ outCells f ≤ i then (s, true) else took (s.updInst n (fun x => { x with box := { x.box with outCons := i } }))
    | 0x08 => took (s.updInst n (fun x => { x with box := { x.box with evCons := bits v.toNat 5 0 } }))
    | 0x0C => took (if v.getLsbD 0 then s.openBox n (BitVec.ofNat 3 (bits v.toNat 3 1)) else s)
    | _ => took s

/-- A write to the emulated page (15 R323, R324). -/
def State.writeEmu (s : State) (n off : Nat) (v : BitVec 32) : State :=
  if off = 0x0F0 then (if v.getLsbD 1 then s.updInst n (fun i => { i with feOvf := false }) else s)
  else match emuIndex off with
    | none => s
    | some k => s.updInst n (fun i =>
      if i.emuQueue.length < 8 then { i with emuQueue := i.emuQueue ++ [(k, v)] }
      else { i with feOvf := true, ovfCount := satInc i.ovfCount })

/-- A keyed abort request (18 R381, R382). -/
def State.keyedAbort (s : State) (n : Nat) (v : BitVec 32) (by_ : Nat) : RegWrite :=
  if bits v.toNat 31 16 ≠ 0xAB07 then (s, true)
  else took (s.requestAbort n (if v.getLsbD 4 then none else some (bits v.toNat 3 0)) by_)

/-- One word of a 64-bit register replaced. -/
def setHalf (old : BitVec 64) (high : Bool) (v : BitVec 32) : BitVec 64 :=
  if high then BitVec.ofNat 64 (old.toNat % 4294967296 + v.toNat * 4294967296)
  else BitVec.ofNat 64 (old.toNat / 4294967296 * 4294967296 + v.toNat)

/-- A vector's table entry written. -/
def Vector.write (x : Vector) (off : Nat) (v : BitVec 32) : Vector :=
  match off with
  | 0x0 => { x with addr := setHalf x.addr false v }
  | 0x4 => { x with addr := setHalf x.addr true v }
  | 0x8 => { x with data := v }
  | _ => { x with masked := v.getLsbD 0 }

/-- The MSI-X table written: a vector whose mask ends is sent if it pends (R105). -/
def State.writeMsix (s : State) (fn off : Nat) (v : BitVec 32) : State :=
  let k := off / 16
  if k < vectorsOf fn then
    let t := s.updVector fn k (fun x => x.write (off % 16) v)
    if (t.vector fn k).pending && t.msixOpen fn k then t.msix fn k else t
  else s

/-- The firmware load window written: only in LOADING (15 R319). -/
def State.writeWindow (s : State) (off : Nat) (v : BitVec 32) : State :=
  if s.mgc.fw == .loading then
    { s with mgc := { s.mgc with sram := pageWrite s.mgc.sram (s.mgc.loadPage.toNat % 8 * 65536 + off) (leBytes 4 v.toNat) } }
  else s

/-- MGR_ABORT written (18 R382). -/
def State.writeRecovery (s : State) (off : Nat) (v : BitVec 32) : RegWrite :=
  let n := bits v.toNat 10 5
  if off ≠ 0 then took s
  else if bits v.toNat 31 16 ≠ 0xAB07 then (s, true)
  else if 32 < n then took s
  else s.keyedAbort n v 1

/-- PRB_CTL written: a rise of EN clears the counters (10 R230). -/
def Probe.writeCtl (q : Probe) (v : BitVec 32) : Probe :=
  let c : BitVec 13 := v.setWidth 13
  if !q.ctl.getLsbD 0 && c.getLsbD 0 then { q with ctl := c, pkts := 0, flits := 0, waitMax := 0 } else { q with ctl := c }

/-- A probe's block written (10 R230). -/
def Probe.write (q : Probe) (off : Nat) (v : BitVec 32) : Probe :=
  match off with
  | 0x00 => q.writeCtl v
  | 0x04 => { q with filt := v.setWidth 19 }
  | 0x08 => { q with types := v }
  | _ => q

/-- Probe `k` changed. -/
def State.updProbe (s : State) (k : Nat) (f : Probe → Probe) : State :=
  { s with net := { s.net with probes := tabSet s.net.probes k (f (tabGetD s.net.probes k {})) } }

/-- TRACE_CTL written: a rise of EN clears WPTR, FULL and DROPPED (10 R232). -/
def Net.writeTrace (n : Net) (v : BitVec 32) : Net :=
  let m := { n with traceEn := v.getLsbD 0, traceWrap := v.getLsbD 1, traceHalf := v.getLsbD 2 }
  if !n.traceEn && v.getLsbD 0 then { m with wptr := 0, traceFull := false, dropped := 0 } else m

/-- The limit that a write of NET_TMO_PRIV or NET_TMO_HOST stores, in µs (10 R232). -/
def clampTmo (v : BitVec 32) : Nat := min 4000 (max 8 (bits v.toNat 12 0))

/-- A timeout register written (10 R232). -/
def State.writeTmo (s : State) (hostLimit : Bool) (v : BitVec 32) : State :=
  if hostLimit then { s with net := { s.net with tmoHost := clampTmo v } } else { s with net := { s.net with tmoPriv := clampTmo v } }

/-- The network region written (10 R230, R232). -/
def State.writeNetwork (s : State) (off : Nat) (v : BitVec 32) : State :=
  if off < 0x400 then s.updProbe (off / 32) (fun q => q.write (off % 32) v)
  else match off with
    | 0x400 => { s with net := s.net.writeTrace v }
    | 0x410 => s.writeTmo false v
    | 0x414 => s.writeTmo true v
    | _ => s

/-- INVAL_CTL written (04 R84): while GO reads 1, a write with GO acts on nothing and one without GO on DONE only. -/
def Mmu.writeInval (m : Mmu) (v : BitVec 32) (now : Nat) : Mmu :=
  let done := m.invalDone && !v.getLsbD 2
  let size := bits v.toNat 31 16
  if m.invalGo then (if v.getLsbD 0 then m else { m with invalDone := done })
  else
    let x := { m with invalAll := v.getLsbD 1, invalSize := BitVec.ofNat 16 size, invalDone := done }
    if v.getLsbD 0 = false then x
    else if size = 0 && !v.getLsbD 1 then { x with invalDone := true }
    else { x with invalGo := true, invalFrom := bits m.invalAddr.toNat 47 16, invalPages := size, invalAt := now }

/-- The MMU registers written (04 R84). -/
def Mmu.write (m : Mmu) (n off : Nat) (v : BitVec 32) (now : Nat) : Mmu :=
  match off with
  | 0x100 => { m with root := setHalf m.root false (v &&& 0xFFFFF000) }
  | 0x104 => { m with root := setHalf m.root true (v &&& 3) }
  | 0x108 => { m with en := v.getLsbD 0, bypass := if n = 0 then v.getLsbD 1 else false, ats := v.getLsbD 2 }
  | 0x110 => { m with invalAddr := setHalf m.invalAddr false (v &&& 0xFFFF0000) }
  | 0x114 => { m with invalAddr := setHalf m.invalAddr true (v &&& 0xFFFF) }
  | 0x118 => m.writeInval v now
  | 0x128 => { m with faultValid := m.faultValid && !v.getLsbD 31 }
  | _ => m

/-- The manager view of an instance written: only its MMU registers take writes. -/
def State.writeView (s : State) (n off : Nat) (v : BitVec 32) : State :=
  s.updInst n (fun i => { i with mmu := i.mmu.write n off v s.now })

-- Doorbells (06 R119) -------------------------------------------------------------------------------------------------------------

/-- Half of a doorbell forwarded on VC0 (R119), or the access is a bad one: an offset past the doorbells, or no such
queue. -/
def State.bellWord (s : State) (n off : Nat) (v : BitVec 32) : RegWrite :=
  let q := off / 8
  if decide (0x80 ≤ off) || (s.slotOf n q).isNone then (s, true)
  else took { s with net := { s.net with bells := s.net.bells ++ [(n, q, off % 8 == 4, v)] } }

-- A whole access (R102, R103) ---------------------------------------------------------------------------------------------------------

/-- One 32-bit word written to a region (R8). -/
def State.regionWrite (s : State) (fn : Nat) (r : Region) (off : Nat) (v : BitVec 32) : RegWrite :=
  match r with
  | .ident => took (s.writeIdent off v)
  | .doorbell => s.bellWord fn off v
  | .inbound => s.writeInbound fn off v
  | .outbound => (s, true)
  | .emu => took (s.writeEmu fn off v)
  | .abort => if off = 0 then s.keyedAbort fn v 0 else took s
  | .msix => took (s.writeMsix fn off v)
  | .window => took (s.writeWindow off v)
  | .recovery => s.writeRecovery off v
  | .network => took (s.writeNetwork off v)
  | .view n => took (s.writeView n off v)
  | .pba | .telemetry => took s

/-- The words of a write, lowest first. -/
def State.writeWords (s : State) (fn : Nat) (r : Region) (off : Nat) : List Byte → Nat → RegWrite
  | _, 0 => (s, false)
  | bs, k + 1 =>
    let a := s.regionWrite fn r off (word (field bs 0 4))
    let b := a.1.writeWords fn r (off + 4) (bs.drop 4) k
    (b.1, a.2 || b.2)

/-- A write to a BAR: size, alignment and assignment, Glove check point 1, then its words in order; a bad access is counted
once (R102, R103). -/
def State.barWrite (s0 : State) (fn off : Nat) (data : List Byte) : State :=
  let s := s0.wakeFabric
  if barSize fn ≤ off then s0
  else match regionOf fn off with
  | none => s.badAccess
  | some (r, o) =>
    if !sizeOk r o data.length then s.badAccess
    else if s.glove1Stops fn r then s.glove1 fn
    else
      let a := s.writeWords fn r o data (data.length / 4)
      if a.2 then a.1.badAccess else a.1

-- Rows -----------------------------------------------------------------------------------------------------------------------------------

/-- An access to the BAR of a function whose Memory Space Enable is 0: the device does not see it, and PCI Express handles it as an
Unsupported Request (R103, R106). -/
def State.unsupported (s : State) (fn : Nat) : State :=
  if s.link.up && s.fnExists fn then s.aer false aerUnsupported else s

/-- REGISTER_WRITE (R8, R102, R103): a host write to a BAR or to configuration space. A function that an FLR resets takes no
write, and poisoned data for a BAR is dropped (R106, R107). -/
def execRegisterWrite (fn : Fin 33) (config poisoned : Bool) (off : Nat) (data : List Byte) (s : State) : Result :=
  .next (alerted s (
    if s.flrRuns fn.val then s
    else if config then (if s.link.cfgReady && s.fnExists fn.val then s.cfgWrite fn.val off data else s)
    else if !s.seen fn.val then s.unsupported fn.val
    else if poisoned then s.aer false aerPoisoned
    else s.barWrite fn.val off data))

/-- DOORBELL_WRITE (06 R119): a write of `data` in the doorbell page; `off` counts from the start of that page. -/
def execDoorbellWrite (fn : Fin 33) (off : Nat) (data : List Byte) (s : State) : Result :=
  .next (if !s.seen fn.val || s.flrRuns fn.val then s else if 4096 ≤ off then s.badAccess
    else s.barWrite fn.val (if fn.val = 0 then 0x2000 + off else off) data)

/-- The doorbell packet of a half, from the host bridge to the FEP (10 R212). -/
def bellPkt (n slot : Nat) (gen : BitVec 16) : Pkt :=
  { typ := 0x03, urg := 0, src := nHost, dst := nFep, mask := 0, inst := n, gen := gen, slot := slot, tag := 0, tgen := 0, len := 0,
    status := 0, addr := 0, hostSpace := false, bytes := 0 }

/-- A doorbell half that the host bridge keeps during an L2 reset: the latest of each half (08 R181). -/
def coalesce (bells : List (Nat × Nat × Bool × BitVec 32)) (n q : Nat) (high : Bool) (v : BitVec 32) :
    List (Nat × Nat × Bool × BitVec 32) :=
  bells.filter (fun e => !(e.1 == n && e.2.1 == q && e.2.2.1 == high)) ++ [(n, q, high, v)]

/-- DOORBELL (06 R120): the FEP receives the oldest half that was forwarded for the queue (R119). -/
def execDoorbell (fn : Fin 33) (q : Fin 16) (high : Bool) (value : BitVec 32) (s : State) : Result :=
  .next (if s.net.bells.find? (fun e => e.1 == fn.val && e.2.1 == q.val) != some (fn.val, q.val, high, value) then s
    else
      let s1 := { s with net := { s.net with bells := s.net.bells.erase (fn.val, q.val, high, value) } }
      match s1.slotOf fn.val q.val with
      | none => s1
      | some slot =>
        if s1.l2Runs || s1.fep.stopped then
          { s1 with fep := { s1.fep with heldBells := coalesce s1.fep.heldBells fn.val q.val high value } }
        else if s1.fepRuns then
          (s1.observe (bellPkt fn.val slot (s1.inst fn.val).gen)).doorbellHalf slot high value
        else s1)

/-- A keyed write of an abort register (18 R382, R383): the manager's through PF0, or the function's own, which Glove check
point 1 may stop (R103). -/
def State.abortWrite (s : State) (n : Nat) (q : Option Nat) (byManager : Bool) : State :=
  if byManager then (if s.seen 0 then s.wakeFabric.requestAbort n q 1 else s)
  else if !s.seen n then s
  else if s.glove1Stops n .abort then s.wakeFabric.glove1 n
  else s.wakeFabric.requestAbort n q 0

/-- ABORT_QUEUE (18 R383). -/
def execAbortQueue (n : Fin 33) (q : Fin 16) (byManager : Bool) (s : State) : Result :=
  .next (s.abortWrite n.val (some q.val) byManager)

/-- ABORT_INSTANCE (18 R383). -/
def execAbortInstance (n : Fin 33) (byManager : Bool) (s : State) : Result := .next (s.abortWrite n.val none byManager)

/-- MMU_INVALIDATE_RANGE (04 R85): INVAL_CTL written with GO and without ALL. -/
def execMmuInvalidateRange (n : Fin 33) (value : BitVec 32) (s : State) : Result :=
  .next (if s.seen 0 then s.wakeFabric.writeView n.val 0x118 ((value ||| 1) &&& ~~~ 2#32) else s)

/-- MMU_INVALIDATE_ALL (04 R85): INVAL_CTL written with GO and ALL. -/
def execMmuInvalidateAll (n : Fin 33) (value : BitVec 32) (s : State) : Result :=
  .next (if s.seen 0 then s.wakeFabric.writeView n.val 0x118 (value ||| 3) else s)

/-- A page is in the range of the invalidation under way. -/
def Mmu.invalHits (m : Mmu) (page : Nat) : Bool :=
  m.invalAll || (decide (m.invalFrom ≤ page) && decide (page < m.invalFrom + m.invalPages))

/-- What an invalidation covers leaves every micro-TLB and the controller's TLB; the upper-level entries cached there are kept by
their addresses and not by their range, so all of them go (04 R85). -/
def Mmu.endInval (m : Mmu) : Mmu :=
  { m with tlb := m.tlb.filter (fun e => !m.invalHits e.1), micro := m.micro.filter (fun e => !m.invalHits (e.1 % 2 ^ 32)),
           upper := [], invalGo := false, invalDone := true }

/-- A request may have been translated by an entry that the invalidation removes: a cached one gives its address, or no cached
one does. -/
def Mmu.invalWaits (m : Mmu) (r : NetReq) : Bool :=
  m.leaves.any (fun e => m.invalHits e.1 && leafReaches e.2 r.host r.addr) || !m.leaves.any (fun e => leafReaches e.2 r.host r.addr)

/-- INVALIDATION_DONE (04 R85): it ends once no request sent before it and translated by an entry that it removes is
unanswered. -/
def execInvalidationDone (n : Fin 33) (s : State) : Result :=
  let m := (s.inst n.val).mmu
  .next (if m.invalGo && !(tabVals s.net.reqs).any (fun r => r.inst == n.val && decide (r.sentAt ≤ m.invalAt) && m.invalWaits r) then
    s.updInst n.val (fun i => { i with mmu := i.mmu.endInval }) else s)

/-- PRB_CTL_WRITE (10 R230). -/
def execPrbCtlWrite (k : Fin 32) (value : BitVec 32) (s : State) : Result :=
  .next (if s.seen 0 then s.wakeFabric.updProbe k.val (fun q => q.writeCtl value) else s)

/-- TRACE_CTL_WRITE (10 R232). -/
def execTraceCtlWrite (value : BitVec 32) (s : State) : Result :=
  .next (if s.seen 0 then { s.wakeFabric with net := s.net.writeTrace value } else s)

/-- NET_TMO_WRITE (10 R232). -/
def execNetTmoWrite (hostLimit : Bool) (value : BitVec 32) (s : State) : Result :=
  .next (if s.seen 0 then s.wakeFabric.writeTmo hostLimit value else s)

/-- EMU_WRITE (15 R324): `off` counts from the start of the emulated page. -/
def execEmuWrite (fn : Fin 33) (off : Nat) (value : BitVec 32) (s : State) : Result :=
  .next (if s.seen fn.val then s.wakeFabric.writeEmu fn.val off value else s)

/-- Where a function's emulated page lies in its BAR0 (R101, 15 R323). -/
def emuBase (fn : Nat) : Nat := if fn = 0 then 0x5000 else 0x3000

/-- A read of a BAR: the words, lowest first; one of another size or alignment, or at an unassigned offset, reads as zero and is
counted (R102, R103). -/
def State.barRead (s0 : State) (fn off size : Nat) : State :=
  let s := s0.wakeFabric
  let bad := (size != 4 && size != 8) || off % size != 0 || (regionOf fn off).isNone
  let bs := if bad then List.replicate size 0
    else (List.range (size / 4)).flatMap (fun k => leBytes 4 (s.readWord fn (off + 4 * k)).toNat)
  let t := if bad then s.badAccess else s
  { t with link := { t.link with readData := bs } }

/-- EMU_READ (15 R324): the value goes back to the host. `off` counts from the start of the emulated page. -/
def execEmuRead (fn : Fin 33) (off size : Nat) (s : State) : Result :=
  .next (if s.flrRuns fn.val then { s with link := { s.link with readData := List.replicate size 0 } }
    else if s.seen fn.val && decide (off < 4096) then s.barRead fn.val (emuBase fn.val + off) size else s)

/-- MSIX_VECTOR_UNMASK (R105): the vector's mask ends; what pends is sent as one message where nothing else holds it. -/
def execMsixVectorUnmask (fn : Fin 33) (vector : Nat) (s : State) : Result :=
  .next (if s.seen fn.val && decide (vector < vectorsOf fn.val) then
    let t := s.wakeFabric.updVector fn.val vector (fun x => { x with masked := false })
    if (t.vector fn.val vector).pending && t.msixOpen fn.val vector then t.msix fn.val vector else t
  else s)

/-- MAILBOX_DOORBELL (11 R245): a write of IN_PROD. -/
def execMailboxDoorbell (fn : Fin 33) (value : BitVec 32) (s : State) : Result :=
  .next (if !s.seen fn.val then s
    else if s.glove1Stops fn.val .inbound then s.wakeFabric.glove1 fn.val
    else
      let r := s.wakeFabric.writeInProd fn.val value
      if r.2 then r.1.badAccess else r.1)

/-- REG_RD (10 R221): the word that the response carries; INST and ADDR of the packet name a
function and an offset of its BAR0 (log entry 24). -/
def execRegRd (pkt : Pkt) (s : State) : Result :=
  .next (if pkt.len ≠ 0 then s.malformed
    else s.request pkt (fun p t => { t with link := { t.link with readData := leBytes 4 (t.readWord p.inst (p.addr / 4 * 4)).toNat } }))

/-- REG_WR (10 R221): one word written under the access code of the register. -/
def execRegWr (pkt : Pkt) (data : BitVec 32) (s : State) : Result :=
  .next (if pkt.len ≠ 1 then s.malformed
    else alerted s (s.request pkt (fun p t => match regionOf p.inst (p.addr / 4 * 4) with
      | some (r, o) => (t.regionWrite p.inst r o data).1
      | none => t)))

end Sys2Proof.Machine
end

