-- ==== Sys2Proof/Machine/Links.lean ====
section
/-! DEFINITION. The host link (04 R72, 05 R94 to R115): functions and their resets, D-states (16 R350), address-translation
invalidations, completions and their timeout, link loss and training, AER; and a bridge that gives up (10 R225). -/

namespace Sys2Proof.Machine
open Sys2Proof

-- Function-level reset (R107, R108) ----------------------------------------------------------------------------------------

/-- Queues named by `sel` take or leave the HELD cause D3hot (16 R350). -/
def State.holdD3 (s : State) (sel : Queue → Bool) (on : Bool) : State :=
  { s with queues := tabMap s.queues (fun _ q => if sel q then Queue.touch { q with heldD3 := on } else q) }

/-- Partitions that the state in force, or being entered, wants on (16 R345, R346). -/
def State.dueOn (s : State) (p : Nat) : Bool :=
  !s.powerGates p && (if s.pwr.target.getD s.pwr.pstate = 1 then p == s.pwr.tricklePart else s.wantsOn p)

/-- A function leaves D3hot (16 R350): its queues are ACTIVE again; with PF0 every function's are, except those of a VF
that is itself in D3hot, and the suspended contracts are tested again. Its partitions become ready one by one. -/
def State.leaveD3 (s : State) (fn : Nat) : State :=
  if !(s.func fn).d3hot then s
  else
    let s1 := s.updFunc fn (fun c => { c with d3hot := false })
    if fn = 0 then
      let s2 := { s1 with pwr := { s1.pwr with pf0D3 := false, fabricGated := false, lastFabric := s1.now } }
      (s2.holdD3 (fun q => !(s2.func q.inst).d3hot) false).retestAll 2
    else if s1.pwr.pf0D3 then s1
    else s1.holdD3 (fun q => q.inst == fn) false

/-- A function takes D3hot (16 R350): its queues are HELD with cause 5; with PF0 those of every instance, every partition
is gated once its launch is saved or ended, and every admitted contract is suspended with cause 2. -/
def State.enterD3 (s : State) (fn : Nat) : State :=
  if (s.func fn).d3hot then s
  else
    let s1 := s.updFunc fn (fun c => { c with d3hot := true })
    if fn = 0 then
      let s2 := { s1 with pwr := { s1.pwr with pf0D3 := true, fabricGated := true } }
      let s3 := (s2.holdD3 (fun _ => true) true).suspendAll 2
      (List.range 16).foldl State.gateIfIdle (s3.preemptParts (fun _ => true))
    else s1.holdD3 (fun q => q.inst == fn) true

/-- A function's configuration registers at their reset values; its pending messages are discarded (R107). -/
def State.resetFunc (s : State) (fn : Nat) : State := (s.leaveD3 fn).updFunc fn (fun _ => {})

/-- FLR of a function: its reset source acts for its instance (R107). -/
def State.flrOf (s : State) (fn : Nat) : State :=
  if s.fnExists fn then (s.resetFunc fn).actSource (if fn = 0 then 5 else 6) fn else s

/-- FLR (R107). -/
def execFlr (fn : Fin 33) (s : State) : Result := .next (s.flrOf fn.val)

/-- VF_ENABLE_CLEAR (R108): an FLR of every VF that exists. -/
def execVfEnableClear (s : State) : Result :=
  let t := (s.functions.filter (· != 0)).foldl State.flrOf s
  .next { t with link := { t.link with vfEnable := false } }

/-- VF_ENABLE_SET (R108). -/
def execVfEnableSet (s : State) : Result := .next { s with link := { s.link with vfEnable := true } }

/-- NUMVFS_WRITE (R98, R108): 0 to 32; ignored where it would remove the VF of an existing instance. -/
def execNumVfsWrite (value : Nat) (s : State) : Result :=
  .next (if 32 < value || s.insts.any (fun e => decide (value < e.1) && e.2.state != .absent) then s
    else { s with link := { s.link with numVfs := value } })

/-- D3HOT_ENTRY (16 R350). -/
def execD3hotEntry (fn : Fin 33) (s : State) : Result := .next (if s.fnExists fn.val then s.enterD3 fn.val else s)

/-- D0_RETURN (16 R350). -/
def execD0Return (fn : Fin 33) (s : State) : Result := .next (if s.fnExists fn.val then s.leaveD3 fn.val else s)

-- ATS (04 R72) ----------------------------------------------------------------------------------------------------------------

/-- ATS_INVALIDATE (04 R72): the translation leaves the cache, and the completion is owed. The bridge holds 32 invalidations
(Invalidate Queue Depth); the host sends no more. -/
def execAtsInvalidate (fn : Fin 33) (page : Nat) (s : State) : Result :=
  .next (if 32 ≤ s.link.atsPending.length && !s.link.atsPending.contains (fn.val, page) then s
    else { s with link := { s.link with
      atc := tabErase s.link.atc (atcKey fn.val page)
      atcAge := s.link.atcAge.filter (· != atcKey fn.val page)
      atsPending := if s.link.atsPending.contains (fn.val, page) then s.link.atsPending
        else s.link.atsPending ++ [(fn.val, page)] } })

/-- ATS_INVALIDATE_COMPLETE (04 R72): sent once no request that used the translation is in the host bridge; the writes that used it
go before it in the order of the posted queue (R74). -/
def execAtsInvalidateComplete (fn : Fin 33) (page : Nat) (s : State) : Result :=
  .next (if s.link.up && s.link.atsPending.contains (fn.val, page)
      && !(tabVals s.link.outstanding).any (fun r => r.fn == fn.val && r.page == some page && r.xlat.isNone) then
    State.post { s with link := { s.link with atsPending := s.link.atsPending.erase (fn.val, page) } } (.atsDone fn.val page)
  else s)

-- Completions (R109) ------------------------------------------------------------------------------------------------------------

/-- The status of a completion: UR or CA from the host is HOST_XLATE (04 R81), poisoned data HOST_POISON (R106). -/
def cplStatus (status : Nat) (poisoned : Bool) : Status :=
  if status ≠ 0 then St.hostXlate else if poisoned then St.hostPoison else St.ok

/-- The page that a translation completion gives for 4 KiB page `page`: its address field, or with S set that of a larger range,
whose size the low bits of the field tell (PCI Express; log entry 86). -/
def xlatPage (v page : Nat) : Nat :=
  if !bit v 11 then bits v 63 12
  else
    let k := ((List.range 40).find? (fun j => !bit v (12 + j))).getD 39 + 1
    bits v 63 12 / 2 ^ k * 2 ^ k + page % 2 ^ k

/-- A translation completion (04 R72, R73): the ATC takes what permits the access and the access goes on; one that the host refuses
or does not permit ends with HOST_XLATE and is not sent. -/
def State.endXlat (s : State) (tag : Nat) (h : HostReq) (w : Waiting) (status : Nat) (data : List Byte) : State :=
  let v := field data 0 8
  if status ≠ 0 || !(if w.write then bit v 1 else bit v 0) then s.endHostRead tag h St.hostXlate []
  else
    let s1 := { s with link := { s.link with outstanding := tabErase s.link.outstanding tag } }
    if h.marked then s1
    else (s1.cacheAtc h.fn (w.pkt.addr / 4096) (xlatPage v (w.pkt.addr / 4096))).performHost w

/-- HOST_COMPLETION (R109): `status` is 0 for Successful Completion. One that no request awaits is an Unexpected
Completion. -/
def execHostCompletion (tag status : Nat) (poisoned : Bool) (data : List Byte) (s : State) : Result :=
  .next (if !s.link.up then s
    else match tabGet s.link.outstanding tag with
      | none => s.aer false aerUnexpectedCpl
      | some r =>
        let s1 := if status = 0 && poisoned then s.aer false aerPoisoned else s
        (match r.xlat with
          | some w => if status = 0 && poisoned then s1.endHostRead tag r St.hostPoison [] else s1.endXlat tag r w status data
          | none => s1.endHostRead tag r (cplStatus status poisoned) data).releaseWaiting)

/-- The completion timeout of a function in ns (R109). -/
def State.cplLimit (s : State) (fn : Nat) : Nat := if (s.func fn).cplTimeout = 1 then 100000 else 2000000

/-- HOST_CPL_TIMEOUT (R109). -/
def execHostCplTimeout (tag : Nat) (s : State) : Result :=
  .next (match tabGet s.link.outstanding tag with
    | none => s
    | some r =>
      if s.now < r.sentAt + s.cplLimit r.fn then s
      else ((s.aer false aerCplTimeout).endHostRead tag r St.hostCplTimeout []).releaseWaiting)

-- Link loss and training (R111, R115, 17 R375) -------------------------------------------------------------------------------------

/-- Messages that had not left are held pending (R115). -/
def State.repend (s : State) : List Posted → State
  | [] => s
  | .msix fn v _ _ :: t => (s.updVector fn v (fun x => { x with pending := true })).repend t
  | _ :: t => s.repend t

/-- The link is down: its registers show it, and DOWN_COUNT counts it. -/
def State.linkLost (s : State) : State :=
  { s with link := { s.link with up := false, speed := 0, width := 0, ucieVer := 0, cfgReady := false,
                                 downCount := satInc s.link.downCount } }

/-- PF0 goes from D3hot to D3cold in mode P: the link enters L2 (R94, R96), where its registers show no link; nothing is outstanding,
and it is no link-down event. -/
def State.enterL2 (s : State) : State :=
  { s with link := { s.link with up := false, l2 := true, speed := 0, width := 0, ucieVer := 0, cfgReady := false } }

/-- LINK_DOWN (R115): outstanding host requests end with HOST_LINK_DOWN, posted writes that have not entered the link are
discarded (which those are is open), messages wait, and the link-down source acts. With `toL2` the host takes the link to L2 on the
way to D3cold, which it does with PF0 in D3hot and nothing outstanding (log entry 87). -/
def execLinkDown (toL2 : Bool) (s : State) : Result :=
  .next (if !s.link.up then s
    else if toL2 && (s.func 0).d3hot && s.link.outstanding.isEmpty && s.link.posted.isEmpty then s.enterL2
    else
      let s1 := s.link.outstanding.foldl (fun t e => t.endHostRead e.1 e.2 St.hostLinkDown []) s
      let n := (Config.freeWord s1.freeCount).toNat % (s1.link.posted.length + 1)
      let cut := s1.link.posted.drop n
      let s2 := { s1.useFree with link := { s1.link with posted := s1.link.posted.take n } }
      (s2.linkLost.repend cut).actSource 3 0)

/-- HOT_RESET (17 R364). -/
def execHotReset (s : State) : Result := .next (if s.link.up then s.actSource 3 0 else s)

/-- The rates and widths that the link trains to in the mode in force (R94, R95). -/
def State.linkModeOk (s : State) (speed width ucie : Nat) : Bool :=
  if s.pins.modeP then [1, 3, 4, 6, 7].contains speed && [1, 2, 4].contains width && ucie == 0
  else [2, 4, 5, 6].contains speed && [8, 16].contains width && (ucie == 1 || ucie == 2)

/-- The link may train: the fabric is released and, in mode P, PERST_N is high (17 R375 step 6). -/
def State.mayTrain (s : State) : Bool :=
  s.clk.alive && !s.wideRuns && (!s.pins.modeP || s.pins.perstN)

/-- CLKREQ_N as the device drives it, false for low: low in mode P while the link is in use, released in mode U, during a reset
that takes the link down, in L2, and in a PCI-PM L1 substate that PF0's control register enables with every function in D3hot
(R95, 20 R439; the substates' bits are PCI Express's, log entry 23). -/
def State.clkreqN (s : State) : Bool :=
  !s.pins.modeP || !s.mayTrain || s.link.l2
    || (s.functions.all (fun fn => (s.func fn).d3hot) && (bit (s.func 0).l1ss.toNat 0 || bit (s.func 0).l1ss.toNat 1))

/-- The link power state (R94, R95): L0, L1 while every function is in D3hot, L2, or none while the link is down. -/
inductive LinkPower where
  | down | l0 | l1 | l2
  deriving DecidableEq, Repr

/-- The power state of the host link: PCI Express takes a link to L1 when every function is in D3hot. -/
def State.linkPower (s : State) : LinkPower :=
  if s.link.l2 then .l2 else if !s.link.up then .down
  else if s.functions.all (fun fn => (s.func fn).d3hot) then .l1 else .l0

/-- LINK_ACTIVE (17 R375): the link trains to a rate and width; messages that waited are sent. -/
def execLinkActive (speed width ucie : Nat) (s : State) : Result :=
  .next (if !s.mayTrain || !s.linkModeOk speed width ucie then s
    else
      let s1 := { s with link := { s.link with
        up := true, l2 := false, speed := BitVec.ofNat 4 speed, width := BitVec.ofNat 6 width, ucieVer := BitVec.ofNat 4 ucie,
        cfgReady := s.mem.regionFilled }, pins := { s.pins with wakeN := true } }
      (List.range 33).foldl State.msixFlush s1)

/-- LINK_RETRAIN (R106, R111): a correctable error; traffic is delayed, not lost. -/
def execLinkRetrain (s : State) : Result := .next (if s.link.up then s.aer true aerReplayRollover else s)

-- A bridge gives up (10 R225) ---------------------------------------------------------------------------------------------------------

/-- What a bridge that gives up does (10 R225): the poisoned flit goes out and its packet is discarded, the link is FATAL, the event
is sent, its node counts as having answered every generation update (10 R222), and what follows for a partition, the MGC complex or the I/O node. -/
def State.giveUp (s : State) (b : Nat) : State :=
  let node := if b < 16 then b else b + 4
  let s0 := s.updBridge b (fun x => { x with fatal := true, replays := 0, refusedAt := none })
  let s1 := { s0 with insts := tabMap s0.insts (fun _ i => { i with genWait := i.genWait.filter (· != node) }) }.event Ev.linkFatal 0
    false true (leBytes 1 b)
  if b < 16 then s1.partFatal b
  else if b = 16 then s1.actSource 14 3
  else s1

/-- LINK_FATAL (10 R225): a bridge has used up its retries or the 2 µs since a flit's first send. -/
def execLinkFatal (b : Fin 18) (s : State) : Result := .next (if (s.bridge b.val).fatal then s else s.giveUp b.val)

/-- BRIDGE_NAK (10 R224): a flit refused, and one replay; `again` tells that it is the flit last replayed. When its fourth replay
is refused, or 2 µs have passed since it was first refused, the sender gives up (01 R15). -/
def execBridgeNak (b : Fin 18) (again : Bool) (s : State) : Result :=
  let x := s.bridge b.val
  .next (if x.fatal then s
    else
      let s1 := s.updBridge b.val (fun x => { x with crcErr := satInc x.crcErr })
      if again && (decide (4 ≤ x.replays) || (match x.refusedAt with | some t => decide (t + 2000 ≤ s.now) | none => false)) then
        s1.giveUp b.val
      else
        let s2 := s1.updBridge b.val (fun x => { x with replays := if again then x.replays + 1 else 1,
                                                        refusedAt := if again then x.refusedAt.orElse (fun _ => some s.now) else some s.now })
        { s2 with net := { s2.net with retry := satInc s2.net.retry } })

end Sys2Proof.Machine
end

