-- ==== Sys2Proof/Machine/Power.lean ====
section
/-! DEFINITION. Power states (16 R344 to R350), the adaptive loops (16 R340, R342, R351 to R355), PWR_CAP_N (16 R360),
the telemetry mirror (16 R362), and Topcoat's reads of the contract log and of mirrored state (09 R198, 14 R312). -/

namespace Sys2Proof.Machine
open Sys2Proof

-- Power states (R344 to R349) ----------------------------------------------------------------------------------------------

/-- Partitions that the state in force, or being entered, gates. -/
def State.gatedByPower (s : State) : List Nat := (List.range 16).filter s.powerGates

/-- Partitions not ungated yet that the state in force, or being entered, wants on are ungated (R345, R346). -/
def State.ungateDue (s : State) : State := ((List.range 16).filter s.dueOn).foldl State.ungateNow s

/-- A power state reached (R344, R349): partitions gated or ready, POWER_STATE set, POWER_STATE_CHANGED for the manager. -/
def State.reachPower (s : State) (v : Nat) : State :=
  let s1 := { s with pwr := { s.pwr with pstate := v, target := none, heldReported := [], fabricGated := v == 2 } }
  let s2 := (s1.gatedByPower.foldl State.gateIfIdle s1).ungateDue
  (s2.powerEvent Ev.powerStateChanged 0 (leBytes 1 s.pwr.pstate ++ leBytes 1 v) true).reassess

/-- POWER_STATE_TRANSITION_DONE (R348, R349): a transition ends once no partition to be gated runs a launch. -/
def execPowerStateTransitionDone (s : State) : Result :=
  .next (match s.pwr.target with
    | some v => if s.gatedByPower.all (fun p => (s.part p).run.isNone) then s.reachPower v else s
    | none => s)

/-- A partition without a launch is to be gated (R303, R344, R345, R350): it is retired and holds no saved launch, the
power state gates it, or in Active nothing is bound to it and it has had no grant for 10 ms. -/
def State.gateDue (s : State) (p : Nat) : Bool :=
  ((s.part p).retired && !s.isSaved p) || s.powerGates p
    || (s.pwr.pstate == 0 && s.pwr.target.isNone && !s.isBound p && !s.isSaved p
      && decide ((s.part p).idleSince + 10000000 ≤ s.now))

/-- PARTITION_IDLE_GATE (R345). -/
def execPartitionIdleGate (p : Fin 16) (s : State) : Result :=
  .next (if s.gateDue p.val then s.gateIfIdle p.val else s)

/-- PARTITION_UNGATE_DONE (02 R34): the SRAMs of a partition that is being ungated are zero. -/
def execPartitionUngateDone (p : Fin 16) (s : State) : Result :=
  .next (if s.dueOn p.val then s.ungateNow p.val else s)

/-- FABRIC_CLOCK_REGATE (R349). -/
def execFabricClockRegate (s : State) : Result :=
  .next (if s.pwr.pstate == 2 && s.net.reqs.isEmpty && decide (s.pwr.lastFabric + 1000000 ≤ s.now) then
    { s with pwr := { s.pwr with fabricGated := true } } else s)

-- Rails and LDOs (R340, R342, R351 to R353) ----------------------------------------------------------------------------------

/-- The highest step whose table voltage, plus 50 mV, a measured rail supports on every partition of a cluster (R342). -/
def State.railStep (s : State) (c mV : Nat) : Nat :=
  ((List.range 53).filter (fun k => (List.range 4).all (fun j => decide (s.vf (4 * c + j) k + 50 ≤ mV)))).getLast?.getD 0

/-- RAIL_LOW (R342): the cluster's cap, the event, and the contracts whose floor lies above it. -/
def execRailLow (c : Fin 4) (mV : Nat) (s : State) : Result :=
  let k := s.railStep c.val mV
  let s1 := s.updCluster c.val (fun x => { x with railLow := true, railCap := some k })
  let s2 := s1.powerEvent Ev.railLow c.val (leBytes 1 c.val ++ leBytes 2 (stepMhz k)) true
  .next s2.reassess.riskScan

/-- RAIL_LOW_CLEAR (R342). -/
def execRailLowClear (c : Fin 4) (s : State) : Result :=
  .next (s.updCluster c.val (fun x => { x with railLow := false, railCap := none })).reassess.riskScan

/-- LDO_SETTLED (R340): the output holds the voltage of the ordered step, which takes effect; in a group once every
member's does (02 R44; log entry 18). -/
def execLdoSettled (p : Fin 16) (s : State) : Result :=
  .next (match (s.part p.val).stepWanted with
    | none => s
    | some k =>
      let s1 := s.updPart p.val (fun x => { x with ldoMv := (s.setpoint p.val k).toNat, ldoSettled := true, downAt := none })
      (s1.groupOf p.val).foldl (fun t q => match (t.part q).stepWanted with
        | some j => t.orderStep q j
        | none => t) s1)

/-- A trim moved one step of 5 mV, within 50 mV of the table value (R353). -/
def trimMoved (t : Int) (up : Bool) : Int := if up then min 50 (t + 5) else max (-50) (t - 5)

/-- VOLTAGE_TRIM (R351, R353): at most one step per 10 µs; the output follows a setpoint that it held. -/
def execVoltageTrim (p : Fin 16) (up : Bool) (s : State) : Result :=
  let x := s.part p.val
  .next (if x.state == .gated || (x.trimAt != 0 && decide (s.now < x.trimAt + 10000)) then s
    else
      let held := decide ((s.ldoNow p.val : Int) = s.setpoint p.val x.step)
      let s1 := s.updPart p.val (fun x => { x with trimMv := trimMoved x.trimMv up, trimAt := s.now })
      if held then s1.updPart p.val (fun x => { x with ldoMv := (s1.setpoint p.val x.step).toNat, downAt := none }) else s1)

/-- The read-assist setting of a bank pair: the loop's, or the one that the calibration gives (R351, 19 R403, R405). -/
def State.assist (s : State) (p pair : Nat) : Nat :=
  tabGetD (s.part p).assistSet pair (if s.cal.valid then field s.cal.record (0x780 + 16 * p + pair) 1 % 8 else 7)

/-- READ_ASSIST_STEP (R351): at most one change per 100 µs and bank pair; the safe tables hold setting 7 (19 R405). -/
def execReadAssistStep (p pair : Fin 16) (setting : Fin 8) (s : State) : Result :=
  let recent := match tabGet (s.part p.val).assistAt pair.val with
    | some t => decide (s.now < t + 100000)
    | none => false
  .next (if recent || !s.cal.valid || (s.part p.val).state == .gated then s
    else s.updPart p.val (fun x => { x with assistSet := tabSet x.assistSet pair.val setting.val,
                                            assistAt := tabSet x.assistAt pair.val s.now }))

/-- A fast boost (R351, R352): the LDO output rises by 25 mV, to at most 50 mV above its setpoint, and is counted. -/
def State.boost (s : State) (p : Nat) : State :=
  let top := (s.setpoint p (s.part p).step).toNat + 50
  let now_ := s.ldoNow p
  if now_ < top then s.updPart p (fun x => { x with ldoMv := min (now_ + 25) top, downAt := none,
                                                     boosts := min (x.boosts + 1) 0xFFFF })
  else s

/-- Cycles of a partition clock in a 10 µs interval (R352). -/
def intervalCycles (mhz : Nat) : Nat := 10 * mhz

/-- CRITICAL_PATH_MONITOR_REPORT (R352): each cycle of the report is lengthened by 1/8, by at most 1/32 of a 10 µs
interval; a report that lasts beyond the allowance boosts the LDO, or goes on stretching while the LDO is in dropout. -/
def execCriticalPathMonitorReport (p : Fin 16) (cycles : Nat) (s : State) : Result :=
  let x := s.part p.val
  .next (if x.state == .gated || x.clkMhz == 0 || cycles == 0 then s
    else
      let fresh := decide (x.stretchFrom + 10000 ≤ s.now)
      let from_ := if fresh then s.now else x.stretchFrom
      let used := if fresh then 0 else x.stretched
      let total := intervalCycles x.clkMhz
      let low := (s.cluster (p.val / 4)).railLow
      let after := if low then used + cycles else min (used + cycles) (max used (total / 4))
      let part := if after * 128 % total = 0 then after * 128 / total else Config.round (after * 128) total
      let s1 := (s.groupOf p.val).foldl (fun t q => t.updPart q (fun y => { y with
        stretchFrom := from_, stretched := after, maxStretch := max y.maxStretch part })) s
      if !low && decide (total / 4 < used + cycles) then s1.boost p.val else s1)

-- Temperature (R354, R355) ------------------------------------------------------------------------------------------------------

/-- A thermal trip suspends every contract: with its event where the trip is an L2 source, without one where the reset
releases the contracts (09 R202). -/
def State.tripContracts (s : State) : State :=
  if s.levelOf 11 = 2 then s.suspendAll 1
  else { s with contracts := tabMap s.contracts (fun _ k =>
    if k.state == .admitted || k.state == .atRisk then { k with state := .suspended } else k) }

/-- A thermal trip (R355): every partition at step 0, THERM_TRIP_N low, the latched alert, the reset source. -/
def State.trip (s : State) : State :=
  let s1 := { s with pwr := { s.pwr with tripped := true, tripAt := s.now }, pins := { s.pins with thermTripN := false } }
  let s2 := (List.range 16).foldl (fun t p => if (t.part p).state == .gated then t else t.orderStep p 0) s1.tripContracts
  alerted s ((s2.latchAlert alertTrip).actSource 11 0)

/-- The trip condition has ended: every sensor below 100.0 °C (R355). -/
def State.releaseTrip (s : State) : State :=
  alerted s { s with pwr := { s.pwr with tripped := false }, pins := { s.pins with thermTripN := true } }

/-- THERMAL_SAMPLE (R354, R355): a trip at the second of two consecutive samples with a sensor at 110.0 °C or above. -/
def execThermalSample (temps : List Int) (s : State) : Result :=
  .next (if temps.length ≠ 24 then s
    else
      let hot := temps.any (fun t => decide (1100 ≤ t))
      let s1 := { s with pwr := { s.pwr with sensors := temps, lastHot := hot } }
      if s.pwr.tripped then (if temps.all (fun t => decide (t < 1000)) then s1.releaseTrip else s1)
      else if hot && s.pwr.lastHot then s1.trip
      else s1)

/-- The ceiling of a cluster after one evaluation (R354). -/
def ceilingMoved (limit hottest : Int) (ceiling : Nat) : Nat :=
  if limit + 50 ≤ hottest then max 300 (ceiling - 200)
  else if limit ≤ hottest then max 300 (ceiling - 50)
  else if hottest ≤ limit - 30 then min 1600 (ceiling + 25)
  else ceiling

/-- A cluster is held: its ceiling lies below the clock that the CBA would give a busy partition without it (R354). -/
def State.isHeld (s : State) (free : List Job) (c : Nat) : Bool :=
  free.any (fun j => j.part / 4 == c && decide ((s.cluster c).ceiling < stepMhz j.step))

/-- THERMAL_HOLD or THERMAL_RELEASE of a cluster whose held state changed. -/
def State.holdEvent (s : State) (c : Nat) (held : Bool) : State :=
  if (s.cluster c).held = held then s
  else
    let t := s.updCluster c (fun x => { x with held := held })
    if held then t.powerEvent Ev.thermalHold c
      (leBytes 1 c ++ leBytes 2 (s.cluster c).ceiling ++ leBytes 2 (i16 (s.clusterMax c))) true
    else t.powerEvent Ev.thermalRelease c (leBytes 1 c) false

/-- The thermal limit on the budget after one ms (R354). -/
def State.thermalLimit (s : State) (held : Bool) : Nat :=
  if !held then 30000
  else if s.pwr.thermalHold then (if s.pwr.thermalMw ≤ 1500 then s.pwr.thermalMw else max 1500 (s.pwr.thermalMw - 250))
  else s.telemetry 0

/-- Each cluster's loop evaluated: ceilings, held clusters, the thermal limit, the clocks and contracts they govern. -/
def State.thermalLoops (s : State) : State :=
  let cs := List.range 4
  let limit : Int := s.setting 0x5002 1
  let s1 := cs.foldl (fun t c => t.updCluster c (fun x => { x with ceiling := ceilingMoved limit (s.clusterMax c) x.ceiling })) s
  let free := s1.choose false
  let s2 := cs.foldl (fun t c => t.holdEvent c (s1.isHeld free c)) s1
  let held := cs.any (fun c => (s2.cluster c).held)
  let s3 := { s2 with pwr := { s2.pwr with thermalMw := s.thermalLimit held, thermalHold := held } }
  alerted s s3.reassess.riskScan

/-- THERMAL_EVALUATE (R354). -/
def execThermalEvaluate (s : State) : Result := .next s.thermalLoops

-- PWR_CAP_N (R360) ----------------------------------------------------------------------------------------------------------------

/-- A pulse acts: below `lo` ns it is ignored, from `hi` ns on it acts, and between them either may be (20 R434; log
entry 2). -/
def State.pulseActs (s : State) (ns lo hi : Nat) : Bool × State :=
  if ns < lo then (false, s) else if hi ≤ ns then (true, s) else (Config.freeBool s.freeCount, s.useFree)

/-- PWR_CAP_N at a level: the CBA reassesses, and contracts are compared with it (R360, 09 R201). -/
def State.setCap (s : State) (high : Bool) : State :=
  alerted s (State.reassess { s with pins := { s.pins with pwrCapN := high } }).riskScan

/-- PWR_CAP_N_FALL (R360, 20 R434): a pulse below 20 ns is ignored, one of 50 ns acts. -/
def execPwrCapNFall (ns : Nat) (s : State) : Result :=
  .next (if !s.pins.pwrGood || !s.pins.pwrCapN then s
    else
      let r := s.pulseActs ns 20 50
      if r.1 then r.2.setCap false else r.2)

/-- PWR_CAP_N_RISE (R360). -/
def execPwrCapNRise (s : State) : Result := .next (if s.pins.pwrCapN then s else s.setCap true)

-- Telemetry (R362) ------------------------------------------------------------------------------------------------------------------

/-- LIMITS of the mirror. -/
def State.limitsWord (s : State) : Nat :=
  let per (f : Cluster → Bool) : Nat := ((List.range 4).map (fun c => b2n (f (s.cluster c)) * 2 ^ c)).sum
  b2n (!s.pins.pwrCapN) + b2n s.pwr.budgetUnmet * 2 + per (·.held) * 4 + per (·.railLow) * 64 + s.pwr.pstate * 1024

/-- The read-assist field of PART_PWR: the setting of every bank pair where they agree; otherwise which is shown is open
(log entry 2). -/
def State.assistShown (s : State) (p : Nat) : Nat :=
  let a := s.assist p 0
  if (List.range 16).all (fun k => s.assist p k == a) then a else (Config.freeWord (s.freeCount + p)).toNat % 8

/-- PART_PWR of a partition. -/
def State.partPower (s : State) (p : Nat) : Nat :=
  let x := s.part p
  x.step + s.ldoNow p % 1024 * 64 + x.grant.getD 0 * 65536 + b2n x.grant.isSome * 524288 + b2n (x.state == .gated) * 1048576
    + s.assistShown p * 2097152

/-- CL_CEIL of a cluster. -/
def State.ceilWord (s : State) (c : Nat) : Nat := (s.cluster c).ceiling + i16 (s.clusterMax c) * 65536

/-- The words of the mirror that show the state of the loops and of the CBA. -/
def State.loopWords (s : State) : List (Nat × Nat) :=
  [(0x4, s.budgetInForce), (0xC, s.limitsWord),
    (0x10, s.pwr.energy.toNat % 4294967296), (0x14, s.pwr.energy.toNat / 4294967296)]
  ++ (List.range 4).map (fun c => (0x40 + 4 * c, s.ceilWord c))
  ++ (List.range 24).map (fun k => (0x80 + 4 * k, i16 (s.pwr.sensors.getD k 0)))
  ++ (List.range 16).map (fun p => (0x100 + 4 * p, s.partPower p))
  ++ (List.range 16).map (fun p => (0x140 + 4 * p, (s.part p).boosts + (s.part p).maxStretch * 65536))

/-- The words of the mirror that are measurements: package, the four cluster rails, the fabric rail, and the 33
instances, in mW. -/
def measWords (meas : List Nat) : List (Nat × Nat) :=
  [(0x0, meas.getD 0 0)] ++ (List.range 4).map (fun c => (0x20 + 4 * c, meas.getD (1 + c) 0)) ++ [(0x30, meas.getD 5 0)]
  ++ (List.range 33).map (fun n => (0x180 + 4 * n, meas.getD (6 + n) 0))

/-- The clock steps that the CBA grants now, as draws: the sum of counted draws of granted tiles (R356). -/
def State.drawNow (s : State) : Nat :=
  drawOf ((s.jobs true).map (fun j => { j with step := (s.part j.part).step }))

/-- TELEMETRY_UPDATE (R362): 39 measured powers and the energy since the last update in mJ, in the order of `measWords`. -/
def execTelemetryUpdate (meas : List Nat) (s : State) : Result :=
  .next (if meas.length ≠ 40 then s
    else
      let s1 := { s with pwr := { s.pwr with energy := s.pwr.energy + BitVec.ofNat 64 (meas.getD 39 0) } }
      let words := s1.loopWords ++ [(0x8, mwOf s1.drawNow)] ++ measWords meas
      { s1 with
        freeCount := s1.freeCount + 16
        pwr := { s1.pwr with mirror := words.foldl (fun t e => tabSet t e.1 (e.2 % 4294967296)) s1.pwr.mirror } })

-- Topcoat's reads (09 R198, 14 R312) -----------------------------------------------------------------------------------------------------

/-- DICT_REFRESH (14 R312). -/
def execDictRefresh (s : State) : Result := .next (if s.serving then s.refreshMirror else s)

/-- MISSED of one contract from its late entries: their count, the largest lateness and its SEQ (09 R198); none for a contract that is
SUSPENDED (09 R199) or whose instance is FREEZING or FROZEN (12 R255). -/
def State.missedEvent (s : State) (log : List LogEntry) (id : Nat) : State :=
  let mine : List LogEntry := log.filter (fun e => e.contract == id && !e.early && decide (0 < e.lateness))
  let quiet := match tabGet s.contracts id with
    | some k => k.state == CState.suspended || s.freezes k.inst
    | none => false
  match mine, quiet with
  | [], _ => s
  | _, true => s
  | e :: t, false =>
    let worst := t.foldl (fun a b => if a.lateness < b.lateness then b else a) e
    s.event Ev.missed e.inst true true
      (leBytes 2 id ++ leBytes 4 mine.length ++ leBytes 8 worst.lateness ++ leBytes 4 worst.seq.toNat)

/-- RELEASE_EARLY of one entry of the log (09 R198). -/
def State.earlyEvent (s : State) (e : LogEntry) : State :=
  if e.early then s.event Ev.releaseEarly e.inst true true (leBytes 2 e.contract ++ leBytes 4 e.seq.toNat) else s

/-- The contract log read and its events raised (09 R198). -/
def State.readLog (s : State) : State :=
  let log := s.fep.log
  let s1 := { s with fep := { s.fep with log := [] } }
  let s2 := (log.map (·.contract)).eraseDups.foldl (fun t id => t.missedEvent log id) s1
  (log.foldl State.earlyEvent s2).riskScan

/-- CONTRACT_LOG_READ (09 R198). -/
def execContractLogRead (s : State) : Result := .next (if s.serving then s.readLog else s)

end Sys2Proof.Machine
end

