-- ==== Sys2Proof/Machine/Resets.lean ====
section
/-! DEFINITION. Resets at L0 and L1 (17 R364 to R376), the pins that start and hold them (20 R433, R434), L3 and L5 resets
(11 R240, 02 R51), and the JTAG test access port (20 R440, R441). -/

namespace Sys2Proof.Machine
open Sys2Proof

-- What a wide reset keeps (R365, R366) ---------------------------------------------------------------------------------------

/-- A partition after an L0 or L1 reset: gated; the counters since L0 stay through L1 (02 R48, 14 R310, 16 R362). -/
def Part.wiped (x : Part) (l0 : Bool) : Part :=
  if l0 then {}
  else { mcCount := x.mcCount, ceCount := x.ceCount, satCount := x.satCount, overruns := x.overruns, boosts := x.boosts,
         maxStretch := x.maxStretch }

/-- A cluster after an L0 or L1 reset: four singles; the thermal ceiling stays through L1 (R354). -/
def Cluster.wiped (x : Cluster) (l0 : Bool) : Cluster := if l0 then {} else { ceiling := x.ceiling }

/-- The always-on I/O node: through L1 only the segmented sessions end (13 R270, R285, R290). -/
def Link.wiped (x : Link) (l0 : Bool) : Link :=
  if l0 then { staticAddr := x.staticAddr }
  else { x with linkSession := none, hostSession := none,
                linkEnded := if x.linkSession.isSome then abSegAborted else x.linkEnded,
                hostEnded := if x.hostSession.isSome then abSegAborted else x.hostEnded }

/-- The thermal sensors and what they hold; the energy since L0 stays through L1 (R355, R362). -/
def Power.wiped (x : Power) (l0 : Bool) : Power :=
  { sensors := x.sensors, lastHot := x.lastHot, tripped := x.tripped, tripAt := x.tripAt, energy := if l0 then 0 else x.energy }

/-- Dictionary state: the telemetry counters and latched ALERT bits stay through L1 (14 R299, R310). -/
def Dict.wiped (x : Dict) (l0 : Bool) : Dict :=
  if l0 then {}
  else { alertLatched := x.alertLatched, memBytes := x.memBytes, memCe := x.memCe, memUe := x.memUe }

/-- The host link is down; DOWN_COUNT counts it through L1 (05 R111). -/
def HostLink.wiped (x : HostLink) (l0 : Bool) : HostLink :=
  if l0 then {} else { downCount := if x.up then satInc x.downCount else x.downCount }

/-- The state that an L0 (`l0`) or L1 reset leaves when it has entered (R366, R374): the blocks that it reaches at their
reset values, no drain, no record, no event. -/
def State.wiped (s : State) (l0 : Bool) : State :=
  { clk := if l0 then { s.clk with alive := false } else s.clk
    pins := { s.pins with devReady := false, wakeN := true }
    rst := { s.rst with acting := [], counts := if l0 then [] else s.rst.counts }
    insts := [(0, { mmu := { bypass := true } })]
    parts := tabMap s.parts (fun _ x => x.wiped l0)
    clusters := tabMap s.clusters (fun _ x => x.wiped l0)
    skims := tabMap s.skims (fun _ x => if l0 then {} else { detCount := x.detCount })
    link := s.link.wiped l0
    mgc := { orphanCount := if l0 then 0 else s.mgc.orphanCount }
    bus := s.bus.wiped l0
    dict := s.dict.wiped l0
    keep := s.keep
    pwr := s.pwr.wiped l0
    abrt := { rounds := if l0 then 0 else s.abrt.rounds }
    tap := s.tap
    freeCount := s.freeCount
    pending := s.pending }

/-- An L0 or L1 reset entered (R369, R370, R374): the keep-store engine abandons its list, RST_LAST and RST_TIME record
the source, and the reset is held. -/
def State.enterWide (s : State) (lvl source at_ absorbed : Nat) : State :=
  let l0 := lvl == 0
  let s1 := s.tearOp.wiped l0
  let s2 := { s1 with rst := { s1.rst with
    phase := .hold, level := lvl, source := source, startedAt := at_, lastSource := BitVec.ofNat 8 source,
    lastLevel := BitVec.ofNat 4 lvl, absorbed := BitVec.ofNat 8 (min absorbed 255),
    rstTime := if l0 then 0 else BitVec.ofNat 64 at_ } }
  if l0 then s2 else s2.countReset 1

-- Sources that meet (R370) -----------------------------------------------------------------------------------------------------

/-- Sources that have acted at a level, lowest code first. -/
def State.actingAt (s : State) (lvl : Nat) : List Acting :=
  (s.rst.acting.filter (fun a => s.levelOf a.source == lvl)).mergeSort (fun a b => decide (a.source ≤ b.source))

/-- The source that an L0 or L1 reset starts from: the widest level, at it the lowest code. -/
def State.wideSource (s : State) : Option (Nat × Acting) :=
  match s.actingAt 0, s.actingAt 1 with
  | a :: _, _ => some (0, a)
  | [], a :: _ => some (1, a)
  | [], [] => none

/-- The reset running gives way to a level: nothing runs, L2 runs, or L1 runs and L0 comes. -/
def State.givesWay (s : State) (lvl : Nat) : Bool := !s.wideRuns || (s.rst.level == 1 && lvl == 0)

/-- L1_RESET (R370, R374): a source at level L1 or L0 that has acted starts its reset; the others are absorbed. -/
def execL1Reset (s : State) : Result :=
  .next (match s.wideSource with
    | some (lvl, a) => if s.givesWay lvl then s.enterWide lvl a.source a.at_ (s.rst.acting.length - 1) else s
    | none => s)

-- Pins (20 R433, R434) -----------------------------------------------------------------------------------------------------------

/-- Power or REFCLK lost: an L0 reset with the power-on source (R433, R434). -/
def State.powerLost (s : State) : State := s.enterWide 0 1 s.now 0

/-- The always-on domain starts: power and clock are there, and an L0 reset is held (R375). -/
def State.beginL0Exit (s : State) : State :=
  if s.rst.phase == .hold && s.rst.level == 0 && s.pins.pwrGood && s.clk.refclk then
    { s with rst := { s.rst with phase := .l0Exiting } } else s

/-- PWR_GOOD_FALL (20 R434): an L0 reset, held while the pin is low. -/
def execPwrGoodFall (ns : Nat) (s : State) : Result :=
  .next (if !s.pins.pwrGood then s
    else
      let r := s.pulseActs ns 1000 5000
      if r.1 then ({ r.2 with pins := { r.2.pins with pwrGood := false } }).powerLost else r.2)

/-- PWR_GOOD_RISE (R375). -/
def execPwrGoodRise (s : State) : Result :=
  .next (State.beginL0Exit { s with pins := { s.pins with pwrGood := true } })

/-- REFCLK_LOSS (20 R433): with PWR_GOOD high, as on a fall of PWR_GOOD. -/
def execRefclkLoss (s : State) : Result :=
  .next (if s.pins.pwrGood && s.clk.refclk then ({ s with clk := { s.clk with refclk := false } }).powerLost else s)

/-- REFCLK_RESTORED (20 R433). -/
def execRefclkRestored (s : State) : Result :=
  .next (State.beginL0Exit { s with clk := { s.clk with refclk := true } })

/-- RST_N_ASSERT (R364, 20 R434): ignored while PWR_GOOD is low; held low until RESET_HOLD_END. -/
def execRstNAssert (ns : Nat) (s : State) : Result :=
  .next (if !s.pins.pwrGood || !s.pins.rstN then s
    else
      let r := s.pulseActs ns 1000 10000
      if r.1 then ({ r.2 with pins := { r.2.pins with rstN := false } }).actSource 2 0 else r.2)

/-- PERST_N_ASSERT (R364, 20 R434): mode P only; WAKE_N is released (20 R439). -/
def execPerstNAssert (ns : Nat) (s : State) : Result :=
  .next (if !s.pins.pwrGood || !s.pins.modeP || !s.pins.perstN then s
    else
      let r := s.pulseActs ns 1000 10000
      if r.1 then ({ r.2 with pins := { r.2.pins with perstN := false, wakeN := true } }).actSource 4 0 else r.2)

-- Leaving L0 and L1 (R374, R375) ----------------------------------------------------------------------------------------------------

/-- The condition that holds the reset has ended (R355, R374): a pin is released by the command itself, a trip by
THERM_TRIP_N, a link reset when the host PHY is ready; every other source holds an L1 for 20 µs. -/
def State.holdOver (s : State) : Bool :=
  s.pins.pwrGood && s.clk.refclk && s.pins.thermTripN
    && ([2, 3, 4, 11].contains s.rst.source || s.rst.level == 0 || decide (s.rst.startedAt + 20000 ≤ s.now))

/-- The core can be reached again by requests that waited (13 R289). -/
def State.releaseHold (s : State) : State :=
  let s1 := { s with pins := { s.pins with rstN := true, perstN := true } }
  if s.rst.level = 0 then { s1 with rst := { s1.rst with phase := .l0Exiting } }
  else State.serveHeld { s1 with rst := { s1.rst with phase := .l1Exiting } }

/-- RESET_HOLD_END (R374). -/
def execResetHoldEnd (s : State) : Result :=
  .next (if s.rst.phase == .hold && s.holdOver then s.releaseHold else s)

/-- L0_EXIT (00 R4, R10, 17 R375, 20 R440): the straps are latched, DEVTIME is 0, the TAP is reset, Primer serves. -/
def execL0Exit (s : State) : Result :=
  .next (if s.rst.phase != .l0Exiting || !s.pins.pwrGood || !s.clk.refclk then s
    else { s with
      clk := { s.clk with devtime := 0, phase := 0, alive := true }
      pins := { s.pins with modeP := s.pins.hostModeStrap }
      bus := { s.bus with staticAddr := 0x3A#7 + s.pins.mgmtAddrStrap.setWidth 7, goodAt := 0 }
      tap := { s.tap with ir := 2 }
      rst := { s.rst with phase := .l1Exiting } })

/-- One stored setting of the record, where the entry is a stored one and the value lies in its range; otherwise its
default stands (14 R292). -/
def State.takeSetting (s : State) (e : Nat × Nat × List Byte) : State :=
  match entryAt e.1 e.2.1 with
  | .error _ => s
  | .ok d =>
    let v := leNat e.2.2
    if storedKeys.contains (e.1, e.2.1) && e.2.2.length == d.size && decide (d.lo ≤ v) && decide (v ≤ d.hi) then
      s.setSetting e.1 e.2.1 v else s

/-- The stored settings loaded, or every default with SETTINGS_DEFAULT (14 R292, R293). -/
def State.loadSettings (s : State) : State :=
  match s.settingsInUse with
  | none => s.latchAlert alertDefaults
  | some (seq, area) =>
    let s1 := { s with dict := { s.dict with settingsSeq := BitVec.ofNat 32 seq } }
    (settingsEntries (area.length / 4) area).foldl State.takeSetting s1

/-- The staged values taken into force: the memory configuration (14 R297) and each partition's RETIRE (14 R303). -/
def State.applySettings (s : State) : State :=
  let g (k : Nat) : Nat := s.setting 0x2000 k
  let s1 := { s with mem := { s.mem with
    memType := g 1, rate := g 2, ranks := g 3, capGiB := g 4, ecc := g 5 == 1, storeMiB := g 6 } }
  (List.range 16).foldl (fun t p =>
    if s.setting (0x3000 + p) 7 = 1 then t.updPart p (fun x => { x with retired := true }) else t) s1

/-- Partitions whose sequencer store fails its read-back at the exit of an L1 or L0 reset: STATE 4 with CAUSE 5 (02 R51). -/
def State.badStores (s : State) (bad : BitVec 16) : State :=
  s.mapParts (fun p x => if bad.getLsbD p then { x with state := .offline, mcCause := 5 } else x)

/-- L1_EXIT (R375 steps 1 to 3): Primer, the keep store, the stores, which are read back; the fabric is released. -/
def execL1Exit (bad : BitVec 16) (s : State) : Result :=
  .next (if s.rst.phase != .l1Exiting then s
    else
      let s1 := ((s.bootSelect.loadCal.loadSettings).applySettings).badStores bad
      alerted s { s1 with rst := { s1.rst with phase := .none, level := 9 } })

/-- The fabric is released: no L0 or L1 reset runs. -/
def State.released (s : State) : Bool := s.clk.alive && !s.wideRuns

/-- MEMORY_TRAINED (R375 step 4). -/
def execMemoryTrained (s : State) : Result :=
  .next (if s.released then { s with mem := { s.mem with trained := true } } else s)

/-- DEVICE_REGION_FILLED (R367, R375 steps 5 and 7): configuration requests are answered once the link is up too. -/
def execDeviceRegionFilled (s : State) : Result :=
  .next (if s.released && s.mem.trained && !s.mem.regionFilled then
    { s with mem := { s.mem with regionFilled := true }, link := { s.link with cfgReady := s.link.up } } else s)

-- L3 and L5 (11 R240, 02 R51) ----------------------------------------------------------------------------------------------------------

/-- L3_RESET (11 R240, 17 R370, 18 R391): the reset of an instance that a source asked for; it waits for ABORT_DONE of an
instance abort that runs, and behind an L2 or wider reset. -/
def execL3Reset (n : Fin 33) (s : State) : Result :=
  .next (match s.rst.acting.find? (fun a => s.levelOf a.source == 3 && a.arg == n.val) with
    | none => s
    | some a =>
      if s.l2Runs || s.wideRuns || (s.inst n.val).state == .aborting then s
      else ({ s with rst := { s.rst with acting := s.rst.acting.erase a } }).resetInstance n.val a.source)

/-- A partition whose L5 reset has ended with its store good: STATE 1, its bridge trained, contracts tested (02 R51, 10
R225). -/
def State.backInService (s : State) (p : Nat) : State :=
  let s1 := s.updPart p (fun x => { x with
    state := .idle, mcCause := 0, seq := [], faultPending := false, rstBusy := false, rstResult := 0, idleSince := s.now })
  let s2 := (s1.updBridge p (fun b => { b with fatal := false })).refillGens p
  (s2.contractsAt p).foldl State.missClear s2

/-- A partition whose L5 reset has ended in a failure: offline with a cause, RESET reads PART_MCHECK. -/
def State.keptOffline (s : State) (p cause : Nat) : State :=
  s.updPart p (fun x => { x with state := .offline, mcCause := BitVec.ofNat 4 cause, rstBusy := false, rstResult := 0x06004001#32 })

/-- L5_RESET_DONE (02 R51): an image buffer that fails leaves CAUSE 6, now and at every later reload until it is filled again; a
store that fails its read-back leaves CAUSE 5. -/
def execL5ResetDone (p : Fin 16) (storeGood bufferGood : Bool) (s : State) : Result :=
  .next (if (s.part p.val).state != .resetting then s
    else
      let s1 := s.countReset 5
      alerted s (if !bufferGood || s.cal.seqBad then ({ s1 with cal := { s1.cal with seqBad := true } }).keptOffline p.val 6
        else if !storeGood then s1.keptOffline p.val 5
        else s1.backInService p.val))

-- The test access port (20 R440, R441) ---------------------------------------------------------------------------------------------------

/-- Who controls the boundary pins. -/
inductive PinControl where
  /-- the device's functions -/
  | functions
  /-- the boundary register -/
  | boundary (cells : BitVec 64)
  /-- nobody: high impedance -/
  | highZ
  deriving DecidableEq, Repr

/-- EXTEST and CLAMP drive the pins from the boundary register, HIGHZ releases them, only while RST_N is low (R441). -/
def State.pinControl (s : State) : PinControl :=
  if s.pins.rstN then .functions
  else if s.tap.ir = 0 ∨ s.tap.ir = 3 then .boundary s.tap.boundary
  else if s.tap.ir = 4 then .highZ
  else .functions

/-- The IDCODE register (R440). -/
def idcodeWord : BitVec 32 := BitVec.ofNat 32 (Config.stepping.toNat % 16 * 268435456 + 0x1632 * 4096 + Config.jedecId.toNat * 2 + 1)

/-- The register that the TAP's instruction puts between TDI and TDO. -/
inductive TapReg where
  | boundary | idcode | bypass
  deriving DecidableEq, Repr

/-- The register selected (R440, R441): EXTEST acts as BYPASS while RST_N is high; CLAMP and HIGHZ always select the
bypass register. -/
def State.tapReg (s : State) : TapReg :=
  if s.tap.ir = 2 then .idcode
  else if s.tap.ir = 1 ∨ (s.tap.ir = 0 ∧ s.pins.rstN = false) then .boundary
  else .bypass

/-- An instruction in the TAP's instruction register. -/
def State.setIr (s : State) (ir : Nat) : State := { s with tap := { s.tap with ir := ir } }

/-- TAP_RESET (R440): IDCODE is selected. -/
def execTapReset (s : State) : Result := .next (s.setIr 2)

/-- EXTEST (R441). -/
def execExtest (s : State) : Result := .next (s.setIr 0)

/-- SAMPLE_PRELOAD (R440): the cells are captured and the boundary register preloaded. -/
def execSamplePreload (cells preload : BitVec 64) (s : State) : Result :=
  .next { s with tap := { ir := 1, boundary := preload, captured := cells } }

/-- IDCODE (R440). -/
def execIdcode (s : State) : Result := .next (s.setIr 2)

/-- CLAMP (R441). -/
def execClamp (s : State) : Result := .next (s.setIr 3)

/-- HIGHZ (R441). -/
def execHighz (s : State) : Result := .next (s.setIr 4)

/-- BYPASS (R440): and every undefined opcode. -/
def execBypass (s : State) : Result := .next (s.setIr 15)

end Sys2Proof.Machine
end

