-- ==== Sys2Proof/Machine/Recovery.lean ====
section
/-! DEFINITION. The FEP's fatal machine checks, watchdog and scrubber, the L2 reset and the rebuild from the journal (08
R173 to R183, 17 R370, R377, 18 R396, 19 R421); verification of a Topcoat image and the end of a restart (15 R320, R330). -/

namespace Sys2Proof.Machine
open Sys2Proof

-- Control-store errors, the watchdog, the scrubber (08 R173, R174, R179, R180, R183) ----------------------------------------------

/-- All threads stop, and FEP_MC records a cause (R178). -/
def State.stopFep (s : State) (cause : Nat) (addr : BitVec 12) (thread : BitVec 3) : State :=
  { s with fep := { s.fep with stopped := true, mcCause := BitVec.ofNat 4 cause, mcAddr := addr, mcThread := thread,
                               mcCount := satInc s.fep.mcCount } }

/-- The FEP stays halted until an L1 or L0 reset (R183): the alert, and FEP_HALTED for the manager. -/
def State.haltFep (s : State) (addr : BitVec 12) (cause : Nat) : State :=
  alerted s (({ s with fep := { s.fep with halted := true } }).event Ev.fepHalted 0 false true
    (leBytes 2 addr.toNat ++ leBytes 1 cause))

/-- A fatal machine check of the FEP as a reset source (R180): at L1 or L0, which take the host link down, PF0 reports an
Uncorrectable Internal Error (05 R106). -/
def State.fatalCheck (s : State) : State :=
  (if s.levelOf 10 ≤ 1 then s.aerFn false aerInternal 0 else s).actSource 10 0

/-- The same address failed again within 10 ms of the end of the recovery from its last error (R183). -/
def State.failsAgain (s : State) (addr : BitVec 12) : Bool :=
  match s.fep.lastRecovered with
  | some (a, t) => a == addr && decide (s.now < t + 10000000)
  | none => false

/-- The stored word at an address has bits upset, and thread `k` fetches it. -/
def State.fetchUpset (s : State) (k a : Nat) (flips : BitVec 137) : State :=
  let f := s.fep.upset a flips
  { s with fep := { f with threads := tabSet f.threads k { tabGetD f.threads k {} with pc := BitVec.ofNat 12 a } } }

/-- A single-bit error of the word at an address corrected, written back and counted (R173). -/
def State.correctWord (s : State) (a : Nat) : State :=
  { s with fep := { s.fep.rewrite a with ceCount := satInc s.fep.ceCount } }

/-- CONTROL_STORE_ERROR: a thread fetches a word of which stored bits are in error (R163, R173, R183): one is corrected, and more
stop every thread. -/
def execControlStoreError (addr : BitVec 12) (thread : Fin 8) (flips : BitVec 137) (s0 : State) : Result :=
  let th := BitVec.ofNat 3 thread.val
  let s := s0.fetchUpset thread.val addr.toNat flips
  .next (if !s0.fepRuns then s0
    else if s.fep.errors addr.toNat = 0 then s
    else if s.fep.errors addr.toNat = 1 then s.correctWord addr.toNat
    else if s.failsAgain addr then (s.stopFep 5 addr th).haltFep addr 5
    else
      let s1 := s.stopFep 1 addr th
      ({ s1 with fep := { s1.fep with lastError := some addr } }).fatalCheck)

/-- The scrubber's word: its address, then the next (R174). -/
def State.nextScrub (s : State) : State := { s with fep := { s.fep with scrubPtr := s.fep.scrubPtr + 1 } }

/-- A word that the scrubber rewrites from the ROM and the patch buffer (R174), or whose rewrite meets a patch buffer that fails
(R180); FEP_MC.ADDR and THREAD of CAUSE 4 are open (log entry 2). -/
def State.scrubRepair (s : State) : State :=
  if s.fep.bufferBad then
    let w := Config.freeWord s.freeCount
    (s.useFree.stopFep 4 (w.setWidth 12) (BitVec.ofNat 3 (w.toNat / 4096))).fatalCheck
  else
    let s1 := { s with fep := { s.fep.rewrite s.fep.scrubPtr.toNat with repaired := satInc s.fep.repaired } }
    s1.event Ev.fepScrubRepair 0 false true (leBytes 2 s.fep.scrubPtr.toNat)

/-- The patch buffer has an uncorrectable error from now on, where `good` is false. -/
def State.bufferRead (s : State) (good : Bool) : State :=
  { s with fep := { s.fep with bufferBad := s.fep.bufferBad || !good } }

/-- SCRUB (R174): the scrubber reads the word it stands at, of which bits may have been upset: one error is corrected, and more have
the word written again, the patch buffer answering well or not. -/
def execScrub (flips : BitVec 137) (bufferGood : Bool) (s : State) : Result :=
  let t := { s with fep := s.fep.upset s.fep.scrubPtr.toNat flips }
  .next (if !s.fepRuns then s
    else State.nextScrub (if t.fep.errors t.fep.scrubPtr.toNat = 0 then t
      else if t.fep.errors t.fep.scrubPtr.toNat = 1 then t.correctWord t.fep.scrubPtr.toNat
      else (t.bufferRead bufferGood).scrubRepair))

/-- FEP_HANG_WATCHDOG (R178 to R180): a thread without checkpoint, or an engine stall, of which ADDR and THREAD are open
(log entry 2). -/
def execFepHangWatchdog (stall : Bool) (thread : Fin 8) (addr : BitVec 12) (s : State) : Result :=
  .next (if !s.fepRuns then s
    else if stall then
      let w := Config.freeWord s.freeCount
      (s.useFree.stopFep 3 (w.setWidth 12) (BitVec.ofNat 3 (w.toNat / 4096))).actSource 9 0
    else (s.stopFep 2 addr (BitVec.ofNat 3 thread.val)).actSource 9 0)

-- Steps 1 to 3 of an L2 reset (R182) ------------------------------------------------------------------------------------------------

/-- Instances for which an L3 reset has been asked and not yet run. -/
def State.l3Waiting (s : State) : List Acting := s.rst.acting.filter (fun a => s.levelOf a.source == 3)

/-- L2_RESET (R182 step 1, 17 R369, R370): a source at L2 that has acted starts its reset, and pre-emption is requested
of every partition that runs work; the abort part of an L3 that acted with it runs at once. -/
def execL2Reset (s : State) : Result :=
  .next (match s.wideSource, s.actingAt 2 with
    | none, a :: more =>
      if s.rst.phase != .none then s
      else
        let left := s.rst.acting.filter (fun a => s.levelOf a.source != 2)
        let s1 := { s with rst := { s.rst with
          acting := left, phase := .l2Preempt, level := 2, source := a.source, startedAt := a.at_,
          lastSource := BitVec.ofNat 8 a.source, lastLevel := 2, absorbed := BitVec.ofNat 8 (min more.length 255),
          rstTime := BitVec.ofNat 64 a.at_ } }
        let s2 := (s1.countReset 2).mapParts (fun _ p =>
          if p.run.isSome && p.preempt.isNone then { p with preempt := some 0 } else p)
        s2.l3Waiting.foldl (fun t a => if (t.inst a.arg).state == .absent then t else t.beginReset a.arg a.source) s2
    | _, _ => s)

/-- A replica launch that has not saved a boundary, to be granted again from its first tile (R182 step 4). -/
def Replica.restart (r : Replica) : Replica :=
  if r.state == .granted || r.state == .running then
    { r with state := .regrant, status := St.ok, tile := 0, used := 0, saturated := false, detached := r.detached || r.skim.isSome, skim := none }
  else { r with skim := none }

/-- A partition after step 3 of R182: nothing runs on it; residency is cleared, and its sequencer store is loaded from the image
buffer (02 R47); one that a machine check took offline is back, but not one with CAUSE 5 or 6 or a bridge that gave up (02 R51, 10
R225). A buffer that fails leaves it offline with CAUSE 6 (02 R51). -/
def Part.rebuilt (x : Part) (now : Nat) (fatal bufferBad : Bool) : Part :=
  let y := { freePart now x with residency := none, seq := if bufferBad then x.seq else [] }
  if bufferBad && x.state != .gated && !(x.state == .offline && (fatal || x.mcCause == 5)) then
    { y with state := .offline, mcCause := 6, faultPending := false }
  else if x.state == .offline && !fatal && x.mcCause != 5 && x.mcCause != 6 then
    { y with state := .idle, mcCause := 0, faultPending := false }
  else y

/-- The network drained (R182 step 2): requests, tickets and waiting requests are gone; the trace buffer's control is at
reset; a host completion still to come is discarded. -/
def State.drained (s : State) : State :=
  { s with
    net := { s.net with reqs := [], out := [], loans := [], lent := [], writtenOff := [], loanQueue := [],
                        traceEn := false, traceWrap := false, traceHalf := false, traceFull := false, wptr := 0, dropped := 0 }
    mem := { s.mem with windowWait := [] }
    link := { s.link with outstanding := tabMap s.link.outstanding (fun _ h => { h with marked := true }) } }

/-- The patch buffer reloaded from the keep store where it fails (R175, 19 R421): the bank that ACTIVE_BANK names, or the
FEP halts with CAUSE 4. -/
def State.reloadBuffer (s : State) : State :=
  if !s.fep.bufferBad then s
  else if s.cal.activeBank ≤ 1 && s.bcrcOk s.cal.activeBank then
    { s with fep := { s.fep with bufferBad := false, words := fepRecords (fepSec (s.bundleBytes s.cal.activeBank)) } }
  else
    let w := Config.freeWord s.freeCount
    (s.useFree.stopFep 4 (w.setWidth 12) (BitVec.ofNat 3 (w.toNat / 4096))).haltFep (w.setWidth 12) 4

/-- The control store rebuilt from the ROM and the patch buffer, and the threads with it (R175, R182). -/
def State.rebuildStore (s : State) : State := { s with fep := { s.fep with upsets := [], threads := [] } }

/-- Steps 2 and 3 of R182: FEP_PQ shows no entry until the rebuild (R178). -/
def State.l2Stop (s : State) : State :=
  let s1 := s.mapCmds (fun c => if c.cancelled then { c with pqEntry := none }
    else { c with replicas := c.replicas.map Replica.restart, pqEntry := none })
  let s2 := s1.drained.mapParts (fun p x => x.rebuilt s.now (s.bridge p).fatal s.cal.seqBad)
  let s3 := { s2 with
    clusters := tabMap s2.clusters (fun _ c => { c with shape := 0, changing := none })
    skims := tabMap s2.skims (fun _ g => freeSkim g)
    rst := { s2.rst with phase := .l2Stopped } }
  (alerted s s3.rebuildStore.reloadBuffer).reassess

/-- L2_PREEMPT_DEADLINE (R182): 40 µs after the source acted; the stores are loaded again, from buffers that answer well or not. -/
def execL2PreemptDeadline (patchGood imageGood : Bool) (s : State) : Result :=
  .next (if s.rst.phase == .l2Preempt && decide (s.rst.startedAt + 40000 ≤ s.now) then
    ({ s.bufferRead patchGood with cal := { s.cal with seqBad := s.cal.seqBad || !imageGood } }).l2Stop else s)

-- Step 4: the rebuild (R181, R182, 18 R396) -------------------------------------------------------------------------------------------

/-- A journalled command back at stage 6 with its acceptance data (R182); its wait is read from its bytes again. -/
def Cmd.toStage6 (c : Cmd) (fmt : Nat) : Cmd :=
  let e := c.bytes.take (entrySize fmt)
  { c with
    stage := .waiting, status := St.ok, result := 0, replicas := [], pqEntry := none, chan := none, inScoreboard := false,
    progUsed := 0, progFrom := none, begun := false, waitUntil := none
    waitSem := if c.opcode = opLaunch then launchWait fmt e
      else if c.opcode = opWait then some (semIndex e, semValue e) else none }

/-- A launch that goes on from a saved boundary, or of which some replicas have ended: a relay as a whole (R182, 07 R159). -/
def goesOn (c : Cmd) : Bool :=
  c.opcode == opLaunch && c.stage == .executing && c.replicas.any (fun r => r.state == .saved || r.state == .ended)
    && (!c.relay || c.replicas.all (fun r => r.state == .saved || r.state == .ended))

/-- A command whose outcome the journal holds: a stage-5 effect, a record written or issued (R182, 18 R396); or one that
still waits at stage 6. -/
def journalled (c : Cmd) : Bool :=
  c.effectDone || c.recordsDone != 0 || c.inFlight.isSome || c.stage == .writing || c.stage == .waiting

/-- One command rebuilt (R182 step 4): an unaccepted one is fetched again, unless it is refused and its record's place is
taken; one that an abort ended is left to it. -/
def State.rebuildCmd (s : State) (c : Cmd) : State :=
  if c.cancelled then s
  else if !c.accepted then
    (if c.resv ≠ 0 then s else (s.dropCmd c.slot c.seq).dropBuild c)
  else if journalled c || goesOn c then s
  else
    let fmt := match s.queue c.slot with
      | some q => q.desc.format
      | none => 0
    let s1 := s.mapParts (fun _ p => match p.resume with
      | some r => if r.slot = c.slot ∧ r.seq = c.seq then { p with resume := none } else p
      | none => p)
    s1.setCmd (Cmd.toStage6 c fmt)

/-- A queue resumes from READ (R182). -/
def Queue.resumed (q : Queue) : Queue := { q with nextFetch := q.read, reads := 0, need := none }

/-- The numbers that RECOVERY carries: launches resumed from a saved boundary, launches granted again from the first tile,
records rewritten. -/
def State.recoveryCounts (s : State) : Nat × Nat × Nat :=
  let live := (tabVals s.cmds).filter (fun c => !c.cancelled && c.accepted)
  let run := live.filter (fun c => c.opcode == opLaunch && c.stage == .executing)
  let saved := run.filter (fun c => goesOn c && c.replicas.any (fun r => r.state == .saved))
  let again := run.filter (fun c => !(goesOn c) || c.replicas.any (fun r => r.state == .regrant))
  (saved.length, again.length, (live.filter (fun c => c.inFlight.isSome)).length)

/-- RECOVERY for the manager and every existing instance (R182, 18 R398). -/
def State.recoveryEvents (s : State) (counts : Nat × Nat × Nat) : State :=
  let body := leBytes 1 s.rst.source ++ leBytes 1 2 ++ leBytes 8 s.rst.startedAt ++ leBytes 2 counts.1
    ++ leBytes 2 counts.2.1 ++ leBytes 2 counts.2.2
  let s1 := s.event Ev.recovery 0 false true body
  ((List.range 33).filter (fun n => n != 0 && (s1.inst n).state != .absent)).foldl
    (fun t n => t.event Ev.recovery n true false body) s1

/-- A doorbell half that was coalesced during the reset, recorded now (R181). -/
def State.replayBell (s : State) (b : Nat × Nat × Bool × BitVec 32) : State :=
  match s.slotOf b.1 b.2.1 with
  | some slot => s.doorbellHalf slot b.2.2.1 b.2.2.2
  | none => s

/-- The FEP's state rebuilt (R182 step 4). -/
def State.rebuilt (s : State) : State :=
  let s1 := (tabVals s.cmds).foldl State.rebuildCmd s
  { s1 with queues := tabMap s1.queues (fun _ q => q.resumed)
            fep := { s1.fep with rrNext := 0, stopped := false } }

/-- L5 resets that were asked for during the reset (17 R370). -/
def State.l5Waiting (s : State) : List Acting := s.rst.acting.filter (fun a => s.levelOf a.source == 5)

/-- L5 resets begun. -/
def State.runL5s (s : State) (l : List Acting) : State := l.foldl (fun t a => t.startL5 a.arg) s

/-- The reset has ended: fetching resumes, RECOVERY is sent, what waited for the end runs, and contracts that were at risk
for a partition now back in service are tested (R182 step 5, R183, 17 R370, 02 R51, 09 R199, R202). -/
def State.l2End (s : State) : State :=
  let counts := s.recoveryCounts
  let s1 := s.rebuilt
  let s2 := { s1 with
    rst := { s1.rst with phase := .none, level := 9, acting := s1.rst.acting.filter (fun a => s1.levelOf a.source != 5) }
    fep := { s1.fep with heldBells := [], lastError := none, lastRecovered := match s1.fep.lastError with
      | some a => some (a, s1.now)
      | none => s1.fep.lastRecovered } }
  let s3 := s1.fep.heldBells.foldl State.replayBell s2
  let s4 := s3.recoveryEvents counts
  let s5 := s4.runL5s s1.l5Waiting
  if s.rst.source = 11 then s5.retestAll 1 else s5.riskScan

/-- The reset ends with the FEP halted (19 R421): nothing is rebuilt. -/
def State.l2Halted (s : State) : State :=
  State.runL5s { s with rst := { s.rst with phase := .none, level := 9,
                                            acting := s.rst.acting.filter (fun a => s.levelOf a.source != 5) } } s.l5Waiting

/-- L2_REBUILD (R182 steps 4 and 5): after a thermal trip, once THERM_TRIP_N is released (17 R377). -/
def execL2Rebuild (s : State) : Result :=
  .next (if s.rst.phase != .l2Stopped || (s.rst.source == 11 && !s.pins.thermTripN) then s
    else if s.fep.halted then s.l2Halted else s.l2End)

-- The management core (15 R320, R330, R331) ---------------------------------------------------------------------------------------------

/-- What Primer hashes at a load and at a restart. -/
def State.sramDigest (s : State) : List Byte := Config.sha384 (s.sramBytes 524288)

/-- FW_VERIFY_DONE (15 R320): the first check that fails, or the image starts: cold after an L0 or L1 reset, otherwise as a
restart with cause RELOAD. -/
def execFwVerifyDone (s : State) : Result :=
  .next (if s.mgc.fw != .verify then s
    else
      let r := imageFault s.image s.mgc.loadLen.toNat
      if r ≠ 0 then s.loadFails r
      else
        let s1 := { s with mgc := { s.mgc with digest := s.sramDigest, ifRev := BitVec.ofNat 16 (field s.image 4 2) } }
        alerted s (if s.mgc.started then s1.reload else s1.coldStart))

/-- The timer of a segmented session stops for the length of a restart (13 R290). -/
def Session.shifted (x : Session) (by_ : Nat) : Session := { x with lastAt := x.lastAt + by_ }

/-- Both sessions' timers shifted. -/
def State.shiftSessions (s : State) (by_ : Nat) : State :=
  { s with bus := { s.bus with linkSession := s.bus.linkSession.map (·.shifted by_), hostSession := s.bus.hostSession.map (·.shifted by_) } }

/-- Topcoat serves again (15 R329, R330). -/
def State.restarted (s : State) : State :=
  let s1 := ({ s with mgc := { s.mgc with fw := .running } }).shiftSessions (s.now - s.mgc.restartAt)
  (s1.refreshMirror.serveHeld.takeUp).primerStack.restartEvent

/-- Topcoat is not started again (15 R331): LOAD_WAIT, DEV_READY falls, Primer serves the link. -/
def State.waitForLoad (s : State) : State :=
  State.serveHeld { s with mgc := { s.mgc with fw := .loadWait }, pins := { s.pins with devReady := false } }

/-- MGC_RESTART_COMPLETE (15 R330, R331). -/
def execMgcRestartComplete (s : State) : Result :=
  .next (if s.mgc.fw != .restarting then s
    else if s.mgc.digest != s.sramDigest || s.thirdRestart then s.waitForLoad else s.restarted)

end Sys2Proof.Machine
end

