-- ==== Sys2Proof/Machine/Dispatch.lean ====
section
/-! DEFINITION. The dispatch: one arm per command, each one call of the command's meaning. -/

namespace Sys2Proof.Machine
open Sys2Proof

/-- The effect of a command on everything but the queue of waiting commands. -/
def exec (i : Instr) (s : State) : Host.Outcome State Fault Refusal :=
  match i with
  | .registerWrite fn config poisoned off data => Sys2Proof.Machine.execRegisterWrite fn config poisoned off data s
  | .doorbellWrite fn off data => Sys2Proof.Machine.execDoorbellWrite fn off data s
  | .doorbell fn q high value => Sys2Proof.Machine.execDoorbell fn q high value s
  | .heartbeatWrite value => Sys2Proof.Machine.execHeartbeatWrite value s
  | .fwBegin => Sys2Proof.Machine.execFwBegin s
  | .fwCommit => Sys2Proof.Machine.execFwCommit s
  | .fwVerifyDone => Sys2Proof.Machine.execFwVerifyDone s
  | .swReset value => Sys2Proof.Machine.execSwReset value s
  | .abortQueue n q byManager => Sys2Proof.Machine.execAbortQueue n q byManager s
  | .abortInstance n byManager => Sys2Proof.Machine.execAbortInstance n byManager s
  | .mmuInvalidateRange n value => Sys2Proof.Machine.execMmuInvalidateRange n value s
  | .mmuInvalidateAll n value => Sys2Proof.Machine.execMmuInvalidateAll n value s
  | .invalidationDone n => Sys2Proof.Machine.execInvalidationDone n s
  | .prbCtlWrite k value => Sys2Proof.Machine.execPrbCtlWrite k value s
  | .traceCtlWrite value => Sys2Proof.Machine.execTraceCtlWrite value s
  | .netTmoWrite hostLimit value => Sys2Proof.Machine.execNetTmoWrite hostLimit value s
  | .emuWrite fn off value => Sys2Proof.Machine.execEmuWrite fn off value s
  | .emuWriteApply fn => Sys2Proof.Machine.execEmuWriteApply fn s
  | .emuRead fn off size => Sys2Proof.Machine.execEmuRead fn off size s
  | .shadowPublish fn => Sys2Proof.Machine.execShadowPublish fn s
  | .msixVectorUnmask fn vector => Sys2Proof.Machine.execMsixVectorUnmask fn vector s
  | .mailboxDoorbell fn value => Sys2Proof.Machine.execMailboxDoorbell fn value s
  | .nopMessage mb h payload => Sys2Proof.Machine.execNopMessage mb h payload s
  | .queueCreate mb h payload => Sys2Proof.Machine.execQueueCreate mb h payload s
  | .queueDestroy mb h payload => Sys2Proof.Machine.execQueueDestroy mb h payload s
  | .queueReset mb h payload => Sys2Proof.Machine.execQueueReset mb h payload s
  | .semSet mb h payload => Sys2Proof.Machine.execSemSet mb h payload s
  | .graphRegister mb h payload host => Sys2Proof.Machine.execGraphRegister mb h payload host s
  | .graphRelease mb h payload => Sys2Proof.Machine.execGraphRelease mb h payload s
  | .graphQuery mb h payload => Sys2Proof.Machine.execGraphQuery mb h payload s
  | .contractAdmit mb h payload => Sys2Proof.Machine.execContractAdmit mb h payload s
  | .contractRelease mb h payload => Sys2Proof.Machine.execContractRelease mb h payload s
  | .contractQuery mb h payload => Sys2Proof.Machine.execContractQuery mb h payload s
  | .instanceInfo mb h payload => Sys2Proof.Machine.execInstanceInfo mb h payload s
  | .mailboxClose mb h payload => Sys2Proof.Machine.execMailboxClose mb h payload s
  | .instanceCreate mb h payload => Sys2Proof.Machine.execInstanceCreate mb h payload s
  | .instanceQuiesce mb h payload => Sys2Proof.Machine.execInstanceQuiesce mb h payload s
  | .instanceRemove mb h payload => Sys2Proof.Machine.execInstanceRemove mb h payload s
  | .instanceReset mb h payload => Sys2Proof.Machine.execInstanceReset mb h payload s
  | .partAssign mb h payload => Sys2Proof.Machine.execPartAssign mb h payload s
  | .partRevoke mb h payload => Sys2Proof.Machine.execPartRevoke mb h payload s
  | .roleBind mb h payload => Sys2Proof.Machine.execRoleBind mb h payload s
  | .roleUnbind mb h payload => Sys2Proof.Machine.execRoleUnbind mb h payload s
  | .freeze mb h payload => Sys2Proof.Machine.execFreeze mb h payload s
  | .freezeComplete n => Sys2Proof.Machine.execFreezeComplete n s
  | .freezeTimeout n => Sys2Proof.Machine.execFreezeTimeout n s
  | .save mb h payload => Sys2Proof.Machine.execSave mb h payload s
  | .restore mb h payload host sections => Sys2Proof.Machine.execRestore mb h payload host sections s
  | .thaw mb h payload => Sys2Proof.Machine.execThaw mb h payload s
  | .attach mb h payload => Sys2Proof.Machine.execAttach mb h payload s
  | .dictTunnel mb h payload => Sys2Proof.Machine.execDictTunnel mb h payload s
  | .flr fn => Sys2Proof.Machine.execFlr fn s
  | .vfEnableClear => Sys2Proof.Machine.execVfEnableClear s
  | .vfEnableSet => Sys2Proof.Machine.execVfEnableSet s
  | .numVfsWrite value => Sys2Proof.Machine.execNumVfsWrite value s
  | .d3hotEntry fn => Sys2Proof.Machine.execD3hotEntry fn s
  | .d0Return fn => Sys2Proof.Machine.execD0Return fn s
  | .atsInvalidate fn page => Sys2Proof.Machine.execAtsInvalidate fn page s
  | .atsInvalidateComplete fn page => Sys2Proof.Machine.execAtsInvalidateComplete fn page s
  | .hostCompletion tag status poisoned data => Sys2Proof.Machine.execHostCompletion tag status poisoned data s
  | .hostCplTimeout tag => Sys2Proof.Machine.execHostCplTimeout tag s
  | .linkDown toL2 => Sys2Proof.Machine.execLinkDown toL2 s
  | .hotReset => Sys2Proof.Machine.execHotReset s
  | .linkActive speed width ucie => Sys2Proof.Machine.execLinkActive speed width ucie s
  | .pwrGoodRise => Sys2Proof.Machine.execPwrGoodRise s
  | .pwrGoodFall ns => Sys2Proof.Machine.execPwrGoodFall ns s
  | .rstNAssert ns => Sys2Proof.Machine.execRstNAssert ns s
  | .perstNAssert ns => Sys2Proof.Machine.execPerstNAssert ns s
  | .pwrCapNFall ns => Sys2Proof.Machine.execPwrCapNFall ns s
  | .pwrCapNRise => Sys2Proof.Machine.execPwrCapNRise s
  | .refclkLoss => Sys2Proof.Machine.execRefclkLoss s
  | .thermalSample temps => Sys2Proof.Machine.execThermalSample temps s
  | .thermalEvaluate => Sys2Proof.Machine.execThermalEvaluate s
  | .tapReset => Sys2Proof.Machine.execTapReset s
  | .extest => Sys2Proof.Machine.execExtest s
  | .samplePreload cells preload => Sys2Proof.Machine.execSamplePreload cells preload s
  | .idcode => Sys2Proof.Machine.execIdcode s
  | .clamp => Sys2Proof.Machine.execClamp s
  | .highz => Sys2Proof.Machine.execHighz s
  | .bypass => Sys2Proof.Machine.execBypass s
  | .responseRead => Sys2Proof.Machine.execResponseRead s
  | .read path f => Sys2Proof.Machine.execRead path f s
  | .write path f => Sys2Proof.Machine.execWrite path f s
  | .writeCond path f => Sys2Proof.Machine.execWriteCond path f s
  | .segReadStart path f => Sys2Proof.Machine.execSegReadStart path f s
  | .segRead path f => Sys2Proof.Machine.execSegRead path f s
  | .segWriteStart path f => Sys2Proof.Machine.execSegWriteStart path f s
  | .segWrite path f => Sys2Proof.Machine.execSegWrite path f s
  | .segAbort path f => Sys2Proof.Machine.execSegAbort path f s
  | .segSessionTimeout path => Sys2Proof.Machine.execSegSessionTimeout path s
  | .enec => Sys2Proof.Machine.execEnec s
  | .disec => Sys2Proof.Machine.execDisec s
  | .rstdaa => Sys2Proof.Machine.execRstdaa s
  | .entdaa addr => Sys2Proof.Machine.execEntdaa addr s
  | .setdasa addr => Sys2Proof.Machine.execSetdasa addr s
  | .setnewda addr => Sys2Proof.Machine.execSetnewda addr s
  | .getPid => Sys2Proof.Machine.execGetPid s
  | .getBcr => Sys2Proof.Machine.execGetBcr s
  | .getDcr => Sys2Proof.Machine.execGetDcr s
  | .getStatus => Sys2Proof.Machine.execGetStatus s
  | .getMwl => Sys2Proof.Machine.execGetMwl s
  | .getMrl => Sys2Proof.Machine.execGetMrl s
  | .mgmtLinkLost => Sys2Proof.Machine.execMgmtLinkLost s
  | .resetReq path f => Sys2Proof.Machine.execResetReq path f s
  | .alertAck path f => Sys2Proof.Machine.execAlertAck path f s
  | .claim path f => Sys2Proof.Machine.execClaim path f s
  | .store path f => Sys2Proof.Machine.execStore path f s
  | .restoreDefault path f => Sys2Proof.Machine.execRestoreDefault path f s
  | .hostLossMs path f => Sys2Proof.Machine.execHostLossMs path f s
  | .linkLossMs path f => Sys2Proof.Machine.execLinkLossMs path f s
  | .enable path f => Sys2Proof.Machine.execEnable path f s
  | .retire path f => Sys2Proof.Machine.execRetire path f s
  | .partitionReset path f => Sys2Proof.Machine.execPartitionReset path f s
  | .privShareMbps path f => Sys2Proof.Machine.execPrivShareMbps path f s
  | .powerStateReq path f => Sys2Proof.Machine.execPowerStateReq path f s
  | .budgetMw path f => Sys2Proof.Machine.execBudgetMw path f s
  | .calRecord path value => Sys2Proof.Machine.execCalRecord path value s
  | .download path value => Sys2Proof.Machine.execDownload path value s
  | .verify path f => Sys2Proof.Machine.execVerify path f s
  | .activate path f => Sys2Proof.Machine.execActivate path f s
  | .confirm path f => Sys2Proof.Machine.execConfirm path f s
  | .keepStoreOpDone ok failAddr => Sys2Proof.Machine.execKeepStoreOpDone ok failAddr s
  | .serviceRequest => Sys2Proof.Machine.execServiceRequest s
  | .fetchRead => Sys2Proof.Machine.execFetchRead s
  | .commandCheck slot => Sys2Proof.Machine.execCommandCheck slot s
  | .relocate slot seq => Sys2Proof.Machine.execRelocate slot seq s
  | .acceptancePoint slot seq => Sys2Proof.Machine.execAcceptancePoint slot seq s
  | .nop slot seq => Sys2Proof.Machine.execNop slot seq s
  | .wait slot seq => Sys2Proof.Machine.execWait slot seq s
  | .signal slot seq => Sys2Proof.Machine.execSignal slot seq s
  | .barrier slot seq => Sys2Proof.Machine.execBarrier slot seq s
  | .copy slot seq => Sys2Proof.Machine.execCopy slot seq s
  | .fill slot seq => Sys2Proof.Machine.execFill slot seq s
  | .handleBind slot seq => Sys2Proof.Machine.execHandleBind slot seq s
  | .handleFree slot seq => Sys2Proof.Machine.execHandleFree slot seq s
  | .launchGraph slot seq => Sys2Proof.Machine.execLaunchGraph slot seq s
  | .patch slot seq => Sys2Proof.Machine.execPatch slot seq s
  | .scoreboardAdmit => Sys2Proof.Machine.execScoreboardAdmit s
  | .waitTimeout slot seq => Sys2Proof.Machine.execWaitTimeout slot seq s
  | .priorityQueueInsert slot seq => Sys2Proof.Machine.execPriorityQueueInsert slot seq s
  | .scan => Sys2Proof.Machine.execScan s
  | .grantAck p => Sys2Proof.Machine.execGrantAck p s
  | .fusionChangeComplete c => Sys2Proof.Machine.execFusionChangeComplete c s
  | .currentGrantRequest p => Sys2Proof.Machine.execCurrentGrantRequest p s
  | .tileStartReport p => Sys2Proof.Machine.execTileStartReport p s
  | .tileEnd p work => Sys2Proof.Machine.execTileEnd p work s
  | .tileOverrun p => Sys2Proof.Machine.execTileOverrun p s
  | .saveReport p => Sys2Proof.Machine.execSaveReport p s
  | .endReport p => Sys2Proof.Machine.execEndReport p s
  | .completionRecordWrite slot seq => Sys2Proof.Machine.execCompletionRecordWrite slot seq s
  | .recordAck slot seq status => Sys2Proof.Machine.execRecordAck slot seq status s
  | .irqHoldoffExpiry slot => Sys2Proof.Machine.execIrqHoldoffExpiry slot s
  | .progressTimeout slot seq => Sys2Proof.Machine.execProgressTimeout slot seq s
  | .resetRecord slot status => Sys2Proof.Machine.execResetRecord slot status s
  | .machineCheck p cause location => Sys2Proof.Machine.execMachineCheck p cause location s
  | .mcheckReport p => Sys2Proof.Machine.execMcheckReport p s
  | .skimBlockSend g => Sys2Proof.Machine.execSkimBlockSend g s
  | .slotCredit g p => Sys2Proof.Machine.execSlotCredit g p s
  | .skimHoldExpiry g => Sys2Proof.Machine.execSkimHoldExpiry g s
  | .token p edge final marker pkt => Sys2Proof.Machine.execToken p edge final marker pkt s
  | .credit p edge pkt => Sys2Proof.Machine.execCredit p edge pkt s
  | .rd pkt dma => Sys2Proof.Machine.execRd pkt dma s
  | .wr pkt data dma => Sys2Proof.Machine.execWr pkt data dma s
  | .walk pkt dva write => Sys2Proof.Machine.execWalk pkt dva write s
  | .irq pkt vector => Sys2Proof.Machine.execIrq pkt vector s
  | .regRd pkt => Sys2Proof.Machine.execRegRd pkt s
  | .regWr pkt data => Sys2Proof.Machine.execRegWr pkt data s
  | .rdRsp pkt poisoned => Sys2Proof.Machine.execRdRsp pkt poisoned s
  | .wrAck pkt => Sys2Proof.Machine.execWrAck pkt s
  | .regRsp pkt => Sys2Proof.Machine.execRegRsp pkt s
  | .skim pkt p => Sys2Proof.Machine.execSkim pkt p s
  | .preempt p => Sys2Proof.Machine.execPreempt p s
  | .voidPkt pkt => Sys2Proof.Machine.execVoidPkt pkt s
  | .ticketReq pkt count => Sys2Proof.Machine.execTicketReq pkt count s
  | .ticketGrant pkt count => Sys2Proof.Machine.execTicketGrant pkt count s
  | .genUpdate node n gen => Sys2Proof.Machine.execGenUpdate node n gen s
  | .genAck node n => Sys2Proof.Machine.execGenAck node n s
  | .initiatorTimeout src tag => Sys2Proof.Machine.execInitiatorTimeout src tag s
  | .bridgeNak b again => Sys2Proof.Machine.execBridgeNak b again s
  | .linkFatal b => Sys2Proof.Machine.execLinkFatal b s
  | .linkFatalIntervalEnd p => Sys2Proof.Machine.execLinkFatalIntervalEnd p s
  | .drainRoundStart => Sys2Proof.Machine.execDrainRoundStart s
  | .drainRoundEnd => Sys2Proof.Machine.execDrainRoundEnd s
  | .controlStoreError addr thread flips => Sys2Proof.Machine.execControlStoreError addr thread flips s
  | .scrub flips bufferGood => Sys2Proof.Machine.execScrub flips bufferGood s
  | .fepHangWatchdog stall thread addr => Sys2Proof.Machine.execFepHangWatchdog stall thread addr s
  | .mgcWatchdog => Sys2Proof.Machine.execMgcWatchdog s
  | .stackingFault sp => Sys2Proof.Machine.execStackingFault sp s
  | .mgcRestartComplete => Sys2Proof.Machine.execMgcRestartComplete s
  | .hostLossExpiry => Sys2Proof.Machine.execHostLossExpiry s
  | .dictRefresh => Sys2Proof.Machine.execDictRefresh s
  | .contractLogRead => Sys2Proof.Machine.execContractLogRead s
  | .l1Reset => Sys2Proof.Machine.execL1Reset s
  | .resetHoldEnd => Sys2Proof.Machine.execResetHoldEnd s
  | .l0Exit => Sys2Proof.Machine.execL0Exit s
  | .l1Exit badStores => Sys2Proof.Machine.execL1Exit badStores s
  | .memoryTrained => Sys2Proof.Machine.execMemoryTrained s
  | .deviceRegionFilled => Sys2Proof.Machine.execDeviceRegionFilled s
  | .l2Reset => Sys2Proof.Machine.execL2Reset s
  | .l2PreemptDeadline patchGood imageGood => Sys2Proof.Machine.execL2PreemptDeadline patchGood imageGood s
  | .l2Rebuild => Sys2Proof.Machine.execL2Rebuild s
  | .l3Reset n => Sys2Proof.Machine.execL3Reset n s
  | .l5ResetDone p storeGood bufferGood => Sys2Proof.Machine.execL5ResetDone p storeGood bufferGood s
  | .powerStateTransitionDone => Sys2Proof.Machine.execPowerStateTransitionDone s
  | .partitionIdleGate p => Sys2Proof.Machine.execPartitionIdleGate p s
  | .partitionUngateDone p => Sys2Proof.Machine.execPartitionUngateDone p s
  | .fabricClockRegate => Sys2Proof.Machine.execFabricClockRegate s
  | .railLow c mV => Sys2Proof.Machine.execRailLow c mV s
  | .railLowClear c => Sys2Proof.Machine.execRailLowClear c s
  | .ldoSettled p => Sys2Proof.Machine.execLdoSettled p s
  | .voltageTrim p up => Sys2Proof.Machine.execVoltageTrim p up s
  | .readAssistStep p pair setting => Sys2Proof.Machine.execReadAssistStep p pair setting s
  | .telemetryUpdate meas => Sys2Proof.Machine.execTelemetryUpdate meas s
  | .coreFault => Sys2Proof.Machine.execCoreFault s
  | .undefinedMessage mb h payload => Sys2Proof.Machine.execUndefinedMessage mb h payload s
  | .requestFrameError frame => Sys2Proof.Machine.execRequestFrameError frame s
  | .i3cBroadcastAddress => Sys2Proof.Machine.execI3cBroadcastAddress s
  | .hdrEntry => Sys2Proof.Machine.execHdrEntry s
  | .hdrExitPattern => Sys2Proof.Machine.execHdrExitPattern s
  | .refclkRestored => Sys2Proof.Machine.execRefclkRestored s
  | .shareWindow => Sys2Proof.Machine.execShareWindow s
  | .criticalPathMonitorReport p cycles => Sys2Proof.Machine.execCriticalPathMonitorReport p cycles s
  | .bridgeRetrained => Sys2Proof.Machine.execBridgeRetrained s
  | .linkRetrain => Sys2Proof.Machine.execLinkRetrain s
  | .reservedTypePacket pkt => Sys2Proof.Machine.execReservedTypePacket pkt s
  | .statusWriteBack slot status => Sys2Proof.Machine.execStatusWriteBack slot status s

end Sys2Proof.Machine
end

