-- ==== Sys2Proof/Machine/Step.lean ====
section
/-! DEFINITION. One step of the block: the command at the front of the queue is taken and acts; with nothing waiting,
one reference cycle passes (00 R10; log entry 21). -/

namespace Sys2Proof.Machine
open Sys2Proof

/-- One step: the command at the front acts on the state with the rest of the queue; an empty queue lets DEVTIME advance
by one REFCLK cycle. -/
def step (s : State) : Host.Outcome State Fault Refusal :=
  match s.pending with
  | c :: rest => exec c { s with pending := rest }
  | [] => .next s.tick

/-- The state with the command that a word spells at the front of its queue; the table's rows have no bits, so no word
spells one and the state is unchanged (log entry 22). -/
def State.withFetchWord (s : State) (nbits w : Nat) : State :=
  match decodeTableWord nbits w with
  | some c => { s with pending := c :: s.pending }
  | none => s

end Sys2Proof.Machine
end

