-- ==== Sys2Proof/Safety.lean ====
section
/-! DEFINITION. What claims mean by a legal state and by an outcome: the invariant of the block and the outcomes of a
command. -/

namespace Sys2Proof.Safety
open Sys2Proof Sys2Proof.Machine

/-- The legal instruction codes of the TAP's instruction register (20 R440): EXTEST, SAMPLE/PRELOAD, IDCODE, CLAMP,
HIGHZ and BYPASS. -/
def tapCodes : List Nat := [0, 1, 2, 3, 4, 15]

/-- A timeout register holds a limit of 8 µs to 4,000 µs (10 R232). -/
def TimeoutLegal (v : Nat) : Prop := 8 ≤ v ∧ v ≤ 4000

/-- The fields of HOST_LINK that name the speed, the width and the UCIe version are zero while the link is down (05 R97). -/
def LinkLegal (l : HostLink) : Prop := l.up = false → l.speed = 0 ∧ l.width = 0 ∧ l.ucieVer = 0

/-- The invariant of the block: the two byte memories have their one form, both network timeouts are in their range, the
link's status fields are zero while it is down, and the TAP holds a defined instruction. -/
def Legal (s : State) : Prop :=
  Memory.wf s = true ∧ TimeoutLegal s.net.tmoPriv ∧ TimeoutLegal s.net.tmoHost ∧ LinkLegal s.link ∧ s.tap.ir ∈ tapCodes

/-- The machine's memories, its waiting commands, DEVTIME, the latched host mode, both network timeouts, HOST_LINK's
fields and the TAP's instruction are the same in both states: the frame of the commands that write none of them. -/
def Still (s t : State) : Prop :=
  (∀ a, t.readPriv a = s.readPriv a) ∧ (∀ a, t.readKeep a = s.readKeep a) ∧ t.pending = s.pending
    ∧ t.clk.devtime = s.clk.devtime ∧ t.pins.modeP = s.pins.modeP ∧ t.net.tmoPriv = s.net.tmoPriv
    ∧ t.net.tmoHost = s.net.tmoHost ∧ t.link.up = s.link.up ∧ t.link.speed = s.link.speed ∧ t.link.width = s.link.width
    ∧ t.link.ucieVer = s.link.ucieVer ∧ t.tap.ir = s.tap.ir

/-- A reset source that acts and waits to be resolved, behind those that wait (17 R370). -/
def withActing (s : State) (source arg : Nat) : State :=
  { s with rst := { s.rst with acting := s.rst.acting ++ [⟨source, s.now, arg⟩] } }

/-- Topcoat takes this request now and every check of 11 R245 on it passes. -/
def Accepted (s : State) (mb : Nat) (h : MsgHdr) (payload : List Byte) (k : MsgKind) : Prop :=
  h.msg = k.code ∧ s.takesRequest mb h = true ∧ msgFault k mb (s.inst mb).box.format h payload = none

/-- The payload that a request carries, without the cell's padding (11 R244). -/
def carried (s : State) (mb : Nat) (h : MsgHdr) (payload : List Byte) (k : MsgKind) : List Byte :=
  payload.take (if (s.inst mb).box.format = 1 then k.size.getD payload.length else h.len)

/-- The state in which the dictionary's serialiser meets a frame of a path: a good frame on the link has restarted the
link-loss time (13 R288). -/
def arrive (s : State) : Path → State
  | .link => s.goodFrame
  | .host => s

/-- A request of the path reaches the serialiser while Topcoat serves (13 R283, R289). -/
def Reaches (s : State) (p : Path) : Prop :=
  s.server = .topcoat ∧ s.serving = true ∧ (p = .link → s.busOn = true)

/-- A WRITE that reaches Topcoat and passes checks 1 to 7 of 13 R287; its value is `v`. -/
def WriteGood (s : State) (p : Path) (f : UFrame) (v : Nat) : Prop :=
  Reaches s p ∧ f.reservedSet = false ∧ f.data.length ≤ 96 ∧ leNat f.data = v
    ∧ ∃ e, (arrive s p).writeFault p f.index f.sub f.data.length false = .ok e ∧ e.size ≠ 0
      ∧ (arrive s p).rangeFault p f.index f.sub v e = 0

/-- The response to a request, readable on its path. -/
def respond (s : State) (p : Path) (opc : Nat) (f : UFrame) (ab : Abort) (data : List Byte) : State :=
  match p with
  | .link => { s with bus := { s.bus with response := s.responseFrame opc f.tid.toNat f.index f.sub ab data } }
  | .host => { s with bus := { s.bus with hostResponse := s.responseFrame opc f.tid.toNat f.index f.sub ab data } }

/-- The state after a WRITE whose effect on the state it met, `s1`, is `u`: the index's epoch is advanced, an alert that
arose is told by an in-band interrupt, and the response carries no abort code. -/
def written (s1 u : State) (p : Path) (f : UFrame) : State :=
  respond (alerted s1 (u.bumpEpoch p f.index)) p ocWrite f 0 []

/-- The packet `p` travels already: its request is recorded, or it carries an old generation of its tag (10 R216, R223). -/
def underWay (s : State) (p : Pkt) : Bool :=
  (tabGet s.net.reqs (tagKey p.src p.tag)).isSome || !decide (p.tgen = s.tagGen p.src p.tag)

/-- A request as its target meets it: sent under a ticket of its initiator, with what its DMA transfer is for, unless it
travels already, and seen by the probes on its way (10 R216, R230). -/
def travelled (s : State) (p : Pkt) (d : Option Dma) : State :=
  (if underWay s p then s else s.sent p d).observe p

/-- A request that its initiator may issue, or has issued, and that reaches its target and passes Glove check point 3 there
(10 R216, R223, R225, R229). -/
def Delivered (s : State) (p : Pkt) (d : Option Dma) : Prop :=
  s.cutOff p.src = false ∧ s.cutOff p.dst = false
    ∧ (underWay s p = true ∨ (s.net.hasTicket p.src p.dst = true ∧ s.mayIssue p d = true))
    ∧ (travelled s p d).voided p = false ∧ (travelled s p d).glove3 p.dst p = .pass

/-- A response that reaches the initiator `p.dst`, whose clocks run, while the request `r` it answers is outstanding with the
tag's current generation, and passes Glove check point 3 under the identity of that request, or under its own where that is of
no instance (10 R216, R223, R226, R227, 11 R242). -/
def Answers (s : State) (p : Pkt) (r : NetReq) : Prop :=
  s.cutOff p.src = false ∧ s.cutOff p.dst = false ∧ (p.dst < 16 → (s.part p.dst).state ≠ .gated)
    ∧ p.tgen = s.tagGen p.dst p.tag ∧ tabGet s.net.reqs (tagKey p.dst p.tag) = some r
    ∧ ((s.observe p).answered p.dst p.tag).voided p = false
    ∧ ((s.observe p).answered p.dst p.tag).glove3 p.dst
        (if 32 < p.inst then p else { p with inst := r.inst, gen := r.gen, slot := r.slot }) = .pass

/-- A control packet that reaches a partition whose clocks run, in no round's match, and passes Glove check point 3
(10 R212, R223, R226). -/
def Received (s : State) (k : Nat) (p : Pkt) : Prop :=
  s.cutOff p.src = false ∧ s.cutOff k = false ∧ (s.part k).state ≠ .gated
    ∧ (s.observe p).voided p = false ∧ (s.observe p).glove3 k p = .pass

/-- Two conditions of one partition that differ in its clock step and its LDO alone: what a decision of the power
controller may change (16 R352, R356). -/
def Stepped (a b : Part) : Prop :=
  b = { a with step := b.step, clkMhz := b.clkMhz, downAt := b.downAt, ldoMv := b.ldoMv, ldoSettled := b.ldoSettled,
               stepWanted := b.stepWanted }

/-- A command of opcode `op` stands at stage 6, accepted, with no earlier command of its queue held there, while the FEP
and its instance's work go on (06 R121). -/
def AtSix (s : State) (slot seq op : Nat) (c : Cmd) : Prop :=
  s.cmd slot seq = some c ∧ c.slot = slot ∧ c.seq = seq ∧ c.opcode = op ∧ s.fepRuns = true ∧ c.stage = .waiting
    ∧ s.headOfSix c = true ∧ s.instWorks c.inst = true

/-- The only change is that the command of this slot and SEQ is now `x`, and that a thread of the FEP has worked on it. -/
def CmdBecomes (s t : State) (slot seq : Nat) (x : Cmd) : Prop :=
  t = { s with cmds := t.cmds, fep := { s.fep with threads := t.fep.threads } } ∧ t.cmd slot seq = some x
    ∧ ∀ j, j ≠ cmdKey slot seq → tabGet t.cmds j = tabGet s.cmds j

/-- Each command of a slot stands in the table under its own slot and SEQ. -/
def Filed (s : State) (slot : Nat) : Prop := ∀ k x, s.cmd slot k = some x → x.slot = slot ∧ x.seq = k

/-- An accepted handle command of opcode `op` whose effect is due: a FENCE holds it no more, and every earlier handle command of
its queue has had its own effect (04 R90, 06 R123, R127). -/
def HandleTurn (s : State) (slot seq op : Nat) (c : Cmd) : Prop :=
  s.cmd slot seq = some c ∧ c.slot = slot ∧ c.seq = seq ∧ c.opcode = op ∧ s.fepRuns = true ∧ c.accepted = true
    ∧ c.stage = .waiting ∧ c.effectDone = false ∧ c.cancelled = false ∧ s.instWorks c.inst = true ∧ s.fenceOk c = true
    ∧ (s.earlier c).all (fun x => !isHandleCmd x || x.effectDone) = true

/-- A COPY or FILL that holds copy channel `ch` and executes: none of the channel's reads of host memory is unanswered and its
instance's share of the window is not spent (04 R79, 06 R127). -/
def OnChannel (s : State) (slot seq op : Nat) (c : Cmd) (ch : Nat) : Prop :=
  s.cmd slot seq = some c ∧ c.slot = slot ∧ c.seq = seq ∧ c.opcode = op ∧ s.fepRuns = true ∧ c.stage = .executing
    ∧ c.chan = some ch ∧ c.cancelled = false ∧ s.fepOut (512 + ch) = [] ∧ s.privSpent c.inst = false

/-- The private extents that writing `bs` at a DVA stores to, page by page as the translation gives them: first address
and length (04 R80, R88). -/
def storesTo (s : State) (n dva : Nat) (bs : List Byte) : Nat → List (Nat × Nat)
  | 0 => []
  | fuel + 1 =>
    if bs.length = 0 then []
    else
      let k := min bs.length (65536 - dva % 65536)
      match s.translate n dva true with
      | .fault _ _ => []
      | .priv a => (a, k) :: storesTo ((s.xlated n nFep dva).storePriv n a (bs.take k)) n (dva + k) (bs.drop k) fuel
      | .host a =>
        if s.link.up then storesTo ((s.xlated n nFep dva).hostPost n a (bs.take k) (k / 4096 + 2)) n (dva + k) (bs.drop k) fuel
        else []

/-- Every byte of private memory outside what writing `bs` at a DVA of instance `n` stores to reads in `t` as in `s`. -/
def OnlyStores (s t : State) (n dva : Nat) (bs : List Byte) : Prop :=
  ∀ a, (∀ e ∈ storesTo s n dva bs (pagesOf bs.length), a < e.1 ∨ e.1 + e.2 ≤ a) → t.readPriv a = s.readPriv a

/-- The guilty point of this slot's queue is `seq` with `st`, and the drain round for it is due (06 R134). -/
def GuiltyAt (t : State) (slot : Nat) (seq : BitVec 32) (st : Status) : Prop :=
  ∃ q, t.queue slot = some q ∧ q.guilty = some (seq, st) ∧ q.guiltRound = 1

/-- The queue of this slot is there, with no guilty point, no QUEUE_GUILTY event told, no RESET record and no abort latched. -/
def Clean (s : State) (slot : Nat) : Prop :=
  ∃ q, s.queue slot = some q ∧ q.guilty = none ∧ q.guiltSaid = false ∧ q.resetDone = false ∧ q.abortLatched = false

/-- The mailbox message that a command stands for: its kind, its mailbox, its header and its payload (11 R246). -/
def messageOf : Instr → Option (MsgKind × Fin 33 × MsgHdr × List Byte)
  | .nopMessage mb h p => some (kNop, mb, h, p)
  | .queueCreate mb h p => some (kQueueCreate, mb, h, p)
  | .queueDestroy mb h p => some (kQueueDestroy, mb, h, p)
  | .queueReset mb h p => some (kQueueReset, mb, h, p)
  | .semSet mb h p => some (kSemSet, mb, h, p)
  | .graphRelease mb h p => some (kGraphRelease, mb, h, p)
  | .graphQuery mb h p => some (kGraphQuery, mb, h, p)
  | .contractAdmit mb h p => some (kContractAdmit, mb, h, p)
  | .contractRelease mb h p => some (kContractRelease, mb, h, p)
  | .contractQuery mb h p => some (kContractQuery, mb, h, p)
  | .instanceInfo mb h p => some (kInstanceInfo, mb, h, p)
  | .mailboxClose mb h p => some (kMailboxClose, mb, h, p)
  | .instanceCreate mb h p => some (kInstanceCreate, mb, h, p)
  | .instanceQuiesce mb h p => some (kInstanceQuiesce, mb, h, p)
  | .instanceRemove mb h p => some (kInstanceRemove, mb, h, p)
  | .instanceReset mb h p => some (kInstanceReset, mb, h, p)
  | .partAssign mb h p => some (kPartAssign, mb, h, p)
  | .partRevoke mb h p => some (kPartRevoke, mb, h, p)
  | .roleBind mb h p => some (kRoleBind, mb, h, p)
  | .roleUnbind mb h p => some (kRoleUnbind, mb, h, p)
  | .freeze mb h p => some (kFreeze, mb, h, p)
  | .save mb h p => some (kSave, mb, h, p)
  | .restore mb h p _ _ => some (kRestore, mb, h, p)
  | .thaw mb h p => some (kThaw, mb, h, p)
  | .attach mb h p => some (kAttach, mb, h, p)
  | .dictTunnel mb h p => some (kDictTunnel, mb, h, p)
  | _ => none

/-- The command ends in a reply with this status and payload, written to the mailbox it came through after `u`. -/
def RepliesFrom (c : Instr) (s u : State) (mb : Fin 33) (h : MsgHdr) (st : Status) (out : List Byte) : Prop :=
  exec c s = .next (u.reply mb.val h st out)

/-- The command is refused: its request is taken, answered with this status and no payload, and nothing else happens. -/
def Refused (c : Instr) (s : State) (mb : Fin 33) (h : MsgHdr) (st : Status) : Prop :=
  exec c s = .next ((s.takeRequest mb.val h).reply mb.val h st [])

/-- The state in which T7 executes what a taken request asks for at the service port (08 R172). -/
def asked (s : State) (mb : Nat) (h : MsgHdr) : State := (s.takeRequest mb h).rung true

/-- Topcoat takes this request now, every check of 11 R245 on it passes, and T7 executes what it asks for at once (08 R172). -/
def AtPort (s : State) (mb : Nat) (h : MsgHdr) (payload : List Byte) (k : MsgKind) : Prop :=
  Accepted s mb h payload k ∧ s.portOpen = true

/-- The command is refused at the service port: its request is taken, answered with this status and no payload, and nothing else
happens. -/
def PortRefused (c : Instr) (s : State) (mb : Fin 33) (h : MsgHdr) (st : Status) : Prop :=
  exec c s = .next ((asked s mb.val h).reply mb.val h st [])

/-- The state with a malformed packet counted (10 R232). -/
def malformedCounted (s : State) : State := { s with net := { s.net with malformed := satInc s.net.malformed } }

/-- The commands whose effect, or what it leads to, may write private memory or the keep store. -/
def mayWriteMemory : Instr → Bool
  | .acceptancePoint .. | .copy .. | .fill .. | .completionRecordWrite .. | .recordAck .. | .resetRecord ..
  | .saveReport .. | .serviceRequest .. | .restore .. | .bridgeNak ..
  | .statusWriteBack .. | .rd .. | .wr .. | .shareWindow .. | .drainRoundEnd .. | .swReset .. | .mgcWatchdog ..
  | .stackingFault .. | .coreFault .. | .semSet .. | .instanceQuiesce .. | .instanceReset .. | .save .. | .thaw ..
  | .attach .. | .read .. | .write .. | .writeCond .. | .segReadStart .. | .segRead .. | .segWriteStart ..
  | .segWrite .. | .segAbort .. | .resetReq .. | .alertAck .. | .claim .. | .store .. | .restoreDefault ..
  | .hostLossMs .. | .linkLossMs .. | .enable .. | .retire .. | .partitionReset .. | .privShareMbps ..
  | .powerStateReq .. | .budgetMw .. | .verify .. | .activate .. | .confirm .. | .calRecord .. | .download ..
  | .requestFrameError .. | .dictTunnel .. | .keepStoreOpDone .. | .registerWrite .. | .doorbellWrite ..
  | .regWr .. | .flr .. | .vfEnableClear .. | .hostCompletion .. | .hostCplTimeout .. | .linkDown .. | .hotReset ..
  | .linkFatal .. | .thermalSample .. | .l1Reset .. | .pwrGoodFall .. | .refclkLoss .. | .rstNAssert ..
  | .perstNAssert .. | .resetHoldEnd .. | .l1Exit .. | .l3Reset .. | .controlStoreError .. | .scrub ..
  | .fepHangWatchdog .. | .l2Reset .. | .mgcRestartComplete .. => true
  | _ => false

end Sys2Proof.Safety
end

