-- ==== Sys2Proof/Certificates/Slice0/Obligations.lean ====
section
/-! DEFINITION. The statements for the provers: what a step is, what reset leaves, what every command of the table does
when the manual's conditions hold and what it leaves alone, and the invariant that every step keeps. -/

open Sys2Proof Sys2Proof.Machine Sys2Proof.Safety

-- The block as a whole ----------------------------------------------------------------------------------------

/-- A step takes the command at the front of the queue and runs it with the queue's rest. -/
def Obligations.StepRunsFrontCommand : Prop :=
  ∀ (c : Instr) (rest : List Instr) (s : State),
    step { s with pending := c :: rest } = exec c { s with pending := rest }

/-- With no command waiting one REFCLK cycle passes: DEVTIME advances by 26 ns, by 27 ns in the last of each 24 cycles,
while the device is out of L0 reset and REFCLK runs, and nothing else changes; L0_EXIT starts it at zero and no other command
sets it (00 R10; that an empty queue is a tick is the model's choice, log entry 21). -/
def Obligations.DevtimeAdvancesAtATickAndIsClearedAtTheL0Exit : Prop :=
  (∀ s : State, s.pending = [] →
      (s.clk.alive = true → s.clk.refclk = true → s.clk.phase < 23 →
        step s = .next { s with clk := { s.clk with devtime := s.clk.devtime + 26, phase := s.clk.phase + 1 } })
      ∧ (s.clk.alive = true → s.clk.refclk = true → s.clk.phase = 23 →
        step s = .next { s with clk := { s.clk with devtime := s.clk.devtime + 27, phase := 0 } })
      ∧ (s.clk.alive = false ∨ s.clk.refclk = false → step s = .next s))
  ∧ (∀ s : State, s.rst.phase = .l0Exiting → s.pins.pwrGood = true → s.clk.refclk = true →
    ∃ t, exec .l0Exit s = .next t ∧ t.clk.devtime = 0)
  ∧ (∀ (c : Instr) (s t : State), c ≠ .l0Exit → exec c s = .next t → t.clk.devtime = s.clk.devtime)

/-- The state right after the L0 exit point: what the manual gives a value for at reset. -/
def Obligations.ResetLeavesTheSpecValues : Prop :=
  let s := State.reset
  s.clk.devtime = 0 ∧ s.pending = [] ∧ s.mem.cells = [] ∧ s.queues = [] ∧ s.cmds = [] ∧ s.contracts = []
    ∧ (∀ n, (s.inst n).state = .absent) ∧ (s.inst 0).mmu.bypass = true
    ∧ (∀ n, n ≠ 0 → (s.inst n).mmu.bypass = false) ∧ (∀ n, (s.inst n).mmu.en = false)
    ∧ s.net.tmoPriv = 64 ∧ s.net.tmoHost = 4000
    ∧ (∀ k, (tabGetD s.net.probes k {}).filt.getLsbD 5 = true ∧ (tabGetD s.net.probes k {}).filt.getLsbD 11 = true
        ∧ (tabGetD s.net.probes k {}).filt.getLsbD 18 = true ∧ (tabGetD s.net.probes k {}).ctl = 0)
    ∧ s.net.traceEn = false ∧ s.link.up = false ∧ s.pins.devReady = false ∧ s.mgc.fw = .reset ∧ s.tap.ir = 2
    ∧ (∀ p, (s.part p).state = .gated ∧ (s.part p).run = none ∧ (s.part p).mcCause = 0)
    ∧ (∀ c, (s.cluster c).shape = 0) ∧ (∀ fn v, (s.vector fn v).masked = true)

/-- The state after reset meets the invariant. -/
def Obligations.ResetStateIsLegal : Prop := Legal State.reset

/-- HEADLINE. From every legal state, every step that answers a next state answers a legal one: the byte memories keep
their one form, the network timeouts their range, the link's status fields are zero while it is down, and the TAP holds a
defined instruction. -/
def Obligations.EveryStepKeepsTheStateLegal : Prop :=
  ∀ s t : State, Legal s → step s = .next t → Legal t

/-- No command touches the commands that wait behind it. -/
def Obligations.NoCommandTouchesTheQueue : Prop :=
  ∀ (c : Instr) (s t : State), exec c s = .next t → t.pending = s.pending

/-- The HOST_MODE strap is latched at the L0 exit point and at no other time: the L0 exit latches it, and every command but
L0_EXIT leaves the latched mode as it is, whatever the strap shows (00 R4). -/
def Obligations.HostModeIsLatchedOnlyAtTheL0Exit : Prop :=
  (∀ s : State, s.rst.phase = .l0Exiting → s.pins.pwrGood = true → s.clk.refclk = true →
    ∃ t, exec .l0Exit s = .next t ∧ t.pins.modeP = s.pins.hostModeStrap)
  ∧ (∀ (c : Instr) (s t : State), c ≠ .l0Exit → exec c s = .next t → t.pins.modeP = s.pins.modeP)

-- Host writes to registers (host window, network, firmware, MMU) ------------------------------------------------------

/-- PRB_CTL, TRACE_CTL and the two NET_TMO registers take a write of the manager: a rise of EN clears the counters, and a
limit is clamped to 8 to 4,000 µs from bits [12:0] (10 R230, R232). The access wakes the fabric (16 R349). -/
def Obligations.NetworkControlRegistersTakeWrites : Prop :=
  (∀ (s : State) (k : Fin 32) (v : BitVec 32), s.seen 0 = true →
    let q := tabGetD s.net.probes k.val {}
    let rise := q.ctl.getLsbD 0 = false ∧ v.getLsbD 0 = true
    ∃ t, exec (.prbCtlWrite k v) s = .next t
      ∧ t = { s.wakeFabric with net := { s.net with probes := t.net.probes } }
      ∧ (tabGetD t.net.probes k.val {}).ctl = v.setWidth 13
      ∧ (tabGetD t.net.probes k.val {}).filt = q.filt ∧ (tabGetD t.net.probes k.val {}).types = q.types
      ∧ (rise → (tabGetD t.net.probes k.val {}).pkts = 0 ∧ (tabGetD t.net.probes k.val {}).flits = 0
          ∧ (tabGetD t.net.probes k.val {}).waitMax = 0)
      ∧ (¬ rise → (tabGetD t.net.probes k.val {}).pkts = q.pkts ∧ (tabGetD t.net.probes k.val {}).flits = q.flits
          ∧ (tabGetD t.net.probes k.val {}).waitMax = q.waitMax)
      ∧ ∀ j, j ≠ k.val → tabGetD t.net.probes j {} = tabGetD s.net.probes j {})
  ∧ (∀ (s : State) (v : BitVec 32), s.seen 0 = true →
    let rise := s.net.traceEn = false ∧ v.getLsbD 0 = true
    ∃ t, exec (.traceCtlWrite v) s = .next t
      ∧ t = { s.wakeFabric with net := { s.net with
          traceEn := v.getLsbD 0, traceWrap := v.getLsbD 1, traceHalf := v.getLsbD 2,
          wptr := t.net.wptr, traceFull := t.net.traceFull, dropped := t.net.dropped } }
      ∧ (rise → t.net.wptr = 0 ∧ t.net.traceFull = false ∧ t.net.dropped = 0)
      ∧ (¬ rise → t.net.wptr = s.net.wptr ∧ t.net.traceFull = s.net.traceFull ∧ t.net.dropped = s.net.dropped))
  ∧ (∀ (s : State) (v : BitVec 32), s.seen 0 = true →
    let w := v.toNat % 8192
    let lim := if w < 8 then 8 else if 4000 < w then 4000 else w
    exec (.netTmoWrite true v) s = .next { s.wakeFabric with net := { s.net with tmoHost := lim } }
    ∧ exec (.netTmoWrite false v) s = .next { s.wakeFabric with net := { s.net with tmoPriv := lim } })

/-- The emulated registers: a write enters the function's queue of 8 or is dropped with FE_OVF; Topcoat applies the oldest
queued write; a read of one or two registers answers their values, zeros for an instance that does not exist and while an
FLR of the function runs, and one of another size or alignment is a bad access (05 R102, R103, R107); published values stand
in the shadows (15 R323, R324). -/
def Obligations.EmulatedRegistersQueueApplyAnswerAndPublish : Prop :=
  (∀ (s : State) (fn : Fin 33) (off k : Nat) (v : BitVec 32), s.seen fn.val = true → emuIndex off = some k →
    let i := s.inst fn.val
    (i.emuQueue.length < 8 →
      exec (.emuWrite fn off v) s =
        .next (s.wakeFabric.updInst fn.val (fun i => { i with emuQueue := i.emuQueue ++ [(k, v)] })))
    ∧ (8 ≤ i.emuQueue.length →
      exec (.emuWrite fn off v) s =
        .next (s.wakeFabric.updInst fn.val (fun i => { i with feOvf := true, ovfCount := satInc i.ovfCount }))))
  ∧ (∀ (s : State) (fn : Fin 33) (v : BitVec 32), s.seen fn.val = true →
    (v.getLsbD 1 = true →
      exec (.emuWrite fn 0x0F0 v) s = .next (s.wakeFabric.updInst fn.val (fun i => { i with feOvf := false })))
    ∧ (v.getLsbD 1 = false → exec (.emuWrite fn 0x0F0 v) s = .next s.wakeFabric))
  ∧ (∀ (s : State) (fn : Fin 33) (k : Nat) (v : BitVec 32) (rest : List (Nat × BitVec 32)),
    s.serving = true → (s.inst fn.val).emuQueue = (k, v) :: rest →
    exec (.emuWriteApply fn) s =
      .next (s.updInst fn.val (fun i => { i with
        emuQueue := rest, emu := tabSet i.emu k (if k = 0 then v &&& 3 else v) })).reassess)
  ∧ (∀ (s : State) (fn : Fin 33) (off : Nat), s.seen fn.val = true → s.flrRuns fn.val = false → off < 4096 →
    (off % 4 = 0 →
      ∃ w, exec (.emuRead fn off 4) s =
          .next { s.wakeFabric with link := { s.link with readData := leBytes 4 (BitVec.toNat (w := 32) w) } }
        ∧ (fn.val ≠ 0 → (s.inst fn.val).state = .absent → w = 0)
        ∧ ((fn.val = 0 ∨ (s.inst fn.val).state ≠ .absent) →
            (off ∈ emuOffsets → s.serving = true → w = s.emuValue fn.val off)
            ∧ (off ∈ emuOffsets → s.serving = false → w = tabGetD (s.inst fn.val).shadow off 0)
            ∧ (off = 0x0F0 → w = s.feStatus fn.val)))
    ∧ (off % 8 = 0 →
      ∃ t u v, exec (.emuRead fn off 8) s = .next t ∧ exec (.emuRead fn off 4) s = .next u
        ∧ exec (.emuRead fn (off + 4) 4) s = .next v ∧ t.link.readData = u.link.readData ++ v.link.readData)
    ∧ (∀ k, ((k ≠ 4 ∧ k ≠ 8) ∨ off % k ≠ 0) →
      exec (.emuRead fn off k) s = .next { s.wakeFabric with link := { s.link with
        badAccess := satInc s.link.badAccess, readData := List.replicate k 0 } }))
  ∧ (∀ (s : State) (fn : Fin 33) (off k : Nat), s.flrRuns fn.val = true →
    exec (.emuRead fn off k) s = .next { s with link := { s.link with readData := List.replicate k 0 } })
  ∧ (∀ (s : State) (fn : Fin 33), s.serving = true →
    ∃ t, exec (.shadowPublish fn) s = .next t ∧ t = { s with insts := t.insts }
      ∧ t.inst fn.val = { s.inst fn.val with shadow := (t.inst fn.val).shadow }
      ∧ (∀ o ∈ emuOffsets, tabGetD (t.inst fn.val).shadow o 0 = s.emuValue fn.val o)
      ∧ ∀ n, n ≠ fn.val → t.inst n = s.inst n)

/-- A write of INVAL_CTL with GO starts an invalidation of SIZE units from INVAL_ADDR, or of the whole space with ALL; one
that is under way ends, with DONE set and the covered translations gone from the micro-TLBs, the TLBs and, all of them, the
upper-level cache, once every request of the instance that one of them translated and that was sent before it began is
answered (04 R82, R84, R85). -/
def Obligations.InvalidationStartsAndEnds : Prop :=
  (∀ (s : State) (n : Fin 33) (v : BitVec 32), s.seen 0 = true → (s.inst n.val).mmu.invalGo = false →
    2 ^ 16 ≤ v.toNat →
    ∃ t, exec (.mmuInvalidateRange n v) s = .next t ∧ t = { s.wakeFabric with insts := t.insts }
      ∧ (t.inst n.val) = { s.inst n.val with mmu := { (s.inst n.val).mmu with
          invalGo := true, invalAll := false, invalSize := (v >>> 16).setWidth 16,
          invalDone := (s.inst n.val).mmu.invalDone && !v.getLsbD 2,
          invalFrom := (s.inst n.val).mmu.invalAddr.toNat / 2 ^ 16 % 2 ^ 32, invalPages := v.toNat / 2 ^ 16,
          invalAt := s.now } }
      ∧ ∀ m, m ≠ n.val → t.inst m = s.inst m)
  ∧ (∀ (s : State) (n : Fin 33) (v : BitVec 32), s.seen 0 = true → (s.inst n.val).mmu.invalGo = false →
    v.toNat < 2 ^ 16 →
    ∃ t, exec (.mmuInvalidateRange n v) s = .next t ∧ t = { s.wakeFabric with insts := t.insts }
      ∧ (t.inst n.val).mmu.invalGo = false ∧ (t.inst n.val).mmu.invalDone = true
      ∧ (t.inst n.val).mmu.tlb = (s.inst n.val).mmu.tlb ∧ ∀ m, m ≠ n.val → t.inst m = s.inst m)
  ∧ (∀ (s : State) (n : Fin 33) (v : BitVec 32), s.seen 0 = true → (s.inst n.val).mmu.invalGo = false →
    ∃ t, exec (.mmuInvalidateAll n v) s = .next t ∧ t = { s.wakeFabric with insts := t.insts }
      ∧ (t.inst n.val).mmu.invalGo = true ∧ (t.inst n.val).mmu.invalAll = true
      ∧ (t.inst n.val).mmu.invalAt = s.now ∧ (t.inst n.val).mmu.tlb = (s.inst n.val).mmu.tlb
      ∧ ∀ m, m ≠ n.val → t.inst m = s.inst m)
  ∧ (∀ (s : State) (n : Fin 33), let m := (s.inst n.val).mmu
    m.invalGo = true →
    (∀ r ∈ tabVals s.net.reqs, r.inst = n.val → r.sentAt ≤ m.invalAt → m.invalWaits r = false) →
    ∃ t, exec (.invalidationDone n) s = .next t ∧ t = { s with insts := t.insts }
      ∧ (t.inst n.val) = { s.inst n.val with mmu := { m with
          invalGo := false, invalDone := true, tlb := (t.inst n.val).mmu.tlb, micro := (t.inst n.val).mmu.micro, upper := [] } }
      ∧ (m.invalAll = true → (t.inst n.val).mmu.tlb = [] ∧ (t.inst n.val).mmu.micro = [])
      ∧ (m.invalAll = false →
          (∀ e, e ∈ (t.inst n.val).mmu.tlb ↔ e ∈ m.tlb ∧ ¬ (m.invalFrom ≤ e.1 ∧ e.1 < m.invalFrom + m.invalPages))
          ∧ ∀ e, e ∈ (t.inst n.val).mmu.micro ↔
              e ∈ m.micro ∧ ¬ (m.invalFrom ≤ e.1 % 2 ^ 32 ∧ e.1 % 2 ^ 32 < m.invalFrom + m.invalPages))
      ∧ ∀ k, k ≠ n.val → t.inst k = s.inst k)

/-- The manager's firmware registers: HEARTBEAT stores its value and, while the host-loss timer is armed, restarts its
count (15 R333); BEGIN starts a load where FW_STATE allows it and otherwise sets RESULT 6 (R319); COMMIT ends a load
(R320); SW_RESET acts on 0x0000_A55A alone, as source 12 (R316, 17 R364). -/
def Obligations.FirmwareRegistersTakeWrites : Prop :=
  ∀ (s : State), s.seen 0 = true →
    (∀ v, exec (.heartbeatWrite v) s = .next { s.wakeFabric with mgc := { s.mgc with
        heartbeat := v, beatBase := if s.mgc.armed then s.now else s.mgc.beatBase } })
    ∧ (s.mgc.fw = .reset ∨ s.mgc.fw = .loadWait ∨ s.mgc.fw = .loadFailed →
      exec .fwBegin s = .next { s.wakeFabric with mgc := { s.mgc with fw := .loading, loadResult := 1 } })
    ∧ (s.mgc.fw ≠ .reset → s.mgc.fw ≠ .loadWait → s.mgc.fw ≠ .loadFailed →
      exec .fwBegin s = .next { s.wakeFabric with mgc := { s.mgc with loadResult := 6 } })
    ∧ (s.mgc.fw = .loading → exec .fwCommit s = .next { s.wakeFabric with mgc := { s.mgc with fw := .verify } })
    ∧ (s.mgc.fw ≠ .loading → exec .fwCommit s = .next s.wakeFabric)
    ∧ (s.rst.phase = .none → exec (.swReset 0xA55A) s = .next (withActing s.wakeFabric 12 0))
    ∧ (∀ v, v ≠ 0xA55A → exec (.swReset v) s = .next s.wakeFabric)

/-- A host write that has no row of its own. Nothing happens while an FLR of the function runs or where the function is not
there; a function whose Memory Space Enable is clear reports an Unsupported Request, a poisoned write its error, and neither
writes; an offset past the BAR is none of its accesses; an unassigned offset or a size the region does not take is counted as
a bad access; a VF whose instance does not exist meets Glove check point 1; a 32-bit write to a register of an instance's
manager view takes effect by the view's access codes; a configuration write acts while configuration requests are answered,
and bit 1 of the Command register is Memory Space Enable (05 R100, R102, R103, R106, R107, R109, 04 R84). -/
def Obligations.RegisterWriteActsOrCountsAsBadAccess : Prop :=
  (∀ (s : State) (fn : Fin 33) (config p : Bool) (off : Nat) (data : List Byte),
    (s.flrRuns fn.val = true ∨ s.link.up = false ∨ s.fnExists fn.val = false) → config = false →
    exec (.registerWrite fn config p off data) s = .next s)
  ∧ (∀ (s : State) (fn : Fin 33) (p : Bool) (off : Nat) (data : List Byte), s.flrRuns fn.val = false → s.link.up = true →
    s.fnExists fn.val = true → ((s.func fn.val).memEnable = false ∨ p = true) →
    ∃ t, exec (.registerWrite fn false p off data) s = .next t
      ∧ t = { s with link := { s.link with funcs := t.link.funcs, posted := t.link.posted }, freeCount := t.freeCount
                     bus := { s.bus with ibis := t.bus.ibis } }
      ∧ ∀ f ∈ s.functions, (t.func f).aerUnc.getLsbD (if (s.func fn.val).memEnable then 12 else 20) = true)
  ∧ (∀ (s : State) (fn : Fin 33) (off : Nat) (data : List Byte), s.seen fn.val = true → s.flrRuns fn.val = false →
    (if fn.val = 0 then 0x100000 else 0x10000) ≤ off → exec (.registerWrite fn false false off data) s = .next s)
  ∧ (∀ (s : State) (fn : Fin 33) (off : Nat) (data : List Byte), s.seen fn.val = true → s.flrRuns fn.val = false →
    off < (if fn.val = 0 then 0x100000 else 0x10000) →
    (regionOf fn.val off = none
      ∨ (∃ r o, regionOf fn.val off = some (r, o) ∧ sizeOk r o data.length = false)) →
    ∃ t, exec (.registerWrite fn false false off data) s = .next t
      ∧ t = { s.wakeFabric with link := { s.link with badAccess := satInc s.link.badAccess }
                                bus := { s.bus with ibis := t.bus.ibis } })
  ∧ (∀ (s : State) (fn : Fin 33) (off o : Nat) (r : Region) (data : List Byte), s.seen fn.val = true →
    s.flrRuns fn.val = false →
    regionOf fn.val off = some (r, o) → sizeOk r o data.length = true → fn.val ≠ 0 →
    (s.inst fn.val).state = .absent → (r = .doorbell ∨ r = .inbound ∨ r = .outbound ∨ r = .abort) →
    ∃ t, exec (.registerWrite fn false false off data) s = .next t
      ∧ t.link.gloveDrop = satInc s.link.gloveDrop ∧ t.link.badAccess = satInc s.link.badAccess
      ∧ t.net = s.net ∧ t.queues = s.queues ∧ t.abrt = s.abrt)
  ∧ (∀ (s : State) (off o n : Nat) (data : List Byte), s.seen 0 = true → s.flrRuns 0 = false →
    regionOf 0 off = some (.view n, o) → o % 4 = 0 → data.length = 4 →
    ∃ t, exec (.registerWrite 0 false false off data) s = .next t
      ∧ t = { s.wakeFabric with insts := t.insts, bus := { s.bus with ibis := t.bus.ibis } }
      ∧ t.inst n = { s.inst n with mmu := (s.inst n).mmu.write n o (BitVec.ofNat 32 (field data 0 4)) s.now }
      ∧ ∀ m, m ≠ n → t.inst m = s.inst m)
  ∧ (∀ (s : State) (fn : Fin 33) (p : Bool) (off : Nat) (data : List Byte),
    ((s.flrRuns fn.val = true ∨ s.link.cfgReady = false ∨ s.fnExists fn.val = false) →
      exec (.registerWrite fn true p off data) s = .next s)
    ∧ (s.flrRuns fn.val = false → s.link.cfgReady = true → s.fnExists fn.val = true →
        exec (.registerWrite fn true p off data) s = .next (alerted s (s.cfgWrite fn.val off data))
        ∧ ∀ b : Byte, ∃ t, exec (.registerWrite fn true p 4 [b]) s = .next t ∧ (t.func fn.val).memEnable = b.getLsbD 1
            ∧ ∀ g, g ≠ fn.val → t.func g = s.func g))

/-- A doorbell write: each half that names a queue of the function goes to the FEP on VC0, and one that names none is a bad
access (06 R119, 05 R102). A write of IN_PROD: an index within the request ring of the open format is stored, one outside it
is ignored and counted as a bad access (11 R243, R245). Unmasking a vector with a message pending sends it once the function
may send, and only then (05 R105). -/
def Obligations.DoorbellsMailboxesAndVectorsTakeHostWrites : Prop :=
  (∀ (s : State) (fn : Fin 33) (q : Fin 16) (high : Bool) (v : BitVec 32), s.seen fn.val = true →
    s.flrRuns fn.val = false → (fn.val = 0 ∨ (s.inst fn.val).state ≠ .absent) →
    ((s.slotOf fn.val q.val).isSome = true →
      exec (.doorbellWrite fn (8 * q.val + if high then 4 else 0) (leBytes 4 v.toNat)) s =
        .next { s.wakeFabric with net := { s.net with bells := s.net.bells ++ [(fn.val, q.val, high, v)] } })
    ∧ (s.slotOf fn.val q.val = none →
      exec (.doorbellWrite fn (8 * q.val + if high then 4 else 0) (leBytes 4 v.toNat)) s =
        .next { s.wakeFabric with link := { s.link with badAccess := satInc s.link.badAccess } }))
  ∧ (∀ (s : State) (fn : Fin 33) (q : Fin 16) (w c : BitVec 32), s.seen fn.val = true → s.flrRuns fn.val = false →
    (fn.val = 0 ∨ (s.inst fn.val).state ≠ .absent) → (s.slotOf fn.val q.val).isSome = true →
    exec (.doorbellWrite fn (8 * q.val) (leBytes 4 w.toNat ++ leBytes 4 c.toNat)) s =
      .next { s.wakeFabric with net := { s.net with
        bells := s.net.bells ++ [(fn.val, q.val, false, w), (fn.val, q.val, true, c)] } })
  ∧ (∀ (s : State) (fn : Fin 33) (off : Nat) (data : List Byte), (s.seen fn.val = false ∨ s.flrRuns fn.val = true) →
    exec (.doorbellWrite fn off data) s = .next s)
  ∧ (∀ (s : State) (fn : Fin 33) (v : BitVec 32), s.seen fn.val = true →
      (fn.val = 0 ∨ (s.inst fn.val).state ≠ .absent) →
      let i := v.toNat % 128
      let f := (s.inst fn.val).box.format
      ((f = 0 ∨ i < inCells f) →
        exec (.mailboxDoorbell fn v) s =
          .next (s.wakeFabric.updInst fn.val (fun x => { x with box := { x.box with inProd := i } })))
      ∧ (f ≠ 0 → inCells f ≤ i →
        exec (.mailboxDoorbell fn v) s =
          .next { s.wakeFabric with link := { s.link with badAccess := satInc s.link.badAccess } }))
  ∧ (∀ (s : State) (fn : Fin 33) (v : Nat), s.seen fn.val = true → v < vectorsOf fn.val →
      let open_ := s.link.up && (s.func fn.val).msixEnable && !(s.func fn.val).msixMask && !(fn.val == 0 && s.mgc.orphan)
      ∃ t, exec (.msixVectorUnmask fn v) s = .next t
        ∧ t = { s.wakeFabric with link := { s.link with funcs := t.link.funcs, posted := t.link.posted } }
        ∧ (t.vector fn.val v).masked = false
        ∧ ((s.vector fn.val v).pending = true → open_ = true →
            (t.vector fn.val v).pending = false
            ∧ t.link.posted = s.link.posted ++ [.msix fn.val v (s.vector fn.val v).addr (s.vector fn.val v).data])
        ∧ ((s.vector fn.val v).pending = false ∨ open_ = false →
            (t.vector fn.val v).pending = (s.vector fn.val v).pending ∧ t.link.posted = s.link.posted)
        ∧ ∀ g, g ≠ fn.val → t.func g = s.func g)

/-- The FEP receives the oldest doorbell half of a queue: a WRITE between the recorded one and a full ring is recorded and stamped with
DEVTIME; the recorded WRITE again does nothing; a CONS up to CPL is recorded; any other value changes neither and is counted
as a bad doorbell (06 R120). While a reset of level L2 runs the half is kept (08 R182). Memory, DEVTIME and the rest of the
frame stay. -/
def Obligations.DoorbellRecordsWriteOrCons : Prop :=
  ∀ (s : State) (fn : Fin 33) (qid : Fin 16) (slot : Nat) (q : Queue) (v : BitVec 32),
    s.slotOf fn.val qid.val = some slot → s.queue slot = some q →
    (s.l2Runs = false → s.fep.stopped = false → s.fepRuns = true →
      (s.net.bells.find? (fun e => e.1 == fn.val && e.2.1 == qid.val) = some (fn.val, qid.val, false, v) →
        ∃ t, exec (.doorbell fn qid false v) s = .next t ∧ Still s t
          ∧ t.net.bells = s.net.bells.erase (fn.val, qid.val, false, v)
          ∧ (dist v q.read = dist q.write q.read → t.queues = s.queues)
          ∧ (dist q.write q.read < dist v q.read → dist v q.read ≤ q.entriesMax →
              t.queue slot = some { q with write := v, stamps := q.stamps ++ [(v, s.now)] })
          ∧ (dist v q.read ≠ dist q.write q.read →
              ¬ (dist q.write q.read < dist v q.read ∧ dist v q.read ≤ q.entriesMax) →
              t.queue slot = some { q with dbBad := satInc q.dbBad }))
      ∧ (s.net.bells.find? (fun e => e.1 == fn.val && e.2.1 == qid.val) = some (fn.val, qid.val, true, v) →
        ∃ t, exec (.doorbell fn qid true v) s = .next t ∧ Still s t
          ∧ t.net.bells = s.net.bells.erase (fn.val, qid.val, true, v)
          ∧ (dist v q.cons ≤ dist q.cpl q.cons → ∃ u, t.queue slot = some u ∧ u.cons = v ∧ u.write = q.write
              ∧ u.cpl = q.cpl ∧ u.dbBad = q.dbBad)
          ∧ (¬ dist v q.cons ≤ dist q.cpl q.cons → t.queue slot = some { q with dbBad := satInc q.dbBad })))
    ∧ (∀ high, (s.l2Runs = true ∨ s.fep.stopped = true) →
        s.net.bells.find? (fun e => e.1 == fn.val && e.2.1 == qid.val) = some (fn.val, qid.val, high, v) →
        ∃ t, exec (.doorbell fn qid high v) s = .next t ∧ Still s t ∧ t.queues = s.queues
          ∧ (fn.val, qid.val, high, v) ∈ t.fep.heldBells
          ∧ t.net.bells = s.net.bells.erase (fn.val, qid.val, high, v))

/-- An abort request of an existing instance that no abort of it awaits: for a queue that can be aborted it is latched, the
queue's bit of QBUSY is set and the queue stops fetching; for the instance IBUSY is set and the instance goes to ABORTING;
where R383's table has another outcome, ABORT_DONE tells it and nothing is latched (18 R383). -/
def Obligations.AbortRequestsAreLatchedOrAnsweredAtOnce : Prop :=
  ∀ (s : State) (n : Fin 33) (byManager : Bool),
    (byManager = true → s.seen 0 = true) →
    (byManager = false → s.seen n.val = true ∧ (n.val = 0 ∨ (s.inst n.val).state ≠ .absent)) →
    (∀ q : Fin 16, s.abortLatched n.val (some q.val) = false →
      (s.abortVerdict n.val (some q.val) = none →
        ∃ t, exec (.abortQueue n q byManager) s = .next t ∧ Still s t
          ∧ t.abrt = { s.abrt with reqs := s.abrt.reqs ++
              [{ inst := n.val, qid := some q.val, by_ := b2n byManager, at_ := s.now }] }
          ∧ (t.inst n.val).qBusy = (s.inst n.val).qBusy ||| (1#16 <<< q.val)
          ∧ (t.inst n.val).abortReqTime = BitVec.ofNat 64 s.now
          ∧ (∀ slot, s.slotOf n.val q.val = some slot → (s.queue slot).isSome = true →
              ∃ x, t.queue slot = some x ∧ x.abortLatched = true))
      ∧ (∀ r, s.abortVerdict n.val (some q.val) = some r →
        ∃ t, exec (.abortQueue n q byManager) s = .next t ∧ Still s t ∧ t.abrt = s.abrt ∧ t.queues = s.queues
          ∧ (t.inst n.val).lastResult = BitVec.ofNat 2 r ∧ (t.inst n.val).lastQid = BitVec.ofNat 4 q.val
          ∧ (t.inst n.val).lastAll = false ∧ (t.inst n.val).doneCount = (s.inst n.val).doneCount + 1))
    ∧ (s.abortLatched n.val none = false →
      (s.abortVerdict n.val none = none →
        ∃ t, exec (.abortInstance n byManager) s = .next t ∧ Still s t
          ∧ t.abrt = { s.abrt with reqs := s.abrt.reqs ++
              [{ inst := n.val, qid := none, by_ := b2n byManager, at_ := s.now }] }
          ∧ (t.inst n.val).iBusy = true ∧ (t.inst n.val).state = .aborting)
      ∧ (∀ r, s.abortVerdict n.val none = some r →
        ∃ t, exec (.abortInstance n byManager) s = .next t ∧ Still s t ∧ t.abrt = s.abrt ∧ t.queues = s.queues
          ∧ (t.inst n.val).lastResult = BitVec.ofNat 2 r ∧ (t.inst n.val).lastAll = true
          ∧ (t.inst n.val).iBusy = false ∧ (t.inst n.val).doneCount = (s.inst n.val).doneCount + 1))

-- The on-chip network ---------------------------------------------------------------------------------------------------

/-- RD and WR delivered to a memory controller or the host bridge, under the identity of the launch, the queue or the Skim
group they are issued for. A write at a controller stores its bytes, a partition's from its SRAM, at its address and nothing
else; a read changes no memory and holds the bytes it read for its response; both count their bytes in MEM_MB and, by the
controller of each 4 KiB, in the share windows; a request that finds its window spent, or an earlier one of its block waiting,
waits; a request to the host leaves on the host link under a free tag of the enabled range, after a translation request where
the function uses ATS and has no translation of the page; a request of the wrong length is malformed; an address beyond the
usable capacity does not exist and stops the block (02 R37, 04 R70, R72, R76, R77, R79, R92, 05 R96, 10 R216, R232, 14 R310).
That memory keeps its canonical form is the premise of the write's clause.
A new share window: no byte is counted in it yet, and the requests that waited are performed in order as far as it allows
(11 R234). -/
def Obligations.ReadsAndWritesReachMemoryAndHost : Prop :=
  (∀ (s : State) (p0 : Pkt) (d : Dma), let p := s.filled p0
    p0.len = 0 → p0.hostSpace = false → (p0.dst = 17 ∨ p0.dst = 18) → p0.dst = 17 + p0.addr / 4096 % 2 →
    p0.addr + p0.bytes + 1 ≤ s.usable → Delivered s p (some d) → s.mustWait ⟨false, p, []⟩ = false →
    ∃ t, exec (.rd p0 d) s = .next t ∧ Still s t
      ∧ t = { s with net := t.net, parts := t.parts, mem := { s.mem with window := t.mem.window },
                     dict := { s.dict with memBytes := s.dict.memBytes + (p0.bytes + 1), memUe := t.dict.memUe, memCe := t.dict.memCe } }
      ∧ ((16 ≤ p0.src ∨ d.ring = false) → t.parts = s.parts)
      ∧ (s.mem.ecc = false → t.dict.memCe = s.dict.memCe) ∧ s.dict.memCe ≤ t.dict.memCe
      ∧ t.dict.memUe = (if s.badIn p0.addr (p0.bytes + 1) then satInc s.dict.memUe else s.dict.memUe)
      ∧ (∀ c, c < 2 → tabGetD t.mem.window (64 * c + p.inst) 0
          = tabGetD s.mem.window (64 * c + p.inst) 0 + ctlBytes c p0.addr (p0.bytes + 1))
      ∧ (∀ r, tabGet t.net.reqs (tagKey p0.src p0.tag) = some r → r.tgen = p0.tgen →
          r.data = s.readPrivN p0.addr (p0.bytes + 1))
      ∧ (underWay s p = false →
          tabGetD t.net.out (pairKey p0.src p0.dst) 0 = tabGetD s.net.out (pairKey p0.src p0.dst) 0 + 1
          ∧ ∃ r, tabGet t.net.reqs (tagKey p0.src p0.tag) = some r ∧ r.dst = p0.dst ∧ r.inst = p.inst ∧ r.gen = p.gen
              ∧ r.slot = p.slot ∧ r.tgen = p0.tgen ∧ r.sentAt = s.now))
  ∧ (∀ (s : State) (p0 : Pkt) (data : List Byte) (d : Dma), let p := s.filled p0
    let bs := if p0.src < 16 then (s.part p0.src).readSram d.sram d.off (p0.bytes + 1) else data
    1 ≤ p0.len → p0.len ≤ 8 → p0.bytes < 32 * p0.len → (16 ≤ p0.src → p0.bytes < data.length) → p0.hostSpace = false →
    (p0.dst = 17 ∨ p0.dst = 18) → p0.dst = 17 + p0.addr / 4096 % 2 → p0.addr + p0.bytes + 1 ≤ s.usable →
    Delivered s p (some { d with ring := false }) → s.mustWait ⟨true, p, bs⟩ = false → Memory.wf s = true →
    ∃ t, exec (.wr p0 data d) s = .next t
      ∧ t = { s with net := t.net, mem := { s.mem with cells := t.mem.cells, bad := t.mem.bad, window := t.mem.window },
                     dict := { s.dict with memBytes := s.dict.memBytes + (p0.bytes + 1) } }
      ∧ t.readPrivN p0.addr (p0.bytes + 1) = bs.take (p0.bytes + 1)
      ∧ (∀ a, a < p0.addr ∨ p0.addr + p0.bytes + 1 ≤ a → t.readPriv a = s.readPriv a)
      ∧ (∀ c, c < 2 → tabGetD t.mem.window (64 * c + p.inst) 0
          = tabGetD s.mem.window (64 * c + p.inst) 0 + ctlBytes c p0.addr (p0.bytes + 1))
      ∧ (∀ w, w ∈ t.mem.bad ↔ w ∈ s.mem.bad ∧ ¬ (p0.addr ≤ w * 8 ∧ w * 8 + 8 ≤ p0.addr + p0.bytes + 1)))
  ∧ (∀ (s : State) (p0 : Pkt) (d : Dma) (k : Nat), let p := s.filled p0
    p0.len = 0 → p0.hostSpace = true → p0.dst = 16 → Delivered s p (some d) → s.mustWait ⟨false, p, []⟩ = false →
    s.link.up = true → s.freeTag = some k →
    ∃ t, exec (.rd p0 d) s = .next t ∧ Still s t ∧ tabGet s.link.outstanding k = none
      ∧ s.linkTags.1 ≤ k ∧ k < s.linkTags.1 + s.linkTags.2
      ∧ (∃ r, tabGet t.link.outstanding k = some r ∧ r.pkt = p ∧ r.fn = p.inst ∧ r.sentAt = s.now ∧ r.marked = false
          ∧ r.xlat = (if s.usesAts p.inst = true ∧ tabGet s.link.atc (atcKey p.inst (p0.addr / 4096)) = none
              then some ⟨false, p, []⟩ else none))
      ∧ (∀ j, j ≠ k → tabGet t.link.outstanding j = tabGet s.link.outstanding j)
      ∧ ((16 ≤ p0.src ∨ d.ring = false) → t.parts = s.parts)
      ∧ t = { s with net := t.net, parts := t.parts, mem := { s.mem with window := t.mem.window },
                     link := { s.link with outstanding := t.link.outstanding } })
  ∧ (∀ (s : State) (p0 : Pkt) (data : List Byte) (d : Dma), let p := s.filled p0
    let bs := if p0.src < 16 then (s.part p0.src).readSram d.sram d.off (p0.bytes + 1) else data
    1 ≤ p0.len → p0.len ≤ 8 → p0.bytes < 32 * p0.len → (16 ≤ p0.src → p0.bytes < data.length) → p0.hostSpace = true →
    p0.dst = 16 → Delivered s p (some { d with ring := false }) → s.mustWait ⟨true, p, bs⟩ = false → s.link.up = true →
    ∃ t, exec (.wr p0 data d) s = .next t ∧ Still s t
      ∧ t = { s with net := t.net, mem := { s.mem with window := t.mem.window, windowWait := t.mem.windowWait },
                     link := { s.link with outstanding := t.link.outstanding, posted := t.link.posted } }
      ∧ (s.usesAts p.inst = false → t.link.outstanding = s.link.outstanding ∧ t.mem.windowWait = s.mem.windowWait
          ∧ t.link.posted = s.link.posted ++ [.write p.inst p0.addr (bs.take (p0.bytes + 1))])
      ∧ (∀ a, s.usesAts p.inst = true → tabGet s.link.atc (atcKey p.inst (p0.addr / 4096)) = some a →
          t.link.outstanding = s.link.outstanding ∧ t.mem.windowWait = s.mem.windowWait
          ∧ t.link.posted = s.link.posted ++ [.writeAt p.inst (a * 4096 + p0.addr % 4096) (bs.take (p0.bytes + 1))])
      ∧ (∀ k, s.usesAts p.inst = true → tabGet s.link.atc (atcKey p.inst (p0.addr / 4096)) = none → s.freeTag = some k →
          t.link.posted = s.link.posted ∧ t.mem.windowWait = s.mem.windowWait
          ∧ ∃ r, tabGet t.link.outstanding k = some r ∧ r.fn = p.inst ∧ r.xlat = some ⟨true, p, bs⟩))
  ∧ (∀ (s : State) (p0 : Pkt) (data : List Byte) (d : Dma), let p := s.filled p0
    let bs := if p0.src < 16 then (s.part p0.src).readSram d.sram d.off (p0.bytes + 1) else data
    p0.hostSpace = false → (p0.dst = 17 ∨ p0.dst = 18) → p0.dst = 17 + p0.addr / 4096 % 2 →
    p0.addr + p0.bytes + 1 ≤ s.usable →
    (p0.len = 0 → Delivered s p (some d) → s.mustWait ⟨false, p, []⟩ = true → ∃ t, exec (.rd p0 d) s = .next t
      ∧ t = { s with net := t.net, parts := t.parts, mem := { s.mem with windowWait := s.mem.windowWait ++ [⟨false, p, []⟩] } })
    ∧ (1 ≤ p0.len → p0.len ≤ 8 → p0.bytes < 32 * p0.len → (16 ≤ p0.src → p0.bytes < data.length) →
      Delivered s p (some { d with ring := false }) → s.mustWait ⟨true, p, bs⟩ = true → ∃ t, exec (.wr p0 data d) s = .next t
      ∧ t = { s with net := t.net, mem := { s.mem with windowWait := s.mem.windowWait ++ [⟨true, p, bs⟩] } }))
  ∧ (∀ (s : State) (p : Pkt) (data : List Byte) (d : Dma), (p.dst = 17 ∨ p.dst = 18) → s.usable < p.addr + p.bytes + 1 →
    (p.len = 0 → exec (.rd p d) s = .fault .noSuchPpa)
    ∧ (1 ≤ p.len → p.len ≤ 8 → p.bytes < 32 * p.len → (16 ≤ p.src → p.bytes < data.length) →
        exec (.wr p data d) s = .fault .noSuchPpa))
  ∧ (∀ (s : State) (p : Pkt) (data : List Byte) (d : Dma),
    (p.len ≠ 0 → exec (.rd p d) s = .next (malformedCounted s))
    ∧ ((p.len = 0 ∨ 8 < p.len ∨ 32 * p.len ≤ p.bytes) →
        exec (.wr p data d) s = .next (malformedCounted s)))
  ∧ (∀ s : State, s.mem.windowWait = [] → exec .shareWindow s = .next { s with mem := { s.mem with window := [], oldShares := [] } })
  ∧ (∀ (s : State) (w : Waiting), s.mem.windowWait = [w] → w.write = true → (w.pkt.dst = 17 ∨ w.pkt.dst = 18) →
    w.pkt.bytes < w.data.length → Memory.wf s = true → 0 < (s.inst w.pkt.inst).limits.privShare →
    ∃ t, exec .shareWindow s = .next t ∧ t.mem.windowWait = []
      ∧ t.readPrivN w.pkt.addr (w.pkt.bytes + 1) = w.data.take (w.pkt.bytes + 1)
      ∧ (∀ a, a < w.pkt.addr ∨ w.pkt.addr + w.pkt.bytes + 1 ≤ a → t.readPriv a = s.readPriv a)
      ∧ t = { s with mem := t.mem, dict := { s.dict with memBytes := s.dict.memBytes + (w.pkt.bytes + 1) } })

/-- A walk at the controller of the instance caches the leaf it finds in the TLB and the initiator's micro-TLB, or records the
first fault of the instance; an interrupt request at
the host bridge raises the function's vector; a register read answers the word at its offset; a register write reaches the
register (04 R81, R82, R84, 05 R105, 10 R221). -/
def Obligations.WalksInterruptsAndRegisterRequestsAreServed : Prop :=
  (∀ (s : State) (p0 : Pkt) (dva : Nat) (w : Bool) (leaf : BitVec 64), let p := s.filled p0
    p0.len = 0 → p0.dst = 17 + p.inst % 2 → Delivered s p none →
    (s.inst p.inst).mmu.en = true → dva < 2 ^ 48 → s.cachedLeaves p.inst dva = [] → s.walk p.inst dva = .ok leaf →
    (∀ st lvl, s.applyLeaf leaf dva w ≠ .fault st lvl) →
    ∃ t, exec (.walk p0 dva w) s = .next t
      ∧ t = { s with net := t.net, insts := t.insts, freeCount := t.freeCount, mem := { s.mem with window := t.mem.window },
                     dict := { s.dict with memBytes := t.dict.memBytes, memCe := t.dict.memCe } }
      ∧ tabGet (t.inst p.inst).mmu.tlb (dva / 65536) = some leaf
      ∧ tabGet (t.inst p.inst).mmu.micro (p0.src * 2 ^ 32 + dva / 65536) = some ((s.inst p.inst).gen, leaf)
      ∧ ∀ n, t.inst n = { s.inst n with mmu := { (s.inst n).mmu with
          tlb := (t.inst n).mmu.tlb, micro := (t.inst n).mmu.micro, upper := (t.inst n).mmu.upper } })
  ∧ (∀ (s : State) (p0 : Pkt) (dva : Nat) (w : Bool) (st : Status) (lvl : Nat), let p := s.filled p0
    p0.len = 0 → p0.dst = 17 + p.inst % 2 → Delivered s p none →
    (s.inst p.inst).mmu.en = true → dva < 2 ^ 48 → s.cachedLeaves p.inst dva = [] →
    s.walk p.inst dva = .error (st, lvl) → isXlate st = true →
    ∃ t, exec (.walk p0 dva w) s = .next t ∧ Still s t
      ∧ (t.inst p.inst).mmu.faultValid = true ∧ (t.inst p.inst).mmu.tlb = (s.inst p.inst).mmu.tlb
      ∧ ((s.inst p.inst).mmu.faultValid = false →
          (t.inst p.inst).mmu.faultDva = BitVec.ofNat 48 dva
          ∧ (t.inst p.inst).mmu.faultInfo.setWidth 16 = BitVec.ofNat 16 st.toNat)
      ∧ ((s.inst p.inst).mmu.faultValid = true → (t.inst p.inst).mmu.faultDva = (s.inst p.inst).mmu.faultDva
          ∧ (t.inst p.inst).mmu.faultInfo = (s.inst p.inst).mmu.faultInfo))
  ∧ (∀ (s : State) (p0 : Pkt) (v : Nat), let p := s.filled p0
    p0.len = 0 → Delivered s p none → v < (if p.inst = 0 then 64 else 8) →
    ∃ t, exec (.irq p0 v) s = .next t
      ∧ t = { s with net := t.net, link := { s.link with funcs := t.link.funcs, posted := t.link.posted } }
      ∧ (s.msixOpen p.inst v = true → (t.vector p.inst v).pending = false
          ∧ t.link.posted = s.link.posted ++ [.msix p.inst v (s.vector p.inst v).addr (s.vector p.inst v).data])
      ∧ (s.msixOpen p.inst v = false → (t.vector p.inst v).pending = true ∧ t.link.posted = s.link.posted)
      ∧ ∀ g, g ≠ p.inst → t.func g = s.func g)
  ∧ (∀ (s : State) (p0 : Pkt), let p := s.filled p0
    p0.len = 0 → Delivered s p none →
    ∃ t, exec (.regRd p0) s = .next t ∧ t = { s with net := t.net, link := { s.link with readData := t.link.readData } }
      ∧ t.link.readData = leBytes 4 ((travelled s p none).readWord p.inst (p0.addr / 4 * 4)).toNat)
  ∧ (∀ (s : State) (p0 : Pkt) (v : BitVec 32) (n o : Nat), let p := s.filled p0
    p0.len = 1 → Delivered s p none → regionOf p.inst (p0.addr / 4 * 4) = some (.view n, o) →
    ∃ t, exec (.regWr p0 v) s = .next t ∧ t = { s with net := t.net, insts := t.insts, bus := { s.bus with ibis := t.bus.ibis } }
      ∧ t.inst n = { s.inst n with mmu := (s.inst n).mmu.write n o v s.now } ∧ ∀ m, m ≠ n → t.inst m = s.inst m)
  ∧ (∀ (s : State) (p : Pkt) (v : BitVec 32),
    (p.len ≠ 0 → exec (.regRd p) s = .next (malformedCounted s)
      ∧ exec (.irq p v.toNat) s = .next (malformedCounted s)
      ∧ exec (.walk p v.toNat false) s = .next (malformedCounted s))
    ∧ (p.len ≠ 1 → exec (.regWr p v) s = .next (malformedCounted s)))

/-- A response that answers an outstanding request ends it: the tag is free and the ticket back, and a response without an
error changes nothing else, but that a partition's read of memory lands in the SRAM its channel names (02 R37); a VOID ends it without being checked; a response under an old tag generation is counted in
NET_LATE and gives back a ticket written off (10 R216, R227, R229).
Loan tickets: a request of 1 to 8 joins the target's queue and the oldest request is granted when the pool holds the
tickets. Generations: a node takes an instance's generation into its table, and its answer ends the wait for it. A request
that is not answered in its limit ends as with ERR_TIMEOUT: its tag's generation advances, the tag is free and the ticket
written off (10 R216, R222, R227). -/
def Obligations.ResponsesTicketsGenerationsAndTimeouts : Prop :=
  (∀ (s : State) (p : Pkt) (r : NetReq), Answers s p r → p.typ ≠ 0x17 → s.waitsAt p.dst p.tag p.tgen = false →
    let k := pairKey p.dst r.dst
    let ended (t : State) : Prop :=
      tabGet t.net.reqs (tagKey p.dst p.tag) = none
        ∧ tabGetD t.net.out k 0 = tabGetD s.net.out k 0 - 1
        ∧ (r.loaned = true → tabGetD t.net.lent r.dst 0 = tabGetD s.net.lent r.dst 0 - 1
            ∧ tabGetD t.net.loans k 0 = tabGetD s.net.loans k 0 - 1)
        ∧ (r.loaned = false → t.net.lent = s.net.lent ∧ t.net.loans = s.net.loans)
        ∧ ∀ j, j ≠ tagKey p.dst p.tag → tabGet t.net.reqs j = tabGet s.net.reqs j
    let done (t : State) : Prop := t = { s with net := t.net } ∧ ended t
    (p.status = St.ok → p.len ≤ 8 → (r.atMc = false ∨ r.write = true) →
        ∃ t, exec (.rdRsp p false) s = .next t ∧ done t)
    ∧ (p.status = St.ok → p.len ≤ 8 → r.atMc = true → r.write = false →
        ∃ t, exec (.rdRsp p false) s = .next t ∧ Still s t ∧ ended t
          ∧ ∀ (d : Dma) (c : Cmd) (x : Replica), p.dst < 16 → r.dma = some d → s.runOf p.dst = some (c, x) → d.ring = false →
              cellsWf 0 ((s.part p.dst).sram d.sram) = true → d.off + r.len ≤ sramSize d.sram → r.data.length = r.len →
              t = { s with net := t.net, parts := t.parts } ∧ (t.part p.dst).readSram d.sram d.off r.len = r.data
                ∧ ∀ q, q ≠ p.dst → t.part q = s.part q)
    ∧ (p.status = St.ok → p.len = 0 → ∃ t, exec (.wrAck p) s = .next t ∧ done t)
    ∧ (p.len ≤ 1 → ∃ t, exec (.regRsp p) s = .next t ∧ done t)
    ∧ (p.len = 0 → ∃ t, exec (.voidPkt p) s = .next t ∧ done t))
  ∧ (∀ (s : State) (p : Pkt), s.cutOff p.src = false → s.cutOff p.dst = false →
    (p.dst < 16 → (s.part p.dst).state ≠ .gated) → s.waitsAt p.dst p.tag p.tgen = false →
    p.tgen ≠ s.tagGen p.dst p.tag → p.len = 0 → p.status = St.ok →
    let late (t : State) : Prop :=
      t = { s with net := t.net } ∧ t.net.late = satInc s.net.late ∧ t.net.reqs = s.net.reqs ∧ t.net.out = s.net.out
        ∧ tabGetD t.net.writtenOff (pairKey p.dst p.src) 0 = tabGetD s.net.writtenOff (pairKey p.dst p.src) 0 - 1
    (∃ t, exec (.rdRsp p false) s = .next t ∧ late t) ∧ (∃ t, exec (.wrAck p) s = .next t ∧ late t)
      ∧ (∃ t, exec (.regRsp p) s = .next t ∧ late t) ∧ (∃ t, exec (.voidPkt p) s = .next t ∧ late t))
  ∧ (∀ (s : State) (p : Pkt), 8 < p.len → ∀ (b : Bool),
    let bad := malformedCounted s
    exec (.rdRsp p b) s = .next bad ∧ exec (.wrAck p) s = .next bad ∧ exec (.regRsp p) s = .next bad
      ∧ exec (.voidPkt p) s = .next bad)
  ∧ (∀ (s : State) (p : Pkt) (k : Nat), p.len = 0 → 1 ≤ k → k ≤ 8 → k ≤ loanPool p.dst →
    ∃ t, exec (.ticketReq p k) s = .next t ∧ t = { s with net := t.net }
      ∧ t.net.loanQueue = s.net.loanQueue ++ [(p.dst, p.src, k)] ∧ t.net.loans = s.net.loans ∧ t.net.lent = s.net.lent)
  ∧ (∀ (s : State) (p : Pkt) (k : Nat), 0 < k → s.net.loanQueue.find? (fun e => e.1 == p.src) = some (p.src, p.dst, k) →
    s.cutOff p.dst = false → (p.dst < 16 → (s.part p.dst).state ≠ .gated) →
    (tabGetD s.net.lent p.src 0 + k ≤ loanPool p.src →
      ∃ t, exec (.ticketGrant p k) s = .next t ∧ t = { s with net := t.net }
        ∧ t.net.loanQueue = s.net.loanQueue.erase (p.src, p.dst, k)
        ∧ tabGetD t.net.lent p.src 0 = tabGetD s.net.lent p.src 0 + k
        ∧ tabGetD t.net.loans (pairKey p.dst p.src) 0 = tabGetD s.net.loans (pairKey p.dst p.src) 0 + k)
    ∧ (loanPool p.src < tabGetD s.net.lent p.src 0 + k → exec (.ticketGrant p k) s = .next (s.observe p)))
  ∧ (∀ (s : State) (p : Pkt) (k : Nat), p.dst < 16 → (s.part p.dst).state = .gated →
    exec (.ticketGrant p k) s = .next ((s.observe p).updBridge p.dst (fun b => { b with discard := satInc b.discard })))
  ∧ (∀ (s : State) (node : Fin 24) (n : Fin 33) (g : BitVec 16), node.val ∈ (s.inst n.val).genWait →
    g = (s.inst n.val).gen → s.cutOff node.val = false →
    let u := s.genUpdateSeen node.val
    ∃ t, exec (.genUpdate node n g) s = .next t
      ∧ t = { u with net := { u.net with gens := tabSet u.net.gens (node.val * 64 + n.val) g } }
      ∧ (node.val ≠ 19 → t.nodeGen node.val n.val = (t.inst n.val).gen))
  ∧ (∀ (s : State) (node : Fin 24) (n : Fin 33),
    (s.nodeGen node.val n.val = (s.inst n.val).gen →
      ∃ t, exec (.genAck node n) s = .next t ∧ t = { s.genAckSeen node.val with insts := t.insts }
        ∧ t.inst n.val = { s.inst n.val with genWait := (t.inst n.val).genWait }
        ∧ (∀ k, k ∈ (t.inst n.val).genWait ↔ k ∈ (s.inst n.val).genWait ∧ k ≠ node.val)
        ∧ ∀ m, m ≠ n.val → t.inst m = s.inst m)
    ∧ (s.nodeGen node.val n.val ≠ (s.inst n.val).gen → exec (.genAck node n) s = .next s))
  ∧ (∀ (s : State) (src : Fin 24) (tag : Fin 1024) (r : NetReq), tabGet s.net.reqs (tagKey src.val tag.val) = some r →
    let lim := (if r.dst = 16 then s.net.tmoHost else s.net.tmoPriv) * 1000
    (s.now < r.sentAt + lim → exec (.initiatorTimeout src tag) s = .next s)
    ∧ (r.sentAt + lim ≤ s.now →
      ∃ t, exec (.initiatorTimeout src tag) s = .next t ∧ Still s t
        ∧ tabGet t.net.reqs (tagKey src.val tag.val) = none
        ∧ t.tagGen src.val tag.val = (s.tagGen src.val tag.val + 1) % 16
        ∧ tabGetD t.net.writtenOff (pairKey src.val r.dst) 0 = tabGetD s.net.writtenOff (pairKey src.val r.dst) 0 + 1
        ∧ (16 ≤ src.val → src.val ≠ 19 → src.val ≠ 22 → src.val ≠ 23 → t = { s with net := t.net })
        ∧ (src.val = 19 → t = { s with net := t.net, fep := { s.fep with readErr := t.fep.readErr } })))

/-- Packets of VC2 and VC3 at a partition. A block of a Skim group lands in the next slot of the landing ring of a partition
that its mask addresses; a token spends a credit of its producer, which runs and has no unacknowledged write, and is counted at
the consumer, and FINAL is noted on both sides; a credit for a slot that an ended tile has read comes back to the producer; a
gated partition's bridge sinks the packet and counts it (03 R59, R61, 07 R157, R159, 10 R226).
The Skim engine sends the next block to every attached replica while no lag would pass the 64 KiB window, poisoned where memory
holds an uncorrectable word of it, and otherwise holds; it waits while its instance's share is spent and for the bytes of the
other controller; a slot freed by a member lowers its replica's lag; 4 µs after a hold began a replica that blocks the stream is
detached, and the hold ends, unless it is the last one attached (03 R61, R62, R67, R68, 04 R79, 18 R380). -/
def Obligations.SkimBlocksTokensAndCreditsFlow : Prop :=
  (∀ (s : State) (p : Fin 16) (pkt : Pkt) (g : Nat) (x : Skim) (k : SkimCopy) (c : Cmd) (r : Replica), pkt.len = 128 →
    s.skims.find? (fun e => e.2.engine + 22 == pkt.src && e.2.slot == pkt.slot && (e.2.copyFor p.val).isSome) = some (g, x) →
    s.skim g = x → x.copyFor p.val = some k → s.cmd x.slot x.seq = some c → k.poison = false →
    s.cutOff pkt.src = false → s.cutOff p.val = false → (s.part p.val).state ≠ .gated → s.voided (skimPkt pkt k c) = false →
    s.glove3 p.val (skimPkt pkt k c) = .pass → s.runOf p.val = some (c, r) →
    ∃ t, exec (.skim pkt p) s = .next t ∧ Still s t ∧ t = { s with net := t.net, parts := t.parts, skims := t.skims }
      ∧ (t.part p.val).landed = (s.part p.val).landed + 1
      ∧ (cellsWf 0 (s.part p.val).weight = true → k.data.length = 4096 →
          (t.part p.val).readSram .weight (ringSlot (s.part p.val).landed) 4096 = k.data)
      ∧ (t.skim g).flight = takeCopy p.val x.flight ∧ ∀ q, q ≠ p.val → t.part q = s.part q)
  ∧ (∀ (s : State) (p : Fin 16) (edge : Fin 32) (pkt : Pkt) (c : Cmd) (r : Replica) (e : Edge) (rs : Replica)
    (final marker : Bool), let h := s.filled pkt
    (s.savedRole p.val h.slot = some (c, r)
      ∨ (s.savedRole p.val h.slot = none ∧ h.typ ≠ 0x0C ∧ Received s p.val h ∧ s.runOf p.val = some (c, r))) →
    s.edgeOf c edge.val = some e → s.cmd c.slot c.seq = some c → c.relay = true → e.dst = r.role → r.leader = p.val →
    roleReplica c e.src = some rs → s.maySend c rs edge.val marker = true → (marker = true → final = true) →
    let fin (l : List Nat) : List Nat := if final then l ++ [edge.val] else l
    let producer (x : Replica) : Replica :=
      if x.idx = rs.idx then
        (if marker then { x with outFinal := fin x.outFinal }
         else { x with outFinal := fin x.outFinal
                       outSent := if x.outSent.contains edge.val then x.outSent else x.outSent ++ [edge.val]
                       outCredits := tabSet x.outCredits edge.val (tabGetD x.outCredits edge.val 0 - 1) })
      else x
    let consumer (x : Replica) : Replica :=
      if x.role = e.dst then
        (if marker then { x with inFinal := fin x.inFinal }
         else { x with inFinal := fin x.inFinal, inTokens := tabSet x.inTokens edge.val (tabGetD x.inTokens edge.val 0 + 1) })
      else x
    ∃ t, exec (.token p edge final marker pkt) s = .next t ∧ t = { s with net := t.net, cmds := t.cmds }
      ∧ t.cmd c.slot c.seq = some { c with replicas := (c.replicas.map producer).map consumer })
  ∧ (∀ (s : State) (p : Fin 16) (edge : Fin 32) (pkt : Pkt) (c : Cmd) (r : Replica) (e : Edge) (rd : Replica),
    let h := s.filled pkt
    (s.savedRole p.val h.slot = some (c, r)
      ∨ (s.savedRole p.val h.slot = none ∧ h.typ ≠ 0x0C ∧ Received s p.val h ∧ s.runOf p.val = some (c, r))) →
    s.edgeOf c edge.val = some e → s.cmd c.slot c.seq = some c → c.relay = true → e.src = r.role → r.leader = p.val →
    roleReplica c e.dst = some rd → rd.state = .running → 0 < tabGetD rd.owed edge.val 0 →
    let consumer (x : Replica) : Replica := if x.idx = rd.idx then { x with owed := tabModify x.owed edge.val (· - 1) } else x
    let producer (x : Replica) : Replica :=
      if x.role = e.src then
        { x with outCredits := tabSet x.outCredits edge.val (tabGetD x.outCredits edge.val 0 + 1) } else x
    ∃ t, exec (.credit p edge pkt) s = .next t ∧ t = { s with net := t.net, cmds := t.cmds }
      ∧ t.cmd c.slot c.seq = some { c with replicas := (c.replicas.map consumer).map producer })
  ∧ (∀ (s : State) (p : Fin 16) (edge : Fin 32) (pkt : Pkt) (final marker : Bool),
    s.savedRole p.val (s.filled pkt).slot = none →
    s.cutOff pkt.src = false → s.cutOff p.val = false → (s.part p.val).state = .gated →
    let sunk (t : State) : Prop := t = { s with net := t.net }
      ∧ (t.bridge p.val).discard = satInc (s.bridge p.val).discard
    (∃ t, exec (.token p edge final marker pkt) s = .next t ∧ sunk t)
      ∧ ∃ t, exec (.credit p edge pkt) s = .next t ∧ sunk t)
  ∧ (∀ (s : State) (g : Fin 8), (s.skim g.val).active = true → (s.skim g.val).lag ≠ [] →
    (s.skim g.val).allSent = false → s.rst.phase = .none → s.skimDrained (s.skim g.val) = false →
    let x := s.skim g.val
    let spent := (s.sharesNow x.inst).1 ≤ 2 * tabGetD s.mem.window (64 * x.engine + x.inst) 0
    let sends (poison : Bool) (t : State) : Prop :=
      Still s t ∧ (t.skim g.val).started = true ∧ (t.skim g.val).holding = none
        ∧ (t.skim g.val).lag = x.lag.map (fun e => (e.1, e.2 + 1))
        ∧ (x.head < x.stream.blocks → (t.skim g.val).head = x.head + 1 ∧ (t.skim g.val).pass = x.pass)
        ∧ (x.stream.blocks ≤ x.head → (t.skim g.val).head = 1 ∧ (t.skim g.val).pass = x.pass + 1)
        ∧ (∃ k, (t.skim g.val).flight = x.flight ++ [k] ∧ k.mask = x.maskFor x.block ∧ k.left = x.maskFor x.block
            ∧ (k.poison = (poison || x.poison)))
        ∧ ∀ j, j ≠ g.val → t.skim j = s.skim j
    ((∀ e ∈ x.lag, e.2 + 1 ≤ 16) → ¬ spent →
      (∀ bs rest, s.readDva x.inst x.nextDva 4096 [] = .bytes bs rest → s.foreign x ≤ x.fetched →
        ∃ t, exec (.skimBlockSend g) s = .next t ∧ sends false t
          ∧ ∃ k, (t.skim g.val).flight = x.flight ++ [k] ∧ k.data = bs)
      ∧ (∀ bs rest, s.readDva x.inst x.nextDva 4096 [] = .bytes bs rest → x.fetched < s.foreign x →
        exec (.skimBlockSend g) s = .next s)
      ∧ (∀ f, s.readDva x.inst x.nextDva 4096 [] = .fault f → f.status = St.memUncorrectable →
        ∃ t, exec (.skimBlockSend g) s = .next t ∧ sends true t))
    ∧ ((∀ e ∈ x.lag, e.2 + 1 ≤ 16) → spent → exec (.skimBlockSend g) s = .next s)
    ∧ ((∃ e ∈ x.lag, 16 < e.2 + 1) →
      (x.holding = none → exec (.skimBlockSend g) s = .next (s.updSkim g.val (fun x => { x with holding := some s.now })))
      ∧ (x.holding.isSome = true → exec (.skimBlockSend g) s = .next s)))
  ∧ (∀ (s : State) (g : Fin 8) (p : Fin 16) (c : Cmd) (r : Replica) (k : Nat),
    (s.skim g.val).lag = [(r.leader, k + 1)] → s.runOf r.leader = some (c, r) → c.slot = (s.skim g.val).slot →
    c.seq = (s.skim g.val).seq → p.val ∈ groupParts r.shape r.leader → (s.part p.val).owed ≠ 0 →
    ((s.skim g.val).allSent = false ∨ 0 < k) →
    ∃ t, exec (.slotCredit g p) s = .next t
      ∧ t = { s.slotCreditSeen p.val (s.skim g.val).engine with parts := t.parts, skims := t.skims }
      ∧ (t.skim g.val).lag = [(r.leader, k)]
      ∧ t.part p.val = { s.part p.val with owed := (s.part p.val).owed - 1 }
      ∧ (k < 16 → (t.skim g.val).holding = none))
  ∧ (∀ (s : State) (g : Fin 8) (u : Nat), (s.skim g.val).holding = some u →
    (s.now < u + 4000 → exec (.skimHoldExpiry g) s = .next s)
    ∧ (u + 4000 ≤ s.now → ∃ t, exec (.skimHoldExpiry g) s = .next t ∧ Still s t
        ∧ (∀ l k, (s.skim g.val).lag = [(l, k)] → (t.skim g.val).lag = [(l, k)]
            ∧ (t.skim g.val).holding = if k < 16 then none else some u)
        ∧ (∀ l k m j c r, (s.skim g.val).lag = [(l, k), (m, j)] → l ≠ m → 16 ≤ k → j < 16 →
            l ∉ (s.skim g.val).lagDetached → s.runOf l = some (c, r) →
            (t.skim g.val).lag = [(m, j)] ∧ (t.skim g.val).holding = none
              ∧ (t.skim g.val).detCount = satInc (s.skim g.val).detCount)))

/-- A flit that the far bridge refuses is sent again and counted; refused after 4 replays, or 2 µs after it was refused first, the
bridge gives up. A bridge that gives up is FATAL: a partition's shows the
partition offline with CAUSE 0 and starts the interval after which the FEP acts on its launch, once the other members have
ended their requests; that of the MGC complex
restarts the core, which trains it again; that of the I/O node trains itself again, its generation table refilled. A packet
of a reserved type is malformed (10 R212, R222, R224, R225, R232). -/
def Obligations.BridgesRetryGiveUpAndTrainAgain : Prop :=
  (∀ (s : State) (b : Fin 18) (again : Bool), (s.bridge b.val).fatal = false →
    let x := s.bridge b.val
    let spent := again = true ∧ (4 ≤ x.replays ∨ ∃ u, x.refusedAt = some u ∧ u + 2000 ≤ s.now)
    (¬ spent →
      ∃ t, exec (.bridgeNak b again) s = .next t
        ∧ t = { s with net := { s.net with bridges := t.net.bridges, retry := satInc s.net.retry } }
        ∧ t.bridge b.val = { x with crcErr := satInc x.crcErr, replays := if again then x.replays + 1 else 1
                                    refusedAt := if again then some (x.refusedAt.getD s.now) else some s.now }
        ∧ ∀ j, j ≠ b.val → t.bridge j = s.bridge j)
    ∧ (spent → exec (.bridgeNak b again) s =
        exec (.linkFatal b) (s.updBridge b.val (fun x => { x with crcErr := satInc x.crcErr }))))
  ∧ (∀ (s : State) (b : Fin 18) (again : Bool), (s.bridge b.val).fatal = true →
    exec (.bridgeNak b again) s = .next s ∧ exec (.linkFatal b) s = .next s)
  ∧ (∀ (s : State) (b : Fin 18), (s.bridge b.val).fatal = false → b.val < 16 →
    ∃ t, exec (.linkFatal b) s = .next t ∧ Still s t ∧ (t.bridge b.val).fatal = true
      ∧ (t.part b.val).state = .offline ∧ (t.part b.val).mcCause = 0 ∧ (t.part b.val).faultPending = true
      ∧ (t.part b.val).fatalUntil = some (s.now + max s.net.tmoPriv s.net.tmoHost * 1000)
      ∧ (t.part b.val).run = (s.part b.val).run ∧ (∀ n, b.val ∉ (t.inst n).genWait)
      ∧ ((s.part b.val).run = none → ∀ q, q ≠ b.val → Stepped (s.part q) (t.part q)))
  ∧ (∀ (s : State) (b : Fin 18), (s.bridge b.val).fatal = false → b.val = 16 → s.rst.phase = .none → s.levelOf 14 = 4 →
    s.mgc.fw = .running →
    ∃ t, exec (.linkFatal b) s = .next t ∧ Still s t ∧ (t.bridge 16).fatal = false ∧ t.mgc.fw = .restarting
      ∧ t.mgc.lastCause = 3 ∧ t.mgc.restarts = satInc s.mgc.restarts)
  ∧ (∀ (s : State) (b : Fin 18), (s.bridge b.val).fatal = false → b.val = 17 →
    ∃ t, exec (.linkFatal b) s = .next t ∧ Still s t ∧ (t.bridge 17).fatal = true ∧ t.parts = s.parts ∧ t.rst = s.rst
      ∧ ∀ n, 21 ∉ (t.inst n).genWait)
  ∧ (∀ (s : State) (p : Fin 16) (u : Nat), (s.part p.val).fatalUntil = some u → s.fepRuns = true →
    ((s.now < u ∨ s.lossReady p.val true = false) → exec (.linkFatalIntervalEnd p) s = .next s)
    ∧ (u ≤ s.now → s.lossReady p.val true = true → ∃ t, exec (.linkFatalIntervalEnd p) s = .next t ∧ Still s t
        ∧ t = (s.updPart p.val (fun x => { x with fatalUntil := none })).memberLost p.val 0x10 St.linkFatal))
  ∧ (∀ s : State, (s.bridge 17).fatal = true →
    ∃ t, exec .bridgeRetrained s = .next t ∧ t = { s with net := { s.net with bridges := t.net.bridges, gens := t.net.gens } }
      ∧ (t.bridge 17).fatal = false ∧ (∀ b, b ≠ 17 → t.bridge b = s.bridge b)
      ∧ ∀ n, n < 33 → t.nodeGen 21 n = (s.inst n).gen)
  ∧ (∀ (s : State) (p : Pkt), (typeDefined p.typ = false → exec (.reservedTypePacket p) s = .next (malformedCounted s))
    ∧ (typeDefined p.typ = true → exec (.reservedTypePacket p) s = .next s))

-- The front-end processor: queues and commands ------------------------------------------------------------------------------

/-- The fetch unit issues one read for an eligible slot, one from its pointer on before the others, and moves its pointer
past it. With the bytes there, stage 3 takes the command past its checks, refuses it with a status, or finds its instance
wrong, which makes it the queue's guilty point, as a ring read that fails does; a command that is not whole yet waits for its
other entries (06 R120, R124, R128, R134, 08 R162, R164, R166, 10 R223, 18 R380). -/
def Obligations.CommandsAreFetchedAndChecked : Prop :=
  (∀ s : State, s.fepRuns = true → (∃ e ∈ s.queues, s.fetchable e.1 e.2 = true) →
    ∃ k q t, (k, q) ∈ s.queues ∧ s.fetchable k q = true
      ∧ ((∃ e ∈ s.queues, s.fetchable e.1 e.2 = true ∧ s.fep.rrNext ≤ e.1) → s.fep.rrNext ≤ k)
      ∧ exec .fetchRead s = .next t
      ∧ t = { s with queues := t.queues, fep := { s.fep with
          rrNext := k + 1, threads := t.fep.threads, hostIn := t.fep.hostIn, readErr := t.fep.readErr } }
      ∧ (q.reads = 0 → s.queue k = some q → s.fepOut k = [] ∧ t.hostBytes k = [] ∧ t.streamErr k = none)
      ∧ (∀ j, j ≠ k → t.hostBytes j = s.hostBytes j ∧ t.streamErr j = s.streamErr j)
      ∧ (∃ th, tabGet t.fep.threads 0 = some th ∧ th.regs.length = 64
          ∧ ∀ x, s.queue k = some x → th.work = some (k, x.nextFetch.toNat))
      ∧ ∀ j, t.queue j = if j = k then (s.queue j).map (fun q => { q with reads := q.reads + 1 }) else s.queue j)
  ∧ (∀ s : State, (s.fepRuns = false ∨ ∀ e ∈ s.queues, s.fetchable e.1 e.2 = false) → exec .fetchRead s = .next s)
  ∧ (∀ (s : State) (slot : Fin 512) (q : Queue) (hd rest : List Byte), s.fepRuns = true →
    s.queue slot.val = some q → q.reads ≠ 0 → q.stopCause = 0 → q.guilty = none → q.abortLatched = false →
    s.fepOut slot.val = [] → s.streamErr slot.val = none →
    s.readRing q q.nextFetch 1 (s.hostBytes slot.val) = .bytes hd rest →
    let e := entriesOf q.desc.format hd
    let c := fun bs => mkCmd slot.val q bs e s.now
    let next := { q with nextFetch := q.nextFetch + BitVec.ofNat 32 e, reads := 0, need := none }
    (dist q.write q.nextFetch < e →
      ∃ t, exec (.commandCheck slot) s = .next t ∧ t = { s with queues := t.queues, fep := t.fep }
        ∧ t.queue slot.val = some { q with reads := 0, need := some e }
        ∧ ∀ j, j ≠ slot.val → t.queue j = s.queue j)
    ∧ (e ≤ dist q.write q.nextFetch → 4 * q.reads < e →
      ∃ t, exec (.commandCheck slot) s = .next t ∧ t = { s with queues := t.queues }
        ∧ t.queue slot.val = some { q with need := some e } ∧ ∀ j, j ≠ slot.val → t.queue j = s.queue j)
    ∧ (∀ bs r2, e ≤ dist q.write q.nextFetch → e ≤ 4 * q.reads →
      s.readRing q q.nextFetch e (s.hostBytes slot.val) = .bytes bs r2 →
      let verdict := (s.chargeRing q e).stage3 q (bs.take (entrySize q.desc.format))
      let only (t : State) : Prop := Still s t
        ∧ t = { s with queues := t.queues, cmds := t.cmds, fep := t.fep, insts := t.insts, mem := { s.mem with window := t.mem.window },
                       dict := { s.dict with memBytes := t.dict.memBytes, memCe := t.dict.memCe } }
      (verdict = .pass → ∃ t, exec (.commandCheck slot) s = .next t ∧ only t ∧ t.queue slot.val = some next
        ∧ (∃ th, tabGet t.fep.threads 1 = some th ∧ th.work = some (slot.val, q.nextFetch.toNat))
        ∧ t.cmd slot.val q.nextFetch.toNat = some (c bs)
        ∧ (∀ j, j ≠ cmdKey slot.val q.nextFetch.toNat → tabGet t.cmds j = tabGet s.cmds j))
      ∧ (∀ st, verdict = .refuse st → Filed s slot.val →
        ∃ t x, exec (.commandCheck slot) s = .next t ∧ only t
        ∧ t.cmd slot.val q.nextFetch.toNat = some x ∧ x = { finishCmd (c bs) st 0 with resv := x.resv }
        ∧ (t.queue slot.val).map (·.nextFetch) = some next.nextFetch)
      ∧ (verdict = .glove → q.guiltSaid = false → q.resetDone = false →
        ∃ t, exec (.commandCheck slot) s = .next t ∧ Still s t ∧ GuiltyAt t slot.val q.nextFetch St.gloveMismatch)))
  ∧ (∀ (s : State) (slot : Fin 512) (q : Queue) (st : Status), s.fepRuns = true → s.queue slot.val = some q → q.reads ≠ 0 →
    q.stopCause = 0 → Clean s slot.val → s.fepOut slot.val = [] →
    (s.streamErr slot.val = some st ∨ ∃ f, s.streamErr slot.val = none
      ∧ s.readRing q q.nextFetch 1 (s.hostBytes slot.val) = .fault f ∧ f.status = st) →
    ∃ t, exec (.commandCheck slot) s = .next t ∧ Still s t ∧ GuiltyAt t slot.val q.nextFetch st)

/-- A checked command whose earlier commands have passed the checks, and whose earlier handle commands have had their
effect, is relocated: its pairs name DVAs, or it is refused with the first pair's status; a launch takes its graph's current
version and its assembled constant buffer with the relocation slots replaced; the handles read stand in the handle cache
(04 R88, R89, R90, 07 R149, R151).
Relocating one handle pair gives: an uncorrectable word of the handle's entry, a stale handle, a range past its extent or the DVA space, an access it does not allow, or
BASE plus the offset, in this order (04 R76, R86). -/
def Obligations.CommandsAreRelocatedInOrder : Prop :=
  (∀ (s : State) (slot : Fin 512) (seq : BitVec 32) (c : Cmd) (q : Queue), s.fepRuns = true →
      s.cmd slot.val seq.toNat = some c → c.slot = slot.val → c.seq = seq.toNat → s.queue slot.val = some q →
      c.stage = .checked →
      ((s.earlier c).all (fun x => x.stage != .checked && (!isHandleCmd x || x.effectDone || x.stage == .ended)
          && (x.opcode != opPatch || x.accepted || x.stage == .ended)) = true →
        (c.opcode ≠ opLaunch → ∀ ds, s.relocPairs c.inst (cmdPairs c) = .ok ds →
          ∃ t, exec (.relocate slot seq) s = .next t ∧ t = { s with cmds := t.cmds, fep := t.fep }
            ∧ t.cmd slot.val seq.toNat = some { c with stage := .relocated, dvas := ds }
            ∧ (∀ e ∈ t.fep.hcache, e ∈ s.fep.hcache ∨ e.2 = s.handle c.inst (e.1 % 4096))
            ∧ ∀ j, j ≠ cmdKey slot.val seq.toNat → tabGet t.cmds j = tabGet s.cmds j)
        ∧ (c.opcode ≠ opLaunch → ∀ st, s.relocPairs c.inst (cmdPairs c) = .error st →
          Filed s slot.val →
          ∃ t x, exec (.relocate slot seq) s = .next t ∧ t = { s with cmds := t.cmds, queues := t.queues, fep := t.fep }
            ∧ t.cmd slot.val seq.toNat = some x ∧ x.stage = .ended ∧ x.status = st ∧ x.accepted = c.accepted)
        ∧ (c.opcode = opLaunch → ∀ g v cb ds sd, s.graph c.inst c.graph = some g → g.current.bind (graphVersion? g) = some v →
          s.relocCb c.inst g.fixed.relocs (assembleCb g.fixed (s.patchBytes v)
            ((c.bytes.drop 64).take (launchCbLen q.desc.format c.bytes))) = .ok (cb, ds) →
          s.relocStreams c.inst v (launchVariants g.fixed c.role) [] = .ok sd →
          ∃ t, exec (.relocate slot seq) s = .next t ∧ t = { s with cmds := t.cmds, fep := t.fep }
            ∧ t.cmd slot.val seq.toNat = some { c with stage := .relocated, cb := cb, dvas := ds, streamDva := sd,
                                                       version := v.num, relay := g.fixed.relay }))
      ∧ ((s.earlier c).any (fun x => x.stage == .checked) = true → exec (.relocate slot seq) s = .next s))
  ∧ (∀ (s : State) (n : Nat) (h : BitVec 32) (off len : Nat) (rd wr : Bool),
      let e := s.handle n (h.toNat % 4096)
      let size := if e.size = 0 then 2 ^ 40 else e.size
      (s.handleBad n (h.toNat % 4096) = true → s.relocPair n h off len rd wr = .error St.memUncorrectable)
      ∧ (s.handleBad n (h.toNat % 4096) = false → (e.bound = false ∨ e.gen ≠ h.toNat / 4096) →
        s.relocPair n h off len rd wr = .error St.handleStale)
      ∧ (s.handleBad n (h.toNat % 4096) = false → e.bound = true → e.gen = h.toNat / 4096 →
        ((size < off + len ∨ 2 ^ 48 < e.base + off + len) → s.relocPair n h off len rd wr = .error St.handleRange)
        ∧ (off + len ≤ size → e.base + off + len ≤ 2 ^ 48 →
          (((rd = true ∧ e.rd = false) ∨ (wr = true ∧ e.wr = false)) →
            s.relocPair n h off len rd wr = .error St.handleAccess)
          ∧ ((rd = true → e.rd = true) → (wr = true → e.wr = true) → s.relocPair n h off len rd wr = .ok (e.base + off)))))

/-- The acceptance point of the command at READ with its conditions met: it takes its place in the acceptance order and the
instance's generation, READ passes its entries and any commands refused behind it, and its reservation is held; a launch with a constant buffer takes a pool
slot and the buffer is written there; a PATCH makes the version it has built current. With the queue stopped, an abort
latched or a generation update under way nothing happens (01 R17, R18, 04 R91, 06 R121, R132, 07 R147, R148). -/
def Obligations.TheAcceptancePoint : Prop :=
  ∀ (s : State) (slot : Fin 512) (seq : BitVec 32) (c : Cmd) (q : Queue), s.fepRuns = true →
    s.cmd slot.val seq.toNat = some c → c.slot = slot.val → c.seq = seq.toNat → s.queue slot.val = some q →
    c.stage = .relocated → q.read = seq → Filed s slot.val →
    let passed := q.passEntries c.entries
    let nothingRefused := passed.atGuilty = false
      ∧ ∀ x, s.cmd slot.val passed.read.toNat = some x → x.accepted = true ∨ x.stage ≠ .ended
    (q.stopCause = 0 → q.abortLatched = false → (s.inst c.inst).genWait = [] → s.instWorks c.inst = true →
      s.inflight slot.val < 32 → s.ringSpace slot.val q (if c.opcode = opLaunch then 16 else 1) = true →
      (c.opcode ≠ opPatch → c.cb = [] →
        ∃ t x, exec (.acceptancePoint slot seq) s = .next t
          ∧ t = { s with cmds := t.cmds, queues := t.queues, fep := t.fep, contracts := t.contracts }
          ∧ t.cmd slot.val seq.toNat = some x ∧ x.accepted = true ∧ x.order = s.fep.nextOrder
          ∧ x.gen = (s.inst c.inst).gen ∧ x.stage = .waiting ∧ x.stage6At = s.now ∧ x.pool = none
          ∧ x.resv = (if c.opcode = opLaunch then 16 else 1)
          ∧ (c.contract = 0 → x.cls = c.cls ∧ x.key = 0)
          ∧ (nothingRefused → t.queue slot.val = some passed) ∧ t.fep.nextOrder = s.fep.nextOrder + 1)
      ∧ (c.opcode ≠ opPatch → c.cb ≠ [] → ∀ k, s.poolSlot c.contract = some k → Memory.wf s = true →
        ∃ t x, exec (.acceptancePoint slot seq) s = .next t
          ∧ t = { s with cmds := t.cmds, queues := t.queues, fep := t.fep, contracts := t.contracts,
                         mem := { s.mem with cells := t.mem.cells } }
          ∧ t.cmd slot.val seq.toNat = some x ∧ x.accepted = true ∧ x.pool = some k ∧ x.gen = (s.inst c.inst).gen
          ∧ t.fep.pool = k :: s.fep.pool ∧ (nothingRefused → t.queue slot.val = some passed)
          ∧ t.readPrivN (0x800000 + 4096 * k) c.cb.length = c.cb
          ∧ ∀ a, a < 0x800000 + 4096 * k ∨ 0x800000 + 4096 * k + c.cb.length ≤ a → t.readPriv a = s.readPriv a)
      ∧ (c.opcode ≠ opPatch → c.cb ≠ [] → s.poolSlot c.contract = none → exec (.acceptancePoint slot seq) s = .next s)
      ∧ (c.opcode = opPatch → ∀ g pages cur, s.graph c.inst c.graph = some g → c.built = some pages →
        g.current = some cur →
        (tabVals s.cmds).any (fun x => x.opcode == opLaunch && x.stage == .relocated && x.inst == c.inst
          && x.graph == c.graph) = false →
        ∃ t g', exec (.acceptancePoint slot seq) s = .next t ∧ Still s t
          ∧ t.graph c.inst c.graph = some g'
          ∧ g'.current = some (nextVersionNum (g.versions.map (·.num)) cur 8)
          ∧ (⟨nextVersionNum (g.versions.map (·.num)) cur 8, pages⟩ : GVersion) ∈ g'.versions
          ∧ (nothingRefused → t.queue slot.val = some passed)))
    ∧ ((q.stopCause ≠ 0 ∨ q.abortLatched = true ∨ (s.inst c.inst).genWait ≠ [] ∨ s.instWorks c.inst = false) →
      exec (.acceptancePoint slot seq) s = .next s)

/-- Stage 6. A NOP ends with OK, and a WAIT is examined, behind a FENCE only once the earlier commands have their records; a
BARRIER and a SIGNAL wait for them; a SIGNAL that does not raise its semaphore ends with SEM_NO_CHANGE; a WAIT ends once its semaphore has the
value, ends with DEP_ABORTED where the poisoning covers it, and otherwise takes a scoreboard entry or waits in order of
arrival for one; a launch passes in the same way; thread T4 works on each (06 R123, R125, R129, R130, 08 R162, 18 R388). -/
def Obligations.CommandsPassStageSix : Prop :=
  ∀ (s : State) (slot : Fin 512) (seq : BitVec 32) (c : Cmd),
    let free := c.fence = false ∨ s.earlier c = []
    let ends (t : State) (st : Status) (r : BitVec 64) : Prop :=
      CmdBecomes s t slot.val seq.toNat (finishCmd (beginCmd c s.now) st r)
        ∧ ∃ th, tabGet t.fep.threads 4 = some th ∧ th.work = some (slot.val, seq.toNat)
    let aborts (t : State) (p : BitVec 64) : Prop :=
      t = { s with cmds := t.cmds, fep := { s.fep with threads := t.fep.threads, pool := t.fep.pool } }
        ∧ t.cmd slot.val seq.toNat = some { finishCmd c St.depAborted p with pool := none }
        ∧ (∀ j, j ≠ cmdKey slot.val seq.toNat → tabGet t.cmds j = tabGet s.cmds j)
        ∧ t.fep.pool = s.fep.pool.filter (fun k => c.pool != some k)
    (AtSix s slot.val seq.toNat opNop c →
      (free → ∃ t, exec (.nop slot seq) s = .next t ∧ ends t St.ok 0)
      ∧ (c.fence = true → s.earlier c ≠ [] → exec (.nop slot seq) s = .next s))
    ∧ (AtSix s slot.val seq.toNat opBarrier c →
      (s.earlier c = [] → ∃ t, exec (.barrier slot seq) s = .next t ∧ ends t St.ok 0)
      ∧ (s.earlier c ≠ [] → exec (.barrier slot seq) s = .next s))
    ∧ (AtSix s slot.val seq.toNat opSignal c → ∀ i v, c.sigSem = some (i, v) →
      (s.earlier c = [] → (s.sem c.inst i).value.toNat < v → ∃ t, exec (.signal slot seq) s = .next t ∧ ends t St.ok 0)
      ∧ (s.earlier c = [] → v ≤ (s.sem c.inst i).value.toNat →
          ∃ t, exec (.signal slot seq) s = .next t ∧ ends t St.semNoChange 0)
      ∧ (s.earlier c ≠ [] → exec (.signal slot seq) s = .next s))
    ∧ (AtSix s slot.val seq.toNat opWait c → ∀ i w, c.waitSem = some (i, w) →
      let x := s.sem c.inst i
      let us := semTimeoutUs c.bytes
      let until_ := if us = 0 then none else some (c.stage6At + us * 1000)
      (free → w ≤ x.value.toNat → ∃ t, exec (.wait slot seq) s = .next t ∧ ends t St.ok 0)
      ∧ (∀ p, free → x.value.toNat < w → x.poison = some p → w ≤ p.toNat → c.sigSem = none →
          ∃ t, exec (.wait slot seq) s = .next t ∧ aborts t p)
      ∧ (free → x.value.toNat < w → (∀ p, x.poison = some p → p.toNat < w) → c.inScoreboard = false →
          (s.sbFree c.contract = true → s.fep.sbFifo = [] → ∃ t, exec (.wait slot seq) s = .next t
            ∧ CmdBecomes s t slot.val seq.toNat { c with waitUntil := until_, inScoreboard := true })
          ∧ (s.sbFree c.contract = false → (slot.val, seq.toNat) ∉ s.fep.sbFifo →
            ∃ t, exec (.wait slot seq) s = .next t
              ∧ t = { s with cmds := t.cmds, fep := { s.fep with
                  threads := t.fep.threads, sbFifo := s.fep.sbFifo ++ [(slot.val, seq.toNat)] } }
              ∧ t.cmd slot.val seq.toNat = some { c with waitUntil := until_ })
          ∧ (∀ e, s.sbFirst = some e → e ≠ (slot.val, seq.toNat) → s.sbOwn c.contract = false →
            ∃ t y, exec (.wait slot seq) s = .next t ∧ t.cmd slot.val seq.toNat = some y ∧ y.inScoreboard = false
              ∧ (slot.val, seq.toNat) ∈ t.fep.sbFifo))
      ∧ (¬ free → exec (.wait slot seq) s = .next s))
    ∧ (AtSix s slot.val seq.toNat opLaunch c →
      (c.waitSem = none → ∃ t, exec (.launchGraph slot seq) s = .next t
        ∧ CmdBecomes s t slot.val seq.toNat { c with stage := .passed })
      ∧ (∀ i w, c.waitSem = some (i, w) →
        let x := s.sem c.inst i
        (w ≤ x.value.toNat → ∃ t, exec (.launchGraph slot seq) s = .next t
          ∧ CmdBecomes s t slot.val seq.toNat { c with stage := .passed, waitSem := none, inScoreboard := false })
        ∧ (∀ p, x.value.toNat < w → x.poison = some p → w ≤ p.toNat → c.sigSem = none →
          ∃ t, exec (.launchGraph slot seq) s = .next t ∧ aborts t p)
        ∧ (x.value.toNat < w → (∀ p, x.poison = some p → p.toNat < w) → c.inScoreboard = true →
          ∃ t, exec (.launchGraph slot seq) s = .next t
            ∧ t = { s with fep := { s.fep with threads := t.fep.threads } })))

/-- A WAIT whose time at stage 6 has passed ends with WAIT_TIMEOUT; the oldest command waiting for a scoreboard entry takes
one that is free, and none is taken while none is; a command past stage 6 enters the priority queue, class 0 by its deadline
and the others by the time of entry, where an entry is free for it; a launch of class 0 whose contract has been suspended since
enters in its queue's class (06 R126, R130, 01 R20, 08 R167, R169, 09 R199, R202). -/
def Obligations.WaitsTimeOutAndReadyCommandsQueue : Prop :=
  (∀ (s : State) (slot : Fin 512) (seq : BitVec 32) (c : Cmd) (u : Nat), s.cmd slot.val seq.toNat = some c →
    c.slot = slot.val → c.seq = seq.toNat → c.waitUntil = some u → s.fepRuns = true → c.stage = .waiting →
    c.cancelled = false → s.instWorks c.inst = true →
    (s.now < u → exec (.waitTimeout slot seq) s = .next s)
    ∧ (u ≤ s.now → ∃ t, exec (.waitTimeout slot seq) s = .next t
        ∧ t = { s with cmds := t.cmds, fep := { s.fep with sbFifo := t.fep.sbFifo } }
        ∧ t.cmd slot.val seq.toNat = some (finishCmd c St.waitTimeout 0)
        ∧ ∀ e, e ∈ t.fep.sbFifo ↔ e ∈ s.fep.sbFifo ∧ e ≠ (slot.val, seq.toNat)))
  ∧ (∀ (s : State) (a b i w : Nat) (c : Cmd), s.fepRuns = true → s.sbFirst = some (a, b) →
    s.cmd a b = some c → c.slot = a → c.seq = b → c.waitSem = some (i, w) → waitRes (s.sem c.inst i) w = .waits →
    (s.sbFree c.contract = true → ∃ t, exec .scoreboardAdmit s = .next t
      ∧ t = { s with cmds := t.cmds, fep := { s.fep with sbFifo := t.fep.sbFifo } }
      ∧ (∀ e, e ∈ t.fep.sbFifo ↔ e ∈ s.fep.sbFifo ∧ e ≠ (a, b))
      ∧ ∃ x, t.cmd a b = some x ∧ x = { c with inScoreboard := true, waitUntil := x.waitUntil })
    ∧ (s.sbFree c.contract = false → exec .scoreboardAdmit s = .next s))
  ∧ (∀ s : State, (s.fepRuns = false ∨ s.fep.sbFifo = []) → exec .scoreboardAdmit s = .next s)
  ∧ (∀ (s : State) (slot : Fin 512) (seq : BitVec 32) (c : Cmd), s.cmd slot.val seq.toNat = some c → c.slot = slot.val →
    c.seq = seq.toNat → s.fepRuns = true → s.instWorks c.inst = true →
    (c.opcode = opLaunch ∧ c.stage = .passed ∧ c.cancelled = false
      ∨ (c.opcode = opCopy ∨ c.opcode = opFill) ∧ c.stage = .waiting ∧ s.headOfSix c = true) →
    let own := (tabVals s.cmds).any (fun x => x.contract == c.contract && x.pqEntry == some true)
    let enters (b : Bool) : Prop := ∃ t x, exec (.priorityQueueInsert slot seq) s = .next t
      ∧ CmdBecomes s t slot.val seq.toNat x
      ∧ x = { c with stage := .queued, pqEntry := some b, cls := x.cls, key := if x.cls = 0 then c.key else s.now }
      ∧ (c.cls ≠ 0 → x.cls = c.cls)
      ∧ (∀ k, tabGet s.contracts c.contract = some k → k.state ≠ .suspended → x.cls = c.cls)
      ∧ (∀ k q, c.cls = 0 → tabGet s.contracts c.contract = some k → s.queue c.slot = some q → k.state = .suspended →
          x.cls = q.desc.cls)
    (c.contract ≠ 0 → c.early = false → (tabGet s.contracts c.contract).isSome = true → own = false → enters true)
    ∧ ((c.contract = 0 ∨ c.early = true ∨ own = true) →
      (s.pqUsed - s.pqReservedUsed < 256 - s.heldContracts → enters false)
      ∧ (256 - s.heldContracts ≤ s.pqUsed - s.pqReservedUsed → exec (.priorityQueueInsert slot seq) s = .next s)))

/-- HANDLE_BIND writes BASE, SIZE, RD and WR of an entry that is not bound, keeps its generation and returns the handle; a
bound entry makes it HANDLE_BUSY. HANDLE_FREE frees a bound entry of that generation and advances it, 0xF_FFFF going to 1;
otherwise it is HANDLE_STALE. No other entry changes, and the handle cache drops the entry written (04 R87, R90, 06 R127). -/
def Obligations.HandlesAreBoundAndFreed : Prop :=
  ∀ (s : State) (slot : Fin 512) (seq : BitVec 32) (c : Cmd),
    let i := bits (field c.bytes 8 2) 11 0
    let h := s.handle c.inst i
    let done (t : State) (st : Status) (r : BitVec 64) : Prop :=
      t.cmd slot.val seq.toNat = some { finishCmd (beginCmd c s.now) st r with effectDone := true }
    let others (t : State) : Prop :=
      t = { s with cmds := t.cmds, insts := t.insts, fep := { s.fep with hcache := t.fep.hcache }
                   mem := { s.mem with bad := t.mem.bad } }
      ∧ (∀ e, e ∈ t.fep.hcache ↔ e ∈ s.fep.hcache ∧ e.1 ≠ c.inst * 4096 + i)
      ∧ (∀ m, m ≠ c.inst → t.inst m = s.inst m) ∧ (∀ j, j ≠ i → t.handle c.inst j = s.handle c.inst j)
      ∧ t.inst c.inst = { s.inst c.inst with handles := (t.inst c.inst).handles }
    (HandleTurn s slot.val seq.toNat opHandleBind c →
      (h.bound = false → ∃ t, exec (.handleBind slot seq) s = .next t ∧ others t
        ∧ done t St.ok ((handleValue i h.gen).setWidth 64)
        ∧ t.handle c.inst i = ⟨field c.bytes 16 6, field c.bytes 24 5, h.gen, bit (field c.bytes 8 2) 12,
            bit (field c.bytes 8 2) 13, true⟩)
      ∧ (h.bound = true → ∃ t, exec (.handleBind slot seq) s = .next t ∧ t = { s with cmds := t.cmds }
        ∧ done t St.handleBusy 0))
    ∧ (HandleTurn s slot.val seq.toNat opHandleFree c →
      (h.bound = true → h.gen = field c.bytes 10 4 / 4096 → ∃ t, exec (.handleFree slot seq) s = .next t ∧ others t
        ∧ done t St.ok 0
        ∧ t.handle c.inst i = { h with bound := false, gen := if h.gen = 0xFFFFF then 1 else h.gen + 1 })
      ∧ ((h.bound = false ∨ h.gen ≠ field c.bytes 10 4 / 4096) →
        ∃ t, exec (.handleFree slot seq) s = .next t ∧ t = { s with cmds := t.cmds } ∧ done t St.handleStale 0))

/-- COPY and FILL on their channel, one of four. The bytes of the source, or the pattern repeated, are written at the destination,
charged to the instance's share; the command ends with OK and its channel is free, with none of its host bytes kept; nothing
outside the extents written changes. A COPY whose host bytes have not all come waits. An access that faults, or a read of the
channel that ended with an error, ends the command with its status, or makes it the queue's guilty point where the status is a
guilty one (04 R79, R81, 06 R126, R127, R134, 10 R223). The bytes of a COPY whose extents overlap are free values (log entry 14). -/
def Obligations.CopyAndFillWriteTheirDestination : Prop :=
  ∀ (s : State) (slot : Fin 512) (seq : BitVec 32) (c : Cmd) (ch : Nat), Memory.wf s = true →
    let done (t u : State) : Prop :=
      t = { u with cmds := t.cmds, fep := { u.fep with hostIn := t.fep.hostIn, readErr := t.fep.readErr } }
        ∧ t.hostBytes (512 + ch) = [] ∧ t.streamErr (512 + ch) = none
        ∧ t.cmd slot.val seq.toNat = some { finishCmd c St.ok 0 with chan := none }
    let fails (op : Instr) (st : Status) : Prop :=
      (St.isGuilty st = false → ∃ t, exec op s = .next t ∧ Still s t
          ∧ t.cmd slot.val seq.toNat = some { finishCmd c st 0 with chan := none })
      ∧ (St.isGuilty st = true → Clean s slot.val → ∃ t, exec op s = .next t ∧ Still s t ∧ GuiltyAt t slot.val seq st)
    (OnChannel s slot.val seq.toNat opCopy c ch → ∀ src dst, c.dvas = [src, dst] →
      let len := field c.bytes 32 8
      let s1 := s.chargeRead c.inst src len
      (∀ st, s.streamErr (512 + ch) = some st → fails (.copy slot seq) st)
      ∧ (s.streamErr (512 + ch) = none →
        (∀ bs rest, s.readDva c.inst src len (s.hostBytes (512 + ch)) = .bytes bs rest →
          (overlap src dst bs.length = false → ∀ u, s1.writeDva c.inst dst bs = (u, none) →
            ∃ t, exec (.copy slot seq) s = .next t ∧ done t u ∧ OnlyStores s1 t c.inst dst bs
              ∧ (∀ a, s1.readPriv a = s.readPriv a)
              ∧ (∀ a, s1.translate c.inst dst true = .priv a → dst % 65536 + bs.length ≤ 65536 →
                  t.readPrivN a bs.length = bs))
          ∧ (overlap src dst bs.length = true →
            ∀ u, (freeBytes bs.length s1).2.writeDva c.inst dst (freeBytes bs.length s1).1 = (u, none) →
            ∃ t, exec (.copy slot seq) s = .next t ∧ done t u
              ∧ OnlyStores (freeBytes bs.length s1).2 t c.inst dst (freeBytes bs.length s1).1))
        ∧ (s.readDva c.inst src len (s.hostBytes (512 + ch)) = .short → exec (.copy slot seq) s = .next s)
        ∧ (∀ f, s.readDva c.inst src len (s.hostBytes (512 + ch)) = .fault f → fails (.copy slot seq) f.status)))
    ∧ (OnChannel s slot.val seq.toNat opFill c ch → ∀ dst, c.dvas = [dst] →
      let bs := fillBytes (field c.bytes 12 4) (field c.bytes 24 8)
      (∀ st, s.streamErr (512 + ch) = some st → fails (.fill slot seq) st)
      ∧ (s.streamErr (512 + ch) = none →
        (∀ u, s.writeDva c.inst dst bs = (u, none) →
          ∃ t, exec (.fill slot seq) s = .next t ∧ done t u ∧ OnlyStores s t c.inst dst bs
            ∧ (∀ a, s.translate c.inst dst true = .priv a → dst % 65536 + bs.length ≤ 65536 → t.readPrivN a bs.length = bs))
        ∧ (∀ u f, s.writeDva c.inst dst bs = (u, some f) →
          (St.isGuilty f.status = false → ∃ t, exec (.fill slot seq) s = .next t ∧ OnlyStores s t c.inst dst bs
            ∧ t.cmd slot.val seq.toNat = some { finishCmd c f.status 0 with chan := none })
          ∧ (St.isGuilty f.status = true → Clean s slot.val →
            ∃ t, exec (.fill slot seq) s = .next t ∧ GuiltyAt t slot.val seq f.status ∧ OnlyStores s t c.inst dst bs))))

/-- PATCH. With its turn come, its FENCE met and a copy channel free, it takes the lowest free channel and its graph's build, and
goes on as one that holds them: once its source's bytes are there, its quota kept and pages free, it builds the new version's
pages, the touched ones anew and the others shared, and its channel is free again; it fails with GRAPH_STORE_FULL, GRAPH_LIMITS or
the status of its source's fault, or waits its turn (07 R146, R150, R151, 06 R123, R127). -/
def Obligations.PatchBuildsTheNewVersion : Prop :=
  ∀ (s : State) (slot : Fin 512) (seq : BitVec 32) (c : Cmd) (g : Graph) (cur : GVersion),
    s.cmd slot.val seq.toNat = some c → c.slot = slot.val → c.seq = seq.toNat → s.fepRuns = true → c.opcode = opPatch →
    c.stage = .relocated → c.built = none → s.graph c.inst c.graph = some g → g.current.bind (graphVersion? g) = some cur →
    let me := (slot.val, seq.toNat)
    let ws := if me ∈ g.waiters then g.waiters else g.waiters ++ [me]
    (c.chan = none →
      let turn := g.builder = none ∧ ws.head? = some me ∧ g.versions.length ≤ 7 ∧ s.fenceOk c = true
      (∀ ch, turn → lowestFree s.chansUsed 0 4 = some ch →
        exec (.patch slot seq) s = exec (.patch slot seq) (((s.setGraph c.inst c.graph
            { g with builder := some me, waiters := ws.filter (· != me) }).resetStream (512 + ch)).setCmd
              { beginCmd c s.now with chan := some ch }))
      ∧ ((¬ turn ∨ lowestFree s.chansUsed 0 4 = none) →
        exec (.patch slot seq) s = .next (s.setGraph c.inst c.graph { g with waiters := ws })))
    ∧ (∀ ch, c.chan = some ch → s.fepOut (512 + ch) = [] → s.privSpent c.inst = false →
      let len := field c.bytes 28 4
      let src := c.dvas.headD 0
      let fails (st : Status) : Prop :=
        ∃ t x, exec (.patch slot seq) s = .next t ∧ Still s t ∧ t.pages = s.pages
          ∧ t.cmd slot.val seq.toNat = some x ∧ x.stage = .ended ∧ x.status = st ∧ x.chan = none
      let failsOrGuilty (st : Status) : Prop :=
        (St.isGuilty st = false → Filed s slot.val → fails st)
        ∧ (St.isGuilty st = true → Clean s slot.val →
            ∃ t, exec (.patch slot seq) s = .next t ∧ Still s t ∧ GuiltyAt t slot.val seq st)
      (∀ st, s.streamErr (512 + ch) = some st → failsOrGuilty st)
      ∧ (s.streamErr (512 + ch) = none →
        (s.readDva c.inst src len (s.hostBytes (512 + ch)) = .short → exec (.patch slot seq) s = .next s)
        ∧ (∀ f, s.readDva c.inst src len (s.hostBytes (512 + ch)) = .fault f → failsOrGuilty f.status)
        ∧ (∀ bs rest, s.readDva c.inst src len (s.hostBytes (512 + ch)) = .bytes bs rest →
          let tgt := field c.bytes 24 4
          let lo := tgt / 256
          let hi := (tgt + bs.length - 1) / 256
          let k := hi + 1 - lo
          let room := s.storeCharge c.inst + k ≤ (s.inst c.inst).limits.storeKiB * 4
          (∀ fresh, room → freePages (tabKeys s.pages) 0 s.storePages k = some fresh →
            streamsOk g.fixed (patched (s.patchBytes cur) tgt bs) = true →
            ∃ t, exec (.patch slot seq) s = .next t
              ∧ t = { s with cmds := t.cmds, insts := t.insts, pages := t.pages
                             fep := { s.fep with hostIn := t.fep.hostIn, readErr := t.fep.readErr }
                             mem := { s.mem with window := t.mem.window }
                             dict := { s.dict with memBytes := t.dict.memBytes, memCe := t.dict.memCe } }
              ∧ t.cmd slot.val seq.toNat = some { c with built := some (newPageMap cur.pages lo hi fresh), chan := none }
              ∧ t.graph c.inst c.graph = some g
              ∧ ∀ p, p ∉ fresh → tabGet t.pages p = tabGet s.pages p)
          ∧ (∀ st, ((¬ room ∨ freePages (tabKeys s.pages) 0 s.storePages k = none) ∧ st = St.graphStoreFull
              ∨ room ∧ (∃ fresh, freePages (tabKeys s.pages) 0 s.storePages k = some fresh)
                  ∧ streamsOk g.fixed (patched (s.patchBytes cur) tgt bs) = false ∧ st = St.graphLimits) →
            Filed s slot.val → fails st))))

/-- The next completion record of an ended command goes out in its turn, once the records of every earlier command of its queue
have been acknowledged: its address and bytes are in flight and CPL advances; the command's last record leaves it waiting for the
acknowledgement. A command of a stale generation is dropped without a record and counted; on a queue whose ring is broken the
record is lost and the command completes without one (01 R18, R24, 06 R131, R132, R136). -/
def Obligations.CompletionRecordsGoOutInTurn : Prop :=
  ∀ (s : State) (slot : Fin 512) (seq : BitVec 32) (c : Cmd) (q : Queue), s.fepRuns = true →
    s.cmd slot.val seq.toNat = some c → c.slot = slot.val → c.seq = seq.toNat → s.queue slot.val = some q →
    c.stage = .ended → c.cancelled = false → c.inFlight = none →
    ((∃ x ∈ s.earlier c, x.cancelled = false) → exec (.completionRecordWrite slot seq) s = .next s)
    ∧ (s.recordRoom c q = false → exec (.completionRecordWrite slot seq) s = .next s)
    ∧ (s.recordTurn c = true → s.recordRoom c q = true → (s.inst c.inst).state ≠ .frozen →
      ((c.accepted = false ∨ c.gen = (s.inst c.inst).gen) → q.stopCause ≠ 3 →
        let a := q.desc.cplBase + 32 * (q.cpl.toNat % q.records)
        let last := c.recordsDone + 1 = recordsOf c
        ∃ t, exec (.completionRecordWrite slot seq) s = .next t
          ∧ t = { s with cmds := t.cmds, queues := t.queues, fep := { s.fep with log := t.fep.log, threads := t.fep.threads } }
          ∧ t.queue slot.val = some { q with cpl := q.cpl + 1, wbPending := true }
          ∧ (last → t.cmd slot.val seq.toNat =
              some { c with inFlight := some (a, s.nextRecord q c), stage := .writing, resv := 0 })
          ∧ (¬ last → t.cmd slot.val seq.toNat = some { c with inFlight := some (a, s.nextRecord q c) }))
      ∧ (c.accepted = true → c.gen ≠ (s.inst c.inst).gen →
        ∃ t, exec (.completionRecordWrite slot seq) s = .next t ∧ Still s t ∧ t.cmd slot.val seq.toNat = none
          ∧ (t.inst c.inst).stale = satInc (s.inst c.inst).stale ∧ t.queue slot.val = some q ∧ t.link = s.link)
      ∧ ((c.accepted = false ∨ c.gen = (s.inst c.inst).gen) → q.stopCause = 3 → q.guilty = none → c.sigSem = none →
        ∃ t, exec (.completionRecordWrite slot seq) s = .next t ∧ Still s t ∧ t.cmd slot.val seq.toNat = none
          ∧ t.link = s.link ∧ t.queue slot.val = some q))

/-- A record's acknowledgement. A record that landed is in the ring and nothing else in memory changes; after the last one
the command is forgotten, its semaphore raised to its value, and a message sent where the queue's policy is every command.
A record whose write ended with an error breaks the queue (01 R24, 06 R129, R133, R136). -/
def Obligations.AcknowledgedRecordsCompleteTheCommand : Prop :=
  ∀ (s : State) (slot : Fin 512) (seq : BitVec 32) (c : Cmd) (q : Queue) (a : Nat) (bs : List Byte), Memory.wf s = true →
    s.fepRuns = true → s.cmd slot.val seq.toNat = some c → c.slot = slot.val → c.seq = seq.toNat →
    s.queue slot.val = some q → c.cancelled = false → c.inFlight = some (a, bs) → Filed s slot.val →
    (∀ u, s.writeDva c.inst a bs = (u, none) →
      (c.stage ≠ .writing → ∃ t, exec (.recordAck slot seq St.ok) s = .next t ∧ t = { u with cmds := t.cmds }
        ∧ OnlyStores s t c.inst a bs
        ∧ t.cmd slot.val seq.toNat = some { c with inFlight := none, recordsDone := c.recordsDone + 1 })
      ∧ (c.stage = .writing → c.sigSem = none → c.recordLost = false →
        ∃ t, exec (.recordAck slot seq St.ok) s = .next t ∧ OnlyStores s t c.inst a bs ∧ t.cmd slot.val seq.toNat = none
          ∧ (∀ p, s.translate c.inst a true = .priv p → a % 65536 + bs.length ≤ 65536 → t.readPrivN p bs.length = bs)
          ∧ (q.desc.irqPolicy = 1 → s.msixOpen q.inst q.desc.vector = true →
              t.link.posted = u.link.posted ++ [.msix q.inst q.desc.vector (s.vector q.inst q.desc.vector).addr
                (s.vector q.inst q.desc.vector).data])
          ∧ (q.desc.irqPolicy = 0 → t.link = u.link))
      ∧ (∀ i v, c.stage = .writing → c.sigSem = some (i, v) → c.status ≠ St.depAborted → c.accepted = true →
        (s.sem c.inst i).mirror = none → (s.sem c.inst i).value.toNat < v → v < 2 ^ 64 →
        ∃ t, exec (.recordAck slot seq St.ok) s = .next t ∧ OnlyStores s t c.inst a bs
          ∧ (t.sem c.inst i).value = BitVec.ofNat 64 v))
    ∧ (∀ st, st ≠ St.ok → q.stopCause ≠ 3 → c.sigSem = none →
      ∃ t x, exec (.recordAck slot seq st) s = .next t ∧ Still s t ∧ t.queue slot.val = some x ∧ x.stopCause = 3
        ∧ (c.stage = .writing → t.cmd slot.val seq.toNat = none)
        ∧ (c.stage ≠ .writing → t.cmd slot.val seq.toNat =
            some { c with inFlight := none, recordsDone := c.recordsDone + 1, recordLost := true }))

/-- The end of HOLDOFF sends the message held back and starts the interval again; a command whose progress time has passed
makes its queue guilty; once the commands up to the guilty one are gone the queue stops with cause 1 and the RESET record is
written in the guilty command's place, once, or the queue breaks where that write fails; READ, CPL and the state are written back
at most once per µs, and a write-back that fails breaks the queue; T7 executes the service port's oldest request, and the reply
follows (06 R122, R133, R134, R135, R136, 08 R172). -/
def Obligations.QueueTimersResetRecordAndWriteBack : Prop :=
  (∀ (s : State) (slot : Fin 512) (q : Queue), s.queue slot.val = some q →
    (q.irqHeld = true → q.holdoffUntil ≤ s.now →
      ∃ t, exec (.irqHoldoffExpiry slot) s = .next t
        ∧ t = { s with queues := t.queues, link := { s.link with funcs := t.link.funcs, posted := t.link.posted } }
        ∧ t.queue slot.val = some { q with irqHeld := false, holdoffUntil := s.now + q.desc.holdoff * 1000 }
        ∧ (s.msixOpen q.inst q.desc.vector = true → t.link.posted = s.link.posted ++
            [.msix q.inst q.desc.vector (s.vector q.inst q.desc.vector).addr (s.vector q.inst q.desc.vector).data])
        ∧ (s.msixOpen q.inst q.desc.vector = false → t.link.posted = s.link.posted
            ∧ (t.vector q.inst q.desc.vector).pending = true))
    ∧ ((q.irqHeld = false ∨ s.now < q.holdoffUntil) → exec (.irqHoldoffExpiry slot) s = .next s))
  ∧ (∀ (s : State) (slot : Fin 512) (seq : BitVec 32) (c : Cmd) (q : Queue), s.cmd slot.val seq.toNat = some c →
    c.slot = slot.val → c.seq = seq.toNat → s.queue slot.val = some q → c.progFrom.isSome = true → c.cancelled = false →
    let limit := (if q.desc.progressMs = 0 then 2000 else q.desc.progressMs) * 1000000
    (limit ≤ s.progress c → Clean s slot.val →
      ∃ t, exec (.progressTimeout slot seq) s = .next t ∧ Still s t ∧ GuiltyAt t slot.val seq St.progressTimeout)
    ∧ (s.progress c < limit → exec (.progressTimeout slot seq) s = .next s))
  ∧ (∀ (s : State) (slot : Fin 512) (q : Queue) (seq : BitVec 32) (st e : Status), Memory.wf s = true → s.fepRuns = true →
    s.queue slot.val = some q → q.guilty = some (seq, st) →
    let due := q.resetDone = false ∧ q.guiltRound = 3 ∧ s.slotCmds slot.val = []
    let said : Queue := if q.guiltSaid then q else { q with
      guiltSaid := true, wbPending := true, guiltDiscard := dist q.write (seq + BitVec.ofNat 32 q.guiltEntries)
      stopCause := if q.stopCause = 0 then 1 else q.stopCause }
    let s1 := (s.onThread 7 none).stopGuilty slot.val
    let hd := q.guiltyHead
    let bs := recordBytes (hd.map (·.2) |>.getD 0) st (hd.map (·.1.toNat) |>.getD 0xFF) (phaseBit q) true false false false
      seq.toNat 0 1 0 0 s.now (BitVec.ofNat 64 said.guiltDiscard)
    let a := q.desc.cplBase + 32 * (q.cpl.toNat % q.records)
    Still s s1 ∧ s1.queue slot.val = some said
    ∧ (due → q.stopCause ≠ 3 → q.freeRecords ≠ 0 →
      (∀ u, s1.writeDva q.inst a bs = (u, none) →
        ∃ t x, exec (.resetRecord slot St.ok) s = .next t ∧ OnlyStores s1 t q.inst a bs ∧ t.queue slot.val = some x
          ∧ x = { said with cpl := q.cpl + 1, resetDone := true, wbPending := true, irqHeld := x.irqHeld
                            holdoffUntil := x.holdoffUntil }
          ∧ (q.desc.irqPolicy = 0 → t.link = u.link))
      ∧ (e ≠ St.ok → ∃ t x, exec (.resetRecord slot e) s = .next t ∧ Still s t ∧ t.queue slot.val = some x
          ∧ x = { said with cpl := q.cpl + 1, resetDone := true, wbPending := true, stopCause := 3 }))
    ∧ (due → q.stopCause ≠ 3 → q.freeRecords = 0 → exec (.resetRecord slot e) s = .next s1)
    ∧ (due → q.stopCause = 3 → ∃ t, exec (.resetRecord slot e) s = .next t ∧ Still s t
        ∧ t.queue slot.val = some { said with resetDone := true })
    ∧ (¬ due → exec (.resetRecord slot e) s = .next s))
  ∧ (∀ (s : State) (slot : Fin 512) (q : Queue) (e : Status), Memory.wf s = true → s.fepRuns = true →
    s.queue slot.val = some q →
    let bs := leBytes 4 q.read.toNat ++ leBytes 4 q.cpl.toNat ++ leBytes 1 (q.stateCode + 4 * q.causeCode)
      ++ List.replicate 7 0
    let s0 := s.updQueue slot.val (fun q => { q with wbPending := false, wbAt := some s.now })
    (q.wbPending = true → (∀ w, q.wbAt = some w → w + 1000 ≤ s.now) → q.desc.statusWb ≠ 0 →
      (s.inst q.inst).state ≠ .frozen →
      (∀ u, s0.writeDva q.inst q.desc.statusWb bs = (u, none) →
        exec (.statusWriteBack slot St.ok) s = .next u
        ∧ u.queue slot.val = some { q with wbPending := false, wbAt := some s.now } ∧ u.cmds = s.cmds
        ∧ OnlyStores s0 u q.inst q.desc.statusWb bs
        ∧ (∀ p, s0.translate q.inst q.desc.statusWb true = .priv p → q.desc.statusWb % 65536 + 16 ≤ 65536 →
            u.readPrivN p 16 = bs))
      ∧ (e ≠ St.ok → q.stopCause ≠ 3 → ∃ t x, exec (.statusWriteBack slot e) s = .next t ∧ Still s t
          ∧ t.queue slot.val = some x ∧ x = { q with wbPending := true, wbAt := some s.now, stopCause := 3 }))
    ∧ ((q.wbPending = false ∨ q.desc.statusWb = 0 ∨ (∃ w, q.wbAt = some w ∧ s.now < w + 1000)) →
        exec (.statusWriteBack slot e) s = .next s))
  ∧ (∀ s : State, s.fepRuns = true →
    (s.fep.service.all (·.out.isSome) = true → exec .serviceRequest s = .next s)
    ∧ (∀ r, s.fep.service = [r] → r.out = none → s.serving = true → r.code = kSemSet.code → s.freezes r.mb = false →
      let i := field r.payload 0 2
      i < (s.inst r.mb).limits.semCount → field r.payload 2 1 = 1 → (s.sem r.mb i).mirror = none →
      ∃ t u : State, exec .serviceRequest s = .next t ∧ t = u.reply r.mb r.hdr St.ok [] ∧ Still s t
        ∧ t.fep.service = [] ∧ t.fep.serviceDone = s.fep.serviceDone + 1
        ∧ (t.sem r.mb i).value = BitVec.ofNat 64 (field r.payload 8 8)))

-- The scan, tiles and partitions ------------------------------------------------------------------------------------------

/-- The scan takes the entries by class, then key, then acceptance order, then replica. An only entry: a COPY or FILL takes
the lowest free copy channel; a launch of a SPREAD role whose one candidate is free and has no stream is granted it, as
replica 0; one without a candidate ends with UNIT_WITHDRAWN. With nothing to grant no command changes (01 R21, 06 R127,
08 R167, R168). -/
def Obligations.TheScanGrantsEntriesInOrder : Prop :=
  (∀ a b : Item, (a.cmd.cls < b.cmd.cls → itemBefore a b = true ∧ itemBefore b a = false)
    ∧ (a.cmd.cls = b.cmd.cls → a.cmd.key < b.cmd.key → itemBefore a b = true ∧ itemBefore b a = false)
    ∧ (a.cmd.cls = b.cmd.cls → a.cmd.key = b.cmd.key → a.cmd.order < b.cmd.order →
        itemBefore a b = true ∧ itemBefore b a = false))
  ∧ (∀ s : State, s.fepRuns = true →
    ∃ t, exec .scan s = .next t ∧ Still s t
      ∧ t = (((s.items.mergeSort itemBefore).foldl Scan.entry ⟨s.onThread 5 none, []⟩).st).reassess
      ∧ (s.items = [] → t.cmds = s.cmds ∧ ∀ q, Stepped (s.part q) (t.part q)))
  ∧ (∀ s : State, s.fepRuns = false → exec .scan s = .next s)
  ∧ (∀ (s : State) (c : Cmd) (ch : Nat), s.fepRuns = true → s.items = [⟨0, c, 0⟩] → s.cmd c.slot c.seq = some c →
    (s.inst c.inst).state = .active → s.fenceOk c = true → c.opcode ≠ opLaunch → lowestFree s.chansUsed 0 4 = some ch →
    ∃ t, exec .scan s = .next t ∧ Still s t
      ∧ t.hostBytes (512 + ch) = []
      ∧ t.cmd c.slot c.seq = some { c with stage := .executing, pqEntry := none, chan := some ch, begun := true
                                           progFrom := some (c.progFrom.getD s.now) })
  ∧ (∀ (s : State) (c : Cmd), s.fepRuns = true → s.items = [⟨0, c, 0⟩] → s.cmd c.slot c.seq = some c →
    (s.inst c.inst).state = .active → s.fenceOk c = true → c.opcode = opLaunch → c.relay = false →
    (s.candidates c c.role = [] →
      ∃ t, exec .scan s = .next t ∧ Still s t
        ∧ t.cmd c.slot c.seq = some { finishCmd c St.unitWithdrawn 0 with pool := none })
    ∧ (∀ n, s.candidates c c.role = [n] → n.shape = 0 → bwGang (s.bindWord c.inst c.role) = false →
      s.memberFree [] c n = true → s.needStream c n = none → s.allGated [n] = false → s.skimsFree c 0 = true →
      ∃ t x, exec .scan s = .next t ∧ Still s t
        ∧ t.cmd c.slot c.seq = some x ∧ x.stage = .executing ∧ x.progFrom = some (c.progFrom.getD s.now) ∧ x.begun = true
        ∧ x.replicas.map (fun r => (r.idx, r.leader, r.shape, r.state, r.tile)) = [(0, n.leader, 0, .granted, 0)]
        ∧ (t.part n.leader).run = some (c.slot, c.seq, 0) ∧ (t.part n.leader).acked = false
        ∧ (t.part n.leader).state = (if s.hasGroup 0 n.leader then .busy else .fusing)
        ∧ ∀ q, q ≠ n.leader → Stepped (s.part q) (t.part q)))

/-- A grant acknowledged by the last member starts the replica; a relay starts all its roles once every bound partition has
acknowledged; a gated partition's answer ends the launch with UNIT_WITHDRAWN. A fusion change that is complete gives the cluster
its new shape and its groups one clock step. A member asks for current for the class of its next tile, once that tile has been
dispatched to its group and the boundary before it is not held; it loads the resident weights first unless its tag matches, and it
is granted at once; the tile runs once every member of the group holds a grant. A fetched microword that fails its parity is a
machine check (01 R16, R22, 02 R38, R43, R44, R46, R49, 07 R153, 08 R170, 10 R226, 16 R357). -/
def Obligations.GrantsAreAcknowledgedAndTilesStart : Prop :=
  (∀ (s : State) (p : Fin 16) (c : Cmd) (r : Replica), s.runOf p.val = some (c, r) → s.cmd c.slot c.seq = some c →
    s.fepRuns = true → r.state = .granted → (s.part p.val).acked = false → c.cancelled = false →
    let seen := (s.grantSeen p.val).reportSeen p.val
    ((s.part p.val).state ≠ .gated → (∃ q ∈ groupParts r.shape r.leader, q ≠ p.val ∧ (s.part q).acked = false) →
      ∃ t, exec (.grantAck p) s = .next t ∧ t = { seen with parts := t.parts }
        ∧ t.part p.val = { s.part p.val with acked := true } ∧ ∀ q, q ≠ p.val → t.part q = s.part q)
    ∧ ((s.part p.val).state ≠ .gated → c.relay = true →
      (∃ x ∈ c.replicas, x.state ≠ .granted ∨ ∃ q ∈ groupParts x.shape x.leader, q ≠ p.val ∧ (s.part q).acked = false) →
      ∃ t, exec (.grantAck p) s = .next t ∧ t = { seen with parts := t.parts }
        ∧ t.part p.val = { s.part p.val with acked := true } ∧ ∀ q, q ≠ p.val → t.part q = s.part q)
    ∧ ((s.part p.val).state ≠ .gated → c.relay = false → r.shape = 0 → r.leader = p.val → r.skim = none → r.tile = 0 →
      ∃ t, exec (.grantAck p) s = .next t ∧ t = { seen with parts := t.parts, cmds := t.cmds }
        ∧ t.part p.val = { s.part p.val with acked := true }
        ∧ (∀ q, q ≠ p.val → t.part q = s.part q)
        ∧ t.cmd c.slot c.seq = some { c with replicas := c.replicas.map (fun x =>
            if x.idx = r.idx then { x with state := .running } else x) })
    ∧ ((s.part p.val).state = .gated → c.relay = false → c.stage = .executing → c.replicas = [r] →
      ∃ t x, exec (.grantAck p) s = .next t ∧ Still s t ∧ t.cmd c.slot c.seq = some x ∧ x.stage = .ended
        ∧ x.replicas = [{ r with state := .ended, status := St.unitWithdrawn }]))
  ∧ (∀ (s : State) (k : Fin 4) (sh : Nat), (s.cluster k.val).changing = some sh →
    ∃ t, exec (.fusionChangeComplete k) s = .next t ∧ Still s t ∧ t.cmds = s.cmds
      ∧ t.cluster k.val = { s.cluster k.val with shape := sh, changing := none }
      ∧ (∀ j, j ≠ k.val → t.cluster j = s.cluster j)
      ∧ ∀ p, p < 16 → Stepped (if p / 4 = k.val then { s.part p with
          fuseWait := false
          state := if (s.part p).state = .fusing then (if (s.part p).run.isSome then .busy else .idle)
            else (s.part p).state } else s.part p) (t.part p))
  ∧ (∀ (s : State) (k : Fin 4), (s.cluster k.val).changing = none → exec (.fusionChangeComplete k) s = .next s)
  ∧ (∀ (s : State) (p : Fin 16) (c : Cmd) (r : Replica) (tl : Tile), s.mayTile p.val = true →
    (s.abrt.roundOn = false ∨ p.val ∉ s.abrt.parts) → s.runOf p.val = some (c, r) → s.tileOf c r r.tile = some tl →
    p.val ∈ groupParts r.shape r.leader →
    (parityFails (s.seqStored p.val tl.uentry) = 0 →
      ∃ t, exec (.currentGrantRequest p) s = .next t ∧ Still s t ∧ t.cmds = s.cmds
        ∧ (t.part p.val).grant = some tl.cls
        ∧ ((∀ q ∈ groupParts r.shape r.leader, q ≠ p.val → (s.part q).grant.isSome = true) →
            ∀ q ∈ groupParts r.shape r.leader, (t.part q).tileRunning = true)
        ∧ ((∃ q ∈ groupParts r.shape r.leader, q ≠ p.val ∧ (s.part q).grant = none) →
            ∀ q, (t.part q).tileRunning = (s.part q).tileRunning)
        ∧ (∀ g v i var, s.pinnedVersion c = some (g, v) → s.variantOf c r = some (i, var) →
            let tag : ResTag := ⟨c.inst, c.graph, c.version, i, p.val - r.leader⟩
            (t.part p.val).residency = some tag
            ∧ (t.part p.val).act = (s.part p.val).act
            ∧ ((s.part p.val).residency = some tag → (t.part p.val).weight = (s.part p.val).weight)
            ∧ ((s.part p.val).residency ≠ some tag → (t.part p.val).weight = ((s.part p.val).writeSram .weight 0
                (((s.patchBytes v).drop (var.resOff + (p.val - r.leader) * var.resMember)).take var.resMember)).weight)))
    ∧ (parityFails (s.seqStored p.val tl.uentry) ≠ 0 →
      ∃ t, exec (.currentGrantRequest p) s = .next t ∧ Still s t ∧ (t.part p.val).state = .offline
        ∧ (t.part p.val).faultPending = true ∧ (t.part p.val).grant = none))
  ∧ (∀ (s : State) (p : Fin 16), (s.mayTile p.val = false ∨ (s.abrt.roundOn = true ∧ p.val ∈ s.abrt.parts)) →
      exec (.currentGrantRequest p) s = .next s)
  ∧ (∀ (s : State) (p : Fin 16) (c : Cmd) (r : Replica), s.runOf p.val = some (c, r) →
    (r.state ≠ .running ∨ s.boundaryHeld c r = true ∨ s.tileOf c r r.tile = none
      ∨ c.relay = false ∧ (s.part r.leader).next ≠ some r.tile) → exec (.currentGrantRequest p) s = .next s)

/-- A column sums its products one after another from the partial sum that enters its first row, so a reduction split at any K and
carried on gives the same bits; an INT32 sum beyond the range saturates and sets the flag; a NaN operand gives the canonical NaN.
The end of a tile, which waits for its landing blocks and its tokens, leaves what its operations made of its members' SRAMs,
releases its group's current grants, moves the launch on to the next tile and counts a saturation; a tile that runs past its worst
case is counted, and a class-0 launch puts its contract at risk with reason 5; the leader is told at a tile's start which tile
comes next and whether to honour its boundary, as a pre-emption request tells it (02 R27 to R29, R40, 03 R59, 07 R157, 08 R170,
09 R197, R204). -/
def Obligations.TilesEndAndOverrun : Prop :=
  (∀ (f : Pairing) (init : BitVec 32 × Bool) (as₁ as₂ ws₁ ws₂ : List Nat), as₁.length = ws₁.length →
    Pairing.column f init (as₁ ++ as₂) (ws₁ ++ ws₂) = Pairing.column f (Pairing.column f init as₁ ws₁) as₂ ws₂)
  ∧ (∀ (acc : BitVec 32) (flag sa sw : Bool) (a w : Nat),
    let v := acc.toInt + intOf 8 sa a * intOf 8 sw w
    Pairing.cell (.int8 sa sw) (acc, flag) a w = if 2 ^ 31 ≤ v then (0x7FFFFFFF, true)
      else if v < -(2 ^ 31) then (0x80000000, true) else (BitVec.ofInt 32 v, flag))
  ∧ (∀ (acc : BitVec 32) (x : Fl), accFl acc .nan x = 0x7FC00000 ∧ accFl acc x .nan = 0x7FC00000)
  ∧ (∀ (s : State) (p : Fin 16) (work : List TileOp) (c : Cmd) (r : Replica) (tl : Tile), s.runOf p.val = some (c, r) →
    s.cmd c.slot c.seq = some c → s.tileOf c r r.tile = some tl → r.leader = p.val → c.cancelled = false →
    let g := groupParts r.shape r.leader
    let slots := slotsOf tl work
    let done := runWork (Tile.feed tl r.used) work (g.map s.part)
    g.all (fun q => (s.part q).tileRunning) = true →
    (s.tileFed r slots work = true →
      ∃ t, exec (.tileEnd p work) s = .next t ∧ Still s t
        ∧ (∀ q ∈ g, (t.part q).grant = none ∧ (t.part q).tileRunning = false)
        ∧ (t.part p.val).satCount = (if done.2 then satInc (s.part p.val).satCount else (s.part p.val).satCount)
        ∧ (∀ e ∈ g.zip done.1, (t.part e.1).weight = e.2.weight ∧ (t.part e.1).act = e.2.act
            ∧ (t.part e.1).scratch = e.2.scratch)
        ∧ (∀ q, q ∉ g → Stepped (s.part q) (t.part q))
        ∧ t.cmd c.slot c.seq = some { c with replicas := c.replicas.map (fun x =>
            if x.idx = r.idx then pastTile x slots done.2 work else x) })
    ∧ (s.tileFed r slots work = false → exec (.tileEnd p work) s = .next s))
  ∧ (∀ (s : State) (p : Fin 16) (c : Cmd) (r : Replica), s.runOf p.val = some (c, r) →
    ((s.part p.val).tileRunning = true →
      ∃ t, exec (.tileOverrun p) s = .next t ∧ Still s t ∧ t.cmds = s.cmds
        ∧ t.part p.val = { s.part p.val with overruns := satInc (s.part p.val).overruns }
        ∧ (∀ q, q ≠ p.val → t.part q = s.part q)
        ∧ (∀ k, c.contract ≠ 0 → c.cls = 0 → tabGet s.contracts c.contract = some k → k.state = .admitted →
            s.freezes k.inst = false →
            tabGet t.contracts c.contract = some { k with state := .atRisk, reason := 5 })
        ∧ ((c.contract = 0 ∨ c.cls ≠ 0) → t.contracts = s.contracts))
    ∧ ((s.part p.val).tileRunning = false → exec (.tileOverrun p) s = .next s))
  ∧ (∀ (s : State) (p : Fin 16) (c : Cmd) (r : Replica), s.runOf p.val = some (c, r) → s.fepRuns = true →
    c.relay = false → r.leader = p.val → (s.part p.val).tileRunning = true →
    exec (.tileStartReport p) s =
      .next (((s.reportSeen p.val).dispatchSeen p.val).updPart p.val (fun x =>
        { x with next := some (r.tile + 1), honour := x.preempt.isSome })))
  ∧ (∀ (s : State) (p : Fin 16),
    ((s.part p.val).run.isSome = true → (s.part p.val).preempt.isSome = true →
      exec (.preempt p) s = .next ((s.preemptSeen p.val).updPart p.val (fun x => { x with honour := true })))
    ∧ (((s.part p.val).run = none ∨ (s.part p.val).preempt = none) → exec (.preempt p) s = .next s))

/-- A launch saved at a boundary it honours, its requests answered, leaves its partitions for its leader's resume slot, with its
live set in the save area; a launch whose every tile has ended, with its partitions' requests answered, ends: its partitions are
free and its command's record is due. A relay's role that has ended with its FINAL markers sent waits for the others (01 R23, R24,
02 R39, 07 R158, 09 R204, R206). -/
def Obligations.LaunchesAreSavedOrEnd : Prop :=
  (∀ (s : State) (p : Fin 16) (c : Cmd) (r : Replica), s.runOf p.val = some (c, r) → s.cmd c.slot c.seq = some c →
    (s.part p.val).run = some (c.slot, c.seq, r.idx) → r.leader = p.val → (s.part p.val).honour = true →
    (s.part p.val).tileRunning = false → r.state = .running → s.atBoundary c r = true → c.cancelled = false →
    (groupParts r.shape p.val).all (fun q => (s.savedOver q).isEmpty) = true → s.fepRuns = true → r.skim = none →
    s.replicaIdle r = true → Memory.wf s = true →
    let n := s.liveBytes c r
    ∃ t, exec (.saveReport p) s = .next t ∧ (n = 0 → Still s t)
      ∧ (∀ a, (∀ q ∈ groupParts r.shape p.val, a < saveArea q ∨ saveArea q + n ≤ a) → t.readPriv a = s.readPriv a)
      ∧ (n ≤ 0x40000 → ∀ q ∈ groupParts r.shape p.val, t.readPrivN (saveArea q) n = (s.part q).readSram .act 0 n)
      ∧ (t.part p.val).resume = some ⟨c.slot, c.seq, r.idx⟩ ∧ (t.part p.val).run = none ∧ (t.part p.val).grant = none
      ∧ t.cmd c.slot c.seq = some { c with replicas := c.replicas.map (fun x =>
          if x.idx = r.idx then { x with state := .saved } else x) })
  ∧ (∀ (s : State) (p : Fin 16) (c : Cmd) (r : Replica), s.runOf p.val = some (c, r) →
    (r.leader ≠ p.val ∨ (s.part p.val).honour = false ∨ (s.part p.val).tileRunning = true ∨ s.atBoundary c r = false
      ∨ s.replicaIdle r = false) →
    exec (.saveReport p) s = .next s)
  ∧ (∀ (s : State) (p : Fin 16) (c : Cmd) (r : Replica), s.runOf p.val = some (c, r) → s.cmd c.slot c.seq = some c →
    (s.part p.val).run = some (c.slot, c.seq, r.idx) → s.fepRuns = true → r.leader = p.val → r.state = .running →
    (s.part p.val).tileRunning = false → s.replicaDone c r = true → c.cancelled = false → c.relay = false →
    r.skim = none → c.stage = .executing → c.replicas = [r] →
    s.replicaIdle r = true → (∀ q ∈ groupParts r.shape r.leader, (s.part q).faultPending = false) →
    ∃ t x, exec (.endReport p) s = .next t ∧ Still s t
      ∧ t.cmd c.slot c.seq = some x ∧ x.stage = .ended ∧ x.status = c.status
      ∧ x.replicas = [{ r with state := .ended }] ∧ (t.part p.val).run = none
      ∧ ((s.part p.val).state = .busy → (t.part p.val).state = .idle))
  ∧ (∀ (s : State) (p : Fin 16) (c : Cmd) (r : Replica), s.runOf p.val = some (c, r) →
    (s.replicaDone c r = false ∨ (s.part p.val).tileRunning = true
      ∨ c.relay = false ∧ (s.replicaIdle r = false ∨ ∃ q ∈ groupParts r.shape r.leader, (s.part q).faultPending = true)) →
    exec (.endReport p) s = .next s)
  ∧ (∀ (s : State) (p : Fin 16) (c : Cmd) (r : Replica), s.runOf p.val = some (c, r) → s.cmd c.slot c.seq = some c →
    s.fepRuns = true → r.leader = p.val → r.state = .running → (s.part p.val).tileRunning = false →
    s.replicaDone c r = true → c.relay = true → r.status = St.ok → s.goes c r = true → s.replicaIdle r = true →
    tabKeys r.outCredits ≠ [] →
    (finalsSent r = true → ∃ t, exec (.endReport p) s = .next t ∧ Still s t
      ∧ t.cmd c.slot c.seq = some { c with replicas := c.replicas.map (fun x =>
          if x.idx = r.idx then { x with done := true } else x) })
    ∧ (finalsSent r = false → ∃ t, exec (.endReport p) s = .next t ∧ Still s t ∧ t.cmds = s.cmds))

/-- A machine check of a partition in service stops it: STATE 4 with its cause and location, its count one higher, its
grant and its residency gone; the other members of its group stop and release their grants; a parity error again at the address
that an L5 reset cleared is persistent, cause 5. At the report the group is dissolved, and once the requests of its members have
completed the FEP acts on its launch (02 R48 to R52). -/
def Obligations.MachineChecksTakeAPartitionOffline : Prop :=
  (∀ (s : State) (p : Fin 16) (cause : Nat) (loc : BitVec 27), 1 ≤ cause → cause ≤ 4 →
    ((s.part p.val).state = .idle ∨ (s.part p.val).state = .busy ∨ (s.part p.val).state = .fusing) →
    ∃ t, exec (.machineCheck p cause loc) s = .next t ∧ Still s t
      ∧ ((∀ c r, s.runOf p.val = some (c, r) → r.skim = none) → t.cmds = s.cmds)
      ∧ (t.part p.val).state = .offline ∧ (t.part p.val).mcAddr = loc
      ∧ (t.part p.val).mcCause = BitVec.ofNat 4 (if cause = 1 ∧ (s.part p.val).lastParity = some (loc.setWidth 10) then 5
          else cause)
      ∧ (t.part p.val).mcCount = satInc (s.part p.val).mcCount ∧ (t.part p.val).grant = none
      ∧ (t.part p.val).tileRunning = false ∧ (t.part p.val).residency = none ∧ (t.part p.val).faultPending = true
      ∧ (t.part p.val).run = (s.part p.val).run
      ∧ (∀ c r, s.runOf p.val = some (c, r) → ∀ q ∈ groupParts r.shape r.leader,
          (t.part q).grant = none ∧ (t.part q).tileRunning = false)
      ∧ ∀ q, q ≠ p.val → (∀ c r, s.runOf p.val = some (c, r) → q ∉ groupParts r.shape r.leader) →
          Stepped (s.part q) (t.part q))
  ∧ (∀ (s : State) (p : Fin 16) (cause : Nat) (loc : BitVec 27),
    (cause = 0 ∨ 4 < cause ∨ (s.part p.val).state = .gated ∨ (s.part p.val).state = .offline
      ∨ (s.part p.val).state = .resetting) → exec (.machineCheck p cause loc) s = .next s)
  ∧ (∀ (s : State) (p : Fin 16), s.fepRuns = true → (s.part p.val).faultPending = true →
    (s.part p.val).fatalUntil = none →
    (s.lossReady p.val false = true → ∃ t, exec (.mcheckReport p) s = .next t ∧ Still s t
      ∧ t = (s.lossReported p.val).memberLost p.val (s.part p.val).mcCause.toNat St.partMcheck)
    ∧ (s.lossReady p.val false = false → ∃ t, exec (.mcheckReport p) s = .next t ∧ Still s t ∧ t.cmds = s.cmds
      ∧ (t.part p.val).faultPending = true
      ∧ ∀ r ∈ s.lostWith p.val, ∀ q ∈ groupParts r.shape r.leader, (t.part q).tileRunning = false))

-- Aborts and freezes --------------------------------------------------------------------------------------------------------

/-- A drain round takes up every request and guilty point that waits: the accepted commands they name are marked to end and
their partitions stopped. At its end the requests that match its entries are answered with nothing, each queue aborted is
STOPPED with cause 2, an instance aborted is ABORTED, and ABORT_DONE tells it (10 R229, 18 R384 to R387, R390). -/
def Obligations.DrainRoundsEndTheAbortedWork : Prop :=
  (∀ s : State, s.abrt.roundOn = false → ((∃ r ∈ s.abrt.reqs, r.joined = false) ∨ s.guiltWaiting ≠ []) →
    ∃ t, exec .drainRoundStart s = .next t ∧ Still s t ∧ t.abrt.roundOn = true
      ∧ t.abrt.reqs = s.abrt.reqs.map (fun r => { r with joined := true })
      ∧ (∀ k c, tabGet s.cmds k = some c → ∃ x, tabGet t.cmds k = some x ∧ x = { c with cancelled := x.cancelled }
          ∧ (x.cancelled = true ↔ c.cancelled = true
              ∨ c.accepted = true ∧ ∃ r ∈ s.abrt.reqs, r.joined = false ∧ abortHits s r.inst r.qid c = true))
      ∧ (∀ p ∈ t.abrt.parts, t.runsCancelled p = true → (t.part p).grant = none ∧ (t.part p).tileRunning = false)
      ∧ (∀ k ∈ s.guiltWaiting, ∀ q, s.queue k = some q → ∃ x, t.queue k = some x ∧ x = { q with guiltRound := 2 }))
  ∧ (∀ s : State, (s.abrt.roundOn = true ∨ ((∀ r ∈ s.abrt.reqs, r.joined = true) ∧ s.guiltWaiting = [])) →
    exec .drainRoundStart s = .next s)
  ∧ (∀ s : State, s.abrt.roundOn = false → exec .drainRoundEnd s = .next s)
  ∧ (∀ s : State, s.abrt.roundOn = true →
    ∃ t, exec .drainRoundEnd s = .next t
      ∧ t.abrt = { s.abrt with roundOn := false, entries := [], parts := [], rounds := satInc s.abrt.rounds,
                               reqs := s.abrt.reqs.filter (fun r => !r.joined) }
      ∧ (∀ k r, tabGet s.net.reqs k = some r → reqMatches s.abrt.entries k r = true → tabGet t.net.reqs k = none)
      ∧ (∀ r, s.abrt.reqs.filter (·.joined) = [r] →
          (t.inst r.inst).lastResult = 0 ∧ (t.inst r.inst).doneCount = (s.inst r.inst).doneCount + 1
          ∧ (r.qid = none → (t.inst r.inst).state = .aborted ∧ (t.inst r.inst).iBusy = false ∧ (t.inst r.inst).lastAll = true)
          ∧ (∀ k slot q, r.qid = some k → s.slotOf r.inst k = some slot → s.queue slot = some q → q.stopCause = 0 →
              q.guilty = none → ∃ x, t.queue slot = some x ∧ x.stopCause = 2 ∧ x.abortLatched = false)))

/-- A freeze completes once every launch of the instance is saved or ended and its writes and records are done: the instance
is FROZEN, FROZEN_AT is stamped and its queues that are not STOPPED are HELD with cause 6. One whose time passes is
abandoned and the instance is ACTIVE again; one that HALT_ALL sent is sent again while orphan mode lasts (12 R253, R254,
15 R335). -/
def Obligations.FreezesCompleteOrTimeOut : Prop :=
  (∀ (s : State) (n : Fin 33), (s.inst n.val).state = .freezing → s.rst.phase = .none →
    (s.freezeDone n.val = true → ∃ t, exec (.freezeComplete n) s = .next t ∧ Still s t
      ∧ (t.inst n.val).state = .frozen ∧ (t.inst n.val).frozenAt = s.now ∧ (t.inst n.val).freezeUntil = 0
      ∧ (∀ slot q, s.queue slot = some q → q.inst = n.val → q.stopCause = 0 →
          t.queue slot = some { q with heldFrozen := true, wbPending := true })
      ∧ (∀ slot q, s.queue slot = some q → q.stopCause ≠ 0 → t.queue slot = some q)
      ∧ (∀ slot, (∀ e ∈ s.queues, e.1 = slot → e.2.inst ≠ n.val) → t.queue slot = s.queue slot)
      ∧ (∀ k c, tabGet s.cmds k = some c → c.inst = n.val →
          tabGet t.cmds k = some { c with progUsed := s.progress c, progFrom := none }))
    ∧ (s.freezeDone n.val = false → exec (.freezeComplete n) s = .next s))
  ∧ (∀ (s : State) (n : Fin 33), (s.inst n.val).state ≠ .freezing →
    exec (.freezeComplete n) s = .next s ∧ exec (.freezeTimeout n) s = .next s)
  ∧ (∀ (s : State) (n : Fin 33), (s.inst n.val).state = .freezing →
    (s.now < (s.inst n.val).freezeUntil → exec (.freezeTimeout n) s = .next s)
    ∧ ((s.inst n.val).freezeUntil ≤ s.now →
      (((s.inst n.val).haltFreeze = false ∨ s.mgc.orphan = false) → ∃ t, exec (.freezeTimeout n) s = .next t ∧ Still s t
        ∧ (t.inst n.val).state = .active ∧ (t.inst n.val).freezeUntil = 0 ∧ t.queues = s.queues ∧ t.cmds = s.cmds)
      ∧ ((s.inst n.val).haltFreeze = true → s.mgc.orphan = true → s.serving = true →
        ∃ t, exec (.freezeTimeout n) s = .next t ∧ Still s t ∧ (t.inst n.val).state = .freezing
          ∧ (t.inst n.val).freezeUntil = s.now + 10000 * 1000000)))

-- The management core ---------------------------------------------------------------------------------------------------------

/-- The host-loss timer that reaches its limit while armed begins orphan mode: its time and count, and instance 0's queues
that are not STOPPED HELD with cause 4 (15 R333, R334).
The core's watchdog, a push that fails its check and a fault that Topcoat does not recover from restart the core alone
while no reset runs, each with its cause; RESTARTS counts it and nothing of the work changes. A watchdog mapped to L1 acts
as a reset source instead (15 R325 to R328, 17 R368). -/
def Obligations.HostLossAndCoreFaultsAreActedOn : Prop :=
  (∀ s : State, s.mgc.armed = true → s.mgc.orphan = false → s.mgc.beatBase + s.setting 0x2100 1 * 1000000 ≤ s.now →
    ∃ t, exec .hostLossExpiry s = .next t ∧ Still s t ∧ t.mgc.orphan = true ∧ t.mgc.armed = false
      ∧ t.mgc.orphanAt = s.now ∧ t.mgc.orphanCount = satInc s.mgc.orphanCount
      ∧ (∀ slot q, s.queue slot = some q → q.inst = 0 → q.stopCause = 0 →
          t.queue slot = some { q with heldOrphan := true, wbPending := true })
      ∧ (∀ slot q, s.queue slot = some q → q.stopCause ≠ 0 → t.queue slot = some q)
      ∧ (∀ slot, (∀ e ∈ s.queues, e.1 = slot → e.2.inst ≠ 0) → t.queue slot = s.queue slot) ∧ t.cmds = s.cmds)
  ∧ (∀ s : State, (s.mgc.armed = false ∨ s.now < s.mgc.beatBase + s.setting 0x2100 1 * 1000000) →
    exec .hostLossExpiry s = .next s)
  ∧ (∀ s : State, s.mgc.fw = .running → s.rst.phase = .none →
      let restarted (t : State) (cause : Nat) : Prop :=
        t.mgc.fw = .restarting ∧ t.mgc.lastCause = BitVec.ofNat 4 cause ∧ t.mgc.restarts = satInc s.mgc.restarts
          ∧ t.mgc.restartAt = s.now ∧ t.mem = s.mem ∧ t.queues = s.queues ∧ t.cmds = s.cmds ∧ t.parts = s.parts
          ∧ t.contracts = s.contracts ∧ t.fep = s.fep ∧ t.pending = s.pending ∧ (∀ a, t.readKeep a = s.readKeep a)
          ∧ (t.dict.alertLatched.getLsbD 8 = true)
      (s.levelOf 8 = 4 → ∃ t, exec .mgcWatchdog s = .next t ∧ restarted t 2)
      ∧ (s.levelOf 8 = 1 → exec .mgcWatchdog s = .next (withActing s 8 2))
      ∧ (s.levelOf 14 = 4 → ∀ sp, pushOk (BitVec.toNat (w := 32) sp) s.mgc.stkLo.toNat s.mgc.stkHi.toNat = false →
        ∃ t, exec (.stackingFault sp) s = .next t ∧ restarted t 1 ∧ t.mgc.sp = sp ∧ t.mgc.shadowBank = some (1, sp))
      ∧ (∀ sp, pushOk (BitVec.toNat (w := 32) sp) s.mgc.stkLo.toNat s.mgc.stkHi.toNat = true →
        exec (.stackingFault sp) s = .next s)
      ∧ (s.levelOf 14 = 4 →
        ∃ t, exec .coreFault s = .next t ∧ restarted t 4 ∧ t.mgc.shadowBank = some (4, s.mgc.sp)))

/-- Primer ends a verification: an image that fails a check leaves LOAD_FAILED, its RESULT and a zeroed SRAM; a good one
starts Topcoat, which makes instance 0 ACTIVE and shows DEV_READY on a first start, and counts as a restart with cause
RELOAD on a later one. The end of a restart starts Topcoat again, unless the SRAM's digest differs or it is the third within
1 s, which wait for a load (15 R320, R330, R331, 17 R366). -/
def Obligations.TopcoatStartsAfterItsChecks : Prop :=
  (∀ s : State, s.mgc.fw = .verify →
    (imageFault s.image s.mgc.loadLen.toNat ≠ 0 →
      exec .fwVerifyDone s = .next { s with mgc := { s.mgc with
        fw := .loadFailed, loadResult := BitVec.ofNat 4 (imageFault s.image s.mgc.loadLen.toNat), sram := [] } })
    ∧ (imageFault s.image s.mgc.loadLen.toNat = 0 → s.mgc.started = false →
      ∃ t, exec .fwVerifyDone s = .next t ∧ Still s t ∧ t.mgc.fw = .running ∧ t.mgc.started = true ∧ t.mgc.mgrGen = 1
        ∧ t.mgc.attached = false ∧ t.mgc.orphan = false ∧ t.mgc.digest = s.sramDigest ∧ t.mgc.loadResult = 1
        ∧ t.pins.devReady = true ∧ (t.inst 0).state = .active
        ∧ (t.inst 0).gen = (if (s.inst 0).gen = 0xFFFF then 1 else (s.inst 0).gen + 1)
        ∧ t.queues = s.queues ∧ t.cmds = s.cmds)
    ∧ (imageFault s.image s.mgc.loadLen.toNat = 0 → s.mgc.started = true →
      ∃ t, exec .fwVerifyDone s = .next t ∧ Still s t ∧ t.mgc.fw = .running ∧ t.mgc.lastCause = 6
        ∧ t.mgc.restarts = satInc s.mgc.restarts ∧ t.mgc.digest = s.sramDigest ∧ t.pins.devReady = true
        ∧ t.queues = s.queues ∧ t.cmds = s.cmds))
  ∧ (∀ s : State, s.mgc.fw ≠ .verify → exec .fwVerifyDone s = .next s)
  ∧ (∀ s : State, s.mgc.fw = .restarting → s.bus.held = [] →
    (s.mgc.digest = s.sramDigest → s.thirdRestart = false →
      ∃ t, exec .mgcRestartComplete s = .next t ∧ t.mgc.fw = .running ∧ t.mem = s.mem ∧ t.queues = s.queues
        ∧ t.cmds = s.cmds ∧ t.pending = s.pending)
    ∧ ((s.mgc.digest ≠ s.sramDigest ∨ s.thirdRestart = true) →
      ∃ t, exec .mgcRestartComplete s = .next t ∧ t.mgc.fw = .loadWait ∧ t.pins.devReady = false ∧ t.mem = s.mem
        ∧ t.queues = s.queues ∧ t.cmds = s.cmds))
  ∧ (∀ s : State, s.mgc.fw ≠ .restarting → exec .mgcRestartComplete s = .next s)

-- Mailbox messages -------------------------------------------------------------------------------------------------------------

/-- Taking a request moves IN_CONS past its cells and changes nothing else; a reply is written into the reply ring of the
request's mailbox and raises vector 1 of its function, and changes nothing else. Every message of the catalogue is taken
while the mailbox is open, its cells are there and a reply fits, and not before; each that fails a check of R245 is answered
with that check's status alone; a code the catalogue does not list is answered with BAD_MESSAGE (11 R243, R244, R245). A request that
only the FEP can execute is appended to the service port's ring while T7 does not execute it at once, 64 entries at most
(08 R172).
The messages that only ask, NOP, GRAPH_QUERY, CONTRACT_QUERY and INSTANCE_INFO, are answered from the state and change
nothing but the mailbox (11 R246). -/
def Obligations.RequestsAreTakenCheckedAndAnswered : Prop :=
  (∀ (s : State) (mb : Nat) (h : MsgHdr),
    let t := s.takeRequest mb h
    let b := (s.inst mb).box
    t = { s with insts := t.insts } ∧ (∀ n, n ≠ mb → t.inst n = s.inst n)
      ∧ t.inst mb = { s.inst mb with box := { b with inCons := (b.inCons + takenCells b.format h) % inCells b.format } })
  ∧ (∀ (s : State) (mb : Nat) (h : MsgHdr) (st : Status) (out : List Byte),
    let t := s.reply mb h st out
    let b := (s.inst mb).box
    t = { s with insts := t.insts, link := { s.link with funcs := t.link.funcs, posted := t.link.posted } }
      ∧ (∀ n, n ≠ mb → t.inst n = s.inst n)
      ∧ t.inst mb = { s.inst mb with box := { b with outPage := (t.inst mb).box.outPage, outProd := (t.inst mb).box.outProd } }
      ∧ (s.msixOpen mb 1 = true → t.link.posted = s.link.posted ++
          [.msix mb 1 (s.vector mb 1).addr (s.vector mb 1).data])
      ∧ (s.msixOpen mb 1 = false → t.link.posted = s.link.posted ∧ (t.vector mb 1).pending = true))
  ∧ (∀ (s : State) (mb : Fin 33) (h : MsgHdr) (p : List Byte), (∀ k ∈ catalogue, k.code ≠ h.msg) →
    (s.takesRequest mb.val h = true → Refused (.undefinedMessage mb h p) s mb h St.badMessage)
    ∧ (s.takesRequest mb.val h = false → exec (.undefinedMessage mb h p) s = .next s))
  ∧ (∀ (c : Instr) (s : State) (k : MsgKind) (mb : Fin 33) (h : MsgHdr) (p : List Byte),
    messageOf c = some (k, mb, h, p) → h.msg = k.code → s.portOpen = true →
    (∀ host blob, c = .restore mb h p host blob → s.readDva 0 (field p 0 8) (field p 8 8) host ≠ .short) →
    (s.takesRequest mb.val h = false → exec c s = .next s)
    ∧ (∀ st, s.takesRequest mb.val h = true → msgFault k mb.val (s.inst mb.val).box.format h p = some st →
        Refused c s mb h st))
  ∧ (∀ (s : State) (mb : Fin 33) (h : MsgHdr) (p host : List Byte), h.msg = 0x0020 → s.portOpen = true →
    s.imageShort mb.val p host = false →
    (s.takesRequest mb.val h = false → exec (.graphRegister mb h p host) s = .next s)
    ∧ (∀ st, s.takesRequest mb.val h = true →
        msgFault kGraphRegister mb.val (s.inst mb.val).box.format h p = some st → Refused (.graphRegister mb h p host) s mb h st))
  ∧ (∀ (c : Instr) (s : State) (k : MsgKind) (mb : Fin 33) (h : MsgHdr) (p : List Byte),
    (c, k) ∈ [(.queueCreate mb h p, kQueueCreate), (.queueDestroy mb h p, kQueueDestroy), (.queueReset mb h p, kQueueReset),
      (.semSet mb h p, kSemSet), (.contractAdmit mb h p, kContractAdmit), (.contractRelease mb h p, kContractRelease),
      (.roleBind mb h p, kRoleBind), (.roleUnbind mb h p, kRoleUnbind)] → s.portOpen = false →
    (64 ≤ s.fep.service.length → exec c s = .next s)
    ∧ (s.fep.service.length < 64 → Accepted s mb.val h p k →
      let u := s.takeRequest mb.val h
      exec c s = .next { u with fep := { u.fep with
        serviceBell := u.fep.serviceBell + 1
        service := u.fep.service ++ [⟨k.code, mb.val, h, carried s mb.val h p k, [], none⟩] } }))
  ∧ (∀ (k : MsgKind) (mb fmt : Nat) (h : MsgHdr) (p : List Byte), k ∈ catalogue →
    (fmt < k.minFormat → msgFault k mb fmt h p = some St.badFormat)
    ∧ (k.minFormat ≤ fmt → k.manager = true → mb ≠ 0 → msgFault k mb fmt h p = some St.notManager))
  ∧ (∀ (s : State) (mb : Fin 33) (h : MsgHdr) (p : List Byte), let u := s.takeRequest mb.val h
      (Accepted s mb.val h p kNop → RepliesFrom (.nopMessage mb h p) s u mb h St.ok [])
      ∧ (Accepted s mb.val h p kGraphQuery →
        let id := field (carried s mb.val h p kGraphQuery) 0 2
        (∀ g v, s.graph mb.val id = some g → g.current = some v →
          RepliesFrom (.graphQuery mb h p) s u mb h St.ok (leBytes 2 v ++ leBytes 1 g.versions.length))
        ∧ ((∀ g, s.graph mb.val id = some g → g.current = none) → Refused (.graphQuery mb h p) s mb h St.badGraph))
      ∧ (Accepted s mb.val h p kContractQuery →
        let id := field (carried s mb.val h p kContractQuery) 0 2
        (∀ k, tabGet s.contracts id = some k → k.inst = mb.val → k.state ≠ .released →
          RepliesFrom (.contractQuery mb h p) s u mb h St.ok (leBytes 1 k.state.code ++ leBytes 1 k.reason))
        ∧ ((∀ k, tabGet s.contracts id = some k → k.inst ≠ mb.val ∨ k.state = .released) →
          Refused (.contractQuery mb h p) s mb h St.contractUnknown))
      ∧ (Accepted s mb.val h p kInstanceInfo →
        let i := s.inst mb.val
        RepliesFrom (.instanceInfo mb h p) s u mb h St.ok
          (leBytes 1 mb.val ++ leBytes 1 i.state.code ++ leBytes 2 i.gen.toNat ++ leBytes 2 i.owned.toNat
            ++ leBytes 1 i.limits.queueLimit ++ leBytes 1 0 ++ leBytes 2 i.limits.semCount ++ leBytes 2 i.limits.graphLimit)))

/-- QUEUE_CREATE takes the lowest free slot for a good descriptor of a new queue; QUEUE_DESTROY frees the slot of a queue
that is STOPPED, or ACTIVE and empty; QUEUE_RESET makes a STOPPED queue ACTIVE with READ at the recorded WRITE; SEM_SET
writes the value its flags select. A queue in another state, a semaphore out of range and an instance that is FREEZING or
FROZEN are refused (06 R116, R117, R129, R137, 11 R246, 12 R255, 18 R388). -/
def Obligations.QueueAndSemaphoreMessages : Prop :=
  ∀ (s : State) (mb : Fin 33) (h : MsgHdr) (p : List Byte),
    (s.freezes mb.val = true →
      (AtPort s mb.val h p kQueueCreate → PortRefused (.queueCreate mb h p) s mb h St.instanceState)
      ∧ (AtPort s mb.val h p kQueueDestroy → PortRefused (.queueDestroy mb h p) s mb h St.instanceState)
      ∧ (AtPort s mb.val h p kQueueReset → PortRefused (.queueReset mb h p) s mb h St.instanceState)
      ∧ (AtPort s mb.val h p kSemSet → PortRefused (.semSet mb h p) s mb h St.instanceState))
    ∧ (AtPort s mb.val h p kQueueCreate → (s.inst mb.val).state = .active →
      let b := carried s mb.val h p kQueueCreate
      let d := parseDesc b
      (∀ k, s.slotOf mb.val d.qid = none → descReservedOk b = true → descOk mb.val d = true →
        (s.slotsOf mb.val).length < (s.inst mb.val).limits.queueLimit → lowestFree (tabKeys s.queues) 0 512 = some k →
        ∃ u, RepliesFrom (.queueCreate mb h p) s u mb h St.ok (leBytes 2 k)
          ∧ u = { asked s mb.val h with queues := u.queues }
          ∧ (∀ j, j ≠ k → u.queue j = s.queue j)
          ∧ ∃ q, u.queue k = some q ∧ q.inst = mb.val ∧ q.desc = d ∧ q.read = 0 ∧ q.write = 0 ∧ q.cpl = 0 ∧ q.cons = 0
              ∧ q.stopCause = 0 ∧ q.heldOrphan = (decide (mb.val = 0) && s.mgc.orphan)
              ∧ q.heldD3 = (s.pwr.pf0D3 || (s.func mb.val).d3hot))
      ∧ ((s.slotOf mb.val d.qid).isSome = true → PortRefused (.queueCreate mb h p) s mb h St.queueExists)
      ∧ (s.slotOf mb.val d.qid = none → (descReservedOk b = false ∨ descOk mb.val d = false) →
          PortRefused (.queueCreate mb h p) s mb h St.badField)
      ∧ (s.slotOf mb.val d.qid = none → descReservedOk b = true → descOk mb.val d = true →
          (s.inst mb.val).limits.queueLimit ≤ (s.slotsOf mb.val).length →
          PortRefused (.queueCreate mb h p) s mb h St.queueSlots))
    ∧ (s.freezes mb.val = false → AtPort s mb.val h p kQueueDestroy → ∀ k q,
      let id := field (carried s mb.val h p kQueueDestroy) 0 1
      id ≤ 15 → s.slotOf mb.val id = some k → s.queue k = some q →
      let idle := q.stateCode = 3 ∨ (q.stateCode = 1 ∧ q.read = q.write ∧ s.inflight k = 0)
      (q.abortLatched = false → idle →
        ∃ u, RepliesFrom (.queueDestroy mb h p) s u mb h St.ok [] ∧ u.queue k = none ∧ Still s u
          ∧ ∀ j, j ≠ k → u.queue j = s.queue j)
      ∧ ((q.abortLatched = true ∨ ¬ idle) → PortRefused (.queueDestroy mb h p) s mb h St.queueState))
    ∧ (s.freezes mb.val = false → AtPort s mb.val h p kQueueReset → ∀ k q,
      let id := field (carried s mb.val h p kQueueReset) 0 1
      id ≤ 15 → s.slotOf mb.val id = some k → s.queue k = some q →
      (q.abortLatched = false → q.stateCode = 3 →
        ∃ u x, RepliesFrom (.queueReset mb h p) s u mb h St.ok [] ∧ Still s u ∧ u.queue k = some x ∧ x.read = q.write
          ∧ x.write = q.write ∧ x.nextFetch = q.write ∧ x.stopCause = 0 ∧ x.guilty = none ∧ x.cpl = q.cpl ∧ x.cons = q.cons
          ∧ x.desc = q.desc ∧ (∀ j, j ≠ k → u.queue j = s.queue j)
          ∧ (u.inst mb.val).state = (if (s.inst mb.val).state = .aborted then .active else (s.inst mb.val).state))
      ∧ ((q.abortLatched = true ∨ q.stateCode ≠ 3) → PortRefused (.queueReset mb h p) s mb h St.queueState))
    ∧ (s.freezes mb.val = false → AtPort s mb.val h p kSemSet →
      let b := carried s mb.val h p kSemSet
      let i := field b 0 2
      let f := field b 2 1
      let x := s.sem mb.val i
      (i < (s.inst mb.val).limits.semCount → (bit f 1 = false ∨ bit f 2 = false) →
        (bit f 1 = false ∨ field b 16 8 < 2 ^ 48) →
        (bit f 0 = false → ∃ u, RepliesFrom (.semSet mb h p) s u mb h St.ok []
          ∧ u = { asked s mb.val h with insts := u.insts }
          ∧ (u.sem mb.val i).value = x.value
          ∧ (u.sem mb.val i).poison = (if bit f 3 then none else x.poison)
          ∧ (u.sem mb.val i).mirror = (if bit f 1 then some (field b 16 8) else if bit f 2 then none else x.mirror))
        ∧ (bit f 0 = true → ∃ u, RepliesFrom (.semSet mb h p) s u mb h St.ok []
          ∧ (u.sem mb.val i).value = BitVec.ofNat 64 (field b 8 8)
          ∧ (x.mirror = none → bit f 1 = false → Still s u)))
      ∧ ((s.inst mb.val).limits.semCount ≤ i → PortRefused (.semSet mb h p) s mb h St.badSemaphore)
      ∧ (i < (s.inst mb.val).limits.semCount → bit f 1 = true → (bit f 2 = true ∨ 2 ^ 48 ≤ field b 16 8) →
        PortRefused (.semSet mb h p) s mb h St.badField))

/-- GRAPH_REGISTER stores a good image as version 1 under a free identifier, or is refused with the check it fails;
GRAPH_RELEASE ends the current version; CONTRACT_ADMIT reserves what passes the admission test under the lowest free
identifier, or is answered with the failing term; CONTRACT_RELEASE gives the reservations back at once, or when the last
accepted launch has ended (07 R143 to R145, 09 R185, R187, R192, R194, R199). -/
def Obligations.GraphAndContractMessages : Prop :=
  ∀ (s : State) (mb : Fin 33) (h : MsgHdr) (p : List Byte), s.freezes mb.val = false →
    let u0 := asked s mb.val h
    (∀ host, AtPort s mb.val h p kGraphRegister → s.imageShort mb.val p host = false →
      let b := carried s mb.val h p kGraphRegister
      let hd := BitVec.ofNat 32 (field b 0 4)
      let len := field b 16 4
      (hd = 0 → PortRefused (.graphRegister mb h p host) s mb h St.nullHandle)
      ∧ (∀ st, hd ≠ 0 → u0.relocPair mb.val hd (field b 8 8) len true false = .error st →
          PortRefused (.graphRegister mb h p host) s mb h st)
      ∧ (∀ dva f, hd ≠ 0 → u0.relocPair mb.val hd (field b 8 8) len true false = .ok dva →
          u0.readDva mb.val dva len host = .fault f →
          RepliesFrom (.graphRegister mb h p host) s (u0.mmuFault mb.val f false 0 0 0x3FF 0) mb h f.status [])
      ∧ (∀ dva img rest, hd ≠ 0 → u0.relocPair mb.val hd (field b 8 8) len true false = .ok dva →
          u0.readDva mb.val dva len host = .bytes img rest →
          let u1 := u0.chargeRead mb.val dva len
          (∀ st, u1.registerImage mb.val img len = .error st → PortRefused (.graphRegister mb h p host) s mb h st)
          ∧ (∀ u id, u1.registerImage mb.val img len = .ok (u, id) →
            RepliesFrom (.graphRegister mb h p host) s u mb h St.ok (leBytes 2 id ++ leBytes 2 1)
              ∧ u = { u0 with insts := u.insts, pages := u.pages, mem := { u0.mem with window := u.mem.window }
                              dict := { u0.dict with memBytes := u.dict.memBytes, memCe := u.dict.memCe } }
              ∧ ∃ g, u.graph mb.val id = some g ∧ g.current = some 1 ∧ g.builder = none
                  ∧ g.versions.map (·.num) = [1] ∧ (parseImage img len).map (·.1) = some g.fixed)))
    ∧ (Accepted s mb.val h p kGraphRelease →
      let id := field (carried s mb.val h p kGraphRelease) 0 2
      (∀ g v, s.graph mb.val id = some g → g.current = some v →
        ∃ u, RepliesFrom (.graphRelease mb h p) s u mb h St.ok [] ∧ Still s u
          ∧ ∀ g', u.graph mb.val id = some g' → g'.current = none)
      ∧ ((∀ g, s.graph mb.val id = some g → g.current = none) → Refused (.graphRelease mb h p) s mb h St.badGraph))
    ∧ (AtPort s mb.val h p kContractAdmit →
      let b := carried s mb.val h p kContractAdmit
      let r := parseContract b
      (∀ f, u0.contractFieldsOk mb.val b = true → u0.tryAdmit mb.val r = .ok f →
        ∃ u, RepliesFrom (.contractAdmit mb h p) s u mb h St.ok
            (admitReply s.freeContractId { f with contract := s.freeContractId, term := 0 })
          ∧ u = { u0 with contracts := u.contracts }
          ∧ (∃ k, tabGet u.contracts s.freeContractId = some k ∧ k.inst = mb.val ∧ k.req = r ∧ k.state = .admitted)
          ∧ ∀ j, j ≠ s.freeContractId → tabGet u.contracts j = tabGet s.contracts j)
      ∧ (∀ f, u0.contractFieldsOk mb.val b = true → u0.tryAdmit mb.val r = .error f →
        RepliesFrom (.contractAdmit mb h p) s u0 mb h f.status (admitReply 0 f))
      ∧ (u0.contractFieldsOk mb.val b = false → ∃ out, RepliesFrom (.contractAdmit mb h p) s u0 mb h St.badField out))
    ∧ (AtPort s mb.val h p kContractRelease →
      let id := field (carried s mb.val h p kContractRelease) 0 2
      (∀ k, tabGet s.contracts id = some k → k.inst = mb.val → k.state ≠ .released →
        ∃ u, RepliesFrom (.contractRelease mb h p) s u mb h St.ok [] ∧ u = { u0 with contracts := u.contracts }
          ∧ (s.contractBusy id = true → tabGet u.contracts id = some { k with state := .released })
          ∧ (s.contractBusy id = false → tabGet u.contracts id = none)
          ∧ ∀ j, j ≠ id → tabGet u.contracts j = tabGet s.contracts j)
      ∧ ((∀ k, tabGet s.contracts id = some k → k.inst ≠ mb.val ∨ k.state = .released) →
        PortRefused (.contractRelease mb h p) s mb h St.contractUnknown))

/-- MAILBOX_CLOSE closes the mailbox after its reply. INSTANCE_CREATE makes an absent instance ACTIVE with a new generation,
its limits from the dictionary and nothing bound; INSTANCE_QUIESCE ends in QUIESCED with its queues and bindings gone and its
mailbox closed; INSTANCE_REMOVE makes a QUIESCED instance ABSENT; INSTANCE_RESET is a reset at level L3. A state they do not
take is refused (11 R236 to R240, R246). -/
def Obligations.InstanceLifecycleMessages : Prop :=
  ∀ (s : State) (mb : Fin 33) (h : MsgHdr) (p : List Byte), let u0 := s.takeRequest mb.val h
    let n := h.target
    let newGen := if (s.inst n).gen = 0xFFFF then 1 else (s.inst n).gen + 1
    (s.freezes mb.val = false → Accepted s mb.val h p kMailboxClose →
      ∃ t, exec (.mailboxClose mb h p) s = .next t
        ∧ t = { u0.reply mb.val h St.ok [] with
            insts := t.insts, fep := { s.fep with service := s.fep.service.filter (fun r => r.mb != mb.val) } }
        ∧ (t.inst mb.val).box.state = 0 ∧ (t.inst mb.val).box.format = 0
        ∧ (t.inst mb.val).box.outPage = ((u0.reply mb.val h St.ok []).inst mb.val).box.outPage)
    ∧ (Accepted s mb.val h p kInstanceCreate →
      (s.createFault n = none →
        ∃ u, RepliesFrom (.instanceCreate mb h p) s u mb h St.ok (leBytes 2 newGen.toNat) ∧ Still s u
          ∧ (u.inst n).state = .active ∧ (u.inst n).gen = newGen ∧ (u.inst n).limits = s.dictLimits n
          ∧ (u.inst n).owned = 0 ∧ (u.inst n).bind = [] ∧ (u.inst n).graphs = [] ∧ (u.inst n).handles = []
          ∧ (u.inst n).sems = [] ∧ (u.inst n).box.state = 0 ∧ u.queues = s.queues ∧ u.cmds = s.cmds)
      ∧ (∀ st, s.createFault n = some st → Refused (.instanceCreate mb h p) s mb h st))
    ∧ (Accepted s mb.val h p kInstanceQuiesce → s.rst.phase = .none →
      (n ≠ 0 → ((s.inst n).state = .active ∨ (s.inst n).state = .aborted ∨ (s.inst n).state = .frozen) →
        ∃ u, RepliesFrom (.instanceQuiesce mb h p) s u mb h St.ok [] ∧ (u.inst n).state = .quiesced
          ∧ (u.inst n).gen = newGen ∧ (u.inst n).owned = 0 ∧ (u.inst n).bind = [] ∧ (u.inst n).graphs = []
          ∧ (u.inst n).sems = [] ∧ (u.inst n).box.state = 0 ∧ ∀ e ∈ u.queues, e.2.inst ≠ n)
      ∧ (n = 0 → Refused (.instanceQuiesce mb h p) s mb h St.badInstance)
      ∧ (n ≠ 0 → (s.inst n).state ≠ .active → (s.inst n).state ≠ .aborted → (s.inst n).state ≠ .frozen →
        Refused (.instanceQuiesce mb h p) s mb h St.instanceState))
    ∧ (Accepted s mb.val h p kInstanceRemove →
      (n ≠ 0 → (s.inst n).state = .quiesced →
        ∃ u, RepliesFrom (.instanceRemove mb h p) s u mb h St.ok [] ∧ Still s u ∧ (u.inst n).state = .absent
          ∧ u.queues = s.queues ∧ u.cmds = s.cmds)
      ∧ (n ≠ 0 → (s.inst n).state ≠ .quiesced → Refused (.instanceRemove mb h p) s mb h St.instanceState))
    ∧ (Accepted s mb.val h p kInstanceReset → s.rst.phase = .none →
      let resets := (s.inst n).state ∈ [IState.active, .aborted, .quiesced, .freezing, .frozen]
      (resets → n ≠ 0 →
        ∃ u, RepliesFrom (.instanceReset mb h p) s u mb h St.ok (leBytes 2 newGen.toNat) ∧ (u.inst n).state = .active
          ∧ (u.inst n).gen = newGen ∧ (u.inst n).bind = [] ∧ (u.inst n).mmu = mmuReset n ∧ (u.inst n).box.state = 0
          ∧ (u.inst n).sems = [] ∧ (∀ e ∈ u.queues, e.2.inst ≠ n)
          ∧ tabGetD u.rst.counts 3 0 = tabGetD s.rst.counts 3 0 + 1)
      ∧ (resets → n = 0 →
        ∃ t, exec (.instanceReset mb h p) s = .next t ∧ (t.inst 0).state = .active ∧ (t.inst 0).gen = newGen
          ∧ (t.inst 0).box.state = 0 ∧ ∀ e ∈ t.queues, e.2.inst ≠ 0)
      ∧ (¬ resets → Refused (.instanceReset mb h p) s mb h St.instanceState))

/-- PART_ASSIGN adds partitions to the owned set; PART_REVOKE takes them away with the members that hold them, unless a
contract needs a binding that would end; ROLE_BIND writes a good binding word that the contracts allow; ROLE_UNBIND clears
one that no contract uses. They are refused in a state that takes no binding (07 R154, R155, 09 R195, 11 R236, R242). -/
def Obligations.PartitionAndBindingMessages : Prop :=
  ∀ (s : State) (mb : Fin 33) (h : MsgHdr) (p : List Byte), let u0 := s.takeRequest mb.val h
    let u1 := asked s mb.val h
    let n := h.target
    (s.bindable n = false →
      (Accepted s mb.val h p kPartAssign → Refused (.partAssign mb h p) s mb h St.instanceState)
      ∧ (Accepted s mb.val h p kPartRevoke → Refused (.partRevoke mb h p) s mb h St.instanceState)
      ∧ (AtPort s mb.val h p kRoleBind → PortRefused (.roleBind mb h p) s mb h St.instanceState)
      ∧ (AtPort s mb.val h p kRoleUnbind → PortRefused (.roleUnbind mb h p) s mb h St.instanceState))
    ∧ (s.bindable n = true → Accepted s mb.val h p kPartAssign →
      let m := BitVec.ofNat 16 (field (carried s mb.val h p kPartAssign) 0 2)
      ((∀ k ∈ leadersOf m, (s.part k).retired = false) →
        ∃ u, RepliesFrom (.partAssign mb h p) s u mb h St.ok (leBytes 2 ((s.inst n).owned ||| m).toNat)
          ∧ u = { u0 with insts := u.insts } ∧ (u.inst n).owned = (s.inst n).owned ||| m
          ∧ (∀ j, j ≠ n → u.inst j = u0.inst j))
      ∧ ((∃ k ∈ leadersOf m, (s.part k).retired = true) → Refused (.partAssign mb h p) s mb h St.badField))
    ∧ (s.bindable n = true → Accepted s mb.val h p kPartRevoke →
      let m := BitVec.ofNat 16 (field (carried s mb.val h p kPartRevoke) 0 2)
      (∀ u, u0.revoke n m = .ok u →
        RepliesFrom (.partRevoke mb h p) s u mb h St.ok (leBytes 2 ((s.inst n).owned &&& ~~~ m).toNat) ∧ Still s u
          ∧ (u.inst n).owned = (s.inst n).owned &&& ~~~ m)
      ∧ (∀ st, u0.revoke n m = .error st → Refused (.partRevoke mb h p) s mb h st))
    ∧ (s.bindable n = true → AtPort s mb.val h p kRoleBind →
      let b := carried s mb.val h p kRoleBind
      let r := field b 0 1
      let w := BitVec.ofNat 32 (field b 4 4)
      (∀ u, u1.bindRole n r w = .ok u → RepliesFrom (.roleBind mb h p) s u mb h St.ok [] ∧ Still s u
        ∧ u.bindWord n r = w ∧ (∀ j, j ≠ r → u.bindWord n j = s.bindWord n j))
      ∧ (∀ st, u1.bindRole n r w = .error st → PortRefused (.roleBind mb h p) s mb h st)
      ∧ (∀ st, u1.bindFault n r w = some st → PortRefused (.roleBind mb h p) s mb h st))
    ∧ (s.bindable n = true → AtPort s mb.val h p kRoleUnbind →
      let r := field (carried s mb.val h p kRoleUnbind) 0 1
      (r ≤ 15 → u1.contractsOn n r = [] →
        ∃ u, RepliesFrom (.roleUnbind mb h p) s u mb h St.ok [] ∧ u = { u1 with insts := u.insts } ∧ u.bindWord n r = 0
          ∧ ∀ j, j ≠ r → u.bindWord n j = s.bindWord n j)
      ∧ (15 < r → PortRefused (.roleUnbind mb h p) s mb h St.badField)
      ∧ (r ≤ 15 → u1.contractsOn n r ≠ [] → PortRefused (.roleUnbind mb h p) s mb h St.contractBound))

/-- FREEZE of an ACTIVE tenant starts its freeze with its deadline and holds its reply back; SAVE writes a FROZEN instance's
blob or is refused, writing nothing, where the space is short; RESTORE reads the blob and checks it before it creates the instance,
FROZEN;
THAW makes a FROZEN instance ACTIVE with its queues running; ATTACH with the expected generation advances MGR_GEN and arms the
timer or, with DETACH, begins orphan mode (12 R253, R256, R262, R263, R266, 15 R336, R337). -/
def Obligations.FreezeSaveRestoreThawAndAttach : Prop :=
  ∀ (s : State) (mb : Fin 33) (h : MsgHdr) (p : List Byte), let u0 := s.takeRequest mb.val h
    let n := h.target
    (Accepted s mb.val h p kFreeze →
      let ms := field (carried s mb.val h p kFreeze) 0 4
      (n ≠ 0 → (s.inst n).state = .active → ms ≤ 10000 →
        ∃ t, exec (.freeze mb h p) s = .next t ∧ Still s t ∧ (t.inst n).state = .freezing
          ∧ (t.inst n).freezeUntil = s.now + (if ms = 0 then 100 else ms) * 1000000
          ∧ (t.inst n).freezeReq = some (mb.val, h) ∧ t.queues = s.queues ∧ t.cmds = s.cmds
          ∧ (t.inst mb.val).box.outProd = (s.inst mb.val).box.outProd)
      ∧ (n = 0 → Refused (.freeze mb h p) s mb h St.badInstance)
      ∧ (n ≠ 0 → (s.inst n).state ≠ .active → Refused (.freeze mb h p) s mb h St.instanceState)
      ∧ (n ≠ 0 → (s.inst n).state = .active → 10000 < ms → Refused (.freeze mb h p) s mb h St.badField))
    ∧ (Accepted s mb.val h p kSave → s.fepRuns = true →
      let b := carried s mb.val h p kSave
      ((s.inst n).state ≠ .frozen → Refused (.save mb h p) s mb h St.instanceState)
      ∧ ((s.inst n).state = .frozen → field b 0 8 % 4096 ≠ 0 → Refused (.save mb h p) s mb h St.badField)
      ∧ ((s.inst n).state = .frozen → field b 0 8 % 4096 = 0 →
        (field b 8 8 < u0.blobLen n → Refused (.save mb h p) s mb h St.blobSpace)
        ∧ (u0.blobLen n ≤ field b 8 8 → ∀ u out, u0.saveBlob n (field b 0 8) (field b 8 8) = (u, St.ok, out) →
          RepliesFrom (.save mb h p) s u mb h St.ok (leBytes 8 (u0.blobLen n)) ∧ u.queues = s.queues ∧ u.cmds = s.cmds
            ∧ ∀ m, u.inst m = { u0.inst m with mmu := (u.inst m).mmu })))
    ∧ (∀ host sections, Accepted s mb.val h p kRestore → s.fepRuns = true →
      s.readDva 0 (field p 0 8) (field p 8 8) host ≠ .short →
      let b := carried s mb.val h p kRestore
      let dva := field b 0 8
      let len := field b 8 8
      let op := Instr.restore mb h p host sections
      (∀ st, s.createFault n = some st → Refused op s mb h st)
      ∧ (∀ f, s.createFault n = none → u0.readDva 0 dva len host = .fault f →
          RepliesFrom op s (u0.mmuFault 0 f false 0 0 0x3FF 0) mb h f.status [])
      ∧ (∀ bs rest, s.createFault n = none → u0.readDva 0 dva len host = .bytes bs rest →
        let u1 := u0.chargeRead 0 dva len
        let blob := readBlob bs sections
        let refused (st : Status) : Prop := RepliesFrom op s u1 mb h st []
        (field bs 0 4 ≠ 0x49424C5A → refused St.blobFormat)
        ∧ (field bs 0x1FC 4 ≠ (crc32 (bs.take 0x1FC)).toNat → refused St.blobFormat)
        ∧ (blob.crcGood = true → (field bs 4 2 ≠ 1 ∨ 0 < field bs 6 2 ∨ blob.unknownRequired = true) → refused St.blobVersion)
        ∧ (blob.crcGood = true → field bs 4 2 = 1 → field bs 6 2 = 0 → blob.unknownRequired = false →
          (field bs 28 2 ≠ Config.seqBase.toNat → refused St.blobCompat)
          ∧ (field bs 28 2 = Config.seqBase.toNat →
            let binds := (List.range 16).map (fun r => BitVec.ofNat 32 (field b (24 + 4 * r) 4))
            let owned := BitVec.ofNat 16 (field b 16 2)
            (∀ st, u1.rebuildFrom n owned binds blob = .error st → refused st)
            ∧ (∀ u2, u1.rebuildFrom n owned binds blob = .ok u2 →
              ∃ u st out, RepliesFrom op s u mb h st out ∧ (u.inst n).state = .frozen
                ∧ ((∀ k ∈ blob.cmds, k.live = []) → Still s u)
                ∧ (u.inst n).owned = owned ∧ (st = St.ok ↔ (u.inst n).lost = []) ∧ (st = St.ok ∨ st = St.contractLost))))))
    ∧ (Accepted s mb.val h p kThaw → s.fepRuns = true →
      ((s.inst n).state ≠ .frozen → Refused (.thaw mb h p) s mb h St.instanceState)
      ∧ ((s.inst n).state = .frozen → (s.inst n).lost = [] →
        ∃ u, RepliesFrom (.thaw mb h p) s u mb h St.ok [] ∧ (u.inst n).state = .active ∧ (u.inst n).frozenAt = 0
          ∧ ∀ e ∈ u.queues, e.2.inst = n → e.2.heldFrozen = false))
    ∧ (Accepted s mb.val h p kAttach →
      let b := carried s mb.val h p kAttach
      let gen := if s.mgc.mgrGen = 0xFFFFFFFF then 1 else s.mgc.mgrGen + 1
      (BitVec.ofNat 32 (field b 0 4) ≠ s.mgc.mgrGen → Refused (.attach mb h p) s mb h St.attachGen)
      ∧ (BitVec.ofNat 32 (field b 0 4) = s.mgc.mgrGen → bit (field b 4 1) 0 = false →
        ∃ u out, RepliesFrom (.attach mb h p) s u mb h St.ok out ∧ u.mgc.mgrGen = gen ∧ u.mgc.attached = true
          ∧ u.mgc.armed = true ∧ u.mgc.beatBase = s.now ∧ u.mgc.orphan = false ∧ u.mgc.restartsSinceAttach = 0)
      ∧ (BitVec.ofNat 32 (field b 0 4) = s.mgc.mgrGen → bit (field b 4 1) 0 = true →
        ∃ u out, RepliesFrom (.attach mb h p) s u mb h St.ok out ∧ Still s u ∧ u.mgc.mgrGen = gen ∧ u.mgc.attached = false
          ∧ u.mgc.armed = false ∧ u.mgc.orphan = true))

-- The object dictionary and the management link --------------------------------------------------------------------------------

/-- READ answers the entry's value: what the hardware shows now or, for a mirrored entry, what it showed before. A write that
fails a check, in the order of 13 R287, or that the device refuses changes nothing; one that takes effect advances the index's
epoch and keeps its path (13 R285); WRITE_COND asks for the epoch too (R276). Where Topcoat does not serve, a request gets
NOT_AVAILABLE, waits, or meets nothing (R283, R289, R290); RESPONSE_READ returns the response that is ready (R272). -/
def Obligations.DictionaryReadsAndWrites : Prop :=
  (∀ (s : State) (p : Path) (f : UFrame), Reaches s p → f.reservedSet = false →
    let s1 := arrive s p
    let i := f.index
    let sub := f.sub
    (f.data = [] →
      (∀ e, entryAt i sub = .ok e → e.acc ≠ .wo → e.size ≠ 0 →
        ∃ t v, exec (.read p f) s = .next (respond t p ocRead f 0 v) ∧ v.length = e.size
          ∧ t = { s1 with freeCount := t.freeCount }
          ∧ (s1.mirrored i sub = none → v = leBytes e.size (s1.liveValue i sub) ∧ t = s1)
          ∧ (∀ x, s1.mirrored i sub = some x →
              v = leBytes e.size x ∨ v = leBytes e.size (tabGetD s1.dict.mirror (dictKey i sub) x)))
      ∧ (∀ e, entryAt i sub = .ok e → e.acc = .wo → exec (.read p f) s = .next (respond s1 p ocRead f abWriteOnly []))
      ∧ (∀ e, entryAt i sub = .ok e → e.acc ≠ .wo → e.size = 0 →
          exec (.read p f) s = .next (respond s1 p ocRead f abSegmentRequired []))
      ∧ (∀ a, entryAt i sub = .error a → exec (.read p f) s = .next (respond s1 p ocRead f a [])))
    ∧ (f.data.length ≤ 96 →
      (∀ a, s1.writeFault p i sub f.data.length false = .error a →
        exec (.write p f) s = .next (respond s1 p ocWrite f a []))
      ∧ (∀ e, s1.writeFault p i sub f.data.length false = .ok e →
        let v := leNat f.data
        (s1.rangeFault p i sub v e ≠ 0 →
          exec (.write p f) s = .next (respond s1 p ocWrite f (s1.rangeFault p i sub v e) []))
        ∧ (s1.rangeFault p i sub v e = 0 → (i ≠ 0x2004 ∨ sub ≠ 2) →
          (∀ a, s1.writeEffect p i sub v true = .error a → exec (.write p f) s = .next (respond s1 p ocWrite f a []))
          ∧ (∀ u, s1.writeEffect p i sub v true = .ok u → exec (.write p f) s = .next (written s1 u p f)))))
    ∧ (2 ≤ f.data.length → f.data.length ≤ 96 →
      let d := f.data.drop 2
      (∀ a, s1.writeFault p i sub d.length false = .error a →
        exec (.writeCond p f) s = .next (respond s1 p ocWriteCond f a []))
      ∧ (∀ e, s1.writeFault p i sub d.length false = .ok e → s1.rangeFault p i sub (leNat d) e = 0 →
        (i ≠ 0x2004 ∨ sub ≠ 2) →
        (tabGetD s1.bus.epochs i 0 ≠ BitVec.ofNat 16 (field f.data 0 2) →
          exec (.writeCond p f) s = .next (respond s1 p ocWriteCond f abEpochMismatch []))
        ∧ (tabGetD s1.bus.epochs i 0 = BitVec.ofNat 16 (field f.data 0 2) → ∀ u,
          s1.writeEffect p i sub (leNat d) true = .ok u →
          exec (.writeCond p f) s = .next (respond (alerted s1 (u.bumpEpoch p i)) p ocWriteCond f 0 [])))))
  ∧ (∀ (s : State) (p : Path) (i sub len : Nat) (e : Entry), entryAt i sub = .ok e →
    let free := s.holder i = 0 ∨ s.holder i = pathValue p
    let may := e.path = .both ∨ (e.path = .link ∧ p = .link)
    (¬ may → s.writeFault p i sub len false = .error abPathDenied)
    ∧ (may → ¬ free → s.writeFault p i sub len false = .error abClaimedByOther)
    ∧ (may → free → (e.acc = .const ∨ e.acc = .ro) → s.writeFault p i sub len false = .error abReadOnly)
    ∧ (may → free → (e.acc = .rw ∨ e.acc = .wo) → e.size = 0 → s.writeFault p i sub len false = .error abSegmentRequired)
    ∧ (may → free → (e.acc = .rw ∨ e.acc = .wo) → e.size ≠ 0 → len ≠ e.size →
        s.writeFault p i sub len false = .error abTypeLength)
    ∧ (may → free → (e.acc = .rw ∨ e.acc = .wo) → e.size ≠ 0 → len = e.size → s.writeFault p i sub len false = .ok e))
  ∧ (∀ (s1 u : State) (p : Path) (f : UFrame), let t := written s1 u p f
    let e := tabGetD u.bus.epochs f.index 0
    tabGetD t.bus.epochs f.index 0 = (if e = 0xFFFF then 1 else e + 1)
      ∧ tabGetD t.bus.lastPath f.index 0 = pathValue p - 1
      ∧ (∀ j, j ≠ f.index → tabGetD t.bus.epochs j 0 = tabGetD u.bus.epochs j 0)
      ∧ t = { u with bus := { u.bus with
          epochs := t.bus.epochs, lastPath := t.bus.lastPath, ibis := t.bus.ibis, response := t.bus.response,
          hostResponse := t.bus.hostResponse } })
  ∧ (∀ (s : State) (f : UFrame), f.reservedSet = false → f.data.length ≤ 96 → s.busOn = true →
    (s.server = .primer → (f.index ≠ 0x2002 ∨ f.sub ≠ 1) →
      exec (.write .link f) s = .next (respond s.goodFrame .link ocWrite f abNotAvailable []))
    ∧ (s.server = .waiting → exec (.write .link f) s = .next { s.goodFrame with
        bus := { s.goodFrame.bus with response := [], held := s.goodFrame.bus.held ++ [(ocWrite, f)] } }))
  ∧ (∀ (s : State) (f : UFrame),
    (s.busOn = false → exec (.read .link f) s = .next s ∧ exec (.write .link f) s = .next s
      ∧ exec (.writeCond .link f) s = .next s ∧ exec .responseRead s = .next s)
    ∧ (s.serving = false → exec (.read .host f) s = .next s ∧ exec (.write .host f) s = .next s
      ∧ exec (.writeCond .host f) s = .next s)
    ∧ (s.busOn = true → exec .responseRead s = .next { s with bus := { s.bus with
        busOut := leBytes 1 s.bus.response.length ++ s.bus.response } }))

/-- Segmented transfers. SEG_READ_START opens a session over the value and answers its length and CRC; SEG_READ answers the
bytes asked for; SEG_WRITE_START opens a session; SEG_WRITE takes contiguous bytes and, at TOTAL, writes the whole value once
its CRC-32, and the epoch where one is asked for, are right; SEG_ABORT ends the session; one with no segment for 1 s ends and
the path's next segmented request gets SEG_TIMEOUT (13 R277, R281). -/
def Obligations.SegmentedTransfersMoveWholeValues : Prop :=
  (∀ (s : State) (p : Path) (f : UFrame), Reaches s p → f.reservedSet = false → (arrive s p).sessionStale p = false →
    let s1 := arrive s p
    let tells (c : Instr) (opc : Nat) (t : State) (ab : Abort) (out : List Byte) : Prop :=
      exec c s = .next (respond t p opc f ab out)
    (s1.sessionEnded p = 0 →
      (f.data = [] → ∀ e, entryAt f.index f.sub = .ok e → e.acc ≠ .wo →
        (e.size = 0 → ∀ v t, (s1.setSession p none).readDomain = (v, t) →
          tells (.segReadStart p f) ocSegReadStart (t.setSession p (some {
            write := false, index := f.index, sub := f.sub, total := v.length, crc := crc32 v, expect := 0, data := v,
            lastAt := s.now })) 0
            (leBytes 4 v.length ++ leBytes 4 (crc32 v).toNat))
        ∧ (e.size ≠ 0 → tells (.segReadStart p f) ocSegReadStart (s1.setSession p none) abSegmentRequired []))
      ∧ (f.data.length = 10 → ∀ e, entryAt f.index f.sub = .ok e → let total := field f.data 0 4
        (e.size = 0 → 1 ≤ total → total ≤ 65536 →
          tells (.segWriteStart p f) ocSegWriteStart (s1.setSession p (some {
            write := true, index := f.index, sub := f.sub, total := total, crc := BitVec.ofNat 32 (field f.data 4 4), expect := BitVec.ofNat 16 (field f.data 8 2),
            data := [], lastAt := s.now })) 0 [])
        ∧ (e.size = 0 → (total = 0 ∨ 65536 < total) →
          tells (.segWriteStart p f) ocSegWriteStart (s1.setSession p none) abValueRange []))
      ∧ (∀ x, s1.session p = some x →
        (f.data = [] → tells (.segAbort p f) ocSegAbort (s1.setSession p none) 0 [])
        ∧ (f.data.length = 5 → x.index = f.index → x.sub = f.sub → x.write = false → let n := field f.data 4 1
          let t := s1.setSession p (some { x with lastAt := s.now })
          (1 ≤ n → n ≤ 96 → tells (.segRead p f) ocSegRead t 0 ((x.data.drop (field f.data 0 4)).take n))
          ∧ ((n = 0 ∨ 96 < n) → tells (.segRead p f) ocSegRead t abValueRange []))
        ∧ (4 ≤ f.data.length → f.data.length ≤ 96 → x.index = f.index → x.sub = f.sub → x.write = true →
          let d := x.data ++ f.data.drop 4
          let shut := s1.setSession p none
          ((field f.data 0 4 ≠ x.data.length ∨ x.total < d.length) → tells (.segWrite p f) ocSegWrite shut abSegOffset [])
          ∧ (field f.data 0 4 = x.data.length →
            (d.length < x.total → tells (.segWrite p f) ocSegWrite
              (s1.setSession p (some { x with data := d, lastAt := s.now })) 0 [])
            ∧ (d.length = x.total → crc32 d ≠ x.crc → tells (.segWrite p f) ocSegWrite shut abSegCrc [])
            ∧ (d.length = x.total → crc32 d = x.crc → ∀ e, shut.writeFault p x.index x.sub d.length true = .ok e →
              (x.expect ≠ 0 → tabGetD s1.bus.epochs x.index 0 ≠ x.expect →
                tells (.segWrite p f) ocSegWrite shut abEpochMismatch [])
              ∧ ((x.expect = 0 ∨ tabGetD s1.bus.epochs x.index 0 = x.expect) →
                (∀ a, shut.writeDomain x.index d = .error a → tells (.segWrite p f) ocSegWrite shut a [])
                ∧ (∀ u, shut.writeDomain x.index d = .ok u →
                    tells (.segWrite p f) ocSegWrite (alerted shut (u.bumpEpoch p x.index)) 0 [])))))
        ∧ (f.data.length = 5 → (x.index ≠ f.index ∨ x.sub ≠ f.sub ∨ x.write = true) →
            tells (.segRead p f) ocSegRead s1 abSegNoSession []))
      ∧ (s1.session p = none →
        (f.data.length = 5 → tells (.segRead p f) ocSegRead s1 abSegNoSession [])
        ∧ (4 ≤ f.data.length → f.data.length ≤ 96 → tells (.segWrite p f) ocSegWrite s1 abSegNoSession [])
        ∧ (f.data = [] → tells (.segAbort p f) ocSegAbort s1 abSegNoSession [])))
    ∧ (s1.sessionEnded p = abSegTimeout →
      (f.data = [] → tells (.segAbort p f) ocSegAbort (s1.setEnded p 0) abSegTimeout []
        ∧ tells (.segReadStart p f) ocSegReadStart (s1.setEnded p 0) abSegTimeout [])
      ∧ (f.data.length = 5 → tells (.segRead p f) ocSegRead (s1.setEnded p 0) abSegTimeout [])))
  ∧ (∀ (s : State) (p : Path) (x : Session), s.session p = some x →
    (x.lastAt + 1000000000 ≤ s.now → s.server ≠ .waiting →
      exec (.segSessionTimeout p) s = .next ((s.setSession p none).setEnded p abSegTimeout))
    ∧ ((s.now < x.lastAt + 1000000000 ∨ s.server = .waiting) → exec (.segSessionTimeout p) s = .next s))
  ∧ (∀ (s : State) (p : Path) (value : List Byte), Reaches s p →
    let s1 := ((arrive s p).setSession p none).setEnded p 0
    let f (i : Nat) : UFrame := { reservedSet := false, tid := 0, index := i, sub := 1, data := [] }
    (∀ e, s1.writeFault p 0x9001 1 value.length true = .ok e →
      (∀ a, s1.writeDomain 0x9001 value = .error a →
        exec (.download p value) s = .next (respond s1 p ocSegWrite (f 0x9001) a []))
      ∧ (544 ≤ value.length → s1.keepBusy [1, 2, 3, 4] = false → s1.keep.fitted = true → s1.inTrial = false →
        exec (.download p value) s = .next (respond (alerted s1 ((s1.startOp 1 (s1.downloadSteps value)).bumpEpoch p 0x9001))
          p ocSegWrite (f 0x9001) 0 [])))
    ∧ (∀ e, s1.writeFault p 0x6000 1 value.length true = .ok e →
      ((value.length ≠ 4096 ∨ calReason value ≠ 0) →
        exec (.calRecord p value) s = .next (respond s1 p ocSegWrite (f 0x6000) abValueRange []))
      ∧ (value.length = 4096 → calReason value = 0 → s1.keepBusy [5] = true →
        exec (.calRecord p value) s = .next (respond s1 p ocSegWrite (f 0x6000) (abStatus St.busy) []))
      ∧ (value.length = 4096 → calReason value = 0 → s1.keepBusy [5] = false →
        exec (.calRecord p value) s = .next (respond (alerted s1 ((s1.startOp 5 (s1.calSteps value)).bumpEpoch p 0x6000))
          p ocSegWrite (f 0x6000) 0 []))))

/-- The settings, claims and requests with rows of their own, written with their checks passed: RESET_REQ makes the
management link's reset source act; ALERT_ACK clears the bits it names; a claim is taken or given back; STORE starts the
keep-store operation; RESTORE_DEFAULT puts groups of settings to their defaults; HOST_LOSS_MS and LINK_LOSS_MS restart their
timers (13 R286, R288, 14 R293, R298, R300, 15 R333). -/
def Obligations.SettingsAndRequestsByWrite : Prop :=
  ∀ (s : State) (p : Path) (f : UFrame) (v : Nat), WriteGood s p f v →
    let s1 := arrive s p
    let takes (c : Instr) (u : State) : Prop := exec c s = .next (written s1 u p f)
    let fails (c : Instr) (a : Abort) : Prop := exec c s = .next (respond s1 p ocWrite f a [])
    (f.index = 0x2002 → f.sub = 1 → s.rst.phase = .none →
      takes (.resetReq p f) (withActing { s1 with dict := { s1.dict with
        cmdResult := tabSet s1.dict.cmdResult (dictKey 0x2002 1) 0 } } 7 0))
    ∧ (f.index = 0x2003 → f.sub = 2 →
      takes (.alertAck p f) { s1 with dict := { s1.dict with
        alertLatched := s1.dict.alertLatched &&& ~~~ BitVec.ofNat 32 v } })
    ∧ (f.index = 0x2010 → (v = 0 ∨ v = pathValue p)
      ∧ (v ≠ 0 → tabGetD s1.bus.claims (f.sub - 1) 0 = 0 ∨ tabGetD s1.bus.claims (f.sub - 1) 0 = pathValue p)
      ∧ (v = 0 → tabGetD s1.bus.claims (f.sub - 1) 0 = pathValue p)
      ∧ takes (.claim p f) { s1 with bus := { s1.bus with claims := tabSet s1.bus.claims (f.sub - 1) v } })
    ∧ (f.index = 0x2004 → f.sub = 1 →
      (s1.keepBusy [6] = true → fails (.store p f) (abStatus St.busy))
      ∧ (s1.keepBusy [6] = false → s1.keep.fitted = false → fails (.store p f) (abStatus St.keepStoreFail))
      ∧ (s1.keepBusy [6] = false → s1.keep.fitted = true → ∃ steps, takes (.store p f) { s1 with keep := { s1.keep with
          ops := s1.keep.ops ++ [⟨6, steps⟩] } }))
    ∧ (f.index = 0x2004 → f.sub = 2 →
      (∀ a, s1.restoreDefaults p v = .error a → fails (.restoreDefault p f) a)
      ∧ (∀ u, s1.restoreDefaults p v = .ok u → takes (.restoreDefault p f) u)
      ∧ (∀ g, g < 7 → bit v g = true → tabGetD s1.bus.claims g 0 ≠ 0 → tabGetD s1.bus.claims g 0 ≠ pathValue p →
          fails (.restoreDefault p f) abClaimedByOther)
      ∧ (v = 8 → (tabGetD s1.bus.claims 3 0 = 0 ∨ tabGetD s1.bus.claims 3 0 = pathValue p) → s1.keepBusy [6] = false →
        ∃ u, takes (.restoreDefault p f) u ∧ Still s1 u
          ∧ (∀ k, 1 ≤ k → k ≤ 4 → u.setting 0x2100 k = dictDefault 0x2100 k)
          ∧ (∀ i k, i ≠ 0x2100 → k < 256 → u.setting i k = s1.setting i k)))
    ∧ (f.index = 0x2100 → f.sub = 1 →
      let t := s1.setSetting 0x2100 1 v
      takes (.hostLossMs p f) { t with mgc := { t.mgc with beatBase := if s.mgc.armed then s.now else s.mgc.beatBase } }
        ∧ t.setting 0x2100 1 = v)
    ∧ (f.index = 0x2100 → f.sub = 3 →
      let t := s1.setSetting 0x2100 3 v
      takes (.linkLossMs p f) { t with bus := { t.bus with goodAt := s.now } } ∧ t.setting 0x2100 3 = v)

/-- The reset entry of a partition is taken only while the partition has STATE 1 or 4 and its resume slot is empty; in any
other case the write fails with BUSY and nothing is reset. A reset that is taken, with no other reset running, puts the
partition into its reset (17 R371). -/
def Obligations.APartitionResetIsTakenOnlyWhenIdleOrOffline : Prop :=
  ∀ (s : State) (p : Path) (f : UFrame) (v : Nat), WriteGood s p f v → f.index / 16 = 0x300 → f.sub = 6 →
    let k := f.index % 16
    let x := s.part k
    let s1 := arrive s p
    (¬ ((x.state = .idle ∨ x.state = .offline) ∧ x.resume = none) →
      exec (.partitionReset p f) s = .next (respond s1 p ocWrite f (abStatus St.busy) []))
    ∧ ((x.state = .idle ∨ x.state = .offline) → x.resume = none → x.rstBusy = false → s.rst.phase = .none →
      (x.state = .offline → x.mcCause ≠ 5 ∧ x.mcCause ≠ 6) →
      ∃ u, exec (.partitionReset p f) s = .next (written s1 u p f) ∧ Still s1 u ∧ (u.part k).state = .resetting
        ∧ (u.part k).rstBusy = true ∧ ∀ q, q ≠ k → Stepped (s.part q) (u.part q))

/-- The entries of partitions, instances, power and updates with rows of their own, written with their checks passed: each
takes effect, or is refused with the status its conditions give and changes nothing (14 R301 to R306, 16 R347, R361,
19 R415 to R419). -/
def Obligations.PartitionInstancePowerAndUpdateEntries : Prop :=
  ∀ (s : State) (p : Path) (f : UFrame) (v : Nat), WriteGood s p f v →
    let s1 := arrive s p
    let takes (c : Instr) (u : State) : Prop := exec c s = .next (written s1 u p f)
    let fails (c : Instr) (st : Status) : Prop := exec c s = .next (respond s1 p ocWrite f (abStatus st) [])
    let starts (c : Instr) (op : Nat) : Prop := ∃ steps, takes c { s1 with keep := { s1.keep with
      ops := s1.keep.ops ++ [⟨op, steps⟩] } }
    (f.index / 16 = 0x300 → f.sub = 1 → let k := f.index % 16
      (v = 0 → s1.leavesUnserved k = true → fails (.enable p f) St.contractBound)
      ∧ (v = 0 → s1.leavesUnserved k = false → ∃ u, takes (.enable p f) u ∧ Still s1 u
          ∧ (u.part k).enabled = false ∧ ∀ q, q ≠ k → u.part q = s.part q)
      ∧ (v = 1 → ∃ u, takes (.enable p f) u ∧ Still s1 u ∧ (u.part k).enabled = true ∧ ∀ q, q ≠ k → u.part q = s.part q))
    ∧ (f.index / 16 = 0x300 → f.sub = 7 → let k := f.index % 16
      (v = 1 → (s.part k).retired = false → (∀ st, s1.revokeAll k = .error st → fails (.retire p f) st)
        ∧ (∀ t, s1.revokeAll k = .ok t → ∃ u, takes (.retire p f) u ∧ (u.part k).retired = true))
      ∧ (v = 1 → (s.part k).retired = true → takes (.retire p f) s1)
      ∧ (v = 0 → (s.part k).retired = true → ∃ u, takes (.retire p f) u ∧ (u.part k).retired = false)
      ∧ (v = 0 → (s.part k).retired = false → takes (.retire p f) s1))
    ∧ (0x4000 ≤ f.index → f.index ≤ 0x4020 → f.sub = 6 → let n := f.index - 0x4000
      (s1.freezes n = true → fails (.privShareMbps p f) St.instanceState)
      ∧ (s1.freezes n = false → (s1.setSetting f.index 6 v).sharesFit = false → fails (.privShareMbps p f) St.shareSum)
      ∧ (s1.freezes n = false → (s1.setSetting f.index 6 v).sharesFit = true →
        ∃ u, takes (.privShareMbps p f) u ∧ Still s1 u ∧ u.setting f.index 6 = v
          ∧ ((s.inst n).state ≠ .absent → (u.inst n).limits.privShare = v ∧ u.sharesNow n = s1.sharesNow n)))
    ∧ (f.index = 0x5000 → f.sub = 1 →
      (v ≠ 0 → s1.powerContract v = true → fails (.powerStateReq p f) St.powerContract)
      ∧ ((v = 0 ∨ s1.powerContract v = false) →
        let wakes := v = 0 ∧ s.pins.modeP = true ∧ s.link.l2 = true
        (s.pwr.target.getD s.pwr.pstate = v → let u := s1.setSetting 0x5000 1 v
          takes (.powerStateReq p f) { u with pins := { u.pins with wakeN := if wakes then false else s.pins.wakeN } })
        ∧ (s.pwr.target.getD s.pwr.pstate ≠ v → ∃ u, takes (.powerStateReq p f) u ∧ Still s1 u
            ∧ u.pwr.target = some v ∧ u.setting 0x5000 1 = v ∧ u.pwr.pstate = s.pwr.pstate ∧ (wakes → u.pins.wakeN = false)
            ∧ ∀ q, (u.part q).state = (s.part q).state)))
    ∧ (f.index = 0x5001 → f.sub = 1 → ∃ u, takes (.budgetMw p f) u ∧ Still s1 u ∧ u.setting 0x5001 1 = v
        ∧ ∀ q, Stepped (s.part q) (u.part q))
    ∧ (f.index = 0x9001 → 2 ≤ f.sub → f.sub ≤ 4 →
      let c : Instr := if f.sub = 2 then .verify p f else if f.sub = 3 then .activate p f else .confirm p f
      (s1.keepBusy [1, 2, 3, 4] = true → fails c St.busy)
      ∧ (s1.keepBusy [1, 2, 3, 4] = false → s1.keep.fitted = false → fails c St.keepStoreFail)
      ∧ (s1.keepBusy [1, 2, 3, 4] = false → s1.keep.fitted = true → let b := s1.bankState s1.inactive
        (f.sub = 2 → ((b = 1 ∨ b = 2 ∨ b = 4) → starts (.verify p f) 2) ∧ (b ≠ 1 → b ≠ 2 → b ≠ 4 → fails c St.updateState))
        ∧ (f.sub = 3 → (s1.inTrial = false → (b = 2 ∨ b = 4) → starts (.activate p f) 3)
          ∧ ((s1.inTrial = true ∨ (b ≠ 2 ∧ b ≠ 4)) → fails c St.updateState))
        ∧ (f.sub = 4 → (s1.inTrial = true → s1.selected = some s1.cal.activeBank → starts (.confirm p f) 4)
          ∧ ((s1.inTrial = false ∨ s1.selected ≠ some s1.cal.activeBank) → fails c St.updateState))))

/-- The bus: the CCCs and the broadcast address act and answer while the target is on and outside an HDR period; in one it
answers nothing until the exit pattern. A frame that fails its CRC or its length is answered so. A tunnelled request is
answered in the mailbox. Silence past the link-loss time is told and, under RELEASE, frees the link's claims. The keep store
ends its list, or fails at an address (13 R268 to R275, R283, R288, 19 R402). -/
def Obligations.TheBusTheTunnelAndTheKeepStore : Prop :=
  (∀ (s : State) (a : BitVec 7),
    let acts (c : Instr) (f : Link → Link) : Prop := exec c s = .next { s with bus := f s.bus }
    (s.busOn = true →
      acts .enec (fun b => { b with ibiEnabled := true, busOut := [] })
      ∧ acts .disec (fun b => { b with ibiEnabled := false, busOut := [] })
      ∧ acts .rstdaa (fun b => { b with dynAddr := none, busOut := [] })
      ∧ (s.bus.dynAddr = none →
        acts (.setdasa a) (fun b => { b with dynAddr := some a, busOut := [] })
        ∧ acts (.entdaa a) (fun b => { b with dynAddr := some a, busOut := pidBytes ++ [0x06, 0x00] })
        ∧ exec (.setnewda a) s = .next s)
      ∧ (s.bus.dynAddr.isSome = true → acts (.setnewda a) (fun b => { b with dynAddr := some a, busOut := [] })
        ∧ exec (.setdasa a) s = .next s ∧ exec (.entdaa a) s = .next s)
      ∧ acts .getPid (fun b => { b with busOut := pidBytes }) ∧ acts .getBcr (fun b => { b with busOut := [0x06] })
      ∧ acts .getDcr (fun b => { b with busOut := [0x00] }) ∧ acts .getMwl (fun b => { b with busOut := [0x00, 0x6A] })
      ∧ acts .getMrl (fun b => { b with busOut := [0x00, 0x6F, 0x01] })
      ∧ (∃ t, exec .getStatus s = .next t ∧ t.bus.busOut.length = 2
          ∧ t = { s with freeCount := t.freeCount, bus := { s.bus with busOut := t.bus.busOut } })
      ∧ acts .i3cBroadcastAddress (fun b => { b with spikeFilter := false })
      ∧ acts .hdrEntry (fun b => { b with hdr := true }))
    ∧ acts .hdrExitPattern (fun b => { b with hdr := false })
    ∧ (s.busOn = false → exec .enec s = .next s ∧ exec .disec s = .next s ∧ exec .rstdaa s = .next s
      ∧ exec .getPid s = .next s ∧ exec .getBcr s = .next s ∧ exec .getDcr s = .next s ∧ exec .getStatus s = .next s
      ∧ exec .getMwl s = .next s ∧ exec .getMrl s = .next s ∧ exec (.setnewda a) s = .next s
      ∧ exec (.setdasa a) s = .next s ∧ exec (.entdaa a) s = .next s ∧ exec .i3cBroadcastAddress s = .next s))
  ∧ (∀ (s : State) (b : List Byte),
    let opc := (parseFrame b).1
    let f := (parseFrame b).2
    (s.busOn = false → exec (.requestFrameError b) s = .next s)
    ∧ (s.busOn = true → (b.length < 10 ∨ 106 < b.length) → exec (.requestFrameError b) s =
        .next { s with bus := { s.bus with response := s.responseFrame 0 0 0 0 abFrameLength [] } })
    ∧ (s.busOn = true → 10 ≤ b.length → b.length ≤ 106 →
      (frameCrcOk b = false → exec (.requestFrameError b) s = .next (respond s .link opc f abFrameCrc []))
      ∧ (frameCrcOk b = true → (b.length ≠ 10 + field b 5 1 ∨ 96 < field b 5 1) →
        exec (.requestFrameError b) s = .next (respond s.goodFrame .link opc f abFrameLength []))
      ∧ (frameCrcOk b = true → b.length = 10 + field b 5 1 → opc = ocRead →
        exec (.requestFrameError b) s = exec (.read .link f) s)))
  ∧ (∀ (s : State) (mb : Fin 33) (h : MsgHdr) (p : List Byte), Accepted s mb.val h p kDictTunnel →
    let b := carried s mb.val h p kDictTunnel
    let u := s.takeRequest mb.val h
    let f := (parseFrame b).2
    let opc := (parseFrame b).1
    (b.length ≠ 10 + field b 5 1 → Refused (.dictTunnel mb h p) s mb h St.badField)
    ∧ (b.length = 10 + field b 5 1 →
      (∀ a, frameFault b = a → a ≠ 0 →
        RepliesFrom (.dictTunnel mb h p) s (respond u .host opc f a []) mb h St.ok
          (u.responseFrame opc f.tid.toNat f.index f.sub a []))
      ∧ (frameFault b = 0 → ∀ r, u.serve .host opc f = r →
        RepliesFrom (.dictTunnel mb h p) s (respond r.1 .host opc f r.2.1 r.2.2) mb h St.ok
          (r.1.responseFrame opc f.tid.toNat f.index f.sub r.2.1 r.2.2))))
  ∧ (∀ s : State, let ms := s.setting 0x2100 3
    let due := ms ≠ 0 ∧ s.bus.lost = false ∧ s.server ≠ .off ∧ s.bus.goodAt + ms * 1000000 ≤ s.now
    (due → ∃ t, exec .mgmtLinkLost s = .next t ∧ Still s t
      ∧ t.bus = { s.bus with lost := true, claims := t.bus.claims, ibis := t.bus.ibis }
      ∧ (s.setting 0x2100 4 ≠ 1 → t.bus.claims = s.bus.claims)
      ∧ (s.setting 0x2100 4 = 1 → ∀ g, tabGetD t.bus.claims g 0 =
          (if tabGetD s.bus.claims g 0 = 1 then 0 else tabGetD s.bus.claims g 0)))
    ∧ (¬ due → exec .mgmtLinkLost s = .next s))
  ∧ (∀ (s : State) (ok : Bool) (a : Nat),
    (s.keep.ops = [] → exec (.keepStoreOpDone ok a) s = .next s)
    ∧ (∀ op rest, s.keep.ops = op :: rest → let k := { s.keep with ops := rest }
      ((ok = true ∨ op.steps = []) → ∃ t, exec (.keepStoreOpDone ok a) s = .next t ∧ t.keep = k.doSteps op.steps
        ∧ ((op.code = 3 ∨ op.code = 4) → tabGetD t.dict.cmdResult (dictKey 0x9001 op.code) 0 = 0)
        ∧ (op.code = 6 → tabGetD t.dict.cmdResult (dictKey 0x2004 1) 0 = 0)
        ∧ (op.code = 5 → t.cal.written = true) ∧ ∀ x, t.readPriv x = s.readPriv x)
      ∧ (ok = false → op.steps ≠ [] → ∃ t, exec (.keepStoreOpDone ok a) s = .next t ∧ t.keep = k.failAt op.steps a
        ∧ ((op.code = 3 ∨ op.code = 4) →
            tabGetD t.dict.cmdResult (dictKey 0x9001 op.code) 0 = abStatus St.keepStoreFail)
        ∧ (op.code = 6 → tabGetD t.dict.cmdResult (dictKey 0x2004 1) 0 = abStatus St.keepStoreFail))))
  ∧ (∀ (k : Keep) (a d : Nat) (bs : List Byte), let t := k.doStep (.erase a)
    t = { k with cells := t.cells, torn := t.torn } ∧ (∀ x, x ∈ t.torn ↔ x ∈ k.torn ∧ x ≠ sectorOf a)
      ∧ k.doStep (.program d bs) = { k with cells := (k.doStep (.program d bs)).cells })

-- The host link ---------------------------------------------------------------------------------------------------------------

/-- Functions, their resets and D-states, ATS translations and invalidations, completions and their timeout, loss of the link, L2
and training (04 R72, 05 R94, R95, R98, R106 to R109, R115, 16 R350, 17 R364, R375, 20 R439). -/
def Obligations.TheHostLinkAndItsFunctions : Prop :=
  (∀ (s : State) (fn : Fin 33),
    (s.fnExists fn.val = false → exec (.flr fn) s = .next s ∧ exec (.d3hotEntry fn) s = .next s
      ∧ exec (.d0Return fn) s = .next s)
    ∧ (s.fnExists fn.val = true → s.rst.phase = .none → (∀ a ∈ s.rst.acting, a.arg ≠ fn.val) →
      ∃ t, exec (.flr fn) s = .next t ∧ Still s t ∧ t.func fn.val = ({} : Func)
        ∧ t.rst = { s.rst with acting := s.rst.acting ++ [⟨if fn.val = 0 then 5 else 6, s.now, fn.val⟩] }
        ∧ t.cmds = s.cmds ∧ ∀ g, g ≠ fn.val → ({ t.func g with vectors := [] } : Func) = { s.func g with vectors := [] })
    ∧ (s.fnExists fn.val = true → fn.val ≠ 0 → (s.func fn.val).d3hot = false →
      ∃ t, exec (.d3hotEntry fn) s = .next t
        ∧ t = { s with queues := t.queues, link := { s.link with funcs := t.link.funcs } }
        ∧ t.func fn.val = { s.func fn.val with d3hot := true } ∧ (∀ g, g ≠ fn.val → t.func g = s.func g)
        ∧ ∀ k q, s.queue k = some q → t.queue k =
            some (if q.inst = fn.val then { q with heldD3 := true, wbPending := true } else q))
    ∧ (s.fnExists fn.val = true → fn.val ≠ 0 → (s.func fn.val).d3hot = true → s.pwr.pf0D3 = false →
      ∃ t, exec (.d0Return fn) s = .next t
        ∧ t = { s with queues := t.queues, link := { s.link with funcs := t.link.funcs } }
        ∧ t.func fn.val = { s.func fn.val with d3hot := false } ∧ (∀ g, g ≠ fn.val → t.func g = s.func g)
        ∧ ∀ k q, s.queue k = some q → t.queue k =
            some (if q.inst = fn.val then { q with heldD3 := false, wbPending := true } else q)))
  ∧ (∀ s : State, (s.func 0).d3hot = false →
    ∃ t, exec (.d3hotEntry 0) s = .next t ∧ Still s t ∧ (t.func 0).d3hot = true ∧ t.pwr.pf0D3 = true
      ∧ t.pwr.fabricGated = true ∧ (∀ k q, s.queue k = some q → t.queue k = some { q with heldD3 := true, wbPending := true })
      ∧ (∀ p, p < 16 → (s.part p).state = .idle → (s.part p).run = none → (t.part p).state = .gated)
      ∧ (∀ i k, tabGet t.contracts i = some k → k.state ≠ .admitted ∧ k.state ≠ .atRisk))
  ∧ (∀ s : State, (s.func 0).d3hot = true →
    ∃ t, exec (.d0Return 0) s = .next t ∧ Still s t ∧ (t.func 0).d3hot = false ∧ t.pwr.pf0D3 = false
      ∧ ∀ k q, s.queue k = some q → q.inst = 0 → t.queue k = some { q with heldD3 := false, wbPending := true })
  ∧ (∀ s : State,
    exec .vfEnableSet s = .next { s with link := { s.link with vfEnable := true } }
    ∧ (s.link.vfEnable = false → exec .vfEnableClear s = .next s)
    ∧ (s.link.vfEnable = true → s.rst.phase = .none → ∃ t, exec .vfEnableClear s = .next t ∧ Still s t
      ∧ t.link.vfEnable = false ∧ t.link.numVfs = s.link.numVfs
      ∧ ∀ g, 1 ≤ g → g ≤ s.link.numVfs → t.func g = ({} : Func))
    ∧ (∀ v, v ≤ 32 → (∀ e ∈ s.insts, v < e.1 → e.2.state = .absent) →
        exec (.numVfsWrite v) s = .next { s with link := { s.link with numVfs := v } })
    ∧ (∀ v, (32 < v ∨ ∃ e ∈ s.insts, v < e.1 ∧ e.2.state ≠ .absent) → exec (.numVfsWrite v) s = .next s))
  ∧ (∀ (s : State) (fn : Fin 33) (page : Nat),
    ((s.link.atsPending.length < 32 ∨ (fn.val, page) ∈ s.link.atsPending) →
      ∃ t, exec (.atsInvalidate fn page) s = .next t ∧ tabGet t.link.atc (atcKey fn.val page) = none
      ∧ (∀ j, j ≠ atcKey fn.val page → tabGet t.link.atc j = tabGet s.link.atc j)
      ∧ (fn.val, page) ∈ t.link.atsPending
      ∧ t = { s with link := { s.link with
          atc := t.link.atc, atcAge := s.link.atcAge.filter (· != atcKey fn.val page), atsPending := t.link.atsPending } })
    ∧ (32 ≤ s.link.atsPending.length → (fn.val, page) ∉ s.link.atsPending → exec (.atsInvalidate fn page) s = .next s)
    ∧ (s.link.up = true → (fn.val, page) ∈ s.link.atsPending →
      (∀ r ∈ tabVals s.link.outstanding, r.fn = fn.val → r.xlat = none → r.page ≠ some page) →
      exec (.atsInvalidateComplete fn page) s = .next { s with link := { s.link with
        atsPending := s.link.atsPending.erase (fn.val, page), posted := s.link.posted ++ [.atsDone fn.val page] } })
    ∧ ((s.link.up = false ∨ (fn.val, page) ∉ s.link.atsPending
        ∨ (∃ r ∈ tabVals s.link.outstanding, r.fn = fn.val ∧ r.xlat = none ∧ r.page = some page)) →
      exec (.atsInvalidateComplete fn page) s = .next s))
  ∧ (∀ (s : State) (tag status : Nat) (poisoned : Bool) (data : List Byte),
    (s.link.up = false → exec (.hostCompletion tag status poisoned data) s = .next s)
    ∧ (s.link.up = true → tabGet s.link.outstanding tag = none →
      ∃ t, exec (.hostCompletion tag status poisoned data) s = .next t
        ∧ t = { s with link := { s.link with funcs := t.link.funcs, posted := t.link.posted }, freeCount := t.freeCount }
        ∧ (t.func 0).aerUnc.getLsbD 16 = true)
    ∧ (∀ r, s.link.up = true → tabGet s.link.outstanding tag = some r → s.mem.windowWait = [] → r.xlat = none →
      ∃ t, exec (.hostCompletion tag status poisoned data) s = .next t ∧ Still s t
        ∧ tabGet t.link.outstanding tag = none
        ∧ (∀ j, j ≠ tag → tabGet t.link.outstanding j = tabGet s.link.outstanding j)
        ∧ (r.marked = true → (status ≠ 0 ∨ poisoned = false) →
            t = { s with link := { s.link with outstanding := t.link.outstanding } }))
    ∧ (∀ r w, s.link.up = true → tabGet s.link.outstanding tag = some r → s.mem.windowWait = [] → r.xlat = some w →
      r.marked = false → status = 0 → poisoned = false → bit (field data 0 8) (b2n w.write) = true →
      let page := w.pkt.addr / 4096
      ∃ t, exec (.hostCompletion tag status poisoned data) s = .next t ∧ Still s t
        ∧ tabGet t.link.atc (atcKey r.fn page) = some (xlatPage (field data 0 8) page)
        ∧ (w.write = true → w.pkt.inst = r.fn → s.usesAts r.fn = true → w.data ≠ [] → t.link.posted = s.link.posted ++
            [.writeAt r.fn (xlatPage (field data 0 8) page * 4096 + w.pkt.addr % 4096) (w.data.take (w.pkt.bytes + 1))]))
    ∧ (tabGet s.link.outstanding tag = none → exec (.hostCplTimeout tag) s = .next s)
    ∧ (∀ r, tabGet s.link.outstanding tag = some r → let lim := if (s.func r.fn).cplTimeout = 1 then 100000 else 2000000
      (s.now < r.sentAt + lim → exec (.hostCplTimeout tag) s = .next s)
      ∧ (r.sentAt + lim ≤ s.now → s.mem.windowWait = [] →
        ∃ t, exec (.hostCplTimeout tag) s = .next t ∧ Still s t ∧ tabGet t.link.outstanding tag = none
          ∧ (t.func 0).aerUnc.getLsbD 14 = true)))
  ∧ (∀ s : State,
    (s.link.up = false → (∀ b, exec (.linkDown b) s = .next s) ∧ exec .hotReset s = .next s ∧ exec .linkRetrain s = .next s)
    ∧ (s.link.up = true → (s.func 0).d3hot = true → s.link.outstanding = [] → s.link.posted = [] →
      exec (.linkDown true) s = .next { s with link := { s.link with
        up := false, l2 := true, speed := 0, width := 0, ucieVer := 0, cfgReady := false } })
    ∧ (s.link.up = true → s.rst.phase = .none →
      (∀ b, (b = false ∨ (s.func 0).d3hot = false) → ∃ t, exec (.linkDown b) s = .next t ∧ t.link.up = false ∧ t.link.speed = 0 ∧ t.link.width = 0 ∧ t.link.ucieVer = 0
        ∧ t.link.cfgReady = false ∧ t.link.downCount = satInc s.link.downCount
        ∧ (∀ k, tabGet t.link.outstanding k = none)
        ∧ t.rst = { s.rst with acting := s.rst.acting ++ [⟨3, s.now, 0⟩] } ∧ (∀ a, t.readPriv a = s.readPriv a))
      ∧ exec .hotReset s = .next (withActing s 3 0))
    ∧ (s.link.up = true → ∃ t, exec .linkRetrain s = .next t
      ∧ t = { s with link := { s.link with funcs := t.link.funcs, posted := t.link.posted } }
      ∧ (t.func 0).aerCor.getLsbD 8 = true)
    ∧ (∀ speed width ucie, s.clk.alive = true → s.wideRuns = false → (s.pins.modeP = true → s.pins.perstN = true) →
      s.linkModeOk speed width ucie = true →
      ∃ t, exec (.linkActive speed width ucie) s = .next t ∧ t.link.up = true ∧ t.link.speed = BitVec.ofNat 4 speed
        ∧ t.link.width = BitVec.ofNat 6 width ∧ t.link.ucieVer = BitVec.ofNat 4 ucie
        ∧ t.link.cfgReady = s.mem.regionFilled
        ∧ t = { s with link := { s.link with
            up := true, speed := t.link.speed, width := t.link.width, ucieVer := t.link.ucieVer,
            cfgReady := t.link.cfgReady, l2 := false, funcs := t.link.funcs, posted := t.link.posted }
                       pins := { s.pins with wakeN := true } })
    ∧ (∀ speed width ucie, (s.clk.alive = false ∨ s.wideRuns = true ∨ (s.pins.modeP = true ∧ s.pins.perstN = false)
        ∨ s.linkModeOk speed width ucie = false) → exec (.linkActive speed width ucie) s = .next s))

-- Power -------------------------------------------------------------------------------------------------------------------------

/-- Power states, gating and the loops of rails, LDOs, trims, read assist and clock stretching (02 R34, 16 R340 to R353). -/
def Obligations.PowerStatesRailsAndClocks : Prop :=
  (∀ s : State,
    (s.pwr.target = none → exec .powerStateTransitionDone s = .next s)
    ∧ (∀ v, s.pwr.target = some v →
      ((∃ p, p < 16 ∧ s.powerGates p = true ∧ (s.part p).run.isSome = true) →
        exec .powerStateTransitionDone s = .next s)
      ∧ ((∀ p, p < 16 → s.powerGates p = true → (s.part p).run = none) →
        ∃ t, exec .powerStateTransitionDone s = .next t ∧ Still s t ∧ t.pwr.pstate = v ∧ t.pwr.target = none
          ∧ t.pwr.fabricGated = (v == 2) ∧ t.cmds = s.cmds
          ∧ (∀ p, p < 16 → s.powerGates p = true → (s.part p).state = .idle → (t.part p).state = .gated)))
    ∧ (s.pwr.pstate = 2 → s.net.reqs = [] → s.pwr.lastFabric + 1000000 ≤ s.now →
        exec .fabricClockRegate s = .next { s with pwr := { s.pwr with fabricGated := true } })
    ∧ ((s.pwr.pstate ≠ 2 ∨ s.net.reqs ≠ [] ∨ s.now < s.pwr.lastFabric + 1000000) →
        exec .fabricClockRegate s = .next s))
  ∧ (∀ (s : State) (p : Fin 16), let x := s.part p.val
    (s.gateDue p.val = true → x.state = .idle → x.run = none →
      exec (.partitionIdleGate p) s = .next (s.updPart p.val gatePart)
        ∧ (gatePart x).weight = [] ∧ (gatePart x).act = [] ∧ (gatePart x).scratch = [] ∧ (gatePart x).residency = none)
    ∧ ((s.gateDue p.val = false ∨ x.state ≠ .idle ∨ x.run ≠ none) → exec (.partitionIdleGate p) s = .next s)
    ∧ (s.dueOn p.val = true → x.state = .gated →
      ∃ t, exec (.partitionUngateDone p) s = .next t
        ∧ t = { s with parts := t.parts, net := { s.net with gens := t.net.gens } }
        ∧ t.part p.val = { x with state := .idle, residency := none, step := 0, clkMhz := 300, ldoMv := s.vf p.val 0,
                                  ldoSettled := true, stepWanted := none, downAt := none, idleSince := s.now }
        ∧ (∀ q, q ≠ p.val → t.part q = s.part q) ∧ ∀ n, n < 33 → t.nodeGen p.val n = (s.inst n).gen)
    ∧ ((s.dueOn p.val = false ∨ x.state ≠ .gated) → exec (.partitionUngateDone p) s = .next s))
  ∧ (∀ (s : State) (c : Fin 4) (mV : Nat),
    (∃ t k, exec (.railLow c mV) s = .next t ∧ Still s t ∧ (t.cluster c.val).railLow = true
      ∧ (t.cluster c.val).railCap = some k ∧ (∀ d, d ≠ c.val → t.cluster d = s.cluster d)
      ∧ (∀ j, j < 53 → (∀ i, i < 4 → s.vf (4 * c.val + i) j + 50 ≤ mV) → j ≤ k)
      ∧ (k ≠ 0 → ∀ i, i < 4 → s.vf (4 * c.val + i) k + 50 ≤ mV) ∧ ∀ p, Stepped (s.part p) (t.part p))
    ∧ (∃ t, exec (.railLowClear c) s = .next t ∧ Still s t ∧ (t.cluster c.val).railLow = false
      ∧ (t.cluster c.val).railCap = none ∧ (∀ d, d ≠ c.val → t.cluster d = s.cluster d)
      ∧ ∀ p, Stepped (s.part p) (t.part p)))
  ∧ (∀ (s : State) (p : Fin 16), let x := s.part p.val
    (x.stepWanted = none → exec (.ldoSettled p) s = .next s)
    ∧ (∀ k, x.stepWanted = some k → x.run = none → x.step < k →
      exec (.ldoSettled p) s = .next (s.updPart p.val (fun x => { x with
        ldoMv := (s.setpoint p.val k).toNat, downAt := none, step := k, clkMhz := stepMhz k, stepWanted := none,
        ldoSettled := true })))
    ∧ (∀ k, x.stepWanted = some k → ∃ t, exec (.ldoSettled p) s = .next t ∧ t = { s with parts := t.parts }
      ∧ ∀ q, Stepped (s.part q) (t.part q)))
  ∧ (∀ (s : State) (p : Fin 16) (up : Bool), let x := s.part p.val
    ((x.state = .gated ∨ (x.trimAt ≠ 0 ∧ s.now < x.trimAt + 10000)) → exec (.voltageTrim p up) s = .next s)
    ∧ (x.state ≠ .gated → (x.trimAt = 0 ∨ x.trimAt + 10000 ≤ s.now) →
      ∃ t, exec (.voltageTrim p up) s = .next t ∧ t = { s with parts := t.parts }
        ∧ (t.part p.val).trimMv = (if up then min 50 (x.trimMv + 5) else max (-50) (x.trimMv - 5))
        ∧ (t.part p.val).trimAt = s.now ∧ (t.part p.val).step = x.step ∧ (t.part p.val).clkMhz = x.clkMhz
        ∧ ∀ q, q ≠ p.val → t.part q = s.part q))
  ∧ (∀ (s : State) (p pair : Fin 16) (k : Fin 8), let x := s.part p.val
    let recent := ∃ u, tabGet x.assistAt pair.val = some u ∧ s.now < u + 100000
    ((recent ∨ s.cal.valid = false ∨ x.state = .gated) → exec (.readAssistStep p pair k) s = .next s)
    ∧ (¬ recent → s.cal.valid = true → x.state ≠ .gated →
      ∃ t, exec (.readAssistStep p pair k) s = .next t ∧ t = { s with parts := t.parts } ∧ t.assist p.val pair.val = k.val
        ∧ (∀ j, j ≠ pair.val → t.assist p.val j = s.assist p.val j) ∧ ∀ q, q ≠ p.val → t.part q = s.part q))
  ∧ (∀ (s : State) (p : Fin 16) (n : Nat), let x := s.part p.val
    ((x.state = .gated ∨ x.clkMhz = 0 ∨ n = 0) → exec (.criticalPathMonitorReport p n) s = .next s)
    ∧ (x.state ≠ .gated → x.clkMhz ≠ 0 → n ≠ 0 → x.run = none → x.stretchFrom + 10000 ≤ s.now →
      let quarter := 10 * x.clkMhz / 4
      let low := (s.cluster (p.val / 4)).railLow
      ∃ t, exec (.criticalPathMonitorReport p n) s = .next t ∧ t = { s with parts := t.parts }
        ∧ (t.part p.val).stretchFrom = s.now ∧ x.maxStretch ≤ (t.part p.val).maxStretch
        ∧ (t.part p.val).step = x.step ∧ (t.part p.val).clkMhz = x.clkMhz
        ∧ (low = true → (t.part p.val).stretched = n ∧ (t.part p.val).boosts = x.boosts ∧ (t.part p.val).ldoMv = x.ldoMv)
        ∧ (low = false → (t.part p.val).stretched = min n quarter)
        ∧ (n ≤ quarter → (t.part p.val).boosts = x.boosts ∧ (t.part p.val).ldoMv = x.ldoMv)
        ∧ (low = false → quarter < n → let top := (s.setpoint p.val x.step).toNat + 50
          (s.ldoNow p.val < top → (t.part p.val).ldoMv = min (s.ldoNow p.val + 25) top
            ∧ (t.part p.val).boosts = min (x.boosts + 1) 0xFFFF)
          ∧ (top ≤ s.ldoNow p.val → (t.part p.val).ldoMv = x.ldoMv ∧ (t.part p.val).boosts = x.boosts))
        ∧ ∀ q, q ≠ p.val → t.part q = s.part q))

/-- Temperature: a trip at the second hot sample, its end below 100 °C, the ceilings of each evaluation. PWR_CAP_N by pulse
length. The telemetry mirror and Topcoat's reads (09 R198, 14 R312, 16 R354, R355, R360, R362, 20 R434). -/
def Obligations.TemperatureCapAndTelemetry : Prop :=
  (∀ (s : State) (ts : List Int),
    let hot := ∃ x ∈ ts, 1100 ≤ x
    (ts.length ≠ 24 → exec (.thermalSample ts) s = .next s)
    ∧ (ts.length = 24 →
      (s.pwr.tripped = false → hot → s.pwr.lastHot = true → s.rst.phase = .none →
        ∃ t, exec (.thermalSample ts) s = .next t ∧ Still s t ∧ t.pwr.tripped = true ∧ t.pwr.tripAt = s.now
          ∧ t.pwr.sensors = ts ∧ t.pins.thermTripN = false
          ∧ t.rst = { s.rst with acting := s.rst.acting ++ [⟨11, s.now, 0⟩] }
          ∧ (∀ p, p < 16 → (s.part p).state ≠ .gated → (t.part p).step = 0)
          ∧ (∀ i k, tabGet t.contracts i = some k → k.state ≠ .admitted ∧ k.state ≠ .atRisk))
      ∧ (s.pwr.tripped = false → (¬ hot ∨ s.pwr.lastHot = false) →
        ∃ t, exec (.thermalSample ts) s = .next t
          ∧ t = { s with pwr := { s.pwr with sensors := ts, lastHot := t.pwr.lastHot } } ∧ (t.pwr.lastHot = true ↔ hot))
      ∧ (s.pwr.tripped = true → (∀ x ∈ ts, x < 1000) →
        ∃ t, exec (.thermalSample ts) s = .next t
          ∧ t = { s with pwr := { s.pwr with sensors := ts, lastHot := false, tripped := false },
                         pins := { s.pins with thermTripN := true }, bus := { s.bus with ibis := t.bus.ibis } })
      ∧ (s.pwr.tripped = true → (∃ x ∈ ts, 1000 ≤ x) →
        ∃ t, exec (.thermalSample ts) s = .next t
          ∧ t = { s with pwr := { s.pwr with sensors := ts, lastHot := t.pwr.lastHot } })))
  ∧ (∀ s : State, ∃ t, exec .thermalEvaluate s = .next t ∧ Still s t ∧ (∀ q, Stepped (s.part q) (t.part q))
    ∧ ∀ c, c < 4 →
      let limit : Int := s.setting 0x5002 1
      let h := s.clusterMax c
      let old := (s.cluster c).ceiling
      (limit + 50 ≤ h → (t.cluster c).ceiling = max 300 (old - 200))
      ∧ (limit ≤ h → h < limit + 50 → (t.cluster c).ceiling = max 300 (old - 50))
      ∧ (limit - 30 < h → h < limit → (t.cluster c).ceiling = old)
      ∧ (h ≤ limit - 30 → (t.cluster c).ceiling = min 1600 (old + 25))
      ∧ (t.cluster c).shape = (s.cluster c).shape ∧ (t.cluster c).railCap = (s.cluster c).railCap)
  ∧ (∀ (s : State) (ns : Nat),
    ((s.pins.pwrGood = false ∨ s.pins.pwrCapN = false) → exec (.pwrCapNFall ns) s = .next s)
    ∧ (s.pins.pwrGood = true → s.pins.pwrCapN = true →
      (ns < 20 → exec (.pwrCapNFall ns) s = .next s)
      ∧ (50 ≤ ns → ∃ t, exec (.pwrCapNFall ns) s = .next t ∧ Still s t ∧ t.pins = { s.pins with pwrCapN := false }
          ∧ ∀ q, Stepped (s.part q) (t.part q))
      ∧ (20 ≤ ns → ns < 50 → ∃ t, exec (.pwrCapNFall ns) s = .next t ∧ Still s t
          ∧ (t = s.useFree ∨ t.pins = { s.pins with pwrCapN := false })))
    ∧ (s.pins.pwrCapN = true → exec .pwrCapNRise s = .next s)
    ∧ (s.pins.pwrCapN = false → ∃ t, exec .pwrCapNRise s = .next t ∧ Still s t ∧ t.pins = { s.pins with pwrCapN := true }
        ∧ ∀ q, Stepped (s.part q) (t.part q)))
  ∧ (∀ (s : State) (m : List Nat),
    (m.length ≠ 40 → exec (.telemetryUpdate m) s = .next s)
    ∧ (m.length = 40 → ∃ t, exec (.telemetryUpdate m) s = .next t
      ∧ t = { s with freeCount := t.freeCount, pwr := { s.pwr with energy := t.pwr.energy, mirror := t.pwr.mirror } }
      ∧ t.pwr.energy = s.pwr.energy + BitVec.ofNat 64 (m.getD 39 0)
      ∧ t.telemetry 0 = m.getD 0 0 % 2 ^ 32 ∧ (∀ c, c < 4 → t.telemetry (0x20 + 4 * c) = m.getD (1 + c) 0 % 2 ^ 32)
      ∧ t.telemetry 0x30 = m.getD 5 0 % 2 ^ 32
      ∧ (∀ n, n < 33 → t.telemetry (0x180 + 4 * n) = m.getD (6 + n) 0 % 2 ^ 32)
      ∧ t.telemetry 4 = s.budgetInForce % 2 ^ 32 ∧ t.telemetry 0x10 = t.pwr.energy.toNat % 2 ^ 32))
  ∧ (∀ s : State,
    (s.serving = false → exec .dictRefresh s = .next s ∧ exec .contractLogRead s = .next s)
    ∧ (s.serving = true →
      (∃ t, exec .dictRefresh s = .next t ∧ t = { s with dict := { s.dict with mirror := t.dict.mirror } }
        ∧ ∀ i k x, (i, k) ∈ mirroredKeys → s.mirrored i k = some x → tabGet t.dict.mirror (dictKey i k) = some x)
      ∧ (∃ t, exec .contractLogRead s = .next t ∧ Still s t ∧ t.fep = { s.fep with log := [] } ∧ t.cmds = s.cmds
          ∧ t.queues = s.queues ∧ t.parts = s.parts)))

-- Resets, pins and recovery -----------------------------------------------------------------------------------------------------

/-- A reset at level L0 or L1: what starts it, what it leaves, how it is held and how it is left, with a sequencer store that
fails its read-back; the pins that act by the length of their pulse (02 R51, 17 R364 to R376, 20 R433, R434). -/
def Obligations.WideResetsAndTheirPins : Prop :=
  (∀ (s : State) (a : Acting), s.rst.acting = [a] → s.wideRuns = false → (s.levelOf a.source = 0 ∨ s.levelOf a.source = 1) →
    ∃ t, exec .l1Reset s = .next t ∧ t.rst.phase = .hold ∧ t.rst.level = s.levelOf a.source ∧ t.rst.source = a.source
      ∧ t.rst.lastSource = BitVec.ofNat 8 a.source ∧ t.rst.acting = [] ∧ t.pins.devReady = false ∧ t.link.up = false
      ∧ t.queues = [] ∧ t.cmds = [] ∧ t.contracts = [] ∧ t.mem.cells = [] ∧ t.net.reqs = [] ∧ t.mgc.fw = .reset
      ∧ t.pending = s.pending ∧ (∀ n, (t.inst n).state = .absent) ∧ (t.inst 0).mmu.bypass = true
      ∧ (∀ p, (t.part p).state = .gated) ∧ (∀ c, (t.cluster c).shape = 0)
      ∧ (s.levelOf a.source = 1 → t.clk = s.clk ∧ t.bus.epochs = s.bus.epochs ∧ t.bus.claims = s.bus.claims
          ∧ t.bus.dynAddr = s.bus.dynAddr ∧ t.pwr.energy = s.pwr.energy
          ∧ tabGetD t.rst.counts 1 0 = tabGetD s.rst.counts 1 0 + 1)
      ∧ (s.levelOf a.source = 0 → t.clk.alive = false ∧ t.bus.epochs = [] ∧ t.bus.claims = [] ∧ t.bus.dynAddr = none
          ∧ t.pwr.energy = 0))
  ∧ (∀ s : State, s.rst.acting = [] → exec .l1Reset s = .next s)
  ∧ (∀ (s : State) (ns : Nat),
    let lost (t : State) : Prop := t.rst.phase = .hold ∧ t.rst.level = 0 ∧ t.rst.source = 1 ∧ t.clk.alive = false
      ∧ t.queues = [] ∧ t.cmds = [] ∧ t.pending = s.pending
    (s.pins.pwrGood = false → exec (.pwrGoodFall ns) s = .next s ∧ exec .refclkLoss s = .next s
      ∧ exec (.rstNAssert ns) s = .next s ∧ exec (.perstNAssert ns) s = .next s)
    ∧ (s.pins.pwrGood = true →
      (ns < 1000 → exec (.pwrGoodFall ns) s = .next s)
      ∧ (5000 ≤ ns → ∃ t, exec (.pwrGoodFall ns) s = .next t ∧ t.pins.pwrGood = false ∧ lost t)
      ∧ (1000 ≤ ns → ns < 5000 → ∃ t, exec (.pwrGoodFall ns) s = .next t
          ∧ (t = s.useFree ∨ (t.pins.pwrGood = false ∧ lost t)))
      ∧ (s.clk.refclk = true → ∃ t, exec .refclkLoss s = .next t ∧ t.clk.refclk = false ∧ lost t)
      ∧ (s.clk.refclk = false → exec .refclkLoss s = .next s)
      ∧ (ns < 1000 → exec (.rstNAssert ns) s = .next s ∧ exec (.perstNAssert ns) s = .next s)
      ∧ (10000 ≤ ns → s.pins.rstN = true → s.rst.phase = .none →
        exec (.rstNAssert ns) s = .next (withActing { s with pins := { s.pins with rstN := false } } 2 0))
      ∧ (10000 ≤ ns → s.pins.modeP = true → s.pins.perstN = true → s.rst.phase = .none →
        exec (.perstNAssert ns) s = .next (withActing { s with pins := { s.pins with perstN := false, wakeN := true } } 4 0))
      ∧ (s.pins.modeP = false → exec (.perstNAssert ns) s = .next s)))
  ∧ (∀ s : State,
    let up (t : State) : State := if s.rst.phase = .hold ∧ s.rst.level = 0 ∧ t.pins.pwrGood = true ∧ t.clk.refclk = true then
      { t with rst := { t.rst with phase := .l0Exiting } } else t
    exec .pwrGoodRise s = .next (up { s with pins := { s.pins with pwrGood := true } })
    ∧ exec .refclkRestored s = .next (up { s with clk := { s.clk with refclk := true } }))
  ∧ (∀ s : State,
    let pinsUp := { s.pins with rstN := true, perstN := true }
    let ready := s.pins.pwrGood = true ∧ s.clk.refclk = true ∧ s.pins.thermTripN = true
    let timed := s.rst.source ≠ 2 ∧ s.rst.source ≠ 3 ∧ s.rst.source ≠ 4 ∧ s.rst.source ≠ 11 ∧ s.rst.level ≠ 0
    (s.rst.phase ≠ .hold → exec .resetHoldEnd s = .next s)
    ∧ ((¬ ready ∨ (timed ∧ s.now < s.rst.startedAt + 20000)) → exec .resetHoldEnd s = .next s)
    ∧ (s.rst.phase = .hold → ready → (¬ timed ∨ s.rst.startedAt + 20000 ≤ s.now) →
      (s.rst.level = 0 → exec .resetHoldEnd s = .next { s with pins := pinsUp, rst := { s.rst with phase := .l0Exiting } })
      ∧ (s.rst.level ≠ 0 → s.bus.held = [] →
        exec .resetHoldEnd s = .next { s with pins := pinsUp, rst := { s.rst with phase := .l1Exiting } })))
  ∧ (∀ s : State,
    (s.rst.phase = .l0Exiting → s.pins.pwrGood = true → s.clk.refclk = true →
      ∃ t, exec .l0Exit s = .next t ∧ t.clk.alive = true ∧ t.clk.phase = 0 ∧ t.tap.ir = 2 ∧ t.rst.phase = .l1Exiting
        ∧ t.bus.staticAddr = 0x3A + s.pins.mgmtAddrStrap.setWidth 7 ∧ t.keep = s.keep)
    ∧ ((s.rst.phase ≠ .l0Exiting ∨ s.pins.pwrGood = false ∨ s.clk.refclk = false) → exec .l0Exit s = .next s)
    ∧ (s.rst.phase = .l1Exiting → ∀ bad, ∃ t, exec (.l1Exit bad) s = .next t ∧ t.rst.phase = .none ∧ t.queues = s.queues
        ∧ (∀ p, (tabGet s.parts p).isSome = true → bad.getLsbD p = true → (t.part p).state = .offline ∧ (t.part p).mcCause = 5)
        ∧ (∀ p, p < 16 → bad.getLsbD p = false → (t.part p).state = (s.part p).state)
        ∧ t.mem.cells = s.mem.cells ∧ t.mem.rate = t.setting 0x2000 2 ∧ t.mem.capGiB = t.setting 0x2000 4
        ∧ t.mem.ecc = (t.setting 0x2000 5 == 1) ∧ t.mem.storeMiB = t.setting 0x2000 6
        ∧ (∀ p, p < 16 → t.setting (0x3000 + p) 7 = 1 → (t.part p).retired = true))
    ∧ (s.rst.phase ≠ .l1Exiting → ∀ bad, exec (.l1Exit bad) s = .next s)
    ∧ (s.released = true → exec .memoryTrained s = .next { s with mem := { s.mem with trained := true } })
    ∧ (s.released = false → exec .memoryTrained s = .next s ∧ exec .deviceRegionFilled s = .next s)
    ∧ (s.released = true → s.mem.trained = true → s.mem.regionFilled = false →
        exec .deviceRegionFilled s = .next { s with mem := { s.mem with regionFilled := true },
                                                    link := { s.link with cfgReady := s.link.up } })
    ∧ ((s.mem.trained = false ∨ s.mem.regionFilled = true) → exec .deviceRegionFilled s = .next s))

/-- The test access port: EXTEST, CLAMP and HIGHZ control the pins only while RST_N is low and act as BYPASS at any other
time, and no instruction changes anything but the port's own registers (20 R441). -/
def Obligations.TheTestPortNeverDisturbsTheDevice : Prop :=
  ∀ (s : State) (cells preload : BitVec 64),
    let sel (ir : Nat) : State := { s with tap := { s.tap with ir := ir } }
    exec .tapReset s = .next (sel 2) ∧ exec .idcode s = .next (sel 2) ∧ exec .extest s = .next (sel 0)
      ∧ exec .clamp s = .next (sel 3) ∧ exec .highz s = .next (sel 4) ∧ exec .bypass s = .next (sel 15)
      ∧ exec (.samplePreload cells preload) s =
          .next { s with tap := { ir := 1, boundary := preload, captured := cells } }
      ∧ (s.pins.rstN = true → ∀ ir, (sel ir).pinControl = .functions)
      ∧ (s.pins.rstN = false → (sel 0).pinControl = .boundary s.tap.boundary ∧ (sel 3).pinControl = .boundary s.tap.boundary
          ∧ (sel 4).pinControl = .highZ ∧ (sel 15).pinControl = .functions)
      ∧ (sel 2).tapReg = .idcode ∧ (sel 1).tapReg = .boundary ∧ (sel 15).tapReg = .bypass ∧ (sel 3).tapReg = .bypass
      ∧ (sel 0).tapReg = (if s.pins.rstN then .bypass else .boundary)
      ∧ (s.pins.rstN = true → (sel 0).tapReg = .bypass ∧ (sel 3).tapReg = .bypass ∧ (sel 4).tapReg = .bypass)

/-- Subindex 0 of every implemented index is a byte that holds the highest subindex and that nothing writes; a subindex that
is not listed answers NO_SUBINDEX, an index that is not listed NO_INDEX; every index of the partition and the instance ranges
is implemented, with the same subindices (14 R291). -/
def Obligations.SubindexZeroHoldsTheHighestSubindex : Prop :=
  (∀ (s : State) (p : Path) (f : UFrame) (es : List Entry), Reaches s p → f.reservedSet = false →
    entriesAt f.index = some es →
    (f.sub = 0 → (f.data = [] →
        exec (.read p f) s = .next (respond (arrive s p) p ocRead f 0 [BitVec.ofNat 8 es.length]))
      ∧ (f.data.length ≤ 96 → exec (.write p f) s = .next (respond (arrive s p) p ocWrite f abPathDenied [])))
    ∧ (es.length < f.sub → (f.data = [] → exec (.read p f) s = .next (respond (arrive s p) p ocRead f abNoSubindex []))
      ∧ (f.data.length ≤ 96 → exec (.write p f) s = .next (respond (arrive s p) p ocWrite f abNoSubindex []))))
  ∧ (∀ (s : State) (p : Path) (f : UFrame), Reaches s p → f.reservedSet = false → entriesAt f.index = none →
    (f.data = [] → exec (.read p f) s = .next (respond (arrive s p) p ocRead f abNoIndex []))
    ∧ (f.data.length ≤ 96 → exec (.write p f) s = .next (respond (arrive s p) p ocWrite f abNoIndex [])))
  ∧ (∀ k, k < 16 → (entriesAt (0x3000 + k)).isSome = true ∧ entriesAt (0x3000 + k) = entriesAt 0x3000)
  ∧ (∀ k, k < 33 → (entriesAt (0x4000 + k)).isSome = true ∧ entriesAt (0x4000 + k) = entriesAt 0x4000)
  ∧ (∀ i, entriesAt i = none → i ≠ 0x1000 ∧ i ≠ 0x2000 ∧ i ≠ 0x2010 ∧ i ≠ 0x2100 ∧ i ≠ 0x5000 ∧ i ≠ 0x6000 ∧ i ≠ 0x9000)

/-- Resets at levels L2, L3 and L5, and the errors of the FEP that ask for one: an instance that resets is ACTIVE again with
a new generation and without its queues; a partition's L5 ends in service or offline with its cause; an L2 reset requests
pre-emption, stops the work, and resumes every queue from READ (02 R51, 08 R173, R174, R178 to R183, 11 R240, 17 R370,
R377). -/
def Obligations.NarrowResetsAndFepErrors : Prop :=
  (∀ (s : State) (n : Fin 33),
    (s.rst.acting = [] → exec (.l3Reset n) s = .next s)
    ∧ (∀ a, s.rst.acting = [a] → s.levelOf a.source = 3 → a.arg = n.val →
      ((s.rst.phase ≠ .none ∨ (s.inst n.val).state = .aborting) → exec (.l3Reset n) s = .next s)
      ∧ (s.rst.phase = .none → (s.inst n.val).state ≠ .aborting → (s.inst n.val).state ≠ .absent →
        ∃ t, exec (.l3Reset n) s = .next t ∧ (t.inst n.val).state = .active ∧ t.rst.acting = []
          ∧ (t.inst n.val).gen = (if (s.inst n.val).gen = 0xFFFF then 1 else (s.inst n.val).gen + 1)
          ∧ (t.inst n.val).sems = [] ∧ (t.inst n.val).bind = [] ∧ (t.inst n.val).mmu = mmuReset n.val
          ∧ (t.inst n.val).box.state = 0 ∧ (∀ e ∈ t.queues, e.2.inst ≠ n.val)
          ∧ tabGetD t.rst.counts 3 0 = tabGetD s.rst.counts 3 0 + 1)))
  ∧ (∀ (s : State) (p : Fin 16) (store buffer : Bool),
    ((s.part p.val).state ≠ .resetting → exec (.l5ResetDone p store buffer) s = .next s)
    ∧ ((s.part p.val).state = .resetting →
      (buffer = true → store = true → s.cal.seqBad = false → ∃ t, exec (.l5ResetDone p store buffer) s = .next t ∧ Still s t
        ∧ t.cal = s.cal ∧ t.part p.val = { s.part p.val with
            state := .idle, mcCause := 0, seq := [], faultPending := false, rstBusy := false, rstResult := 0, idleSince := s.now }
        ∧ (t.bridge p.val).fatal = false ∧ tabGetD t.rst.counts 5 0 = tabGetD s.rst.counts 5 0 + 1
        ∧ (∀ q, q ≠ p.val → t.part q = s.part q) ∧ ∀ n, n < 33 → t.nodeGen p.val n = (s.inst n).gen)
      ∧ ((buffer = false ∨ s.cal.seqBad = true ∨ store = false) → ∃ t, exec (.l5ResetDone p store buffer) s = .next t ∧ Still s t
        ∧ t.cal.seqBad = (s.cal.seqBad || !buffer)
        ∧ t.part p.val = { s.part p.val with
            state := .offline, mcCause := if buffer && !s.cal.seqBad then 5 else 6, rstBusy := false, rstResult := 0x06004001 }
        ∧ ∀ q, q ≠ p.val → t.part q = s.part q)))
  ∧ (∀ (s : State) (addr : BitVec 12) (th : Fin 8) (flips : BitVec 137) (good : Bool),
    let again := ∃ u, s.fep.lastRecovered = some (addr, u) ∧ s.now < u + 10000000
    let met (a : Nat) : Fep := s.fep.upset a flips
    let wrong (a : Nat) : Nat := (met a).errors a
    let op := Instr.controlStoreError addr th flips
    let ptr := s.fep.scrubPtr.toNat
    let scrubs := exec (.scrub flips good) s
    (s.fepRuns = false → exec op s = .next s ∧ scrubs = .next s
      ∧ ∀ stall, exec (.fepHangWatchdog stall th addr) s = .next s)
    ∧ (s.fepRuns = true →
      (wrong addr.toNat = 0 → ∃ t, exec op s = .next t
        ∧ t = { s with fep := { s.fep with upsets := (met addr.toNat).upsets, threads := t.fep.threads } })
      ∧ (wrong addr.toNat = 1 → ∃ t, exec op s = .next t ∧ t = { s with fep := { s.fep with
            upsets := t.fep.upsets, threads := t.fep.threads, ceCount := satInc s.fep.ceCount } }
        ∧ t.fep.errors addr.toNat = 0)
      ∧ (2 ≤ wrong addr.toNat → again → ∃ t, exec op s = .next t ∧ Still s t ∧ t.fep.halted = true
        ∧ t.fep.stopped = true ∧ t.fep.mcCause = 5 ∧ t.fep.mcAddr = addr ∧ t.rst = s.rst)
      ∧ (2 ≤ wrong addr.toNat → ¬ again → ∃ t, exec op s = .next t ∧ Still s t
        ∧ t.fep = { s.fep with stopped := true, mcCause := 1, mcAddr := addr, mcThread := BitVec.ofNat 3 th.val,
                               mcCount := satInc s.fep.mcCount, lastError := some addr,
                               upsets := (met addr.toNat).upsets, threads := t.fep.threads }
        ∧ t.rst = { s.rst with acting := s.rst.acting ++ [⟨10, s.now, 0⟩] })
      ∧ exec (.fepHangWatchdog false th addr) s = .next (withActing { s with fep := { s.fep with
          stopped := true, mcCause := 2, mcAddr := addr, mcThread := BitVec.ofNat 3 th.val,
          mcCount := satInc s.fep.mcCount } } 9 0)
      ∧ (∃ t, exec (.fepHangWatchdog true th addr) s = .next t
        ∧ t = { s with
            freeCount := s.freeCount + 1, rst := { s.rst with acting := s.rst.acting ++ [⟨9, s.now, 0⟩] },
            fep := { s.fep with
              stopped := true, mcCause := 3, mcAddr := t.fep.mcAddr, mcThread := t.fep.mcThread,
              mcCount := satInc s.fep.mcCount } })
      ∧ (wrong ptr = 0 → scrubs = .next { s with fep := { met ptr with scrubPtr := s.fep.scrubPtr + 1 } })
      ∧ (wrong ptr = 1 → scrubs = .next { s with fep := { (met ptr).rewrite ptr with
          ceCount := satInc s.fep.ceCount, scrubPtr := s.fep.scrubPtr + 1 } })
      ∧ (2 ≤ wrong ptr → s.fep.bufferBad = false → good = true → ∃ t, scrubs = .next t ∧ Still s t
        ∧ t.fep = { (met ptr).rewrite ptr with repaired := satInc s.fep.repaired, scrubPtr := s.fep.scrubPtr + 1 })
      ∧ (2 ≤ wrong ptr → (s.fep.bufferBad = true ∨ good = false) → ∃ t, scrubs = .next t ∧ Still s t
        ∧ t.fep.stopped = true ∧ t.fep.mcCause = 4 ∧ t.fep.bufferBad = true ∧ t.fep.mcCount = satInc s.fep.mcCount
        ∧ t.rst = { s.rst with acting := s.rst.acting ++ [⟨10, s.now, 0⟩] })
      ∧ (∀ a b, ((met a).rewrite a).errors a = 0 ∧ (met a).word b = s.fep.word b)))
  ∧ (∀ s : State,
    (s.rst.acting = [] → exec .l2Reset s = .next s)
    ∧ (∀ a, s.rst.acting = [a] → s.levelOf a.source = 2 →
      (s.rst.phase ≠ .none → exec .l2Reset s = .next s)
      ∧ (s.rst.phase = .none → ∃ t, exec .l2Reset s = .next t ∧ t = { s with rst := t.rst, parts := t.parts }
        ∧ t.rst.phase = .l2Preempt ∧ t.rst.level = 2 ∧ t.rst.source = a.source ∧ t.rst.startedAt = a.at_
        ∧ t.rst.acting = [] ∧ t.rst.lastLevel = 2 ∧ tabGetD t.rst.counts 2 0 = tabGetD s.rst.counts 2 0 + 1
        ∧ ∀ p, p < 16 → t.part p = { s.part p with preempt :=
            if (s.part p).run.isSome && (s.part p).preempt.isNone then some 0 else (s.part p).preempt }))
    ∧ (∀ patch image, (s.rst.phase ≠ .l2Preempt ∨ s.now < s.rst.startedAt + 40000) →
        exec (.l2PreemptDeadline patch image) s = .next s)
    ∧ (∀ patch image, s.rst.phase = .l2Preempt → s.rst.startedAt + 40000 ≤ s.now →
      ∃ t, exec (.l2PreemptDeadline patch image) s = .next t ∧ Still s t ∧ t.rst.phase = .l2Stopped ∧ t.net.reqs = [] ∧ t.net.out = []
        ∧ (∀ p, p < 16 → (t.part p).run = none ∧ (t.part p).grant = none ∧ (t.part p).residency = none
            ∧ (t.part p).resume = (s.part p).resume)
        ∧ (∀ p, p < 16 → (s.part p).state ≠ .gated → (s.part p).state ≠ .offline → (image = false ∨ s.cal.seqBad = true) →
            (t.part p).state = .offline ∧ (t.part p).mcCause = 6)
        ∧ t.fep.upsets = [] ∧ t.fep.threads = [] ∧ t.cal.seqBad = (s.cal.seqBad || !image)
        ∧ (∀ c, (t.cluster c).shape = 0) ∧ t.queues = s.queues
        ∧ ∀ k c, tabGet s.cmds k = some c → ∃ x, tabGet t.cmds k = some x
            ∧ x = { c with replicas := x.replicas, pqEntry := none })
    ∧ ((s.rst.phase ≠ .l2Stopped ∨ (s.rst.source = 11 ∧ s.pins.thermTripN = false)) → exec .l2Rebuild s = .next s)
    ∧ (s.rst.phase = .l2Stopped → (s.rst.source ≠ 11 ∨ s.pins.thermTripN = true) → s.rst.acting = [] →
      (s.fep.halted = true → exec .l2Rebuild s = .next { s with rst := { s.rst with phase := .none, level := 9 } })
      ∧ (s.fep.halted = false → s.fep.heldBells = [] → ∃ t, exec .l2Rebuild s = .next t ∧ Still s t
        ∧ t.rst.phase = .none ∧ t.fep.stopped = false
        ∧ ∀ k q, s.queue k = some q → ∃ x, t.queue k = some x
            ∧ x = { q with nextFetch := q.read, reads := 0, need := none })))

/-- The memory frame: every command that is none of those whose effect writes memory (a completion record, a status
write-back, COPY, FILL, a constant buffer, a WR, a state blob, a mirror write, a keep-store operation, a reset that clears
memory, or a dictionary write or message that can lead to one) leaves every byte of private memory and of the keep store as it
was. -/
def Obligations.OtherCommandsLeaveMemoryAlone : Prop :=
  ∀ (c : Instr) (s t : State), mayWriteMemory c = false → exec c s = .next t →
    (∀ a, t.readPriv a = s.readPriv a) ∧ (∀ a, t.readKeep a = s.readKeep a)
end

