-- ==== Sys2Proof/Laws/Memory.lean ====
section
/-! SUPPORT. The byte memories and the partitions' SRAMs: a write keeps the one form, a read after a write gives the byte
written, and every other byte reads as before. -/

namespace Sys2Proof.Laws
open Sys2Proof Sys2Proof.Machine Sys2Proof.Safety

/-- Every address listed is above `n`. -/
abbrev Above (n : Nat) (m : List Host.Cell) : Prop := ∀ e ∈ m, n < e.1

theorem cellsWf_cons (d : Byte) (k : Nat) (b : Byte) (t : List Host.Cell) :
    cellsWf d ((k, b) :: t) = true ↔ b ≠ d ∧ Above k t ∧ cellsWf d t = true := by
  simp [cellsWf, Above, and_assoc]

theorem cellWrite_above {d : Byte} {n : Nat} {m : List Host.Cell} {a : Nat} {b : Byte} (hm : Above n m) (ha : n < a) :
    Above n (cellWrite d m a b) := by
  induction m with
  | nil => unfold cellWrite; split <;> simp [Above, ha]
  | cons e t ih =>
    obtain ⟨k, c⟩ := e
    have hk : n < k := hm (k, c) (by simp)
    have ht : Above n t := fun x hx => hm x (by simp [hx])
    unfold cellWrite
    intro x hx
    split at hx
    · split at hx
      · exact hm x hx
      · rcases List.mem_cons.1 hx with rfl | h
        · exact ha
        · exact hm x h
    · split at hx
      · split at hx
        · exact ht x hx
        · rcases List.mem_cons.1 hx with rfl | h
          · exact ha
          · exact ht x h
      · rcases List.mem_cons.1 hx with rfl | h
        · exact hk
        · exact ih ht x h

/-- A write keeps the one form. -/
theorem cellWrite_wf {d : Byte} {m : List Host.Cell} (hm : cellsWf d m = true) (a : Nat) (b : Byte) :
    cellsWf d (cellWrite d m a b) = true := by
  induction m with
  | nil => unfold cellWrite; split <;> simp_all [cellsWf]
  | cons e t ih =>
    obtain ⟨k, c⟩ := e
    obtain ⟨hc, hk, ht⟩ := (cellsWf_cons d k c t).1 hm
    unfold cellWrite
    split
    · rename_i hlt
      split
      · exact hm
      · rename_i hb
        refine (cellsWf_cons ..).2 ⟨hb, fun x hx => ?_, hm⟩
        rcases List.mem_cons.1 hx with rfl | h
        · exact hlt
        · exact lt_trans hlt (hk x h)
    · split
      · rename_i heq
        split
        · exact ht
        · rename_i hb
          exact (cellsWf_cons ..).2 ⟨hb, heq ▸ hk, ht⟩
      · exact (cellsWf_cons ..).2 ⟨hc, cellWrite_above hk (by omega), ih ht⟩

theorem cellRead_above {d : Byte} {m : List Host.Cell} {a : Nat} (h : Above a m) : cellRead d m a = d := by
  induction m with
  | nil => rfl
  | cons e t ih =>
    obtain ⟨k, c⟩ := e
    have hk : a < k := h (k, c) (by simp)
    simp [cellRead, Nat.ne_of_gt hk, ih (fun x hx => h x (by simp [hx]))]

/-- A read at the address of a write gives the byte written. -/
theorem cellRead_write_same {d : Byte} {m : List Host.Cell} (hm : cellsWf d m = true) (a : Nat) (b : Byte) :
    cellRead d (cellWrite d m a b) a = b := by
  induction m with
  | nil => unfold cellWrite; split <;> simp_all [cellRead]
  | cons e t ih =>
    obtain ⟨k, c⟩ := e
    obtain ⟨hc, hk, ht⟩ := (cellsWf_cons d k c t).1 hm
    unfold cellWrite
    split
    · rename_i hlt
      split
      · rename_i hb
        subst hb
        exact cellRead_above (fun x hx => by
          rcases List.mem_cons.1 hx with rfl | h
          · exact hlt
          · exact lt_trans hlt (hk x h))
      · simp [cellRead]
    · split
      · rename_i heq
        split
        · rename_i hb; subst hb; subst heq; exact cellRead_above hk
        · simp [cellRead]
      · rename_i hne
        simp [cellRead, hne, ih ht]

/-- A read at another address gives what it gave before the write. -/
theorem cellRead_write_other {d : Byte} {m : List Host.Cell} (hm : cellsWf d m = true) {a x : Nat} (b : Byte) (hx : x ≠ a) :
    cellRead d (cellWrite d m a b) x = cellRead d m x := by
  induction m with
  | nil => unfold cellWrite; split <;> simp [cellRead, Ne.symm hx]
  | cons e t ih =>
    obtain ⟨k, c⟩ := e
    obtain ⟨hc, hk, ht⟩ := (cellsWf_cons d k c t).1 hm
    unfold cellWrite
    split
    · split
      · rfl
      · simp [cellRead, Ne.symm hx]
    · split
      · rename_i heq
        subst heq
        split <;> simp [cellRead, Ne.symm hx]
      · simp [cellRead, ih ht]

theorem cellWriteN_wf {d : Byte} {m : List Host.Cell} (hm : cellsWf d m = true) (a : Nat) (bs : List Byte) :
    cellsWf d (cellWriteN d m a bs) = true := by
  induction bs generalizing m a with
  | nil => exact hm
  | cons b t ih => exact ih (cellWrite_wf hm a b) (a + 1)

/-- Bytes outside those written read as before. -/
theorem cellRead_writeN_other {d : Byte} {m : List Host.Cell} (hm : cellsWf d m = true) {a x : Nat} (bs : List Byte)
    (hx : x < a ∨ a + bs.length ≤ x) : cellRead d (cellWriteN d m a bs) x = cellRead d m x := by
  induction bs generalizing m a with
  | nil => rfl
  | cons b t ih =>
    simp only [List.length_cons] at hx
    rw [cellWriteN, ih (cellWrite_wf hm a b) (by omega), cellRead_write_other hm b (by omega)]

/-- The bytes written read back. -/
theorem cellReadN_writeN_same {d : Byte} {m : List Host.Cell} (hm : cellsWf d m = true) (a : Nat) (bs : List Byte) :
    cellReadN d (cellWriteN d m a bs) a bs.length = bs := by
  induction bs generalizing m a with
  | nil => rfl
  | cons b t ih =>
    have h := cellWrite_wf hm a b
    simp only [List.length_cons, cellReadN, cellWriteN]
    rw [cellRead_writeN_other h t (by omega), cellRead_write_same hm, ih h]

theorem eraseSector_wf {m : List Host.Cell} (hm : cellsWf keepUnlisted m = true) (p : Host.Cell → Bool) :
    cellsWf keepUnlisted (m.filter p) = true := by
  induction m with
  | nil => rfl
  | cons e t ih =>
    obtain ⟨k, c⟩ := e
    obtain ⟨hc, hk, ht⟩ := (cellsWf_cons _ k c t).1 hm
    simp only [List.filter_cons]
    split
    · exact (cellsWf_cons ..).2 ⟨hc, fun x hx => hk x (List.mem_filter.1 hx).1, ih ht⟩
    · exact ih ht

theorem programCells_wf {m : List Host.Cell} (hm : cellsWf keepUnlisted m = true) (a : Nat) (bs : List Byte) :
    cellsWf keepUnlisted (programCells m a bs) = true := by
  induction bs generalizing m a with
  | nil => exact hm
  | cons b t ih => exact ih (cellWrite_wf hm _ _) _

theorem doStep_wf {k : Keep} (hk : cellsWf keepUnlisted k.cells = true) (st : KStep) :
    cellsWf keepUnlisted (k.doStep st).cells = true := by
  cases st with
  | erase a => exact eraseSector_wf hk _
  | program a bs => exact programCells_wf hk a bs

/-- A whole operation list of the keep-store engine keeps the one form. -/
theorem doSteps_wf {k : Keep} (hk : cellsWf keepUnlisted k.cells = true) (l : List KStep) :
    cellsWf keepUnlisted (k.doSteps l).cells = true := by
  induction l generalizing k with
  | nil => exact hk
  | cons st t ih => exact ih (doStep_wf hk st)

/-- A list that is cut short keeps the one form. -/
theorem tear_wf {k : Keep} (hk : cellsWf keepUnlisted k.cells = true) (l : List KStep) (n : Nat) :
    cellsWf keepUnlisted (k.tear l n).cells = true := by
  have h := doSteps_wf hk (l.take n)
  unfold Keep.tear
  dsimp only
  split <;> exact h

-- A partition's SRAMs (02 R26) -------------------------------------------------------------------------------------------------

@[simp] theorem setSram_same (x : Part) (k : Sram) (m : List Host.Cell) : (x.setSram k m).sram k = m := by cases k <;> rfl

theorem setSram_other {k j : Sram} (x : Part) (m : List Host.Cell) (h : j ≠ k) : (x.setSram k m).sram j = x.sram j := by
  cases k <;> cases j <;> first | rfl | exact absurd rfl h

/-- A write to an SRAM keeps the one form of every SRAM. -/
theorem writeSram_wf {x : Part} {j : Sram} (h : cellsWf 0 (x.sram j) = true) (k : Sram) (off : Nat) (bs : List Byte) :
    cellsWf 0 ((x.writeSram k off bs).sram j) = true := by
  unfold Part.writeSram
  split
  · by_cases e : j = k
    · subst e; simpa using cellWriteN_wf h off bs
    · rwa [setSram_other x _ e]
  · exact h

/-- A write to an SRAM leaves the other SRAMs. -/
theorem writeSram_other {k j : Sram} (x : Part) (off : Nat) (bs : List Byte) (h : j ≠ k) :
    (x.writeSram k off bs).sram j = x.sram j := by
  unfold Part.writeSram
  split
  · exact setSram_other x _ h
  · rfl

/-- A write to an SRAM changes nothing of a partition but its SRAMs. -/
theorem writeSram_frame (x : Part) (k : Sram) (off : Nat) (bs : List Byte) :
    x.writeSram k off bs = { x with weight := (x.writeSram k off bs).weight, act := (x.writeSram k off bs).act,
                                    scratch := (x.writeSram k off bs).scratch } := by
  unfold Part.writeSram
  split
  · cases k <;> rfl
  · rfl

/-- Bytes written within an SRAM read back. -/
theorem readSram_writeSram_same {x : Part} {k : Sram} (h : cellsWf 0 (x.sram k) = true) {off : Nat} {bs : List Byte}
    (hfit : off + bs.length ≤ sramSize k) : (x.writeSram k off bs).readSram k off bs.length = bs := by
  simp only [Part.writeSram, Part.readSram, hfit, if_true, setSram_same]
  exact cellReadN_writeN_same h off bs

end Sys2Proof.Laws
end

