-- ==== Sys2Proof/Laws/View.lean ====
section
/-! SUPPORT. The view of a state that the invariant and the frames look at: the two byte memories, the waiting commands,
DEVTIME, the latched host mode, the network timeouts, the host link's status fields and the TAP's instruction. Most operations leave the view as it is;
the lemmas under Laws/ say so once for each. -/

namespace Sys2Proof.Laws
open Sys2Proof Sys2Proof.Machine Sys2Proof.Safety

/-- What the invariant and the memory frames look at. -/
structure View where
  priv : List Host.Cell
  keep : List Host.Cell
  pending : List Instr
  devtime : Nat
  modeP : Bool
  tmoPriv : Nat
  tmoHost : Nat
  up : Bool
  speed : BitVec 4
  width : BitVec 6
  ucieVer : BitVec 4
  ir : Nat

/-- The view of a state. -/
def view (s : State) : View :=
  ⟨s.mem.cells, s.keep.cells, s.pending, s.clk.devtime, s.pins.modeP, s.net.tmoPriv, s.net.tmoHost, s.link.up, s.link.speed, s.link.width,
   s.link.ucieVer, s.tap.ir⟩

/-- The invariant as the view shows it. -/
def View.Ok (v : View) : Prop :=
  cellsWf privUnlisted v.priv = true ∧ cellsWf keepUnlisted v.keep = true ∧ TimeoutLegal v.tmoPriv ∧ TimeoutLegal v.tmoHost
    ∧ (v.up = false → v.speed = 0 ∧ v.width = 0 ∧ v.ucieVer = 0) ∧ v.ir ∈ tapCodes

/-- The waiting commands, DEVTIME and the latched host mode are those of `b`, and the
invariant holds where it holds of `b`. -/
def View.Keeps (b : State) (v : View) : Prop :=
  (v.pending = b.pending ∧ v.devtime = b.clk.devtime ∧ v.modeP = b.pins.modeP) ∧ (Legal b → v.Ok)

/-- A state keeps its own view. -/
theorem keeps_self (s : State) : (view s).Keeps s := ⟨⟨rfl, rfl, rfl⟩, fun h => by
  simpa [View.Ok, view, Legal, Memory.wf, LinkLegal, and_assoc] using h⟩

theorem view_ok_iff (s : State) : (view s).Ok ↔ Legal s := by
  simp [View.Ok, view, Legal, Memory.wf, LinkLegal, and_assoc]

/-- The view of a state written out as a record. -/
@[simp] theorem view_mk (a1 : Clock) (a2 : Pins) (a3 : Rst) (a4 : PrivMem) (a5 : Tab Inst) (a6 : Tab Queue) (a7 : Tab Cmd)
    (a8 : Tab Contract) (a9 : Tab (List Byte)) (b1 : Fep) (b2 : Tab Part) (b3 : Tab Cluster) (b4 : Tab Skim) (b5 : Net)
    (b6 : HostLink) (b7 : Mgc) (b8 : Link) (b9 : Dict) (c1 : Keep) (c2 : Cal) (c3 : Power) (c4 : Seqr) (c5 : Tap)
    (c6 : Nat) (c7 : List Instr) :
    view (State.mk a1 a2 a3 a4 a5 a6 a7 a8 a9 b1 b2 b3 b4 b5 b6 b7 b8 b9 c1 c2 c3 c4 c5 c6 c7) =
      View.mk a4.cells c1.cells c7 a1.devtime a2.modeP b5.tmoPriv b5.tmoHost b6.up b6.speed b6.width b6.ucieVer c5.ir := rfl

/-- The fields of a state's view, folded back. -/
@[simp] theorem view_fold (s : State) :
    View.mk s.mem.cells s.keep.cells s.pending s.clk.devtime s.pins.modeP s.net.tmoPriv s.net.tmoHost s.link.up
      s.link.speed s.link.width s.link.ucieVer s.tap.ir = view s := rfl

@[simp] theorem view_ite (c : Prop) [Decidable c] (a b : State) : view (if c then a else b) = if c then view a else view b := by
  split <;> rfl

/-- A fold of steps that leave the view alone leaves it alone. -/
theorem view_foldl {α : Type} (g : State → α → State) (hg : ∀ t x, view (g t x) = view t) (l : List α) (s : State) :
    view (l.foldl g s) = view s := by
  induction l generalizing s with
  | nil => rfl
  | cons x t ih => simp [List.foldl, ih, hg]

/-- A fold of steps that keep the invariant keeps it. -/
theorem keeps_foldl {α : Type} {c : State} (g : State → α → State)
    (hg : ∀ t x, (view t).Keeps c → (view (g t x)).Keeps c) (l : List α) (s : State) (h : (view s).Keeps c) :
    (view (l.foldl g s)).Keeps c := by
  induction l generalizing s with
  | nil => exact h
  | cons x t ih => exact ih _ (hg _ _ h)

theorem keeps_priv {c : State} {s : State} (hk : (view s).Keeps c) {m : List Host.Cell}
    (hm : cellsWf privUnlisted s.mem.cells = true → cellsWf privUnlisted m = true) :
    (view { s with mem := { s.mem with cells := m } }).Keeps c :=
  ⟨hk.1, fun hb => have h := hk.2 hb; ⟨hm h.1, h.2⟩⟩

theorem keeps_keep {c : State} {s : State} (hk : (view s).Keeps c) {k : Keep}
    (hm : cellsWf keepUnlisted s.keep.cells = true → cellsWf keepUnlisted k.cells = true) :
    (view { s with keep := k }).Keeps c :=
  ⟨hk.1, fun hb => have h := hk.2 hb; ⟨h.1, hm h.2.1, h.2.2⟩⟩

end Sys2Proof.Laws
end

