-- ==== Sys2Proof/Laws/ViewOps.lean ====
section
/-! SUPPORT. What the tables, the byte memories, events, queues, cycle-bandwidth arithmetic, admission and partition groups do to the view of a state: one lemma each, from the definition;
`view_` where the view stays, `keeps_` where a byte memory or a timeout is written and the invariant stays. -/

namespace Sys2Proof.Laws
open Sys2Proof Sys2Proof.Machine Sys2Proof.Safety
set_option linter.unusedSimpArgs false
set_option linter.unusedVariables false
set_option linter.unreachableTactic false
set_option linter.unusedTactic false

@[simp] theorem view_State_updInst (s : State) (n : Nat) (f : Inst → Inst) :
    view (State.updInst s n f) = view s := by
  simp [State.updInst]

@[simp] theorem view_State_updPart (s : State) (p : Nat) (f : Part → Part) :
    view (State.updPart s p f) = view s := by
  simp [State.updPart]

@[simp] theorem view_State_updCluster (s : State) (c : Nat) (f : Cluster → Cluster) :
    view (State.updCluster s c f) = view s := by
  simp [State.updCluster]

@[simp] theorem view_State_updSkim (s : State) (g : Nat) (f : Skim → Skim) :
    view (State.updSkim s g f) = view s := by
  simp [State.updSkim]

@[simp] theorem view_State_updFunc (s : State) (n : Nat) (f : Func → Func) :
    view (State.updFunc s n f) = view s := by
  simp [State.updFunc]

@[simp] theorem view_State_updBridge (s : State) (b : Nat) (f : Bridge → Bridge) :
    view (State.updBridge s b f) = view s := by
  simp [State.updBridge]

@[simp] theorem view_State_updQueue (s : State) (k : Nat) (f : Queue → Queue) :
    view (State.updQueue s k f) = view s := by
  simp [State.updQueue]

@[simp] theorem view_State_setCmd (s : State) (c : Cmd) :
    view (State.setCmd s c) = view s := by
  simp [State.setCmd]

@[simp] theorem view_State_updCmd (s : State) (slot : Nat) (seq : Nat) (f : Cmd → Cmd) :
    view (State.updCmd s slot seq f) = view s := by
  simp [State.updCmd]

@[simp] theorem view_State_dropCmd (s : State) (slot : Nat) (seq : Nat) :
    view (State.dropCmd s slot seq) = view s := by
  simp [State.dropCmd]

@[simp] theorem view_State_updContract (s : State) (id : Nat) (f : Contract → Contract) :
    view (State.updContract s id f) = view s := by
  simp [State.updContract]

@[simp] theorem view_State_mapCmds (s : State) (f : Cmd → Cmd) :
    view (State.mapCmds s f) = view s := by
  simp [State.mapCmds]

@[simp] theorem view_State_mapParts (s : State) (f : Nat → Part → Part) :
    view (State.mapParts s f) = view s := by
  exact view_foldl _ (by simp) _ _

@[simp] theorem view_State_useFree (s : State) :
    view (State.useFree s) = view s := by
  simp [State.useFree]

@[simp] theorem view_freeBytes (a0 : Nat) (a1 : State) :
    view (freeBytes a0 a1).2 = view a1 := by
  induction a0 generalizing a1 with
  | zero => rfl
  | succ n ih => simp [freeBytes, ih]

@[simp] theorem keeps_State_writePriv {cq : State} (s : State) (a : Nat) (bs : List Byte) (hk : (view s).Keeps cq) :
    (view (State.writePriv s a bs)).Keeps cq := by
  exact keeps_priv hk (fun h => cellWriteN_wf h a bs)

@[simp] theorem view_State_chargePriv (s : State) (n : Nat) (a : Nat) (len : Nat) :
    view (State.chargePriv s n a len) = view s := by
  exact view_mk ..

@[simp] theorem keeps_State_storePriv {cq : State} (s : State) (n : Nat) (a : Nat) (bs : List Byte) (hk :
    (view s).Keeps cq) :
    (view (State.storePriv s n a bs)).Keeps cq := by
  have e : (view ((s.chargePriv n a bs.length).writePriv a bs)).Keeps cq :=
    keeps_State_writePriv _ _ _ (by rw [view_State_chargePriv]; exact hk)
  unfold State.storePriv
  dsimp only
  rw [view_mk, view_fold]
  exact e

@[simp] theorem keeps_State_writeKeep {cq : State} (s : State) (a : Nat) (bs : List Byte) (hk : (view s).Keeps cq) :
    (view (State.writeKeep s a bs)).Keeps cq := by
  exact keeps_keep hk (fun h => cellWriteN_wf h a bs)

/-- A reference cycle moves DEVTIME and nothing else of the view. -/
theorem tick_fields (s : State) : s.tick.mem = s.mem ∧ s.tick.keep = s.keep ∧ s.tick.pending = s.pending ∧ s.tick.net = s.net
    ∧ s.tick.link = s.link ∧ s.tick.tap = s.tap ∧ s.tick.pins = s.pins := by
  unfold State.tick; repeat' split
  all_goals simp

@[simp] theorem view_State_updVector (s : State) (fn : Nat) (v : Nat) (f : Vector → Vector) :
    view (State.updVector s fn v f) = view s := by
  simp [State.updVector]

@[simp] theorem view_State_post (s : State) (p : Posted) :
    view (State.post s p) = view s := by
  simp [State.post]

@[simp] theorem view_State_msix (s : State) (fn : Nat) (v : Nat) :
    view (State.msix s fn v) = view s := by
  simp [State.msix]

@[simp] theorem view_State_msixFlush (s : State) (fn : Nat) :
    view (State.msixFlush s fn) = view s := by
  simp [State.msixFlush, view_foldl]

@[simp] theorem view_State_ringEvent (s : State) (n : Nat) (code : Nat) (subject : Nat) (time : Nat)
    (payload : List Byte) :
    view (State.ringEvent s n code subject time payload) = view s := by
  simp [State.ringEvent]

@[simp] theorem view_State_deliver (s : State) (e : HeldEvent) :
    view (State.deliver s e) = view s := by
  simp [State.deliver]

@[simp] theorem view_State_event (s : State) (code : Nat) (subject : Nat) (toInst : Bool) (toMgr : Bool)
    (payload : List Byte) :
    view (State.event s code subject toInst toMgr payload) = view s := by
  simp [State.event]

@[simp] theorem view_State_releaseEvents (s : State) :
    view (State.releaseEvents s) = view s := by
  simp [State.releaseEvents, view_foldl]

@[simp] theorem view_State_eventLimited (s : State) (code : Nat) (limitSubject : Nat) (subject : Nat)
    (toInst : Bool) (toMgr : Bool) (payload : List Byte) :
    view (State.eventLimited s code limitSubject subject toInst toMgr payload) = view s := by
  unfold State.eventLimited
  dsimp only
  repeat' split
  all_goals simp

@[simp] theorem view_State_spoof (s : State) (point : Nat) (claimed : Nat) (owner : Option Nat) (src : Nat)
    (dst : Nat) (slot : Nat) (rid : Nat) (kind : Nat) (seq : Nat) :
    view (State.spoof s point claimed owner src dst slot rid kind seq) = view s := by
  simp [State.spoof]

/-- A write of an SR-IOV byte leaves the link's status fields alone. -/
theorem sriovByte_fields (l : HostLink) (off : Nat) (b : Byte) :
    (l.sriovByte off b).up = l.up ∧ (l.sriovByte off b).speed = l.speed ∧ (l.sriovByte off b).width = l.width
      ∧ (l.sriovByte off b).ucieVer = l.ucieVer := by
  unfold HostLink.sriovByte
  split
  · simp
  · split <;> simp

@[simp] theorem view_State_cfgByteAt (s : State) (fn : Nat) (off : Nat) (b : Byte) :
    view (State.cfgByteAt s fn off b) = view s := by
  unfold State.cfgByteAt
  dsimp only
  split
  · simp [sriovByte_fields]
  · simp

@[simp] theorem view_State_cfgWrite (s : State) (fn : Nat) (off : Nat) (data : List Byte) :
    view (State.cfgWrite s fn off data) = view s := by
  unfold State.cfgWrite
  have h (l : List Byte) (a : State × Nat) :
      view (l.foldl (fun (a : State × Nat) b => (a.1.cfgByteAt fn a.2 b, a.2 + 1)) a).1 = view a.1 := by
    induction l generalizing a with
    | nil => rfl
    | cons x t ih => simp [ih]
  simp [h]

@[simp] theorem view_freeHeader (s : State) :
    view (freeHeader s).2 = view s := by
  simp [freeHeader]

@[simp] theorem view_State_aerFn (s : State) (correctable : Bool) (b : Nat) (fn : Nat) :
    view (State.aerFn s correctable b fn) = view s := by
  unfold State.aerFn
  dsimp only
  repeat' split
  all_goals simp

@[simp] theorem view_State_aer (s : State) (correctable : Bool) (b : Nat) :
    view (State.aer s correctable b) = view s := by
  simp [State.aer, view_foldl]

@[simp] theorem view_State_makeRoom (s : State) (among : Nat → Bool) (size : Mmu → Nat) (drop : Mmu → Mmu)
    (limit : Nat) :
    view (State.makeRoom s among size drop limit) = view s := by
  unfold State.makeRoom
  dsimp only
  repeat' split
  all_goals simp

@[simp] theorem view_State_tlbLoad (s : State) (n : Nat) (page : Nat) (leaf : BitVec 64) :
    view (State.tlbLoad s n page leaf) = view s := by
  simp [State.tlbLoad]

@[simp] theorem view_State_microLoad (s : State) (n : Nat) (node : Nat) (page : Nat) (leaf : BitVec 64) :
    view (State.microLoad s n node page leaf) = view s := by
  simp [State.microLoad]

@[simp] theorem view_State_upperLoad (s : State) (n : Nat) (es : List (Nat × BitVec 64)) :
    view (State.upperLoad s n es) = view s := by
  simp [State.upperLoad, view_foldl]

@[simp] theorem view_State_corrected (s : State) (a : Nat) (len : Nat) :
    view (State.corrected s a len) = view s := by
  simp [State.corrected]

@[simp] theorem view_State_walked (s : State) (n : Nat) (dva : Nat) :
    view (State.walked s n dva) = view s := by
  simp [State.walked, view_foldl]

@[simp] theorem view_State_xlated (s : State) (n : Nat) (node : Nat) (dva : Nat) :
    view (State.xlated s n node dva) = view s := by
  unfold State.xlated
  split <;> simp

@[simp] theorem view_State_cacheAtc (s : State) (fn : Nat) (page : Nat) (dest : Nat) :
    view (State.cacheAtc s fn page dest) = view s := by
  simp [State.cacheAtc]

@[simp] theorem view_State_askXlat (s : State) (n : Nat) (w : Waiting) :
    view (State.askXlat s n w) = view s := by
  unfold State.askXlat
  split <;> simp

@[simp] theorem view_State_hostPost (s : State) (n : Nat) (a : Nat) (bs : List Byte) (a4 : Nat) :
    view (State.hostPost s n a bs a4) = view s := by
  induction a4 generalizing s a bs with
  | zero => rfl
  | succ k ih =>
    unfold State.hostPost
    dsimp only
    repeat' split
    all_goals simp [ih]

@[simp] theorem view_State_chargeExtent (s : State) (n : Nat) (node : Nat) (dva : Nat) (len : Nat) (a5 : Nat) :
    view (State.chargeExtent s n node dva len a5) = view s := by
  induction a5 generalizing s dva len with
  | zero => rfl
  | succ k ih =>
    unfold State.chargeExtent
    dsimp only
    repeat' split
    all_goals simp [ih]

@[simp] theorem view_State_chargeRead (s : State) (n : Nat) (dva : Nat) (len : Nat) :
    view (State.chargeRead s n dva len) = view s := by
  simp [State.chargeRead]

@[simp] theorem keeps_State_writeExtent {cq : State} (s : State) (n : Nat) (dva : Nat) (bs : List Byte) (a4 : Nat)
    (hk : (view s).Keeps cq) :
    (view (State.writeExtent s n dva bs a4).1).Keeps cq := by
  induction a4 generalizing s dva bs with
  | zero => exact hk
  | succ k ih =>
    unfold State.writeExtent
    split
    · exact hk
    · dsimp only
      split
      · exact hk
      · exact ih _ _ _ (by simp [hk])
      · split
        · exact ih _ _ _ (by simp [hk])
        · exact hk

@[simp] theorem keeps_State_writeDva {cq : State} (s : State) (n : Nat) (dva : Nat) (bs : List Byte) (hk :
    (view s).Keeps cq) :
    (view (State.writeDva s n dva bs).1).Keeps cq := by
  simp [State.writeDva, hk]

theorem keeps_of_writeDva {cq : State} {s t : State} {n dva : Nat} {bs : List Byte} {f : Option XFault}
    (h : s.writeDva n dva bs = (t, f)) (hk : (view s).Keeps cq) : (view t).Keeps cq := by
  have e := keeps_State_writeDva s n dva bs hk
  rw [h] at e
  exact e

@[simp] theorem view_State_mmuFault (s : State) (n : Nat) (f : XFault) (write : Bool) (initiator : Nat) (part : Nat)
    (slot : Nat) (seq : Nat) :
    view (State.mmuFault s n f write initiator part slot seq) = view s := by
  simp [State.mmuFault]

@[simp] theorem view_State_onThread (s : State) (k : Nat) (work : Option (Nat × Nat)) :
    view (State.onThread s k work) = view s := by
  simp [State.onThread]

@[simp] theorem view_State_doorbellBad (s : State) (slot : Nat) (q : Queue) (high : Bool) (value : BitVec 32)
    (recorded : BitVec 32) :
    view (State.doorbellBad s slot q high value recorded) = view s := by
  simp [State.doorbellBad]

theorem view_State_settleOne {t : State} (s : State) (slot : Nat) (h : (State.settleOne s slot) = some t) :
    view t = view s := by
  unfold State.settleOne at h
  try dsimp only at h
  repeat' split at h
  all_goals first
    | (simp at h; done)
    | (cases h; simp (maxDischargeDepth := 9) [*, view_foldl]; done)
    | (simp at h; subst h; simp (maxDischargeDepth := 9) [*, view_foldl]; done)

@[simp] theorem view_State_settle (s : State) (slot : Nat) (a2 : Nat) :
    view (State.settle s slot a2) = view s := by
  induction a2 generalizing s with
  | zero => rfl
  | succ k ih =>
    unfold State.settle
    split
    · rfl
    · rename_i h
      rw [ih, view_State_settleOne _ _ h]

@[simp] theorem view_State_settleRefused (s : State) (slot : Nat) :
    view (State.settleRefused s slot) = view s := by
  simp [State.settleRefused]

@[simp] theorem view_State_doorbellHalf (s : State) (slot : Nat) (high : Bool) (v : BitVec 32) :
    view (State.doorbellHalf s slot high v) = view s := by
  unfold State.doorbellHalf
  split <;> simp

@[simp] theorem view_State_setSem (s : State) (n : Nat) (i : Nat) (x : Sem) :
    view (State.setSem s n i x) = view s := by
  simp [State.setSem]

@[simp] theorem view_State_endCmd (s : State) (c : Cmd) (st : Status) (result : BitVec 64) :
    view (State.endCmd s c st result) = view s := by
  unfold State.endCmd
  split <;> simp

@[simp] theorem view_State_wake (s : State) (n : Nat) (i : Nat) (a3 : Nat) :
    view (State.wake s n i a3) = view s := by
  induction a3 generalizing s i with
  | zero => rfl
  | succ k ih =>
    unfold State.wake
    dsimp only
    repeat' split
    all_goals simp [ih]

@[simp] theorem view_State_writeSem (s : State) (n : Nat) (i : Nat) (v : BitVec 64) :
    view (State.writeSem s n i v) = view s := by
  simp [State.writeSem]

@[simp] theorem keeps_State_writeMirror {cq : State} (s : State) (n : Nat) (i : Nat) (slot : Nat) (seq : Nat) (hk :
    (view s).Keeps cq) :
    (view (State.writeMirror s n i slot seq)).Keeps cq := by
  unfold State.writeMirror
  try dsimp only
  repeat' split
  all_goals first
    | with_reducible rfl
    | (simp +contextual (maxDischargeDepth := 9) [*, view_foldl, keeps_foldl]; done)
    | (rename_i h; have h2 := congrArg (fun z => view z.1) h; simp at h2; simp +contextual (maxDischargeDepth := 9) [← h2, hk, view_foldl, keeps_foldl]; done)
    | (refine keeps_foldl _ (fun t x hx => ?_) _ _ (by simp +contextual (maxDischargeDepth := 9) [*, view_foldl, keeps_foldl]; done); try dsimp only
       repeat' split
       all_goals (simp +contextual (maxDischargeDepth := 9) [*, view_foldl, keeps_foldl]; done))

@[simp] theorem keeps_State_signalSem {cq : State} (s : State) (n : Nat) (i : Nat) (v : Nat) (slot : Nat)
    (seq : Nat) (hk : (view s).Keeps cq) :
    (view (State.signalSem s n i v slot seq)).Keeps cq := by
  unfold State.signalSem
  repeat' split
  all_goals simp [hk]

@[simp] theorem view_State_setGraph (s : State) (n : Nat) (g : Nat) (x : Graph) :
    view (State.setGraph s n g x) = view s := by
  simp [State.setGraph]

@[simp] theorem view_State_releaseVersions (s : State) (n : Nat) (g : Nat) :
    view (State.releaseVersions s n g) = view s := by
  unfold State.releaseVersions
  split <;> simp

@[simp] theorem view_State_sweepContract (s : State) (id : Nat) :
    view (State.sweepContract s id) = view s := by
  unfold State.sweepContract
  split <;> simp

@[simp] theorem view_State_releaseContract (s : State) (id : Nat) :
    view (State.releaseContract s id) = view s := by
  simp [State.releaseContract]

@[simp] theorem view_State_giveBack (s : State) (c : Cmd) :
    view (State.giveBack s c) = view s := by
  unfold State.giveBack
  split <;> simp

@[simp] theorem view_State_dropBuild (s : State) (c : Cmd) :
    view (State.dropBuild s c) = view s := by
  unfold State.dropBuild
  repeat' split
  all_goals simp

@[simp] theorem view_State_freeReplica (s : State) (slot : Nat) (seq : Nat) (idx : Nat) :
    view (State.freeReplica s slot seq idx) = view s := by
  simp [State.freeReplica]

@[simp] theorem view_State_freeCmdParts (s : State) (slot : Nat) (seq : Nat) :
    view (State.freeCmdParts s slot seq) = view s := by
  simp [State.freeCmdParts]

@[simp] theorem view_State_freeSkims (s : State) (slot : Nat) (seq : Nat) :
    view (State.freeSkims s slot seq) = view s := by
  simp [State.freeSkims]

@[simp] theorem view_State_cutFrom (s : State) (slot : Nat) (seq : BitVec 32) (st : Status) :
    view (State.cutFrom s slot seq st) = view s := by
  simp [State.cutFrom, view_foldl]

@[simp] theorem view_State_makeGuilty (s : State) (slot : Nat) (seq : BitVec 32) (entries : Nat) (pass : Nat)
    (st : Status) (head : Option (Byte × BitVec 32)) :
    view (State.makeGuilty s slot seq entries pass st head) = view s := by
  unfold State.makeGuilty
  split <;> simp

@[simp] theorem view_State_cmdGuilty (s : State) (c : Cmd) (st : Status) :
    view (State.cmdGuilty s c st) = view s := by
  simp [State.cmdGuilty]

@[simp] theorem view_State_stopGuilty (s : State) (slot : Nat) :
    view (State.stopGuilty s slot) = view s := by
  unfold State.stopGuilty
  repeat' split
  all_goals simp

@[simp] theorem view_State_breakQueue (s : State) (slot : Nat) (st : Status) :
    view (State.breakQueue s slot st) = view s := by
  unfold State.breakQueue
  split <;> simp

@[simp] theorem view_State_replicaError (s : State) (slot : Nat) (seq : Nat) (idx : Nat) (st : Status) :
    view (State.replicaError s slot seq idx st) = view s := by
  unfold State.replicaError
  split <;> simp

@[simp] theorem view_State_latchQueue (s : State) (slot : Nat) :
    view (State.latchQueue s slot) = view s := by
  simp [State.latchQueue, view_foldl]

@[simp] theorem view_State_setSetting (s : State) (index : Nat) (sub : Nat) (v : Nat) :
    view (State.setSetting s index sub v) = view s := by
  simp [State.setSetting]

@[simp] theorem view_State_orderStep (s : State) (p : Nat) (k : Nat) :
    view (State.orderStep s p k) = view s := by
  simp [State.orderStep]

@[simp] theorem view_State_powerEvent (s : State) (code : Nat) (subject : Nat) (head : List Byte) (withSupp : Bool) :
    view (State.powerEvent s code subject head withSupp) = view s := by
  simp [State.powerEvent]

@[simp] theorem view_State_orderGroup (s : State) (p : Nat) (k : Nat) :
    view (State.orderGroup s p k) = view s := by
  simp [State.orderGroup, view_foldl]

@[simp] theorem view_State_reassess (s : State) :
    view (State.reassess s) = view s := by
  simp [State.reassess, view_foldl]

@[simp] theorem view_State_missRisk (s : State) (id : Nat) (reason : Nat) (part : Nat) :
    view (State.missRisk s id reason part) = view s := by
  unfold State.missRisk
  split <;> simp

@[simp] theorem view_State_missClear (s : State) (id : Nat) :
    view (State.missClear s id) = view s := by
  unfold State.missClear
  split <;> simp

@[simp] theorem view_State_riskOfflineOf (s : State) (ids : List Nat) (p : Nat) :
    view (State.riskOfflineOf s ids p) = view s := by
  simp [State.riskOfflineOf, view_foldl]

@[simp] theorem view_State_riskOffline (s : State) (p : Nat) :
    view (State.riskOffline s p) = view s := by
  simp [State.riskOffline]

@[simp] theorem view_State_suspend (s : State) (id : Nat) (cause : Nat) :
    view (State.suspend s id cause) = view s := by
  unfold State.suspend
  split <;> simp

@[simp] theorem view_State_retest (s : State) (cause : Nat) (id : Nat) :
    view (State.retest s cause id) = view s := by
  unfold State.retest
  repeat' split
  all_goals simp

@[simp] theorem view_State_riskScan (s : State) :
    view (State.riskScan s) = view s := by
  unfold State.riskScan
  try dsimp only
  repeat' split
  all_goals first
    | with_reducible rfl
    | (simp (maxDischargeDepth := 9) [*, view_foldl]; done)
    | (rename_i h; have h2 := congrArg (fun z => view z.1) h; simp at h2; simp (maxDischargeDepth := 9) [← h2, view_foldl]; done)
    | (refine (view_foldl _ (fun t x => ?_) _ _).trans (by simp (maxDischargeDepth := 9) [*, view_foldl]; done); try dsimp only
       repeat' split
       all_goals (simp (maxDischargeDepth := 9) [*, view_foldl]; done))

@[simp] theorem view_State_suspendAll (s : State) (cause : Nat) :
    view (State.suspendAll s cause) = view s := by
  simp [State.suspendAll, view_foldl]

@[simp] theorem view_State_retestAll (s : State) (cause : Nat) :
    view (State.retestAll s cause) = view s := by
  simp [State.retestAll, view_foldl]

@[simp] theorem view_State_updReplica (s : State) (slot : Nat) (seq : Nat) (idx : Nat) (f : Replica → Replica) :
    view (State.updReplica s slot seq idx f) = view s := by
  simp [State.updReplica]

@[simp] theorem view_State_sweepSkim (s : State) (g : Nat) :
    view (State.sweepSkim s g) = view s := by
  simp [State.sweepSkim]

@[simp] theorem view_State_sweepSkims (s : State) (slot : Nat) (seq : Nat) :
    view (State.sweepSkims s slot seq) = view s := by
  simp [State.sweepSkims, view_foldl]

@[simp] theorem view_State_endIfDone (s : State) (slot : Nat) (seq : Nat) :
    view (State.endIfDone s slot seq) = view s := by
  unfold State.endIfDone
  split <;> simp

@[simp] theorem view_State_leaveSkim (s : State) (g : Nat) (leader : Nat) (shape : Nat) :
    view (State.leaveSkim s g leader shape) = view s := by
  simp [State.leaveSkim]

@[simp] theorem view_State_detach (s : State) (g : Nat) (leader : Nat) (shape : Nat) (cause : Nat) :
    view (State.detach s g leader shape cause) = view s := by
  unfold State.detach
  dsimp only
  repeat' split
  all_goals simp

theorem view_State_takeSkim {t : Nat × State} (s : State) (c : Cmd) (st : Stream) (dva : Nat) (h :
    (State.takeSkim s c st dva) = some t) :
    view t.2 = view s := by
  unfold State.takeSkim at h
  try dsimp only at h
  repeat' split at h
  all_goals first
    | (simp at h; done)
    | (cases h; simp (maxDischargeDepth := 9) [*, view_foldl]; done)
    | (simp at h; subst h; simp (maxDischargeDepth := 9) [*, view_foldl]; done)

@[simp] theorem view_State_partOffline (s : State) (p : Nat) (cause : Nat) (held : Option (Nat × Nat)) :
    view (State.partOffline s p cause held) = view s := by
  simp [State.partOffline, view_foldl]

@[simp] theorem view_State_dissolve (s : State) (p : Nat) :
    view (State.dissolve s p) = view s := by
  simp [State.dissolve]

@[simp] theorem view_State_setBind (s : State) (n : Nat) (role : Nat) (w : BitVec 32) :
    view (State.setBind s n role w) = view s := by
  simp [State.setBind]

@[simp] theorem view_State_endAll (s : State) (c : Cmd) (st : Status) :
    view (State.endAll s c st) = view s := by
  simp [State.endAll]

@[simp] theorem view_State_launchLost (s : State) (c : Cmd) (r : Replica) (p : Nat) (st : Status) :
    view (State.launchLost s c r p st) = view s := by
  unfold State.launchLost
  repeat' split
  all_goals simp

@[simp] theorem view_State_savedLost (s : State) (p : Nat) :
    view (State.savedLost s p) = view s := by
  unfold State.savedLost
  dsimp only
  repeat' split
  all_goals simp

@[simp] theorem view_State_haltParts (s : State) (ps : List Nat) :
    view (State.haltParts s ps) = view s := by
  simp [State.haltParts, view_foldl]

@[simp] theorem view_State_lossReported (s : State) (p : Nat) :
    view (State.lossReported s p) = view s := by
  simp [State.lossReported]

@[simp] theorem view_State_memberLost (s : State) (p : Nat) (cause : Nat) (st : Status) :
    view (State.memberLost s p cause st) = view s := by
  unfold State.memberLost
  dsimp only
  repeat' split
  all_goals simp [view_foldl]

/-- Two states of the network with the same timeouts. -/
@[simp] theorem record_tmo (n : Net) (r : BitVec 128) :
    (n.record r).tmoPriv = n.tmoPriv ∧ (n.record r).tmoHost = n.tmoHost := by
  unfold Net.record; repeat' split
  all_goals simp

@[simp] theorem observe_tmo (n : Net) (now k port : Nat) (out : Bool) (p : Pkt) :
    (n.observe now k port out p).tmoPriv = n.tmoPriv ∧ (n.observe now k port out p).tmoHost = n.tmoHost := by
  unfold Net.observe; dsimp only; repeat' split
  all_goals simp

@[simp] theorem foldNet_tmo {α : Type} (g : Net → α → Net) (hg : ∀ n x, (g n x).tmoPriv = n.tmoPriv ∧ (g n x).tmoHost = n.tmoHost)
    (l : List α) (n : Net) : (l.foldl g n).tmoPriv = n.tmoPriv ∧ (l.foldl g n).tmoHost = n.tmoHost := by
  induction l generalizing n with
  | nil => simp
  | cons x t ih => simp [ih, hg]

@[simp] theorem passHop_tmo (n : Net) (now : Nat) (p : Pkt) (h : Hop) :
    (n.passHop now p h).tmoPriv = n.tmoPriv ∧ (n.passHop now p h).tmoHost = n.tmoHost := by
  simp [Net.passHop]

@[simp] theorem giveTicket_tmo (n : Net) (src dst : Nat) (loaned : Bool) :
    (n.giveTicket src dst loaned).tmoPriv = n.tmoPriv ∧ (n.giveTicket src dst loaned).tmoHost = n.tmoHost := by
  simp [Net.giveTicket]

@[simp] theorem writeTrace_tmo (n : Net) (v : BitVec 32) :
    (n.writeTrace v).tmoPriv = n.tmoPriv ∧ (n.writeTrace v).tmoHost = n.tmoHost := by
  unfold Net.writeTrace; dsimp only; split <;> simp

@[simp] theorem view_State_observe (s : State) (p0 : Pkt) :
    view (State.observe s p0) = view s := by
  simp [State.observe]

@[simp] theorem view_State_vc3 (s : State) (typ : Nat) (src : Nat) (dst : Nat) (p : Nat) :
    view (State.vc3 s typ src dst p) = view s := by
  simp [State.vc3]

@[simp] theorem view_State_grantSeen (s : State) (p : Nat) :
    view (State.grantSeen s p) = view s := by
  simp [State.grantSeen]

@[simp] theorem view_State_dispatchSeen (s : State) (p : Nat) :
    view (State.dispatchSeen s p) = view s := by
  simp [State.dispatchSeen]

@[simp] theorem view_State_reportSeen (s : State) (p : Nat) :
    view (State.reportSeen s p) = view s := by
  simp [State.reportSeen]

@[simp] theorem view_State_preemptSeen (s : State) (p : Nat) :
    view (State.preemptSeen s p) = view s := by
  simp [State.preemptSeen]

@[simp] theorem view_State_slotCreditSeen (s : State) (p : Nat) (engine : Nat) :
    view (State.slotCreditSeen s p engine) = view s := by
  simp [State.slotCreditSeen]

@[simp] theorem view_State_genUpdateSeen (s : State) (node : Nat) :
    view (State.genUpdateSeen s node) = view s := by
  simp [State.genUpdateSeen]

@[simp] theorem view_State_genAckSeen (s : State) (node : Nat) :
    view (State.genAckSeen s node) = view s := by
  simp [State.genAckSeen]

@[simp] theorem view_State_observeSkim (s : State) (p : Pkt) :
    view (State.observeSkim s p) = view s := by
  simp [State.observeSkim]

end Sys2Proof.Laws
end

