-- ==== Sys2Proof/Laws/ViewFep.lean ====
section
/-! SUPPORT. What the front-end processor, the copy engine, the partitions and the Skim engines do to the view of a state: one lemma each, from the definition;
`view_` where the view stays, `keeps_` where a byte memory or a timeout is written and the invariant stays. -/

namespace Sys2Proof.Laws
open Sys2Proof Sys2Proof.Machine Sys2Proof.Safety
set_option linter.unusedSimpArgs false
set_option linter.unusedVariables false
set_option linter.unreachableTactic false
set_option linter.unusedTactic false

@[simp] theorem view_State_resetStream (s : State) (k : Nat) :
    view (State.resetStream s k) = view s := by
  simp [State.resetStream]

@[simp] theorem view_fetchRead (s : State) :
    view (fetchRead s) = view s := by
  unfold fetchRead
  repeat' split
  all_goals simp

@[simp] theorem view_State_refuse (s : State) (c : Cmd) (st : Status) :
    view (State.refuse s c st) = view s := by
  simp [State.refuse]

@[simp] theorem view_State_ringFault (s : State) (slot : Nat) (q : Queue) (f : XFault) :
    view (State.ringFault s slot q f) = view s := by
  simp [State.ringFault]

@[simp] theorem view_State_applyCheck (s : State) (slot : Nat) (q : Queue) (bytes : List Byte) (e : Nat) :
    view (State.applyCheck s slot q bytes e) = view s := by
  unfold State.applyCheck
  split <;> simp

@[simp] theorem view_State_chargeRing (s : State) (q : Queue) (k : Nat) :
    view (State.chargeRing s q k) = view s := by
  simp [State.chargeRing]

@[simp] theorem view_commandCheck (slot : Nat) (s : State) :
    view (commandCheck slot s) = view s := by
  unfold commandCheck
  dsimp only
  repeat' split
  all_goals simp

@[simp] theorem view_State_cacheHandles (s : State) (n : Nat) (hs : List (BitVec 32)) :
    view (State.cacheHandles s n hs) = view s := by
  simp [State.cacheHandles]

@[simp] theorem view_State_relocateCmd (s : State) (c : Cmd) (fmt : Nat) :
    view (State.relocateCmd s c fmt) = view s := by
  unfold State.relocateCmd
  dsimp only
  repeat' split
  all_goals simp

@[simp] theorem view_relocate (slot : Nat) (seq : Nat) (s : State) :
    view (relocate slot seq s) = view s := by
  unfold relocate
  split <;> simp

@[simp] theorem keeps_State_acceptCmd {cq : State} (s : State) (c : Cmd) (need : Nat) (pool : Option Nat) (hk :
    (view s).Keeps cq) :
    (view (State.acceptCmd s c need pool)).Keeps cq := by
  unfold State.acceptCmd
  repeat' split
  all_goals simp [hk]

@[simp] theorem keeps_State_acceptPatch {cq : State} (s : State) (c : Cmd) (hk : (view s).Keeps cq) :
    (view (State.acceptPatch s c)).Keeps cq := by
  unfold State.acceptPatch
  repeat' split
  all_goals simp [hk]

@[simp] theorem keeps_acceptancePoint {cq : State} (slot : Nat) (seq : Nat) (s : State) (hk : (view s).Keeps cq) :
    (view (acceptancePoint slot seq s)).Keeps cq := by
  unfold acceptancePoint
  dsimp only
  repeat' split
  all_goals simp [hk]

@[simp] theorem view_State_sbLeave (s : State) (slot : Nat) (seq : Nat) :
    view (State.sbLeave s slot seq) = view s := by
  simp [State.sbLeave]

@[simp] theorem view_State_depAbort (s : State) (c : Cmd) (p : BitVec 64) :
    view (State.depAbort s c p) = view s := by
  unfold State.depAbort
  split <;> simp

@[simp] theorem view_State_resolveWait (s : State) (c : Cmd) :
    view (State.resolveWait s c) = view s := by
  unfold State.resolveWait
  repeat' split
  all_goals simp

@[simp] theorem view_scoreboardAdmit (s : State) :
    view (scoreboardAdmit s) = view s := by
  unfold scoreboardAdmit
  repeat' split
  all_goals simp

@[simp] theorem view_priorityQueueInsert (slot : Nat) (seq : Nat) (s : State) :
    view (priorityQueueInsert slot seq s) = view s := by
  unfold priorityQueueInsert
  repeat' split
  all_goals simp

@[simp] theorem view_State_fepFault (s : State) (c : Cmd) (f : XFault) (write : Bool) :
    view (State.fepFault s c f write) = view s := by
  simp [State.fepFault]

@[simp] theorem view_copyBytes (c : Cmd) (bs : List Byte) (s : State) :
    view (copyBytes c bs s).2 = view s := by
  unfold copyBytes
  repeat' split
  all_goals simp

@[simp] theorem view_State_chanDone (s : State) (c : Cmd) (ch : Nat) :
    view (State.chanDone s c ch) = view s := by
  simp [State.chanDone]

@[simp] theorem keeps_copyRun {cq : State} (c : Cmd) (ch : Nat) (s : State) (hk : (view s).Keeps cq) :
    (view (copyRun c ch s)).Keeps cq := by
  unfold copyRun
  try dsimp only
  repeat' split
  all_goals first
    | with_reducible rfl
    | (simp +contextual (maxDischargeDepth := 9) [*, view_foldl, keeps_foldl]; done)
    | (rename_i h; have h2 := congrArg (fun z => view z.1) h; simp at h2; simp +contextual (maxDischargeDepth := 9) [← h2, hk, view_foldl, keeps_foldl]; done)
    | (refine keeps_foldl _ (fun t x hx => ?_) _ _ (by simp +contextual (maxDischargeDepth := 9) [*, view_foldl, keeps_foldl]; done); try dsimp only
       repeat' split
       all_goals (simp +contextual (maxDischargeDepth := 9) [*, view_foldl, keeps_foldl]; done))

@[simp] theorem view_State_setHandle (s : State) (n : Nat) (i : Nat) (h : Handle) :
    view (State.setHandle s n i h) = view s := by
  simp [State.setHandle]

@[simp] theorem view_State_putPages (s : State) (a1 : List Nat) (a2 : List Byte) :
    view (State.putPages s a1 a2) = view s := by
  induction a1 generalizing s a2 with
  | nil => rfl
  | cons p t ih => simp [State.putPages, ih]

@[simp] theorem view_State_buildPatch (s : State) (c : Cmd) (g : Graph) (cur : GVersion) (src : List Byte) :
    view (State.buildPatch s c g cur src) = view s := by
  unfold State.buildPatch
  dsimp only
  repeat' split
  all_goals simp

@[simp] theorem view_State_patchFault (s : State) (c : Cmd) (g : Graph) (ch : Nat) (f : XFault) :
    view (State.patchFault s c g ch f) = view s := by
  simp [State.patchFault]

@[simp] theorem view_State_patchBuild (s : State) (c : Cmd) (g : Graph) (cur : GVersion) (ch : Nat) :
    view (State.patchBuild s c g cur ch) = view s := by
  unfold State.patchBuild
  repeat' split
  all_goals simp

@[simp] theorem view_patchRun (c : Cmd) (s : State) :
    view (patchRun c s) = view s := by
  unfold patchRun
  repeat' split
  all_goals simp

@[simp] theorem view_State_queueIrq (s : State) (slot : Nat) (flagged : Bool) :
    view (State.queueIrq s slot flagged) = view s := by
  unfold State.queueIrq
  repeat' split
  all_goals simp

@[simp] theorem keeps_State_completeCmd {cq : State} (s : State) (c : Cmd) (hk : (view s).Keeps cq) :
    (view (State.completeCmd s c)).Keeps cq := by
  unfold State.completeCmd
  repeat' split
  all_goals simp [hk]

@[simp] theorem view_State_logLate (s : State) (c : Cmd) :
    view (State.logLate s c) = view s := by
  simp [State.logLate]

@[simp] theorem keeps_completionRecordWrite {cq : State} (slot : Nat) (seq : Nat) (s : State) (hk :
    (view s).Keeps cq) :
    (view (completionRecordWrite slot seq s)).Keeps cq := by
  unfold completionRecordWrite
  repeat' split
  all_goals simp [hk]

@[simp] theorem keeps_State_landRecord {cq : State} (s : State) (n : Nat) (a : Nat) (bs : List Byte)
    (status : Status) (hk : (view s).Keeps cq) :
    (view (State.landRecord s n a bs status).1).Keeps cq := by
  unfold State.landRecord
  try dsimp only
  repeat' split
  all_goals first
    | with_reducible rfl
    | (simp +contextual (maxDischargeDepth := 9) [*, view_foldl, keeps_foldl]; done)
    | (rename_i h; have h2 := congrArg (fun z => view z.1) h; simp at h2; simp +contextual (maxDischargeDepth := 9) [← h2, hk, view_foldl, keeps_foldl]; done)
    | (refine keeps_foldl _ (fun t x hx => ?_) _ _ (by simp +contextual (maxDischargeDepth := 9) [*, view_foldl, keeps_foldl]; done); try dsimp only
       repeat' split
       all_goals (simp +contextual (maxDischargeDepth := 9) [*, view_foldl, keeps_foldl]; done))

@[simp] theorem keeps_recordAck {cq : State} (slot : Nat) (seq : Nat) (status : Status) (s : State) (hk :
    (view s).Keeps cq) :
    (view (recordAck slot seq status s)).Keeps cq := by
  unfold recordAck
  dsimp only
  repeat' split
  all_goals simp [hk]

@[simp] theorem keeps_resetRecord {cq : State} (slot : Nat) (status : Status) (s0 : State) (hk : (view s0).Keeps cq) :
    (view (resetRecord slot status s0)).Keeps cq := by
  unfold resetRecord
  dsimp only
  repeat' split
  all_goals simp [hk]

@[simp] theorem keeps_statusWriteBack {cq : State} (slot : Nat) (status : Status) (s : State) (hk :
    (view s).Keeps cq) :
    (view (statusWriteBack slot status s)).Keeps cq := by
  unfold statusWriteBack
  try dsimp only
  repeat' split
  all_goals first
    | with_reducible rfl
    | (simp +contextual (maxDischargeDepth := 9) [*, view_foldl, keeps_foldl]; done)
    | (rename_i h; have h2 := congrArg (fun z => view z.1) h; simp at h2; simp +contextual (maxDischargeDepth := 9) [← h2, hk, view_foldl, keeps_foldl]; done)
    | (refine keeps_foldl _ (fun t x hx => ?_) _ _ (by simp +contextual (maxDischargeDepth := 9) [*, view_foldl, keeps_foldl]; done); try dsimp only
       repeat' split
       all_goals (simp +contextual (maxDischargeDepth := 9) [*, view_foldl, keeps_foldl]; done))

@[simp] theorem keeps_State_tearOp {cq : State} (s : State) (hk : (view s).Keeps cq) :
    (view (State.tearOp s)).Keeps cq := by
  unfold State.tearOp
  split
  · exact hk
  · exact keeps_keep (s := s.useFree) (by simpa using hk) (fun h => tear_wf h _ _)

@[simp] theorem view_State_startOp (s : State) (code : Nat) (steps : List KStep) :
    view (State.startOp s code steps) = view s := by
  simp [State.startOp]

@[simp] theorem view_State_loadCal (s : State) :
    view (State.loadCal s) = view s := by
  unfold State.loadCal
  split <;> simp

@[simp] theorem view_State_loadBank (s : State) (bank : Option Nat) (result : Nat) :
    view (State.loadBank s bank result) = view s := by
  unfold State.loadBank
  split <;> simp

@[simp] theorem keeps_State_bootSteps {cq : State} (s : State) (l : List KStep) (hk : (view s).Keeps cq) :
    (view (State.bootSteps s l)).Keeps cq := by
  exact keeps_keep hk (fun h => doSteps_wf h l)

@[simp] theorem keeps_State_revert {cq : State} (s : State) (reason : Nat) (hk : (view s).Keeps cq) :
    (view (State.revert s reason)).Keeps cq := by
  simp [State.revert, hk]

@[simp] theorem keeps_State_useTrial {cq : State} (s : State) (hk : (view s).Keeps cq) :
    (view (State.useTrial s)).Keeps cq := by
  unfold State.useTrial
  dsimp only
  repeat' split
  all_goals simp [hk]

@[simp] theorem keeps_State_bootSelect {cq : State} (s : State) (hk : (view s).Keeps cq) :
    (view (State.bootSelect s)).Keeps cq := by
  unfold State.bootSelect
  repeat' split
  all_goals simp [hk]

@[simp] theorem view_State_latchAlert (s : State) (k : Nat) :
    view (State.latchAlert s k) = view s := by
  simp [State.latchAlert]

@[simp] theorem view_alerted (before after : State) : view (alerted before after) = view after := by
  unfold alerted
  split <;> simp

@[simp] theorem view_State_raisePreempt (s : State) (c : Cmd) (n : Need) :
    view (State.raisePreempt s c n) = view s := by
  simp [State.raisePreempt]

@[simp] theorem view_State_grantMember (s : State) (c : Cmd) (n : Need) :
    view (State.grantMember s c n) = view s := by
  simp [State.grantMember, view_foldl]

@[simp] theorem view_State_takeSkims (s : State) (c : Cmd) (shared : Bool) (a3 : List Need) :
    view (State.takeSkims s c shared a3).1 = view s := by
  induction a3 generalizing s with
  | nil => rfl
  | cons n t ih =>
    unfold State.takeSkims
    split
    · simp [ih]
    · split
      · rfl
      · rename_i h
        have h2 := view_State_takeSkim _ _ _ _ h
        split <;> simp [ih, ← h2]

@[simp] theorem view_State_startLaunch (s : State) (c : Cmd) (now_ : List Need) (later : List Need) :
    view (State.startLaunch s c now_ later) = view s := by
  simp [State.startLaunch, view_foldl]

@[simp] theorem view_State_withdraw (s : State) (c : Cmd) :
    view (State.withdraw s c) = view s := by
  simp [State.withdraw]

@[simp] theorem view_State_heldPower (s : State) (c : Cmd) :
    view (State.heldPower s c) = view s := by
  simp [State.heldPower]

@[simp] theorem view_Scan_claim (k : Scan) (ns : List Need) :
    view (Scan.claim k ns).st = view k.st := by
  simp [Scan.claim]

@[simp] theorem view_Scan_hold (k : Scan) (c : Cmd) (ns : List Need) (all : Bool) :
    view (Scan.hold k c ns all).st = view k.st := by
  simp [Scan.hold, view_foldl]

@[simp] theorem view_Scan_holdEach (k : Scan) (c : Cmd) (ns : List Need) :
    view (Scan.holdEach k c ns).st = view k.st := by
  unfold Scan.holdEach
  induction ns generalizing k with
  | nil => rfl
  | cons n t ih => simp [ih]

@[simp] theorem view_Scan_launch (k : Scan) (c : Cmd) :
    view (Scan.launch k c).st = view k.st := by
  unfold Scan.launch
  dsimp only
  repeat' split
  all_goals simp

@[simp] theorem view_Scan_relay (k : Scan) (c : Cmd) :
    view (Scan.relay k c).st = view k.st := by
  unfold Scan.relay
  dsimp only
  repeat' split
  all_goals simp

@[simp] theorem view_Scan_again (k : Scan) (c : Cmd) (rs : List Replica) :
    view (Scan.again k c rs).st = view k.st := by
  unfold Scan.again
  dsimp only
  repeat' split
  all_goals simp [view_foldl]

@[simp] theorem view_Scan_chan (k : Scan) (c : Cmd) :
    view (Scan.chan k c).st = view k.st := by
  unfold Scan.chan
  split <;> simp

@[simp] theorem view_Scan_entry (k : Scan) (it : Item) :
    view (Scan.entry k it).st = view k.st := by
  unfold Scan.entry
  repeat' split
  all_goals simp

@[simp] theorem view_scan (s : State) :
    view (scan s) = view s := by
  unfold scan
  have h (l : List Item) (k : Scan) : view (l.foldl Scan.entry k).st = view k.st := by
    induction l generalizing k with
    | nil => rfl
    | cons x t ih => simp [ih]
  split <;> simp [h]

@[simp] theorem view_State_chargeStore (s : State) (n : Nat) (pages : List Nat) :
    view (State.chargeStore s n pages) = view s := by
  simp [State.chargeStore, view_foldl]

@[simp] theorem view_State_loadResident (s : State) (c : Cmd) (r : Replica) (p : Nat) (m : Nat) :
    view (State.loadResident s c r p m) = view s := by
  unfold State.loadResident
  split <;> simp

@[simp] theorem view_State_joinSkim (s : State) (c : Cmd) (r : Replica) :
    view (State.joinSkim s c r) = view s := by
  unfold State.joinSkim
  split <;> simp

@[simp] theorem view_State_restoreLive (s : State) (c : Cmd) (r : Replica) (p : Nat) :
    view (State.restoreLive s c r p) = view s := by
  simp [State.restoreLive]

@[simp] theorem view_State_startReplica (s : State) (c : Cmd) (r : Replica) :
    view (State.startReplica s c r) = view s := by
  simp [State.startReplica, view_foldl]

@[simp] theorem view_grantAck (p : Nat) (s : State) :
    view (grantAck p s) = view s := by
  unfold grantAck
  dsimp only
  repeat' split
  all_goals simp [view_foldl]

@[simp] theorem view_State_groupClocks (s : State) (c : Nat) (old : Nat) :
    view (State.groupClocks s c old) = view s := by
  simp [State.groupClocks, view_foldl]

@[simp] theorem view_fusionChangeComplete (c : Nat) (s : State) :
    view (fusionChangeComplete c s) = view s := by
  unfold fusionChangeComplete
  split <;> simp

@[simp] theorem view_State_releaseGrants (s : State) (ps : List Nat) :
    view (State.releaseGrants s ps) = view s := by
  simp [State.releaseGrants, view_foldl]

@[simp] theorem view_machineCheck (p : Nat) (cause : Nat) (location : BitVec 27) (s : State) :
    view (machineCheck p cause location s) = view s := by
  unfold machineCheck
  repeat' split
  all_goals simp

@[simp] theorem view_currentGrantRequest (p : Nat) (s : State) :
    view (currentGrantRequest p s) = view s := by
  unfold currentGrantRequest
  dsimp only
  repeat' split
  all_goals simp [view_foldl]

@[simp] theorem view_tileEnd (p : Nat) (work : List TileOp) (s : State) :
    view (tileEnd p work s) = view s := by
  unfold tileEnd
  dsimp only
  repeat' split
  all_goals simp [view_foldl]

@[simp] theorem keeps_State_saveLive {cq : State} (s : State) (c : Cmd) (r : Replica) (p : Nat) (hk :
    (view s).Keeps cq) :
    (view (State.saveLive s c r p)).Keeps cq := by
  unfold State.saveLive
  dsimp only
  repeat' split
  all_goals simp [hk]

@[simp] theorem keeps_saveReport {cq : State} (p : Nat) (s : State) (hk : (view s).Keeps cq) :
    (view (saveReport p s)).Keeps cq := by
  unfold saveReport
  dsimp only
  repeat' split
  all_goals simp +contextual (maxDischargeDepth := 9) [hk, view_foldl, keeps_foldl]

@[simp] theorem view_State_endRole (s : State) (c : Cmd) (r : Replica) :
    view (State.endRole s c r) = view s := by
  simp [State.endRole]

@[simp] theorem view_endReport (p : Nat) (s : State) :
    view (endReport p s) = view s := by
  unfold endReport
  repeat' split
  all_goals simp

@[simp] theorem view_State_chargeBlock (s : State) (x : Skim) (dva : Nat) (len : Nat) (a4 : Nat) :
    view (State.chargeBlock s x dva len a4) = view s := by
  induction a4 generalizing s dva len with
  | zero => rfl
  | succ k ih =>
    unfold State.chargeBlock
    dsimp only
    repeat' split
    all_goals simp [ih]

@[simp] theorem view_State_skimFault (s : State) (g : Nat) (f : XFault) :
    view (State.skimFault s g f) = view s := by
  unfold State.skimFault
  dsimp only
  repeat' split
  all_goals simp [view_foldl]

@[simp] theorem view_State_sendBlock (s : State) (g : Nat) (poison : Bool) (data : List Byte) :
    view (State.sendBlock s g poison data) = view s := by
  simp [State.sendBlock]

@[simp] theorem view_skimBlockSend (g : Nat) (s : State) :
    view (skimBlockSend g s) = view s := by
  unfold skimBlockSend
  dsimp only
  generalize List.replicate 4096 (0 : Byte) = z
  have hb : view (freeBytes 4096 s).2 = view s := view_freeBytes ..
  generalize freeBytes 4096 s = b at hb ⊢
  repeat' split
  all_goals first
    | rfl
    | simp [hb]

@[simp] theorem view_slotCredit (g : Nat) (p : Nat) (s : State) :
    view (slotCredit g p s) = view s := by
  unfold slotCredit
  dsimp only
  repeat' split
  all_goals simp

@[simp] theorem view_State_holdExpiry (s : State) (g : Nat) :
    view (State.holdExpiry s g) = view s := by
  unfold State.holdExpiry
  try dsimp only
  repeat' split
  all_goals first
    | with_reducible rfl
    | (simp (maxDischargeDepth := 9) [*, view_foldl]; done)
    | (rename_i h; have h2 := congrArg (fun z => view z.1) h; simp at h2; simp (maxDischargeDepth := 9) [← h2, view_foldl]; done)
    | (refine (view_foldl _ (fun t x => ?_) _ _).trans (by simp (maxDischargeDepth := 9) [*, view_foldl]; done); try dsimp only
       repeat' split
       all_goals (simp (maxDischargeDepth := 9) [*, view_foldl]; done))

@[simp] theorem view_State_landBlock (s : State) (p : Nat) (c : Cmd) (r : Replica) (poison : Bool) (data : List Byte) :
    view (State.landBlock s p c r poison data) = view s := by
  simp [State.landBlock]

@[simp] theorem view_tokenArrive (c : Cmd) (e : Edge) (edge : Nat) (final : Bool) (marker : Bool) (s : State) :
    view (tokenArrive c e edge final marker s) = view s := by
  unfold tokenArrive
  split <;> simp

@[simp] theorem view_creditArrive (c : Cmd) (e : Edge) (edge : Nat) (s : State) :
    view (creditArrive c e edge s) = view s := by
  unfold creditArrive
  split <;> simp

end Sys2Proof.Laws
end

