-- ==== Sys2Proof/Laws/ViewNet.lean ====
section
/-! SUPPORT. What the network, the mailboxes, the abort sequencer, the life of an instance, freezing and restoring do to the view of a state: one lemma each, from the definition;
`view_` where the view stays, `keeps_` where a byte memory or a timeout is written and the invariant stays. -/

namespace Sys2Proof.Laws
open Sys2Proof Sys2Proof.Machine Sys2Proof.Safety
set_option linter.unusedSimpArgs false
set_option linter.unusedVariables false
set_option linter.unreachableTactic false
set_option linter.unusedTactic false

@[simp] theorem view_State_sent (s : State) (p : Pkt) (d : Option Dma) :
    view (State.sent s p d) = view s := by
  simp [State.sent]

@[simp] theorem view_State_answered (s : State) (src : Nat) (tag : Nat) :
    view (State.answered s src tag) = view s := by
  unfold State.answered
  split <;> simp

@[simp] theorem view_State_sink (s : State) (p : Nat) :
    view (State.sink s p) = view s := by
  simp [State.sink]

@[simp] theorem view_State_gloveGuilty (s : State) (slot : Nat) :
    view (State.gloveGuilty s slot) = view s := by
  unfold State.gloveGuilty
  repeat' split
  all_goals simp

theorem view_glove3 {s t : State} {node : Nat} {p : Pkt} (h : s.glove3 node p = .discard t) : view t = view s := by
  unfold State.glove3 at h
  dsimp only at h
  repeat' split at h
  all_goals first
    | (simp at h; done)
    | (cases h; simp)

@[simp] theorem view_State_dmaRequest (s : State) (p : Pkt) (d : Option Dma) (f : Pkt → State → State)
    (hf : ∀ q t, view (f q t) = view t) : view (s.dmaRequest p d f) = view s := by
  unfold State.dmaRequest
  dsimp only
  repeat' split
  all_goals first
    | (simp [hf]; done)
    | (rename_i h; simp [view_glove3 h])

/-- The same for an effect that keeps the invariant. -/
theorem keeps_State_dmaRequest {cq : State} (s : State) (p : Pkt) (d : Option Dma) (f : Pkt → State → State)
    (hf : ∀ q t, (view t).Keeps cq → (view (f q t)).Keeps cq) (hk : (view s).Keeps cq) :
    (view (s.dmaRequest p d f)).Keeps cq := by
  unfold State.dmaRequest
  dsimp only
  repeat' split
  all_goals first
    | (simp [hk]; done)
    | (rename_i h; simp [view_glove3 h, hk]; done)
    | exact hf _ _ (by simp [hk])

@[simp] theorem view_State_request (s : State) (p : Pkt) (f : Pkt → State → State) (hf : ∀ q t, view
    (f q t) = view t) :
    view (s.request p f) = view s := view_State_dmaRequest s p none f hf

/-- The same for an effect that keeps the invariant. -/
theorem keeps_State_request {cq : State} (s : State) (p : Pkt) (f : Pkt → State → State)
    (hf : ∀ q t, (view t).Keeps cq → (view (f q t)).Keeps cq) (hk : (view s).Keeps cq) :
    (view (s.request p f)).Keeps cq := keeps_State_dmaRequest s p none f hf hk

@[simp] theorem view_State_response (s : State) (p : Pkt) (f : NetReq → State → State) (hf : ∀ r t, view
    (f r t) = view t) :
    view (s.response p f) = view s := by
  unfold State.response
  dsimp only
  repeat' split
  all_goals first
    | (simp [hf]; done)
    | (rename_i h; simp [view_glove3 h])

/-- The same for an effect that keeps the invariant. -/
theorem keeps_State_response {cq : State} (s : State) (p : Pkt) (f : NetReq → State → State) (hf : ∀ r t, (view t).Keeps cq → (view (f r t)).Keeps cq)
    (hk : (view s).Keeps cq) : (view (s.response p f)).Keeps cq := by
  unfold State.response
  dsimp only
  repeat' split
  all_goals first
    | (simp [hk]; done)
    | (rename_i h; simp [view_glove3 h, hk]; done)
    | exact hf _ _ (by simp [hk])

@[simp] theorem view_State_dvaOf (s : State) (r : NetReq) :
    view (State.dvaOf s r).2 = view s := by
  unfold State.dvaOf
  split <;> simp

@[simp] theorem view_State_streamFails (s : State) (k : Nat) (st : Status) :
    view (State.streamFails s k st) = view s := by
  simp [State.streamFails]

@[simp] theorem view_State_errorResponse (s : State) (node : Nat) (tag : Nat) (r : NetReq) (st : Status) :
    view (State.errorResponse s node tag r st) = view s := by
  unfold State.errorResponse
  dsimp only
  repeat' split
  all_goals simp

@[simp] theorem view_State_streamData (s : State) (tag : Nat) (r : NetReq) (data : List Byte) :
    view (State.streamData s tag r data) = view s := by
  simp [State.streamData]

@[simp] theorem view_State_dmaLand (s : State) (p : Nat) (r : NetReq) (data : List Byte) :
    view (State.dmaLand s p r data) = view s := by
  unfold State.dmaLand
  split <;> simp

@[simp] theorem view_State_readArrived (s : State) (node : Nat) (tag : Nat) (r : NetReq) (data : List Byte) :
    view (State.readArrived s node tag r data) = view s := by
  simp [State.readArrived]

@[simp] theorem view_State_endHostRead (s : State) (tag : Nat) (h : HostReq) (st : Status) (data : List Byte) :
    view (State.endHostRead s tag h st data) = view s := by
  simp [State.endHostRead]

@[simp] theorem view_State_chargeHost (s : State) (n : Nat) (k : Nat) :
    view (State.chargeHost s n k) = view s := by
  simp [State.chargeHost]

@[simp] theorem view_State_hostRead (s : State) (p : Pkt) :
    view (State.hostRead s p) = view s := by
  unfold State.hostRead
  split <;> simp

@[simp] theorem view_State_refuseRead (s : State) (p : Pkt) :
    view (State.refuseRead s p) = view s := by
  simp [State.refuseRead]

@[simp] theorem view_State_performHost (s : State) (w : Waiting) :
    view (State.performHost s w) = view s := by
  simp [State.performHost]

@[simp] theorem view_State_readFor (s : State) (p : Pkt) (bs : List Byte) :
    view (State.readFor s p bs) = view s := by
  simp [State.readFor]

@[simp] theorem keeps_State_perform {cq : State} (s : State) (w : Waiting) (hk : (view s).Keeps cq) :
    (view (State.perform s w)).Keeps cq := by
  unfold State.perform
  repeat' split
  all_goals simp [hk]

@[simp] theorem keeps_State_performOrWait {cq : State} (s : State) (w : Waiting) (hk : (view s).Keeps cq) :
    (view (State.performOrWait s w)).Keeps cq := by
  unfold State.performOrWait
  repeat' split
  all_goals simp [hk]

@[simp] theorem view_State_malformed (s : State) :
    view (State.malformed s) = view s := by
  simp [State.malformed]

@[simp] theorem view_State_serveWalk (s : State) (p : Pkt) (dva : Nat) (write : Bool) :
    view (State.serveWalk s p dva write) = view s := by
  unfold State.serveWalk
  repeat' split
  all_goals simp

@[simp] theorem view_State_control (s : State) (p : Nat) (pkt : Pkt) (f : State → State) (hf : ∀ t, view
    (f t) = view t) :
    view (s.control p pkt f) = view s := by
  unfold State.control
  dsimp only
  repeat' split
  all_goals first
    | (simp [hf]; done)
    | (rename_i h; simp [view_glove3 h])

/-- The same for an effect that keeps the invariant. -/
theorem keeps_State_control {cq : State} (s : State) (p : Nat) (pkt : Pkt) (f : State → State) (hf : ∀ t, (view t).Keeps cq → (view (f t)).Keeps cq)
    (hk : (view s).Keeps cq) : (view (s.control p pkt f)).Keeps cq := by
  unfold State.control
  dsimp only
  repeat' split
  all_goals first
    | (simp [hk]; done)
    | (rename_i h; simp [view_glove3 h, hk]; done)
    | exact hf _ (by simp [hk])

@[simp] theorem view_State_relayPacket (s : State) (p : Nat) (pkt : Pkt) (f : Cmd → Replica → State → State)
    (hf : ∀ c r t, view (f c r t) = view t) : view (s.relayPacket p pkt f) = view s := by
  unfold State.relayPacket
  split
  · simp [hf]
  · refine view_State_control _ _ _ _ (fun t => ?_)
    split <;> simp [hf]

@[simp] theorem view_State_advanceGen (s : State) (n : Nat) :
    view (State.advanceGen s n) = view s := by
  simp [State.advanceGen]

@[simp] theorem view_State_refillGens (s : State) (node : Nat) :
    view (State.refillGens s node) = view s := by
  simp [State.refillGens]

@[simp] theorem view_State_partFatal (s : State) (p : Nat) :
    view (State.partFatal s p) = view s := by
  simp [State.partFatal]

@[simp] theorem keeps_State_releaseWaiting {cq : State} (s : State) (hk : (view s).Keeps cq) :
    (view (State.releaseWaiting s)).Keeps cq := by
  unfold State.releaseWaiting
  try dsimp only
  repeat' split
  all_goals first
    | with_reducible rfl
    | (simp +contextual (maxDischargeDepth := 9) [*, view_foldl, keeps_foldl]; done)
    | (rename_i h; have h2 := congrArg (fun z => view z.1) h; simp at h2; simp +contextual (maxDischargeDepth := 9) [← h2, hk, view_foldl, keeps_foldl]; done)
    | (refine keeps_foldl _ (fun t x hx => ?_) _ _ (by simp +contextual (maxDischargeDepth := 9) [*, view_foldl, keeps_foldl]; done); try dsimp only
       repeat' split
       all_goals (simp +contextual (maxDischargeDepth := 9) [*, view_foldl, keeps_foldl]; done))

@[simp] theorem view_State_reply (s : State) (mb : Nat) (h : MsgHdr) (st : Status) (payload : List Byte) :
    view (State.reply s mb h st payload) = view s := by
  simp [State.reply]

@[simp] theorem view_State_takeRequest (s : State) (mb : Nat) (h : MsgHdr) :
    view (State.takeRequest s mb h) = view s := by
  simp [State.takeRequest]

@[simp] theorem view_State_message (s : State) (mb : Nat) (h : MsgHdr) (payload : List Byte) (k : MsgKind)
   
    (body : State → List Byte → State × Option (Status × List Byte)) (hb : ∀ t b, view (body t b).1 = view t) :
    view (s.message mb h payload k body) = view s := by
  unfold State.message
  dsimp only
  split
  · rfl
  · split
    · simp
    · split
      all_goals
        rename_i heq
        have h2 := congrArg (fun z => view z.1) heq
        simp only [hb] at h2
        simp [← h2]

/-- The same for an effect that keeps the invariant. -/
theorem keeps_State_message {cq : State} (s : State) (mb : Nat) (h : MsgHdr) (payload : List Byte) (k : MsgKind)
    (body : State → List Byte → State × Option (Status × List Byte))
    (hb : ∀ t b, (view t).Keeps cq → (view (body t b).1).Keeps cq) (hk : (view s).Keeps cq) :
    (view (s.message mb h payload k body)).Keeps cq := by
  unfold State.message
  dsimp only
  split
  · exact hk
  · split
    · simp [hk]
    · split
      all_goals
        rename_i heq
        have h1 : (view (s.takeRequest mb h)).Keeps cq := by simpa using hk
        have h2 := hb _ (payload.take (if (s.inst mb).box.format = 1 then k.size.getD payload.length else h.len)) h1
        rw [heq] at h2
        simpa using h2

@[simp] theorem view_refuseWith (s : State) (st : Status) :
    view (refuseWith s st).1 = view s := by
  simp [refuseWith]

@[simp] theorem view_okWith (s : State) (out : List Byte) :
    view (okWith s out).1 = view s := by
  simp [okWith]

@[simp] theorem view_State_rung (s : State) (now_ : Bool) :
    view (State.rung s now_) = view s := by
  simp [State.rung]

@[simp] theorem view_State_appendService (s : State) (r : SvcReq) :
    view (State.appendService s r) = view s := by
  simp [State.appendService]

@[simp] theorem view_State_viaPort (s : State) (mb : Nat) (h : MsgHdr) (payload host : List Byte) (k : MsgKind)
   
    (body : State → List Byte → State × Option (Status × List Byte)) (hb : ∀ t b, view (body t b).1 = view t) :
    view (s.viaPort mb h payload host k body) = view s := by
  unfold State.viaPort
  split
  · exact view_State_message _ _ _ _ _ _ (fun t b => by simp [hb])
  · split
    · rfl
    · exact view_State_message _ _ _ _ _ _ (fun t b => by simp)

/-- The same for an effect that keeps the invariant. -/
theorem keeps_State_viaPort {cq : State} (s : State) (mb : Nat) (h : MsgHdr) (payload host : List Byte) (k : MsgKind)
    (body : State → List Byte → State × Option (Status × List Byte))
    (hb : ∀ t b, (view t).Keeps cq → (view (body t b).1).Keeps cq) (hk : (view s).Keeps cq) :
    (view (s.viaPort mb h payload host k body)).Keeps cq := by
  unfold State.viaPort
  split
  · exact keeps_State_message _ _ _ _ _ _ (fun t b ht => hb _ _ (by simpa using ht)) hk
  · split
    · exact hk
    · exact keeps_State_message _ _ _ _ _ _ (fun t b ht => by simpa using ht) hk

@[simp] theorem view_State_flushService (s : State) :
    view (State.flushService s) = view s := by
  unfold State.flushService
  try dsimp only
  repeat' split
  all_goals first
    | with_reducible rfl
    | (simp (maxDischargeDepth := 9) [*, view_foldl]; done)
    | (rename_i h; have h2 := congrArg (fun z => view z.1) h; simp at h2; simp (maxDischargeDepth := 9) [← h2, view_foldl]; done)
    | (refine (view_foldl _ (fun t x => ?_) _ _).trans (by simp (maxDischargeDepth := 9) [*, view_foldl]; done); try dsimp only
       repeat' split
       all_goals (simp (maxDischargeDepth := 9) [*, view_foldl]; done))

@[simp] theorem view_State_setIState (s : State) (n : Nat) (new : IState) (cause : Nat) :
    view (State.setIState s n new cause) = view s := by
  simp [State.setIState]

@[simp] theorem view_State_closeBox (s : State) (n : Nat) :
    view (State.closeBox s n) = view s := by
  simp [State.closeBox]

@[simp] theorem view_State_endFreeze (s : State) (n : Nat) (st : Status) (out : List Byte) :
    view (State.endFreeze s n st out) = view s := by
  unfold State.endFreeze
  split <;> simp

@[simp] theorem view_State_flushFreeze (s : State) :
    view (State.flushFreeze s) = view s := by
  unfold State.flushFreeze
  try dsimp only
  repeat' split
  all_goals first
    | with_reducible rfl
    | (simp (maxDischargeDepth := 9) [*, view_foldl]; done)
    | (rename_i h; have h2 := congrArg (fun z => view z.1) h; simp at h2; simp (maxDischargeDepth := 9) [← h2, view_foldl]; done)
    | (refine (view_foldl _ (fun t x => ?_) _ _).trans (by simp (maxDischargeDepth := 9) [*, view_foldl]; done); try dsimp only
       repeat' split
       all_goals (simp (maxDischargeDepth := 9) [*, view_foldl]; done))

@[simp] theorem view_State_abortDone (s : State) (n : Nat) (q : Option Nat) (by_ : Nat) (result : Nat) (at_ : Nat)
    (counts : Nat × Nat × Nat) :
    view (State.abortDone s n q by_ result at_ counts) = view s := by
  simp [State.abortDone]

@[simp] theorem view_State_latch (s : State) (n : Nat) (q : Option Nat) (by_ : Nat) :
    view (State.latch s n q by_) = view s := by
  unfold State.latch
  dsimp only
  repeat' split
  all_goals simp [view_foldl]

@[simp] theorem view_State_requestAbort (s : State) (n : Nat) (q : Option Nat) (by_ : Nat) :
    view (State.requestAbort s n q by_) = view s := by
  unfold State.requestAbort
  repeat' split
  all_goals simp

@[simp] theorem view_State_markAborted (s : State) (n : Nat) (q : Option Nat) :
    view (State.markAborted s n q) = view s := by
  simp [State.markAborted]

@[simp] theorem view_State_stopPart (s : State) (p : Nat) :
    view (State.stopPart s p) = view s := by
  simp [State.stopPart]

@[simp] theorem view_State_drainTargets (s : State) :
    view (State.drainTargets s) = view s := by
  simp [State.drainTargets]

@[simp] theorem view_drainRoundStart (s : State) :
    view (drainRoundStart s) = view s := by
  simp [drainRoundStart, view_foldl]

@[simp] theorem view_State_poisonOf (s : State) (c : Cmd) :
    view (State.poisonOf s c).1 = view s := by
  unfold State.poisonOf
  repeat' split
  all_goals simp

@[simp] theorem view_State_freeEnded (s : State) (c : Cmd) :
    view (State.freeEnded s c) = view s := by
  simp [State.freeEnded]

@[simp] theorem view_State_endCmds (s : State) (cs : List Cmd) :
    view (State.endCmds s cs).1 = view s := by
  have h (l : List Cmd) (a : State × Nat) :
      view (l.foldl (fun (a : State × Nat) c => ((a.1.poisonOf c).1, a.2 + (a.1.poisonOf c).2)) a).1 = view a.1 := by
    induction l generalizing a with
    | nil => rfl
    | cons x t ih => simp [ih]
  unfold State.endCmds
  dsimp only
  rw [view_foldl _ (by simp)]
  exact h _ _

@[simp] theorem keeps_State_bookAbort {cq : State} (s : State) (n : Nat) (q : Option Nat) (hk : (view s).Keeps cq) :
    (view (State.bookAbort s n q).1).Keeps cq := by
  unfold State.bookAbort
  dsimp only
  refine keeps_foldl _ (fun t k h => by simp [h]) _ _ ?_
  rw [view_foldl _ (by simp)]
  simpa using hk

@[simp] theorem keeps_State_finishRequest {cq : State} (s : State) (r : AbortReq) (hk : (view s).Keeps cq) :
    (view (State.finishRequest s r)).Keeps cq := by
  simp [State.finishRequest, hk]

@[simp] theorem view_State_finishGuilt (s : State) (slot : Nat) :
    view (State.finishGuilt s slot) = view s := by
  simp [State.finishGuilt]

@[simp] theorem view_State_endMatching (s : State) (es : List DrainEntry) :
    view (State.endMatching s es) = view s := by
  simp [State.endMatching, view_foldl]

@[simp] theorem keeps_drainRoundEnd {cq : State} (s : State) (hk : (view s).Keeps cq) :
    (view (drainRoundEnd s)).Keeps cq := by
  unfold drainRoundEnd
  dsimp only
  repeat' split
  all_goals simp +contextual (maxDischargeDepth := 9) [hk, view_foldl, keeps_foldl]

@[simp] theorem keeps_State_endInstance {cq : State} (s : State) (n : Nat) (by_ : Nat) (hk : (view s).Keeps cq) :
    (view (State.endInstance s n by_)).Keeps cq := by
  unfold State.endInstance
  dsimp only
  repeat' split
  all_goals simp +contextual (maxDischargeDepth := 9) [hk, view_foldl, keeps_foldl]

@[simp] theorem view_State_releaseContracts (s : State) (n : Nat) :
    view (State.releaseContracts s n) = view s := by
  simp [State.releaseContracts, view_foldl]

@[simp] theorem view_State_dropQueues (s : State) (n : Nat) :
    view (State.dropQueues s n) = view s := by
  simp [State.dropQueues]

@[simp] theorem view_State_dropGraphs (s : State) (n : Nat) :
    view (State.dropGraphs s n) = view s := by
  simp [State.dropGraphs]

@[simp] theorem keeps_State_quiesce {cq : State} (s : State) (n : Nat) (hk : (view s).Keeps cq) :
    (view (State.quiesce s n)).Keeps cq := by
  simp [State.quiesce, hk]

@[simp] theorem keeps_State_beginReset {cq : State} (s : State) (n : Nat) (cause : Nat) (hk : (view s).Keeps cq) :
    (view (State.beginReset s n cause)).Keeps cq := by
  simp [State.beginReset, hk]

@[simp] theorem keeps_State_resetInstance {cq : State} (s : State) (n : Nat) (cause : Nat) (hk : (view s).Keeps cq) :
    (view (State.resetInstance s n cause)).Keeps cq := by
  unfold State.resetInstance
  dsimp only
  repeat' split
  all_goals simp +contextual (maxDischargeDepth := 9) [hk, view_foldl, keeps_foldl]

@[simp] theorem view_State_ungateNow (s : State) (p : Nat) :
    view (State.ungateNow s p) = view s := by
  simp [State.ungateNow]

@[simp] theorem view_State_gateIfIdle (s : State) (p : Nat) :
    view (State.gateIfIdle s p) = view s := by
  simp [State.gateIfIdle]

@[simp] theorem view_State_preemptParts (s : State) (sel : Nat → Bool) :
    view (State.preemptParts s sel) = view s := by
  unfold State.preemptParts
  try dsimp only
  repeat' split
  all_goals first
    | with_reducible rfl
    | (simp (maxDischargeDepth := 9) [*, view_foldl]; done)
    | (rename_i h; have h2 := congrArg (fun z => view z.1) h; simp at h2; simp (maxDischargeDepth := 9) [← h2, view_foldl]; done)
    | (refine (view_foldl _ (fun t x => ?_) _ _).trans (by simp (maxDischargeDepth := 9) [*, view_foldl]; done); try dsimp only
       repeat' split
       all_goals (simp (maxDischargeDepth := 9) [*, view_foldl]; done))

@[simp] theorem view_State_startL5 (s : State) (p : Nat) :
    view (State.startL5 s p) = view s := by
  simp [State.startL5]

@[simp] theorem view_State_ungateBound (s : State) (n : Nat) :
    view (State.ungateBound s n) = view s := by
  simp [State.ungateBound, view_foldl]

@[simp] theorem view_freezeTimeout (n : Nat) (s : State) :
    view (freezeTimeout n s) = view s := by
  unfold freezeTimeout
  try dsimp only
  repeat' split
  all_goals first
    | with_reducible rfl
    | (simp (maxDischargeDepth := 9) [*, view_foldl]; done)
    | (rename_i h; have h2 := congrArg (fun z => view z.1) h; simp at h2; simp (maxDischargeDepth := 9) [← h2, view_foldl]; done)
    | (refine (view_foldl _ (fun t x => ?_) _ _).trans (by simp (maxDischargeDepth := 9) [*, view_foldl]; done); try dsimp only
       repeat' split
       all_goals (simp (maxDischargeDepth := 9) [*, view_foldl]; done))

@[simp] theorem view_State_startFreeze (s : State) (n : Nat) (ms : Nat) (req : Option (Nat × MsgHdr)) (halt : Bool) :
    view (State.startFreeze s n ms req halt) = view s := by
  simp [State.startFreeze]

@[simp] theorem view_State_stopProgress (s : State) (n : Nat) :
    view (State.stopProgress s n) = view s := by
  simp [State.stopProgress]

@[simp] theorem view_State_resumeProgress (s : State) (n : Nat) :
    view (State.resumeProgress s n) = view s := by
  simp [State.resumeProgress]

@[simp] theorem view_freezeComplete (n : Nat) (s : State) :
    view (freezeComplete n s) = view s := by
  simp [freezeComplete, view_foldl]

@[simp] theorem view_State_repeatFreezes (s : State) :
    view (State.repeatFreezes s) = view s := by
  simp [State.repeatFreezes, view_foldl]

@[simp] theorem view_pieceBytes (a0 : List Piece) (a1 : State) :
    view (pieceBytes a0 a1).2 = view a1 := by
  induction a0 generalizing a1 with
  | nil => rfl
  | cons p t ih => simp [pieceBytes, ih]

@[simp] theorem view_blobBodies (n : Nat) (a1 : List (Nat × Nat × Nat)) (a2 : State) :
    view (blobBodies n a1 a2).2 = view a2 := by
  induction a1 generalizing a2 with
  | nil => rfl
  | cons x t ih =>
    obtain ⟨ty, count, len⟩ := x
    simp [blobBodies, ih]

@[simp] theorem keeps_State_saveBlob {cq : State} (s : State) (n : Nat) (dva : Nat) (cap : Nat) (hk :
    (view s).Keeps cq) :
    (view (State.saveBlob s n dva cap).1).Keeps cq := by
  unfold State.saveBlob
  dsimp only
  have h1 : (view (blobBodies n (s.blobSections n) s).2).Keeps cq := by simpa using hk
  generalize blobBodies n (s.blobSections n) s = w at h1 ⊢
  split
  · exact hk
  · split
    · rename_i h
      simpa using keeps_of_writeDva h h1
    · rename_i h
      have h2 := keeps_of_writeDva h h1
      split <;> rename_i h3
      · simpa using keeps_of_writeDva h3 h2
      · exact keeps_of_writeDva h3 h2

@[simp] theorem view_State_freshInstance (s : State) (n : Nat) :
    view (State.freshInstance s n) = view s := by
  simp [State.freshInstance]

@[simp] theorem view_State_holdContract (s : State) (n : Nat) (id : Nat) (r : ContractReq) :
    view (State.holdContract s n id r) = view s := by
  simp [State.holdContract]

theorem view_State_placeQueues {t : State} (s : State) (n : Nat) (a2 : List BlobQueue) (h :
    (State.placeQueues s n a2) = some t) :
    view t = view s := by
  induction a2 generalizing s with
  | nil => simp [State.placeQueues] at h; simp [h]
  | cons b t ih =>
    unfold State.placeQueues at h
    split at h
    · simp at h
    · simpa using ih _ h

theorem view_State_placeGraphs {t : State} (s : State) (n : Nat) (a2 : List BlobGraph) (h :
    (State.placeGraphs s n a2) = some t) :
    view t = view s := by
  induction a2 generalizing s with
  | nil => simp [State.placeGraphs] at h; simp [h]
  | cons b t ih =>
    unfold State.placeGraphs at h
    split at h
    · simp at h
    · simpa using ih _ h

@[simp] theorem keeps_State_placeReplica {cq : State} (s : State) (n : Nat) (c : Cmd) (live : Tab (List
    (List Byte))) (r : Replica) (hk : (view s).Keeps cq) :
    (view (State.placeReplica s n c live r).1).Keeps cq := by
  unfold State.placeReplica
  dsimp only
  repeat' split
  all_goals first
    | exact hk
    | skip
  rw [view_State_updPart]
  exact keeps_foldl _ (fun t e ht => keeps_State_writePriv _ _ _ ht) _ _ hk

@[simp] theorem keeps_State_placeReplicas {cq : State} (s : State) (n : Nat) (c : Cmd) (live : Tab (List
    (List Byte))) (a4 : List Replica) (hk : (view s).Keeps cq) :
    (view (State.placeReplicas s n c live a4).1).Keeps cq := by
  induction a4 generalizing s with
  | nil => exact hk
  | cons r t ih => exact ih _ (keeps_State_placeReplica _ _ _ _ _ hk)

@[simp] theorem keeps_State_placeLaunch {cq : State} (s : State) (n : Nat) (c : Cmd) (live : Tab (List (List Byte)))
    (hk : (view s).Keeps cq) :
    (view (State.placeLaunch s n c live).1).Keeps cq := by
  unfold State.placeLaunch
  repeat' split
  all_goals simp [hk]

theorem keeps_State_placeCmd {cq : State} {t : State} (s : State) (n : Nat) (frozenAt : Nat) (b : BlobCmd) (hk :
    (view s).Keeps cq) (h : (State.placeCmd s n frozenAt b) = some t) :
    (view t).Keeps cq := by
  unfold State.placeCmd at h
  try dsimp only at h
  repeat' split at h
  all_goals first
    | (simp at h; done)
    | (cases h; simp +contextual (maxDischargeDepth := 9) [*, view_foldl, keeps_foldl]; done)
    | (simp at h; subst h; simp +contextual (maxDischargeDepth := 9) [*, view_foldl, keeps_foldl]; done)

theorem keeps_State_placeCmds {cq : State} {t : State} (s : State) (n : Nat) (frozenAt : Nat) (a3 : List BlobCmd)
    (hk : (view s).Keeps cq) (h : (State.placeCmds s n frozenAt a3) = some t) :
    (view t).Keeps cq := by
  induction a3 generalizing s with
  | nil => simp [State.placeCmds] at h; simpa [h] using hk
  | cons b t ih =>
    unfold State.placeCmds at h
    split at h
    · rename_i h1
      exact ih _ (keeps_State_placeCmd _ _ _ _ hk h1) h
    · simp at h

@[simp] theorem view_State_readmit (s : State) (n : Nat) (b : BlobContract) :
    view (State.readmit s n b) = view s := by
  unfold State.readmit
  repeat' split
  all_goals simp

@[simp] theorem view_State_setLimits (s : State) (n : Nat) (l : Limits) :
    view (State.setLimits s n l) = view s := by
  simp [State.setLimits]

theorem view_State_applyBinds {t : State} (s : State) (n : Nat) (a2 : Nat) (a3 : List (BitVec 32)) (h :
    (State.applyBinds s n a2 a3) = .ok t) :
    view t = view s := by
  induction a3 generalizing s a2 with
  | nil => simp [State.applyBinds] at h; simp [h]
  | cons w t ih =>
    unfold State.applyBinds at h
    split at h
    · exact ih _ _ h
    · split at h
      · simp at h
      · simpa using ih _ _ h

theorem keeps_State_rebuildFrom {cq : State} {t : State} (s : State) (n : Nat) (owned : BitVec 16) (binds : List
    (BitVec 32)) (b : Blob) (hk : (view s).Keeps cq) (h : (State.rebuildFrom s n owned binds b) = .ok t) :
    (view t).Keeps cq := by
  unfold State.rebuildFrom at h
  dsimp only at h
  repeat' split at h
  all_goals first
    | (simp at h; done)
    | skip
  rename_i h1 _ _ h2 _ _ h3 _ _ h4
  cases h
  have e1 := view_State_placeGraphs _ _ _ h1
  have e2 := view_State_applyBinds _ _ _ _ h2
  have e3 := view_State_placeQueues _ _ _ h3
  have e4 := keeps_State_placeCmds (cq := cq) _ _ _ _ (by rw [e3, e2, e1]; simpa using hk) h4
  simpa using e4

@[simp] theorem keeps_State_restoreBlob {cq : State} (s : State) (n : Nat) (owned : BitVec 16) (binds : List
    (BitVec 32)) (b : Blob) (hk : (view s).Keeps cq) :
    (view (State.restoreBlob s n owned binds b).1).Keeps cq := by
  unfold State.restoreBlob
  split
  · exact hk
  · split
    · exact hk
    · split
      · exact hk
      · split
        · exact hk
        · rename_i h
          have e := keeps_State_rebuildFrom _ _ _ _ _ hk h
          simpa [view_foldl] using e

@[simp] theorem view_State_retryLost (s : State) (n : Nat) :
    view (State.retryLost s n) = view s := by
  unfold State.retryLost
  try dsimp only
  repeat' split
  all_goals first
    | with_reducible rfl
    | (simp (maxDischargeDepth := 9) [*, view_foldl]; done)
    | (rename_i h; have h2 := congrArg (fun z => view z.1) h; simp at h2; simp (maxDischargeDepth := 9) [← h2, view_foldl]; done)
    | (refine (view_foldl _ (fun t x => ?_) _ _).trans (by simp (maxDischargeDepth := 9) [*, view_foldl]; done); try dsimp only
       repeat' split
       all_goals (simp (maxDischargeDepth := 9) [*, view_foldl]; done))

@[simp] theorem view_State_shiftReleases (s : State) (n : Nat) :
    view (State.shiftReleases s n) = view s := by
  simp [State.shiftReleases]

@[simp] theorem view_State_restampQueues (s : State) (n : Nat) :
    view (State.restampQueues s n) = view s := by
  simp [State.restampQueues, view_foldl]

@[simp] theorem keeps_State_writePending {cq : State} (s : State) (slot : Nat) (hk : (view s).Keeps cq) :
    (view (State.writePending s slot)).Keeps cq := by
  unfold State.writePending
  try dsimp only
  repeat' split
  all_goals first
    | with_reducible rfl
    | (simp +contextual (maxDischargeDepth := 9) [*, view_foldl, keeps_foldl]; done)
    | (rename_i h; have h2 := congrArg (fun z => view z.1) h; simp at h2; simp +contextual (maxDischargeDepth := 9) [← h2, hk, view_foldl, keeps_foldl]; done)
    | (refine keeps_foldl _ (fun t x hx => ?_) _ _ (by simp +contextual (maxDischargeDepth := 9) [*, view_foldl, keeps_foldl]; done); try dsimp only
       repeat' split
       all_goals (simp +contextual (maxDischargeDepth := 9) [*, view_foldl, keeps_foldl]; done))

@[simp] theorem view_State_dropLost (s : State) (n : Nat) :
    view (State.dropLost s n) = view s := by
  simp [State.dropLost]

@[simp] theorem keeps_State_thawInst {cq : State} (s : State) (n : Nat) (retry : Bool) (drop : Bool) (hk :
    (view s).Keeps cq) :
    (view (State.thawInst s n retry drop).1).Keeps cq := by
  unfold State.thawInst
  dsimp only
  repeat' split
  all_goals simp +contextual (maxDischargeDepth := 9) [hk, view_foldl, keeps_foldl]

end Sys2Proof.Laws
end

