-- ==== Sys2Proof/Laws/ViewFirm.lean ====
section
/-! SUPPORT. What the management core and the mailbox messages do to the view of a state: one lemma each, from the definition;
`view_` where the view stays, `keeps_` where a byte memory or a timeout is written and the invariant stays. -/

namespace Sys2Proof.Laws
open Sys2Proof Sys2Proof.Machine Sys2Proof.Safety
set_option linter.unusedSimpArgs false
set_option linter.unusedVariables false
set_option linter.unreachableTactic false
set_option linter.unusedTactic false

@[simp] theorem view_State_absorb (s : State) :
    view (State.absorb s) = view s := by
  simp [State.absorb]

@[simp] theorem view_State_countReset (s : State) (k : Nat) :
    view (State.countReset s k) = view s := by
  simp [State.countReset]

@[simp] theorem view_State_stageDone (s : State) (stage : Nat) (result : Abort) :
    view (State.stageDone s stage result) = view s := by
  simp [State.stageDone]

@[simp] theorem view_State_stopVerify (s : State) :
    view (State.stopVerify s) = view s := by
  unfold State.stopVerify
  repeat' split
  all_goals simp [State.useFree]

@[simp] theorem view_State_restartCore (s : State) (cause : Nat) :
    view (State.restartCore s cause) = view s := by
  simp [State.restartCore]

@[simp] theorem view_State_pushActing (s : State) (source : Nat) (arg : Nat) :
    view (State.pushActing s source arg) = view s := by
  simp [State.pushActing]

@[simp] theorem keeps_State_actSource {cq : State} (s : State) (source : Nat) (arg : Nat) (hk : (view s).Keeps cq) :
    (view (State.actSource s source arg)).Keeps cq := by
  unfold State.actSource
  dsimp only
  repeat' split
  all_goals simp [hk]

@[simp] theorem view_State_publish (s : State) (n : Nat) :
    view (State.publish s n) = view s := by
  simp [State.publish]

@[simp] theorem view_State_completeOpen (s : State) (n : Nat) :
    view (State.completeOpen s n) = view s := by
  simp [State.completeOpen]

@[simp] theorem view_State_applyPolicy (s : State) :
    view (State.applyPolicy s) = view s := by
  simp [State.applyPolicy, view_foldl]

@[simp] theorem view_State_beginOrphan (s : State) :
    view (State.beginOrphan s) = view s := by
  simp [State.beginOrphan, view_foldl]

@[simp] theorem view_State_restartEvent (s : State) :
    view (State.restartEvent s) = view s := by
  simp [State.restartEvent, view_foldl]

@[simp] theorem view_State_takeUp (s : State) :
    view (State.takeUp s) = view s := by
  simp [State.takeUp, view_foldl]

@[simp] theorem view_State_wakeFabric (s : State) :
    view (State.wakeFabric s) = view s := by
  simp [State.wakeFabric]

@[simp] theorem view_State_loadBegin (s : State) :
    view (State.loadBegin s) = view s := by
  simp [State.loadBegin]

@[simp] theorem view_State_loadCommit (s : State) :
    view (State.loadCommit s) = view s := by
  simp [State.loadCommit]

@[simp] theorem view_State_loadFails (s : State) (r : Nat) :
    view (State.loadFails s r) = view s := by
  simp [State.loadFails]

@[simp] theorem view_State_primerStack (s : State) :
    view (State.primerStack s) = view s := by
  simp [State.primerStack]

@[simp] theorem view_State_bootEvents (s : State) :
    view (State.bootEvents s) = view s := by
  unfold State.bootEvents
  dsimp only
  repeat' split
  all_goals simp

@[simp] theorem view_State_coldStart (s : State) :
    view (State.coldStart s) = view s := by
  simp [State.coldStart]

@[simp] theorem view_State_reload (s : State) :
    view (State.reload s) = view s := by
  unfold State.reload
  dsimp only
  rw [view_State_restartEvent, view_State_primerStack, view_mk, view_fold, view_State_takeUp, view_mk, view_fold,
    view_State_restartCore]

@[simp] theorem view_State_heartbeat (s : State) (value : BitVec 32) :
    view (State.heartbeat s value) = view s := by
  simp [State.heartbeat]

@[simp] theorem keeps_State_swReset {cq : State} (s : State) (value : BitVec 32) (hk : (view s).Keeps cq) :
    (view (State.swReset s value)).Keeps cq := by
  unfold State.swReset
  repeat' split
  all_goals simp [hk]

theorem view_unfrozen (mb : Nat) (body : Body) (hb : ∀ t b, view (body t b).1 = view t) (t : State) (b : List Byte) :
    view (unfrozen mb body t b).1 = view t := by
  unfold unfrozen
  split <;> simp [hb]

theorem keeps_unfrozen {cq : State} (mb : Nat) (body : Body) (hb : ∀ t b, (view t).Keeps cq → (view (body t b).1).Keeps cq)
    (t : State) (b : List Byte) (ht : (view t).Keeps cq) : (view (unfrozen mb body t b).1).Keeps cq := by
  unfold unfrozen
  split
  · simpa using ht
  · exact hb t b ht

theorem view_State_ownMessage (s : State) (mb : Nat) (h : MsgHdr) (payload : List Byte) (k : MsgKind) (body : Body)
    (hb : ∀ t b, view (body t b).1 = view t) : view (s.ownMessage mb h payload k body) = view s :=
  view_State_message _ _ _ _ _ _ (fun t b => view_unfrozen mb body hb t b)

theorem keeps_State_ownMessage {cq : State} (s : State) (mb : Nat) (h : MsgHdr) (payload : List Byte) (k : MsgKind) (body : Body)
    (hb : ∀ t b, (view t).Keeps cq → (view (body t b).1).Keeps cq) (hk : (view s).Keeps cq) :
    (view (s.ownMessage mb h payload k body)).Keeps cq :=
  keeps_State_message _ _ _ _ _ _ (fun t b ht => keeps_unfrozen mb body hb t b ht) hk

theorem view_applyOr (s : State) (r : Except Status State) (out : State → List Byte)
    (h : ∀ t, r = .ok t → view t = view s) : view (applyOr s r out).1 = view s := by
  unfold applyOr
  split
  · simp [h _ rfl]
  · simp

theorem view_State_createQueue {t : State × Nat} (s : State) (n : Nat) (b : List Byte) (h :
    (State.createQueue s n b) = .ok t) :
    view t.1 = view s := by
  unfold State.createQueue at h
  try dsimp only at h
  repeat' split at h
  all_goals first
    | (simp at h; done)
    | (cases h; simp (maxDischargeDepth := 9) [*, view_foldl]; done)
    | (simp at h; subst h; simp (maxDischargeDepth := 9) [*, view_foldl]; done)

@[simp] theorem view_queueCreateBody (mb : Nat) (t : State) (b : List Byte) :
    view (queueCreateBody mb t b).1 = view t := by
  unfold queueCreateBody
  refine view_unfrozen _ _ (fun t b => ?_) t b
  try dsimp only
  repeat' split
  all_goals first
    | (simp; done)
    | (rename_i hx; simp [view_State_createQueue _ _ _ hx]; done)

@[simp] theorem view_State_clearSlot (s : State) (slot : Nat) (sel : Cmd → Bool) :
    view (State.clearSlot s slot sel) = view s := by
  simp [State.clearSlot, view_foldl]

theorem view_State_destroyQueue {t : State} (s : State) (slot : Nat) (q : Queue) (h :
    (State.destroyQueue s slot q) = .ok t) :
    view t = view s := by
  unfold State.destroyQueue at h
  try dsimp only at h
  repeat' split at h
  all_goals first
    | (simp at h; done)
    | (cases h; simp (maxDischargeDepth := 9) [*, view_foldl]; done)
    | (simp at h; subst h; simp (maxDischargeDepth := 9) [*, view_foldl]; done)

theorem view_State_restartSlot {t : State} (s : State) (slot : Nat) (q : Queue) (h :
    (State.restartSlot s slot q) = .ok t) :
    view t = view s := by
  unfold State.restartSlot at h
  try dsimp only at h
  repeat' split at h
  all_goals first
    | (simp at h; done)
    | (cases h; simp (maxDischargeDepth := 9) [*, view_foldl]; done)
    | (simp at h; subst h; simp (maxDischargeDepth := 9) [*, view_foldl]; done)

theorem view_State_queueMessage {t : State} (s : State) (n : Nat) (b : List Byte) (f : Nat → Queue → Except Status State)
    (hf : ∀ k q u, f k q = .ok u → view u = view s) (h : s.queueMessage n b f = .ok t) : view t = view s := by
  unfold State.queueMessage at h
  repeat' split at h
  all_goals first
    | (simp at h; done)
    | exact hf _ _ _ h

@[simp] theorem view_queueDestroyBody (mb : Nat) (t : State) (b : List Byte) :
    view (queueDestroyBody mb t b).1 = view t := by
  unfold queueDestroyBody
  refine view_unfrozen _ _ (fun t b => ?_) t b
  try dsimp only
  exact view_applyOr _ _ _ (fun u hu => view_State_queueMessage _ _ _ _ (fun _ _ _ e => view_State_destroyQueue _ _ _ e) hu)

@[simp] theorem view_queueResetBody (mb : Nat) (t : State) (b : List Byte) :
    view (queueResetBody mb t b).1 = view t := by
  unfold queueResetBody
  refine view_unfrozen _ _ (fun t b => ?_) t b
  try dsimp only
  split
  · rename_i hx
    have e := view_State_queueMessage _ _ _ _ (fun _ _ _ e => view_State_restartSlot _ _ _ e) hx
    split <;> simp [e]
  · simp

@[simp] theorem keeps_State_semSet {cq : State} (s : State) (n : Nat) (i : Nat) (flags : Nat) (value : Nat)
    (mirror : Nat) (hk : (view s).Keeps cq) :
    (view (State.semSet s n i flags value mirror)).Keeps cq := by
  unfold State.semSet
  dsimp only
  repeat' split
  all_goals simp [hk]

@[simp] theorem keeps_semSetBody {cq : State} (mb : Nat) (t : State) (b : List Byte) (hk : (view t).Keeps cq) :
    (view (semSetBody mb t b).1).Keeps cq := by
  unfold semSetBody
  refine keeps_unfrozen _ _ (fun t b ht => ?_) t b hk
  dsimp only
  repeat' split
  all_goals simp [ht]

theorem view_State_registerImage {t : State × Nat} (s : State) (n : Nat) (img : List Byte) (len : Nat) (h :
    (State.registerImage s n img len) = .ok t) :
    view t.1 = view s := by
  unfold State.registerImage at h
  try dsimp only at h
  repeat' split at h
  all_goals first
    | (simp at h; done)
    | (cases h; simp (maxDischargeDepth := 9) [*, view_foldl]; done)
    | (simp at h; subst h; simp (maxDischargeDepth := 9) [*, view_foldl]; done)

@[simp] theorem view_graphRegisterBody (n : Nat) (host : List Byte) (t : State) (b : List Byte) :
    view (graphRegisterBody n host t b).1 = view t := by
  unfold graphRegisterBody
  refine view_unfrozen _ _ (fun t b => ?_) t b
  try dsimp only
  repeat' split
  all_goals first
    | (simp; done)
    | (rename_i hx; simp [view_State_registerImage _ _ _ _ hx]; done)

@[simp] theorem view_State_endPatches (s : State) (n : Nat) (g : Nat) :
    view (State.endPatches s n g) = view s := by
  simp [State.endPatches, view_foldl]

@[simp] theorem view_contractAdmitBody (n : Nat) (t : State) (b : List Byte) :
    view (contractAdmitBody n t b).1 = view t := by
  unfold contractAdmitBody
  refine view_unfrozen _ _ (fun t b => ?_) t b
  try dsimp only
  repeat' split
  all_goals simp

@[simp] theorem view_contractReleaseBody (mb : Nat) (t : State) (b : List Byte) :
    view (contractReleaseBody mb t b).1 = view t := by
  unfold contractReleaseBody
  refine view_unfrozen _ _ (fun t b => ?_) t b
  try dsimp only
  repeat' split
  all_goals simp

theorem view_State_revoke {t : State} (s : State) (n : Nat) (m : BitVec 16) (h : (State.revoke s n m) = .ok t) :
    view t = view s := by
  unfold State.revoke at h
  try dsimp only at h
  repeat' split at h
  all_goals first
    | (simp at h; done)
    | (cases h; simp (maxDischargeDepth := 9) [*, view_foldl]; done)
    | (simp at h; subst h; simp (maxDischargeDepth := 9) [*, view_foldl]; done)

theorem view_State_bindRole {t : State} (s : State) (n : Nat) (role : Nat) (w : BitVec 32) (h :
    (State.bindRole s n role w) = .ok t) :
    view t = view s := by
  unfold State.bindRole at h
  try dsimp only at h
  repeat' split at h
  all_goals first
    | (simp at h; done)
    | (cases h; simp (maxDischargeDepth := 9) [*, view_foldl]; done)
    | (simp at h; subst h; simp (maxDischargeDepth := 9) [*, view_foldl]; done)

@[simp] theorem view_roleBindBody (n : Nat) (t : State) (b : List Byte) :
    view (roleBindBody n t b).1 = view t := by
  unfold roleBindBody
  split
  · simp
  · exact view_applyOr _ _ _ (fun u hu => view_State_bindRole _ _ _ _ hu)

@[simp] theorem view_roleUnbindBody (n : Nat) (t : State) (b : List Byte) :
    view (roleUnbindBody n t b).1 = view t := by
  unfold roleUnbindBody
  dsimp only
  repeat' split
  all_goals simp

@[simp] theorem keeps_serviceBody {cq : State} (r : SvcReq) (t : State) (b : List Byte) (hk : (view t).Keeps cq) :
    (view (serviceBody r t b).1).Keeps cq := by
  unfold serviceBody
  repeat' split
  all_goals simp [hk]

@[simp] theorem keeps_State_serveOne {cq : State} (s : State) (r : SvcReq) (hk : (view s).Keeps cq) :
    (view (State.serveOne s r)).Keeps cq := by
  simp [State.serveOne, hk]

@[simp] theorem keeps_State_endOrphan {cq : State} (s : State) (thaw : Bool) (hk : (view s).Keeps cq) :
    (view (State.endOrphan s thaw)).Keeps cq := by
  unfold State.endOrphan
  dsimp only
  repeat' split
  all_goals simp +contextual (maxDischargeDepth := 9) [hk, view_foldl, keeps_foldl]

@[simp] theorem keeps_State_attachManager {cq : State} (s : State) (flags : Nat) (hk : (view s).Keeps cq) :
    (view (State.attachManager s flags).1).Keeps cq := by
  unfold State.attachManager
  dsimp only
  split
  · simpa using hk
  · split
    · exact keeps_State_endOrphan _ _ (by simpa using hk)
    · simpa using hk

end Sys2Proof.Laws
end

