-- ==== Sys2Proof/Laws/ViewDict.lean ====
section
/-! SUPPORT. What the object dictionary and the management link do to the view of a state: one lemma each, from the definition;
`view_` where the view stays, `keeps_` where a byte memory or a timeout is written and the invariant stays. -/

namespace Sys2Proof.Laws
open Sys2Proof Sys2Proof.Machine Sys2Proof.Safety
set_option linter.unusedSimpArgs false
set_option linter.unusedVariables false
set_option linter.unreachableTactic false
set_option linter.unusedTactic false

@[simp] theorem view_State_refreshMirror (s : State) :
    view (State.refreshMirror s) = view s := by
  simp [State.refreshMirror]

@[simp] theorem view_State_readValue (s : State) (index : Nat) (sub : Nat) (size : Nat) :
    view (State.readValue s index sub size).2 = view s := by
  unfold State.readValue
  dsimp only
  repeat' split
  all_goals simp

@[simp] theorem view_State_readDomain (s : State) :
    view (State.readDomain s).2 = view s := by
  unfold State.readDomain
  split <;> simp

theorem view_State_writeEnable {t : State} (s : State) (p : Nat) (v : Nat) (h : (State.writeEnable s p v) = .ok t) :
    view t = view s := by
  unfold State.writeEnable at h
  try dsimp only at h
  repeat' split at h
  all_goals first
    | (simp [refused] at h; done)
    | (cases h; simp (maxDischargeDepth := 9) [*, view_foldl]; done)
    | (simp at h; subst h; simp (maxDischargeDepth := 9) [*, view_foldl]; done)

theorem view_State_revokeAll {t : State} (s : State) (p : Nat) (h : (State.revokeAll s p) = .ok t) :
    view t = view s := by
  unfold State.revokeAll at h
  dsimp only at h
  split at h
  · simp at h
  · have key (l : List Nat) (r : Except Status State) (hr : ∀ u, r = .ok u → view u = view s)
        (h : l.foldl (fun r n => match r with
          | .ok t => t.revoke n (maskOf [p])
          | .error e => .error e) r = .ok t) : view t = view s := by
      induction l generalizing r with
      | nil => exact hr t h
      | cons x l ih =>
        refine ih _ (fun u hu => ?_) h
        dsimp only at hu
        split at hu
        · rename_i v
          rw [view_State_revoke _ _ _ hu]
          exact hr v rfl
        · simp at hu
    exact key _ _ (fun u hu => by cases hu; rfl) h

@[simp] theorem view_State_gateRetired (s : State) (p : Nat) :
    view (State.gateRetired s p) = view s := by
  simp [State.gateRetired]

theorem keeps_State_writeRetire {cq : State} {t : State} (s : State) (p : Nat) (v : Nat) (hk : (view s).Keeps cq)
    (h : (State.writeRetire s p v) = .ok t) :
    (view t).Keeps cq := by
  unfold State.writeRetire at h
  try dsimp only at h
  repeat' split at h
  all_goals first
    | (simp [refused] at h; done)
    | (cases h; simp +contextual (maxDischargeDepth := 9) [*, view_foldl, keeps_foldl]; done)
    | (simp at h; subst h; simp +contextual (maxDischargeDepth := 9) [*, view_foldl, keeps_foldl]; done)
    | (have e := view_State_revokeAll _ _ (by assumption); simp [e, view_foldl, *]; done)
    | (cases h; have e := view_State_revokeAll _ _ (by assumption); simp [e, view_foldl, *]; done)

theorem keeps_State_writePartReset {cq : State} {t : State} (s : State) (p : Nat) (hk : (view s).Keeps cq) (h :
    (State.writePartReset s p) = .ok t) :
    (view t).Keeps cq := by
  unfold State.writePartReset at h
  try dsimp only at h
  repeat' split at h
  all_goals first
    | (simp [refused] at h; done)
    | (cases h; simp +contextual (maxDischargeDepth := 9) [*, view_foldl, keeps_foldl]; done)
    | (simp at h; subst h; simp +contextual (maxDischargeDepth := 9) [*, view_foldl, keeps_foldl]; done)

@[simp] theorem view_State_syncLimits (s : State) (n : Nat) :
    view (State.syncLimits s n) = view s := by
  simp [State.syncLimits]

theorem view_State_writeInstance {t : State} (s : State) (n : Nat) (sub : Nat) (v : Nat) (sums : Bool) (h :
    (State.writeInstance s n sub v sums) = .ok t) :
    view t = view s := by
  unfold State.writeInstance at h
  try dsimp only at h
  repeat' split at h
  all_goals first
    | (simp [refused] at h; done)
    | (cases h; simp (maxDischargeDepth := 9) [*, view_foldl]; done)
    | (simp at h; subst h; simp (maxDischargeDepth := 9) [*, view_foldl]; done)

theorem view_State_writePowerState {t : State} (s : State) (v : Nat) (h : (State.writePowerState s v) = .ok t) :
    view t = view s := by
  unfold State.writePowerState at h
  try dsimp only at h
  repeat' split at h
  all_goals first
    | (simp [refused] at h; done)
    | (cases h; simp (maxDischargeDepth := 9) [*, view_foldl]; done)
    | (simp at h; subst h; simp (maxDischargeDepth := 9) [*, view_foldl]; done)

theorem keeps_State_writeResetReq {cq : State} {t : State} (s : State) (hk : (view s).Keeps cq) (h :
    (State.writeResetReq s) = .ok t) :
    (view t).Keeps cq := by
  unfold State.writeResetReq at h
  cases h
  exact keeps_State_actSource _ _ _ (by simpa using hk)

theorem view_State_writeStore {t : State} (s : State) (h : (State.writeStore s) = .ok t) :
    view t = view s := by
  unfold State.writeStore at h
  try dsimp only at h
  repeat' split at h
  all_goals first
    | (simp [refused] at h; done)
    | (cases h; simp (maxDischargeDepth := 9) [*, view_foldl]; done)
    | (simp at h; subst h; simp (maxDischargeDepth := 9) [*, view_foldl]; done)

theorem view_State_writeVerify {t : State} (s : State) (h : (State.writeVerify s) = .ok t) :
    view t = view s := by
  unfold State.writeVerify at h
  try dsimp only at h
  repeat' split at h
  all_goals first
    | (simp [refused] at h; done)
    | (cases h; simp (maxDischargeDepth := 9) [*, view_foldl]; done)
    | (simp at h; subst h; simp (maxDischargeDepth := 9) [*, view_foldl]; done)

theorem view_State_writeActivate {t : State} (s : State) (h : (State.writeActivate s) = .ok t) :
    view t = view s := by
  unfold State.writeActivate at h
  try dsimp only at h
  repeat' split at h
  all_goals first
    | (simp [refused] at h; done)
    | (cases h; simp (maxDischargeDepth := 9) [*, view_foldl]; done)
    | (simp at h; subst h; simp (maxDischargeDepth := 9) [*, view_foldl]; done)

theorem view_State_writeConfirm {t : State} (s : State) (h : (State.writeConfirm s) = .ok t) :
    view t = view s := by
  unfold State.writeConfirm at h
  try dsimp only at h
  repeat' split at h
  all_goals first
    | (simp [refused] at h; done)
    | (cases h; simp (maxDischargeDepth := 9) [*, view_foldl]; done)
    | (simp at h; subst h; simp (maxDischargeDepth := 9) [*, view_foldl]; done)

theorem view_State_writeStage {t : State} (s : State) (sub : Nat) (h : (State.writeStage s sub) = .ok t) :
    view t = view s := by
  unfold State.writeStage at h
  try dsimp only at h
  repeat' split at h
  all_goals first
    | (simp [refused] at h; done)
    | (cases h; simp (maxDischargeDepth := 9) [*, view_foldl]; done)
    | (simp at h; subst h; simp (maxDischargeDepth := 9) [*, view_foldl]; done)
    | (have e := view_State_writeActivate _ (by assumption); simp [e, view_foldl, *]; done)
    | (cases h; have e := view_State_writeActivate _ (by assumption); simp [e, view_foldl, *]; done)
    | (have e := view_State_writeConfirm _ (by assumption); simp [e, view_foldl, *]; done)
    | (cases h; have e := view_State_writeConfirm _ (by assumption); simp [e, view_foldl, *]; done)
    | (have e := view_State_writeVerify _ (by assumption); simp [e, view_foldl, *]; done)
    | (cases h; have e := view_State_writeVerify _ (by assumption); simp [e, view_foldl, *]; done)

theorem view_State_writeDomain {t : State} (s : State) (index : Nat) (b : List Byte) (h :
    (State.writeDomain s index b) = .ok t) :
    view t = view s := by
  unfold State.writeDomain at h
  try dsimp only at h
  repeat' split at h
  all_goals first
    | (simp [refused] at h; done)
    | (cases h; simp (maxDischargeDepth := 9) [*, view_foldl]; done)
    | (simp at h; subst h; simp (maxDischargeDepth := 9) [*, view_foldl]; done)

theorem keeps_State_writeEffect {cq : State} {t : State} (s : State) (path : Path) (index : Nat) (sub : Nat)
    (v : Nat) (sums : Bool) (hk : (view s).Keeps cq) (h : (State.writeEffect s path index sub v sums) = .ok t) :
    (view t).Keeps cq := by
  unfold State.writeEffect at h
  try dsimp only at h
  repeat' split at h
  all_goals first
    | (simp [refused] at h; done)
    | (cases h; simp +contextual (maxDischargeDepth := 9) [*, view_foldl, keeps_foldl]; done)
    | (simp at h; subst h; simp +contextual (maxDischargeDepth := 9) [*, view_foldl, keeps_foldl]; done)
    | (have e := view_State_writeEnable _ _ _ (by assumption); simp [e, view_foldl, *]; done)
    | (cases h; have e := view_State_writeEnable _ _ _ (by assumption); simp [e, view_foldl, *]; done)
    | (have e := view_State_writeInstance _ _ _ _ _ (by assumption); simp [e, view_foldl, *]; done)
    | (cases h; have e := view_State_writeInstance _ _ _ _ _ (by assumption); simp [e, view_foldl, *]; done)
    | (have e := keeps_State_writePartReset _ _ (by simp [*]) (by assumption); simp [e, *, view_foldl]; done)
    | exact keeps_State_writePartReset _ _ hk h
    | (have e := view_State_writePowerState _ _ (by assumption); simp [e, view_foldl, *]; done)
    | (cases h; have e := view_State_writePowerState _ _ (by assumption); simp [e, view_foldl, *]; done)
    | (have e := keeps_State_writeResetReq _ (by simp [*]) (by assumption); simp [e, *, view_foldl]; done)
    | exact keeps_State_writeResetReq _ hk h
    | (have e := keeps_State_writeRetire _ _ _ (by simp [*]) (by assumption); simp [e, *, view_foldl]; done)
    | exact keeps_State_writeRetire _ _ _ hk h
    | (have e := view_State_writeStage _ _ (by assumption); simp [e, view_foldl, *]; done)
    | (cases h; have e := view_State_writeStage _ _ (by assumption); simp [e, view_foldl, *]; done)
    | (have e := view_State_writeStore _ (by assumption); simp [e, view_foldl, *]; done)
    | (cases h; have e := view_State_writeStore _ (by assumption); simp [e, view_foldl, *]; done)

@[simp] theorem view_State_bumpEpoch (s : State) (path : Path) (index : Nat) :
    view (State.bumpEpoch s path index) = view s := by
  simp [State.bumpEpoch]

theorem keeps_State_restoreDefaults {cq : State} {t : State} (s : State) (path : Path) (mask : Nat) (hk :
    (view s).Keeps cq) (h : (State.restoreDefaults s path mask) = .ok t) :
    (view t).Keeps cq := by
  unfold State.restoreDefaults at h
  dsimp only at h
  split at h
  · simp at h
  · split at h
    · simp [refused] at h
    · split at h
      · simp at h
      · rename_i u hr
        have key (l : List (Nat × Nat)) (r : Written) (h0 : ∀ u, r = .ok u → (view u).Keeps cq)
            (hr : l.foldl (fun (r : Written) k => match r with
              | .ok t => t.writeEffect path k.1 k.2 (dictDefault k.1 k.2) false
              | .error e => .error e) r = .ok u) : (view u).Keeps cq := by
          induction l generalizing r with
          | nil => exact h0 u hr
          | cons x l ih =>
            refine ih _ (fun w hw => ?_) hr
            dsimp only at hw
            split at hw
            · exact keeps_State_writeEffect _ _ _ _ _ _ (h0 _ rfl) hw
            · simp at hw
        have hu := key _ _ (fun w hw => by cases hw; exact hk) hr
        split at h
        · simp [refused] at h
        · cases h
          simpa [view_foldl] using hu

@[simp] theorem keeps_State_dictWrite {cq : State} (s : State) (path : Path) (index : Nat) (sub : Nat)
    (data : List Byte) (expect : Option (BitVec 16)) (seg : Bool) (hk : (view s).Keeps cq) :
    (view (State.dictWrite s path index sub data expect seg).1).Keeps cq := by
  unfold State.dictWrite
  dsimp only
  repeat' split
  all_goals first
    | exact hk
    | skip
  all_goals
    rename_i ht
    repeat' split at ht
    all_goals first
      | simpa [view_State_writeDomain _ _ _ ht] using hk
      | simpa using keeps_State_restoreDefaults _ _ _ hk ht
      | simpa using keeps_State_writeEffect _ _ _ _ _ _ hk ht

theorem view_State_dictRead {t : List Byte × State} (s : State) (index : Nat) (sub : Nat) (seg : Bool) (h :
    (State.dictRead s index sub seg) = .ok t) :
    view t.2 = view s := by
  unfold State.dictRead at h
  try dsimp only at h
  repeat' split at h
  all_goals first
    | (simp [refused] at h; done)
    | (cases h; simp (maxDischargeDepth := 9) [*, view_foldl]; done)
    | (simp at h; subst h; simp (maxDischargeDepth := 9) [*, view_foldl]; done)

@[simp] theorem view_State_setSession (s : State) (p : Path) (x : Option Session) :
    view (State.setSession s p x) = view s := by
  unfold State.setSession
  split <;> simp

@[simp] theorem view_State_setEnded (s : State) (p : Path) (a : Abort) :
    view (State.setEnded s p a) = view s := by
  unfold State.setEnded
  split <;> simp

@[simp] theorem view_State_endSession (s : State) (p : Path) (a : Abort) :
    view (State.endSession s p a) = view s := by
  unfold State.endSession
  split <;> simp

@[simp] theorem view_State_segReadStart (s : State) (p : Path) (f : UFrame) :
    view (State.segReadStart s p f).1 = view s := by
  unfold State.segReadStart
  try dsimp only
  repeat' split
  all_goals first
    | with_reducible rfl
    | (simp (maxDischargeDepth := 9) [*, view_foldl]; done)
    | (rename_i h; have h2 := congrArg (fun z => view z.1) h; simp at h2; simp (maxDischargeDepth := 9) [← h2, view_foldl]; done)
    | (have e := view_State_dictRead _ _ _ _ (by assumption); simp [e, view_foldl, *]; done)
    | (cases h; have e := view_State_dictRead _ _ _ _ (by assumption); simp [e, view_foldl, *]; done)
    | (refine (view_foldl _ (fun t x => ?_) _ _).trans (by simp (maxDischargeDepth := 9) [*, view_foldl]; done); try dsimp only
       repeat' split
       all_goals (simp (maxDischargeDepth := 9) [*, view_foldl]; done))

@[simp] theorem view_State_segWriteStart (s : State) (p : Path) (f : UFrame) :
    view (State.segWriteStart s p f).1 = view s := by
  unfold State.segWriteStart
  dsimp only
  repeat' split
  all_goals simp

@[simp] theorem view_State_segRead (s : State) (p : Path) (x : Session) (f : UFrame) :
    view (State.segRead s p x f).1 = view s := by
  unfold State.segRead
  dsimp only
  repeat' split
  all_goals simp

@[simp] theorem keeps_State_segWrite {cq : State} (s : State) (p : Path) (x : Session) (f : UFrame) (hk :
    (view s).Keeps cq) :
    (view (State.segWrite s p x f).1).Keeps cq := by
  unfold State.segWrite
  dsimp only
  repeat' split
  all_goals simp [hk]

@[simp] theorem keeps_State_segmented {cq : State} (s : State) (p : Path) (opc : Nat) (f : UFrame) (hk :
    (view s).Keeps cq) :
    (view (State.segmented s p opc f).1).Keeps cq := by
  unfold State.segmented
  dsimp only
  repeat' split
  all_goals simp [hk]

@[simp] theorem keeps_State_serve {cq : State} (s : State) (p : Path) (opc : Nat) (f : UFrame) (hk :
    (view s).Keeps cq) :
    (view (State.serve s p opc f).1).Keeps cq := by
  unfold State.serve
  try dsimp only
  repeat' split
  all_goals first
    | with_reducible rfl
    | (simp +contextual (maxDischargeDepth := 9) [*, view_foldl, keeps_foldl]; done)
    | (rename_i h; have h2 := congrArg (fun z => view z.1) h; simp at h2; simp +contextual (maxDischargeDepth := 9) [← h2, hk, view_foldl, keeps_foldl]; done)
    | (have e := view_State_dictRead _ _ _ _ (by assumption); simp [e, view_foldl, *]; done)
    | (cases h; have e := view_State_dictRead _ _ _ _ (by assumption); simp [e, view_foldl, *]; done)
    | (refine keeps_foldl _ (fun t x hx => ?_) _ _ (by simp +contextual (maxDischargeDepth := 9) [*, view_foldl, keeps_foldl]; done); try dsimp only
       repeat' split
       all_goals (simp +contextual (maxDischargeDepth := 9) [*, view_foldl, keeps_foldl]; done))

@[simp] theorem keeps_State_answerFrame {cq : State} (s : State) (p : Path) (opc : Nat) (f : UFrame) (hk :
    (view s).Keeps cq) :
    (view (State.answerFrame s p opc f).1).Keeps cq := by
  simp [State.answerFrame, hk]

@[simp] theorem view_State_goodFrame (s : State) :
    view (State.goodFrame s) = view s := by
  simp [State.goodFrame]

@[simp] theorem keeps_State_umner {cq : State} (s : State) (p : Path) (opc : Nat) (f : UFrame) (hk :
    (view s).Keeps cq) :
    (view (State.umner s p opc f)).Keeps cq := by
  unfold State.umner
  repeat' split
  all_goals simp [hk]

@[simp] theorem keeps_State_serveHeld {cq : State} (s : State) (hk : (view s).Keeps cq) :
    (view (State.serveHeld s)).Keeps cq := by
  unfold State.serveHeld
  try dsimp only
  repeat' split
  all_goals first
    | with_reducible rfl
    | (simp +contextual (maxDischargeDepth := 9) [*, view_foldl, keeps_foldl]; done)
    | (rename_i h; have h2 := congrArg (fun z => view z.1) h; simp at h2; simp +contextual (maxDischargeDepth := 9) [← h2, hk, view_foldl, keeps_foldl]; done)
    | (refine keeps_foldl _ (fun t x hx => ?_) _ _ (by simp +contextual (maxDischargeDepth := 9) [*, view_foldl, keeps_foldl]; done); try dsimp only
       repeat' split
       all_goals (simp +contextual (maxDischargeDepth := 9) [*, view_foldl, keeps_foldl]; done))

@[simp] theorem keeps_State_entryWrite {cq : State} (s : State) (path : Path) (f : UFrame) (ok : Bool) (hk :
    (view s).Keeps cq) :
    (view (State.entryWrite s path f ok)).Keeps cq := by
  unfold State.entryWrite
  repeat' split
  all_goals simp [hk]

@[simp] theorem keeps_State_domainWrite {cq : State} (s : State) (path : Path) (index : Nat) (value : List Byte)
    (hk : (view s).Keeps cq) :
    (view (State.domainWrite s path index value)).Keeps cq := by
  unfold State.domainWrite
  repeat' split
  all_goals simp [hk]

@[simp] theorem view_State_ccc (s : State) (out : List Byte) (f : Link → Link) :
    view (State.ccc s out f) = view s := by
  simp [State.ccc]

@[simp] theorem view_State_opEnded (s : State) (op : KOp) (st : Status) :
    view (State.opEnded s op st) = view s := by
  unfold State.opEnded
  split <;> simp

end Sys2Proof.Laws
end

