-- ==== Sys2Proof/Laws/ViewRegs.lean ====
section
/-! SUPPORT. What the register windows, the host link, power, the resets and recovery do to the view of a state: one lemma each, from the definition;
`view_` where the view stays, `keeps_` where a byte memory or a timeout is written and the invariant stays. -/

namespace Sys2Proof.Laws
open Sys2Proof Sys2Proof.Machine Sys2Proof.Safety
set_option linter.unusedSimpArgs false
set_option linter.unusedVariables false
set_option linter.unreachableTactic false
set_option linter.unusedTactic false

@[simp] theorem view_State_badAccess (s : State) :
    view (State.badAccess s) = view s := by
  simp [State.badAccess]

@[simp] theorem view_State_glove1 (s : State) (fn : Nat) :
    view (State.glove1 s fn) = view s := by
  simp [State.glove1]

@[simp] theorem view_took (s : State) :
    view (took s).1 = view s := by
  simp [took]

@[simp] theorem view_State_writeLoadCtl (s : State) (v : BitVec 32) :
    view (State.writeLoadCtl s v) = view s := by
  simp [State.writeLoadCtl]

@[simp] theorem keeps_State_writeIdent {cq : State} (s : State) (off : Nat) (v : BitVec 32) (hk : (view s).Keeps cq) :
    (view (State.writeIdent s off v)).Keeps cq := by
  unfold State.writeIdent
  repeat' split
  all_goals simp [hk]

@[simp] theorem view_State_writeInProd (s : State) (n : Nat) (v : BitVec 32) :
    view (State.writeInProd s n v).1 = view s := by
  unfold State.writeInProd
  dsimp only
  repeat' split
  all_goals simp

@[simp] theorem view_State_openBox (s : State) (n : Nat) (formats : BitVec 3) :
    view (State.openBox s n formats) = view s := by
  simp [State.openBox]

@[simp] theorem view_State_writeInbound (s : State) (n : Nat) (off : Nat) (v : BitVec 32) :
    view (State.writeInbound s n off v).1 = view s := by
  unfold State.writeInbound
  dsimp only
  repeat' split
  all_goals simp

@[simp] theorem view_State_writeEmu (s : State) (n : Nat) (off : Nat) (v : BitVec 32) :
    view (State.writeEmu s n off v) = view s := by
  unfold State.writeEmu
  repeat' split
  all_goals simp

@[simp] theorem view_State_keyedAbort (s : State) (n : Nat) (v : BitVec 32) (by_ : Nat) :
    view (State.keyedAbort s n v by_).1 = view s := by
  unfold State.keyedAbort
  split <;> simp

@[simp] theorem view_State_writeMsix (s : State) (fn : Nat) (off : Nat) (v : BitVec 32) :
    view (State.writeMsix s fn off v) = view s := by
  simp [State.writeMsix]

@[simp] theorem view_State_writeWindow (s : State) (off : Nat) (v : BitVec 32) :
    view (State.writeWindow s off v) = view s := by
  simp [State.writeWindow]

@[simp] theorem view_State_writeRecovery (s : State) (off : Nat) (v : BitVec 32) :
    view (State.writeRecovery s off v).1 = view s := by
  unfold State.writeRecovery
  dsimp only
  repeat' split
  all_goals simp

@[simp] theorem view_State_updProbe (s : State) (k : Nat) (f : Probe → Probe) :
    view (State.updProbe s k f) = view s := by
  simp [State.updProbe]

theorem clampTmo_legal (v : BitVec 32) : TimeoutLegal (clampTmo v) := by
  unfold TimeoutLegal clampTmo; omega

@[simp] theorem keeps_State_writeTmo {cq : State} (s : State) (hostLimit : Bool) (v : BitVec 32) (hk :
    (view s).Keeps cq) :
    (view (State.writeTmo s hostLimit v)).Keeps cq := by
  obtain ⟨h1, hb⟩ := hk
  unfold State.writeTmo
  split
  · exact ⟨h1, fun h => have ⟨h2, h3, h4, _, h6⟩ := hb h; ⟨h2, h3, h4, clampTmo_legal v, h6⟩⟩
  · exact ⟨h1, fun h => have ⟨h2, h3, _, h5, h6⟩ := hb h; ⟨h2, h3, clampTmo_legal v, h5, h6⟩⟩

@[simp] theorem keeps_State_writeNetwork {cq : State} (s : State) (off : Nat) (v : BitVec 32) (hk :
    (view s).Keeps cq) :
    (view (State.writeNetwork s off v)).Keeps cq := by
  unfold State.writeNetwork
  repeat' split
  all_goals simp [hk]

@[simp] theorem view_State_writeView (s : State) (n : Nat) (off : Nat) (v : BitVec 32) :
    view (State.writeView s n off v) = view s := by
  simp [State.writeView]

@[simp] theorem view_State_bellWord (s : State) (n : Nat) (off : Nat) (v : BitVec 32) :
    view (State.bellWord s n off v).1 = view s := by
  unfold State.bellWord
  dsimp only
  repeat' split
  all_goals simp

@[simp] theorem keeps_State_regionWrite {cq : State} (s : State) (fn : Nat) (r : Region) (off : Nat) (v : BitVec 32)
    (hk : (view s).Keeps cq) :
    (view (State.regionWrite s fn r off v).1).Keeps cq := by
  unfold State.regionWrite
  repeat' split
  all_goals simp [hk]

@[simp] theorem keeps_State_writeWords {cq : State} (s : State) (fn : Nat) (r : Region) (off : Nat) (a4 : List Byte)
    (a5 : Nat) (hk : (view s).Keeps cq) :
    (view (State.writeWords s fn r off a4 a5).1).Keeps cq := by
  induction a5 generalizing s off a4 with
  | zero => exact hk
  | succ k ih => exact ih _ _ _ (keeps_State_regionWrite _ _ _ _ _ hk)

@[simp] theorem keeps_State_barWrite {cq : State} (s0 : State) (fn : Nat) (off : Nat) (data : List Byte) (hk :
    (view s0).Keeps cq) :
    (view (State.barWrite s0 fn off data)).Keeps cq := by
  unfold State.barWrite
  dsimp only
  repeat' split
  all_goals simp [hk]

@[simp] theorem view_State_unsupported (s : State) (fn : Nat) :
    view (State.unsupported s fn) = view s := by
  simp [State.unsupported]

@[simp] theorem view_State_abortWrite (s : State) (n : Nat) (q : Option Nat) (byManager : Bool) :
    view (State.abortWrite s n q byManager) = view s := by
  simp [State.abortWrite]

@[simp] theorem view_State_barRead (s0 : State) (fn : Nat) (off : Nat) (size : Nat) :
    view (State.barRead s0 fn off size) = view s0 := by
  simp [State.barRead]

@[simp] theorem view_State_holdD3 (s : State) (sel : Queue → Bool) (on : Bool) :
    view (State.holdD3 s sel on) = view s := by
  simp [State.holdD3]

@[simp] theorem view_State_leaveD3 (s : State) (fn : Nat) :
    view (State.leaveD3 s fn) = view s := by
  simp [State.leaveD3]

@[simp] theorem view_State_enterD3 (s : State) (fn : Nat) :
    view (State.enterD3 s fn) = view s := by
  simp [State.enterD3, view_foldl]

@[simp] theorem view_State_resetFunc (s : State) (fn : Nat) :
    view (State.resetFunc s fn) = view s := by
  simp [State.resetFunc]

@[simp] theorem keeps_State_flrOf {cq : State} (s : State) (fn : Nat) (hk : (view s).Keeps cq) :
    (view (State.flrOf s fn)).Keeps cq := by
  unfold State.flrOf
  repeat' split
  all_goals simp [hk]

@[simp] theorem view_State_endXlat (s : State) (tag : Nat) (h : HostReq) (w : Waiting) (status : Nat)
    (data : List Byte) :
    view (State.endXlat s tag h w status data) = view s := by
  simp [State.endXlat]

@[simp] theorem view_State_repend (s : State) (a1 : List Posted) :
    view (State.repend s a1) = view s := by
  induction a1 generalizing s with
  | nil => rfl
  | cons p t ih =>
    unfold State.repend
    split
    all_goals first
      | rfl
      | simp_all

@[simp] theorem keeps_State_linkLost {cq : State} (s : State) (hk : (view s).Keeps cq) :
    (view (State.linkLost s)).Keeps cq := by
  obtain ⟨h1, hb⟩ := hk
  refine ⟨h1, fun h => ?_⟩
  obtain ⟨h2, h3, h4, h5, h6, h7⟩ := hb h
  exact ⟨h2, h3, h4, h5, by simp [State.linkLost, view], h7⟩

@[simp] theorem keeps_State_enterL2 {cq : State} (s : State) (hk : (view s).Keeps cq) :
    (view (State.enterL2 s)).Keeps cq := by
  obtain ⟨h1, hb⟩ := hk
  refine ⟨h1, fun h => ?_⟩
  obtain ⟨h2, h3, h4, h5, h6, h7⟩ := hb h
  exact ⟨h2, h3, h4, h5, by simp [State.enterL2, view], h7⟩

@[simp] theorem keeps_State_giveUp {cq : State} (s : State) (b : Nat) (hk : (view s).Keeps cq) :
    (view (State.giveUp s b)).Keeps cq := by
  unfold State.giveUp
  repeat' split
  all_goals simp [hk]

@[simp] theorem view_State_ungateDue (s : State) :
    view (State.ungateDue s) = view s := by
  simp [State.ungateDue, view_foldl]

@[simp] theorem view_State_reachPower (s : State) (v : Nat) :
    view (State.reachPower s v) = view s := by
  simp [State.reachPower, view_foldl]

@[simp] theorem view_State_boost (s : State) (p : Nat) :
    view (State.boost s p) = view s := by
  simp [State.boost]

@[simp] theorem view_State_tripContracts (s : State) :
    view (State.tripContracts s) = view s := by
  simp [State.tripContracts]

@[simp] theorem keeps_State_trip {cq : State} (s : State) (hk : (view s).Keeps cq) :
    (view (State.trip s)).Keeps cq := by
  unfold State.trip
  dsimp only
  repeat' split
  all_goals simp +contextual (maxDischargeDepth := 9) [hk, view_foldl, keeps_foldl]

@[simp] theorem view_State_releaseTrip (s : State) :
    view (State.releaseTrip s) = view s := by
  simp [State.releaseTrip]

@[simp] theorem view_State_holdEvent (s : State) (c : Nat) (held : Bool) :
    view (State.holdEvent s c held) = view s := by
  simp [State.holdEvent]

@[simp] theorem view_State_thermalLoops (s : State) :
    view (State.thermalLoops s) = view s := by
  simp [State.thermalLoops, view_foldl]

@[simp] theorem view_State_pulseActs (s : State) (ns : Nat) (lo : Nat) (hi : Nat) :
    view (State.pulseActs s ns lo hi).2 = view s := by
  unfold State.pulseActs
  repeat' split
  all_goals simp

@[simp] theorem view_State_setCap (s : State) (high : Bool) :
    view (State.setCap s high) = view s := by
  simp [State.setCap]

@[simp] theorem view_State_missedEvent (s : State) (log : List LogEntry) (id : Nat) :
    view (State.missedEvent s log id) = view s := by
  unfold State.missedEvent
  dsimp only
  repeat' split
  all_goals simp

@[simp] theorem view_State_earlyEvent (s : State) (e : LogEntry) :
    view (State.earlyEvent s e) = view s := by
  simp [State.earlyEvent]

@[simp] theorem view_State_readLog (s : State) :
    view (State.readLog s) = view s := by
  simp [State.readLog, view_foldl]

@[simp] theorem keeps_State_wiped {cq : State} (s : State) (l0 : Bool) (hk : (view s).Keeps cq) :
    (view (State.wiped s l0)).Keeps cq := by
  obtain ⟨⟨h1, hd, hm⟩, hb⟩ := hk
  refine ⟨⟨h1, ?_, hm⟩, fun h => ?_⟩
  · cases l0 <;> exact hd
  · obtain ⟨h2, h3, h4, h5, h6, h7⟩ := hb h
    refine ⟨rfl, h3, by simp [State.wiped, view, TimeoutLegal], by simp [State.wiped, view, TimeoutLegal], ?_, h7⟩
    cases l0 <;> simp [State.wiped, view, HostLink.wiped]

@[simp] theorem keeps_State_enterWide {cq : State} (s : State) (lvl : Nat) (source : Nat) (at_ : Nat)
    (absorbed : Nat) (hk : (view s).Keeps cq) :
    (view (State.enterWide s lvl source at_ absorbed)).Keeps cq := by
  simp [State.enterWide, hk]

@[simp] theorem keeps_State_powerLost {cq : State} (s : State) (hk : (view s).Keeps cq) :
    (view (State.powerLost s)).Keeps cq := by
  simp [State.powerLost, hk]

@[simp] theorem view_State_beginL0Exit (s : State) :
    view (State.beginL0Exit s) = view s := by
  simp [State.beginL0Exit]

@[simp] theorem keeps_State_releaseHold {cq : State} (s : State) (hk : (view s).Keeps cq) :
    (view (State.releaseHold s)).Keeps cq := by
  unfold State.releaseHold
  try dsimp only
  repeat' split
  all_goals first
    | with_reducible rfl
    | (simp +contextual (maxDischargeDepth := 9) [*, view_foldl, keeps_foldl]; done)
    | (rename_i h; have h2 := congrArg (fun z => view z.1) h; simp at h2; simp +contextual (maxDischargeDepth := 9) [← h2, hk, view_foldl, keeps_foldl]; done)
    | (refine keeps_foldl _ (fun t x hx => ?_) _ _ (by simp +contextual (maxDischargeDepth := 9) [*, view_foldl, keeps_foldl]; done); try dsimp only
       repeat' split
       all_goals (simp +contextual (maxDischargeDepth := 9) [*, view_foldl, keeps_foldl]; done))

@[simp] theorem view_State_takeSetting (s : State) (e : Nat × Nat × List Byte) :
    view (State.takeSetting s e) = view s := by
  unfold State.takeSetting
  split <;> simp

@[simp] theorem view_State_loadSettings (s : State) :
    view (State.loadSettings s) = view s := by
  unfold State.loadSettings
  dsimp only
  repeat' split
  all_goals simp [view_foldl]

@[simp] theorem view_State_applySettings (s : State) :
    view (State.applySettings s) = view s := by
  simp [State.applySettings, view_foldl]

@[simp] theorem view_State_badStores (s : State) (bad : BitVec 16) :
    view (State.badStores s bad) = view s := by
  simp [State.badStores]

@[simp] theorem view_State_backInService (s : State) (p : Nat) :
    view (State.backInService s p) = view s := by
  simp [State.backInService, view_foldl]

@[simp] theorem view_State_keptOffline (s : State) (p : Nat) (cause : Nat) :
    view (State.keptOffline s p cause) = view s := by
  simp [State.keptOffline]

@[simp] theorem keeps_State_setIr {cq : State} (s : State) (ir : Nat) (hi : ir ∈ tapCodes)
    (hk : (view s).Keeps cq) : (view (s.setIr ir)).Keeps cq :=
  ⟨hk.1, fun h => have ⟨h2, h3, h4, h5, h6, _⟩ := hk.2 h; ⟨h2, h3, h4, h5, h6, hi⟩⟩

@[simp] theorem view_State_stopFep (s : State) (cause : Nat) (addr : BitVec 12) (thread : BitVec 3) :
    view (State.stopFep s cause addr thread) = view s := by
  simp [State.stopFep]

@[simp] theorem view_State_haltFep (s : State) (addr : BitVec 12) (cause : Nat) :
    view (State.haltFep s addr cause) = view s := by
  simp [State.haltFep]

@[simp] theorem keeps_State_fatalCheck {cq : State} (s : State) (hk : (view s).Keeps cq) :
    (view (State.fatalCheck s)).Keeps cq := by
  simp [State.fatalCheck, hk]

@[simp] theorem view_State_fetchUpset (s : State) (k : Nat) (a : Nat) (flips : BitVec 137) :
    view (State.fetchUpset s k a flips) = view s := by
  simp [State.fetchUpset]

@[simp] theorem view_State_correctWord (s : State) (a : Nat) :
    view (State.correctWord s a) = view s := by
  simp [State.correctWord]

@[simp] theorem view_State_nextScrub (s : State) :
    view (State.nextScrub s) = view s := by
  simp [State.nextScrub]

@[simp] theorem keeps_State_scrubRepair {cq : State} (s : State) (hk : (view s).Keeps cq) :
    (view (State.scrubRepair s)).Keeps cq := by
  unfold State.scrubRepair
  repeat' split
  all_goals simp [hk]

@[simp] theorem view_State_bufferRead (s : State) (good : Bool) :
    view (State.bufferRead s good) = view s := by
  simp [State.bufferRead]

@[simp] theorem view_State_drained (s : State) :
    view (State.drained s) = view s := by
  simp [State.drained]

@[simp] theorem view_State_reloadBuffer (s : State) :
    view (State.reloadBuffer s) = view s := by
  simp [State.reloadBuffer]

@[simp] theorem view_State_rebuildStore (s : State) :
    view (State.rebuildStore s) = view s := by
  simp [State.rebuildStore]

@[simp] theorem view_State_l2Stop (s : State) :
    view (State.l2Stop s) = view s := by
  simp [State.l2Stop]

@[simp] theorem view_State_rebuildCmd (s : State) (c : Cmd) :
    view (State.rebuildCmd s c) = view s := by
  simp [State.rebuildCmd]

@[simp] theorem view_State_recoveryEvents (s : State) (counts : Nat × Nat × Nat) :
    view (State.recoveryEvents s counts) = view s := by
  simp [State.recoveryEvents, view_foldl]

@[simp] theorem view_State_replayBell (s : State) (b : Nat × Nat × Bool × BitVec 32) :
    view (State.replayBell s b) = view s := by
  unfold State.replayBell
  split <;> simp

@[simp] theorem view_State_rebuilt (s : State) :
    view (State.rebuilt s) = view s := by
  simp [State.rebuilt, view_foldl]

@[simp] theorem view_State_runL5s (s : State) (l : List Acting) :
    view (State.runL5s s l) = view s := by
  simp [State.runL5s, view_foldl]

@[simp] theorem view_State_l2End (s : State) :
    view (State.l2End s) = view s := by
  simp [State.l2End, view_foldl]

@[simp] theorem view_State_l2Halted (s : State) :
    view (State.l2Halted s) = view s := by
  simp [State.l2Halted]

@[simp] theorem view_State_shiftSessions (s : State) (by_ : Nat) :
    view (State.shiftSessions s by_) = view s := by
  simp [State.shiftSessions]

@[simp] theorem keeps_State_restarted {cq : State} (s : State) (hk : (view s).Keeps cq) :
    (view (State.restarted s)).Keeps cq := by
  simp [State.restarted, hk]

@[simp] theorem keeps_State_waitForLoad {cq : State} (s : State) (hk : (view s).Keeps cq) :
    (view (State.waitForLoad s)).Keeps cq := by
  unfold State.waitForLoad
  try dsimp only
  repeat' split
  all_goals first
    | with_reducible rfl
    | (simp +contextual (maxDischargeDepth := 9) [*, view_foldl, keeps_foldl]; done)
    | (rename_i h; have h2 := congrArg (fun z => view z.1) h; simp at h2; simp +contextual (maxDischargeDepth := 9) [← h2, hk, view_foldl, keeps_foldl]; done)
    | (refine keeps_foldl _ (fun t x hx => ?_) _ _ (by simp +contextual (maxDischargeDepth := 9) [*, view_foldl, keeps_foldl]; done); try dsimp only
       repeat' split
       all_goals (simp +contextual (maxDischargeDepth := 9) [*, view_foldl, keeps_foldl]; done))

end Sys2Proof.Laws
end

