-- ==== Sys2Proof/Laws/ViewExec1.lean ====
section
/-! SUPPORT. What the commands of the launch path, the partitions, the network and the abort sequencer do to the view of a state: one lemma each, from the definition;
`view_` where the view stays, `keeps_` where a byte memory or a timeout is written and the invariant stays. -/

namespace Sys2Proof.Laws
open Sys2Proof Sys2Proof.Machine Sys2Proof.Safety
set_option linter.unusedSimpArgs false
set_option linter.unusedVariables false
set_option linter.unreachableTactic false
set_option linter.unusedTactic false

theorem view_execFetchRead {t : State} (s : State) (h : (execFetchRead s) = .next t) :
    view t = view s := by
  cases h
  simp

theorem view_execCommandCheck {t : State} (slot : Fin 512) (s : State) (h : (execCommandCheck slot s) = .next t) :
    view t = view s := by
  cases h
  simp

theorem view_execRelocate {t : State} (slot : Fin 512) (seq : BitVec 32) (s : State) (h :
    (execRelocate slot seq s) = .next t) :
    view t = view s := by
  cases h
  simp

theorem keeps_execAcceptancePoint {cq : State} {t : State} (slot : Fin 512) (seq : BitVec 32) (s : State) (hk :
    (view s).Keeps cq) (h : (execAcceptancePoint slot seq s) = .next t) :
    (view t).Keeps cq := by
  cases h
  simp [*]

theorem view_execNop {t : State} (slot : Fin 512) (seq : BitVec 32) (s : State) (h : (execNop slot seq s) = .next t) :
    view t = view s := by
  unfold execNop at h
  repeat' split at h
  all_goals
    cases h
    simp

theorem view_execBarrier {t : State} (slot : Fin 512) (seq : BitVec 32) (s : State) (h :
    (execBarrier slot seq s) = .next t) :
    view t = view s := by
  unfold execBarrier at h
  repeat' split at h
  all_goals
    cases h
    simp

theorem view_execSignal {t : State} (slot : Fin 512) (seq : BitVec 32) (s : State) (h :
    (execSignal slot seq s) = .next t) :
    view t = view s := by
  unfold execSignal at h
  repeat' split at h
  all_goals
    cases h
    simp

theorem view_execWait {t : State} (slot : Fin 512) (seq : BitVec 32) (s : State) (h :
    (execWait slot seq s) = .next t) :
    view t = view s := by
  unfold execWait at h
  repeat' split at h
  all_goals
    cases h
    simp

theorem view_execLaunchGraph {t : State} (slot : Fin 512) (seq : BitVec 32) (s : State) (h :
    (execLaunchGraph slot seq s) = .next t) :
    view t = view s := by
  unfold execLaunchGraph at h
  repeat' split at h
  all_goals
    cases h
    simp

theorem view_execScoreboardAdmit {t : State} (s : State) (h : (execScoreboardAdmit s) = .next t) :
    view t = view s := by
  cases h
  simp

theorem view_execWaitTimeout {t : State} (slot : Fin 512) (seq : BitVec 32) (s : State) (h :
    (execWaitTimeout slot seq s) = .next t) :
    view t = view s := by
  unfold execWaitTimeout at h
  repeat' split at h
  all_goals
    cases h
    simp

theorem view_execPriorityQueueInsert {t : State} (slot : Fin 512) (seq : BitVec 32) (s : State) (h :
    (execPriorityQueueInsert slot seq s) = .next t) :
    view t = view s := by
  cases h
  simp

theorem keeps_execCopy {cq : State} {t : State} (slot : Fin 512) (seq : BitVec 32) (s : State) (hk :
    (view s).Keeps cq) (h : (execCopy slot seq s) = .next t) :
    (view t).Keeps cq := by
  unfold execCopy at h
  repeat' split at h
  all_goals
    cases h
    simp [hk]

theorem keeps_execFill {cq : State} {t : State} (slot : Fin 512) (seq : BitVec 32) (s : State) (hk :
    (view s).Keeps cq) (h : (execFill slot seq s) = .next t) :
    (view t).Keeps cq := by
  unfold execFill at h
  split at h
  · cases h
    split
    · split
      · simpa using hk
      · split
        all_goals
          rename_i hd
          simpa using keeps_of_writeDva hd hk
    · exact hk
  · cases h; exact hk

theorem view_execHandleBind {t : State} (slot : Fin 512) (seq : BitVec 32) (s : State) (h :
    (execHandleBind slot seq s) = .next t) :
    view t = view s := by
  unfold execHandleBind at h
  try dsimp only at h
  repeat' split at h
  all_goals first
    | (simp at h; done)
    | (cases h; simp (maxDischargeDepth := 9) [*, view_foldl]; done)
    | (simp at h; subst h; simp (maxDischargeDepth := 9) [*, view_foldl]; done)

theorem view_execHandleFree {t : State} (slot : Fin 512) (seq : BitVec 32) (s : State) (h :
    (execHandleFree slot seq s) = .next t) :
    view t = view s := by
  unfold execHandleFree at h
  try dsimp only at h
  repeat' split at h
  all_goals first
    | (simp at h; done)
    | (cases h; simp (maxDischargeDepth := 9) [*, view_foldl]; done)
    | (simp at h; subst h; simp (maxDischargeDepth := 9) [*, view_foldl]; done)

theorem view_execPatch {t : State} (slot : Fin 512) (seq : BitVec 32) (s : State) (h :
    (execPatch slot seq s) = .next t) :
    view t = view s := by
  unfold execPatch at h
  repeat' split at h
  all_goals
    cases h
    simp

theorem keeps_execCompletionRecordWrite {cq : State} {t : State} (slot : Fin 512) (seq : BitVec 32) (s : State)
    (hk : (view s).Keeps cq) (h : (execCompletionRecordWrite slot seq s) = .next t) :
    (view t).Keeps cq := by
  cases h
  simp [*]

theorem keeps_execRecordAck {cq : State} {t : State} (slot : Fin 512) (seq : BitVec 32) (status : Status)
    (s : State) (hk : (view s).Keeps cq) (h : (execRecordAck slot seq status s) = .next t) :
    (view t).Keeps cq := by
  cases h
  simp [*]

theorem view_execIrqHoldoffExpiry {t : State} (slot : Fin 512) (s : State) (h :
    (execIrqHoldoffExpiry slot s) = .next t) :
    view t = view s := by
  unfold execIrqHoldoffExpiry at h
  repeat' split at h
  all_goals
    cases h
    simp

theorem view_execProgressTimeout {t : State} (slot : Fin 512) (seq : BitVec 32) (s : State) (h :
    (execProgressTimeout slot seq s) = .next t) :
    view t = view s := by
  unfold execProgressTimeout at h
  repeat' split at h
  all_goals
    cases h
    simp

theorem keeps_execResetRecord {cq : State} {t : State} (slot : Fin 512) (status : Status) (s : State) (hk :
    (view s).Keeps cq) (h : (execResetRecord slot status s) = .next t) :
    (view t).Keeps cq := by
  cases h
  simp [*]

theorem keeps_execStatusWriteBack {cq : State} {t : State} (slot : Fin 512) (status : Status) (s : State) (hk :
    (view s).Keeps cq) (h : (execStatusWriteBack slot status s) = .next t) :
    (view t).Keeps cq := by
  cases h
  simp [*]

theorem view_execScan {t : State} (s : State) (h : (execScan s) = .next t) :
    view t = view s := by
  cases h
  simp

theorem view_execGrantAck {t : State} (p : Fin 16) (s : State) (h : (execGrantAck p s) = .next t) :
    view t = view s := by
  cases h
  simp

theorem view_execFusionChangeComplete {t : State} (c : Fin 4) (s : State) (h :
    (execFusionChangeComplete c s) = .next t) :
    view t = view s := by
  cases h
  simp

theorem view_execMachineCheck {t : State} (p : Fin 16) (cause : Nat) (location : BitVec 27) (s : State) (h :
    (execMachineCheck p cause location s) = .next t) :
    view t = view s := by
  cases h
  simp

theorem view_execMcheckReport {t : State} (p : Fin 16) (s : State) (h : (execMcheckReport p s) = .next t) :
    view t = view s := by
  cases h
  simp

theorem view_execCurrentGrantRequest {t : State} (p : Fin 16) (s : State) (h :
    (execCurrentGrantRequest p s) = .next t) :
    view t = view s := by
  cases h
  simp

theorem view_execTileStartReport {t : State} (p : Fin 16) (s : State) (h : (execTileStartReport p s) = .next t) :
    view t = view s := by
  unfold execTileStartReport at h
  repeat' split at h
  all_goals
    cases h
    simp

theorem view_execTileEnd {t : State} (p : Fin 16) (work : List TileOp) (s : State) (h :
    (execTileEnd p work s) = .next t) :
    view t = view s := by
  cases h
  simp

theorem view_execTileOverrun {t : State} (p : Fin 16) (s : State) (h : (execTileOverrun p s) = .next t) :
    view t = view s := by
  unfold execTileOverrun at h
  repeat' split at h
  all_goals
    cases h
    simp

theorem view_execPreempt {t : State} (p : Fin 16) (s : State) (h : (execPreempt p s) = .next t) :
    view t = view s := by
  cases h
  simp

theorem keeps_execSaveReport {cq : State} {t : State} (p : Fin 16) (s : State) (hk : (view s).Keeps cq) (h :
    (execSaveReport p s) = .next t) :
    (view t).Keeps cq := by
  cases h
  simp [*]

theorem view_execEndReport {t : State} (p : Fin 16) (s : State) (h : (execEndReport p s) = .next t) :
    view t = view s := by
  cases h
  simp

theorem view_execSkimBlockSend {t : State} (g : Fin 8) (s : State) (h : (execSkimBlockSend g s) = .next t) :
    view t = view s := by
  cases h
  simp

theorem view_execSlotCredit {t : State} (g : Fin 8) (p : Fin 16) (s : State) (h : (execSlotCredit g p s) = .next t) :
    view t = view s := by
  cases h
  simp

theorem view_execSkimHoldExpiry {t : State} (g : Fin 8) (s : State) (h : (execSkimHoldExpiry g s) = .next t) :
    view t = view s := by
  unfold execSkimHoldExpiry at h
  repeat' split at h
  all_goals
    cases h
    simp

theorem keeps_execRd {cq : State} {t : State} (pkt : Pkt) (dma : Dma) (s : State) (hk : (view s).Keeps cq) (h :
    (execRd pkt dma s) = .next t) :
    (view t).Keeps cq := by
  unfold execRd at h
  repeat' split at h
  all_goals first
    | (simp at h; done)
    | (cases h; simpa using hk)
    | (cases h; exact keeps_State_dmaRequest _ _ _ _ (fun q t ht => keeps_State_performOrWait _ _ ht) hk)

theorem keeps_execWr {cq : State} {t : State} (pkt : Pkt) (data : List Byte) (dma : Dma) (s : State) (hk :
    (view s).Keeps cq) (h : (execWr pkt data dma s) = .next t) :
    (view t).Keeps cq := by
  unfold execWr at h
  repeat' split at h
  all_goals first
    | (simp at h; done)
    | (cases h; simpa using hk)
    | (cases h; exact keeps_State_dmaRequest _ _ _ _ (fun q t ht => keeps_State_performOrWait _ _ ht) hk)

theorem view_execWalk {t : State} (pkt : Pkt) (dva : Nat) (write : Bool) (s : State) (h :
    (execWalk pkt dva write s) = .next t) :
    view t = view s := by
  cases h
  simp

theorem view_execIrq {t : State} (pkt : Pkt) (vector : Nat) (s : State) (h : (execIrq pkt vector s) = .next t) :
    view t = view s := by
  cases h
  simp

theorem view_execRdRsp {t : State} (pkt : Pkt) (poisoned : Bool) (s : State) (h :
    (execRdRsp pkt poisoned s) = .next t) :
    view t = view s := by
  cases h
  simp

theorem view_execWrAck {t : State} (pkt : Pkt) (s : State) (h : (execWrAck pkt s) = .next t) :
    view t = view s := by
  cases h
  simp

theorem view_execRegRsp {t : State} (pkt : Pkt) (s : State) (h : (execRegRsp pkt s) = .next t) :
    view t = view s := by
  cases h
  simp

theorem view_execVoidPkt {t : State} (pkt : Pkt) (s : State) (h : (execVoidPkt pkt s) = .next t) :
    view t = view s := by
  cases h
  simp

theorem view_execSkim {t : State} (pkt : Pkt) (p : Fin 16) (s : State) (h : (execSkim pkt p s) = .next t) :
    view t = view s := by
  unfold execSkim at h
  cases h
  dsimp only
  repeat' split
  all_goals first
    | rfl
    | (simp; done)
    | (refine (view_State_control _ _ _ _ (fun t => ?_)).trans ?_
       · repeat' split
         all_goals simp
       · simp)

theorem view_execToken {t : State} (p : Fin 16) (edge : Fin 32) (final : Bool) (marker : Bool) (pkt : Pkt)
    (s : State) (h : (execToken p edge final marker pkt s) = .next t) :
    view t = view s := by
  unfold execToken at h
  cases h
  refine view_State_relayPacket _ _ _ _ (fun c r t => ?_)
  repeat' split
  all_goals simp

theorem view_execCredit {t : State} (p : Fin 16) (edge : Fin 32) (pkt : Pkt) (s : State) (h :
    (execCredit p edge pkt s) = .next t) :
    view t = view s := by
  unfold execCredit at h
  cases h
  refine view_State_relayPacket _ _ _ _ (fun c r t => ?_)
  repeat' split
  all_goals simp

theorem view_execTicketReq {t : State} (pkt : Pkt) (count : Nat) (s : State) (h :
    (execTicketReq pkt count s) = .next t) :
    view t = view s := by
  cases h
  simp

theorem view_execTicketGrant {t : State} (pkt : Pkt) (count : Nat) (s : State) (h :
    (execTicketGrant pkt count s) = .next t) :
    view t = view s := by
  unfold execTicketGrant at h
  try dsimp only at h
  repeat' split at h
  all_goals first
    | (simp at h; done)
    | (cases h; simp (maxDischargeDepth := 9) [*, view_foldl]; done)
    | (simp at h; subst h; simp (maxDischargeDepth := 9) [*, view_foldl]; done)

theorem view_execGenUpdate {t : State} (node : Fin 24) (n : Fin 33) (gen : BitVec 16) (s : State) (h :
    (execGenUpdate node n gen s) = .next t) :
    view t = view s := by
  cases h
  simp

theorem view_execGenAck {t : State} (node : Fin 24) (n : Fin 33) (s : State) (h : (execGenAck node n s) = .next t) :
    view t = view s := by
  cases h
  simp

theorem view_execInitiatorTimeout {t : State} (src : Fin 24) (tag : Fin 1024) (s : State) (h :
    (execInitiatorTimeout src tag s) = .next t) :
    view t = view s := by
  unfold execInitiatorTimeout at h
  try dsimp only at h
  repeat' split at h
  all_goals first
    | (simp at h; done)
    | (cases h; simp (maxDischargeDepth := 9) [*, view_foldl]; done)
    | (simp at h; subst h; simp (maxDischargeDepth := 9) [*, view_foldl]; done)

theorem view_execLinkFatalIntervalEnd {t : State} (p : Fin 16) (s : State) (h :
    (execLinkFatalIntervalEnd p s) = .next t) :
    view t = view s := by
  unfold execLinkFatalIntervalEnd at h
  repeat' split at h
  all_goals
    cases h
    simp

theorem view_execBridgeRetrained {t : State} (s : State) (h : (execBridgeRetrained s) = .next t) :
    view t = view s := by
  cases h
  simp

theorem view_execReservedTypePacket {t : State} (pkt : Pkt) (s : State) (h :
    (execReservedTypePacket pkt s) = .next t) :
    view t = view s := by
  cases h
  simp

theorem keeps_execShareWindow {cq : State} {t : State} (s : State) (hk : (view s).Keeps cq) (h :
    (execShareWindow s) = .next t) :
    (view t).Keeps cq := by
  cases h
  exact keeps_State_releaseWaiting _ (by simpa using hk)

theorem view_execDrainRoundStart {t : State} (s : State) (h : (execDrainRoundStart s) = .next t) :
    view t = view s := by
  cases h
  simp

theorem keeps_execDrainRoundEnd {cq : State} {t : State} (s : State) (hk : (view s).Keeps cq) (h :
    (execDrainRoundEnd s) = .next t) :
    (view t).Keeps cq := by
  cases h
  simp [*]

theorem view_execFreezeComplete {t : State} (n : Fin 33) (s : State) (h : (execFreezeComplete n s) = .next t) :
    view t = view s := by
  cases h
  simp

theorem view_execFreezeTimeout {t : State} (n : Fin 33) (s : State) (h : (execFreezeTimeout n s) = .next t) :
    view t = view s := by
  cases h
  simp

end Sys2Proof.Laws
end

