-- ==== Sys2Proof/Laws/ViewExec2.lean ====
section
/-! SUPPORT. What the commands of the mailbox, the management link and the management core do to the view of a state: one lemma each, from the definition;
`view_` where the view stays, `keeps_` where a byte memory or a timeout is written and the invariant stays. -/

namespace Sys2Proof.Laws
open Sys2Proof Sys2Proof.Machine Sys2Proof.Safety
set_option linter.unusedSimpArgs false
set_option linter.unusedVariables false
set_option linter.unreachableTactic false
set_option linter.unusedTactic false

theorem view_execEmuWriteApply {t : State} (fn : Fin 33) (s : State) (h : (execEmuWriteApply fn s) = .next t) :
    view t = view s := by
  cases h
  simp

theorem view_execShadowPublish {t : State} (fn : Fin 33) (s : State) (h : (execShadowPublish fn s) = .next t) :
    view t = view s := by
  cases h
  simp

theorem view_execHostLossExpiry {t : State} (s : State) (h : (execHostLossExpiry s) = .next t) :
    view t = view s := by
  cases h
  simp

theorem view_execFwBegin {t : State} (s : State) (h : (execFwBegin s) = .next t) :
    view t = view s := by
  cases h
  simp

theorem view_execFwCommit {t : State} (s : State) (h : (execFwCommit s) = .next t) :
    view t = view s := by
  cases h
  simp

theorem view_execHeartbeatWrite {t : State} (value : BitVec 32) (s : State) (h :
    (execHeartbeatWrite value s) = .next t) :
    view t = view s := by
  cases h
  simp

theorem keeps_execSwReset {cq : State} {t : State} (value : BitVec 32) (s : State) (hk : (view s).Keeps cq) (h :
    (execSwReset value s) = .next t) :
    (view t).Keeps cq := by
  unfold execSwReset at h
  cases h
  split <;> simp [*]

theorem keeps_execMgcWatchdog {cq : State} {t : State} (s : State) (hk : (view s).Keeps cq) (h :
    (execMgcWatchdog s) = .next t) :
    (view t).Keeps cq := by
  unfold execMgcWatchdog at h
  cases h
  split <;> simp [*]

theorem keeps_execStackingFault {cq : State} {t : State} (sp : BitVec 32) (s : State) (hk : (view s).Keeps cq) (h :
    (execStackingFault sp s) = .next t) :
    (view t).Keeps cq := by
  unfold execStackingFault at h
  cases h
  split
  · exact keeps_State_actSource _ _ _ (by simpa using hk)
  · exact hk

theorem keeps_execCoreFault {cq : State} {t : State} (s : State) (hk : (view s).Keeps cq) (h :
    (execCoreFault s) = .next t) :
    (view t).Keeps cq := by
  unfold execCoreFault at h
  cases h
  split
  · exact keeps_State_actSource _ _ _ (by simpa using hk)
  · exact hk

theorem view_execUndefinedMessage {t : State} (mb : Fin 33) (h : MsgHdr) (_payload : List Byte) (s : State) (h :
    (execUndefinedMessage mb h _payload s) = .next t) :
    view t = view s := by
  cases h
  simp

theorem view_execNopMessage {t : State} (mb : Fin 33) (h : MsgHdr) (payload : List Byte) (s : State) (h :
    (execNopMessage mb h payload s) = .next t) :
    view t = view s := by
  cases h
  simp

theorem view_execQueueCreate {t : State} (mb : Fin 33) (h : MsgHdr) (payload : List Byte) (s : State) (h :
    (execQueueCreate mb h payload s) = .next t) :
    view t = view s := by
  unfold execQueueCreate at h
  cases h
  exact view_State_viaPort _ _ _ _ _ _ _ (view_queueCreateBody _)

theorem view_execQueueDestroy {t : State} (mb : Fin 33) (h : MsgHdr) (payload : List Byte) (s : State) (h :
    (execQueueDestroy mb h payload s) = .next t) :
    view t = view s := by
  unfold execQueueDestroy at h
  cases h
  exact view_State_viaPort _ _ _ _ _ _ _ (view_queueDestroyBody _)

theorem view_execQueueReset {t : State} (mb : Fin 33) (h : MsgHdr) (payload : List Byte) (s : State) (h :
    (execQueueReset mb h payload s) = .next t) :
    view t = view s := by
  unfold execQueueReset at h
  cases h
  exact view_State_viaPort _ _ _ _ _ _ _ (view_queueResetBody _)

theorem keeps_execSemSet {cq : State} {t : State} (mb : Fin 33) (h : MsgHdr) (payload : List Byte) (s : State) (hk :
    (view s).Keeps cq) (h : (execSemSet mb h payload s) = .next t) :
    (view t).Keeps cq := by
  unfold execSemSet at h
  cases h
  exact keeps_State_viaPort _ _ _ _ _ _ _ (fun t b ht => keeps_semSetBody _ t b ht) hk

theorem view_execGraphRegister {t : State} (mb : Fin 33) (h : MsgHdr) (payload : List Byte) (host : List Byte)
    (s : State) (h : (execGraphRegister mb h payload host s) = .next t) :
    view t = view s := by
  unfold execGraphRegister at h
  cases h
  split
  · rfl
  exact view_State_viaPort _ _ _ _ _ _ _ (view_graphRegisterBody _ _)

theorem view_execGraphRelease {t : State} (mb : Fin 33) (h : MsgHdr) (payload : List Byte) (s : State) (h :
    (execGraphRelease mb h payload s) = .next t) :
    view t = view s := by
  unfold execGraphRelease at h
  cases h
  refine view_State_ownMessage _ _ _ _ _ _ (fun t b => ?_)
  try dsimp only
  repeat' split
  all_goals simp

theorem view_execGraphQuery {t : State} (mb : Fin 33) (h : MsgHdr) (payload : List Byte) (s : State) (h :
    (execGraphQuery mb h payload s) = .next t) :
    view t = view s := by
  unfold execGraphQuery at h
  cases h
  refine view_State_message _ _ _ _ _ _ (fun t b => ?_)
  try dsimp only
  repeat' split
  all_goals simp

theorem view_execContractAdmit {t : State} (mb : Fin 33) (h : MsgHdr) (payload : List Byte) (s : State) (h :
    (execContractAdmit mb h payload s) = .next t) :
    view t = view s := by
  unfold execContractAdmit at h
  cases h
  exact view_State_viaPort _ _ _ _ _ _ _ (view_contractAdmitBody _)

theorem view_execContractRelease {t : State} (mb : Fin 33) (h : MsgHdr) (payload : List Byte) (s : State) (h :
    (execContractRelease mb h payload s) = .next t) :
    view t = view s := by
  unfold execContractRelease at h
  cases h
  exact view_State_viaPort _ _ _ _ _ _ _ (view_contractReleaseBody _)

theorem view_execContractQuery {t : State} (mb : Fin 33) (h : MsgHdr) (payload : List Byte) (s : State) (h :
    (execContractQuery mb h payload s) = .next t) :
    view t = view s := by
  unfold execContractQuery at h
  cases h
  refine view_State_message _ _ _ _ _ _ (fun t b => ?_)
  try dsimp only
  repeat' split
  all_goals simp

theorem view_execInstanceInfo {t : State} (mb : Fin 33) (h : MsgHdr) (payload : List Byte) (s : State) (h :
    (execInstanceInfo mb h payload s) = .next t) :
    view t = view s := by
  cases h
  simp

theorem view_execMailboxClose {t : State} (mb : Fin 33) (h : MsgHdr) (payload : List Byte) (s : State) (h :
    (execMailboxClose mb h payload s) = .next t) :
    view t = view s := by
  unfold execMailboxClose at h
  cases h
  refine view_State_ownMessage _ _ _ _ _ _ (fun t b => ?_)
  simp

theorem view_execInstanceCreate {t : State} (mb : Fin 33) (h : MsgHdr) (payload : List Byte) (s : State) (h :
    (execInstanceCreate mb h payload s) = .next t) :
    view t = view s := by
  unfold execInstanceCreate at h
  cases h
  refine view_State_message _ _ _ _ _ _ (fun t b => ?_)
  try dsimp only
  repeat' split
  all_goals simp

theorem keeps_execInstanceQuiesce {cq : State} {t : State} (mb : Fin 33) (h : MsgHdr) (payload : List Byte)
    (s : State) (hk : (view s).Keeps cq) (h : (execInstanceQuiesce mb h payload s) = .next t) :
    (view t).Keeps cq := by
  unfold execInstanceQuiesce at h
  cases h
  split
  · exact hk
  refine keeps_State_message _ _ _ _ _ _ (fun t b ht => ?_) hk
  try dsimp only
  repeat' split
  all_goals simp [ht]

theorem view_execInstanceRemove {t : State} (mb : Fin 33) (h : MsgHdr) (payload : List Byte) (s : State) (h :
    (execInstanceRemove mb h payload s) = .next t) :
    view t = view s := by
  unfold execInstanceRemove at h
  cases h
  refine view_State_message _ _ _ _ _ _ (fun t b => ?_)
  try dsimp only
  repeat' split
  all_goals simp

theorem keeps_execInstanceReset {cq : State} {t : State} (mb : Fin 33) (h : MsgHdr) (payload : List Byte)
    (s : State) (hk : (view s).Keeps cq) (h : (execInstanceReset mb h payload s) = .next t) :
    (view t).Keeps cq := by
  unfold execInstanceReset at h
  cases h
  split
  · exact hk
  refine keeps_State_message _ _ _ _ _ _ (fun t b ht => ?_) hk
  try dsimp only
  repeat' split
  all_goals simp [ht]

theorem view_execPartAssign {t : State} (mb : Fin 33) (h : MsgHdr) (payload : List Byte) (s : State) (h :
    (execPartAssign mb h payload s) = .next t) :
    view t = view s := by
  unfold execPartAssign at h
  cases h
  refine view_State_message _ _ _ _ _ _ (fun t b => ?_)
  try dsimp only
  repeat' split
  all_goals simp

theorem view_execPartRevoke {t : State} (mb : Fin 33) (h : MsgHdr) (payload : List Byte) (s : State) (h :
    (execPartRevoke mb h payload s) = .next t) :
    view t = view s := by
  unfold execPartRevoke at h
  cases h
  refine view_State_message _ _ _ _ _ _ (fun t b => ?_)
  try dsimp only
  split
  · simp
  · exact view_applyOr _ _ _ (fun u hu => view_State_revoke _ _ _ hu)

theorem view_execRoleBind {t : State} (mb : Fin 33) (h : MsgHdr) (payload : List Byte) (s : State) (h :
    (execRoleBind mb h payload s) = .next t) :
    view t = view s := by
  unfold execRoleBind at h
  cases h
  exact view_State_viaPort _ _ _ _ _ _ _ (view_roleBindBody _)

theorem view_execRoleUnbind {t : State} (mb : Fin 33) (h : MsgHdr) (payload : List Byte) (s : State) (h :
    (execRoleUnbind mb h payload s) = .next t) :
    view t = view s := by
  unfold execRoleUnbind at h
  cases h
  exact view_State_viaPort _ _ _ _ _ _ _ (view_roleUnbindBody _)

theorem keeps_execServiceRequest {cq : State} {t : State} (s : State) (hk : (view s).Keeps cq) (h :
    (execServiceRequest s) = .next t) :
    (view t).Keeps cq := by
  unfold execServiceRequest at h
  cases h
  repeat' split
  all_goals simp [hk]

theorem view_execFreeze {t : State} (mb : Fin 33) (h : MsgHdr) (payload : List Byte) (s : State) (h :
    (execFreeze mb h payload s) = .next t) :
    view t = view s := by
  unfold execFreeze at h
  cases h
  refine view_State_message _ _ _ _ _ _ (fun t b => ?_)
  try dsimp only
  repeat' split
  all_goals simp

theorem keeps_execSave {cq : State} {t : State} (mb : Fin 33) (h : MsgHdr) (payload : List Byte) (s : State) (hk :
    (view s).Keeps cq) (h : (execSave mb h payload s) = .next t) :
    (view t).Keeps cq := by
  unfold execSave at h
  cases h
  split
  · exact hk
  refine keeps_State_message _ _ _ _ _ _ (fun t b ht => ?_) hk
  try dsimp only
  repeat' split
  all_goals simp [ht]

theorem keeps_execRestore {cq : State} {t : State} (mb : Fin 33) (h : MsgHdr) (payload : List Byte)
    (host : List Byte) (sections : Blob) (s : State) (hk : (view s).Keeps cq) (h :
    (execRestore mb h payload host sections s) = .next t) :
    (view t).Keeps cq := by
  unfold execRestore at h
  cases h
  split
  · exact hk
  · refine keeps_State_message _ _ _ _ _ _ (fun t b ht => ?_) hk
    dsimp only
    repeat' split
    all_goals first
      | (simpa using ht; done)
      | exact keeps_State_restoreBlob _ _ _ _ _ (by simpa using ht)

theorem keeps_execThaw {cq : State} {t : State} (mb : Fin 33) (h : MsgHdr) (payload : List Byte) (s : State) (hk :
    (view s).Keeps cq) (h : (execThaw mb h payload s) = .next t) :
    (view t).Keeps cq := by
  unfold execThaw at h
  cases h
  split
  · exact hk
  refine keeps_State_message _ _ _ _ _ _ (fun t b ht => ?_) hk
  try dsimp only
  repeat' split
  all_goals simp [ht]

theorem keeps_execAttach {cq : State} {t : State} (mb : Fin 33) (h : MsgHdr) (payload : List Byte) (s : State) (hk :
    (view s).Keeps cq) (h : (execAttach mb h payload s) = .next t) :
    (view t).Keeps cq := by
  unfold execAttach at h
  cases h
  refine keeps_State_message _ _ _ _ _ _ (fun t b ht => ?_) hk
  try dsimp only
  repeat' split
  all_goals simp [ht]

theorem keeps_execRead {cq : State} {t : State} (path : Path) (f : UFrame) (s : State) (hk : (view s).Keeps cq) (h :
    (execRead path f s) = .next t) :
    (view t).Keeps cq := by
  cases h
  simp [*]

theorem keeps_execWrite {cq : State} {t : State} (path : Path) (f : UFrame) (s : State) (hk : (view s).Keeps cq)
    (h : (execWrite path f s) = .next t) :
    (view t).Keeps cq := by
  cases h
  simp [*]

theorem keeps_execWriteCond {cq : State} {t : State} (path : Path) (f : UFrame) (s : State) (hk : (view s).Keeps cq)
    (h : (execWriteCond path f s) = .next t) :
    (view t).Keeps cq := by
  cases h
  simp [*]

theorem keeps_execSegReadStart {cq : State} {t : State} (path : Path) (f : UFrame) (s : State) (hk :
    (view s).Keeps cq) (h : (execSegReadStart path f s) = .next t) :
    (view t).Keeps cq := by
  cases h
  simp [*]

theorem keeps_execSegRead {cq : State} {t : State} (path : Path) (f : UFrame) (s : State) (hk : (view s).Keeps cq)
    (h : (execSegRead path f s) = .next t) :
    (view t).Keeps cq := by
  cases h
  simp [*]

theorem keeps_execSegWriteStart {cq : State} {t : State} (path : Path) (f : UFrame) (s : State) (hk :
    (view s).Keeps cq) (h : (execSegWriteStart path f s) = .next t) :
    (view t).Keeps cq := by
  cases h
  simp [*]

theorem keeps_execSegWrite {cq : State} {t : State} (path : Path) (f : UFrame) (s : State) (hk : (view s).Keeps cq)
    (h : (execSegWrite path f s) = .next t) :
    (view t).Keeps cq := by
  cases h
  simp [*]

theorem keeps_execSegAbort {cq : State} {t : State} (path : Path) (f : UFrame) (s : State) (hk : (view s).Keeps cq)
    (h : (execSegAbort path f s) = .next t) :
    (view t).Keeps cq := by
  cases h
  simp [*]

theorem view_execSegSessionTimeout {t : State} (path : Path) (s : State) (h :
    (execSegSessionTimeout path s) = .next t) :
    view t = view s := by
  cases h
  simp

theorem keeps_execResetReq {cq : State} {t : State} (path : Path) (f : UFrame) (s : State) (hk : (view s).Keeps cq)
    (h : (execResetReq path f s) = .next t) :
    (view t).Keeps cq := by
  cases h
  simp [*]

theorem keeps_execAlertAck {cq : State} {t : State} (path : Path) (f : UFrame) (s : State) (hk : (view s).Keeps cq)
    (h : (execAlertAck path f s) = .next t) :
    (view t).Keeps cq := by
  cases h
  simp [*]

theorem keeps_execClaim {cq : State} {t : State} (path : Path) (f : UFrame) (s : State) (hk : (view s).Keeps cq)
    (h : (execClaim path f s) = .next t) :
    (view t).Keeps cq := by
  cases h
  simp [*]

theorem keeps_execStore {cq : State} {t : State} (path : Path) (f : UFrame) (s : State) (hk : (view s).Keeps cq)
    (h : (execStore path f s) = .next t) :
    (view t).Keeps cq := by
  cases h
  simp [*]

theorem keeps_execRestoreDefault {cq : State} {t : State} (path : Path) (f : UFrame) (s : State) (hk :
    (view s).Keeps cq) (h : (execRestoreDefault path f s) = .next t) :
    (view t).Keeps cq := by
  cases h
  simp [*]

theorem keeps_execHostLossMs {cq : State} {t : State} (path : Path) (f : UFrame) (s : State) (hk :
    (view s).Keeps cq) (h : (execHostLossMs path f s) = .next t) :
    (view t).Keeps cq := by
  cases h
  simp [*]

theorem keeps_execLinkLossMs {cq : State} {t : State} (path : Path) (f : UFrame) (s : State) (hk :
    (view s).Keeps cq) (h : (execLinkLossMs path f s) = .next t) :
    (view t).Keeps cq := by
  cases h
  simp [*]

theorem keeps_execEnable {cq : State} {t : State} (path : Path) (f : UFrame) (s : State) (hk : (view s).Keeps cq)
    (h : (execEnable path f s) = .next t) :
    (view t).Keeps cq := by
  cases h
  simp [*]

theorem keeps_execRetire {cq : State} {t : State} (path : Path) (f : UFrame) (s : State) (hk : (view s).Keeps cq)
    (h : (execRetire path f s) = .next t) :
    (view t).Keeps cq := by
  cases h
  simp [*]

theorem keeps_execPartitionReset {cq : State} {t : State} (path : Path) (f : UFrame) (s : State) (hk :
    (view s).Keeps cq) (h : (execPartitionReset path f s) = .next t) :
    (view t).Keeps cq := by
  cases h
  simp [*]

theorem keeps_execPrivShareMbps {cq : State} {t : State} (path : Path) (f : UFrame) (s : State) (hk :
    (view s).Keeps cq) (h : (execPrivShareMbps path f s) = .next t) :
    (view t).Keeps cq := by
  cases h
  simp [*]

theorem keeps_execPowerStateReq {cq : State} {t : State} (path : Path) (f : UFrame) (s : State) (hk :
    (view s).Keeps cq) (h : (execPowerStateReq path f s) = .next t) :
    (view t).Keeps cq := by
  cases h
  simp [*]

theorem keeps_execBudgetMw {cq : State} {t : State} (path : Path) (f : UFrame) (s : State) (hk : (view s).Keeps cq)
    (h : (execBudgetMw path f s) = .next t) :
    (view t).Keeps cq := by
  cases h
  simp [*]

theorem keeps_execVerify {cq : State} {t : State} (path : Path) (f : UFrame) (s : State) (hk : (view s).Keeps cq)
    (h : (execVerify path f s) = .next t) :
    (view t).Keeps cq := by
  cases h
  simp [*]

theorem keeps_execActivate {cq : State} {t : State} (path : Path) (f : UFrame) (s : State) (hk : (view s).Keeps cq)
    (h : (execActivate path f s) = .next t) :
    (view t).Keeps cq := by
  cases h
  simp [*]

theorem keeps_execConfirm {cq : State} {t : State} (path : Path) (f : UFrame) (s : State) (hk : (view s).Keeps cq)
    (h : (execConfirm path f s) = .next t) :
    (view t).Keeps cq := by
  cases h
  simp [*]

theorem keeps_execCalRecord {cq : State} {t : State} (path : Path) (value : List Byte) (s : State) (hk :
    (view s).Keeps cq) (h : (execCalRecord path value s) = .next t) :
    (view t).Keeps cq := by
  cases h
  simp [*]

theorem keeps_execDownload {cq : State} {t : State} (path : Path) (value : List Byte) (s : State) (hk :
    (view s).Keeps cq) (h : (execDownload path value s) = .next t) :
    (view t).Keeps cq := by
  cases h
  simp [*]

theorem keeps_execRequestFrameError {cq : State} {t : State} (frame : List Byte) (s : State) (hk :
    (view s).Keeps cq) (h : (execRequestFrameError frame s) = .next t) :
    (view t).Keeps cq := by
  unfold execRequestFrameError at h
  cases h
  repeat' split
  all_goals simp [hk]

theorem keeps_execDictTunnel {cq : State} {t : State} (mb : Fin 33) (h : MsgHdr) (payload : List Byte) (s : State)
    (hk : (view s).Keeps cq) (h : (execDictTunnel mb h payload s) = .next t) :
    (view t).Keeps cq := by
  unfold execDictTunnel at h
  cases h
  refine keeps_State_message _ _ _ _ _ _ (fun t b ht => ?_) hk
  dsimp only
  split
  · simpa using ht
  · simp only [view_okWith, view_mk, view_fold]
    split
    · exact keeps_State_answerFrame _ _ _ _ ht
    · exact ht

theorem view_execResponseRead {t : State} (s : State) (h : (execResponseRead s) = .next t) :
    view t = view s := by
  cases h
  simp

theorem view_execEnec {t : State} (s : State) (h : (execEnec s) = .next t) :
    view t = view s := by
  cases h
  simp

theorem view_execDisec {t : State} (s : State) (h : (execDisec s) = .next t) :
    view t = view s := by
  cases h
  simp

theorem view_execRstdaa {t : State} (s : State) (h : (execRstdaa s) = .next t) :
    view t = view s := by
  cases h
  simp

theorem view_execEntdaa {t : State} (addr : BitVec 7) (s : State) (h : (execEntdaa addr s) = .next t) :
    view t = view s := by
  cases h
  simp

theorem view_execSetdasa {t : State} (addr : BitVec 7) (s : State) (h : (execSetdasa addr s) = .next t) :
    view t = view s := by
  cases h
  simp

theorem view_execSetnewda {t : State} (addr : BitVec 7) (s : State) (h : (execSetnewda addr s) = .next t) :
    view t = view s := by
  cases h
  simp

theorem view_execGetPid {t : State} (s : State) (h : (execGetPid s) = .next t) :
    view t = view s := by
  cases h
  simp

theorem view_execGetBcr {t : State} (s : State) (h : (execGetBcr s) = .next t) :
    view t = view s := by
  cases h
  simp

theorem view_execGetDcr {t : State} (s : State) (h : (execGetDcr s) = .next t) :
    view t = view s := by
  cases h
  simp

theorem view_execGetStatus {t : State} (s : State) (h : (execGetStatus s) = .next t) :
    view t = view s := by
  cases h
  simp

theorem view_execGetMwl {t : State} (s : State) (h : (execGetMwl s) = .next t) :
    view t = view s := by
  cases h
  simp

theorem view_execGetMrl {t : State} (s : State) (h : (execGetMrl s) = .next t) :
    view t = view s := by
  cases h
  simp

theorem view_execI3cBroadcastAddress {t : State} (s : State) (h : (execI3cBroadcastAddress s) = .next t) :
    view t = view s := by
  cases h
  simp

theorem view_execHdrEntry {t : State} (s : State) (h : (execHdrEntry s) = .next t) :
    view t = view s := by
  cases h
  simp

theorem view_execHdrExitPattern {t : State} (s : State) (h : (execHdrExitPattern s) = .next t) :
    view t = view s := by
  cases h
  simp

theorem view_execMgmtLinkLost {t : State} (s : State) (h : (execMgmtLinkLost s) = .next t) :
    view t = view s := by
  cases h
  simp

theorem keeps_execKeepStoreOpDone {cq : State} {t : State} (ok : Bool) (failAddr : Nat) (s : State) (hk :
    (view s).Keeps cq) (h : (execKeepStoreOpDone ok failAddr s) = .next t) :
    (view t).Keeps cq := by
  unfold execKeepStoreOpDone at h
  cases h
  split
  · exact hk
  · rename_i op rest _
    dsimp only
    split
    · rw [view_alerted, view_State_opEnded]
      exact keeps_keep hk (fun h => doSteps_wf (k := { s.keep with ops := rest }) h _)
    · rw [view_alerted, view_State_opEnded, view_State_event]
      exact keeps_keep hk (fun h => tear_wf (k := { s.keep with ops := rest }) h _ _)

end Sys2Proof.Laws
end

