-- ==== Sys2Proof/Laws/ViewExec3.lean ====
section
/-! SUPPORT. What the commands of the registers, the host link, power, the resets and recovery do to the view of a state: one lemma each, from the definition;
`view_` where the view stays, `keeps_` where a byte memory or a timeout is written and the invariant stays. -/

namespace Sys2Proof.Laws
open Sys2Proof Sys2Proof.Machine Sys2Proof.Safety
set_option linter.unusedSimpArgs false
set_option linter.unusedVariables false
set_option linter.unreachableTactic false
set_option linter.unusedTactic false

theorem keeps_execRegisterWrite {cq : State} {t : State} (fn : Fin 33) (config : Bool) (poisoned : Bool) (off : Nat)
    (data : List Byte) (s : State) (hk : (view s).Keeps cq) (h :
    (execRegisterWrite fn config poisoned off data s) = .next t) :
    (view t).Keeps cq := by
  unfold execRegisterWrite at h
  cases h
  repeat' split
  all_goals simp [hk]

theorem keeps_execDoorbellWrite {cq : State} {t : State} (fn : Fin 33) (off : Nat) (data : List Byte) (s : State)
    (hk : (view s).Keeps cq) (h : (execDoorbellWrite fn off data s) = .next t) :
    (view t).Keeps cq := by
  unfold execDoorbellWrite at h
  cases h
  repeat' split
  all_goals simp [hk]

theorem view_execDoorbell {t : State} (fn : Fin 33) (q : Fin 16) (high : Bool) (value : BitVec 32) (s : State) (h :
    (execDoorbell fn q high value s) = .next t) :
    view t = view s := by
  unfold execDoorbell at h
  try dsimp only at h
  repeat' split at h
  all_goals first
    | (simp at h; done)
    | (cases h; simp (maxDischargeDepth := 9) [*, view_foldl]; done)
    | (simp at h; subst h; simp (maxDischargeDepth := 9) [*, view_foldl]; done)

theorem view_execAbortQueue {t : State} (n : Fin 33) (q : Fin 16) (byManager : Bool) (s : State) (h :
    (execAbortQueue n q byManager s) = .next t) :
    view t = view s := by
  cases h
  simp

theorem view_execAbortInstance {t : State} (n : Fin 33) (byManager : Bool) (s : State) (h :
    (execAbortInstance n byManager s) = .next t) :
    view t = view s := by
  cases h
  simp

theorem view_execMmuInvalidateRange {t : State} (n : Fin 33) (value : BitVec 32) (s : State) (h :
    (execMmuInvalidateRange n value s) = .next t) :
    view t = view s := by
  cases h
  simp

theorem view_execMmuInvalidateAll {t : State} (n : Fin 33) (value : BitVec 32) (s : State) (h :
    (execMmuInvalidateAll n value s) = .next t) :
    view t = view s := by
  cases h
  simp

theorem view_execInvalidationDone {t : State} (n : Fin 33) (s : State) (h : (execInvalidationDone n s) = .next t) :
    view t = view s := by
  cases h
  simp

theorem view_execPrbCtlWrite {t : State} (k : Fin 32) (value : BitVec 32) (s : State) (h :
    (execPrbCtlWrite k value s) = .next t) :
    view t = view s := by
  cases h
  simp

@[simp] theorem wakeFabric_fields (s : State) :
    s.wakeFabric.mem = s.mem ∧ s.wakeFabric.keep = s.keep ∧ s.wakeFabric.pending = s.pending ∧ s.wakeFabric.net = s.net
      ∧ s.wakeFabric.link = s.link ∧ s.wakeFabric.tap = s.tap ∧ s.wakeFabric.clk = s.clk ∧ s.wakeFabric.pins = s.pins := by
  unfold State.wakeFabric; repeat' split
  all_goals simp

theorem view_execTraceCtlWrite {t : State} (value : BitVec 32) (s : State) (h :
    (execTraceCtlWrite value s) = .next t) :
    view t = view s := by
  cases h
  simp

theorem keeps_execNetTmoWrite {cq : State} {t : State} (hostLimit : Bool) (value : BitVec 32) (s : State) (hk :
    (view s).Keeps cq) (h : (execNetTmoWrite hostLimit value s) = .next t) :
    (view t).Keeps cq := by
  unfold execNetTmoWrite at h
  cases h
  split <;> simp [*]

theorem view_execEmuWrite {t : State} (fn : Fin 33) (off : Nat) (value : BitVec 32) (s : State) (h :
    (execEmuWrite fn off value s) = .next t) :
    view t = view s := by
  cases h
  simp

theorem view_execEmuRead {t : State} (fn : Fin 33) (off : Nat) (size : Nat) (s : State) (h :
    (execEmuRead fn off size s) = .next t) :
    view t = view s := by
  cases h
  simp

theorem view_execMsixVectorUnmask {t : State} (fn : Fin 33) (vector : Nat) (s : State) (h :
    (execMsixVectorUnmask fn vector s) = .next t) :
    view t = view s := by
  cases h
  simp

theorem view_execMailboxDoorbell {t : State} (fn : Fin 33) (value : BitVec 32) (s : State) (h :
    (execMailboxDoorbell fn value s) = .next t) :
    view t = view s := by
  cases h
  simp

theorem view_execRegRd {t : State} (pkt : Pkt) (s : State) (h : (execRegRd pkt s) = .next t) :
    view t = view s := by
  unfold execRegRd at h
  cases h
  split
  · simp
  · exact view_State_request _ _ _ (fun t => by simp)

theorem keeps_execRegWr {cq : State} {t : State} (pkt : Pkt) (data : BitVec 32) (s : State) (hk : (view s).Keeps cq)
    (h : (execRegWr pkt data s) = .next t) :
    (view t).Keeps cq := by
  unfold execRegWr at h
  cases h
  split
  · simpa using hk
  · rw [view_alerted]
    refine keeps_State_request _ _ _ (fun p t ht => ?_) hk
    split
    · exact keeps_State_regionWrite _ _ _ _ _ ht
    · exact ht

theorem keeps_execFlr {cq : State} {t : State} (fn : Fin 33) (s : State) (hk : (view s).Keeps cq) (h :
    (execFlr fn s) = .next t) :
    (view t).Keeps cq := by
  cases h
  simp [*]

theorem keeps_execVfEnableClear {cq : State} {t : State} (s : State) (hk : (view s).Keeps cq) (h :
    (execVfEnableClear s) = .next t) :
    (view t).Keeps cq := by
  unfold execVfEnableClear at h
  try dsimp only at h
  repeat' split at h
  all_goals first
    | (simp at h; done)
    | (cases h; simp +contextual (maxDischargeDepth := 9) [*, view_foldl, keeps_foldl]; done)
    | (simp at h; subst h; simp +contextual (maxDischargeDepth := 9) [*, view_foldl, keeps_foldl]; done)

theorem view_execVfEnableSet {t : State} (s : State) (h : (execVfEnableSet s) = .next t) :
    view t = view s := by
  cases h
  simp

theorem view_execNumVfsWrite {t : State} (value : Nat) (s : State) (h : (execNumVfsWrite value s) = .next t) :
    view t = view s := by
  cases h
  simp

theorem view_execD3hotEntry {t : State} (fn : Fin 33) (s : State) (h : (execD3hotEntry fn s) = .next t) :
    view t = view s := by
  cases h
  simp

theorem view_execD0Return {t : State} (fn : Fin 33) (s : State) (h : (execD0Return fn s) = .next t) :
    view t = view s := by
  cases h
  simp

theorem view_execAtsInvalidate {t : State} (fn : Fin 33) (page : Nat) (s : State) (h :
    (execAtsInvalidate fn page s) = .next t) :
    view t = view s := by
  cases h
  simp

theorem view_execAtsInvalidateComplete {t : State} (fn : Fin 33) (page : Nat) (s : State) (h :
    (execAtsInvalidateComplete fn page s) = .next t) :
    view t = view s := by
  cases h
  simp

theorem keeps_execHostCompletion {cq : State} {t : State} (tag : Nat) (status : Nat) (poisoned : Bool)
    (data : List Byte) (s : State) (hk : (view s).Keeps cq) (h :
    (execHostCompletion tag status poisoned data s) = .next t) :
    (view t).Keeps cq := by
  unfold execHostCompletion at h
  cases h
  repeat' split
  all_goals simp [hk]

theorem keeps_execHostCplTimeout {cq : State} {t : State} (tag : Nat) (s : State) (hk : (view s).Keeps cq) (h :
    (execHostCplTimeout tag s) = .next t) :
    (view t).Keeps cq := by
  unfold execHostCplTimeout at h
  cases h
  repeat' split
  all_goals simp [hk]

theorem keeps_execLinkDown {cq : State} {t : State} (toL2 : Bool) (s : State) (hk : (view s).Keeps cq) (h :
    (execLinkDown toL2 s) = .next t) :
    (view t).Keeps cq := by
  unfold execLinkDown at h
  cases h
  split
  · exact hk
  · split
    · exact keeps_State_enterL2 _ hk
    · dsimp only
      refine keeps_State_actSource _ _ _ ?_
      rw [view_State_repend]
      refine keeps_State_linkLost _ ?_
      have e := view_foldl (fun (t : State) (e : Nat × HostReq) => t.endHostRead e.1 e.2 St.hostLinkDown []) (by simp)
        s.link.outstanding s
      simpa [State.useFree, e] using hk

theorem keeps_execHotReset {cq : State} {t : State} (s : State) (hk : (view s).Keeps cq) (h :
    (execHotReset s) = .next t) :
    (view t).Keeps cq := by
  unfold execHotReset at h
  cases h
  split <;> simp [*]

theorem keeps_execLinkActive {cq : State} {t : State} (speed : Nat) (width : Nat) (ucie : Nat) (s : State) (hk :
    (view s).Keeps cq) (h : (execLinkActive speed width ucie s) = .next t) :
    (view t).Keeps cq := by
  unfold execLinkActive at h
  cases h
  split
  · exact hk
  · dsimp only
    rw [view_foldl _ (by simp)]
    exact ⟨hk.1, fun h => have ⟨h2, h3, h4, h5, _, h7⟩ := hk.2 h; ⟨h2, h3, h4, h5, by simp, h7⟩⟩

theorem view_execLinkRetrain {t : State} (s : State) (h : (execLinkRetrain s) = .next t) :
    view t = view s := by
  cases h
  simp

theorem keeps_execLinkFatal {cq : State} {t : State} (b : Fin 18) (s : State) (hk : (view s).Keeps cq) (h :
    (execLinkFatal b s) = .next t) :
    (view t).Keeps cq := by
  unfold execLinkFatal at h
  cases h
  split <;> simp [*]

theorem keeps_execBridgeNak {cq : State} {t : State} (b : Fin 18) (again : Bool) (s : State) (hk :
    (view s).Keeps cq) (h : (execBridgeNak b again s) = .next t) :
    (view t).Keeps cq := by
  unfold execBridgeNak at h
  cases h
  repeat' split
  all_goals simp [hk]

theorem view_execPowerStateTransitionDone {t : State} (s : State) (h : (execPowerStateTransitionDone s) = .next t) :
    view t = view s := by
  unfold execPowerStateTransitionDone at h
  cases h
  split <;> simp

theorem view_execPartitionIdleGate {t : State} (p : Fin 16) (s : State) (h : (execPartitionIdleGate p s) = .next t) :
    view t = view s := by
  cases h
  simp

theorem view_execPartitionUngateDone {t : State} (p : Fin 16) (s : State) (h :
    (execPartitionUngateDone p s) = .next t) :
    view t = view s := by
  cases h
  simp

theorem view_execFabricClockRegate {t : State} (s : State) (h : (execFabricClockRegate s) = .next t) :
    view t = view s := by
  cases h
  simp

theorem view_execRailLow {t : State} (c : Fin 4) (mV : Nat) (s : State) (h : (execRailLow c mV s) = .next t) :
    view t = view s := by
  cases h
  simp

theorem view_execRailLowClear {t : State} (c : Fin 4) (s : State) (h : (execRailLowClear c s) = .next t) :
    view t = view s := by
  cases h
  simp

theorem view_execLdoSettled {t : State} (p : Fin 16) (s : State) (h : (execLdoSettled p s) = .next t) :
    view t = view s := by
  unfold execLdoSettled at h
  cases h
  split
  · rfl
  · dsimp only
    rw [view_foldl _ (fun t x => by split <;> simp)]
    simp

theorem view_execVoltageTrim {t : State} (p : Fin 16) (up : Bool) (s : State) (h :
    (execVoltageTrim p up s) = .next t) :
    view t = view s := by
  cases h
  simp

theorem view_execReadAssistStep {t : State} (p : Fin 16) (pair : Fin 16) (setting : Fin 8) (s : State) (h :
    (execReadAssistStep p pair setting s) = .next t) :
    view t = view s := by
  cases h
  simp

theorem view_execCriticalPathMonitorReport {t : State} (p : Fin 16) (cycles : Nat) (s : State) (h :
    (execCriticalPathMonitorReport p cycles s) = .next t) :
    view t = view s := by
  unfold execCriticalPathMonitorReport at h
  try dsimp only at h
  repeat' split at h
  all_goals first
    | (simp at h; done)
    | (cases h; simp (maxDischargeDepth := 9) [*, view_foldl]; done)
    | (simp at h; subst h; simp (maxDischargeDepth := 9) [*, view_foldl]; done)

theorem keeps_execThermalSample {cq : State} {t : State} (temps : List Int) (s : State) (hk : (view s).Keeps cq)
    (h : (execThermalSample temps s) = .next t) :
    (view t).Keeps cq := by
  unfold execThermalSample at h
  cases h
  dsimp only
  repeat' split
  all_goals first
    | (simp [hk]; done)
    | exact keeps_State_trip _ (by simpa using hk)

theorem view_execThermalEvaluate {t : State} (s : State) (h : (execThermalEvaluate s) = .next t) :
    view t = view s := by
  cases h
  simp

theorem view_execPwrCapNFall {t : State} (ns : Nat) (s : State) (h : (execPwrCapNFall ns s) = .next t) :
    view t = view s := by
  cases h
  simp

theorem view_execPwrCapNRise {t : State} (s : State) (h : (execPwrCapNRise s) = .next t) :
    view t = view s := by
  cases h
  simp

theorem view_execTelemetryUpdate {t : State} (meas : List Nat) (s : State) (h :
    (execTelemetryUpdate meas s) = .next t) :
    view t = view s := by
  cases h
  simp

theorem view_execDictRefresh {t : State} (s : State) (h : (execDictRefresh s) = .next t) :
    view t = view s := by
  cases h
  simp

theorem view_execContractLogRead {t : State} (s : State) (h : (execContractLogRead s) = .next t) :
    view t = view s := by
  cases h
  simp

theorem keeps_execL1Reset {cq : State} {t : State} (s : State) (hk : (view s).Keeps cq) (h :
    (execL1Reset s) = .next t) :
    (view t).Keeps cq := by
  unfold execL1Reset at h
  cases h
  repeat' split
  all_goals simp [hk]

theorem keeps_execPwrGoodFall {cq : State} {t : State} (ns : Nat) (s : State) (hk : (view s).Keeps cq) (h :
    (execPwrGoodFall ns s) = .next t) :
    (view t).Keeps cq := by
  unfold execPwrGoodFall at h
  try dsimp only at h
  repeat' split at h
  all_goals first
    | (simp at h; done)
    | (cases h; simp +contextual (maxDischargeDepth := 9) [*, view_foldl, keeps_foldl]; done)
    | (simp at h; subst h; simp +contextual (maxDischargeDepth := 9) [*, view_foldl, keeps_foldl]; done)

theorem view_execPwrGoodRise {t : State} (s : State) (h : (execPwrGoodRise s) = .next t) :
    view t = view s := by
  cases h
  simp

theorem keeps_execRefclkLoss {cq : State} {t : State} (s : State) (hk : (view s).Keeps cq) (h :
    (execRefclkLoss s) = .next t) :
    (view t).Keeps cq := by
  unfold execRefclkLoss at h
  cases h
  split
  · exact keeps_State_powerLost _ (by simpa using hk)
  · exact hk

theorem view_execRefclkRestored {t : State} (s : State) (h : (execRefclkRestored s) = .next t) :
    view t = view s := by
  cases h
  simp

theorem keeps_execRstNAssert {cq : State} {t : State} (ns : Nat) (s : State) (hk : (view s).Keeps cq) (h :
    (execRstNAssert ns s) = .next t) :
    (view t).Keeps cq := by
  unfold execRstNAssert at h
  try dsimp only at h
  repeat' split at h
  all_goals first
    | (simp at h; done)
    | (cases h; simp +contextual (maxDischargeDepth := 9) [*, view_foldl, keeps_foldl]; done)
    | (simp at h; subst h; simp +contextual (maxDischargeDepth := 9) [*, view_foldl, keeps_foldl]; done)

theorem keeps_execPerstNAssert {cq : State} {t : State} (ns : Nat) (s : State) (hk : (view s).Keeps cq) (h :
    (execPerstNAssert ns s) = .next t) :
    (view t).Keeps cq := by
  unfold execPerstNAssert at h
  try dsimp only at h
  repeat' split at h
  all_goals first
    | (simp at h; done)
    | (cases h; simp +contextual (maxDischargeDepth := 9) [*, view_foldl, keeps_foldl]; done)
    | (simp at h; subst h; simp +contextual (maxDischargeDepth := 9) [*, view_foldl, keeps_foldl]; done)

theorem keeps_execResetHoldEnd {cq : State} {t : State} (s : State) (hk : (view s).Keeps cq) (h :
    (execResetHoldEnd s) = .next t) :
    (view t).Keeps cq := by
  unfold execResetHoldEnd at h
  cases h
  split <;> simp [*]

/-- The L0 exit point sets DEVTIME and latches the host mode; the rest of the view's facts stay. -/
theorem keeps_execL0Exit {t : State} (s : State) (hk : Legal s) (h : (execL0Exit s) = .next t) :
    Legal t ∧ t.pending = s.pending := by
  unfold execL0Exit at h
  split at h
  · cases h; exact ⟨hk, rfl⟩
  · cases h
    obtain ⟨h1, h2, h3, h4, h5⟩ := hk
    exact ⟨⟨h1, h2, h3, h4, by simp [tapCodes]⟩, rfl⟩

theorem keeps_execL1Exit {cq : State} {t : State} (bad : BitVec 16) (s : State) (hk : (view s).Keeps cq) (h :
    (execL1Exit bad s) = .next t) :
    (view t).Keeps cq := by
  unfold execL1Exit at h
  cases h
  split <;> simp [*]

theorem view_execMemoryTrained {t : State} (s : State) (h : (execMemoryTrained s) = .next t) :
    view t = view s := by
  cases h
  simp

theorem view_execDeviceRegionFilled {t : State} (s : State) (h : (execDeviceRegionFilled s) = .next t) :
    view t = view s := by
  cases h
  simp

theorem keeps_execL3Reset {cq : State} {t : State} (n : Fin 33) (s : State) (hk : (view s).Keeps cq) (h :
    (execL3Reset n s) = .next t) :
    (view t).Keeps cq := by
  unfold execL3Reset at h
  cases h
  split
  · exact hk
  · split
    · exact hk
    · exact keeps_State_resetInstance _ _ _ (by simpa using hk)

theorem view_execL5ResetDone {t : State} (p : Fin 16) (storeGood : Bool) (bufferGood : Bool) (s : State) (h :
    (execL5ResetDone p storeGood bufferGood s) = .next t) :
    view t = view s := by
  cases h
  simp

theorem keeps_execTapReset {cq : State} {t : State} (s : State) (hk : (view s).Keeps cq) (h :
    (execTapReset s) = .next t) :
    (view t).Keeps cq := by
  cases h
  exact keeps_State_setIr _ _ (by decide) hk

theorem keeps_execExtest {cq : State} {t : State} (s : State) (hk : (view s).Keeps cq) (h : (execExtest s) = .next t) :
    (view t).Keeps cq := by
  cases h
  exact keeps_State_setIr _ _ (by decide) hk

theorem keeps_execSamplePreload {cq : State} {t : State} (cells : BitVec 64) (preload : BitVec 64) (s : State) (hk :
    (view s).Keeps cq) (h : (execSamplePreload cells preload s) = .next t) :
    (view t).Keeps cq := by
  cases h
  exact ⟨hk.1, fun h => have ⟨h2, h3, h4, h5, h6, _⟩ := hk.2 h; ⟨h2, h3, h4, h5, h6, by simp [view, tapCodes]⟩⟩

theorem keeps_execIdcode {cq : State} {t : State} (s : State) (hk : (view s).Keeps cq) (h : (execIdcode s) = .next t) :
    (view t).Keeps cq := by
  cases h
  exact keeps_State_setIr _ _ (by decide) hk

theorem keeps_execClamp {cq : State} {t : State} (s : State) (hk : (view s).Keeps cq) (h : (execClamp s) = .next t) :
    (view t).Keeps cq := by
  cases h
  exact keeps_State_setIr _ _ (by decide) hk

theorem keeps_execHighz {cq : State} {t : State} (s : State) (hk : (view s).Keeps cq) (h : (execHighz s) = .next t) :
    (view t).Keeps cq := by
  cases h
  exact keeps_State_setIr _ _ (by decide) hk

theorem keeps_execBypass {cq : State} {t : State} (s : State) (hk : (view s).Keeps cq) (h : (execBypass s) = .next t) :
    (view t).Keeps cq := by
  cases h
  exact keeps_State_setIr _ _ (by decide) hk

theorem keeps_execControlStoreError {cq : State} {t : State} (addr : BitVec 12) (thread : Fin 8)
    (flips : BitVec 137) (s0 : State) (hk : (view s0).Keeps cq) (h :
    (execControlStoreError addr thread flips s0) = .next t) :
    (view t).Keeps cq := by
  unfold execControlStoreError at h
  cases h
  repeat' split
  all_goals simp [hk]

theorem keeps_execScrub {cq : State} {t : State} (flips : BitVec 137) (bufferGood : Bool) (s : State) (hk :
    (view s).Keeps cq) (h : (execScrub flips bufferGood s) = .next t) :
    (view t).Keeps cq := by
  unfold execScrub at h
  cases h
  repeat' split
  all_goals simp [hk]

theorem keeps_execFepHangWatchdog {cq : State} {t : State} (stall : Bool) (thread : Fin 8) (addr : BitVec 12)
    (s : State) (hk : (view s).Keeps cq) (h : (execFepHangWatchdog stall thread addr s) = .next t) :
    (view t).Keeps cq := by
  unfold execFepHangWatchdog at h
  cases h
  repeat' split
  all_goals simp [hk]

theorem keeps_execL2Reset {cq : State} {t : State} (s : State) (hk : (view s).Keeps cq) (h :
    (execL2Reset s) = .next t) :
    (view t).Keeps cq := by
  unfold execL2Reset at h
  cases h
  split
  · split
    · exact hk
    · dsimp only
      refine keeps_foldl _ (fun t a ht => ?_) _ _ (by simpa using hk)
      split
      · exact ht
      · exact keeps_State_beginReset _ _ _ ht
  · exact hk

theorem view_execL2PreemptDeadline {t : State} (patchGood : Bool) (imageGood : Bool) (s : State) (h :
    (execL2PreemptDeadline patchGood imageGood s) = .next t) :
    view t = view s := by
  cases h
  simp

theorem view_execL2Rebuild {t : State} (s : State) (h : (execL2Rebuild s) = .next t) :
    view t = view s := by
  cases h
  simp

theorem view_execFwVerifyDone {t : State} (s : State) (h : (execFwVerifyDone s) = .next t) :
    view t = view s := by
  cases h
  simp

theorem keeps_execMgcRestartComplete {cq : State} {t : State} (s : State) (hk : (view s).Keeps cq) (h :
    (execMgcRestartComplete s) = .next t) :
    (view t).Keeps cq := by
  unfold execMgcRestartComplete at h
  cases h
  repeat' split
  all_goals simp [hk]

end Sys2Proof.Laws
end

