-- ==== Sys2Proof/Laws/State.lean ====
section
/-! SUPPORT. What each named update of the state leaves alone, one lemma per field, and what it reads back as: the sparse
tables, the byte memories and the free-value counter. The files on the view of a state come before this one, so that the
lemmas here take no part in their proofs. -/

namespace Sys2Proof.Laws
open Sys2Proof Sys2Proof.Machine

-- Sparse tables ---------------------------------------------------------------------------------------------

@[simp] theorem tabGet_set_same {α : Type} (t : Tab α) (k : Nat) (a : α) : tabGet (tabSet t k a) k = some a := by
  induction t with
  | nil => simp [tabSet, tabGet]
  | cons e t ih =>
    obtain ⟨j, b⟩ := e
    unfold tabSet
    split
    · simp [tabGet]
    · split
      · simp [tabGet]
      · rename_i h; simp [tabGet, h, ih]

theorem tabGet_set_other {α : Type} (t : Tab α) {j k : Nat} (a : α) (h : j ≠ k) : tabGet (tabSet t k a) j = tabGet t j := by
  induction t with
  | nil => simp [tabSet, tabGet, Ne.symm h]
  | cons e t ih =>
    obtain ⟨i, b⟩ := e
    unfold tabSet
    split
    · simp [tabGet, Ne.symm h]
    · split
      · rename_i hk; simp [tabGet, hk, Ne.symm h]
      · simp [tabGet, ih]

@[simp] theorem tabGetD_set_same {α : Type} (t : Tab α) (k : Nat) (a d : α) : tabGetD (tabSet t k a) k d = a := by
  simp [tabGetD]

theorem tabGetD_set_other {α : Type} (t : Tab α) {j k : Nat} (a d : α) (h : j ≠ k) :
    tabGetD (tabSet t k a) j d = tabGetD t j d := by
  simp [tabGetD, tabGet_set_other t a h]

theorem tabGetD_set {α : Type} (t : Tab α) (j k : Nat) (a d : α) :
    tabGetD (tabSet t k a) j d = if j = k then a else tabGetD t j d := by
  split
  · rename_i h; subst h; simp
  · rename_i h; exact tabGetD_set_other t a d h

@[simp] theorem tabGet_modify_same {α : Type} (t : Tab α) (k : Nat) (f : α → α) :
    tabGet (tabModify t k f) k = (tabGet t k).map f := by
  induction t with
  | nil => rfl
  | cons e t ih =>
    obtain ⟨j, b⟩ := e
    unfold tabModify at ih ⊢
    by_cases h : j = k <;> simp [tabGet, h, ih]

theorem tabGet_modify_other {α : Type} (t : Tab α) {j k : Nat} (f : α → α) (h : j ≠ k) :
    tabGet (tabModify t k f) j = tabGet t j := by
  induction t with
  | nil => rfl
  | cons e t ih =>
    obtain ⟨i, b⟩ := e
    unfold tabModify at ih ⊢
    by_cases hk : i = k
    · have hj : k ≠ j := Ne.symm h
      simp [tabGet, hk, hj, ih]
    · simp [tabGet, hk, ih]

@[simp] theorem tabGet_erase_same {α : Type} (t : Tab α) (k : Nat) : tabGet (tabErase t k) k = none := by
  induction t with
  | nil => rfl
  | cons e t ih =>
    obtain ⟨j, b⟩ := e
    unfold tabErase at ih ⊢
    by_cases h : j = k
    · simp [h, ih]
    · simp [tabGet, h, ih]

theorem tabGet_erase_other {α : Type} (t : Tab α) {j k : Nat} (h : j ≠ k) : tabGet (tabErase t k) j = tabGet t j := by
  induction t with
  | nil => rfl
  | cons e t ih =>
    obtain ⟨i, b⟩ := e
    unfold tabErase at ih ⊢
    by_cases hk : i = k
    · have hj : k ≠ j := Ne.symm h
      simp [tabGet, hk, hj, ih]
    · simp [tabGet, hk, ih]

-- Records read back -------------------------------------------------------------------------------------------

@[simp] theorem updInst_inst_same (s : State) (n : Nat) (f : Inst → Inst) : (s.updInst n f).inst n = f (s.inst n) := by
  simp [State.updInst, State.inst]

theorem updInst_inst_other (s : State) {m n : Nat} (f : Inst → Inst) (h : m ≠ n) : (s.updInst n f).inst m = s.inst m := by
  simp [State.updInst, State.inst, tabGetD_set_other _ _ _ h]

@[simp] theorem updPart_part_same (s : State) (n : Nat) (f : Part → Part) : (s.updPart n f).part n = f (s.part n) := by
  simp [State.updPart, State.part]

theorem updPart_part_other (s : State) {m n : Nat} (f : Part → Part) (h : m ≠ n) : (s.updPart n f).part m = s.part m := by
  simp [State.updPart, State.part, tabGetD_set_other _ _ _ h]

@[simp] theorem updCluster_cluster_same (s : State) (n : Nat) (f : Cluster → Cluster) : (s.updCluster n f).cluster n = f (s.cluster n) := by
  simp [State.updCluster, State.cluster]

theorem updCluster_cluster_other (s : State) {m n : Nat} (f : Cluster → Cluster) (h : m ≠ n) : (s.updCluster n f).cluster m = s.cluster m := by
  simp [State.updCluster, State.cluster, tabGetD_set_other _ _ _ h]

@[simp] theorem updSkim_skim_same (s : State) (n : Nat) (f : Skim → Skim) : (s.updSkim n f).skim n = f (s.skim n) := by
  simp [State.updSkim, State.skim]

theorem updSkim_skim_other (s : State) {m n : Nat} (f : Skim → Skim) (h : m ≠ n) : (s.updSkim n f).skim m = s.skim m := by
  simp [State.updSkim, State.skim, tabGetD_set_other _ _ _ h]

@[simp] theorem updFunc_func_same (s : State) (n : Nat) (f : Func → Func) : (s.updFunc n f).func n = f (s.func n) := by
  simp [State.updFunc, State.func]

theorem updFunc_func_other (s : State) {m n : Nat} (f : Func → Func) (h : m ≠ n) : (s.updFunc n f).func m = s.func m := by
  simp [State.updFunc, State.func, tabGetD_set_other _ _ _ h]

@[simp] theorem updBridge_bridge_same (s : State) (n : Nat) (f : Bridge → Bridge) : (s.updBridge n f).bridge n = f (s.bridge n) := by
  simp [State.updBridge, State.bridge]

theorem updBridge_bridge_other (s : State) {m n : Nat} (f : Bridge → Bridge) (h : m ≠ n) : (s.updBridge n f).bridge m = s.bridge m := by
  simp [State.updBridge, State.bridge, tabGetD_set_other _ _ _ h]

@[simp] theorem updQueue_queue_same (s : State) (k : Nat) (f : Queue → Queue) :
    (s.updQueue k f).queue k = (s.queue k).map f := by
  simp [State.updQueue, State.queue]

theorem updQueue_queue_other (s : State) {j k : Nat} (f : Queue → Queue) (h : j ≠ k) :
    (s.updQueue k f).queue j = s.queue j := by
  simp [State.updQueue, State.queue, tabGet_modify_other _ _ h]

@[simp] theorem setCmd_cmd_same (s : State) (c : Cmd) : (s.setCmd c).cmd c.slot c.seq = some c := by
  simp [State.setCmd, State.cmd]

-- Fields left alone -------------------------------------------------------------------------------------------

@[simp] theorem updInst_clk (s : State) (n : Nat) (f : Inst → Inst) : (s.updInst n f).clk = s.clk := rfl
@[simp] theorem updInst_pins (s : State) (n : Nat) (f : Inst → Inst) : (s.updInst n f).pins = s.pins := rfl
@[simp] theorem updInst_rst (s : State) (n : Nat) (f : Inst → Inst) : (s.updInst n f).rst = s.rst := rfl
@[simp] theorem updInst_mem (s : State) (n : Nat) (f : Inst → Inst) : (s.updInst n f).mem = s.mem := rfl
@[simp] theorem updInst_queues (s : State) (n : Nat) (f : Inst → Inst) : (s.updInst n f).queues = s.queues := rfl
@[simp] theorem updInst_cmds (s : State) (n : Nat) (f : Inst → Inst) : (s.updInst n f).cmds = s.cmds := rfl
@[simp] theorem updInst_contracts (s : State) (n : Nat) (f : Inst → Inst) :
    (s.updInst n f).contracts = s.contracts := rfl
@[simp] theorem updInst_pages (s : State) (n : Nat) (f : Inst → Inst) : (s.updInst n f).pages = s.pages := rfl
@[simp] theorem updInst_fep (s : State) (n : Nat) (f : Inst → Inst) : (s.updInst n f).fep = s.fep := rfl
@[simp] theorem updInst_parts (s : State) (n : Nat) (f : Inst → Inst) : (s.updInst n f).parts = s.parts := rfl
@[simp] theorem updInst_clusters (s : State) (n : Nat) (f : Inst → Inst) : (s.updInst n f).clusters = s.clusters := rfl
@[simp] theorem updInst_skims (s : State) (n : Nat) (f : Inst → Inst) : (s.updInst n f).skims = s.skims := rfl
@[simp] theorem updInst_net (s : State) (n : Nat) (f : Inst → Inst) : (s.updInst n f).net = s.net := rfl
@[simp] theorem updInst_link (s : State) (n : Nat) (f : Inst → Inst) : (s.updInst n f).link = s.link := rfl
@[simp] theorem updInst_mgc (s : State) (n : Nat) (f : Inst → Inst) : (s.updInst n f).mgc = s.mgc := rfl
@[simp] theorem updInst_bus (s : State) (n : Nat) (f : Inst → Inst) : (s.updInst n f).bus = s.bus := rfl
@[simp] theorem updInst_dict (s : State) (n : Nat) (f : Inst → Inst) : (s.updInst n f).dict = s.dict := rfl
@[simp] theorem updInst_keep (s : State) (n : Nat) (f : Inst → Inst) : (s.updInst n f).keep = s.keep := rfl
@[simp] theorem updInst_cal (s : State) (n : Nat) (f : Inst → Inst) : (s.updInst n f).cal = s.cal := rfl
@[simp] theorem updInst_pwr (s : State) (n : Nat) (f : Inst → Inst) : (s.updInst n f).pwr = s.pwr := rfl
@[simp] theorem updInst_abrt (s : State) (n : Nat) (f : Inst → Inst) : (s.updInst n f).abrt = s.abrt := rfl
@[simp] theorem updInst_tap (s : State) (n : Nat) (f : Inst → Inst) : (s.updInst n f).tap = s.tap := rfl
@[simp] theorem updInst_freeCount (s : State) (n : Nat) (f : Inst → Inst) :
    (s.updInst n f).freeCount = s.freeCount := rfl
@[simp] theorem updInst_pending (s : State) (n : Nat) (f : Inst → Inst) : (s.updInst n f).pending = s.pending := rfl

@[simp] theorem updPart_clk (s : State) (p : Nat) (f : Part → Part) : (s.updPart p f).clk = s.clk := rfl
@[simp] theorem updPart_pins (s : State) (p : Nat) (f : Part → Part) : (s.updPart p f).pins = s.pins := rfl
@[simp] theorem updPart_rst (s : State) (p : Nat) (f : Part → Part) : (s.updPart p f).rst = s.rst := rfl
@[simp] theorem updPart_mem (s : State) (p : Nat) (f : Part → Part) : (s.updPart p f).mem = s.mem := rfl
@[simp] theorem updPart_insts (s : State) (p : Nat) (f : Part → Part) : (s.updPart p f).insts = s.insts := rfl
@[simp] theorem updPart_queues (s : State) (p : Nat) (f : Part → Part) : (s.updPart p f).queues = s.queues := rfl
@[simp] theorem updPart_cmds (s : State) (p : Nat) (f : Part → Part) : (s.updPart p f).cmds = s.cmds := rfl
@[simp] theorem updPart_contracts (s : State) (p : Nat) (f : Part → Part) :
    (s.updPart p f).contracts = s.contracts := rfl
@[simp] theorem updPart_pages (s : State) (p : Nat) (f : Part → Part) : (s.updPart p f).pages = s.pages := rfl
@[simp] theorem updPart_fep (s : State) (p : Nat) (f : Part → Part) : (s.updPart p f).fep = s.fep := rfl
@[simp] theorem updPart_clusters (s : State) (p : Nat) (f : Part → Part) : (s.updPart p f).clusters = s.clusters := rfl
@[simp] theorem updPart_skims (s : State) (p : Nat) (f : Part → Part) : (s.updPart p f).skims = s.skims := rfl
@[simp] theorem updPart_net (s : State) (p : Nat) (f : Part → Part) : (s.updPart p f).net = s.net := rfl
@[simp] theorem updPart_link (s : State) (p : Nat) (f : Part → Part) : (s.updPart p f).link = s.link := rfl
@[simp] theorem updPart_mgc (s : State) (p : Nat) (f : Part → Part) : (s.updPart p f).mgc = s.mgc := rfl
@[simp] theorem updPart_bus (s : State) (p : Nat) (f : Part → Part) : (s.updPart p f).bus = s.bus := rfl
@[simp] theorem updPart_dict (s : State) (p : Nat) (f : Part → Part) : (s.updPart p f).dict = s.dict := rfl
@[simp] theorem updPart_keep (s : State) (p : Nat) (f : Part → Part) : (s.updPart p f).keep = s.keep := rfl
@[simp] theorem updPart_cal (s : State) (p : Nat) (f : Part → Part) : (s.updPart p f).cal = s.cal := rfl
@[simp] theorem updPart_pwr (s : State) (p : Nat) (f : Part → Part) : (s.updPart p f).pwr = s.pwr := rfl
@[simp] theorem updPart_abrt (s : State) (p : Nat) (f : Part → Part) : (s.updPart p f).abrt = s.abrt := rfl
@[simp] theorem updPart_tap (s : State) (p : Nat) (f : Part → Part) : (s.updPart p f).tap = s.tap := rfl
@[simp] theorem updPart_freeCount (s : State) (p : Nat) (f : Part → Part) :
    (s.updPart p f).freeCount = s.freeCount := rfl
@[simp] theorem updPart_pending (s : State) (p : Nat) (f : Part → Part) : (s.updPart p f).pending = s.pending := rfl

@[simp] theorem updCluster_clk (s : State) (c : Nat) (f : Cluster → Cluster) : (s.updCluster c f).clk = s.clk := rfl
@[simp] theorem updCluster_pins (s : State) (c : Nat) (f : Cluster → Cluster) : (s.updCluster c f).pins = s.pins := rfl
@[simp] theorem updCluster_rst (s : State) (c : Nat) (f : Cluster → Cluster) : (s.updCluster c f).rst = s.rst := rfl
@[simp] theorem updCluster_mem (s : State) (c : Nat) (f : Cluster → Cluster) : (s.updCluster c f).mem = s.mem := rfl
@[simp] theorem updCluster_insts (s : State) (c : Nat) (f : Cluster → Cluster) :
    (s.updCluster c f).insts = s.insts := rfl
@[simp] theorem updCluster_queues (s : State) (c : Nat) (f : Cluster → Cluster) :
    (s.updCluster c f).queues = s.queues := rfl
@[simp] theorem updCluster_cmds (s : State) (c : Nat) (f : Cluster → Cluster) : (s.updCluster c f).cmds = s.cmds := rfl
@[simp] theorem updCluster_contracts (s : State) (c : Nat) (f : Cluster → Cluster) :
    (s.updCluster c f).contracts = s.contracts := rfl
@[simp] theorem updCluster_pages (s : State) (c : Nat) (f : Cluster → Cluster) :
    (s.updCluster c f).pages = s.pages := rfl
@[simp] theorem updCluster_fep (s : State) (c : Nat) (f : Cluster → Cluster) : (s.updCluster c f).fep = s.fep := rfl
@[simp] theorem updCluster_parts (s : State) (c : Nat) (f : Cluster → Cluster) :
    (s.updCluster c f).parts = s.parts := rfl
@[simp] theorem updCluster_skims (s : State) (c : Nat) (f : Cluster → Cluster) :
    (s.updCluster c f).skims = s.skims := rfl
@[simp] theorem updCluster_net (s : State) (c : Nat) (f : Cluster → Cluster) : (s.updCluster c f).net = s.net := rfl
@[simp] theorem updCluster_link (s : State) (c : Nat) (f : Cluster → Cluster) : (s.updCluster c f).link = s.link := rfl
@[simp] theorem updCluster_mgc (s : State) (c : Nat) (f : Cluster → Cluster) : (s.updCluster c f).mgc = s.mgc := rfl
@[simp] theorem updCluster_bus (s : State) (c : Nat) (f : Cluster → Cluster) : (s.updCluster c f).bus = s.bus := rfl
@[simp] theorem updCluster_dict (s : State) (c : Nat) (f : Cluster → Cluster) : (s.updCluster c f).dict = s.dict := rfl
@[simp] theorem updCluster_keep (s : State) (c : Nat) (f : Cluster → Cluster) : (s.updCluster c f).keep = s.keep := rfl
@[simp] theorem updCluster_cal (s : State) (c : Nat) (f : Cluster → Cluster) : (s.updCluster c f).cal = s.cal := rfl
@[simp] theorem updCluster_pwr (s : State) (c : Nat) (f : Cluster → Cluster) : (s.updCluster c f).pwr = s.pwr := rfl
@[simp] theorem updCluster_abrt (s : State) (c : Nat) (f : Cluster → Cluster) : (s.updCluster c f).abrt = s.abrt := rfl
@[simp] theorem updCluster_tap (s : State) (c : Nat) (f : Cluster → Cluster) : (s.updCluster c f).tap = s.tap := rfl
@[simp] theorem updCluster_freeCount (s : State) (c : Nat) (f : Cluster → Cluster) :
    (s.updCluster c f).freeCount = s.freeCount := rfl
@[simp] theorem updCluster_pending (s : State) (c : Nat) (f : Cluster → Cluster) :
    (s.updCluster c f).pending = s.pending := rfl

@[simp] theorem updSkim_clk (s : State) (g : Nat) (f : Skim → Skim) : (s.updSkim g f).clk = s.clk := rfl
@[simp] theorem updSkim_pins (s : State) (g : Nat) (f : Skim → Skim) : (s.updSkim g f).pins = s.pins := rfl
@[simp] theorem updSkim_rst (s : State) (g : Nat) (f : Skim → Skim) : (s.updSkim g f).rst = s.rst := rfl
@[simp] theorem updSkim_mem (s : State) (g : Nat) (f : Skim → Skim) : (s.updSkim g f).mem = s.mem := rfl
@[simp] theorem updSkim_insts (s : State) (g : Nat) (f : Skim → Skim) : (s.updSkim g f).insts = s.insts := rfl
@[simp] theorem updSkim_queues (s : State) (g : Nat) (f : Skim → Skim) : (s.updSkim g f).queues = s.queues := rfl
@[simp] theorem updSkim_cmds (s : State) (g : Nat) (f : Skim → Skim) : (s.updSkim g f).cmds = s.cmds := rfl
@[simp] theorem updSkim_contracts (s : State) (g : Nat) (f : Skim → Skim) :
    (s.updSkim g f).contracts = s.contracts := rfl
@[simp] theorem updSkim_pages (s : State) (g : Nat) (f : Skim → Skim) : (s.updSkim g f).pages = s.pages := rfl
@[simp] theorem updSkim_fep (s : State) (g : Nat) (f : Skim → Skim) : (s.updSkim g f).fep = s.fep := rfl
@[simp] theorem updSkim_parts (s : State) (g : Nat) (f : Skim → Skim) : (s.updSkim g f).parts = s.parts := rfl
@[simp] theorem updSkim_clusters (s : State) (g : Nat) (f : Skim → Skim) : (s.updSkim g f).clusters = s.clusters := rfl
@[simp] theorem updSkim_net (s : State) (g : Nat) (f : Skim → Skim) : (s.updSkim g f).net = s.net := rfl
@[simp] theorem updSkim_link (s : State) (g : Nat) (f : Skim → Skim) : (s.updSkim g f).link = s.link := rfl
@[simp] theorem updSkim_mgc (s : State) (g : Nat) (f : Skim → Skim) : (s.updSkim g f).mgc = s.mgc := rfl
@[simp] theorem updSkim_bus (s : State) (g : Nat) (f : Skim → Skim) : (s.updSkim g f).bus = s.bus := rfl
@[simp] theorem updSkim_dict (s : State) (g : Nat) (f : Skim → Skim) : (s.updSkim g f).dict = s.dict := rfl
@[simp] theorem updSkim_keep (s : State) (g : Nat) (f : Skim → Skim) : (s.updSkim g f).keep = s.keep := rfl
@[simp] theorem updSkim_cal (s : State) (g : Nat) (f : Skim → Skim) : (s.updSkim g f).cal = s.cal := rfl
@[simp] theorem updSkim_pwr (s : State) (g : Nat) (f : Skim → Skim) : (s.updSkim g f).pwr = s.pwr := rfl
@[simp] theorem updSkim_abrt (s : State) (g : Nat) (f : Skim → Skim) : (s.updSkim g f).abrt = s.abrt := rfl
@[simp] theorem updSkim_tap (s : State) (g : Nat) (f : Skim → Skim) : (s.updSkim g f).tap = s.tap := rfl
@[simp] theorem updSkim_freeCount (s : State) (g : Nat) (f : Skim → Skim) :
    (s.updSkim g f).freeCount = s.freeCount := rfl
@[simp] theorem updSkim_pending (s : State) (g : Nat) (f : Skim → Skim) : (s.updSkim g f).pending = s.pending := rfl

@[simp] theorem updFunc_clk (s : State) (n : Nat) (f : Func → Func) : (s.updFunc n f).clk = s.clk := rfl
@[simp] theorem updFunc_pins (s : State) (n : Nat) (f : Func → Func) : (s.updFunc n f).pins = s.pins := rfl
@[simp] theorem updFunc_rst (s : State) (n : Nat) (f : Func → Func) : (s.updFunc n f).rst = s.rst := rfl
@[simp] theorem updFunc_mem (s : State) (n : Nat) (f : Func → Func) : (s.updFunc n f).mem = s.mem := rfl
@[simp] theorem updFunc_insts (s : State) (n : Nat) (f : Func → Func) : (s.updFunc n f).insts = s.insts := rfl
@[simp] theorem updFunc_queues (s : State) (n : Nat) (f : Func → Func) : (s.updFunc n f).queues = s.queues := rfl
@[simp] theorem updFunc_cmds (s : State) (n : Nat) (f : Func → Func) : (s.updFunc n f).cmds = s.cmds := rfl
@[simp] theorem updFunc_contracts (s : State) (n : Nat) (f : Func → Func) :
    (s.updFunc n f).contracts = s.contracts := rfl
@[simp] theorem updFunc_pages (s : State) (n : Nat) (f : Func → Func) : (s.updFunc n f).pages = s.pages := rfl
@[simp] theorem updFunc_fep (s : State) (n : Nat) (f : Func → Func) : (s.updFunc n f).fep = s.fep := rfl
@[simp] theorem updFunc_parts (s : State) (n : Nat) (f : Func → Func) : (s.updFunc n f).parts = s.parts := rfl
@[simp] theorem updFunc_clusters (s : State) (n : Nat) (f : Func → Func) : (s.updFunc n f).clusters = s.clusters := rfl
@[simp] theorem updFunc_skims (s : State) (n : Nat) (f : Func → Func) : (s.updFunc n f).skims = s.skims := rfl
@[simp] theorem updFunc_net (s : State) (n : Nat) (f : Func → Func) : (s.updFunc n f).net = s.net := rfl
@[simp] theorem updFunc_mgc (s : State) (n : Nat) (f : Func → Func) : (s.updFunc n f).mgc = s.mgc := rfl
@[simp] theorem updFunc_bus (s : State) (n : Nat) (f : Func → Func) : (s.updFunc n f).bus = s.bus := rfl
@[simp] theorem updFunc_dict (s : State) (n : Nat) (f : Func → Func) : (s.updFunc n f).dict = s.dict := rfl
@[simp] theorem updFunc_keep (s : State) (n : Nat) (f : Func → Func) : (s.updFunc n f).keep = s.keep := rfl
@[simp] theorem updFunc_cal (s : State) (n : Nat) (f : Func → Func) : (s.updFunc n f).cal = s.cal := rfl
@[simp] theorem updFunc_pwr (s : State) (n : Nat) (f : Func → Func) : (s.updFunc n f).pwr = s.pwr := rfl
@[simp] theorem updFunc_abrt (s : State) (n : Nat) (f : Func → Func) : (s.updFunc n f).abrt = s.abrt := rfl
@[simp] theorem updFunc_tap (s : State) (n : Nat) (f : Func → Func) : (s.updFunc n f).tap = s.tap := rfl
@[simp] theorem updFunc_freeCount (s : State) (n : Nat) (f : Func → Func) :
    (s.updFunc n f).freeCount = s.freeCount := rfl
@[simp] theorem updFunc_pending (s : State) (n : Nat) (f : Func → Func) : (s.updFunc n f).pending = s.pending := rfl

@[simp] theorem updBridge_clk (s : State) (b : Nat) (f : Bridge → Bridge) : (s.updBridge b f).clk = s.clk := rfl
@[simp] theorem updBridge_pins (s : State) (b : Nat) (f : Bridge → Bridge) : (s.updBridge b f).pins = s.pins := rfl
@[simp] theorem updBridge_rst (s : State) (b : Nat) (f : Bridge → Bridge) : (s.updBridge b f).rst = s.rst := rfl
@[simp] theorem updBridge_mem (s : State) (b : Nat) (f : Bridge → Bridge) : (s.updBridge b f).mem = s.mem := rfl
@[simp] theorem updBridge_insts (s : State) (b : Nat) (f : Bridge → Bridge) : (s.updBridge b f).insts = s.insts := rfl
@[simp] theorem updBridge_queues (s : State) (b : Nat) (f : Bridge → Bridge) :
    (s.updBridge b f).queues = s.queues := rfl
@[simp] theorem updBridge_cmds (s : State) (b : Nat) (f : Bridge → Bridge) : (s.updBridge b f).cmds = s.cmds := rfl
@[simp] theorem updBridge_contracts (s : State) (b : Nat) (f : Bridge → Bridge) :
    (s.updBridge b f).contracts = s.contracts := rfl
@[simp] theorem updBridge_pages (s : State) (b : Nat) (f : Bridge → Bridge) : (s.updBridge b f).pages = s.pages := rfl
@[simp] theorem updBridge_fep (s : State) (b : Nat) (f : Bridge → Bridge) : (s.updBridge b f).fep = s.fep := rfl
@[simp] theorem updBridge_parts (s : State) (b : Nat) (f : Bridge → Bridge) : (s.updBridge b f).parts = s.parts := rfl
@[simp] theorem updBridge_clusters (s : State) (b : Nat) (f : Bridge → Bridge) :
    (s.updBridge b f).clusters = s.clusters := rfl
@[simp] theorem updBridge_skims (s : State) (b : Nat) (f : Bridge → Bridge) : (s.updBridge b f).skims = s.skims := rfl
@[simp] theorem updBridge_link (s : State) (b : Nat) (f : Bridge → Bridge) : (s.updBridge b f).link = s.link := rfl
@[simp] theorem updBridge_mgc (s : State) (b : Nat) (f : Bridge → Bridge) : (s.updBridge b f).mgc = s.mgc := rfl
@[simp] theorem updBridge_bus (s : State) (b : Nat) (f : Bridge → Bridge) : (s.updBridge b f).bus = s.bus := rfl
@[simp] theorem updBridge_dict (s : State) (b : Nat) (f : Bridge → Bridge) : (s.updBridge b f).dict = s.dict := rfl
@[simp] theorem updBridge_keep (s : State) (b : Nat) (f : Bridge → Bridge) : (s.updBridge b f).keep = s.keep := rfl
@[simp] theorem updBridge_cal (s : State) (b : Nat) (f : Bridge → Bridge) : (s.updBridge b f).cal = s.cal := rfl
@[simp] theorem updBridge_pwr (s : State) (b : Nat) (f : Bridge → Bridge) : (s.updBridge b f).pwr = s.pwr := rfl
@[simp] theorem updBridge_abrt (s : State) (b : Nat) (f : Bridge → Bridge) : (s.updBridge b f).abrt = s.abrt := rfl
@[simp] theorem updBridge_tap (s : State) (b : Nat) (f : Bridge → Bridge) : (s.updBridge b f).tap = s.tap := rfl
@[simp] theorem updBridge_freeCount (s : State) (b : Nat) (f : Bridge → Bridge) :
    (s.updBridge b f).freeCount = s.freeCount := rfl
@[simp] theorem updBridge_pending (s : State) (b : Nat) (f : Bridge → Bridge) :
    (s.updBridge b f).pending = s.pending := rfl

@[simp] theorem updQueue_clk (s : State) (k : Nat) (f : Queue → Queue) : (s.updQueue k f).clk = s.clk := rfl
@[simp] theorem updQueue_pins (s : State) (k : Nat) (f : Queue → Queue) : (s.updQueue k f).pins = s.pins := rfl
@[simp] theorem updQueue_rst (s : State) (k : Nat) (f : Queue → Queue) : (s.updQueue k f).rst = s.rst := rfl
@[simp] theorem updQueue_mem (s : State) (k : Nat) (f : Queue → Queue) : (s.updQueue k f).mem = s.mem := rfl
@[simp] theorem updQueue_insts (s : State) (k : Nat) (f : Queue → Queue) : (s.updQueue k f).insts = s.insts := rfl
@[simp] theorem updQueue_cmds (s : State) (k : Nat) (f : Queue → Queue) : (s.updQueue k f).cmds = s.cmds := rfl
@[simp] theorem updQueue_contracts (s : State) (k : Nat) (f : Queue → Queue) :
    (s.updQueue k f).contracts = s.contracts := rfl
@[simp] theorem updQueue_pages (s : State) (k : Nat) (f : Queue → Queue) : (s.updQueue k f).pages = s.pages := rfl
@[simp] theorem updQueue_fep (s : State) (k : Nat) (f : Queue → Queue) : (s.updQueue k f).fep = s.fep := rfl
@[simp] theorem updQueue_parts (s : State) (k : Nat) (f : Queue → Queue) : (s.updQueue k f).parts = s.parts := rfl
@[simp] theorem updQueue_clusters (s : State) (k : Nat) (f : Queue → Queue) :
    (s.updQueue k f).clusters = s.clusters := rfl
@[simp] theorem updQueue_skims (s : State) (k : Nat) (f : Queue → Queue) : (s.updQueue k f).skims = s.skims := rfl
@[simp] theorem updQueue_net (s : State) (k : Nat) (f : Queue → Queue) : (s.updQueue k f).net = s.net := rfl
@[simp] theorem updQueue_link (s : State) (k : Nat) (f : Queue → Queue) : (s.updQueue k f).link = s.link := rfl
@[simp] theorem updQueue_mgc (s : State) (k : Nat) (f : Queue → Queue) : (s.updQueue k f).mgc = s.mgc := rfl
@[simp] theorem updQueue_bus (s : State) (k : Nat) (f : Queue → Queue) : (s.updQueue k f).bus = s.bus := rfl
@[simp] theorem updQueue_dict (s : State) (k : Nat) (f : Queue → Queue) : (s.updQueue k f).dict = s.dict := rfl
@[simp] theorem updQueue_keep (s : State) (k : Nat) (f : Queue → Queue) : (s.updQueue k f).keep = s.keep := rfl
@[simp] theorem updQueue_cal (s : State) (k : Nat) (f : Queue → Queue) : (s.updQueue k f).cal = s.cal := rfl
@[simp] theorem updQueue_pwr (s : State) (k : Nat) (f : Queue → Queue) : (s.updQueue k f).pwr = s.pwr := rfl
@[simp] theorem updQueue_abrt (s : State) (k : Nat) (f : Queue → Queue) : (s.updQueue k f).abrt = s.abrt := rfl
@[simp] theorem updQueue_tap (s : State) (k : Nat) (f : Queue → Queue) : (s.updQueue k f).tap = s.tap := rfl
@[simp] theorem updQueue_freeCount (s : State) (k : Nat) (f : Queue → Queue) :
    (s.updQueue k f).freeCount = s.freeCount := rfl
@[simp] theorem updQueue_pending (s : State) (k : Nat) (f : Queue → Queue) : (s.updQueue k f).pending = s.pending := rfl

@[simp] theorem setCmd_clk (s : State) (c : Cmd) : (s.setCmd c).clk = s.clk := rfl
@[simp] theorem setCmd_pins (s : State) (c : Cmd) : (s.setCmd c).pins = s.pins := rfl
@[simp] theorem setCmd_rst (s : State) (c : Cmd) : (s.setCmd c).rst = s.rst := rfl
@[simp] theorem setCmd_mem (s : State) (c : Cmd) : (s.setCmd c).mem = s.mem := rfl
@[simp] theorem setCmd_insts (s : State) (c : Cmd) : (s.setCmd c).insts = s.insts := rfl
@[simp] theorem setCmd_queues (s : State) (c : Cmd) : (s.setCmd c).queues = s.queues := rfl
@[simp] theorem setCmd_contracts (s : State) (c : Cmd) : (s.setCmd c).contracts = s.contracts := rfl
@[simp] theorem setCmd_pages (s : State) (c : Cmd) : (s.setCmd c).pages = s.pages := rfl
@[simp] theorem setCmd_fep (s : State) (c : Cmd) : (s.setCmd c).fep = s.fep := rfl
@[simp] theorem setCmd_parts (s : State) (c : Cmd) : (s.setCmd c).parts = s.parts := rfl
@[simp] theorem setCmd_clusters (s : State) (c : Cmd) : (s.setCmd c).clusters = s.clusters := rfl
@[simp] theorem setCmd_skims (s : State) (c : Cmd) : (s.setCmd c).skims = s.skims := rfl
@[simp] theorem setCmd_net (s : State) (c : Cmd) : (s.setCmd c).net = s.net := rfl
@[simp] theorem setCmd_link (s : State) (c : Cmd) : (s.setCmd c).link = s.link := rfl
@[simp] theorem setCmd_mgc (s : State) (c : Cmd) : (s.setCmd c).mgc = s.mgc := rfl
@[simp] theorem setCmd_bus (s : State) (c : Cmd) : (s.setCmd c).bus = s.bus := rfl
@[simp] theorem setCmd_dict (s : State) (c : Cmd) : (s.setCmd c).dict = s.dict := rfl
@[simp] theorem setCmd_keep (s : State) (c : Cmd) : (s.setCmd c).keep = s.keep := rfl
@[simp] theorem setCmd_cal (s : State) (c : Cmd) : (s.setCmd c).cal = s.cal := rfl
@[simp] theorem setCmd_pwr (s : State) (c : Cmd) : (s.setCmd c).pwr = s.pwr := rfl
@[simp] theorem setCmd_abrt (s : State) (c : Cmd) : (s.setCmd c).abrt = s.abrt := rfl
@[simp] theorem setCmd_tap (s : State) (c : Cmd) : (s.setCmd c).tap = s.tap := rfl
@[simp] theorem setCmd_freeCount (s : State) (c : Cmd) : (s.setCmd c).freeCount = s.freeCount := rfl
@[simp] theorem setCmd_pending (s : State) (c : Cmd) : (s.setCmd c).pending = s.pending := rfl

@[simp] theorem updCmd_clk (s : State) (slot seq : Nat) (f : Cmd → Cmd) : (s.updCmd slot seq f).clk = s.clk := rfl
@[simp] theorem updCmd_pins (s : State) (slot seq : Nat) (f : Cmd → Cmd) : (s.updCmd slot seq f).pins = s.pins := rfl
@[simp] theorem updCmd_rst (s : State) (slot seq : Nat) (f : Cmd → Cmd) : (s.updCmd slot seq f).rst = s.rst := rfl
@[simp] theorem updCmd_mem (s : State) (slot seq : Nat) (f : Cmd → Cmd) : (s.updCmd slot seq f).mem = s.mem := rfl
@[simp] theorem updCmd_insts (s : State) (slot seq : Nat) (f : Cmd → Cmd) : (s.updCmd slot seq f).insts = s.insts := rfl
@[simp] theorem updCmd_queues (s : State) (slot seq : Nat) (f : Cmd → Cmd) :
    (s.updCmd slot seq f).queues = s.queues := rfl
@[simp] theorem updCmd_contracts (s : State) (slot seq : Nat) (f : Cmd → Cmd) :
    (s.updCmd slot seq f).contracts = s.contracts := rfl
@[simp] theorem updCmd_pages (s : State) (slot seq : Nat) (f : Cmd → Cmd) : (s.updCmd slot seq f).pages = s.pages := rfl
@[simp] theorem updCmd_fep (s : State) (slot seq : Nat) (f : Cmd → Cmd) : (s.updCmd slot seq f).fep = s.fep := rfl
@[simp] theorem updCmd_parts (s : State) (slot seq : Nat) (f : Cmd → Cmd) : (s.updCmd slot seq f).parts = s.parts := rfl
@[simp] theorem updCmd_clusters (s : State) (slot seq : Nat) (f : Cmd → Cmd) :
    (s.updCmd slot seq f).clusters = s.clusters := rfl
@[simp] theorem updCmd_skims (s : State) (slot seq : Nat) (f : Cmd → Cmd) : (s.updCmd slot seq f).skims = s.skims := rfl
@[simp] theorem updCmd_net (s : State) (slot seq : Nat) (f : Cmd → Cmd) : (s.updCmd slot seq f).net = s.net := rfl
@[simp] theorem updCmd_link (s : State) (slot seq : Nat) (f : Cmd → Cmd) : (s.updCmd slot seq f).link = s.link := rfl
@[simp] theorem updCmd_mgc (s : State) (slot seq : Nat) (f : Cmd → Cmd) : (s.updCmd slot seq f).mgc = s.mgc := rfl
@[simp] theorem updCmd_bus (s : State) (slot seq : Nat) (f : Cmd → Cmd) : (s.updCmd slot seq f).bus = s.bus := rfl
@[simp] theorem updCmd_dict (s : State) (slot seq : Nat) (f : Cmd → Cmd) : (s.updCmd slot seq f).dict = s.dict := rfl
@[simp] theorem updCmd_keep (s : State) (slot seq : Nat) (f : Cmd → Cmd) : (s.updCmd slot seq f).keep = s.keep := rfl
@[simp] theorem updCmd_cal (s : State) (slot seq : Nat) (f : Cmd → Cmd) : (s.updCmd slot seq f).cal = s.cal := rfl
@[simp] theorem updCmd_pwr (s : State) (slot seq : Nat) (f : Cmd → Cmd) : (s.updCmd slot seq f).pwr = s.pwr := rfl
@[simp] theorem updCmd_abrt (s : State) (slot seq : Nat) (f : Cmd → Cmd) : (s.updCmd slot seq f).abrt = s.abrt := rfl
@[simp] theorem updCmd_tap (s : State) (slot seq : Nat) (f : Cmd → Cmd) : (s.updCmd slot seq f).tap = s.tap := rfl
@[simp] theorem updCmd_freeCount (s : State) (slot seq : Nat) (f : Cmd → Cmd) :
    (s.updCmd slot seq f).freeCount = s.freeCount := rfl
@[simp] theorem updCmd_pending (s : State) (slot seq : Nat) (f : Cmd → Cmd) :
    (s.updCmd slot seq f).pending = s.pending := rfl

@[simp] theorem dropCmd_clk (s : State) (slot seq : Nat) : (s.dropCmd slot seq).clk = s.clk := rfl
@[simp] theorem dropCmd_pins (s : State) (slot seq : Nat) : (s.dropCmd slot seq).pins = s.pins := rfl
@[simp] theorem dropCmd_rst (s : State) (slot seq : Nat) : (s.dropCmd slot seq).rst = s.rst := rfl
@[simp] theorem dropCmd_mem (s : State) (slot seq : Nat) : (s.dropCmd slot seq).mem = s.mem := rfl
@[simp] theorem dropCmd_insts (s : State) (slot seq : Nat) : (s.dropCmd slot seq).insts = s.insts := rfl
@[simp] theorem dropCmd_queues (s : State) (slot seq : Nat) : (s.dropCmd slot seq).queues = s.queues := rfl
@[simp] theorem dropCmd_contracts (s : State) (slot seq : Nat) : (s.dropCmd slot seq).contracts = s.contracts := rfl
@[simp] theorem dropCmd_pages (s : State) (slot seq : Nat) : (s.dropCmd slot seq).pages = s.pages := rfl
@[simp] theorem dropCmd_fep (s : State) (slot seq : Nat) : (s.dropCmd slot seq).fep = s.fep := rfl
@[simp] theorem dropCmd_parts (s : State) (slot seq : Nat) : (s.dropCmd slot seq).parts = s.parts := rfl
@[simp] theorem dropCmd_clusters (s : State) (slot seq : Nat) : (s.dropCmd slot seq).clusters = s.clusters := rfl
@[simp] theorem dropCmd_skims (s : State) (slot seq : Nat) : (s.dropCmd slot seq).skims = s.skims := rfl
@[simp] theorem dropCmd_net (s : State) (slot seq : Nat) : (s.dropCmd slot seq).net = s.net := rfl
@[simp] theorem dropCmd_link (s : State) (slot seq : Nat) : (s.dropCmd slot seq).link = s.link := rfl
@[simp] theorem dropCmd_mgc (s : State) (slot seq : Nat) : (s.dropCmd slot seq).mgc = s.mgc := rfl
@[simp] theorem dropCmd_bus (s : State) (slot seq : Nat) : (s.dropCmd slot seq).bus = s.bus := rfl
@[simp] theorem dropCmd_dict (s : State) (slot seq : Nat) : (s.dropCmd slot seq).dict = s.dict := rfl
@[simp] theorem dropCmd_keep (s : State) (slot seq : Nat) : (s.dropCmd slot seq).keep = s.keep := rfl
@[simp] theorem dropCmd_cal (s : State) (slot seq : Nat) : (s.dropCmd slot seq).cal = s.cal := rfl
@[simp] theorem dropCmd_pwr (s : State) (slot seq : Nat) : (s.dropCmd slot seq).pwr = s.pwr := rfl
@[simp] theorem dropCmd_abrt (s : State) (slot seq : Nat) : (s.dropCmd slot seq).abrt = s.abrt := rfl
@[simp] theorem dropCmd_tap (s : State) (slot seq : Nat) : (s.dropCmd slot seq).tap = s.tap := rfl
@[simp] theorem dropCmd_freeCount (s : State) (slot seq : Nat) : (s.dropCmd slot seq).freeCount = s.freeCount := rfl
@[simp] theorem dropCmd_pending (s : State) (slot seq : Nat) : (s.dropCmd slot seq).pending = s.pending := rfl

@[simp] theorem updContract_clk (s : State) (id : Nat) (f : Contract → Contract) :
    (s.updContract id f).clk = s.clk := rfl
@[simp] theorem updContract_pins (s : State) (id : Nat) (f : Contract → Contract) :
    (s.updContract id f).pins = s.pins := rfl
@[simp] theorem updContract_rst (s : State) (id : Nat) (f : Contract → Contract) :
    (s.updContract id f).rst = s.rst := rfl
@[simp] theorem updContract_mem (s : State) (id : Nat) (f : Contract → Contract) :
    (s.updContract id f).mem = s.mem := rfl
@[simp] theorem updContract_insts (s : State) (id : Nat) (f : Contract → Contract) :
    (s.updContract id f).insts = s.insts := rfl
@[simp] theorem updContract_queues (s : State) (id : Nat) (f : Contract → Contract) :
    (s.updContract id f).queues = s.queues := rfl
@[simp] theorem updContract_cmds (s : State) (id : Nat) (f : Contract → Contract) :
    (s.updContract id f).cmds = s.cmds := rfl
@[simp] theorem updContract_pages (s : State) (id : Nat) (f : Contract → Contract) :
    (s.updContract id f).pages = s.pages := rfl
@[simp] theorem updContract_fep (s : State) (id : Nat) (f : Contract → Contract) :
    (s.updContract id f).fep = s.fep := rfl
@[simp] theorem updContract_parts (s : State) (id : Nat) (f : Contract → Contract) :
    (s.updContract id f).parts = s.parts := rfl
@[simp] theorem updContract_clusters (s : State) (id : Nat) (f : Contract → Contract) :
    (s.updContract id f).clusters = s.clusters := rfl
@[simp] theorem updContract_skims (s : State) (id : Nat) (f : Contract → Contract) :
    (s.updContract id f).skims = s.skims := rfl
@[simp] theorem updContract_net (s : State) (id : Nat) (f : Contract → Contract) :
    (s.updContract id f).net = s.net := rfl
@[simp] theorem updContract_link (s : State) (id : Nat) (f : Contract → Contract) :
    (s.updContract id f).link = s.link := rfl
@[simp] theorem updContract_mgc (s : State) (id : Nat) (f : Contract → Contract) :
    (s.updContract id f).mgc = s.mgc := rfl
@[simp] theorem updContract_bus (s : State) (id : Nat) (f : Contract → Contract) :
    (s.updContract id f).bus = s.bus := rfl
@[simp] theorem updContract_dict (s : State) (id : Nat) (f : Contract → Contract) :
    (s.updContract id f).dict = s.dict := rfl
@[simp] theorem updContract_keep (s : State) (id : Nat) (f : Contract → Contract) :
    (s.updContract id f).keep = s.keep := rfl
@[simp] theorem updContract_cal (s : State) (id : Nat) (f : Contract → Contract) :
    (s.updContract id f).cal = s.cal := rfl
@[simp] theorem updContract_pwr (s : State) (id : Nat) (f : Contract → Contract) :
    (s.updContract id f).pwr = s.pwr := rfl
@[simp] theorem updContract_abrt (s : State) (id : Nat) (f : Contract → Contract) :
    (s.updContract id f).abrt = s.abrt := rfl
@[simp] theorem updContract_tap (s : State) (id : Nat) (f : Contract → Contract) :
    (s.updContract id f).tap = s.tap := rfl
@[simp] theorem updContract_freeCount (s : State) (id : Nat) (f : Contract → Contract) :
    (s.updContract id f).freeCount = s.freeCount := rfl
@[simp] theorem updContract_pending (s : State) (id : Nat) (f : Contract → Contract) :
    (s.updContract id f).pending = s.pending := rfl

@[simp] theorem mapCmds_clk (s : State) (f : Cmd → Cmd) : (s.mapCmds f).clk = s.clk := rfl
@[simp] theorem mapCmds_pins (s : State) (f : Cmd → Cmd) : (s.mapCmds f).pins = s.pins := rfl
@[simp] theorem mapCmds_rst (s : State) (f : Cmd → Cmd) : (s.mapCmds f).rst = s.rst := rfl
@[simp] theorem mapCmds_mem (s : State) (f : Cmd → Cmd) : (s.mapCmds f).mem = s.mem := rfl
@[simp] theorem mapCmds_insts (s : State) (f : Cmd → Cmd) : (s.mapCmds f).insts = s.insts := rfl
@[simp] theorem mapCmds_queues (s : State) (f : Cmd → Cmd) : (s.mapCmds f).queues = s.queues := rfl
@[simp] theorem mapCmds_contracts (s : State) (f : Cmd → Cmd) : (s.mapCmds f).contracts = s.contracts := rfl
@[simp] theorem mapCmds_pages (s : State) (f : Cmd → Cmd) : (s.mapCmds f).pages = s.pages := rfl
@[simp] theorem mapCmds_fep (s : State) (f : Cmd → Cmd) : (s.mapCmds f).fep = s.fep := rfl
@[simp] theorem mapCmds_parts (s : State) (f : Cmd → Cmd) : (s.mapCmds f).parts = s.parts := rfl
@[simp] theorem mapCmds_clusters (s : State) (f : Cmd → Cmd) : (s.mapCmds f).clusters = s.clusters := rfl
@[simp] theorem mapCmds_skims (s : State) (f : Cmd → Cmd) : (s.mapCmds f).skims = s.skims := rfl
@[simp] theorem mapCmds_net (s : State) (f : Cmd → Cmd) : (s.mapCmds f).net = s.net := rfl
@[simp] theorem mapCmds_link (s : State) (f : Cmd → Cmd) : (s.mapCmds f).link = s.link := rfl
@[simp] theorem mapCmds_mgc (s : State) (f : Cmd → Cmd) : (s.mapCmds f).mgc = s.mgc := rfl
@[simp] theorem mapCmds_bus (s : State) (f : Cmd → Cmd) : (s.mapCmds f).bus = s.bus := rfl
@[simp] theorem mapCmds_dict (s : State) (f : Cmd → Cmd) : (s.mapCmds f).dict = s.dict := rfl
@[simp] theorem mapCmds_keep (s : State) (f : Cmd → Cmd) : (s.mapCmds f).keep = s.keep := rfl
@[simp] theorem mapCmds_cal (s : State) (f : Cmd → Cmd) : (s.mapCmds f).cal = s.cal := rfl
@[simp] theorem mapCmds_pwr (s : State) (f : Cmd → Cmd) : (s.mapCmds f).pwr = s.pwr := rfl
@[simp] theorem mapCmds_abrt (s : State) (f : Cmd → Cmd) : (s.mapCmds f).abrt = s.abrt := rfl
@[simp] theorem mapCmds_tap (s : State) (f : Cmd → Cmd) : (s.mapCmds f).tap = s.tap := rfl
@[simp] theorem mapCmds_freeCount (s : State) (f : Cmd → Cmd) : (s.mapCmds f).freeCount = s.freeCount := rfl
@[simp] theorem mapCmds_pending (s : State) (f : Cmd → Cmd) : (s.mapCmds f).pending = s.pending := rfl

@[simp] theorem useFree_clk (s : State) : (s.useFree).clk = s.clk := rfl
@[simp] theorem useFree_pins (s : State) : (s.useFree).pins = s.pins := rfl
@[simp] theorem useFree_rst (s : State) : (s.useFree).rst = s.rst := rfl
@[simp] theorem useFree_mem (s : State) : (s.useFree).mem = s.mem := rfl
@[simp] theorem useFree_insts (s : State) : (s.useFree).insts = s.insts := rfl
@[simp] theorem useFree_queues (s : State) : (s.useFree).queues = s.queues := rfl
@[simp] theorem useFree_cmds (s : State) : (s.useFree).cmds = s.cmds := rfl
@[simp] theorem useFree_contracts (s : State) : (s.useFree).contracts = s.contracts := rfl
@[simp] theorem useFree_pages (s : State) : (s.useFree).pages = s.pages := rfl
@[simp] theorem useFree_fep (s : State) : (s.useFree).fep = s.fep := rfl
@[simp] theorem useFree_parts (s : State) : (s.useFree).parts = s.parts := rfl
@[simp] theorem useFree_clusters (s : State) : (s.useFree).clusters = s.clusters := rfl
@[simp] theorem useFree_skims (s : State) : (s.useFree).skims = s.skims := rfl
@[simp] theorem useFree_net (s : State) : (s.useFree).net = s.net := rfl
@[simp] theorem useFree_link (s : State) : (s.useFree).link = s.link := rfl
@[simp] theorem useFree_mgc (s : State) : (s.useFree).mgc = s.mgc := rfl
@[simp] theorem useFree_bus (s : State) : (s.useFree).bus = s.bus := rfl
@[simp] theorem useFree_dict (s : State) : (s.useFree).dict = s.dict := rfl
@[simp] theorem useFree_keep (s : State) : (s.useFree).keep = s.keep := rfl
@[simp] theorem useFree_cal (s : State) : (s.useFree).cal = s.cal := rfl
@[simp] theorem useFree_pwr (s : State) : (s.useFree).pwr = s.pwr := rfl
@[simp] theorem useFree_abrt (s : State) : (s.useFree).abrt = s.abrt := rfl
@[simp] theorem useFree_tap (s : State) : (s.useFree).tap = s.tap := rfl
@[simp] theorem useFree_pending (s : State) : (s.useFree).pending = s.pending := rfl

@[simp] theorem writePriv_clk (s : State) (a : Nat) (bs : List Byte) : (s.writePriv a bs).clk = s.clk := rfl
@[simp] theorem writePriv_pins (s : State) (a : Nat) (bs : List Byte) : (s.writePriv a bs).pins = s.pins := rfl
@[simp] theorem writePriv_rst (s : State) (a : Nat) (bs : List Byte) : (s.writePriv a bs).rst = s.rst := rfl
@[simp] theorem writePriv_insts (s : State) (a : Nat) (bs : List Byte) : (s.writePriv a bs).insts = s.insts := rfl
@[simp] theorem writePriv_queues (s : State) (a : Nat) (bs : List Byte) : (s.writePriv a bs).queues = s.queues := rfl
@[simp] theorem writePriv_cmds (s : State) (a : Nat) (bs : List Byte) : (s.writePriv a bs).cmds = s.cmds := rfl
@[simp] theorem writePriv_contracts (s : State) (a : Nat) (bs : List Byte) :
    (s.writePriv a bs).contracts = s.contracts := rfl
@[simp] theorem writePriv_pages (s : State) (a : Nat) (bs : List Byte) : (s.writePriv a bs).pages = s.pages := rfl
@[simp] theorem writePriv_fep (s : State) (a : Nat) (bs : List Byte) : (s.writePriv a bs).fep = s.fep := rfl
@[simp] theorem writePriv_parts (s : State) (a : Nat) (bs : List Byte) : (s.writePriv a bs).parts = s.parts := rfl
@[simp] theorem writePriv_clusters (s : State) (a : Nat) (bs : List Byte) :
    (s.writePriv a bs).clusters = s.clusters := rfl
@[simp] theorem writePriv_skims (s : State) (a : Nat) (bs : List Byte) : (s.writePriv a bs).skims = s.skims := rfl
@[simp] theorem writePriv_net (s : State) (a : Nat) (bs : List Byte) : (s.writePriv a bs).net = s.net := rfl
@[simp] theorem writePriv_link (s : State) (a : Nat) (bs : List Byte) : (s.writePriv a bs).link = s.link := rfl
@[simp] theorem writePriv_mgc (s : State) (a : Nat) (bs : List Byte) : (s.writePriv a bs).mgc = s.mgc := rfl
@[simp] theorem writePriv_bus (s : State) (a : Nat) (bs : List Byte) : (s.writePriv a bs).bus = s.bus := rfl
@[simp] theorem writePriv_dict (s : State) (a : Nat) (bs : List Byte) : (s.writePriv a bs).dict = s.dict := rfl
@[simp] theorem writePriv_keep (s : State) (a : Nat) (bs : List Byte) : (s.writePriv a bs).keep = s.keep := rfl
@[simp] theorem writePriv_cal (s : State) (a : Nat) (bs : List Byte) : (s.writePriv a bs).cal = s.cal := rfl
@[simp] theorem writePriv_pwr (s : State) (a : Nat) (bs : List Byte) : (s.writePriv a bs).pwr = s.pwr := rfl
@[simp] theorem writePriv_abrt (s : State) (a : Nat) (bs : List Byte) : (s.writePriv a bs).abrt = s.abrt := rfl
@[simp] theorem writePriv_tap (s : State) (a : Nat) (bs : List Byte) : (s.writePriv a bs).tap = s.tap := rfl
@[simp] theorem writePriv_freeCount (s : State) (a : Nat) (bs : List Byte) :
    (s.writePriv a bs).freeCount = s.freeCount := rfl
@[simp] theorem writePriv_pending (s : State) (a : Nat) (bs : List Byte) : (s.writePriv a bs).pending = s.pending := rfl

@[simp] theorem writeKeep_clk (s : State) (a : Nat) (bs : List Byte) : (s.writeKeep a bs).clk = s.clk := rfl
@[simp] theorem writeKeep_pins (s : State) (a : Nat) (bs : List Byte) : (s.writeKeep a bs).pins = s.pins := rfl
@[simp] theorem writeKeep_rst (s : State) (a : Nat) (bs : List Byte) : (s.writeKeep a bs).rst = s.rst := rfl
@[simp] theorem writeKeep_mem (s : State) (a : Nat) (bs : List Byte) : (s.writeKeep a bs).mem = s.mem := rfl
@[simp] theorem writeKeep_insts (s : State) (a : Nat) (bs : List Byte) : (s.writeKeep a bs).insts = s.insts := rfl
@[simp] theorem writeKeep_queues (s : State) (a : Nat) (bs : List Byte) : (s.writeKeep a bs).queues = s.queues := rfl
@[simp] theorem writeKeep_cmds (s : State) (a : Nat) (bs : List Byte) : (s.writeKeep a bs).cmds = s.cmds := rfl
@[simp] theorem writeKeep_contracts (s : State) (a : Nat) (bs : List Byte) :
    (s.writeKeep a bs).contracts = s.contracts := rfl
@[simp] theorem writeKeep_pages (s : State) (a : Nat) (bs : List Byte) : (s.writeKeep a bs).pages = s.pages := rfl
@[simp] theorem writeKeep_fep (s : State) (a : Nat) (bs : List Byte) : (s.writeKeep a bs).fep = s.fep := rfl
@[simp] theorem writeKeep_parts (s : State) (a : Nat) (bs : List Byte) : (s.writeKeep a bs).parts = s.parts := rfl
@[simp] theorem writeKeep_clusters (s : State) (a : Nat) (bs : List Byte) :
    (s.writeKeep a bs).clusters = s.clusters := rfl
@[simp] theorem writeKeep_skims (s : State) (a : Nat) (bs : List Byte) : (s.writeKeep a bs).skims = s.skims := rfl
@[simp] theorem writeKeep_net (s : State) (a : Nat) (bs : List Byte) : (s.writeKeep a bs).net = s.net := rfl
@[simp] theorem writeKeep_link (s : State) (a : Nat) (bs : List Byte) : (s.writeKeep a bs).link = s.link := rfl
@[simp] theorem writeKeep_mgc (s : State) (a : Nat) (bs : List Byte) : (s.writeKeep a bs).mgc = s.mgc := rfl
@[simp] theorem writeKeep_bus (s : State) (a : Nat) (bs : List Byte) : (s.writeKeep a bs).bus = s.bus := rfl
@[simp] theorem writeKeep_dict (s : State) (a : Nat) (bs : List Byte) : (s.writeKeep a bs).dict = s.dict := rfl
@[simp] theorem writeKeep_cal (s : State) (a : Nat) (bs : List Byte) : (s.writeKeep a bs).cal = s.cal := rfl
@[simp] theorem writeKeep_pwr (s : State) (a : Nat) (bs : List Byte) : (s.writeKeep a bs).pwr = s.pwr := rfl
@[simp] theorem writeKeep_abrt (s : State) (a : Nat) (bs : List Byte) : (s.writeKeep a bs).abrt = s.abrt := rfl
@[simp] theorem writeKeep_tap (s : State) (a : Nat) (bs : List Byte) : (s.writeKeep a bs).tap = s.tap := rfl
@[simp] theorem writeKeep_freeCount (s : State) (a : Nat) (bs : List Byte) :
    (s.writeKeep a bs).freeCount = s.freeCount := rfl
@[simp] theorem writeKeep_pending (s : State) (a : Nat) (bs : List Byte) : (s.writeKeep a bs).pending = s.pending := rfl

@[simp] theorem updPart_inst (s : State) (p : Nat) (f : Part → Part) (m : Nat) :
    (s.updPart p f).inst m = s.inst m := rfl
@[simp] theorem updCluster_inst (s : State) (c : Nat) (f : Cluster → Cluster) (m : Nat) :
    (s.updCluster c f).inst m = s.inst m := rfl
@[simp] theorem updSkim_inst (s : State) (g : Nat) (f : Skim → Skim) (m : Nat) :
    (s.updSkim g f).inst m = s.inst m := rfl
@[simp] theorem updQueue_inst (s : State) (k : Nat) (f : Queue → Queue) (m : Nat) :
    (s.updQueue k f).inst m = s.inst m := rfl
@[simp] theorem setCmd_inst (s : State) (c : Cmd) (m : Nat) :
    (s.setCmd c).inst m = s.inst m := rfl
@[simp] theorem updCmd_inst (s : State) (slot seq : Nat) (f : Cmd → Cmd) (m : Nat) :
    (s.updCmd slot seq f).inst m = s.inst m := rfl
@[simp] theorem useFree_inst (s : State) (m : Nat) :
    (s.useFree).inst m = s.inst m := rfl
@[simp] theorem updInst_part (s : State) (n : Nat) (f : Inst → Inst) (m : Nat) :
    (s.updInst n f).part m = s.part m := rfl
@[simp] theorem updCluster_part (s : State) (c : Nat) (f : Cluster → Cluster) (m : Nat) :
    (s.updCluster c f).part m = s.part m := rfl
@[simp] theorem updSkim_part (s : State) (g : Nat) (f : Skim → Skim) (m : Nat) :
    (s.updSkim g f).part m = s.part m := rfl
@[simp] theorem updQueue_part (s : State) (k : Nat) (f : Queue → Queue) (m : Nat) :
    (s.updQueue k f).part m = s.part m := rfl
@[simp] theorem setCmd_part (s : State) (c : Cmd) (m : Nat) :
    (s.setCmd c).part m = s.part m := rfl
@[simp] theorem updCmd_part (s : State) (slot seq : Nat) (f : Cmd → Cmd) (m : Nat) :
    (s.updCmd slot seq f).part m = s.part m := rfl
@[simp] theorem useFree_part (s : State) (m : Nat) :
    (s.useFree).part m = s.part m := rfl
@[simp] theorem updInst_cluster (s : State) (n : Nat) (f : Inst → Inst) (m : Nat) :
    (s.updInst n f).cluster m = s.cluster m := rfl
@[simp] theorem updPart_cluster (s : State) (p : Nat) (f : Part → Part) (m : Nat) :
    (s.updPart p f).cluster m = s.cluster m := rfl
@[simp] theorem updSkim_cluster (s : State) (g : Nat) (f : Skim → Skim) (m : Nat) :
    (s.updSkim g f).cluster m = s.cluster m := rfl
@[simp] theorem updQueue_cluster (s : State) (k : Nat) (f : Queue → Queue) (m : Nat) :
    (s.updQueue k f).cluster m = s.cluster m := rfl
@[simp] theorem setCmd_cluster (s : State) (c : Cmd) (m : Nat) :
    (s.setCmd c).cluster m = s.cluster m := rfl
@[simp] theorem updCmd_cluster (s : State) (slot seq : Nat) (f : Cmd → Cmd) (m : Nat) :
    (s.updCmd slot seq f).cluster m = s.cluster m := rfl
@[simp] theorem useFree_cluster (s : State) (m : Nat) :
    (s.useFree).cluster m = s.cluster m := rfl
@[simp] theorem updInst_skim (s : State) (n : Nat) (f : Inst → Inst) (m : Nat) :
    (s.updInst n f).skim m = s.skim m := rfl
@[simp] theorem updPart_skim (s : State) (p : Nat) (f : Part → Part) (m : Nat) :
    (s.updPart p f).skim m = s.skim m := rfl
@[simp] theorem updCluster_skim (s : State) (c : Nat) (f : Cluster → Cluster) (m : Nat) :
    (s.updCluster c f).skim m = s.skim m := rfl
@[simp] theorem updQueue_skim (s : State) (k : Nat) (f : Queue → Queue) (m : Nat) :
    (s.updQueue k f).skim m = s.skim m := rfl
@[simp] theorem setCmd_skim (s : State) (c : Cmd) (m : Nat) :
    (s.setCmd c).skim m = s.skim m := rfl
@[simp] theorem updCmd_skim (s : State) (slot seq : Nat) (f : Cmd → Cmd) (m : Nat) :
    (s.updCmd slot seq f).skim m = s.skim m := rfl
@[simp] theorem useFree_skim (s : State) (m : Nat) :
    (s.useFree).skim m = s.skim m := rfl
@[simp] theorem updInst_queue (s : State) (n : Nat) (f : Inst → Inst) (m : Nat) :
    (s.updInst n f).queue m = s.queue m := rfl
@[simp] theorem updPart_queue (s : State) (p : Nat) (f : Part → Part) (m : Nat) :
    (s.updPart p f).queue m = s.queue m := rfl
@[simp] theorem updCluster_queue (s : State) (c : Nat) (f : Cluster → Cluster) (m : Nat) :
    (s.updCluster c f).queue m = s.queue m := rfl
@[simp] theorem updSkim_queue (s : State) (g : Nat) (f : Skim → Skim) (m : Nat) :
    (s.updSkim g f).queue m = s.queue m := rfl
@[simp] theorem setCmd_queue (s : State) (c : Cmd) (m : Nat) :
    (s.setCmd c).queue m = s.queue m := rfl
@[simp] theorem updCmd_queue (s : State) (slot seq : Nat) (f : Cmd → Cmd) (m : Nat) :
    (s.updCmd slot seq f).queue m = s.queue m := rfl
@[simp] theorem useFree_queue (s : State) (m : Nat) :
    (s.useFree).queue m = s.queue m := rfl
@[simp] theorem updInst_now (s : State) (n : Nat) (f : Inst → Inst) : (s.updInst n f).now = s.now := rfl
@[simp] theorem updPart_now (s : State) (p : Nat) (f : Part → Part) : (s.updPart p f).now = s.now := rfl
@[simp] theorem updCluster_now (s : State) (c : Nat) (f : Cluster → Cluster) : (s.updCluster c f).now = s.now := rfl
@[simp] theorem updSkim_now (s : State) (g : Nat) (f : Skim → Skim) : (s.updSkim g f).now = s.now := rfl
@[simp] theorem updFunc_now (s : State) (n : Nat) (f : Func → Func) : (s.updFunc n f).now = s.now := rfl
@[simp] theorem updBridge_now (s : State) (b : Nat) (f : Bridge → Bridge) : (s.updBridge b f).now = s.now := rfl
@[simp] theorem updQueue_now (s : State) (k : Nat) (f : Queue → Queue) : (s.updQueue k f).now = s.now := rfl
@[simp] theorem setCmd_now (s : State) (c : Cmd) : (s.setCmd c).now = s.now := rfl
@[simp] theorem updCmd_now (s : State) (slot seq : Nat) (f : Cmd → Cmd) : (s.updCmd slot seq f).now = s.now := rfl
@[simp] theorem dropCmd_now (s : State) (slot seq : Nat) : (s.dropCmd slot seq).now = s.now := rfl
@[simp] theorem updContract_now (s : State) (id : Nat) (f : Contract → Contract) : (s.updContract id f).now = s.now := rfl
@[simp] theorem mapCmds_now (s : State) (f : Cmd → Cmd) : (s.mapCmds f).now = s.now := rfl
@[simp] theorem useFree_now (s : State) : (s.useFree).now = s.now := rfl
@[simp] theorem writePriv_now (s : State) (a : Nat) (bs : List Byte) : (s.writePriv a bs).now = s.now := rfl
@[simp] theorem writeKeep_now (s : State) (a : Nat) (bs : List Byte) : (s.writeKeep a bs).now = s.now := rfl

end Sys2Proof.Laws
end

