-- ==== Sys2Proof/Laws/Events.lean ====
section
/-! SUPPORT. What a message, an event and a mailbox reply leave alone: an MSI-X message touches the vectors and the posted
queue, an event the rings, the hold queue and a message, a reply its ring and a message. -/

namespace Sys2Proof.Laws
open Sys2Proof Sys2Proof.Machine

/-- Only the vectors and the posted queue of the host link differ. -/
def SameLink (l m : HostLink) : Prop := m = { l with funcs := m.funcs, posted := m.posted }

theorem SameLink.refl (l : HostLink) : SameLink l l := rfl

theorem SameLink.trans {a b c : HostLink} (h : SameLink a b) (k : SameLink b c) : SameLink a c := by
  unfold SameLink at *
  rw [k, h]

/-- Only the mailboxes of the instances differ. -/
structure SameInsts (s t : State) : Prop where
  eq : ∀ n, t.inst n = { s.inst n with box := (t.inst n).box }

theorem SameInsts.refl (s : State) : SameInsts s s := ⟨fun _ => rfl⟩

theorem SameInsts.trans {a b c : State} (h : SameInsts a b) (k : SameInsts b c) : SameInsts a c := ⟨fun n => by
  rw [k.eq n, h.eq n]⟩

theorem sameInsts_of_eq {s t : State} (h : t.insts = s.insts) : SameInsts s t := ⟨fun n => by
  simp [State.inst, h]⟩

theorem sameInsts_box (s : State) (n : Nat) (f : Inst → Mailbox) :
    SameInsts s (s.updInst n (fun i => { i with box := f i })) := ⟨fun m => by
  by_cases h : m = n
  · subst h; simp
  · simp [updInst_inst_other _ _ h]⟩

/-- Only the hold queue of events and the count of lost ones differ. -/
def SameMgc (a b : Mgc) : Prop := b = { a with holdQueue := b.holdQueue, holdLost := b.holdLost }

@[simp] theorem msix_clk (s : State) (fn v : Nat) : (s.msix fn v).clk = s.clk := by
  unfold State.msix; split <;> rfl
@[simp] theorem msix_pins (s : State) (fn v : Nat) : (s.msix fn v).pins = s.pins := by
  unfold State.msix; split <;> rfl
@[simp] theorem msix_rst (s : State) (fn v : Nat) : (s.msix fn v).rst = s.rst := by
  unfold State.msix; split <;> rfl
@[simp] theorem msix_mem (s : State) (fn v : Nat) : (s.msix fn v).mem = s.mem := by
  unfold State.msix; split <;> rfl
@[simp] theorem msix_insts (s : State) (fn v : Nat) : (s.msix fn v).insts = s.insts := by
  unfold State.msix; split <;> rfl
@[simp] theorem msix_queues (s : State) (fn v : Nat) : (s.msix fn v).queues = s.queues := by
  unfold State.msix; split <;> rfl
@[simp] theorem msix_cmds (s : State) (fn v : Nat) : (s.msix fn v).cmds = s.cmds := by
  unfold State.msix; split <;> rfl
@[simp] theorem msix_contracts (s : State) (fn v : Nat) : (s.msix fn v).contracts = s.contracts := by
  unfold State.msix; split <;> rfl
@[simp] theorem msix_pages (s : State) (fn v : Nat) : (s.msix fn v).pages = s.pages := by
  unfold State.msix; split <;> rfl
@[simp] theorem msix_fep (s : State) (fn v : Nat) : (s.msix fn v).fep = s.fep := by
  unfold State.msix; split <;> rfl
@[simp] theorem msix_parts (s : State) (fn v : Nat) : (s.msix fn v).parts = s.parts := by
  unfold State.msix; split <;> rfl
@[simp] theorem msix_clusters (s : State) (fn v : Nat) : (s.msix fn v).clusters = s.clusters := by
  unfold State.msix; split <;> rfl
@[simp] theorem msix_skims (s : State) (fn v : Nat) : (s.msix fn v).skims = s.skims := by
  unfold State.msix; split <;> rfl
@[simp] theorem msix_net (s : State) (fn v : Nat) : (s.msix fn v).net = s.net := by
  unfold State.msix; split <;> rfl
@[simp] theorem msix_mgc (s : State) (fn v : Nat) : (s.msix fn v).mgc = s.mgc := by
  unfold State.msix; split <;> rfl
@[simp] theorem msix_bus (s : State) (fn v : Nat) : (s.msix fn v).bus = s.bus := by
  unfold State.msix; split <;> rfl
@[simp] theorem msix_dict (s : State) (fn v : Nat) : (s.msix fn v).dict = s.dict := by
  unfold State.msix; split <;> rfl
@[simp] theorem msix_keep (s : State) (fn v : Nat) : (s.msix fn v).keep = s.keep := by
  unfold State.msix; split <;> rfl
@[simp] theorem msix_cal (s : State) (fn v : Nat) : (s.msix fn v).cal = s.cal := by
  unfold State.msix; split <;> rfl
@[simp] theorem msix_pwr (s : State) (fn v : Nat) : (s.msix fn v).pwr = s.pwr := by
  unfold State.msix; split <;> rfl
@[simp] theorem msix_abrt (s : State) (fn v : Nat) : (s.msix fn v).abrt = s.abrt := by
  unfold State.msix; split <;> rfl
@[simp] theorem msix_tap (s : State) (fn v : Nat) : (s.msix fn v).tap = s.tap := by
  unfold State.msix; split <;> rfl
@[simp] theorem msix_freeCount (s : State) (fn v : Nat) : (s.msix fn v).freeCount = s.freeCount := by
  unfold State.msix; split <;> rfl
@[simp] theorem msix_pending (s : State) (fn v : Nat) : (s.msix fn v).pending = s.pending := by
  unfold State.msix; split <;> rfl
theorem msix_link (s : State) (fn v : Nat) : SameLink s.link (s.msix fn v).link := by
  unfold State.msix; split <;> rfl

@[simp] theorem ringEvent_clk (s : State) (n code subject time : Nat) (payload : List Byte) :
    (s.ringEvent n code subject time payload).clk = s.clk := by
  unfold State.ringEvent; dsimp only; split
  · exact msix_clk ..
  · rfl
@[simp] theorem ringEvent_pins (s : State) (n code subject time : Nat) (payload : List Byte) :
    (s.ringEvent n code subject time payload).pins = s.pins := by
  unfold State.ringEvent; dsimp only; split
  · exact msix_pins ..
  · rfl
@[simp] theorem ringEvent_rst (s : State) (n code subject time : Nat) (payload : List Byte) :
    (s.ringEvent n code subject time payload).rst = s.rst := by
  unfold State.ringEvent; dsimp only; split
  · exact msix_rst ..
  · rfl
@[simp] theorem ringEvent_mem (s : State) (n code subject time : Nat) (payload : List Byte) :
    (s.ringEvent n code subject time payload).mem = s.mem := by
  unfold State.ringEvent; dsimp only; split
  · exact msix_mem ..
  · rfl
@[simp] theorem ringEvent_queues (s : State) (n code subject time : Nat) (payload : List Byte) :
    (s.ringEvent n code subject time payload).queues = s.queues := by
  unfold State.ringEvent; dsimp only; split
  · exact msix_queues ..
  · rfl
@[simp] theorem ringEvent_cmds (s : State) (n code subject time : Nat) (payload : List Byte) :
    (s.ringEvent n code subject time payload).cmds = s.cmds := by
  unfold State.ringEvent; dsimp only; split
  · exact msix_cmds ..
  · rfl
@[simp] theorem ringEvent_contracts (s : State) (n code subject time : Nat) (payload : List Byte) :
    (s.ringEvent n code subject time payload).contracts = s.contracts := by
  unfold State.ringEvent; dsimp only; split
  · exact msix_contracts ..
  · rfl
@[simp] theorem ringEvent_pages (s : State) (n code subject time : Nat) (payload : List Byte) :
    (s.ringEvent n code subject time payload).pages = s.pages := by
  unfold State.ringEvent; dsimp only; split
  · exact msix_pages ..
  · rfl
@[simp] theorem ringEvent_fep (s : State) (n code subject time : Nat) (payload : List Byte) :
    (s.ringEvent n code subject time payload).fep = s.fep := by
  unfold State.ringEvent; dsimp only; split
  · exact msix_fep ..
  · rfl
@[simp] theorem ringEvent_parts (s : State) (n code subject time : Nat) (payload : List Byte) :
    (s.ringEvent n code subject time payload).parts = s.parts := by
  unfold State.ringEvent; dsimp only; split
  · exact msix_parts ..
  · rfl
@[simp] theorem ringEvent_clusters (s : State) (n code subject time : Nat) (payload : List Byte) :
    (s.ringEvent n code subject time payload).clusters = s.clusters := by
  unfold State.ringEvent; dsimp only; split
  · exact msix_clusters ..
  · rfl
@[simp] theorem ringEvent_skims (s : State) (n code subject time : Nat) (payload : List Byte) :
    (s.ringEvent n code subject time payload).skims = s.skims := by
  unfold State.ringEvent; dsimp only; split
  · exact msix_skims ..
  · rfl
@[simp] theorem ringEvent_net (s : State) (n code subject time : Nat) (payload : List Byte) :
    (s.ringEvent n code subject time payload).net = s.net := by
  unfold State.ringEvent; dsimp only; split
  · exact msix_net ..
  · rfl
@[simp] theorem ringEvent_mgc (s : State) (n code subject time : Nat) (payload : List Byte) :
    (s.ringEvent n code subject time payload).mgc = s.mgc := by
  unfold State.ringEvent; dsimp only; split
  · exact msix_mgc ..
  · rfl
@[simp] theorem ringEvent_bus (s : State) (n code subject time : Nat) (payload : List Byte) :
    (s.ringEvent n code subject time payload).bus = s.bus := by
  unfold State.ringEvent; dsimp only; split
  · exact msix_bus ..
  · rfl
@[simp] theorem ringEvent_dict (s : State) (n code subject time : Nat) (payload : List Byte) :
    (s.ringEvent n code subject time payload).dict = s.dict := by
  unfold State.ringEvent; dsimp only; split
  · exact msix_dict ..
  · rfl
@[simp] theorem ringEvent_keep (s : State) (n code subject time : Nat) (payload : List Byte) :
    (s.ringEvent n code subject time payload).keep = s.keep := by
  unfold State.ringEvent; dsimp only; split
  · exact msix_keep ..
  · rfl
@[simp] theorem ringEvent_cal (s : State) (n code subject time : Nat) (payload : List Byte) :
    (s.ringEvent n code subject time payload).cal = s.cal := by
  unfold State.ringEvent; dsimp only; split
  · exact msix_cal ..
  · rfl
@[simp] theorem ringEvent_pwr (s : State) (n code subject time : Nat) (payload : List Byte) :
    (s.ringEvent n code subject time payload).pwr = s.pwr := by
  unfold State.ringEvent; dsimp only; split
  · exact msix_pwr ..
  · rfl
@[simp] theorem ringEvent_abrt (s : State) (n code subject time : Nat) (payload : List Byte) :
    (s.ringEvent n code subject time payload).abrt = s.abrt := by
  unfold State.ringEvent; dsimp only; split
  · exact msix_abrt ..
  · rfl
@[simp] theorem ringEvent_tap (s : State) (n code subject time : Nat) (payload : List Byte) :
    (s.ringEvent n code subject time payload).tap = s.tap := by
  unfold State.ringEvent; dsimp only; split
  · exact msix_tap ..
  · rfl
@[simp] theorem ringEvent_freeCount (s : State) (n code subject time : Nat) (payload : List Byte) :
    (s.ringEvent n code subject time payload).freeCount = s.freeCount := by
  unfold State.ringEvent; dsimp only; split
  · exact msix_freeCount ..
  · rfl
@[simp] theorem ringEvent_pending (s : State) (n code subject time : Nat) (payload : List Byte) :
    (s.ringEvent n code subject time payload).pending = s.pending := by
  unfold State.ringEvent; dsimp only; split
  · exact msix_pending ..
  · rfl
theorem ringEvent_link (s : State) (n code subject time : Nat) (payload : List Byte) :
    SameLink s.link (s.ringEvent n code subject time payload).link := by
  unfold State.ringEvent; dsimp only; split
  · exact msix_link _ _ _
  · rfl
theorem ringEvent_insts (s : State) (n code subject time : Nat) (payload : List Byte) :
    SameInsts s (s.ringEvent n code subject time payload) := by
  have h := sameInsts_box s n (fun _ => (s.inst n).box.putEvent n code subject time payload)
  unfold State.ringEvent; dsimp only; split
  · exact h.trans (sameInsts_of_eq (msix_insts ..))
  · exact h

@[simp] theorem deliver_clk (s : State) (e : HeldEvent) : (s.deliver e).clk = s.clk := by
  unfold State.deliver; dsimp only; split <;> split
  · exact (ringEvent_clk ..).trans (ringEvent_clk ..)
  · exact ringEvent_clk ..
  · exact ringEvent_clk ..
  · rfl
@[simp] theorem deliver_pins (s : State) (e : HeldEvent) : (s.deliver e).pins = s.pins := by
  unfold State.deliver; dsimp only; split <;> split
  · exact (ringEvent_pins ..).trans (ringEvent_pins ..)
  · exact ringEvent_pins ..
  · exact ringEvent_pins ..
  · rfl
@[simp] theorem deliver_rst (s : State) (e : HeldEvent) : (s.deliver e).rst = s.rst := by
  unfold State.deliver; dsimp only; split <;> split
  · exact (ringEvent_rst ..).trans (ringEvent_rst ..)
  · exact ringEvent_rst ..
  · exact ringEvent_rst ..
  · rfl
@[simp] theorem deliver_mem (s : State) (e : HeldEvent) : (s.deliver e).mem = s.mem := by
  unfold State.deliver; dsimp only; split <;> split
  · exact (ringEvent_mem ..).trans (ringEvent_mem ..)
  · exact ringEvent_mem ..
  · exact ringEvent_mem ..
  · rfl
@[simp] theorem deliver_queues (s : State) (e : HeldEvent) : (s.deliver e).queues = s.queues := by
  unfold State.deliver; dsimp only; split <;> split
  · exact (ringEvent_queues ..).trans (ringEvent_queues ..)
  · exact ringEvent_queues ..
  · exact ringEvent_queues ..
  · rfl
@[simp] theorem deliver_cmds (s : State) (e : HeldEvent) : (s.deliver e).cmds = s.cmds := by
  unfold State.deliver; dsimp only; split <;> split
  · exact (ringEvent_cmds ..).trans (ringEvent_cmds ..)
  · exact ringEvent_cmds ..
  · exact ringEvent_cmds ..
  · rfl
@[simp] theorem deliver_contracts (s : State) (e : HeldEvent) : (s.deliver e).contracts = s.contracts := by
  unfold State.deliver; dsimp only; split <;> split
  · exact (ringEvent_contracts ..).trans (ringEvent_contracts ..)
  · exact ringEvent_contracts ..
  · exact ringEvent_contracts ..
  · rfl
@[simp] theorem deliver_pages (s : State) (e : HeldEvent) : (s.deliver e).pages = s.pages := by
  unfold State.deliver; dsimp only; split <;> split
  · exact (ringEvent_pages ..).trans (ringEvent_pages ..)
  · exact ringEvent_pages ..
  · exact ringEvent_pages ..
  · rfl
@[simp] theorem deliver_fep (s : State) (e : HeldEvent) : (s.deliver e).fep = s.fep := by
  unfold State.deliver; dsimp only; split <;> split
  · exact (ringEvent_fep ..).trans (ringEvent_fep ..)
  · exact ringEvent_fep ..
  · exact ringEvent_fep ..
  · rfl
@[simp] theorem deliver_parts (s : State) (e : HeldEvent) : (s.deliver e).parts = s.parts := by
  unfold State.deliver; dsimp only; split <;> split
  · exact (ringEvent_parts ..).trans (ringEvent_parts ..)
  · exact ringEvent_parts ..
  · exact ringEvent_parts ..
  · rfl
@[simp] theorem deliver_clusters (s : State) (e : HeldEvent) : (s.deliver e).clusters = s.clusters := by
  unfold State.deliver; dsimp only; split <;> split
  · exact (ringEvent_clusters ..).trans (ringEvent_clusters ..)
  · exact ringEvent_clusters ..
  · exact ringEvent_clusters ..
  · rfl
@[simp] theorem deliver_skims (s : State) (e : HeldEvent) : (s.deliver e).skims = s.skims := by
  unfold State.deliver; dsimp only; split <;> split
  · exact (ringEvent_skims ..).trans (ringEvent_skims ..)
  · exact ringEvent_skims ..
  · exact ringEvent_skims ..
  · rfl
@[simp] theorem deliver_net (s : State) (e : HeldEvent) : (s.deliver e).net = s.net := by
  unfold State.deliver; dsimp only; split <;> split
  · exact (ringEvent_net ..).trans (ringEvent_net ..)
  · exact ringEvent_net ..
  · exact ringEvent_net ..
  · rfl
@[simp] theorem deliver_mgc (s : State) (e : HeldEvent) : (s.deliver e).mgc = s.mgc := by
  unfold State.deliver; dsimp only; split <;> split
  · exact (ringEvent_mgc ..).trans (ringEvent_mgc ..)
  · exact ringEvent_mgc ..
  · exact ringEvent_mgc ..
  · rfl
@[simp] theorem deliver_bus (s : State) (e : HeldEvent) : (s.deliver e).bus = s.bus := by
  unfold State.deliver; dsimp only; split <;> split
  · exact (ringEvent_bus ..).trans (ringEvent_bus ..)
  · exact ringEvent_bus ..
  · exact ringEvent_bus ..
  · rfl
@[simp] theorem deliver_dict (s : State) (e : HeldEvent) : (s.deliver e).dict = s.dict := by
  unfold State.deliver; dsimp only; split <;> split
  · exact (ringEvent_dict ..).trans (ringEvent_dict ..)
  · exact ringEvent_dict ..
  · exact ringEvent_dict ..
  · rfl
@[simp] theorem deliver_keep (s : State) (e : HeldEvent) : (s.deliver e).keep = s.keep := by
  unfold State.deliver; dsimp only; split <;> split
  · exact (ringEvent_keep ..).trans (ringEvent_keep ..)
  · exact ringEvent_keep ..
  · exact ringEvent_keep ..
  · rfl
@[simp] theorem deliver_cal (s : State) (e : HeldEvent) : (s.deliver e).cal = s.cal := by
  unfold State.deliver; dsimp only; split <;> split
  · exact (ringEvent_cal ..).trans (ringEvent_cal ..)
  · exact ringEvent_cal ..
  · exact ringEvent_cal ..
  · rfl
@[simp] theorem deliver_pwr (s : State) (e : HeldEvent) : (s.deliver e).pwr = s.pwr := by
  unfold State.deliver; dsimp only; split <;> split
  · exact (ringEvent_pwr ..).trans (ringEvent_pwr ..)
  · exact ringEvent_pwr ..
  · exact ringEvent_pwr ..
  · rfl
@[simp] theorem deliver_abrt (s : State) (e : HeldEvent) : (s.deliver e).abrt = s.abrt := by
  unfold State.deliver; dsimp only; split <;> split
  · exact (ringEvent_abrt ..).trans (ringEvent_abrt ..)
  · exact ringEvent_abrt ..
  · exact ringEvent_abrt ..
  · rfl
@[simp] theorem deliver_tap (s : State) (e : HeldEvent) : (s.deliver e).tap = s.tap := by
  unfold State.deliver; dsimp only; split <;> split
  · exact (ringEvent_tap ..).trans (ringEvent_tap ..)
  · exact ringEvent_tap ..
  · exact ringEvent_tap ..
  · rfl
@[simp] theorem deliver_freeCount (s : State) (e : HeldEvent) : (s.deliver e).freeCount = s.freeCount := by
  unfold State.deliver; dsimp only; split <;> split
  · exact (ringEvent_freeCount ..).trans (ringEvent_freeCount ..)
  · exact ringEvent_freeCount ..
  · exact ringEvent_freeCount ..
  · rfl
@[simp] theorem deliver_pending (s : State) (e : HeldEvent) : (s.deliver e).pending = s.pending := by
  unfold State.deliver; dsimp only; split <;> split
  · exact (ringEvent_pending ..).trans (ringEvent_pending ..)
  · exact ringEvent_pending ..
  · exact ringEvent_pending ..
  · rfl
theorem deliver_link (s : State) (e : HeldEvent) : SameLink s.link (s.deliver e).link := by
  unfold State.deliver; dsimp only; split <;> split
  · exact (ringEvent_link ..).trans (ringEvent_link ..)
  · exact ringEvent_link ..
  · exact ringEvent_link ..
  · rfl
theorem deliver_insts (s : State) (e : HeldEvent) : SameInsts s (s.deliver e) := by
  unfold State.deliver; dsimp only; split <;> split
  · exact (ringEvent_insts ..).trans (ringEvent_insts ..)
  · exact ringEvent_insts ..
  · exact ringEvent_insts ..
  · exact SameInsts.refl s

@[simp] theorem event_clk (s : State) (code subject : Nat) (a b : Bool) (payload : List Byte) :
    (s.event code subject a b payload).clk = s.clk := by
  unfold State.event; dsimp only; split
  · exact deliver_clk ..
  · split <;> rfl
@[simp] theorem event_pins (s : State) (code subject : Nat) (a b : Bool) (payload : List Byte) :
    (s.event code subject a b payload).pins = s.pins := by
  unfold State.event; dsimp only; split
  · exact deliver_pins ..
  · split <;> rfl
@[simp] theorem event_rst (s : State) (code subject : Nat) (a b : Bool) (payload : List Byte) :
    (s.event code subject a b payload).rst = s.rst := by
  unfold State.event; dsimp only; split
  · exact deliver_rst ..
  · split <;> rfl
@[simp] theorem event_mem (s : State) (code subject : Nat) (a b : Bool) (payload : List Byte) :
    (s.event code subject a b payload).mem = s.mem := by
  unfold State.event; dsimp only; split
  · exact deliver_mem ..
  · split <;> rfl
@[simp] theorem event_queues (s : State) (code subject : Nat) (a b : Bool) (payload : List Byte) :
    (s.event code subject a b payload).queues = s.queues := by
  unfold State.event; dsimp only; split
  · exact deliver_queues ..
  · split <;> rfl
@[simp] theorem event_cmds (s : State) (code subject : Nat) (a b : Bool) (payload : List Byte) :
    (s.event code subject a b payload).cmds = s.cmds := by
  unfold State.event; dsimp only; split
  · exact deliver_cmds ..
  · split <;> rfl
@[simp] theorem event_contracts (s : State) (code subject : Nat) (a b : Bool) (payload : List Byte) :
    (s.event code subject a b payload).contracts = s.contracts := by
  unfold State.event; dsimp only; split
  · exact deliver_contracts ..
  · split <;> rfl
@[simp] theorem event_pages (s : State) (code subject : Nat) (a b : Bool) (payload : List Byte) :
    (s.event code subject a b payload).pages = s.pages := by
  unfold State.event; dsimp only; split
  · exact deliver_pages ..
  · split <;> rfl
@[simp] theorem event_fep (s : State) (code subject : Nat) (a b : Bool) (payload : List Byte) :
    (s.event code subject a b payload).fep = s.fep := by
  unfold State.event; dsimp only; split
  · exact deliver_fep ..
  · split <;> rfl
@[simp] theorem event_parts (s : State) (code subject : Nat) (a b : Bool) (payload : List Byte) :
    (s.event code subject a b payload).parts = s.parts := by
  unfold State.event; dsimp only; split
  · exact deliver_parts ..
  · split <;> rfl
@[simp] theorem event_clusters (s : State) (code subject : Nat) (a b : Bool) (payload : List Byte) :
    (s.event code subject a b payload).clusters = s.clusters := by
  unfold State.event; dsimp only; split
  · exact deliver_clusters ..
  · split <;> rfl
@[simp] theorem event_skims (s : State) (code subject : Nat) (a b : Bool) (payload : List Byte) :
    (s.event code subject a b payload).skims = s.skims := by
  unfold State.event; dsimp only; split
  · exact deliver_skims ..
  · split <;> rfl
@[simp] theorem event_net (s : State) (code subject : Nat) (a b : Bool) (payload : List Byte) :
    (s.event code subject a b payload).net = s.net := by
  unfold State.event; dsimp only; split
  · exact deliver_net ..
  · split <;> rfl
@[simp] theorem event_bus (s : State) (code subject : Nat) (a b : Bool) (payload : List Byte) :
    (s.event code subject a b payload).bus = s.bus := by
  unfold State.event; dsimp only; split
  · exact deliver_bus ..
  · split <;> rfl
@[simp] theorem event_dict (s : State) (code subject : Nat) (a b : Bool) (payload : List Byte) :
    (s.event code subject a b payload).dict = s.dict := by
  unfold State.event; dsimp only; split
  · exact deliver_dict ..
  · split <;> rfl
@[simp] theorem event_keep (s : State) (code subject : Nat) (a b : Bool) (payload : List Byte) :
    (s.event code subject a b payload).keep = s.keep := by
  unfold State.event; dsimp only; split
  · exact deliver_keep ..
  · split <;> rfl
@[simp] theorem event_cal (s : State) (code subject : Nat) (a b : Bool) (payload : List Byte) :
    (s.event code subject a b payload).cal = s.cal := by
  unfold State.event; dsimp only; split
  · exact deliver_cal ..
  · split <;> rfl
@[simp] theorem event_pwr (s : State) (code subject : Nat) (a b : Bool) (payload : List Byte) :
    (s.event code subject a b payload).pwr = s.pwr := by
  unfold State.event; dsimp only; split
  · exact deliver_pwr ..
  · split <;> rfl
@[simp] theorem event_abrt (s : State) (code subject : Nat) (a b : Bool) (payload : List Byte) :
    (s.event code subject a b payload).abrt = s.abrt := by
  unfold State.event; dsimp only; split
  · exact deliver_abrt ..
  · split <;> rfl
@[simp] theorem event_tap (s : State) (code subject : Nat) (a b : Bool) (payload : List Byte) :
    (s.event code subject a b payload).tap = s.tap := by
  unfold State.event; dsimp only; split
  · exact deliver_tap ..
  · split <;> rfl
@[simp] theorem event_freeCount (s : State) (code subject : Nat) (a b : Bool) (payload : List Byte) :
    (s.event code subject a b payload).freeCount = s.freeCount := by
  unfold State.event; dsimp only; split
  · exact deliver_freeCount ..
  · split <;> rfl
@[simp] theorem event_pending (s : State) (code subject : Nat) (a b : Bool) (payload : List Byte) :
    (s.event code subject a b payload).pending = s.pending := by
  unfold State.event; dsimp only; split
  · exact deliver_pending ..
  · split <;> rfl
theorem event_link (s : State) (code subject : Nat) (a b : Bool) (payload : List Byte) :
    SameLink s.link (s.event code subject a b payload).link := by
  unfold State.event; dsimp only; split
  · exact deliver_link ..
  · split <;> rfl
theorem event_insts (s : State) (code subject : Nat) (a b : Bool) (payload : List Byte) :
    SameInsts s (s.event code subject a b payload) := by
  unfold State.event; dsimp only; split
  · exact deliver_insts ..
  · split <;> exact sameInsts_of_eq rfl
theorem event_mgc (s : State) (code subject : Nat) (a b : Bool) (payload : List Byte) :
    SameMgc s.mgc (s.event code subject a b payload).mgc := by
  unfold State.event SameMgc; dsimp only; split
  · rw [deliver_mgc]
  · split <;> rfl

@[simp] theorem eventLimited_clk (s : State) (code k subject : Nat) (a b : Bool) (payload : List Byte) :
    (s.eventLimited code k subject a b payload).clk = s.clk := by
  unfold State.eventLimited; dsimp only; split
  · split
    · rfl
    · exact event_clk ..
  · exact event_clk ..
@[simp] theorem eventLimited_pins (s : State) (code k subject : Nat) (a b : Bool) (payload : List Byte) :
    (s.eventLimited code k subject a b payload).pins = s.pins := by
  unfold State.eventLimited; dsimp only; split
  · split
    · rfl
    · exact event_pins ..
  · exact event_pins ..
@[simp] theorem eventLimited_rst (s : State) (code k subject : Nat) (a b : Bool) (payload : List Byte) :
    (s.eventLimited code k subject a b payload).rst = s.rst := by
  unfold State.eventLimited; dsimp only; split
  · split
    · rfl
    · exact event_rst ..
  · exact event_rst ..
@[simp] theorem eventLimited_mem (s : State) (code k subject : Nat) (a b : Bool) (payload : List Byte) :
    (s.eventLimited code k subject a b payload).mem = s.mem := by
  unfold State.eventLimited; dsimp only; split
  · split
    · rfl
    · exact event_mem ..
  · exact event_mem ..
@[simp] theorem eventLimited_queues (s : State) (code k subject : Nat) (a b : Bool) (payload : List Byte) :
    (s.eventLimited code k subject a b payload).queues = s.queues := by
  unfold State.eventLimited; dsimp only; split
  · split
    · rfl
    · exact event_queues ..
  · exact event_queues ..
@[simp] theorem eventLimited_cmds (s : State) (code k subject : Nat) (a b : Bool) (payload : List Byte) :
    (s.eventLimited code k subject a b payload).cmds = s.cmds := by
  unfold State.eventLimited; dsimp only; split
  · split
    · rfl
    · exact event_cmds ..
  · exact event_cmds ..
@[simp] theorem eventLimited_contracts (s : State) (code k subject : Nat) (a b : Bool) (payload : List Byte) :
    (s.eventLimited code k subject a b payload).contracts = s.contracts := by
  unfold State.eventLimited; dsimp only; split
  · split
    · rfl
    · exact event_contracts ..
  · exact event_contracts ..
@[simp] theorem eventLimited_pages (s : State) (code k subject : Nat) (a b : Bool) (payload : List Byte) :
    (s.eventLimited code k subject a b payload).pages = s.pages := by
  unfold State.eventLimited; dsimp only; split
  · split
    · rfl
    · exact event_pages ..
  · exact event_pages ..
@[simp] theorem eventLimited_fep (s : State) (code k subject : Nat) (a b : Bool) (payload : List Byte) :
    (s.eventLimited code k subject a b payload).fep = s.fep := by
  unfold State.eventLimited; dsimp only; split
  · split
    · rfl
    · exact event_fep ..
  · exact event_fep ..
@[simp] theorem eventLimited_parts (s : State) (code k subject : Nat) (a b : Bool) (payload : List Byte) :
    (s.eventLimited code k subject a b payload).parts = s.parts := by
  unfold State.eventLimited; dsimp only; split
  · split
    · rfl
    · exact event_parts ..
  · exact event_parts ..
@[simp] theorem eventLimited_clusters (s : State) (code k subject : Nat) (a b : Bool) (payload : List Byte) :
    (s.eventLimited code k subject a b payload).clusters = s.clusters := by
  unfold State.eventLimited; dsimp only; split
  · split
    · rfl
    · exact event_clusters ..
  · exact event_clusters ..
@[simp] theorem eventLimited_skims (s : State) (code k subject : Nat) (a b : Bool) (payload : List Byte) :
    (s.eventLimited code k subject a b payload).skims = s.skims := by
  unfold State.eventLimited; dsimp only; split
  · split
    · rfl
    · exact event_skims ..
  · exact event_skims ..
@[simp] theorem eventLimited_net (s : State) (code k subject : Nat) (a b : Bool) (payload : List Byte) :
    (s.eventLimited code k subject a b payload).net = s.net := by
  unfold State.eventLimited; dsimp only; split
  · split
    · rfl
    · exact event_net ..
  · exact event_net ..
@[simp] theorem eventLimited_bus (s : State) (code k subject : Nat) (a b : Bool) (payload : List Byte) :
    (s.eventLimited code k subject a b payload).bus = s.bus := by
  unfold State.eventLimited; dsimp only; split
  · split
    · rfl
    · exact event_bus ..
  · exact event_bus ..
@[simp] theorem eventLimited_dict (s : State) (code k subject : Nat) (a b : Bool) (payload : List Byte) :
    (s.eventLimited code k subject a b payload).dict = s.dict := by
  unfold State.eventLimited; dsimp only; split
  · split
    · rfl
    · exact event_dict ..
  · exact event_dict ..
@[simp] theorem eventLimited_keep (s : State) (code k subject : Nat) (a b : Bool) (payload : List Byte) :
    (s.eventLimited code k subject a b payload).keep = s.keep := by
  unfold State.eventLimited; dsimp only; split
  · split
    · rfl
    · exact event_keep ..
  · exact event_keep ..
@[simp] theorem eventLimited_cal (s : State) (code k subject : Nat) (a b : Bool) (payload : List Byte) :
    (s.eventLimited code k subject a b payload).cal = s.cal := by
  unfold State.eventLimited; dsimp only; split
  · split
    · rfl
    · exact event_cal ..
  · exact event_cal ..
@[simp] theorem eventLimited_abrt (s : State) (code k subject : Nat) (a b : Bool) (payload : List Byte) :
    (s.eventLimited code k subject a b payload).abrt = s.abrt := by
  unfold State.eventLimited; dsimp only; split
  · split
    · rfl
    · exact event_abrt ..
  · exact event_abrt ..
@[simp] theorem eventLimited_tap (s : State) (code k subject : Nat) (a b : Bool) (payload : List Byte) :
    (s.eventLimited code k subject a b payload).tap = s.tap := by
  unfold State.eventLimited; dsimp only; split
  · split
    · rfl
    · exact event_tap ..
  · exact event_tap ..
@[simp] theorem eventLimited_freeCount (s : State) (code k subject : Nat) (a b : Bool) (payload : List Byte) :
    (s.eventLimited code k subject a b payload).freeCount = s.freeCount := by
  unfold State.eventLimited; dsimp only; split
  · split
    · rfl
    · exact event_freeCount ..
  · exact event_freeCount ..
@[simp] theorem eventLimited_pending (s : State) (code k subject : Nat) (a b : Bool) (payload : List Byte) :
    (s.eventLimited code k subject a b payload).pending = s.pending := by
  unfold State.eventLimited; dsimp only; split
  · split
    · rfl
    · exact event_pending ..
  · exact event_pending ..
theorem eventLimited_link (s : State) (code k subject : Nat) (a b : Bool) (payload : List Byte) :
    SameLink s.link (s.eventLimited code k subject a b payload).link := by
  unfold State.eventLimited; dsimp only; split
  · split
    · rfl
    · exact event_link ..
  · exact event_link ..
theorem eventLimited_insts (s : State) (code k subject : Nat) (a b : Bool) (payload : List Byte) :
    SameInsts s (s.eventLimited code k subject a b payload) := by
  unfold State.eventLimited; dsimp only; split
  · split
    · exact SameInsts.refl s
    · refine SameInsts.trans (sameInsts_of_eq ?_) (event_insts _ code subject a b payload); rfl
  · refine SameInsts.trans (sameInsts_of_eq ?_) (event_insts _ code subject a b payload); rfl

@[simp] theorem reply_clk (s : State) (mb : Nat) (h : MsgHdr) (st : Status) (payload : List Byte) :
    (s.reply mb h st payload).clk = s.clk := by
  exact msix_clk ..
@[simp] theorem reply_pins (s : State) (mb : Nat) (h : MsgHdr) (st : Status) (payload : List Byte) :
    (s.reply mb h st payload).pins = s.pins := by
  exact msix_pins ..
@[simp] theorem reply_rst (s : State) (mb : Nat) (h : MsgHdr) (st : Status) (payload : List Byte) :
    (s.reply mb h st payload).rst = s.rst := by
  exact msix_rst ..
@[simp] theorem reply_mem (s : State) (mb : Nat) (h : MsgHdr) (st : Status) (payload : List Byte) :
    (s.reply mb h st payload).mem = s.mem := by
  exact msix_mem ..
@[simp] theorem reply_queues (s : State) (mb : Nat) (h : MsgHdr) (st : Status) (payload : List Byte) :
    (s.reply mb h st payload).queues = s.queues := by
  exact msix_queues ..
@[simp] theorem reply_cmds (s : State) (mb : Nat) (h : MsgHdr) (st : Status) (payload : List Byte) :
    (s.reply mb h st payload).cmds = s.cmds := by
  exact msix_cmds ..
@[simp] theorem reply_contracts (s : State) (mb : Nat) (h : MsgHdr) (st : Status) (payload : List Byte) :
    (s.reply mb h st payload).contracts = s.contracts := by
  exact msix_contracts ..
@[simp] theorem reply_pages (s : State) (mb : Nat) (h : MsgHdr) (st : Status) (payload : List Byte) :
    (s.reply mb h st payload).pages = s.pages := by
  exact msix_pages ..
@[simp] theorem reply_fep (s : State) (mb : Nat) (h : MsgHdr) (st : Status) (payload : List Byte) :
    (s.reply mb h st payload).fep = s.fep := by
  exact msix_fep ..
@[simp] theorem reply_parts (s : State) (mb : Nat) (h : MsgHdr) (st : Status) (payload : List Byte) :
    (s.reply mb h st payload).parts = s.parts := by
  exact msix_parts ..
@[simp] theorem reply_clusters (s : State) (mb : Nat) (h : MsgHdr) (st : Status) (payload : List Byte) :
    (s.reply mb h st payload).clusters = s.clusters := by
  exact msix_clusters ..
@[simp] theorem reply_skims (s : State) (mb : Nat) (h : MsgHdr) (st : Status) (payload : List Byte) :
    (s.reply mb h st payload).skims = s.skims := by
  exact msix_skims ..
@[simp] theorem reply_net (s : State) (mb : Nat) (h : MsgHdr) (st : Status) (payload : List Byte) :
    (s.reply mb h st payload).net = s.net := by
  exact msix_net ..
@[simp] theorem reply_mgc (s : State) (mb : Nat) (h : MsgHdr) (st : Status) (payload : List Byte) :
    (s.reply mb h st payload).mgc = s.mgc := by
  exact msix_mgc ..
@[simp] theorem reply_bus (s : State) (mb : Nat) (h : MsgHdr) (st : Status) (payload : List Byte) :
    (s.reply mb h st payload).bus = s.bus := by
  exact msix_bus ..
@[simp] theorem reply_dict (s : State) (mb : Nat) (h : MsgHdr) (st : Status) (payload : List Byte) :
    (s.reply mb h st payload).dict = s.dict := by
  exact msix_dict ..
@[simp] theorem reply_keep (s : State) (mb : Nat) (h : MsgHdr) (st : Status) (payload : List Byte) :
    (s.reply mb h st payload).keep = s.keep := by
  exact msix_keep ..
@[simp] theorem reply_cal (s : State) (mb : Nat) (h : MsgHdr) (st : Status) (payload : List Byte) :
    (s.reply mb h st payload).cal = s.cal := by
  exact msix_cal ..
@[simp] theorem reply_pwr (s : State) (mb : Nat) (h : MsgHdr) (st : Status) (payload : List Byte) :
    (s.reply mb h st payload).pwr = s.pwr := by
  exact msix_pwr ..
@[simp] theorem reply_abrt (s : State) (mb : Nat) (h : MsgHdr) (st : Status) (payload : List Byte) :
    (s.reply mb h st payload).abrt = s.abrt := by
  exact msix_abrt ..
@[simp] theorem reply_tap (s : State) (mb : Nat) (h : MsgHdr) (st : Status) (payload : List Byte) :
    (s.reply mb h st payload).tap = s.tap := by
  exact msix_tap ..
@[simp] theorem reply_freeCount (s : State) (mb : Nat) (h : MsgHdr) (st : Status) (payload : List Byte) :
    (s.reply mb h st payload).freeCount = s.freeCount := by
  exact msix_freeCount ..
@[simp] theorem reply_pending (s : State) (mb : Nat) (h : MsgHdr) (st : Status) (payload : List Byte) :
    (s.reply mb h st payload).pending = s.pending := by
  exact msix_pending ..
theorem reply_link (s : State) (mb : Nat) (h : MsgHdr) (st : Status) (payload : List Byte) :
    SameLink s.link (s.reply mb h st payload).link := msix_link ..
theorem reply_insts (s : State) (mb : Nat) (h : MsgHdr) (st : Status) (payload : List Byte) :
    SameInsts s (s.reply mb h st payload) :=
  (sameInsts_box s mb _).trans (sameInsts_of_eq (msix_insts ..))

end Sys2Proof.Laws
end

