-- ==== Sys2Proof/WellFormed.lean ====
section
/-! DEFINITION. Well-formed commands: operands that the interface of the block can carry. A field of a packet, frame or
header fits its width, and data has a length the interface allows (05 R102, 10 R211, 11 R244, 13 R273, 16 R354). -/

namespace Sys2Proof

/-- A header flit whose fields fit their widths (R211). -/
def pktOk (p : Pkt) : Bool :=
  decide (p.typ < 32) && decide (p.urg < 8) && decide (p.src < 24) && decide (p.dst < 24) && decide (p.inst < 64)
    && decide (p.slot < 1024) && decide (p.tag < 1024) && decide (p.tgen < 16) && decide (p.len < 256) && decide (p.bytes < 256)
    && decide (p.addr < 4503599627370496)

/-- A request frame: opcode apart, its DATA is at most 96 bytes, and its index and subindex fit 16 and 8 bits (R273). -/
def frameOk (f : UFrame) : Bool := decide (f.data.length ≤ 96) && decide (f.index < 65536) && decide (f.sub < 256)

/-- A mailbox request: header fields fit their widths, and the payload fits the cells a request may take (R244). -/
def msgOk (h : MsgHdr) (payload : List Byte) : Bool :=
  decide (h.msg < 65536) && decide (h.cells < 256) && decide (h.target < 256) && decide (h.len < 65536)
    && decide (payload.length ≤ 256)

/-- A write on the host link carries 1 to 64 bytes (R102). -/
def writeOk (data : List Byte) : Bool := decide (1 ≤ data.length) && decide (data.length ≤ 64)

/-- A DOMAIN value has 1 to 65,536 bytes (R277). -/
def domainOk (value : List Byte) : Bool := decide (1 ≤ value.length) && decide (value.length ≤ 65536)

/-- A place of the vector unit: an offset of activation SRAM or vector scratch (02 R26). -/
def placeOk (x : Place) : Bool := decide (x.off < (if x.scratch then 262144 else 2097152))

/-- An operation of a tile names members of a group, offsets within the SRAMs, and as many vectors or lanes as they can hold (02
R26, R36). -/
def tileOpOk : TileOp → Bool
  | .pass _ m carry w a o => decide (1 ≤ m) && decide (m ≤ 16384) && decide (w < 32768) && decide (a < 2097152)
      && decide (o < 2097152) && decide (carry.getD 0 < 2097152)
  | .vector q _ half n x y z d => decide (q < 4) && decide (n ≤ (if half then 128 else 64)) && placeOk x && placeOk y && placeOk z
      && placeOk d
  | .table q _ n x d => decide (q < 4) && decide (n ≤ 64) && placeOk x && placeOk d
  | .convert q _ n x d => decide (q < 4) && decide (n ≤ 64) && placeOk x && placeOk d
  | .requant q _ _ n x scale d => decide (q < 4) && decide (n ≤ 64) && placeOk x && placeOk scale && placeOk d
  | .take edge => decide (edge < 32)

/-- A request of a DMA engine names one of 8 channels and an offset within the largest SRAM (02 R26, R37). -/
def dmaOk (d : Dma) : Bool := decide (d.chan < 8) && decide (d.off < 4194304)

/-- Well-formedness of a command. -/
def Instr.wf : Instr → Bool
  | .registerWrite _ _ _ _ data => writeOk data
  | .doorbellWrite _ _ data => writeOk data
  | .doorbell _ _ _ _ => true
  | .heartbeatWrite _ => true
  | .fwBegin => true
  | .fwCommit => true
  | .fwVerifyDone => true
  | .swReset _ => true
  | .abortQueue _ _ _ => true
  | .abortInstance _ _ => true
  | .mmuInvalidateRange _ _ => true
  | .mmuInvalidateAll _ _ => true
  | .invalidationDone _ => true
  | .prbCtlWrite _ _ => true
  | .traceCtlWrite _ => true
  | .netTmoWrite _ _ => true
  | .emuWrite _ off _ => decide (off < 4096)
  | .emuWriteApply _ => true
  | .emuRead _ off size => decide (off < 4096) && decide (1 ≤ size) && decide (size ≤ 4096)
  | .shadowPublish _ => true
  | .msixVectorUnmask _ vector => decide (vector < 64)
  | .mailboxDoorbell _ _ => true
  | .nopMessage _ h payload => msgOk h payload
  | .queueCreate _ h payload => msgOk h payload
  | .queueDestroy _ h payload => msgOk h payload
  | .queueReset _ h payload => msgOk h payload
  | .semSet _ h payload => msgOk h payload
  | .graphRegister _ h payload _ => msgOk h payload
  | .graphRelease _ h payload => msgOk h payload
  | .graphQuery _ h payload => msgOk h payload
  | .contractAdmit _ h payload => msgOk h payload
  | .contractRelease _ h payload => msgOk h payload
  | .contractQuery _ h payload => msgOk h payload
  | .instanceInfo _ h payload => msgOk h payload
  | .mailboxClose _ h payload => msgOk h payload
  | .instanceCreate _ h payload => msgOk h payload
  | .instanceQuiesce _ h payload => msgOk h payload
  | .instanceRemove _ h payload => msgOk h payload
  | .instanceReset _ h payload => msgOk h payload
  | .partAssign _ h payload => msgOk h payload
  | .partRevoke _ h payload => msgOk h payload
  | .roleBind _ h payload => msgOk h payload
  | .roleUnbind _ h payload => msgOk h payload
  | .freeze _ h payload => msgOk h payload
  | .freezeComplete _ => true
  | .freezeTimeout _ => true
  | .save _ h payload => msgOk h payload
  | .restore _ h payload _ _ => msgOk h payload
  | .thaw _ h payload => msgOk h payload
  | .attach _ h payload => msgOk h payload
  | .dictTunnel _ h payload => msgOk h payload
  | .flr _ => true
  | .vfEnableClear => true
  | .vfEnableSet => true
  | .numVfsWrite value => decide (value < 65536)
  | .d3hotEntry _ => true
  | .d0Return _ => true
  | .atsInvalidate _ page => decide (page < 4503599627370496)
  | .atsInvalidateComplete _ page => decide (page < 4503599627370496)
  | .hostCompletion tag status _ _ => decide (tag < 1024) && decide (status < 8)
  | .hostCplTimeout tag => decide (tag < 1024)
  | .linkDown _ => true
  | .hotReset => true
  | .linkActive speed width ucie => decide (speed < 16) && decide (width < 64) && decide (ucie < 16)
  | .pwrGoodRise => true
  | .pwrGoodFall _ => true
  | .rstNAssert _ => true
  | .perstNAssert _ => true
  | .pwrCapNFall _ => true
  | .pwrCapNRise => true
  | .refclkLoss => true
  | .thermalSample temps => temps.length == 24
  | .thermalEvaluate => true
  | .tapReset => true
  | .extest => true
  | .samplePreload _ _ => true
  | .idcode => true
  | .clamp => true
  | .highz => true
  | .bypass => true
  | .responseRead => true
  | .read _ f => frameOk f
  | .write _ f => frameOk f
  | .writeCond _ f => frameOk f
  | .segReadStart _ f => frameOk f
  | .segRead _ f => frameOk f
  | .segWriteStart _ f => frameOk f
  | .segWrite _ f => frameOk f
  | .segAbort _ f => frameOk f
  | .segSessionTimeout _ => true
  | .enec => true
  | .disec => true
  | .rstdaa => true
  | .entdaa _ => true
  | .setdasa _ => true
  | .setnewda _ => true
  | .getPid => true
  | .getBcr => true
  | .getDcr => true
  | .getStatus => true
  | .getMwl => true
  | .getMrl => true
  | .mgmtLinkLost => true
  | .resetReq _ f => frameOk f
  | .alertAck _ f => frameOk f
  | .claim _ f => frameOk f
  | .store _ f => frameOk f
  | .restoreDefault _ f => frameOk f
  | .hostLossMs _ f => frameOk f
  | .linkLossMs _ f => frameOk f
  | .enable _ f => frameOk f
  | .retire _ f => frameOk f
  | .partitionReset _ f => frameOk f
  | .privShareMbps _ f => frameOk f
  | .powerStateReq _ f => frameOk f
  | .budgetMw _ f => frameOk f
  | .calRecord _ value => domainOk value
  | .download _ value => domainOk value
  | .verify _ f => frameOk f
  | .activate _ f => frameOk f
  | .confirm _ f => frameOk f
  | .keepStoreOpDone _ failAddr => decide (failAddr < 16777216)
  | .serviceRequest => true
  | .fetchRead => true
  | .commandCheck _ => true
  | .relocate _ _ => true
  | .acceptancePoint _ _ => true
  | .nop _ _ => true
  | .wait _ _ => true
  | .signal _ _ => true
  | .barrier _ _ => true
  | .copy _ _ => true
  | .fill _ _ => true
  | .handleBind _ _ => true
  | .handleFree _ _ => true
  | .launchGraph _ _ => true
  | .patch _ _ => true
  | .scoreboardAdmit => true
  | .waitTimeout _ _ => true
  | .priorityQueueInsert _ _ => true
  | .scan => true
  | .grantAck _ => true
  | .fusionChangeComplete _ => true
  | .currentGrantRequest _ => true
  | .tileStartReport _ => true
  | .tileEnd _ work => work.all tileOpOk
  | .tileOverrun _ => true
  | .saveReport _ => true
  | .endReport _ => true
  | .completionRecordWrite _ _ => true
  | .recordAck _ _ _ => true
  | .irqHoldoffExpiry _ => true
  | .progressTimeout _ _ => true
  | .resetRecord _ _ => true
  | .machineCheck _ cause _ => decide (cause < 16)
  | .mcheckReport _ => true
  | .skimBlockSend _ => true
  | .slotCredit _ _ => true
  | .skimHoldExpiry _ => true
  | .token _ _ _ _ pkt => pktOk pkt
  | .credit _ _ pkt => pktOk pkt
  | .rd pkt dma => pktOk pkt && dmaOk dma
  | .wr pkt data dma => pktOk pkt && decide (data.length ≤ 256) && dmaOk dma
  | .walk pkt dva _ => pktOk pkt && decide (dva < 281474976710656)
  | .irq pkt vector => pktOk pkt && decide (vector < 64)
  | .regRd pkt => pktOk pkt
  | .regWr pkt _ => pktOk pkt
  | .rdRsp pkt _ => pktOk pkt
  | .wrAck pkt => pktOk pkt
  | .regRsp pkt => pktOk pkt
  | .skim pkt _ => pktOk pkt
  | .preempt _ => true
  | .voidPkt pkt => pktOk pkt
  | .ticketReq pkt count => pktOk pkt && decide (1 ≤ count) && decide (count ≤ 8)
  | .ticketGrant pkt count => pktOk pkt && decide (1 ≤ count) && decide (count ≤ 8)
  | .genUpdate _ _ _ => true
  | .genAck _ _ => true
  | .initiatorTimeout _ _ => true
  | .bridgeNak _ _ => true
  | .linkFatal _ => true
  | .linkFatalIntervalEnd _ => true
  | .drainRoundStart => true
  | .drainRoundEnd => true
  | .controlStoreError _ _ _ => true
  | .scrub _ _ => true
  | .fepHangWatchdog _ _ _ => true
  | .mgcWatchdog => true
  | .stackingFault _ => true
  | .mgcRestartComplete => true
  | .hostLossExpiry => true
  | .dictRefresh => true
  | .contractLogRead => true
  | .l1Reset => true
  | .resetHoldEnd => true
  | .l0Exit => true
  | .l1Exit _ => true
  | .memoryTrained => true
  | .deviceRegionFilled => true
  | .l2Reset => true
  | .l2PreemptDeadline _ _ => true
  | .l2Rebuild => true
  | .l3Reset _ => true
  | .l5ResetDone _ _ _ => true
  | .powerStateTransitionDone => true
  | .partitionIdleGate _ => true
  | .partitionUngateDone _ => true
  | .fabricClockRegate => true
  | .railLow _ _ => true
  | .railLowClear _ => true
  | .ldoSettled _ => true
  | .voltageTrim _ _ => true
  | .readAssistStep _ _ _ => true
  | .telemetryUpdate meas => meas.length == 40
  | .coreFault => true
  | .undefinedMessage _ h payload => msgOk h payload
  | .requestFrameError _ => true
  | .i3cBroadcastAddress => true
  | .hdrEntry => true
  | .hdrExitPattern => true
  | .refclkRestored => true
  | .shareWindow => true
  | .criticalPathMonitorReport _ _ => true
  | .bridgeRetrained => true
  | .linkRetrain => true
  | .reservedTypePacket pkt => pktOk pkt
  | .statusWriteBack _ _ => true

end Sys2Proof
end

