-- ==== Sys2Proof/Tests/Slice0.lean ====
section
/-! SUPPORT. Tests of one step each on small states: ill-formed commands are refused, and each statement of
Certificates/Slice0/Obligations.lean has a concrete state and operands that meet its hypotheses. Expected values come from
the manual's rules, worked by hand. -/

namespace Sys2Proof.Tests
open Sys2Proof Sys2Proof.Machine Sys2Proof.Safety

-- One theorem after the other: many kernel evaluations side by side would need more threads than memory allows.
set_option Elab.async false

-- Helpers --------------------------------------------------------------------------------------------------------------

/-- The command answers a next state that passes the check. -/
def gives (c : Instr) (s : State) (ok : State → Bool) : Bool :=
  match exec c s with
  | .next t => ok t
  | .fault _ => false
  | .refused _ => false

/-- The command answers the state it met. -/
def idle (c : Instr) (s : State) : Bool := gives c s (fun t => decide (t = s))

/-- The command ends in this fault. -/
def stops (c : Instr) (s : State) (f : Fault) : Bool :=
  match exec c s with
  | .next _ => false
  | .fault g => decide (g = f)
  | .refused _ => false

/-- A function whose memory space and MSI-X are enabled. -/
def openFn : Func := { memEnable := true, msixEnable := true }

/-- An instance at work, its mailbox open in format 3. -/
def activeInst : Inst := { state := .active, gen := 1, box := { state := 2, format := 3, inProd := 8 } }

/-- A queue of instance 0 with rings of 16 entries, interrupts off, and two doorbell-covered entries at 0x3000_0000. -/
def ringDesc : QDesc :=
  { qid := 0, format := 0, cls := 1, irqPolicy := 0, vector := 3, subLog2 := 4, cplLog2 := 6, subBase := 0x30000000,
    cplBase := 0x30010000, statusWb := 0x30020000, holdoff := 0, progressMs := 0 }

def ringQueue : Queue := { inst := 0, desc := ringDesc, write := 2 }

/-- A device at work: 100 ms after its L0 exit, Topcoat running, the link up, instances 0 and 1 ACTIVE, one queue, P0 idle. -/
def live : State :=
  { clk := { devtime := 100000000 }
    insts := [(0, { activeInst with mmu := { bypass := true } }), (1, activeInst)]
    queues := [(0, ringQueue)]
    parts := [(0, { state := .idle, clkMhz := 300, ldoMv := 550 })]
    mem := { trained := true, regionFilled := true }
    net := { gens := [(0, 1), (64, 1), (1024, 1), (1025, 1), (1088, 1), (1089, 1), (1152, 1), (1153, 1)] }
    link := { up := true, speed := 4, width := 16, ucieVer := 1, cfgReady := true, vfEnable := true, numVfs := 4,
              funcs := [(0, openFn), (1, openFn)] }
    mgc := { fw := .running, started := true, mgrGen := 1, attached := true, armed := true, beatBase := 99000000 } }

-- Well-formedness --------------------------------------------------------------------------------------------------------

/-- A packet with every field in its width. -/
def okPkt : Pkt :=
  { typ := 1, urg := 0, src := 0, dst := 17, mask := 0, inst := 0, gen := 1, slot := 0, tag := 0, tgen := 0, len := 0,
    status := 0, addr := 0x30000000, hostSpace := false, bytes := 3 }

/-- A request that is no DMA engine's. -/
def okDma : Dma := { chan := 0, sram := .act, off := 0, ring := false }

def okHdr : MsgHdr := { msg := 1, cells := 1, seq := 7, target := 0, len := 0, cookie := 0 }
def okFrame : UFrame := { reservedSet := false, tid := 0, index := 0x1000, sub := 1, data := [] }

theorem wf_accepts : Instr.wf (.rd okPkt okDma) = true ∧ Instr.wf (.read .link okFrame) = true
    ∧ Instr.wf (.nopMessage 0 okHdr []) = true := by decide +kernel

theorem wf_refuses_packet_fields :
    [{ okPkt with typ := 32 }, { okPkt with urg := 8 }, { okPkt with src := 24 }, { okPkt with dst := 24 },
      { okPkt with inst := 64 }, { okPkt with slot := 1024 }, { okPkt with tag := 1024 }, { okPkt with tgen := 16 },
      { okPkt with len := 256 }, { okPkt with bytes := 256 }, { okPkt with addr := 2 ^ 52 }].all
      (fun p => !Instr.wf (.rd p okDma)) = true := by decide +kernel

theorem wf_refuses_frame_fields :
    [{ okFrame with data := List.replicate 97 0 }, { okFrame with index := 65536 }, { okFrame with sub := 256 }].all
      (fun f => !Instr.wf (.write .host f)) = true := by decide +kernel

theorem wf_refuses_message_fields :
    [{ okHdr with msg := 65536 }, { okHdr with cells := 256 }, { okHdr with target := 256 }, { okHdr with len := 65536 }].all
      (fun h => !Instr.wf (.nopMessage 0 h [])) = true
    ∧ Instr.wf (.nopMessage 0 okHdr (List.replicate 257 0)) = false := by decide +kernel

theorem wf_refuses_other_operands :
    [Instr.registerWrite 0 false false 0 [], .doorbellWrite 0 0 (List.replicate 65 0), .emuWrite 0 4096 0, .emuRead 0 4096 4,
      .emuRead 0 0 0,
      .msixVectorUnmask 0 64, .numVfsWrite 65536, .atsInvalidate 0 (2 ^ 52), .atsInvalidateComplete 0 (2 ^ 52),
      .hostCompletion 1024 0 false [], .hostCompletion 0 8 false [], .hostCplTimeout 1024, .linkActive 16 8 1,
      .linkActive 4 64 1, .linkActive 4 8 16, .thermalSample [], .calRecord .link [], .keepStoreOpDone true (2 ^ 24),
      .machineCheck 0 16 0, .wr okPkt (List.replicate 257 0) okDma, .rd okPkt { okDma with chan := 8 },
      .rd okPkt { okDma with off := 2 ^ 22 }, .walk okPkt (2 ^ 48) false, .irq okPkt 64,
      .rdRsp { okPkt with bytes := 256 } false, .ticketReq okPkt 0, .ticketGrant okPkt 9, .tileEnd 0 [.pass .bf16 0 none 0 0 0],
      .tileEnd 0 [.take 32],
      .telemetryUpdate []].all (fun c => !Instr.wf c) = true := by decide +kernel

-- The block as a whole -----------------------------------------------------------------------------------------------------

theorem witness_step_runs_front :
    (match step { live with pending := [.enec, .disec] } with
      | .next t => decide (t.pending = [.disec] ∧ t.bus.ibiEnabled = true)
      | _ => false) = true := by decide +kernel

theorem witness_devtime_ticks :
    (match step { live with clk := { devtime := 598, phase := 23 } } with
      | .next t => decide (t.clk.devtime = 625 ∧ t.clk.phase = 0)
      | _ => false) = true
    ∧ (match step { live with clk := { devtime := 0, phase := 22 } } with
      | .next t => decide (t.clk.devtime = 26 ∧ t.clk.phase = 23)
      | _ => false) = true
    ∧ (match step { live with clk := { alive := false, devtime := 5 } } with
      | .next t => decide (t.clk.devtime = 5)
      | _ => false) = true
    ∧ gives .enec live (fun t => decide (t.clk.devtime = live.clk.devtime)) = true := by decide +kernel

/-- A device whose L0 exit is due, the straps of mode P and address 1 applied. -/
def leavingL0 : State :=
  { State.reset with
    rst := { phase := .l0Exiting, level := 0, source := 1 }
    clk := { devtime := 77, alive := false }
    pins := { hostModeStrap := true, mgmtAddrStrap := 1 } }

theorem witness_l0_exit :
    gives .l0Exit leavingL0 (fun t => decide (t.pins.modeP = true ∧ t.clk.devtime = 0 ∧ t.clk.alive = true
      ∧ t.bus.staticAddr = 0x3B ∧ t.rst.phase = .l1Exiting ∧ t.tap.ir = 2)) = true
    ∧ gives .enec { live with pins := { hostModeStrap := true } } (fun t => decide (t.pins.modeP = false)) = true
    ∧ idle .l0Exit live = true := by decide +kernel

/-- `Legal` as a decision. -/
def legalB (s : State) : Bool :=
  Memory.wf s && decide (8 ≤ s.net.tmoPriv ∧ s.net.tmoPriv ≤ 4000 ∧ 8 ≤ s.net.tmoHost ∧ s.net.tmoHost ≤ 4000)
    && (s.link.up || decide (s.link.speed = 0 ∧ s.link.width = 0 ∧ s.link.ucieVer = 0)) && tapCodes.contains s.tap.ir

theorem legalB_legal {s : State} (h : legalB s = true) : Legal s := by
  simp only [legalB, Bool.and_eq_true, decide_eq_true_eq, Bool.or_eq_true, List.contains_iff_mem] at h
  obtain ⟨⟨⟨hm, hp⟩, hl⟩, ht⟩ := h
  refine ⟨hm, ⟨hp.1, hp.2.1⟩, ⟨hp.2.2.1, hp.2.2.2⟩, fun hu => ?_, ht⟩
  rcases hl with hl | hl
  · rw [hu] at hl; cases hl
  · exact hl

/-- A legal state in which a step runs a command. -/
theorem witness_every_step_keeps_legal : Legal { live with pending := [.linkDown false] } :=
  legalB_legal (by decide +kernel)

theorem witness_reset_is_legal : Legal State.reset := legalB_legal (by decide +kernel)

-- Host writes ---------------------------------------------------------------------------------------------------------------

theorem witness_network_control :
    live.seen 0 = true
    ∧ gives (.prbCtlWrite 3 0x1FFF) live (fun t => decide ((tabGetD t.net.probes 3 {}).ctl = 0x1FFF)) = true
    ∧ gives (.prbCtlWrite 3 0) { live with net := { live.net with probes := [(3, { ctl := 1, pkts := 9 })] } }
        (fun t => decide ((tabGetD t.net.probes 3 {}).pkts = 9)) = true
    ∧ gives (.traceCtlWrite 3) { live with net := { live.net with wptr := 5 } }
        (fun t => decide (t.net.traceEn = true ∧ t.net.wptr = 0)) = true
    ∧ gives (.traceCtlWrite 0) { live with net := { live.net with wptr := 5, traceEn := true } }
        (fun t => decide (t.net.traceEn = false ∧ t.net.wptr = 5)) = true
    ∧ gives (.netTmoWrite false 7) live (fun t => decide (t.net.tmoPriv = 8)) = true
    ∧ gives (.netTmoWrite true 0x0FA1) live (fun t => decide (t.net.tmoHost = 4000)) = true
    ∧ gives (.netTmoWrite true 0x20C8) live (fun t => decide (t.net.tmoHost = 200)) = true := by decide +kernel

/-- `live` with instance 1 changed. -/
def with1 (f : Inst → Inst) : State := live.updInst 1 f

theorem witness_emulated_registers :
    gives (.emuWrite 1 0x010 5) live (fun t => decide ((t.inst 1).emuQueue = [(1, 5)])) = true
    ∧ gives (.emuWrite 1 0x010 5) (with1 (fun i => { i with emuQueue := List.replicate 8 (1, 0) }))
        (fun t => decide ((t.inst 1).feOvf = true ∧ (t.inst 1).emuQueue.length = 8 ∧ (t.inst 1).ovfCount = 1)) = true
    ∧ gives (.emuWrite 1 0x0F0 2) (with1 (fun i => { i with feOvf := true })) (fun t => decide ((t.inst 1).feOvf = false)) = true
    ∧ gives (.emuWriteApply 1) (with1 (fun i => { i with emuQueue := [(0, 7), (1, 1)] }))
        (fun t => decide ((t.inst 1).emuQueue = [(1, 1)] ∧ tabGetD (t.inst 1).emu 0 0 = 3)) = true
    ∧ gives (.emuRead 1 0x010 4) (with1 (fun i => { i with emu := [(1, 9)] }))
        (fun t => decide (t.link.readData = [9, 0, 0, 0])) = true
    ∧ gives (.emuRead 1 0x010 4) { with1 (fun i => { i with shadow := [(0x010, 6)] }) with mgc := { fw := .restarting } }
        (fun t => decide (t.link.readData = [6, 0, 0, 0])) = true
    ∧ gives (.emuRead 1 0x010 8) (with1 (fun i => { i with emu := [(1, 9)] }))
        (fun t => decide (t.link.readData.length = 8 ∧ t.link.readData.head? = some 9)) = true
    ∧ gives (.emuRead 1 0x012 4) live (fun t => decide (t.link.badAccess = 1 ∧ t.link.readData = [0, 0, 0, 0])) = true
    ∧ gives (.emuRead 2 0x000 4) (live.updFunc 2 (fun _ => openFn)) (fun t => decide (t.link.readData = [0, 0, 0, 0])) = true
    ∧ gives (.emuRead 1 0x010 2) { live with rst := { acting := [⟨6, 0, 1⟩] } } (fun t => decide (t.link.readData = [0, 0]
        ∧ t.link.badAccess = 0)) = true
    ∧ gives (.shadowPublish 1) (with1 (fun i => { i with emu := [(1, 9)] }))
        (fun t => decide (tabGetD (t.inst 1).shadow 0x010 0 = 9)) = true := by decide +kernel

/-- Instance 1 with two cached translations, at pages 4 and 6. -/
def cached (f : Mmu → Mmu) : State := with1 (fun i =>
  { i with mmu := f { i.mmu with tlb := [(4, 1), (6, 1)], micro := [(4, 1, 1), (6, 1, 1)], upper := [(8, 3)] } })

theorem witness_invalidation :
    gives (.mmuInvalidateRange 1 0x20001) (cached (fun m => { m with invalAddr := 0x40000 }))
        (fun t => decide ((t.inst 1).mmu.invalGo = true ∧ (t.inst 1).mmu.invalFrom = 4 ∧ (t.inst 1).mmu.invalPages = 2)) = true
    ∧ gives (.mmuInvalidateRange 1 1) (cached id)
        (fun t => decide ((t.inst 1).mmu.invalGo = false ∧ (t.inst 1).mmu.invalDone = true)) = true
    ∧ gives (.mmuInvalidateAll 1 3) (cached id)
        (fun t => decide ((t.inst 1).mmu.invalGo = true ∧ (t.inst 1).mmu.invalAll = true)) = true
    ∧ gives (.invalidationDone 1) (cached (fun m => { m with invalGo := true, invalFrom := 4, invalPages := 2 }))
        (fun t => decide ((t.inst 1).mmu.tlb = [(6, 1)] ∧ (t.inst 1).mmu.micro = [(6, 1, 1)] ∧ (t.inst 1).mmu.upper = []
          ∧ (t.inst 1).mmu.invalDone = true)) = true
    ∧ gives (.invalidationDone 1) (cached (fun m => { m with invalGo := true, invalAll := true }))
        (fun t => decide ((t.inst 1).mmu.tlb = [])) = true := by decide +kernel

/-- `live` with the firmware in a state. -/
def withFw (f : FwState) : State := { live with mgc := { live.mgc with fw := f } }

theorem witness_firmware_registers :
    gives (.heartbeatWrite 5) live (fun t => decide (t.mgc.heartbeat = 5 ∧ t.mgc.beatBase = 100000000)) = true
    ∧ gives .fwBegin (withFw .loadWait) (fun t => decide (t.mgc.fw = .loading ∧ t.mgc.loadResult = 1)) = true
    ∧ gives .fwBegin live (fun t => decide (t.mgc.fw = .running ∧ t.mgc.loadResult = 6)) = true
    ∧ gives .fwCommit (withFw .loading) (fun t => decide (t.mgc.fw = .verify)) = true
    ∧ gives .fwCommit live (fun t => decide (t.mgc.fw = .running)) = true
    ∧ gives (.swReset 0xA55A) live (fun t => decide (t.rst.acting = [⟨12, 100000000, 0⟩])) = true
    ∧ gives (.swReset 0xA55B) live (fun t => decide (t.rst.acting = [])) = true := by decide +kernel

theorem witness_register_write :
    idle (.registerWrite 5 false false 0 [0, 0, 0, 0]) live = true
    ∧ idle (.registerWrite 1 false false 0 [0, 0, 0, 0]) { live with rst := { acting := [⟨6, 0, 1⟩] } } = true
    ∧ idle (.registerWrite 1 false false 0x10000 [0, 0, 0, 0]) live = true
    ∧ gives (.registerWrite 1 false true 0 [0, 0, 0, 0]) live
        (fun t => decide ((t.func 1).aerUnc.getLsbD 12 = true ∧ t.queues = live.queues)) = true
    ∧ gives (.registerWrite 1 false false 0 [0, 0, 0, 0]) (live.updFunc 1 (fun f => { f with memEnable := false }))
        (fun t => decide ((t.func 1).aerUnc.getLsbD 20 = true)) = true
    ∧ gives (.registerWrite 2 false false 0 [1, 0, 0, 0]) (live.updFunc 2 (fun f => { f with memEnable := true }))
        (fun t => decide (t.link.gloveDrop = 1 ∧ t.link.badAccess = 1)) = true
    ∧ gives (.registerWrite 0 false false 0x80110 [7, 0, 0, 0]) live (fun t => decide ((t.inst 1).mmu = (live.inst 1).mmu)) = true
    ∧ gives (.registerWrite 1 true false 4 [2]) (live.updFunc 1 (fun f => { f with memEnable := false }))
        (fun t => decide ((t.func 1).memEnable = true)) = true
    ∧ gives (.registerWrite 0 false false 0xFFFFC [0]) live (fun t => decide (t.link.badAccess = 1)) = true
    ∧ idle (.registerWrite 0 true false 4 [6, 0]) { live with link := { live.link with cfgReady := false } } = true
    ∧ (regionOf 0 0xFFFFC).isNone = true := by decide +kernel

theorem witness_host_doorbells :
    live.slotOf 0 0 = some 0
    ∧ gives (.doorbellWrite 0 0 (leBytes 4 3)) live (fun t => decide (t.net.bells = [(0, 0, false, 3)])) = true
    ∧ gives (.doorbellWrite 0 4 (leBytes 4 3)) live (fun t => decide (t.net.bells = [(0, 0, true, 3)])) = true
    ∧ gives (.doorbellWrite 0 8 (leBytes 4 3)) live (fun t => decide (t.net.bells = [] ∧ t.link.badAccess = 1)) = true
    ∧ gives (.doorbellWrite 0 0 (leBytes 4 3 ++ leBytes 4 1)) live
        (fun t => decide (t.net.bells = [(0, 0, false, 3), (0, 0, true, 1)])) = true
    ∧ idle (.doorbellWrite 0 0 (leBytes 4 3)) { live with rst := { acting := [⟨5, 0, 0⟩] } } = true
    ∧ gives (.mailboxDoorbell 1 62) live (fun t => decide ((t.inst 1).box.inProd = 62)) = true
    ∧ gives (.mailboxDoorbell 1 63) live (fun t => decide ((t.inst 1).box.inProd = 8 ∧ t.link.badAccess = 1)) = true
    := by decide +kernel

/-- `live` with vector 1 of function 1 masked and its message pending. -/
def maskedVector : State :=
  live.updFunc 1 (fun f => { f with vectors := [(1, { addr := 0x1000, data := 9, pending := true })] })

theorem witness_vector_unmask :
    gives (.msixVectorUnmask 1 1) maskedVector (fun t => decide (t.link.posted = [.msix 1 1 0x1000 9]
      ∧ (t.vector 1 1).pending = false ∧ (t.vector 1 1).masked = false)) = true
    ∧ gives (.msixVectorUnmask 1 1) (maskedVector.updFunc 1 (fun f => { f with msixMask := true }))
        (fun t => decide (t.link.posted = [] ∧ (t.vector 1 1).pending = true)) = true := by decide +kernel

/-- `live` with a doorbell half on its way. -/
def rung (high : Bool) (v : BitVec 32) : State := { live with net := { live.net with bells := [(0, 0, high, v)] } }

theorem witness_doorbell :
    gives (.doorbell 0 0 false 3) (rung false 3) (fun t => decide ((t.queue 0).map (·.write) = some 3
      ∧ (t.queue 0).map (·.stamps) = some [(3, 100000000)] ∧ t.net.bells = [])) = true
    ∧ gives (.doorbell 0 0 false 16) (rung false 16) (fun t => decide ((t.queue 0).map (·.write) = some 16)) = true
    ∧ gives (.doorbell 0 0 false 17) (rung false 17)
        (fun t => decide ((t.queue 0).map (·.write) = some 2 ∧ (t.queue 0).map (·.dbBad) = some 1)) = true
    ∧ gives (.doorbell 0 0 false 2) (rung false 2) (fun t => decide (t.queues = live.queues)) = true
    ∧ gives (.doorbell 0 0 true 0) (rung true 0) (fun t => decide ((t.queue 0).map (·.cons) = some 0)) = true
    ∧ gives (.doorbell 0 0 true 1) (rung true 1) (fun t => decide ((t.queue 0).map (·.dbBad) = some 1)) = true
    ∧ gives (.doorbell 0 0 false 3) { rung false 3 with rst := { phase := .l2Stopped } }
        (fun t => decide (t.fep.heldBells = [(0, 0, false, 3)] ∧ t.queues = live.queues)) = true := by decide +kernel

theorem witness_abort_requests :
    live.abortVerdict 0 (some 0) = none ∧ live.abortLatched 0 (some 0) = false
    ∧ gives (.abortQueue 0 0 false) live (fun t => decide ((t.inst 0).qBusy = 1 ∧ t.abrt.reqs.length = 1
        ∧ (t.queue 0).map (·.abortLatched) = some true)) = true
    ∧ gives (.abortQueue 1 5 true) live
        (fun t => decide (t.abrt.reqs = [] ∧ (t.inst 1).lastQid = 5 ∧ (t.inst 1).doneCount = 1)) = true
    ∧ gives (.abortInstance 1 true) live (fun t => decide ((t.inst 1).iBusy = true ∧ (t.inst 1).state = .aborting)) = true
    ∧ gives (.abortInstance 2 true) live (fun t => decide ((t.inst 2).lastAll = true ∧ (t.inst 2).iBusy = false)) = true
    := by decide +kernel


-- The on-chip network -------------------------------------------------------------------------------------------------------

/-- The Glove lets a packet pass. -/
def passes : Glove → Bool
  | .pass => true
  | .discard _ => false

theorem passes_eq {g : Glove} (h : passes g = true) : g = .pass := by cases g <;> simp_all [passes]

/-- `Delivered` as a decision. -/
def deliveredB (s : State) (p : Pkt) (d : Option Dma) : Bool :=
  !s.cutOff p.src && !s.cutOff p.dst && (underWay s p || (s.net.hasTicket p.src p.dst && s.mayIssue p d))
    && !(travelled s p d).voided p && passes ((travelled s p d).glove3 p.dst p)

theorem deliveredB_delivered {s : State} {p : Pkt} {d : Option Dma} (h : deliveredB s p d = true) : Delivered s p d := by
  simp only [deliveredB, Bool.and_eq_true, Bool.or_eq_true, Bool.not_eq_true'] at h
  exact ⟨h.1.1.1.1, h.1.1.1.2, h.1.1.2, h.1.2, passes_eq h.2⟩

/-- A read of 4 bytes by the FEP at the first memory controller, for instance 0. -/
def rdPkt : Pkt :=
  { typ := 0, urg := 0, src := 19, dst := 17, mask := 0, inst := 0, gen := 1, slot := 0, tag := 0, tgen := 0, len := 0,
    status := 0, addr := 0x30000000, hostSpace := false, bytes := 3 }

def wrPkt : Pkt := { rdPkt with typ := 1, len := 1 }
def hostRd : Pkt := { rdPkt with dst := 16, addr := 0x1000, hostSpace := true }
def hostWr : Pkt := { hostRd with typ := 1, len := 1 }

/-- The last byte below the usable capacity of `live`, and the first that does not exist. -/
def lastPkt : Pkt := { wrPkt with dst := 18, addr := live.usable - 1, bytes := 0 }

/-- `live` with the share window of instance 0 at the first controller spent. -/
def spent : State := { live with mem := { live.mem with window := [(0, 10 ^ 12)] } }

/-- An entry of format A: header of an opcode and instance 0, tag 7, then the body. -/
def entry (op : Nat) (body : List Byte) : List Byte := leBytes 4 op ++ leBytes 4 7 ++ body

/-- The command at SEQ 0 of queue slot 0 with this entry, as stage 3 leaves it. -/
def cmdOf (op : Nat) (body : List Byte) : Cmd := mkCmd 0 ringQueue (entry op body) 1 99000000

/-- A replica at work on one partition. -/
def rep (idx role leader : Nat) : Replica :=
  { idx := idx, role := role, leader := leader, shape := 0, state := .running, status := 0, tile := 0, detached := false,
    saturated := false, skim := none, outCredits := [], outFinal := [], inTokens := [], inFinal := [] }

/-- A launch of instance 0 from slot 0 with one replica of shape 0 that runs on P0, its requests and P0's in the partition's
DMA engine. -/
def busyCmd : Cmd :=
  { cmdOf opLaunch [] with stage := .executing, accepted := true, gen := 1, replicas := [rep 0 0 0] }
def working : State :=
  { live with
    cmds := [(cmdKey 0 0, busyCmd)]
    parts := [(0, { state := .busy, clkMhz := 300, ldoMv := 550, run := some (0, 0, 0), acked := true, act := [(8, 5), (9, 6)] })] }

/-- A read of 4 bytes to activation SRAM offset 64 by P0, and a write of the 4 bytes at offset 8; both on channel 2. -/
def dmaRd : Pkt := { rdPkt with src := 0 }
def dmaWr : Pkt := { wrPkt with src := 0 }
def toAct : Dma := { chan := 2, sram := .act, off := 64, ring := false }
def fromAct : Dma := { toAct with off := 8 }

/-- `live` where function 0 uses address translation, its page 1 translated to page 5 or not. -/
def usingAts (known : Bool) : State :=
  let s := (live.updFunc 0 (fun f => { f with atsEnable := true })).updInst 0 (fun i => { i with mmu := { i.mmu with ats := true } })
  { s with link := { s.link with atc := if known then [(atcKey 0 1, 5)] else [] } }

theorem witness_reads_and_writes :
    deliveredB live rdPkt (some okDma) = true ∧ deliveredB live wrPkt (some okDma) = true
    ∧ deliveredB live hostRd (some okDma) = true ∧ deliveredB live hostWr (some okDma) = true
    ∧ deliveredB working (working.filled dmaRd) (some toAct) = true
    ∧ deliveredB working (working.filled dmaWr) (some fromAct) = true
    ∧ deliveredB spent rdPkt (some okDma) = true ∧ live.filled rdPkt = rdPkt
    ∧ spent.mustWait ⟨false, rdPkt, []⟩ = true ∧ live.mustWait ⟨false, rdPkt, []⟩ = false
    ∧ gives (.rd rdPkt okDma) live (fun t => decide (t.dict.memBytes = 4 ∧ tabGetD t.mem.window 0 0 = 4)) = true
    ∧ gives (.rd dmaRd toAct) working (fun t => decide (t.parts = working.parts
        ∧ (tabGet t.net.reqs (tagKey 0 0)).map (·.dma) = some (some toAct))) = true
    ∧ gives (.wr wrPkt [1, 2, 3, 4] okDma) live (fun t => decide (t.readPrivN 0x30000000 5 = [1, 2, 3, 4, 0]
        ∧ t.readPriv 0x2FFFFFFF = 0)) = true
    ∧ gives (.wr dmaWr [] fromAct) working (fun t => decide (t.readPrivN 0x30000000 4 = [5, 6, 0, 0])) = true
    ∧ gives (.wr lastPkt [7] okDma) live (fun t => decide (t.readPriv lastPkt.addr = 7)) = true
    ∧ stops (.rd { rdPkt with addr := live.usable, bytes := 0 } okDma) live .noSuchPpa = true := by decide +kernel

theorem witness_host_reads_and_writes :
    gives (.rd hostRd okDma) live (fun t => decide (t.link.outstanding.map (fun e => e.2.xlat) = [none])) = true
    ∧ gives (.rd hostRd okDma) (usingAts false)
        (fun t => decide (t.link.outstanding.map (fun e => e.2.xlat) = [some ⟨false, hostRd, []⟩])) = true
    ∧ gives (.wr hostWr [1, 2, 3, 4] okDma) live (fun t => decide (t.link.posted = [.write 0 0x1000 [1, 2, 3, 4]])) = true
    ∧ gives (.wr hostWr [1, 2, 3, 4] okDma) (usingAts true)
        (fun t => decide (t.link.posted = [.writeAt 0 0x5000 [1, 2, 3, 4]])) = true
    ∧ gives (.wr hostWr [1, 2, 3, 4] okDma) (usingAts false)
        (fun t => decide (t.link.posted = [] ∧ t.link.outstanding.map (fun e => e.2.xlat) = [some ⟨true, hostWr, [1, 2, 3, 4]⟩])) = true
    ∧ gives (.rd rdPkt okDma) spent (fun t => decide (t.mem.windowWait = [⟨false, rdPkt, []⟩])) = true
    ∧ gives (.wr wrPkt [1, 2, 3, 4] okDma) spent
        (fun t => decide (t.mem.windowWait = [⟨true, wrPkt, [1, 2, 3, 4]⟩] ∧ t.readPriv 0x30000000 = 0)) = true
    ∧ gives (.rd { rdPkt with len := 1 } okDma) live (fun t => decide (t.net.malformed = 1)) = true
    ∧ gives .shareWindow spent (fun t => decide (t.mem.window = [])) = true
    ∧ gives .shareWindow { spent with mem := { spent.mem with windowWait := [⟨true, wrPkt, [9, 9, 9, 9]⟩] } }
        (fun t => decide (t.mem.windowWait = [] ∧ t.readPriv 0x30000003 = 9)) = true := by decide +kernel

/-- `live` with translation on for instance 1 and a table root that lists nothing. -/
def walker (f : Mmu → Mmu) : State :=
  { with1 (fun i => { i with mmu := f { i.mmu with en := true, root := 0x40000000 } }) with
    queues := [(0, ringQueue), (1, { ringQueue with inst := 1 })] }

/-- A walk that the second controller performs for instance 1. -/
def walkPkt : Pkt := { rdPkt with typ := 2, dst := 18, inst := 1, slot := 1, addr := 0 }

/-- Instance 1's tables at 0x4000_0000 with one 2 MiB leaf: DVA 0 to private 0x5000_0000, readable and writable. -/
def mapped : State :=
  (((walker id).writePriv 0x40000000 (leBytes 8 0x40100001)).writePriv 0x40100000 (leBytes 8 0x40200001)).writePriv
    0x40200000 (leBytes 8 0x5000000F)

def irqPkt : Pkt := { rdPkt with typ := 3, dst := 16 }
def regPkt : Pkt := { rdPkt with typ := 4, addr := 0x80108 }

theorem witness_walks_and_registers :
    deliveredB mapped walkPkt none = true ∧ deliveredB (walker id) walkPkt none = true ∧ deliveredB live irqPkt none = true
    ∧ deliveredB live regPkt none = true ∧ deliveredB live { regPkt with typ := 5, len := 1 } none = true
    ∧ gives (.walk walkPkt 0xFFFF true) mapped (fun t => decide ((t.inst 1).mmu.tlb = [(0, 0x5000002F)])) = true
    ∧ gives (.walk walkPkt (2 ^ 48 - 1) false) (walker id) (fun t => decide ((t.inst 1).mmu.faultValid = true
        
        ∧ (t.inst 1).mmu.faultDva = BitVec.ofNat 48 (2 ^ 48 - 1) ∧ (t.inst 1).mmu.tlb = [])) = true
    ∧ gives (.walk walkPkt 0 false) (walker (fun m => { m with faultValid := true }))
        (fun t => decide ((t.inst 1).mmu = ((walker (fun m => { m with faultValid := true })).inst 1).mmu)) = true
    ∧ gives (.irq irqPkt 63) live (fun t => decide ((t.vector 0 63).pending = true ∧ t.link.posted = [])) = true
    ∧ gives (.irq irqPkt 5) (live.updFunc 0 (fun f => { f with vectors := [(5, { addr := 0x1000, masked := false })] }))
        (fun t => decide (t.link.posted = [.msix 0 5 0x1000 0])) = true
    ∧ gives (.regRd regPkt) live (fun t => decide (t.link.readData = [2, 0, 0, 0])) = true
    ∧ gives (.regWr { regPkt with typ := 5, len := 1 } 1) live
        (fun t => decide ((t.inst 0).mmu.en = true ∧ (t.inst 0).mmu.bypass = false)) = true
    ∧ gives (.regRd { regPkt with len := 1 }) live (fun t => decide (t.net.malformed = 1)) = true := by decide +kernel

/-- `Answers` as a decision. -/
def answersB (s : State) (p : Pkt) (r : NetReq) : Bool :=
  !s.cutOff p.src && !s.cutOff p.dst && (!decide (p.dst < 16) || decide ((s.part p.dst).state ≠ .gated))
    && decide (p.tgen = s.tagGen p.dst p.tag)
    && decide (tabGet s.net.reqs (tagKey p.dst p.tag) = some r) && !((s.observe p).answered p.dst p.tag).voided p
    && passes (((s.observe p).answered p.dst p.tag).glove3 p.dst
        (if 32 < p.inst then p else { p with inst := r.inst, gen := r.gen, slot := r.slot }))

theorem answersB_answers {s : State} {p : Pkt} {r : NetReq} (h : answersB s p r = true) : Answers s p r := by
  simp only [answersB, Bool.and_eq_true, Bool.not_eq_true', Bool.or_eq_true, decide_eq_true_eq, decide_eq_false_iff_not] at h
  obtain ⟨⟨⟨⟨⟨⟨a, b⟩, g⟩, c⟩, d⟩, e⟩, f⟩ := h
  exact ⟨a, b, fun l => g.resolve_left (fun n => n l), c, d, e, passes_eq f⟩

/-- An outstanding read of the FEP at the first controller under tag 0, on a loaned ticket or not. -/
def outReq (loaned : Bool) : NetReq :=
  { dst := 17, tgen := 0, inst := 0, gen := 1, slot := 0, kind := 0, sentAt := 99000000, loaned := loaned, write := false }
def waiting (loaned : Bool) : State :=
  { live with net := { live.net with
      reqs := [(tagKey 19 0, outReq loaned)], out := [(pairKey 19 17, 1)],
      loans := if loaned then [(pairKey 19 17, 1)] else [], lent := if loaned then [(17, 1)] else [] } }

/-- Its response, and one under an old generation of the tag. -/
def rspPkt : Pkt := { rdPkt with typ := 0x10, src := 17, dst := 19 }
def latePkt : Pkt := { rspPkt with tgen := 15 }

/-- A read of P0 whose target has read 4 bytes, and its response. -/
def fetching : State :=
  { working with net := { working.net with out := [(pairKey 0 17, 1)]
                                           reqs := [(tagKey 0 0, { outReq false with len := 4, dma := some toAct, data := [1, 2, 3, 4] })] } }
def dmaRsp (st : Status) : Pkt := { rspPkt with dst := 0, status := st }

theorem witness_responses :
    answersB (waiting false) rspPkt (outReq false) = true ∧ answersB (waiting true) rspPkt (outReq true) = true
    ∧ gives (.rdRsp { rspPkt with len := 1 } false) (waiting true) (fun t => decide (t.net.reqs = []
        ∧ t.net.out = [] ∧ t.net.lent = [] ∧ t.net.loans = [])) = true
    ∧ answersB fetching (dmaRsp 0) ((tabGetD fetching.net.reqs (tagKey 0 0) (outReq false))) = true
    ∧ gives (.rdRsp { dmaRsp 0 with len := 1 } false) fetching
        (fun t => decide (t.net.reqs = [] ∧ (t.part 0).readSram .act 64 4 = [1, 2, 3, 4] ∧ (t.part 0).readSram .act 8 2 = [5, 6])) = true
    ∧ gives (.wrAck rspPkt) (waiting false) (fun t => decide (t.net.reqs = [] ∧ t.net.out = [])) = true
    ∧ gives (.regRsp rspPkt) (waiting false) (fun t => decide (t.net.reqs = [])) = true
    ∧ gives (.voidPkt { rspPkt with typ := 0x17 }) (waiting false) (fun t => decide (t.net.reqs = [])) = true
    ∧ gives (.wrAck latePkt) (waiting false) (fun t => decide (t.net.late = 1 ∧ t.net.reqs = (waiting false).net.reqs)) = true
    ∧ gives (.regRsp latePkt) { waiting false with net := { (waiting false).net with writtenOff := [(pairKey 19 17, 2)] } }
        (fun t => decide (t.net.writtenOff = [(pairKey 19 17, 1)])) = true
    ∧ gives (.voidPkt { rspPkt with len := 9 }) live (fun t => decide (t.net.malformed = 1)) = true := by decide +kernel

/-- `live` with the FEP's request for 8 loan tickets of the first controller in its queue, `k` of the 32 lent. -/
def borrowing (k : Nat) : State :=
  { live with net := { live.net with loanQueue := [(17, 19, 8)], lent := if k = 0 then [] else [(17, k)] } }

theorem witness_tickets_generations_timeouts :
    gives (.ticketReq rdPkt 8) live (fun t => decide (t.net.loanQueue = [(17, 19, 8)])) = true
    ∧ gives (.ticketGrant rspPkt 8) (borrowing 24) (fun t => decide (t.net.loanQueue = [] ∧ t.net.lent = [(17, 32)]
        ∧ t.net.loans = [(pairKey 19 17, 8)])) = true
    ∧ gives (.ticketGrant rspPkt 8) (borrowing 25) (fun t => decide (t.net.loanQueue = [(17, 19, 8)])) = true
    ∧ gives (.ticketGrant { rspPkt with dst := 3 } 8) live (fun t => decide ((t.bridge 3).discard = 1)) = true
    ∧ gives (.genUpdate 17 1 1) (with1 (fun i => { i with genWait := [16, 17] }))
        (fun t => decide (t.nodeGen 17 1 = 1)) = true
    ∧ gives (.genAck 17 1) (with1 (fun i => { i with genWait := [16, 17] }))
        (fun t => decide ((t.inst 1).genWait = [16])) = true
    ∧ idle (.genAck 3 1) (with1 (fun i => { i with gen := 2, genWait := [3] })) = true
    ∧ idle (.initiatorTimeout 19 0) { waiting false with clk := { devtime := 99063999 } } = true
    ∧ gives (.initiatorTimeout 19 0) { waiting false with clk := { devtime := 99064000 } } (fun t => decide (t.net.reqs = []
        ∧ t.tagGen 19 0 = 1 ∧ t.net.writtenOff = [(pairKey 19 17, 1)])) = true := by decide +kernel

/-- A graph of one version, its fixed section given. -/
def graphOf (f : GraphFixed) : Graph :=
  { fixed := f, fixedPages := [], current := some 1, versions := [⟨1, []⟩], builder := none, waiters := [] }

def tile0 : Tile := { wcCycles := 1000, cls := 1, shape := 0, preempt := true, uentry := 0, live := 0, woff := 0, skim := false }
def variant0 : Variant := { role := 0, shape := 0, tiles := [tile0], resOff := 0, resMember := 0, skimOff := none, wcLaunch := 10 }
def fixed0 : GraphFixed :=
  { relay := false, roleMask := 1, cbSize := 0, imageLen := 512, patchLen := 256, variants := [variant0], relocs := [], edges := [] }

/-- A launch of a relay graph whose role 0 on P0 feeds role 1 on P1 over edge 0. -/
def relayCmd : Cmd :=
  { cmdOf opLaunch [] with
    stage := .executing, accepted := true, gen := 1, graph := 1, version := 1, relay := true,
    replicas := [{ rep 0 0 0 with outCredits := [(0, 1)] }, { rep 1 1 1 with inTokens := [(0, 1)], owed := [(0, 1)] }] }

/-- `live` with that launch on P0 and P1. -/
def relaying : State :=
  let s := live.updInst 0 (fun i => { i with graphs := [(1, graphOf { fixed0 with relay := true, edges := [⟨0, 1, 4⟩] })] })
  { s with
    cmds := [(0, relayCmd)]
    parts := [(0, { state := .busy, clkMhz := 300, ldoMv := 550, run := some (0, 0, 0), owed := 1 }),
              (1, { state := .busy, clkMhz := 300, ldoMv := 550, run := some (0, 0, 1) })] }

def tokenPkt : Pkt := { rdPkt with typ := 0x0D, src := 0, dst := 1 }
def creditPkt : Pkt := { rdPkt with typ := 0x0E, src := 1, dst := 0 }
def blockPkt : Pkt := { rdPkt with typ := 0x0C, src := 22, dst := 31, mask := 1, len := 128 }

/-- Skim slot 2 with one attached replica led by P0, whose lag is `k`, on its way through two blocks at 0x5000_0000; a block
with these bytes for P0 on its way. -/
def group (k head : Nat) (hold : Option Nat) : Skim :=
  { active := true, graph := 1, stream := ⟨0, 0, 2, 3, 1⟩, dva := 0x50000000, head := head, attached := 1, lag := [(0, k)], holding := hold }
def streaming (k head : Nat) (hold : Option Nat) : State := { relaying with skims := [(2, group k head hold)] }
def nines : List Byte := List.replicate 4096 9
def blockOut (bs : List Byte) : State :=
  { relaying with skims := [(2, { group 1 1 none with flight := [⟨1, 1, false, bs⟩] })] }
/-- The same group with the replicas led by P0, at lag 16, and by P1, at lag 15, both attached since 4 µs. -/
def twoReplicas : State := { relaying with skims := [(2, { group 16 0 (some 99996000) with attached := 3, lag := [(0, 16), (1, 15)] })] }
/-- P1's role saved by a pre-emption. -/
def savedSink : State :=
  { relaying with parts := [(0, { state := .busy, clkMhz := 300, ldoMv := 550, run := some (0, 0, 0) }),
                            (1, { state := .idle, clkMhz := 300, ldoMv := 550, resume := some ⟨0, 0, 1⟩ })] }

/-- `Received` as a decision. -/
def receivedB (s : State) (k : Nat) (p : Pkt) : Bool :=
  !s.cutOff p.src && !s.cutOff k && decide ((s.part k).state ≠ .gated) && !(s.observe p).voided p
    && passes ((s.observe p).glove3 k p)

theorem receivedB_received {s : State} {k : Nat} {p : Pkt} (h : receivedB s k p = true) : Received s k p := by
  simp only [receivedB, Bool.and_eq_true, Bool.not_eq_true', decide_eq_true_eq] at h
  exact ⟨h.1.1.1.1, h.1.1.1.2, h.1.1.2, h.1.2, passes_eq h.2⟩

/-- The replicas of the command at SEQ 0 of slot 0. -/
def reps (s : State) : List Replica := (s.cmd 0 0).elim [] (·.replicas)

theorem witness_whole_block : ((blockOut nines).skim 2).flight.map (·.data.length) = [4096] := by
  show [(List.replicate 4096 (9 : Byte)).length] = [4096]
  rw [List.length_replicate]

theorem witness_skim_blocks :
    ((blockOut [7, 9]).skim 2).copyFor 0 = some ⟨1, 1, false, [7, 9]⟩ ∧ passes ((blockOut [7, 9]).glove3 0 (skimPkt blockPkt ⟨1, 1, false, []⟩ relayCmd)) = true
    ∧ gives (.skim blockPkt 0) (blockOut [7, 9]) (fun t => decide ((t.part 0).landed = 1 ∧ (t.part 1).landed = 0
        ∧ (t.skim 2).flight = [] ∧ (t.part 0).readSram .weight (ringSlot 0) 3 = [7, 9, 0])) = true
    ∧ gives (.skim { blockPkt with len := 127 } 0) (blockOut [7, 9]) (fun t => decide (t.net.malformed = 1)) = true
    ∧ idle (.skimBlockSend 2) (streaming 15 1 none) = true
    ∧ gives (.skimBlockSend 2) ((streaming 15 1 none).updSkim 2 (fun x => { x with fetched := 4096 })) (fun t => decide ((t.skim 2).lag = [(0, 16)] ∧ (t.skim 2).head = 2
        ∧ (t.skim 2).pass = 0 ∧ (t.skim 2).started = true ∧ (t.skim 2).flight.map (·.mask) = [1])) = true
    ∧ gives (.skimBlockSend 2) (streaming 0 2 none) (fun t => decide ((t.skim 2).head = 1 ∧ (t.skim 2).pass = 1)) = true
    ∧ idle (.skimBlockSend 2) ((streaming 0 0 none).updInst 0 (fun i => { i with limits := { i.limits with privShare := 0 } })) = true
    ∧ gives (.skimBlockSend 2) { streaming 0 0 none with mem := { live.mem with ecc := true, bad := [0x50000000 / 8] } }
        (fun t => decide ((t.skim 2).flight.map (·.poison) = [true])) = true
    ∧ gives (.skimBlockSend 2) (streaming 16 0 none) (fun t => decide ((t.skim 2).holding = some 100000000)) = true
    ∧ idle (.skimBlockSend 2) (streaming 16 0 (some 99999000)) = true
    ∧ gives (.slotCredit 2 0) (streaming 16 0 (some 99999000)) (fun t => decide ((t.skim 2).lag = [(0, 15)]
        ∧ (t.skim 2).holding = none ∧ (t.part 0).owed = 0)) = true
    ∧ idle (.skimHoldExpiry 2) (streaming 16 0 (some 99996001)) = true
    ∧ gives (.skimHoldExpiry 2) (streaming 16 0 (some 99996000))
        (fun t => decide ((t.skim 2).holding = some 99996000 ∧ (t.skim 2).lag = [(0, 16)])) = true
    ∧ gives (.skimHoldExpiry 2) twoReplicas (fun t => decide ((t.skim 2).holding = none ∧ (t.skim 2).lag = [(1, 15)]
        ∧ (t.skim 2).detCount = 1)) = true := by decide +kernel

theorem witness_relay :
    receivedB relaying 1 tokenPkt = true ∧ receivedB relaying 0 creditPkt = true
    ∧ relaying.filled tokenPkt = tokenPkt ∧ (relaying.savedRole 1 0).isNone = true ∧ (savedSink.savedRole 1 0).isSome = true
    ∧ gives (.token 1 0 false false tokenPkt) relaying (fun t => decide (reps t =
        [{ rep 0 0 0 with outCredits := [(0, 0)], outSent := [0] }, { rep 1 1 1 with inTokens := [(0, 2)], owed := [(0, 1)] }])) = true
    ∧ gives (.token 1 0 true false tokenPkt) savedSink (fun t => decide ((reps t).map (·.outFinal) = [[0], []]
        ∧ (reps t).map (·.inFinal) = [[], [0]] ∧ (reps t).map (·.inTokens) = [[], [(0, 2)]])) = true
    ∧ gives (.credit 0 0 creditPkt) relaying (fun t => decide (reps t =
        [{ rep 0 0 0 with outCredits := [(0, 2)] }, { rep 1 1 1 with inTokens := [(0, 1)], owed := [(0, 0)] }])) = true
    ∧ gives (.credit 7 0 { creditPkt with dst := 7 }) live (fun t => decide ((t.bridge 7).discard = 1)) = true := by decide +kernel

/-- `live` with a bridge FATAL. -/
def fatal (b : Nat) : State := live.updBridge b (fun x => { x with fatal := true })

theorem witness_bridges :
    gives (.bridgeNak 17 false) live (fun t => decide (t.net.retry = 1 ∧ (t.bridge 17).crcErr = 1)) = true
    ∧ gives (.bridgeNak 3 true) (live.updBridge 3 (fun x => { x with replays := 3, refusedAt := some 99999000 }))
        (fun t => decide ((t.bridge 3).fatal = false ∧ (t.bridge 3).replays = 4)) = true
    ∧ gives (.bridgeNak 3 true) (live.updBridge 3 (fun x => { x with replays := 4, refusedAt := some 99999000 }))
        (fun t => decide ((t.bridge 3).fatal = true ∧ (t.bridge 3).crcErr = 1)) = true
    ∧ gives (.bridgeNak 3 true) (live.updBridge 3 (fun x => { x with replays := 1, refusedAt := some 99998000 }))
        (fun t => decide ((t.bridge 3).fatal = true)) = true
    ∧ idle (.bridgeNak 3 true) (fatal 3) = true ∧ idle (.linkFatal 3) (fatal 3) = true
    ∧ gives (.linkFatal 0) live (fun t => decide ((t.bridge 0).fatal = true ∧ (t.part 0).state = .offline
        ∧ (t.part 0).faultPending = true ∧ (t.part 0).fatalUntil = some 104000000)) = true
    ∧ gives (.linkFatal 16) live (fun t => decide ((t.bridge 16).fatal = false ∧ t.mgc.fw = .restarting
        ∧ t.mgc.lastCause = 3 ∧ t.mgc.restarts = 1)) = true
    ∧ gives (.linkFatal 17) live (fun t => decide ((t.bridge 17).fatal = true ∧ t.parts = live.parts)) = true
    ∧ idle (.linkFatalIntervalEnd 0) (live.updPart 0 (fun p => { p with fatalUntil := some 100000001 })) = true
    ∧ gives (.linkFatalIntervalEnd 0) (live.updPart 0 (fun p => { p with fatalUntil := some 100000000 }))
        (fun t => decide ((t.part 0).fatalUntil = none)) = true
    ∧ gives .bridgeRetrained (fatal 17) (fun t => decide ((t.bridge 17).fatal = false ∧ t.nodeGen 21 1 = 1)) = true
    ∧ gives (.reservedTypePacket { rdPkt with typ := 31 }) live (fun t => decide (t.net.malformed = 1)) = true
    ∧ idle (.reservedTypePacket rdPkt) live = true := by decide +kernel


-- The front-end processor -------------------------------------------------------------------------------------------------------

/-- A read of slot 0's first entry is under way and the ring holds this entry. -/
def fetched (e : List Byte) (f : Queue → Queue) : State :=
  { live with queues := [(0, f { ringQueue with reads := 1 })] }.writePriv 0x30000000 e

theorem witness_fetch_and_check :
    live.fetchable 0 ringQueue = true
    ∧ gives .fetchRead live (fun t => decide ((t.queue 0).map (·.reads) = some 1 ∧ t.fep.rrNext = 1
        ∧ (tabGet t.fep.threads 0).map (·.work) = some (some (0, 0)))) = true
    ∧ idle .fetchRead (live.updQueue 0 (fun q => { q with write := 0 })) = true
    ∧ gives (.commandCheck 0) (fetched (entry opNop []) id) (fun t => decide (t.cmd 0 0 = some (mkCmd 0
        { ringQueue with reads := 1 } ((t.readPrivN 0x30000000 32)) 1 100000000)
        ∧ (t.queue 0).map (·.nextFetch) = some 1)) = true
    ∧ gives (.commandCheck 0) (fetched (entry 0x04 []) id) (fun t => decide ((t.cmd 0 0).map (·.status) = some St.badOpcode
        ∧ (t.queue 0).map (·.nextFetch) = some 1)) = true
    ∧ gives (.commandCheck 0) (fetched (entry 0x400 []) id) (fun t => decide ((t.queue 0).map (·.guiltRound) = some 1
        ∧ (t.queue 0).map (·.guilty) = some (some (0, St.gloveMismatch)))) = true
    ∧ gives (.commandCheck 0) (fetched (entry (0x230) (leBytes 4 1 ++ leBytes 4 0x00100001))
          (fun q => { q with desc := { q.desc with format := 2 }, write := 1 }))
        (fun t => decide ((t.queue 0).map (·.need) = some (some 2) ∧ (t.queue 0).map (·.reads) = some 0)) = true
    ∧ gives (.commandCheck 0) (fetched (entry (0x230) (leBytes 4 1 ++ leBytes 4 0x01400001))
          (fun q => { q with desc := { q.desc with format := 2 }, write := 6 }))
        (fun t => decide ((t.queue 0).map (·.need) = some (some 6) ∧ (t.queue 0).map (·.reads) = some 1)) = true
    ∧ gives (.commandCheck 0) { fetched (entry opNop []) id with fep := { readErr := [(0, St.hostXlate)] } }
        (fun t => decide ((t.queue 0).map (·.guilty) = some (some (0, St.hostXlate)) ∧ (t.queue 0).map (·.guiltRound) = some 1)) = true
    ∧ gives (.commandCheck 0) ((fetched (entry opNop []) id).updInst 0 (fun i => { i with mmu := {} }))
        (fun t => decide ((t.queue 0).map (·.guilty) = some (some (0, St.dvaUnmapped)))) = true
    := by decide +kernel

/-- `live` with the command at SEQ 0 of slot 0 as given. -/
def holding (c : Cmd) : State := { live with cmds := [(0, c)] }

/-- A COPY from handle 0x0000_1001 to handle 0x0000_1002, 64 bytes. -/
def copyCmd : Cmd := cmdOf opCopy (leBytes 4 0x1001 ++ leBytes 4 0x1002 ++ leBytes 8 8 ++ leBytes 8 16 ++ leBytes 8 64)

/-- Entries 1 and 2 of instance 0's handle table bound over 4 KiB, of generation 1; 2 without RD. -/
def bound (s : State) : State :=
  s.updInst 0 (fun i => { i with handles := [(1, ⟨0x50000000, 4096, 1, true, true, true⟩), (2, ⟨0x60000000, 4096, 1, false, true, true⟩)] })

/-- A launch of graph 1 of instance 0, role 0, and the graph. -/
def launchCmd : Cmd := cmdOf opLaunch (leBytes 4 1 ++ leBytes 4 1)
def withGraph (s : State) : State := s.updInst 0 (fun i => { i with graphs := [(1, graphOf fixed0)] })

theorem witness_relocation :
    gives (.relocate 0 0) (bound (holding copyCmd)) (fun t => decide ((t.cmd 0 0).map (·.dvas) = some [0x50000008, 0x60000010]
        ∧ (t.cmd 0 0).map (·.stage) = some .relocated)) = true
    ∧ gives (.relocate 0 0) (holding copyCmd) (fun t => decide ((t.cmd 0 0).map (·.status) = some St.handleStale)) = true
    ∧ gives (.relocate 0 0) (withGraph (holding launchCmd)) (fun t => decide ((t.cmd 0 0).map (·.version) = some 1
        ∧ (t.cmd 0 0).map (·.stage) = some .relocated)) = true
    ∧ idle (.relocate 0 1) { live with cmds := [(0, cmdOf opNop []), (1, { cmdOf opNop [] with seq := 1 })] } = true
    ∧ gives (.relocate 0 0) (bound (holding copyCmd)) (fun t => decide (t.fep.hcache.map (·.1) = [2, 1] ∨ t.fep.hcache.map (·.1) = [1, 2])) = true
    ∧ (({ bound live with mem := { live.mem with ecc := true, bad := [(65536 * 0 + 16) / 8] } }).relocPair 0 0x1001 0 1 true true
        matches .error 0x401C) = true
    ∧ ((bound live).relocPair 0 0x1001 0 4096 true true matches .ok 0x50000000) = true
    ∧ ((bound live).relocPair 0 0x1001 0 4097 true true matches .error 0x4011) = true
    ∧ ((bound live).relocPair 0 0x1002 0 4096 true true matches .error 0x4012) = true
    ∧ ((bound live).relocPair 0 0x2001 0 4096 true true matches .error 0x4010) = true := by decide +kernel

/-- `live` with a relocated command at READ. -/
def atRead (c : Cmd) : State := holding { c with stage := .relocated }

/-- A PATCH of graph 1 that has built its version's pages. -/
def patchCmd : Cmd := { cmdOf opPatch (leBytes 2 1 ++ List.replicate 14 0 ++ leBytes 4 0 ++ leBytes 4 4) with built := some [3] }

theorem witness_acceptance_point :
    gives (.acceptancePoint 0 0) (atRead (cmdOf opNop [])) (fun t => decide ((t.cmd 0 0).map (·.accepted) = some true
        ∧ (t.cmd 0 0).map (·.gen) = some 1 ∧ (t.cmd 0 0).map (·.stage) = some .waiting
        ∧ (t.queue 0).map (·.read) = some 1 ∧ t.fep.nextOrder = 1)) = true
    ∧ gives (.acceptancePoint 0 0) (withGraph (atRead { launchCmd with cb := [1, 2, 3, 4] })) (fun t =>
        decide ((t.cmd 0 0).map (·.pool) = some (some 0) ∧ t.readPrivN 0x800000 5 = [1, 2, 3, 4, 0] ∧ t.fep.pool = [0])) = true
    ∧ gives (.acceptancePoint 0 0) (withGraph (atRead patchCmd)) (fun t =>
        decide ((t.graph 0 1).map (·.current) = some (some 2) ∧ (t.graph 0 1).map (·.versions) = some [⟨2, [3]⟩])) = true
    ∧ idle (.acceptancePoint 0 0) ((atRead (cmdOf opNop [])).updQueue 0 (fun q => { q with stopCause := 2 })) = true
    ∧ idle (.acceptancePoint 0 0) { atRead { launchCmd with cb := [1] } with fep := { pool := List.range 2048 } } = true
    := by decide +kernel

/-- A command at stage 6, accepted. -/
def six (op : Nat) (body : List Byte) : Cmd :=
  { cmdOf op body with stage := .waiting, accepted := true, gen := 1, stage6At := 99000000 }

/-- `live` with this command at SEQ 1 of slot 0, behind one at SEQ 0 that executes. -/
def behind (c : Cmd) : State :=
  { live with cmds := [(0, { cmdOf opFill [] with stage := .executing, accepted := true }), (1, { c with seq := 1, order := 1 })] }

/-- A WAIT or SIGNAL on semaphore 3 for the value 5, with a limit of 10 µs. -/
def semBody : List Byte := leBytes 4 3 ++ leBytes 4 10 ++ leBytes 8 5
def semAt (s : State) (v : Nat) (p : Option (BitVec 64)) : State :=
  s.updInst 0 (fun i => { i with sems := [(3, ⟨BitVec.ofNat 64 v, none, p⟩)] })

/-- The command at SEQ 0 has ended with this status. -/
def endedAs (st : Status) (t : State) : Bool := decide ((t.cmd 0 0).map (fun c => (c.stage, c.status)) = some (.ended, st))

/-- All 1,024 scoreboard entries reserved by contracts of instance 1; and a WAIT behind an older one of queue slot 1. -/
def crowded (s : State) : State :=
  { s with contracts := (List.range 1024).map (fun k => (k + 1, { inst := 1, req := ⟨1, 0, 1000, 500, 0, 300⟩ })) }
def queuing : State :=
  { live with cmds := [(0, six opWait semBody), (cmdKey 1 4, { six opWait semBody with slot := 1, seq := 4 })] }

theorem witness_stage_six :
    AtSix (holding (six opNop [])) 0 0 opNop (six opNop [])
    ∧ gives (.nop 0 0) (holding (six opNop [])) (fun t => endedAs St.ok t && decide ((tabGet t.fep.threads 4).map (·.work) =
        some (some (0, 0)))) = true
    ∧ idle (.nop 0 1) (behind { six opNop [] with fence := true }) = true
    ∧ gives (.barrier 0 0) (holding (six opBarrier [])) (endedAs St.ok) = true
    ∧ idle (.barrier 0 1) (behind (six opBarrier [])) = true
    ∧ gives (.signal 0 0) (semAt (holding (six opSignal semBody)) 4 none) (endedAs St.ok) = true
    ∧ gives (.signal 0 0) (semAt (holding (six opSignal semBody)) 5 none) (endedAs St.semNoChange) = true
    ∧ idle (.signal 0 1) (behind (six opSignal semBody)) = true
    ∧ gives (.wait 0 0) (semAt (holding (six opWait semBody)) 5 none) (endedAs St.ok) = true
    ∧ gives (.wait 0 0) (semAt (holding (six opWait semBody)) 4 (some 5)) (endedAs St.depAborted) = true
    ∧ gives (.wait 0 0) (semAt (holding (six opWait semBody)) 4 (some 4)) (fun t => decide ((t.cmd 0 0).map (·.inScoreboard) =
        some true ∧ (t.cmd 0 0).map (·.waitUntil) = some (some 99010000))) = true
    ∧ gives (.launchGraph 0 0) (holding (six opLaunch [])) (fun t => decide ((t.cmd 0 0).map (·.stage) = some .passed)) = true
    ∧ gives (.launchGraph 0 0) (semAt (holding { six opLaunch [] with waitSem := some (3, 5) }) 4 (some 5)) (endedAs St.depAborted) = true
    ∧ gives (.launchGraph 0 0) (semAt (holding { six opLaunch [] with waitSem := some (3, 5), inScoreboard := true }) 5 none)
        (fun t => decide ((t.cmd 0 0).map (·.stage) = some .passed ∧ (t.cmd 0 0).map (·.inScoreboard) = some false)) = true
    ∧ gives (.launchGraph 0 0) (semAt (holding { six opLaunch [] with waitSem := some (3, 5), inScoreboard := true }) 4 none)
        (fun t => decide (t.cmds = (holding { six opLaunch [] with waitSem := some (3, 5), inScoreboard := true }).cmds)) = true
    ∧ idle (.wait 0 1) (behind { six opWait semBody with fence := true }) = true
    ∧ gives (.wait 0 0) (crowded (holding (six opWait semBody))) (fun t => decide ((t.cmd 0 0).map (·.inScoreboard) = some false
        ∧ t.fep.sbFifo = [(0, 0)])) = true
    ∧ gives (.wait 0 0) { queuing with fep := { sbFifo := [(1, 4)] } } (fun t =>
        decide ((t.cmd 0 0).map (·.inScoreboard) = some false ∧ t.fep.sbFifo = [(1, 4), (0, 0)])) = true
    := by unfold AtSix; decide +kernel

/-- A WAIT at stage 6 for value 5 of semaphore 3. -/
def waitC : Cmd := { six opWait semBody with waitSem := some (3, 5) }

theorem witness_timeouts_and_queue :
    idle (.waitTimeout 0 0) (holding { waitC with waitUntil := some 100000001 }) = true
    ∧ gives (.waitTimeout 0 0) { holding { waitC with waitUntil := some 100000000 } with fep := { sbFifo := [(0, 0), (1, 4)] } }
        (fun t => endedAs St.waitTimeout t && decide (t.fep.sbFifo = [(1, 4)])) = true
    ∧ gives .scoreboardAdmit { holding waitC with fep := { sbFifo := [(0, 0), (1, 4)] } } (fun t =>
        decide ((t.cmd 0 0).map (·.inScoreboard) = some true ∧ t.fep.sbFifo = [(1, 4)])) = true
    ∧ idle .scoreboardAdmit live = true
    ∧ gives (.priorityQueueInsert 0 0) (holding { six opLaunch [] with stage := .passed }) (fun t =>
        decide ((t.cmd 0 0).map (·.stage) = some .queued ∧ (t.cmd 0 0).map (·.pqEntry) = some (some false)
          ∧ (t.cmd 0 0).map (·.key) = some 100000000)) = true
    ∧ gives (.priorityQueueInsert 0 0) { holding { six opLaunch [] with stage := .passed, contract := 4, cls := 0, key := 9 } with
          contracts := [(4, { inst := 0, req := ⟨1, 0, 1000, 500, 0, 300⟩ })] }
        (fun t => decide ((t.cmd 0 0).map (·.pqEntry) = some (some true) ∧ (t.cmd 0 0).map (·.key) = some 9)) = true
    ∧ gives (.priorityQueueInsert 0 0) { holding { six opLaunch [] with stage := .passed, contract := 4, cls := 0, key := 9 } with
          contracts := [(4, { inst := 0, req := ⟨1, 0, 1000, 500, 0, 300⟩, state := .suspended })] }
        (fun t => decide ((t.cmd 0 0).map (·.cls) = some 1 ∧ (t.cmd 0 0).map (·.key) = some 100000000)) = true
    := by decide +kernel

/-- HANDLE_BIND of entry 4095: RD alone, BASE 0x5000_0000, SIZE 64; HANDLE_FREE of entry 4095 under generation 0xF_FFFF. -/
def bindCmd : Cmd := six opHandleBind (leBytes 8 0x1FFF ++ leBytes 8 0x50000000 ++ leBytes 8 64)
def freeCmd : Cmd := six opHandleFree (leBytes 2 0x0FFF ++ leBytes 4 0xFFFFFFFF ++ leBytes 2 0)
def handle4095 (h : Handle) (s : State) : State := s.updInst 0 (fun i => { i with handles := [(4095, h)] })

theorem witness_handle_turns :
    HandleTurn (holding bindCmd) 0 0 opHandleBind bindCmd ∧ HandleTurn (holding freeCmd) 0 0 opHandleFree freeCmd
    ∧ gives (.handleBind 0 0) { holding bindCmd with fep := { hcache := [(4095, ⟨0, 0, 1, true, true, false⟩), (4094, ⟨0, 0, 1, true, true, false⟩)] } }
        (fun t => decide (t.fep.hcache.map (·.1) = [4094])) = true := by unfold HandleTurn; decide +kernel

theorem witness_handles :
    gives (.handleBind 0 0) (holding bindCmd) (fun t => decide (t.handle 0 4095 = ⟨0x50000000, 64, 1, true, false, true⟩
        ∧ (t.cmd 0 0).map (·.result) = some 0x1FFF)) = true
    ∧ gives (.handleBind 0 0) (handle4095 ⟨8, 8, 1, true, true, true⟩ (holding bindCmd)) (fun t =>
        endedAs St.handleBusy t && decide (t.handle 0 4095 = ⟨8, 8, 1, true, true, true⟩)) = true
    ∧ gives (.handleFree 0 0) (handle4095 ⟨8, 8, 0xFFFFF, true, true, true⟩ (holding freeCmd)) (fun t =>
        endedAs St.ok t && decide (t.handle 0 4095 = ⟨8, 8, 1, true, true, false⟩)) = true
    ∧ gives (.handleFree 0 0) (handle4095 ⟨8, 8, 0xFFFFE, true, true, true⟩ (holding freeCmd)) (endedAs St.handleStale) = true
    := by decide +kernel

/-- A COPY of 64 bytes and a FILL of 8 bytes with 0x0403_0201 on channel 0. -/
def copying (src dst : Nat) : Cmd :=
  { copyCmd with stage := .executing, accepted := true, gen := 1, chan := some 0, dvas := [src, dst] }
def filling (dst : Nat) : Cmd :=
  { cmdOf opFill (leBytes 4 0x1001 ++ leBytes 4 0x04030201 ++ leBytes 8 0 ++ leBytes 8 8) with
    stage := .executing, accepted := true, gen := 1, chan := some 0, dvas := [dst] }

/-- Translation off for instance 0 and no bypass: every DVA is unmapped. -/
def unmapped (s : State) : State := s.updInst 0 (fun i => { i with mmu := {} })

/-- A COPY from host memory, of which these bytes have come, or whose read ended with this status. -/
def copyingHost (bs : List Byte) (st : Option Status) : State :=
  { holding (copying (2 ^ 47) 0x60000000) with fep := { hostIn := [(512, bs)], readErr := (st.map (fun e => (512, e))).toList } }

theorem witness_on_channel :
    OnChannel (holding (copying 0x50000000 0x60000000)) 0 0 opCopy (copying 0x50000000 0x60000000) 0
    ∧ OnChannel (holding (filling 0x60000000)) 0 0 opFill (filling 0x60000000) 0
    ∧ OnChannel (copyingHost [] none) 0 0 opCopy (copying (2 ^ 47) 0x60000000) 0
    ∧ (∃ q, (holding (copying 0x50000000 0x60000000)).queue 0 = some q ∧ q.guilty = none ∧ q.guiltSaid = false
        ∧ q.resetDone = false ∧ q.abortLatched = false) := by
  unfold OnChannel
  refine ⟨?_, ?_, ?_, ringQueue, ?_⟩ <;> decide +kernel

theorem witness_copy_from_host :
    idle (.copy 0 0) (copyingHost (List.replicate 63 4) none) = true
    ∧ gives (.copy 0 0) (copyingHost (List.replicate 64 4) none) (fun t =>
        endedAs St.ok t && decide (t.readPrivN 0x6000003F 2 = [4, 0] ∧ t.fep.hostIn = [])) = true
    ∧ gives (.copy 0 0) (copyingHost [] (some St.hostXlate)) (fun t => decide ((t.queue 0).map (·.guilty) = some (some (0, St.hostXlate)))) = true
    ∧ gives (.copy 0 0) (copyingHost [] (some St.hostLinkDown)) (endedAs St.hostLinkDown) = true := by decide +kernel

theorem witness_copy_and_fill :
    gives (.copy 0 0) ((holding (copying 0x50000000 0x60000000)).writePriv 0x50000038 [1, 2, 3, 4, 5, 6, 7, 8, 9]) (fun t =>
        endedAs St.ok t && decide (t.readPrivN 0x60000038 9 = [1, 2, 3, 4, 5, 6, 7, 8, 0] ∧ (t.cmd 0 0).map (·.chan) = some none)) = true
    ∧ overlap 0x50000000 0x5000003F 64 = true ∧ overlap 0x50000000 0x50000040 64 = false
    ∧ gives (.copy 0 0) (holding (copying 0x50000000 0x5000003F)) (endedAs St.ok) = true
    ∧ idle (.copy 0 0) (holding (copying (2 ^ 47) 0x60000000)) = true
    ∧ gives (.copy 0 0) (unmapped (holding (copying 0x50000000 0x60000000)))
        (fun t => decide ((t.queue 0).map (·.guilty) = some (some (0, St.dvaUnmapped)) ∧ (t.queue 0).map (·.guiltRound) = some 1)) = true
    ∧ gives (.fill 0 0) (holding (filling 0x60000000)) (fun t =>
        endedAs St.ok t && decide (t.readPrivN 0x5FFFFFFF 10 = [0, 1, 2, 3, 4, 1, 2, 3, 4, 0])) = true
    ∧ gives (.fill 0 0) (unmapped (holding (filling 0x60000000)))
        (fun t => decide ((t.queue 0).map (·.guilty) = some (some (0, St.dvaUnmapped)) ∧ (t.queue 0).map (·.guiltRound) = some 1)) = true := by decide +kernel

/-- A relocated PATCH of 4 bytes at offset 252 of graph 1's one region page. -/
def patching : Cmd :=
  { cmdOf opPatch (leBytes 2 1 ++ List.replicate 14 0 ++ leBytes 4 252 ++ leBytes 4 4) with stage := .relocated, dvas := [0x50000000] }

/-- Graph 1 with its region on store page 0, as another command builds on it or none does. -/
def onPage0 (b : Option (Nat × Nat)) (s : State) : State :=
  { s.updInst 0 (fun i => { i with graphs := [(1, { graphOf fixed0 with versions := [⟨1, [0]⟩], builder := b })] }) with
    pages := [(0, List.replicate 256 5)] }

theorem witness_patch :
    gives (.patch 0 0) ((onPage0 none (holding patching)).writePriv 0x50000000 [1, 2, 3, 4]) (fun t =>
        decide ((t.cmd 0 0).map (·.built) = some (some [1]) ∧ (t.graph 0 1).map (·.builder) = some (some (0, 0))
          ∧ tabGet t.pages 1 = some (List.replicate 252 5 ++ [1, 2, 3, 4]) ∧ tabGet t.pages 0 = some (List.replicate 256 5))) = true
    ∧ gives (.patch 0 0) ((onPage0 none (holding patching)).updInst 0 (fun i => { i with limits := { i.limits with storeKiB := 0 } }))
        (endedAs St.graphStoreFull) = true
    ∧ gives (.patch 0 0) (onPage0 (some (0, 0)) { holding { patching with chan := some 2, dvas := [2 ^ 47] } with
          fep := { readErr := [(514, St.hostLinkDown)] } }) (endedAs St.hostLinkDown) = true
    ∧ idle (.patch 0 0) (onPage0 (some (0, 0)) (holding { patching with chan := some 2, dvas := [2 ^ 47] })) = true
    ∧ gives (.patch 0 0) (unmapped (onPage0 (some (0, 0)) (holding { patching with chan := some 2 })))
        (fun t => decide ((t.queue 0).map (·.guilty) = some (some (0, St.dvaUnmapped)))) = true
    ∧ gives (.patch 0 0) (onPage0 (some (3, 3)) (holding patching)) (fun t =>
        decide ((t.graph 0 1).map (·.waiters) = some [(0, 0)])) = true := by decide +kernel

/-- An ended command of generation `g`, its reservation held; and one whose record is in flight. -/
def ended (g : BitVec 16) : Cmd := { six opNop [] with stage := .ended, gen := g, resv := 1 }
def written (f : Cmd → Cmd) : Cmd :=
  f { six opNop [] with stage := .writing, inFlight := some (0x30010000, List.replicate 32 9) }

theorem witness_completion_records :
    gives (.completionRecordWrite 0 0) (holding (ended 1)) (fun t => decide ((t.queue 0).map (·.cpl) = some 1
        ∧ (t.cmd 0 0).map (·.stage) = some .writing ∧ ((t.cmd 0 0).bind (·.inFlight)).map (·.1) = some 0x30010000)) = true
    ∧ gives (.completionRecordWrite 0 0) (holding { ended 1 with replicas := [rep 0 0 0, rep 1 0 1], resv := 16 }) (fun t =>
        decide ((t.cmd 0 0).map (·.stage) = some .ended)) = true
    ∧ gives (.completionRecordWrite 0 0) (holding (ended 2)) (fun t => decide (t.cmd 0 0 = none ∧ (t.inst 0).stale = 1)) = true
    ∧ gives (.completionRecordWrite 0 0) ((holding (ended 1)).updQueue 0 (fun q => { q with stopCause := 3 }))
        (fun t => decide (t.cmd 0 0 = none ∧ (t.queue 0).map (·.cpl) = some 0)) = true := by decide +kernel

/-- Vector 3 of PF0 unmasked, and queue slot 0 with a message for every command. -/
def chatty (s : State) : State :=
  (s.updFunc 0 (fun f => { f with vectors := [(3, { addr := 0x2000, masked := false })] })).updQueue 0
    (fun q => { q with desc := { q.desc with irqPolicy := 1 } })

theorem witness_record_acks :
    gives (.recordAck 0 0 0) (chatty (holding (written id))) (fun t => decide (t.cmd 0 0 = none
        ∧ t.readPrivN 0x30010000 33 = List.replicate 32 9 ++ [0] ∧ t.link.posted = [.msix 0 3 0x2000 0])) = true
    ∧ gives (.recordAck 0 0 0) (holding (written (fun c => { c with stage := .ended }))) (fun t =>
        decide ((t.cmd 0 0).map (·.recordsDone) = some 1 ∧ (t.cmd 0 0).map (·.inFlight) = some none)) = true
    ∧ gives (.recordAck 0 0 0) (holding (written (fun c => { c with sigSem := some (3, 9) }))) (fun t =>
        decide ((t.sem 0 3).value = 9)) = true
    ∧ gives (.recordAck 0 0 0x6004) (holding (written id)) (fun t =>
        decide ((t.queue 0).map (·.stopCause) = some 3 ∧ t.cmd 0 0 = none)) = true := by decide +kernel

/-- Queue slot 0 guilty at SEQ 5, its guilt round ended. -/
def guilty (s : State) : State :=
  s.updQueue 0 (fun q => { q with guilty := some (5, St.gloveMismatch), guiltRound := 3 })

/-- SEM_SET of semaphore 3 of instance 1 to 5, waiting in the service port ring. -/
def ringing (out : Option (Status × List Byte)) : SvcReq :=
  { code := kSemSet.code, mb := 1, hdr := { msg := kSemSet.code, cells := 1, seq := 9, target := 0, len := 16, cookie := 0 }
    payload := leBytes 2 3 ++ [1] ++ List.replicate 5 0 ++ leBytes 8 5, out := out }

theorem witness_queue_timers :
    gives (.irqHoldoffExpiry 0) (chatty (live.updQueue 0 (fun q => { q with irqHeld := true, holdoffUntil := 100000000 })))
        (fun t => decide (t.link.posted = [.msix 0 3 0x2000 0] ∧ (t.queue 0).map (·.irqHeld) = some false)) = true
    ∧ idle (.irqHoldoffExpiry 0) (live.updQueue 0 (fun q => { q with irqHeld := true, holdoffUntil := 100000001 })) = true
    ∧ gives (.progressTimeout 0 0) { holding { six opFill [] with progFrom := some 0 } with clk := { devtime := 2000000000 } }
        (fun t => decide ((t.queue 0).map (·.guilty) = some (some (0, St.progressTimeout)))) = true
    ∧ idle (.progressTimeout 0 0) { holding { six opFill [] with progFrom := some 0 } with clk := { devtime := 1999999999 } } = true
    ∧ gives (.resetRecord 0 0) (guilty live) (fun t => decide ((t.queue 0).map (·.cpl) = some 1
        ∧ (t.queue 0).map (·.resetDone) = some true ∧ (t.queue 0).map (·.stopCause) = some 1
        ∧ (t.queue 0).map (·.guiltSaid) = some true ∧ leNat (t.readPrivN 0x30010000 32) ≠ 0)) = true
    ∧ gives (.resetRecord 0 0x6004) (guilty live) (fun t => decide ((t.queue 0).map (·.stopCause) = some 3
        ∧ (t.queue 0).map (·.resetDone) = some true)) = true
    ∧ gives (.statusWriteBack 0 0x6004) (live.updQueue 0 (fun q => { q with wbPending := true }))
        (fun t => decide ((t.queue 0).map (·.stopCause) = some 3)) = true
    ∧ idle (.resetRecord 0 0) ((guilty live).updQueue 0 (fun q => { q with resetDone := true })) = true
    ∧ gives (.statusWriteBack 0 0) (live.updQueue 0 (fun q => { q with wbPending := true, wbAt := some 99999000, cpl := 3, read := 2 }))
        (fun t => decide (t.readPrivN 0x30020000 9 = [2, 0, 0, 0, 3, 0, 0, 0, 1] ∧ (t.queue 0).map (·.wbPending) = some false)) = true
    ∧ idle (.statusWriteBack 0 0) (live.updQueue 0 (fun q => { q with wbPending := true, wbAt := some 99999001 })) = true
    ∧ gives .serviceRequest { live with fep := { service := [ringing none], serviceDone := 7 } } (fun t =>
        decide (t.fep.service = [] ∧ t.fep.serviceDone = 8 ∧ (t.sem 1 3).value = 5)) = true
    ∧ idle .serviceRequest { live with fep := { service := [ringing (some (0, []))], serviceDone := 7 } } = true := by decide +kernel
-- The scan, tiles and partitions ---------------------------------------------------------------------------------------------------

/-- A launch of graph 1, role 0, in the priority queue, and the same with one replica at work on P0. -/
def queuedLaunch : Cmd :=
  { launchCmd with stage := .queued, accepted := true, gen := 1, version := 1, pqEntry := some false, cls := 1 }
def atWork (f : Replica → Replica) : Cmd := { queuedLaunch with stage := .executing, pqEntry := none, replicas := [f (rep 0 0 0)] }

/-- Role 0 of instance 0 bound to P0 alone, SPREAD. -/
def boundRole (s : State) : State := withGraph (s.updInst 0 (fun i => { i with bind := [(0, 0x80001)] }))

/-- P0 running the launch; `f` changes the replica, `g` the partition. -/
def onP0 (f : Replica → Replica) (g : Part → Part) : State :=
  (boundRole (holding (atWork f))).updPart 0 (fun p => g { p with state := .busy, run := some (0, 0, 0) })

def item (k o : Nat) (c : Nat) : Item := ⟨0, { queuedLaunch with key := k, order := o, cls := c }, 0⟩

theorem witness_scan :
    itemBefore (item 9 9 0) (item 1 1 1) = true ∧ itemBefore (item 1 9 1) (item 2 1 1) = true
    ∧ itemBefore (item 1 1 1) (item 1 2 1) = true
    ∧ gives .scan live (fun t => decide (t.cmds = [])) = true
    ∧ idle .scan { live with fep := { halted := true } } = true
    ∧ gives .scan (holding { six opFill [] with stage := .queued, pqEntry := some false }) (fun t =>
        decide ((t.cmd 0 0).map (·.chan) = some (some 0) ∧ (t.cmd 0 0).map (·.stage) = some .executing)) = true
    ∧ gives .scan (withGraph (holding queuedLaunch)) (endedAs St.unitWithdrawn) = true
    ∧ (boundRole (holding queuedLaunch)).candidates queuedLaunch 0 = [⟨0, 0, 0, 0⟩]
    ∧ (boundRole (holding queuedLaunch)).items = [⟨0, queuedLaunch, 0⟩]
    ∧ (boundRole (holding queuedLaunch)).memberFree [] queuedLaunch ⟨0, 0, 0, 0⟩ = true
    ∧ gives .scan (boundRole (holding queuedLaunch)) (fun t => decide ((t.part 0).run = some (0, 0, 0)
        ∧ (t.part 0).state = .busy ∧ reps t = [{ rep 0 0 0 with state := .granted }])) = true := by decide +kernel

/-- P0 with its first tile dispatched to it and these words in its sequencer store. -/
def dispatched (l : Tab (BitVec 117)) : State := onP0 id (fun p => { p with next := some 0, seq := l })

/-- The same with two resident bytes to load, 5 each, and this residency tag. -/
def heavy (tag : Option ResTag) : State :=
  let g := { graphOf { fixed0 with variants := [{ variant0 with resMember := 2 }] } with versions := [⟨1, [0]⟩] }
  ({ dispatched [(0, storedWord 0)] with pages := [(0, List.replicate 256 5)] }.updInst 0 (fun i => { i with graphs := [(1, g)] })).updPart 0
    (fun p => { p with residency := tag })

theorem witness_grants :
    gives (.grantAck 0) (onP0 (fun r => { r with state := .granted }) id) (fun t => decide ((t.part 0).acked = true ∧ reps t = [rep 0 0 0])) = true
    ∧ gives (.grantAck 0) (onP0 (fun r => { r with state := .granted, shape := 1 }) id)
        (fun t => decide ((t.part 0).acked = true ∧ reps t = [{ rep 0 0 0 with state := .granted, shape := 1 }])) = true
    ∧ gives (.grantAck 0) (onP0 (fun r => { r with state := .granted }) (fun p => { p with state := .gated })) (fun t =>
        decide (reps t = [{ rep 0 0 0 with state := .ended, status := St.unitWithdrawn }] ∧ (t.cmd 0 0).map (·.stage) = some .ended)) = true
    ∧ gives (.fusionChangeComplete 0) { live with clusters := [(0, { changing := some 4 })] } (fun t =>
        decide ((t.cluster 0).shape = 4 ∧ (t.cluster 0).changing = none)) = true
    ∧ idle (.fusionChangeComplete 3) live = true
    ∧ gives (.currentGrantRequest 0) (dispatched [(0, storedWord 0)]) (fun t => decide ((t.part 0).grant = some 1 ∧ (t.part 0).tileRunning = true)) = true
    ∧ idle (.currentGrantRequest 1) live = true := by decide +kernel

/-- One array pass whose sum of 0x7FFF_FFFF, as it comes in, and 1 × 1 saturates. -/
def saturating : List TileOp := [.pass (.int8 true true) 1 (some 4096) 0 0 8192]

/-- P0 in that tile, its SATURATED counter full but for one. -/
def sated : State := (onP0 id (fun p => { p with tileRunning := true, grant := some 1, satCount := 0xFFFFFFFE })).updPart 0 (fun p =>
  { p with weight := [(0, 1)], act := [(0, 1), (4096, 0xFF), (4097, 0xFF), (4098, 0xFF), (4099, 0x7F)] })

/-- A pair's replica of the launch on P0 and P1, P1 acknowledged and granted current or not. -/
def onPair (st : RepState) (other : Part → Part) : State :=
  let s := boundRole (holding (atWork (fun r => { r with state := st, shape := 1 })))
  let g := graphOf { fixed0 with variants := [{ variant0 with shape := 1, tiles := [{ tile0 with shape := 1 }] }] }
  (({ s with clusters := [(0, { shape := 3 })] }.updInst 0 (fun i => { i with graphs := [(1, g)] })).updPart 0 (fun p =>
      { p with state := .busy, run := some (0, 0, 0), next := some 0, seq := [(0, storedWord 0)] })).updPart 1 (fun p =>
    other { p with state := .busy, run := some (0, 0, 0), seq := [(0, storedWord 0)] })

/-- The relay's two roles granted, P1 acknowledged; and one whose roles run, its tables as `f` gives them. -/
def relayGranted : State :=
  { relaying with cmds := [(0, { relayCmd with replicas := relayCmd.replicas.map (fun r => { r with state := .granted }) })] }
def relayAt (f : Replica → Replica) : State :=
  { relaying with cmds := [(0, { relayCmd with replicas := relayCmd.replicas.map f })] }

theorem witness_group_grants :
    gives (.grantAck 0) (onPair .granted id) (fun t => decide ((t.part 0).acked = true
        ∧ (reps t).map (·.state) = [.granted])) = true
    ∧ gives (.grantAck 0) relayGranted (fun t => decide ((t.part 0).acked = true ∧ (reps t).map (·.state) = [.granted, .granted])) = true
    ∧ gives (.currentGrantRequest 0) (onPair .running (fun p => { p with grant := some 1 })) (fun t => decide ((t.part 0).tileRunning = true
        ∧ (t.part 1).tileRunning = true)) = true
    ∧ gives (.currentGrantRequest 0) (onPair .running id) (fun t => decide ((t.part 0).grant = some 1
        ∧ (t.part 0).tileRunning = false ∧ (t.part 0).residency = some ⟨0, 1, 1, 0, 0⟩)) = true
    ∧ gives (.currentGrantRequest 0) (dispatched [(0, storedWord 0 ^^^ 1)]) (fun t => decide ((t.part 0).state = .offline
        ∧ (t.part 0).faultPending = true ∧ (t.part 0).grant = none)) = true
    ∧ gives (.currentGrantRequest 0) (heavy none) (fun t => decide ((t.part 0).readSram .weight 0 4 = [5, 5, 0, 0]
        ∧ (t.part 0).residency = some ⟨0, 1, 1, 0, 0⟩)) = true
    ∧ gives (.currentGrantRequest 0) (heavy (some ⟨0, 1, 1, 0, 0⟩)) (fun t => decide ((t.part 0).weight = [])) = true
    ∧ idle (.currentGrantRequest 0) (onP0 id (fun p => { p with next := some 1, seq := [(0, storedWord 0)] })) = true
    := by decide +kernel

theorem witness_tiles :
    gives (.tileEnd 0 saturating) sated (fun t =>
        decide ((t.part 0).grant = none ∧ (t.part 0).tileRunning = false ∧ (t.part 0).satCount = 0xFFFFFFFF
          ∧ reps t = [{ rep 0 0 0 with tile := 1, saturated := true }]
          ∧ (t.part 0).readSram .act 8192 4 = [0xFF, 0xFF, 0xFF, 0x7F])) = true
    ∧ gives (.tileOverrun 0) (onP0 id (fun p => { p with tileRunning := true })) (fun t => decide ((t.part 0).overruns = 1)) = true
    ∧ gives (.tileOverrun 0) { onP0 id (fun p => { p with tileRunning := true }) with
          cmds := [(0, { atWork id with contract := 4, cls := 0 })]
          contracts := [(4, { inst := 0, req := ⟨1, 0, 1000, 500, 0, 300⟩ })] }
        (fun t => decide ((tabGet t.contracts 4).map (fun k => (k.state, k.reason)) = some (.atRisk, 5))) = true
    ∧ idle (.tileEnd 0 [.take 0]) sated = true
    ∧ idle (.tileOverrun 0) (onP0 id id) = true
    ∧ gives (.tileStartReport 0) (onP0 id (fun p => { p with tileRunning := true, preempt := some 300 }))
        (fun t => decide ((t.part 0).honour = true ∧ (t.part 0).next = some 1)) = true
    ∧ gives (.preempt 0) (onP0 id (fun p => { p with preempt := some 300 })) (fun t => decide ((t.part 0).honour = true)) = true
    ∧ idle (.preempt 0) (onP0 id id) = true := by decide +kernel

/-- Graph 1 whose one tile keeps a live set of 4 KiB, and P0 at its boundary with two bytes of activations. -/
def liveKeeping : State :=
  let g := graphOf { fixed0 with variants := [{ variant0 with tiles := [{ tile0 with live := 1 }] }] }
  ((onP0 (fun r => { r with tile := 1 }) (fun p => { p with honour := true })).updInst 0 (fun i => { i with graphs := [(1, g)] })).updPart 0
    (fun p => { p with act := [(0, 3), (4095, 4), (4096, 5)] })

theorem witness_saves_and_ends :
    gives (.saveReport 0) (onP0 (fun r => { r with tile := 1 }) (fun p => { p with honour := true })) (fun t =>
        decide ((t.part 0).resume = some ⟨0, 0, 0⟩ ∧ (t.part 0).run = none ∧ reps t = [{ rep 0 0 0 with tile := 1, state := .saved }])) = true
    ∧ liveKeeping.liveBytes (atWork (fun r => { r with tile := 1 })) { rep 0 0 0 with tile := 1 } = 4096
    ∧ idle (.saveReport 0) (onP0 id id) = true
    ∧ gives (.endReport 0) (onP0 (fun r => { r with tile := 1 }) id) (fun t => decide ((t.part 0).run = none
        ∧ (t.part 0).state = .idle ∧ (t.cmd 0 0).map (·.stage) = some .ended)) = true
    ∧ idle (.endReport 0) (onP0 id id) = true
    ∧ idle (.endReport 0) { onP0 (fun r => { r with tile := 1 }) id with
          net := { live.net with reqs := [(1023, { outReq false with sentAt := 0 })] } } = true
    ∧ gives (.endReport 0) (relayAt (fun r => { r with tile := 1, outFinal := [0] })) (fun t => decide ((reps t).map (·.done) = [true, false])) = true
    ∧ gives (.endReport 0) (relayAt (fun r => { r with tile := 1 })) (fun t => decide ((reps t).map (·.done) = [false, false])) = true
    := by decide +kernel

theorem witness_machine_checks :
    gives (.machineCheck 0 4 77) live (fun t => decide ((t.part 0).state = .offline ∧ (t.part 0).mcCause = 4
        ∧ (t.part 0).mcAddr = 77 ∧ (t.part 0).mcCount = 1 ∧ (t.part 0).faultPending = true)) = true
    ∧ gives (.machineCheck 0 1 0x407) (live.updPart 0 (fun p => { p with lastParity := some 7 }))
        (fun t => decide ((t.part 0).mcCause = 5)) = true
    ∧ idle (.machineCheck 0 5 0) live = true ∧ idle (.machineCheck 3 1 0) live = true
    ∧ gives (.mcheckReport 0) (live.updPart 0 (fun p => { p with state := .offline, mcCause := 2, faultPending := true }))
        (fun t => decide (t = (live.updPart 0 (fun p => { p with state := .offline, mcCause := 2, faultPending := true })).memberLost
          0 2 St.partMcheck)) = true
    ∧ gives (.machineCheck 0 2 5) (onPair .running (fun p => { p with grant := some 1, tileRunning := true })) (fun t => decide
        ((t.part 1).grant = none ∧ (t.part 1).tileRunning = false ∧ (t.part 1).state = .busy ∧ (t.part 0).state = .offline)) = true
    ∧ gives (.mcheckReport 0) { live.updPart 0 (fun p => { p with state := .offline, faultPending := true }) with
          net := { live.net with reqs := [(0, outReq false)] } } (fun t => decide ((t.part 0).faultPending = true)) = true
    := by decide +kernel

-- Aborts and freezes ----------------------------------------------------------------------------------------------------------------

/-- An abort of queue 0 of instance 0 latched, waiting for a round or taken up by one. -/
def aborting (joined : Bool) (q : Option Nat) : State :=
  let s := holding (six opNop [])
  { s with abrt := { roundOn := joined, reqs := [{ inst := 0, qid := q, by_ := 0, at_ := 0, joined := joined }] } }

theorem witness_drain_rounds :
    gives .drainRoundStart (aborting false (some 0)) (fun t => decide (t.abrt.roundOn = true
        ∧ t.abrt.reqs.map (·.joined) = [true] ∧ (t.cmd 0 0).map (·.cancelled) = some true)) = true
    ∧ gives .drainRoundStart (live.updQueue 0 (fun q => { q with guilty := some (5, 1), stopCause := 1, guiltRound := 1 }))
        (fun t => decide ((t.queue 0).map (·.guiltRound) = some 2)) = true
    ∧ idle .drainRoundStart live = true ∧ idle .drainRoundEnd live = true
    ∧ gives .drainRoundEnd (aborting true (some 0)) (fun t => decide (t.abrt.roundOn = false ∧ t.abrt.rounds = 1
        ∧ t.abrt.reqs = [] ∧ (t.queue 0).map (·.stopCause) = some 2 ∧ (t.inst 0).doneCount = 1)) = true
    ∧ gives .drainRoundEnd { aborting true none with
          abrt := { (aborting true none).abrt with entries := [⟨0, 0, true, true, 0, 0⟩] }
          net := { live.net with reqs := [(tagKey 19 0, outReq false)] } } (fun t => decide ((t.inst 0).state = .aborted
        ∧ (t.inst 0).lastAll = true ∧ t.net.reqs = [])) = true := by decide +kernel

/-- Instance 0 FREEZING until a time, its freeze sent under HALT_ALL or not. -/
def freezing (u : Nat) (h : Bool) : State :=
  live.updInst 0 (fun i => { i with state := .freezing, freezeUntil := u, haltFreeze := h })

theorem witness_freezes :
    gives (.freezeComplete 0) (freezing 200000000 false) (fun t => decide ((t.inst 0).state = .frozen
        ∧ (t.inst 0).frozenAt = 100000000 ∧ (t.queue 0).map (·.heldFrozen) = some true)) = true
    ∧ idle (.freezeComplete 0) { freezing 200000000 false with cmds := [(0, { six opFill [] with chan := some 0, stage := .executing })] } = true
    ∧ idle (.freezeComplete 1) live = true ∧ idle (.freezeTimeout 1) live = true
    ∧ idle (.freezeTimeout 0) (freezing 100000001 false) = true
    ∧ gives (.freezeTimeout 0) (freezing 100000000 false) (fun t => decide ((t.inst 0).state = .active)) = true
    ∧ gives (.freezeTimeout 0) { freezing 100000000 true with mgc := { live.mgc with orphan := true } }
        (fun t => decide ((t.inst 0).state = .freezing ∧ (t.inst 0).freezeUntil = 10100000000)) = true := by decide +kernel

-- The management core -----------------------------------------------------------------------------------------------------------------

theorem witness_host_loss_and_core_faults :
    gives .hostLossExpiry { live with mgc := { live.mgc with beatBase := 0 }, clk := { devtime := live.setting 0x2100 1 * 1000000 } }
        (fun t => decide (t.mgc.orphan = true ∧ t.mgc.armed = false ∧ (t.queue 0).map (·.heldOrphan) = some true)) = true
    ∧ idle .hostLossExpiry live = true
    ∧ gives .mgcWatchdog live (fun t => decide (t.mgc.fw = .restarting ∧ t.mgc.lastCause = 2 ∧ t.mgc.restarts = 1)) = true
    ∧ gives .mgcWatchdog { live with rst := { map := [(8, 1)] } } (fun t => decide (t.rst.acting = [⟨8, 100000000, 2⟩])) = true
    ∧ pushOk 32 0 32 = true ∧ pushOk 32 8 64 = false ∧ pushOk 40 0 32 = false ∧ pushOk 36 0 64 = false
    ∧ gives (.stackingFault 36) { live with mgc := { live.mgc with stkLo := 0, stkHi := 64 } } (fun t =>
        decide (t.mgc.lastCause = 1 ∧ t.mgc.shadowBank = some (1, 36))) = true
    ∧ idle (.stackingFault 32) { live with mgc := { live.mgc with stkLo := 0, stkHi := 32 } } = true
    ∧ gives .coreFault live (fun t => decide (t.mgc.lastCause = 4 ∧ t.mgc.shadowBank = some (4, 0))) = true := by decide +kernel

/-- A 4 KiB image with a good header, loaded whole: the magic, the length and the entry point. -/
def loaded (len : BitVec 32) : State :=
  { live with mgc := { live.mgc with
      fw := .verify
      loadLen := len
      sram := [(0, 0x50), (1, 0x4F), (2, 0x43), (3, 0x54), (9, 0x10)] } }

/-- A first start: Topcoat has not run and instance 0 is not there. -/
def firstStart : State :=
  { loaded 4096 with
    mgc := { (loaded 4096).mgc with started := false }
    insts := [] }

/-- The good image passes every check but those of its key and its signature, which only a part's fuses can answer. -/
theorem witness_fw_verify :
    gives .fwVerifyDone (loaded 4095) (fun t => decide (t.mgc.fw = .loadFailed ∧ t.mgc.loadResult = 3 ∧ t.mgc.sram = [])) = true
    ∧ gives .fwVerifyDone { loaded 4096 with mgc := { (loaded 4096).mgc with sram := [] } }
        (fun t => decide (t.mgc.fw = .loadFailed ∧ t.mgc.loadResult = 2)) = true
    ∧ idle .fwVerifyDone live = true ∧ idle .mgcRestartComplete live = true := by decide +kernel

theorem witness_good_image (hk : keyOk (loaded 4096).image = true) (hs : sigOk (loaded 4096).image 4096 = true) :
    imageFault (loaded 4096).image (loaded 4096).mgc.loadLen.toNat = 0 ∧ firstStart.mgc.started = false := by
  have h2 : field (loaded 4096).image 8 4 = 4096 := by decide +kernel
  have h3 : (loaded 4096).mgc.loadLen.toNat = 4096 := by decide +kernel
  refine ⟨?_, rfl⟩
  unfold imageFault
  rw [h2, h3, hk, hs]
  decide +kernel

/-- The core in a restart whose SRAM has the digest recorded at its load. -/
def restarting (l : List Nat) : State :=
  { live with mgc := { live.mgc with fw := .restarting, restartAt := 100000000, restartTimes := l, digest := live.sramDigest } }

theorem witness_restart :
    (restarting [100000000]).mgc.fw = .restarting ∧ (restarting [100000000]).bus.held = []
    ∧ (restarting [100000000]).mgc.digest = (restarting [100000000]).sramDigest
    ∧ (restarting [100000000]).thirdRestart = false ∧ (restarting [0, 1, 100000000]).thirdRestart = true :=
  ⟨rfl, rfl, rfl, by decide +kernel, by decide +kernel⟩

-- Mailbox messages -----------------------------------------------------------------------------------------------------------------------

/-- The header of a request of this kind, one cell or two, for a target. -/
def ask (k : MsgKind) (target : Nat) : MsgHdr :=
  { msg := k.code, cells := if k.size.getD 0 ≤ 32 then 1 else 2, seq := 9, target := target, len := k.size.getD 0, cookie := 0 }

/-- `Accepted` as a decision. -/
def acceptedB (s : State) (mb : Nat) (h : MsgHdr) (p : List Byte) (k : MsgKind) : Bool :=
  decide (h.msg = k.code) && s.takesRequest mb h && decide (msgFault k mb (s.inst mb).box.format h p = none)

theorem acceptedB_accepted {s : State} {mb : Nat} {h : MsgHdr} {p : List Byte} {k : MsgKind}
    (w : acceptedB s mb h p k = true) : Accepted s mb h p k := by
  simp only [acceptedB, Bool.and_eq_true, decide_eq_true_eq] at w
  exact ⟨w.1.1, w.1.2, w.2⟩

/-- A field of the reply in the first cell of a mailbox's reply ring, which stands at 0x040 of its outbound page. -/
def replyField (t : State) (mb off n : Nat) : Nat :=
  leNat ((List.range n).map (fun k => tabGetD (t.inst mb).box.outPage (0x40 + off + k) 0))

/-- Mailbox `mb` holds a reply with this status in bytes 7:6 of its header. -/
def replied (mb : Nat) (st : Status) (t : State) : Bool :=
  decide ((t.inst mb).box.outProd ≠ 0) && decide (replyField t mb 6 2 = st.toNat)

/-- The command was taken and answered with this status. -/
def answers (c : Instr) (s : State) (mb : Nat) (st : Status) : Bool := gives c s (replied mb st)

/-- The request passes the checks of R245. -/
def accepts (s : State) (mb : Nat) (k : MsgKind) (n : Nat) (p : List Byte) : Bool := acceptedB s mb (ask k n) p k

theorem witness_requests :
    accepts live 1 kNop 0 [] = true
    ∧ gives (.nopMessage 1 (ask kNop 0) []) live (fun t => decide ((t.inst 1).box.inCons = 1 ∧ (t.inst 1).box.outProd = 1
        ∧ replyField t 1 0 2 = 1 ∧ replyField t 1 4 2 = 9 ∧ replyField t 1 24 8 = 100000000 ∧ (t.vector 1 1).pending = true)) = true
    ∧ idle (.nopMessage 1 (ask kNop 0) []) (with1 (fun i => { i with box := { i.box with inProd := 0 } })) = true
    ∧ answers (.undefinedMessage 1 { ask kNop 0 with msg := 0x7777 } []) live 1 St.badMessage = true
    ∧ idle (.undefinedMessage 2 { ask kNop 0 with msg := 0x7777 } []) live = true
    ∧ answers (.attach 1 (ask kAttach 0) (List.replicate 8 0)) live 1 St.notManager = true
    ∧ gives (.contractQuery 1 (ask kContractQuery 0) [0, 0]) (with1 (fun i => { i with box := { i.box with format := 1 } }))
        (fun t => decide (replyField t 1 4 2 = St.badFormat.toNat)) = true
    ∧ answers (.graphRegister 0 (ask kGraphRegister 2) (List.replicate 20 0) []) live 0 St.badInstance = true
    ∧ accepts (withGraph live) 0 kGraphQuery 0 [1, 0] = true
    ∧ gives (.graphQuery 0 (ask kGraphQuery 0) [1, 0]) (withGraph live)
        (fun t => replied 0 St.ok t && decide (replyField t 0 32 3 = 0x10001)) = true
    ∧ live.portOpen = true
    ∧ gives (.queueReset 0 (ask kQueueReset 0) [0]) { live with fep := { halted := true } }
        (fun t => decide (t.fep.service.map (·.code) = [kQueueReset.code] ∧ t.fep.serviceBell = 1 ∧ (t.inst 0).box.inCons = 1)) = true
    ∧ idle (.queueReset 0 (ask kQueueReset 0) [0]) { live with fep := { halted := true, service := List.replicate 64 (ringing none) } } = true
    ∧ answers (.graphQuery 1 (ask kGraphQuery 0) [1, 0]) live 1 St.badGraph = true
    ∧ gives (.contractQuery 0 (ask kContractQuery 0) [4, 0])
        { live with contracts := [(4, { inst := 0, req := ⟨1, 0, 1, 1, 0, 300⟩, state := .atRisk, reason := 5 })] }
        (fun t => replied 0 St.ok t && decide (replyField t 0 32 2 = 0x501)) = true
    ∧ answers (.contractQuery 0 (ask kContractQuery 0) [4, 0]) live 0 St.contractUnknown = true
    ∧ gives (.instanceInfo 1 (ask kInstanceInfo 0) []) live
        (fun t => replied 1 St.ok t && decide (replyField t 1 32 4 = 0x10101)) = true := by decide +kernel

/-- A good descriptor of queue 1, and a SEM_SET of semaphore 3 with these FLAGS and the value 77. -/
def desc1 : List Byte := descBytes { ringDesc with qid := 1 }
def semSetOf (flags : Nat) : List Byte := leBytes 2 3 ++ leBytes 6 flags ++ leBytes 8 77 ++ leBytes 8 0x50000000

theorem witness_queue_messages :
    accepts live 0 kQueueCreate 0 desc1 = true ∧ descOk 0 (parseDesc desc1) = true ∧ descReservedOk desc1 = true
    ∧ accepts live 0 kQueueDestroy 0 [0] = true ∧ accepts live 0 kQueueReset 0 [0] = true
    ∧ accepts live 0 kSemSet 0 (semSetOf 1) = true
    ∧ accepts (live.updInst 0 (fun i => { i with state := .frozen })) 0 kSemSet 0 (semSetOf 1) = true
    ∧ answers (.semSet 0 (ask kSemSet 0) (semSetOf 1)) (live.updInst 0 (fun i => { i with state := .frozen })) 0 St.instanceState = true
    ∧ gives (.queueCreate 0 (ask kQueueCreate 0) desc1) live (fun t => replied 0 St.ok t
        && decide ((t.queue 1).map (·.desc) = some { ringDesc with qid := 1 } ∧ replyField t 0 32 2 = 1)) = true
    ∧ answers (.queueCreate 0 (ask kQueueCreate 0) (descBytes ringDesc)) live 0 St.queueExists = true
    ∧ answers (.queueCreate 0 (ask kQueueCreate 0) (descBytes { ringDesc with qid := 1, cls := 0 })) live 0 St.badField = true
    ∧ answers (.queueCreate 0 (ask kQueueCreate 0) desc1)
        (live.updInst 0 (fun i => { i with limits := { i.limits with queueLimit := 1 } })) 0 St.queueSlots = true
    ∧ gives (.queueDestroy 0 (ask kQueueDestroy 0) [0]) (live.updQueue 0 (fun q => { q with write := 0 }))
        (fun t => replied 0 St.ok t && decide (t.queue 0 = none)) = true
    ∧ answers (.queueDestroy 0 (ask kQueueDestroy 0) [0]) live 0 St.queueState = true
    ∧ gives (.queueReset 0 (ask kQueueReset 0) [0]) (live.updQueue 0 (fun q => { q with stopCause := 2 }))
        (fun t => replied 0 St.ok t && decide ((t.queue 0).map (·.read) = some 2 ∧ (t.queue 0).map (·.stopCause) = some 0)) = true
    ∧ answers (.queueReset 0 (ask kQueueReset 0) [0]) live 0 St.queueState = true
    ∧ gives (.semSet 0 (ask kSemSet 0) (semSetOf 1)) live (fun t => replied 0 St.ok t && decide ((t.sem 0 3).value = 77)) = true
    ∧ gives (.semSet 0 (ask kSemSet 0) (semSetOf 10)) (semAt live 4 (some 9)) (fun t => replied 0 St.ok t
        && decide (t.sem 0 3 = ⟨4, some 0x50000000, none⟩)) = true
    ∧ answers (.semSet 0 (ask kSemSet 0) (semSetOf 6)) live 0 St.badField = true
    ∧ answers (.semSet 0 (ask kSemSet 0) (leBytes 24 256)) live 0 St.badSemaphore = true := by decide +kernel

/-- A GRAPH_REGISTER of 256 bytes at offset 0 of a handle; a CONTRACT_ADMIT of graph 1, role 0: period 1 ms, deadline 900 µs,
floor 600 MHz. -/
def registerOf (h : Nat) : List Byte := leBytes 8 h ++ leBytes 8 0 ++ leBytes 4 256
def admitOf (floor : Nat) : List Byte := leBytes 2 1 ++ leBytes 2 0 ++ leBytes 4 1000000 ++ leBytes 4 900000 ++ leBytes 4 0 ++ leBytes 16 floor

theorem witness_graph_and_contract_messages :
    accepts (bound live) 0 kGraphRegister 0 (registerOf 0x1001) = true
    ∧ (bound live).imageShort 0 (registerOf 0x1001) [] = false
    ∧ answers (.graphRegister 0 (ask kGraphRegister 0) (registerOf 0) []) live 0 St.nullHandle = true
    ∧ answers (.graphRegister 0 (ask kGraphRegister 0) (registerOf 0x1001) []) live 0 St.handleStale = true
    ∧ answers (.graphRegister 0 (ask kGraphRegister 0) (registerOf 0x1001) []) (bound live) 0 St.graphImage = true
    ∧ gives (.graphRegister 0 (ask kGraphRegister 0) (registerOf 0x1001) []) (unmapped (bound live))
        (fun t => decide ((t.inst 0).box.outProd = 1 ∧ (t.inst 0).mmu.faultValid = true)) = true
    ∧ accepts (withGraph live) 0 kGraphRelease 0 [1, 0] = true
    ∧ gives (.graphRelease 0 (ask kGraphRelease 0) [1, 0]) (withGraph live)
        (fun t => replied 0 St.ok t && decide ((t.graph 0 1).bind (·.current) = none)) = true
    ∧ answers (.graphRelease 0 (ask kGraphRelease 0) [1, 0]) live 0 St.badGraph = true
    ∧ accepts (boundRole live) 0 kContractAdmit 0 (admitOf 600) = true
    ∧ gives (.contractAdmit 0 (ask kContractAdmit 0) (admitOf 600)) (boundRole live)
        (fun t => replied 0 St.ok t && decide ((tabGet t.contracts 1).map (·.state) = some .admitted)) = true
    ∧ answers (.contractAdmit 0 (ask kContractAdmit 0) (admitOf 299)) (boundRole live) 0 St.badField = true
    ∧ gives (.contractAdmit 0 (ask kContractAdmit 0) (admitOf 600)) (withGraph live)
        (fun t => decide ((t.inst 0).box.outProd ≠ 0 ∧ t.contracts = [])) = true
    ∧ accepts live 0 kContractRelease 0 [4, 0] = true
    ∧ gives (.contractRelease 0 (ask kContractRelease 0) [4, 0]) { live with contracts := [(4, { inst := 0, req := ⟨1, 0, 1, 1, 0, 300⟩ })] }
        (fun t => replied 0 St.ok t && decide (t.contracts = [])) = true
    ∧ gives (.contractRelease 0 (ask kContractRelease 0) [4, 0]) { holding { six opLaunch [] with contract := 4 } with
          contracts := [(4, { inst := 0, req := ⟨1, 0, 1, 1, 0, 300⟩ })] }
        (fun t => replied 0 St.ok t && decide ((tabGet t.contracts 4).map (·.state) = some .released)) = true
    ∧ answers (.contractRelease 0 (ask kContractRelease 0) [4, 0]) live 0 St.contractUnknown = true := by decide +kernel

/-- A graph image of 768 bytes: the header, one variant of role 0 with one tile of 1,000 cycles, and 256 patchable bytes; BASE_VER is
the part's own. -/
def image : List Byte :=
  leBytes 4 0x49475246 ++ leBytes 2 1 ++ leBytes 2 Config.seqBase.toNat ++ leBytes 1 0 ++ leBytes 1 1 ++ leBytes 2 1 ++ leBytes 4 0
    ++ leBytes 4 768 ++ leBytes 4 256 ++ leBytes 8 0 ++ leBytes 4 512 ++ leBytes 4 256 ++ List.replicate 216 0
    ++ leBytes 4 0 ++ leBytes 4 320 ++ leBytes 4 1 ++ leBytes 4 320 ++ leBytes 4 0 ++ leBytes 8 0 ++ leBytes 4 0xFFFFFFFF ++ leBytes 32 10
    ++ leBytes 16 0x010003E8 ++ List.replicate 432 0

theorem witness_good_graph_image :
    (match live.registerImage 0 image 768 with
      | .ok (u, id) => decide (id = 1 ∧ (u.graph 0 1).map (·.fixed.patchLen) = some 256)
      | .error _ => false) = true := by
  have hp : parseImage image 768 = some ({ fixed0 with
      imageLen := 768, variants := [{ variant0 with tiles := [{ tile0 with preempt := false }] }] }, 512) := by decide +kernel
  have hb : field image 6 2 = Config.seqBase.toNat := by
    show leNat (leBytes 2 Config.seqBase.toNat) = _
    simp only [leBytes, leNat, BitVec.toNat_ofNat]
    have := Config.seqBase.isLt
    omega
  unfold State.registerImage
  rw [hp]
  dsimp only
  rw [if_neg (fun h => h hb)]
  decide +kernel

theorem witness_lifecycle :
    accepts live 1 kMailboxClose 0 [] = true ∧ accepts live 0 kInstanceCreate 3 [] = true ∧ live.createFault 3 = none
    ∧ gives (.mailboxClose 1 (ask kMailboxClose 0) []) live (fun t => replied 1 St.ok t && decide ((t.inst 1).box.state = 0)) = true
    ∧ gives (.instanceCreate 0 (ask kInstanceCreate 3) []) live (fun t => replied 0 St.ok t
        && decide ((t.inst 3).state = .active ∧ (t.inst 3).gen = 1 ∧ replyField t 0 32 2 = 1)) = true
    ∧ answers (.instanceCreate 0 (ask kInstanceCreate 1) []) live 0 St.instanceState = true
    ∧ answers (.instanceCreate 0 (ask kInstanceCreate 5) []) live 0 St.badInstance = true
    ∧ gives (.instanceQuiesce 0 (ask kInstanceQuiesce 1) []) live (fun t => replied 0 St.ok t
        && decide ((t.inst 1).state = .quiesced ∧ (t.inst 1).gen = 2)) = true
    ∧ answers (.instanceQuiesce 0 (ask kInstanceQuiesce 0) []) live 0 St.badInstance = true
    ∧ answers (.instanceQuiesce 0 (ask kInstanceQuiesce 2) []) live 0 St.instanceState = true
    ∧ gives (.instanceRemove 0 (ask kInstanceRemove 1) []) (with1 (fun i => { i with state := .quiesced }))
        (fun t => replied 0 St.ok t && decide ((t.inst 1).state = .absent)) = true
    ∧ answers (.instanceRemove 0 (ask kInstanceRemove 1) []) live 0 St.instanceState = true
    ∧ gives (.instanceReset 0 (ask kInstanceReset 1) []) live (fun t => replied 0 St.ok t
        && decide ((t.inst 1).state = .active ∧ (t.inst 1).gen = 2 ∧ tabGetD t.rst.counts 3 0 = 1)) = true
    ∧ gives (.instanceReset 0 (ask kInstanceReset 0) []) live (fun t => decide ((t.inst 0).gen = 2 ∧ (t.inst 0).box.state = 0
        ∧ t.queues = [])) = true
    ∧ answers (.instanceReset 0 (ask kInstanceReset 2) []) live 0 St.instanceState = true := by decide +kernel

theorem witness_binding_messages :
    accepts live 0 kPartAssign 1 [3, 0] = true ∧ live.bindable 1 = true ∧ live.bindable 2 = false
    ∧ answers (.roleUnbind 0 (ask kRoleUnbind 2) [0]) live 0 St.instanceState = true
    ∧ gives (.partAssign 0 (ask kPartAssign 1) [3, 0]) live (fun t => replied 0 St.ok t && decide ((t.inst 1).owned = 3
        ∧ replyField t 0 32 2 = 3)) = true
    ∧ answers (.partAssign 0 (ask kPartAssign 1) [3, 0]) (live.updPart 1 (fun p => { p with retired := true })) 0 St.badField = true
    ∧ gives (.partRevoke 0 (ask kPartRevoke 1) [1, 0]) (with1 (fun i => { i with owned := 3, bind := [(0, 0x80003)] }))
        (fun t => replied 0 St.ok t && decide ((t.inst 1).owned = 2 ∧ t.bindWord 1 0 = 0x80002)) = true
    ∧ gives (.roleBind 0 (ask kRoleBind 1) (leBytes 4 2 ++ leBytes 4 0x80001)) (with1 (fun i => { i with owned := 1 }))
        (fun t => replied 0 St.ok t && decide (t.bindWord 1 2 = 0x80001)) = true
    ∧ answers (.roleBind 0 (ask kRoleBind 1) (leBytes 4 2 ++ leBytes 4 0x80001)) live 0 St.bindMembers = true
    ∧ gives (.roleUnbind 0 (ask kRoleUnbind 1) [2]) (with1 (fun i => { i with bind := [(2, 0x80001)] }))
        (fun t => replied 0 St.ok t && decide (t.bindWord 1 2 = 0)) = true
    ∧ answers (.roleUnbind 0 (ask kRoleUnbind 1) [16]) live 0 St.badField = true
    ∧ answers (.roleUnbind 0 (ask kRoleUnbind 0) [0]) { boundRole live with
          contracts := [(4, { inst := 0, req := ⟨1, 0, 1, 1, 0, 300⟩ })] } 0 St.contractBound = true := by decide +kernel

/-- Instance 1 FROZEN. -/
def frozen1 : State := with1 (fun i => { i with state := .frozen, frozenAt := 90000000 })

/-- A blob of nothing, taken from instance 3. -/
def emptyBlob : Blob :=
  { crcGood := true, major := 1, minor := 0, unknownRequired := false, sourceInst := 3, sourceGen := 1, seqBase := Config.seqBase,
    frozenAt := 90000000, limits := ⟨1, 16, 1, 256, 0, 1500, 0, 0⟩, queues := [], sems := [], handles := [], graphs := [], cmds := [],
    contracts := [] }

/-- SAVE or RESTORE at DVA 0x5000_0000 with 1 MiB. -/
def saveOf (cap : Nat) : List Byte := leBytes 8 0x50000000 ++ leBytes 8 cap
def restoreOf : List Byte := saveOf 0x100000 ++ List.replicate 80 0
def hostRestore : List Byte := leBytes 8 (2 ^ 47) ++ leBytes 8 512 ++ List.replicate 80 0

/-- A blob header whose HEADER_CRC is right; and the blob of no sections of this part's own BASE_VER, 512 bytes in host memory. -/
def sealed (b : List Byte) : List Byte := b ++ leBytes 4 (crc32 b).toNat
def headOf (minor : Nat) : List Byte :=
  leBytes 4 0x49424C5A ++ leBytes 2 1 ++ leBytes 2 minor ++ leBytes 8 512 ++ leBytes 8 0 ++ leBytes 1 3 ++ leBytes 1 0 ++ leBytes 2 1
    ++ leBytes 2 Config.seqBase.toNat ++ leBytes 2 0 ++ leBytes 8 90000000
def blobAt (minor : Nat) : List Byte := sealed (headOf minor ++ List.replicate 468 0)
def goodBlob : List Byte := blobAt 0

theorem witness_freeze_and_attach :
    accepts live 0 kFreeze 1 (leBytes 8 10000) = true ∧ accepts frozen1 0 kSave 1 (saveOf 0x100000) = true
    ∧ accepts live 0 kRestore 3 restoreOf = true ∧ accepts frozen1 0 kThaw 1 [0] = true ∧ accepts live 0 kAttach 0 (leBytes 8 1) = true
    ∧ gives (.freeze 0 (ask kFreeze 1) (leBytes 8 10000)) live (fun t => decide ((t.inst 1).state = .freezing
        ∧ (t.inst 1).freezeUntil = 10100000000 ∧ (t.inst 0).box.outProd = 0)) = true
    ∧ answers (.freeze 0 (ask kFreeze 0) (leBytes 8 0)) live 0 St.badInstance = true
    ∧ answers (.freeze 0 (ask kFreeze 2) (leBytes 8 0)) live 0 St.instanceState = true
    ∧ answers (.freeze 0 (ask kFreeze 1) (leBytes 8 10001)) live 0 St.badField = true
    ∧ answers (.save 0 (ask kSave 1) (saveOf 0x100000)) live 0 St.instanceState = true
    ∧ answers (.save 0 (ask kSave 1) (saveOf 511)) frozen1 0 St.blobSpace = true
    ∧ answers (.save 0 (ask kSave 1) (leBytes 16 2048)) frozen1 0 St.badField = true
    ∧ answers (.restore 0 (ask kRestore 1) hostRestore goodBlob emptyBlob) live 0 St.instanceState = true
    ∧ answers (.restore 0 (ask kRestore 3) hostRestore (List.replicate 512 0) emptyBlob) live 0 St.blobFormat = true
    ∧ idle (.restore 0 (ask kRestore 3) hostRestore (List.replicate 511 0) emptyBlob) live = true
    ∧ gives (.restore 0 (ask kRestore 3) restoreOf [] emptyBlob) (unmapped live)
        (fun t => decide ((t.inst 0).box.outProd = 1 ∧ (t.inst 0).mmu.faultValid = true ∧ (t.inst 3).state = .absent)) = true
    ∧ answers (.thaw 0 (ask kThaw 1) [0]) live 0 St.instanceState = true
    ∧ gives (.thaw 0 (ask kThaw 1) [0]) frozen1 (fun t => replied 0 St.ok t && decide ((t.inst 1).state = .active)) = true
    ∧ answers (.attach 0 (ask kAttach 0) (leBytes 8 2)) live 0 St.attachGen = true
    ∧ gives (.attach 0 (ask kAttach 0) (leBytes 8 1)) live (fun t => replied 0 St.ok t && decide (t.mgc.mgrGen = 2
        ∧ t.mgc.armed = true ∧ t.mgc.beatBase = 100000000)) = true
    ∧ gives (.attach 0 (ask kAttach 0) (leBytes 4 1 ++ leBytes 4 1)) live (fun t => replied 0 St.ok t
        && decide (t.mgc.orphan = true ∧ t.mgc.armed = false)) = true := by decide +kernel

theorem headOf_length (m : Nat) : (headOf m ++ List.replicate 468 (0 : Byte)).length = 508 := by
  rw [List.length_append, List.length_replicate]
  rfl

theorem blobAt_length (m : Nat) : (blobAt m).length = 512 := by
  rw [blobAt, sealed, List.length_append, headOf_length]
  rfl

theorem blobAt_crc (m : Nat) : field (blobAt m) 0x1FC 4 = (crc32 ((blobAt m).take 0x1FC)).toNat := by
  have ht : (blobAt m).take 0x1FC = headOf m ++ List.replicate 468 0 := List.take_left' (headOf_length m)
  have hd : (blobAt m).drop 0x1FC = leBytes 4 (crc32 (headOf m ++ List.replicate 468 0)).toNat := List.drop_left' (headOf_length m)
  rw [ht, field, hd]
  generalize crc32 (headOf m ++ List.replicate 468 0) = x
  have := x.isLt
  simp only [leBytes, List.take, leNat, BitVec.toNat_ofNat]
  omega

theorem goodBlob_fields : field goodBlob 0 4 = 0x49424C5A ∧ field goodBlob 4 2 = 1 ∧ field goodBlob 6 2 = 0
    ∧ field goodBlob 28 2 = Config.seqBase.toNat := by
  refine ⟨by decide +kernel, by decide +kernel, by decide +kernel, ?_⟩
  show leNat (leBytes 2 Config.seqBase.toNat) = _
  have := Config.seqBase.isLt
  simp only [leBytes, leNat, BitVec.toNat_ofNat]
  omega

/-- The header of a blob of this form is good, and its directory is empty. -/
theorem blobAt_good {m : Nat} (f0 : field (blobAt m) 0 4 = 0x49424C5A) (f8 : field (blobAt m) 8 8 = 512)
    (f25 : field (blobAt m) 25 1 = 0) : blobFormOk (blobAt m) = true ∧ blobDir (blobAt m) = [] := by
  have hd : blobDir (blobAt m) = [] := by simp only [blobDir, f25]; rfl
  refine ⟨?_, hd⟩
  unfold blobFormOk
  rw [blobAt_length, f0, f8, f25, hd, blobAt_crc]
  simp [dirOk]

theorem goodBlob_read : live.readDva 0 (2 ^ 47) 512 goodBlob = .bytes goodBlob [] := by
  have hl : goodBlob.length = 512 := blobAt_length 0
  have ht : live.translate 0 (2 ^ 47) false = .host 0 := by decide +kernel
  have hu : live.link.up = true := rfl
  unfold State.readDva pagesOf State.readExtent
  simp only [ht]
  rw [if_neg (by decide), if_neg (by rw [hu]; decide), if_neg (by rw [hl]; decide)]
  unfold State.readExtent
  rw [if_pos (by decide)]
  rw [List.take_of_length_le (by rw [hl]; decide), List.drop_of_length_le (by rw [hl]; decide)]
  exact congrArg (fun b => ReadRes.bytes b []) (List.append_nil goodBlob)

/-- The good blob passes every check of RESTORE, one of a later minor version only its form's, and instance 3 can be rebuilt from
the good one. -/
theorem witness_restore :
    (readBlob goodBlob emptyBlob).crcGood = true ∧ (readBlob goodBlob emptyBlob).unknownRequired = false
    ∧ (readBlob (blobAt 1) emptyBlob).crcGood = true ∧ field (blobAt 1) 6 2 = 1
    ∧ (match (live.takeRequest 0 (ask kRestore 3)).rebuildFrom 3 0 (List.replicate 16 0) (readBlob goodBlob emptyBlob) with
      | .ok u => decide ((u.inst 3).limits = emptyBlob.limits)
      | .error _ => false) = true := by
  have g0 := blobAt_good (m := 0) (by decide +kernel) (by decide +kernel) (by decide +kernel)
  have g1 := blobAt_good (m := 1) (by decide +kernel) (by decide +kernel) (by decide +kernel)
  refine ⟨?_, ?_, ?_, by decide +kernel, by decide +kernel⟩
  · unfold readBlob goodBlob
    dsimp only
    exact g0.1
  · unfold readBlob goodBlob
    dsimp only
    rw [g0.2]
    rfl
  · unfold readBlob
    dsimp only
    exact g1.1

/-- Bytes written to host memory under bypass, the link up and no translation used, are posted. -/
theorem writeExtent_host_ok (fuel : Nat) : ∀ (s : State) (dva : Nat) (bs : List Byte), (s.inst 0).mmu.en = false →
    (s.inst 0).mmu.bypass = true → s.usesAts 0 = false → s.link.up = true → 2 ^ 47 ≤ dva → dva + bs.length ≤ 2 ^ 48 →
    (s.writeExtent 0 dva bs fuel).2 = none ∧ (s.writeExtent 0 dva bs fuel).1.insts = s.insts
      ∧ (s.writeExtent 0 dva bs fuel).1.link.up = true ∧ (s.writeExtent 0 dva bs fuel).1.usesAts 0 = false := by
  induction fuel with
  | zero => intro s dva bs _ _ ha hl _ _; exact ⟨rfl, rfl, hl, ha⟩
  | succ n ih =>
    intro s dva bs he hb ha hl h1 h2
    unfold State.writeExtent
    split
    · exact ⟨rfl, rfl, hl, ha⟩
    · rename_i hne
      have ht : s.translate 0 dva true = .host (dva % 2 ^ 47) := by
        have hbit : bit dva 47 = true := by simp only [bit, beq_iff_eq]; omega
        unfold State.translate
        rw [if_neg (by omega)]
        simp [he, hb, hbit]
      have hx : s.xlated 0 19 dva = s := by unfold State.xlated; simp [he]
      have hp : ∀ (k a fuel : Nat) (c : List Byte), c.length ≠ 0 → s.hostPost 0 a c (fuel + k + 1) = s.post (.write 0 a c) := by
        intro k a fuel c hc
        show State.hostPost s 0 a c (Nat.succ (fuel + k)) = _
        unfold State.hostPost
        rw [if_neg hc, ha]
        rfl
      simp only [ht, hx]
      rw [show (min bs.length (65536 - dva % 65536) / 4096 + 2) = min bs.length (65536 - dva % 65536) / 4096 + 1 + 1 from rfl,
        hp 1 _ _ _ (by rw [List.length_take]; omega)]
      exact ih _ _ _ he hb ha hl (by omega) (by simp only [List.length_drop]; omega)

theorem padTo_length (n : Nat) (bs : List Byte) : (padTo n bs).length = n := by simp [padTo]

theorem freeBytes_keeps (n : Nat) : ∀ s : State, (freeBytes n s).2.insts = s.insts ∧ (freeBytes n s).2.link = s.link := by
  induction n with
  | zero => intro s; exact ⟨rfl, rfl⟩
  | succ n ih => intro s; exact ih s.useFree

theorem pieceBytes_keeps (l : List Piece) : ∀ s : State, (pieceBytes l s).2.insts = s.insts ∧ (pieceBytes l s).2.link = s.link := by
  induction l with
  | nil => intro s; exact ⟨rfl, rfl⟩
  | cons p t ih =>
    intro s
    obtain ⟨a, b⟩ := freeBytes_keeps p.record s
    obtain ⟨c, d⟩ := ih (freeBytes p.record s).2
    exact ⟨c.trans a, d.trans b⟩

theorem blobBodies_shape (n : Nat) : ∀ (l : List (Nat × Nat × Nat)) (s : State),
    ((blobBodies n l s).1.flatMap (·.2.2)).length = (l.map (fun e => pad256 e.2.2)).sum
      ∧ (blobBodies n l s).2.insts = s.insts ∧ (blobBodies n l s).2.link = s.link := by
  intro l
  induction l with
  | nil => intro s; exact ⟨rfl, rfl, rfl⟩
  | cons e t ih =>
    intro s
    obtain ⟨ty, count, len⟩ := e
    obtain ⟨c, d⟩ := pieceBytes_keeps (s.sectionPieces n ty len) s
    obtain ⟨a, b, e⟩ := ih (pieceBytes (s.sectionPieces n ty len) s).2
    simp only [blobBodies, List.flatMap_cons, List.length_append, padTo_length, List.map_cons, List.sum_cons]
    exact ⟨by rw [a], b.trans c, e.trans d⟩

/-- A blob with room, written to host memory under bypass, is written whole. -/
theorem saveBlob_host_ok (s : State) (n dva cap : Nat) (hcap : s.blobLen n ≤ cap) (he : (s.inst 0).mmu.en = false)
    (hb : (s.inst 0).mmu.bypass = true) (hu : s.usesAts 0 = false) (hl : s.link.up = true) (h1 : 2 ^ 47 ≤ dva)
    (h2 : dva + 512 + ((s.blobSections n).map (fun e => pad256 e.2.2)).sum ≤ 2 ^ 48) : (s.saveBlob n dva cap).2.1 = St.ok := by
  have hs := blobBodies_shape n (s.blobSections n) s
  unfold State.saveBlob State.writeDva
  rw [if_neg (by omega)]
  generalize blobBodies n (s.blobSections n) s = B at hs
  obtain ⟨bodies, s1⟩ := B
  obtain ⟨k1, k2, k3⟩ := hs
  dsimp only at k1 k2 k3 ⊢
  have hi : s1.inst 0 = s.inst 0 := by simp only [State.inst, k2]
  have ha : s1.usesAts 0 = false := by
    unfold State.usesAts State.func at hu ⊢
    rw [k3, hi]
    exact hu
  have w1 := writeExtent_host_ok (pagesOf (bodies.flatMap (·.2.2)).length) s1 (dva + 512) (bodies.flatMap (·.2.2))
    (by rw [hi]; exact he) (by rw [hi]; exact hb) ha (by rw [k3]; exact hl) (by omega) (by omega)
  generalize s1.writeExtent 0 (dva + 512) (bodies.flatMap (·.2.2)) (pagesOf (bodies.flatMap (·.2.2)).length) = W at w1
  obtain ⟨t, o⟩ := W
  obtain ⟨a, b, c, d⟩ := w1
  dsimp only at a b c d
  subst a
  have hj : t.inst 0 = s.inst 0 := by simp only [State.inst, b, k2]
  have hh : (s1.blobHeader n bodies).length = 512 := by
    unfold State.blobHeader
    simp only [List.length_append, padTo_length, leBytes, List.length_cons, List.length_nil]
  have w2 := writeExtent_host_ok (pagesOf (s1.blobHeader n bodies).length) t dva (s1.blobHeader n bodies)
    (by rw [hj]; exact he) (by rw [hj]; exact hb) d c h1 (by omega)
  dsimp only
  generalize t.writeExtent 0 dva (s1.blobHeader n bodies) (pagesOf (s1.blobHeader n bodies).length) = V at w2
  obtain ⟨u, o2⟩ := V
  obtain ⟨a2, -, -⟩ := w2
  dsimp only at a2
  subst a2
  rfl

/-- The blob of FROZEN instance 1 is written to host memory. -/
theorem witness_save_writes :
    ((frozen1.takeRequest 0 (ask kSave 1)).saveBlob 1 (2 ^ 47) 0x100000).2.1 = St.ok :=
  saveBlob_host_ok _ _ _ _ (by decide +kernel) (by decide +kernel) (by decide +kernel) (by decide +kernel) (by decide +kernel)
    (Nat.le_refl _) (by decide +kernel)
/-- A calibration record of this part: 600 mV at every step, no offset, 32 in every guard-band place, no read assist, every
sensor gain 65,536. -/
def recordHead : List Byte := leBytes 4 0x4C414331 ++ leBytes 4 1 ++ leBytes 8 Config.serial.toNat ++ leBytes 48 0
def recordBody : List Byte :=
  recordHead ++ ((List.replicate 848 [0x58, 0x02]).flatten ++ ((List.replicate 128 [32]).flatten ++ ((List.replicate 16 [0, 0]).flatten
    ++ ((List.replicate 256 [0]).flatten ++ ((List.replicate 8 [0, 0, 1, 0]).flatten ++ List.replicate 1884 0)))))
def record : List Byte := recordBody ++ leBytes 4 (crc32 recordBody).toNat

theorem field_right (a l : List Byte) (o n : Nat) (h : a.length ≤ o) : field (a ++ l) o n = field l (o - a.length) n := by
  unfold field
  rw [List.drop_append, List.drop_eq_nil_of_le h, List.nil_append]

theorem field_chunk (c rest : List Byte) (n : Nat) : ∀ k, k < n →
    field ((List.replicate n c).flatten ++ rest) (c.length * k) c.length = leNat c := by
  induction n with
  | zero => intro k hk; omega
  | succ n ih =>
    intro k hk
    rw [List.replicate_succ, List.flatten_cons, List.append_assoc]
    cases k with
    | zero => simp [field]
    | succ k =>
      rw [field_right _ _ _ _ (by rw [Nat.mul_succ]; omega), Nat.mul_succ, Nat.add_sub_cancel]
      exact ih k (by omega)

theorem field_left (a l : List Byte) (o n : Nat) (h : o + n ≤ a.length) : field (a ++ l) o n = field a o n := by
  unfold field
  rw [List.drop_append_of_le_length (by omega), List.take_append_of_le_length (by rw [List.length_drop]; omega)]

theorem allZero_replicate (n : Nat) : allZero (List.replicate n 0) = true := by
  induction n with
  | zero => rfl
  | succ n ih => rw [List.replicate_succ]; exact ih

theorem flatten_replicate_length (c : List Byte) (n : Nat) : (List.replicate n c).flatten.length = n * c.length := by
  simp [List.length_flatten, List.map_replicate, List.sum_replicate]

/-- The bytes of `record` from its first voltage on. -/
theorem record_field (o n : Nat) (h : 64 ≤ o) : field record o n =
    field ((List.replicate 848 [0x58, 0x02]).flatten ++ ((List.replicate 128 [32]).flatten ++ ((List.replicate 16 [0, 0]).flatten
      ++ ((List.replicate 256 [0]).flatten ++ ((List.replicate 8 [0, 0, 1, 0]).flatten ++ (List.replicate 1884 0
        ++ leBytes 4 (crc32 recordBody).toNat)))))) (o - 64) n := by
  unfold record recordBody
  simp only [List.append_assoc]
  exact field_right recordHead _ o n h

theorem recordBody_length : recordBody.length = 4092 := by
  simp only [recordBody, recordHead, List.length_append, flatten_replicate_length, List.length_replicate, leBytes,
    List.length_cons, List.length_nil]

theorem record_length : record.length = 4096 := by
  unfold record
  rw [List.length_append, recordBody_length]
  rfl

theorem record_ranges : calRanges record = true := by
  have hv : ∀ p s, p < 16 → s < 53 → u16At record (0x40 + 106 * p + 2 * s) = 600 := by
    intro p s hp hs
    unfold u16At
    rw [record_field _ _ (by omega), show 64 + 106 * p + 2 * s - 64 = [(0x58 : Byte), 0x02].length * (53 * p + s) by
      simp only [List.length_cons, List.length_nil]; omega]
    exact field_chunk _ _ _ _ (by omega)
  have hg : ∀ k, k < 128 → field record (0x6E0 + k) 1 = 32 := by
    intro k hk
    rw [record_field _ _ (by omega), field_right _ _ _ _ (by rw [flatten_replicate_length]; simp; omega)]
    have := field_chunk [(32 : Byte)] ((List.replicate 16 [0, 0]).flatten
      ++ ((List.replicate 256 [0]).flatten ++ ((List.replicate 8 [0, 0, 1, 0]).flatten ++ (List.replicate 1884 0
        ++ leBytes 4 (crc32 recordBody).toNat)))) 128 k hk
    rw [flatten_replicate_length, show 0x6E0 + k - 64 - 848 * [(0x58 : Byte), 0x02].length = [(32 : Byte)].length * k by simp; omega]
    exact this
  have ho : ∀ k, k < 16 → i16At record (0x760 + 2 * k) = 0 := by
    intro k hk
    unfold i16At
    rw [record_field _ _ (by omega), field_right _ _ _ _ (by rw [flatten_replicate_length]; simp; omega),
      field_right _ _ _ _ (by simp only [flatten_replicate_length, List.length_cons, List.length_nil]; omega)]
    rw [flatten_replicate_length, flatten_replicate_length,
      show 0x760 + 2 * k - 64 - 848 * [(0x58 : Byte), 0x02].length - 128 * [(32 : Byte)].length = [(0 : Byte), 0].length * k by
        simp; omega]
    have := field_chunk [(0 : Byte), 0] ((List.replicate 256 [0]).flatten ++ ((List.replicate 8 [0, 0, 1, 0]).flatten
      ++ (List.replicate 1884 0 ++ leBytes 4 (crc32 recordBody).toNat))) 16 k hk
    rw [show (2 : Nat) = [(0 : Byte), 0].length from rfl, this]
    rfl
  have ha : ∀ k, k < 256 → field record (0x780 + k) 1 = 0 := by
    intro k hk
    rw [record_field _ _ (by omega), field_right _ _ _ _ (by rw [flatten_replicate_length]; simp; omega),
      field_right _ _ _ _ (by simp only [flatten_replicate_length, List.length_cons, List.length_nil]; omega),
      field_right _ _ _ _ (by simp only [flatten_replicate_length, List.length_cons, List.length_nil]; omega)]
    simp only [flatten_replicate_length]
    rw [show 0x780 + k - 64 - 848 * [(0x58 : Byte), 0x02].length - 128 * [(32 : Byte)].length - 16 * [(0 : Byte), 0].length
      = [(0 : Byte)].length * k by simp; omega]
    exact field_chunk [(0 : Byte)] _ 256 k hk
  have hs : ∀ k, k < 8 → field record (0x880 + 4 * k) 4 = 65536 := by
    intro k hk
    rw [record_field _ _ (by omega), field_right _ _ _ _ (by rw [flatten_replicate_length]; simp; omega),
      field_right _ _ _ _ (by simp only [flatten_replicate_length, List.length_cons, List.length_nil]; omega),
      field_right _ _ _ _ (by simp only [flatten_replicate_length, List.length_cons, List.length_nil]; omega),
      field_right _ _ _ _ (by simp only [flatten_replicate_length, List.length_cons, List.length_nil]; omega)]
    simp only [flatten_replicate_length]
    rw [show 0x880 + 4 * k - 64 - 848 * [(0x58 : Byte), 0x02].length - 128 * [(32 : Byte)].length - 16 * [(0 : Byte), 0].length
      - 256 * [(0 : Byte)].length = [(0 : Byte), 0, 1, 0].length * k by simp; omega]
    exact field_chunk [(0 : Byte), 0, 1, 0] _ 8 k hk
  unfold calRanges
  simp only [Bool.and_eq_true, Bool.or_eq_true, List.all_eq_true, List.mem_range, decide_eq_true_eq, beq_iff_eq]
  refine ⟨⟨⟨⟨fun p hp s hs' => ?_, fun k hk => ?_⟩, fun p hp => ?_⟩, fun k hk => ?_⟩, fun k hk => ?_⟩
  · rw [hv p s hp hs']
    refine ⟨⟨by omega, by omega⟩, ?_⟩
    by_cases h0 : s = 0
    · exact .inl h0
    · exact .inr (by rw [hv p (s - 1) hp (by omega)])
  · rw [hg k hk]; omega
  · rw [ho p hp]; omega
  · rw [ha k hk]; omega
  · rw [hs k hk]; omega

theorem leNat_leBytes (n : Nat) : ∀ v, v < 256 ^ n → leNat (leBytes n v) = v := by
  induction n with
  | zero => intro v h; simp only [leBytes, leNat]; omega
  | succ n ih =>
    intro v h
    rw [leBytes, leNat, BitVec.toNat_ofNat, ih (v / 256) (Nat.div_lt_of_lt_mul (by rw [Nat.pow_succ] at h; omega))]
    omega

/-- The record passes every check of R404. -/
theorem witness_good_cal_record : record.length = 4096 ∧ calReason record = 0 := by
  refine ⟨record_length, ?_⟩
  have hc : field record 0xFFC 4 = (crc32 (record.take 0xFFC)).toNat := by
    have ht : record.take 0xFFC = recordBody := by
      unfold record; exact List.take_left' recordBody_length
    rw [ht]
    unfold record
    rw [field_right _ _ _ _ (by rw [recordBody_length]), recordBody_length]
    exact leNat_leBytes 4 _ (crc32 recordBody).isLt
  have hl (o n : Nat) (h : o + n ≤ 64) : field record o n = field recordHead o n := by
    unfold record recordBody
    rw [List.append_assoc]
    exact field_left _ _ _ _ h
  have hser : field record 8 8 = Config.serial.toNat := by
    rw [hl 8 8 (by omega)]
    exact leNat_leBytes 8 _ Config.serial.isLt
  have h48 : (record.drop 0x10).take 48 = leBytes 48 0 := by
    unfold record recordBody
    rw [List.append_assoc, List.drop_append_of_le_length (by decide), List.take_append_of_le_length (by decide)]
    rfl
  have hz : (record.drop 0x8A0).take 1884 = List.replicate 1884 0 := by
    have hb : recordBody.drop 0x8A0 = List.replicate 1884 0 := by
      have e : recordBody = (recordHead ++ ((List.replicate 848 [0x58, 0x02]).flatten ++ ((List.replicate 128 [32]).flatten
          ++ ((List.replicate 16 [0, 0]).flatten ++ ((List.replicate 256 [0]).flatten
          ++ (List.replicate 8 [0, 0, 1, 0]).flatten))))) ++ List.replicate 1884 0 := by
        unfold recordBody
        simp only [List.append_assoc]
      rw [e]
      exact List.drop_left' (by
        simp only [recordHead, List.length_append, flatten_replicate_length, leBytes, List.length_cons, List.length_nil])
    unfold record
    rw [List.drop_append_of_le_length (by rw [recordBody_length]; omega), hb]
    exact List.take_left' (List.length_replicate ..)
  have h1 : (field record 0 4 != 0x4C414331 || field record 4 2 != 1 || field record 6 2 != 0
      || !allZero ((record.drop 0x10).take 48) || !allZero ((record.drop 0x8A0).take 1884)) = false := by
    rw [hl 0 4 (by omega), hl 4 2 (by omega), hl 6 2 (by omega), h48, hz, allZero_replicate]
    decide +kernel
  unfold calReason
  rw [h1, hc, hser, record_ranges]
  simp

-- The object dictionary and the management link --------------------------------------------------------------------------------------

/-- A frame for a dictionary entry. -/
def fr (i sub : Nat) (data : List Byte) : UFrame := { reservedSet := false, tid := 5, index := i, sub := sub, data := data }

/-- The response frame on the host path carries this abort code and this data, and its lengths are right. -/
def told (ab : Abort) (d : List Byte) (t : State) : Bool :=
  decide (field t.bus.hostResponse 8 4 = ab.toNat ∧ (t.bus.hostResponse.drop 12).take d.length = d
    ∧ t.bus.hostResponse.length = 14 + d.length)

/-- The request is answered with this abort code and no data. -/
def tells (c : Instr) (s : State) (ab : Abort) : Bool := gives c s (told ab [])

/-- `WriteGood` as a decision, on the host path. -/
def goodB (s : State) (p : Path) (f : UFrame) : Bool :=
  decide (s.server = .topcoat) && s.serving && (decide (p = .host) || s.busOn) && !f.reservedSet && decide (f.data.length ≤ 96)
    && (match (arrive s p).writeFault p f.index f.sub f.data.length false with
      | .ok e => decide (e.size ≠ 0) && decide ((arrive s p).rangeFault p f.index f.sub (leNat f.data) e = 0)
      | .error _ => false)

theorem goodB_good {s : State} {p : Path} {f : UFrame} (h : goodB s p f = true) : WriteGood s p f (leNat f.data) := by
  simp only [goodB, Bool.and_eq_true, Bool.or_eq_true, Bool.not_eq_true', decide_eq_true_eq] at h
  obtain ⟨⟨⟨⟨⟨h1, h2⟩, h3⟩, h4⟩, h5⟩, h6⟩ := h
  refine ⟨⟨h1, h2, fun hp => ?_⟩, h4, h5, rfl, ?_⟩
  · rcases h3 with h3 | h3
    · rw [h3] at hp; cases hp
    · exact h3
  · split at h6
    · rename_i e he
      simp only [Bool.and_eq_true, decide_eq_true_eq] at h6
      exact ⟨e, he, h6.1, h6.2⟩
    · cases h6

theorem witness_dictionary :
    gives (.read .host (fr 0x2100 1 [])) live (told 0 (leBytes 4 1000)) = true
    ∧ gives (.read .host (fr 0x3000 4 [])) { live with dict := { mirror := [(dictKey 0x3000 4, 300)] } } (fun t => decide (t.bus.hostResponse.length = 16)) = true
    ∧ tells (.read .host (fr 0x2003 2 [])) live abWriteOnly = true
    ∧ tells (.read .host (fr 0x6000 1 [])) live abSegmentRequired = true
    ∧ tells (.read .host (fr 0x1000 60 [])) live abNoSubindex = true ∧ tells (.read .host (fr 0x0FFF 1 [])) live abNoIndex = true
    ∧ goodB live .host (fr 0x2100 3 (leBytes 4 60000)) = true ∧ goodB live .link (fr 0x2100 3 (leBytes 4 100)) = true
    ∧ gives (.write .host (fr 0x2100 3 (leBytes 4 60000))) live (fun t => told 0 [] t
        && decide (t.setting 0x2100 3 = 60000 ∧ tabGetD t.bus.epochs 0x2100 0 = 1 ∧ tabGetD t.bus.lastPath 0x2100 0 = 1)) = true
    ∧ tells (.write .host (fr 0x2100 3 (leBytes 4 60001))) live abValueRange = true
    ∧ tells (.write .host (fr 0x2100 3 (leBytes 4 99))) live abValueRange = true
    ∧ tells (.write .host (fr 0x2100 3 [1])) live abTypeLength = true
    ∧ tells (.write .host (fr 0x2100 5 [1])) live abPathDenied = true
    ∧ tells (.write .host (fr 0x2002 1 (leBytes 4 1))) live abPathDenied = true
    ∧ tells (.write .host (fr 0x2100 3 (leBytes 4 0))) { live with bus := { claims := [(3, 1)] } } abClaimedByOther = true
    ∧ tells (.writeCond .host (fr 0x2100 3 (leBytes 2 7 ++ leBytes 4 0))) live abEpochMismatch = true
    ∧ gives (.writeCond .host (fr 0x2100 3 (leBytes 2 0xFFFF ++ leBytes 4 0))) { live with bus := { epochs := [(0x2100, 0xFFFF)] } }
        (fun t => told 0 [] t && decide (tabGetD t.bus.epochs 0x2100 0 = 1)) = true
    ∧ gives (.write .link (fr 0x2100 3 (leBytes 4 0))) (withFw .loadWait) (fun t => decide (field t.bus.response 8 4 = abNotAvailable.toNat)) = true
    ∧ gives (.write .link (fr 0x2100 3 (leBytes 4 0))) (withFw .restarting) (fun t => decide (t.bus.held.length = 1 ∧ t.bus.response = [])) = true
    ∧ idle (.read .host (fr 0x2100 1 [])) (withFw .loadWait) = true
    ∧ idle (.read .link (fr 0x2100 1 [])) { live with bus := { hdr := true } } = true
    ∧ gives .responseRead { live with bus := { response := [1, 2, 3] } } (fun t => decide (t.bus.busOut = [3, 1, 2, 3])) = true
    := by decide +kernel

/-- The host path with a session, reading or writing the value at 0x9001:01. -/
def inSession (w : Bool) (total : Nat) (d : List Byte) : State :=
  { live with bus := { hostSession := some ⟨w, 0x9001, 1, total, crc32 [1, 2, 3, 4], 0, d, 99000000⟩ } }

theorem witness_segments :
    gives (.segReadStart .host (fr 0x2100 1 [])) live (told abSegmentRequired []) = true
    ∧ gives (.segWriteStart .host (fr 0x9001 1 (leBytes 4 65536 ++ leBytes 6 0))) live
        (fun t => told 0 [] t && decide (t.bus.hostSession.map (·.total) = some 65536)) = true
    ∧ tells (.segWriteStart .host (fr 0x9001 1 (leBytes 4 65537 ++ leBytes 6 0))) live abValueRange = true
    ∧ gives (.segAbort .host (fr 0x9001 1 [])) (inSession true 9 []) (fun t => told 0 [] t && decide (t.bus.hostSession = none)) = true
    ∧ gives (.segRead .host (fr 0x9001 1 [1, 0, 0, 0, 96])) (inSession false 4 [1, 2, 3, 4]) (told 0 [2, 3, 4]) = true
    ∧ tells (.segRead .host (fr 0x9001 1 [0, 0, 0, 0, 97])) (inSession false 4 [1, 2, 3, 4]) abValueRange = true
    ∧ tells (.segRead .host (fr 0x9001 1 [0, 0, 0, 0, 1])) (inSession true 4 []) abSegNoSession = true
    ∧ tells (.segRead .host (fr 0x9001 1 [0, 0, 0, 0, 1])) live abSegNoSession = true
    ∧ gives (.segWrite .host (fr 0x9001 1 [0, 0, 0, 0, 1, 2])) (inSession true 4 []) (fun t => told 0 [] t
        && decide (t.bus.hostSession.map (·.data) = some [1, 2])) = true
    ∧ tells (.segWrite .host (fr 0x9001 1 [3, 0, 0, 0, 1])) (inSession true 4 [1, 2]) abSegOffset = true
    ∧ tells (.segWrite .host (fr 0x9001 1 [2, 0, 0, 0, 3, 5])) (inSession true 4 [1, 2]) abSegCrc = true
    ∧ tells (.segWrite .host (fr 0x9001 1 [2, 0, 0, 0, 3, 4])) (inSession true 4 [1, 2]) abValueRange = true
    ∧ tells (.segAbort .host (fr 0x9001 1 [])) { live with bus := { hostEnded := abSegTimeout } } abSegTimeout = true
    ∧ idle (.segSessionTimeout .host) { inSession true 4 [] with clk := { devtime := 1098999999 } } = true
    ∧ gives (.segSessionTimeout .host) { inSession true 4 [] with clk := { devtime := 1099000000 } }
        (fun t => decide (t.bus.hostSession = none ∧ t.bus.hostEnded = abSegTimeout)) = true
    ∧ (match entryAt 0x6000 1 with | .ok e => decide (e.size = 0 ∧ e.acc ≠ .wo) | .error _ => false) = true
    ∧ (live.writeFault .host 0x6000 1 4096 true).isOk = true ∧ live.keepBusy [5] = false
    ∧ gives (.download .host (List.replicate 544 0)) live (fun t => told 0 [] t && decide (t.keep.ops.map (·.code) = [1])) = true
    ∧ tells (.download .host (List.replicate 543 0)) live abValueRange = true
    ∧ tells (.calRecord .host [1, 2, 3]) live abValueRange = true := by decide +kernel

/-- A segmented write of a 544-byte bundle whose last 4 bytes arrive. -/
def lastSegment : Session := ⟨true, 0x9001, 1, 544, crc32 (List.replicate 540 0 ++ [0, 0, 0, 0]), 0, List.replicate 540 0, 99000000⟩

theorem witness_last_segment :
    crc32 (lastSegment.data ++ ([28, 2, 0, 0, 0, 0, 0, 0].drop 4 : List Byte)) = lastSegment.crc ∧ lastSegment.expect = 0
    ∧ lastSegment.data.length = field [28, 2, 0, 0, 0, 0, 0, 0] 0 4
    ∧ (live.writeFault .host 0x9001 1 544 true).isOk = true
    ∧ (live.writeDomain 0x9001 (List.replicate 544 0)).isOk = true :=
  ⟨rfl, rfl, by decide +kernel, by decide +kernel, by decide +kernel⟩

theorem witness_settings :
    goodB live .link (fr 0x2002 1 (leBytes 4 1)) = true
    ∧ gives (.resetReq .link (fr 0x2002 1 (leBytes 4 1))) live (fun t => decide (t.rst.acting = [⟨7, 100000000, 0⟩])) = true
    ∧ gives (.alertAck .host (fr 0x2003 2 (leBytes 4 0x10))) { live with dict := { alertLatched := 0x31 } }
        (fun t => told 0 [] t && decide (t.dict.alertLatched = 0x21)) = true
    ∧ gives (.claim .host (fr 0x2010 1 [2])) live (fun t => told 0 [] t && decide (tabGetD t.bus.claims 0 0 = 2)) = true
    ∧ gives (.claim .host (fr 0x2010 1 [0])) { live with bus := { claims := [(0, 2)] } }
        (fun t => told 0 [] t && decide (tabGetD t.bus.claims 0 0 = 0)) = true
    ∧ goodB live .host (fr 0x2004 1 (leBytes 4 1)) = true
    ∧ gives (.store .host (fr 0x2004 1 (leBytes 4 1))) live (fun t => told 0 [] t && decide (t.keep.ops.map (·.code) = [6])) = true
    ∧ tells (.store .host (fr 0x2004 1 (leBytes 4 1))) { live with keep := { ops := [⟨6, []⟩] } } (abStatus St.busy) = true
    ∧ gives (.restoreDefault .host (fr 0x2004 2 (leBytes 4 8))) { live with dict := { vals := [(dictKey 0x2100 1, 500), (dictKey 0x5001 1, 9000)] } }
        (fun t => told 0 [] t && decide (t.setting 0x2100 1 = 1000 ∧ t.setting 0x5001 1 = 9000)) = true
    ∧ tells (.restoreDefault .host (fr 0x2004 2 (leBytes 4 8))) { live with bus := { claims := [(3, 1)] } } abClaimedByOther = true
    ∧ gives (.hostLossMs .host (fr 0x2100 1 (leBytes 4 60000))) live (fun t => told 0 [] t
        && decide (t.setting 0x2100 1 = 60000 ∧ t.mgc.beatBase = 100000000)) = true
    ∧ gives (.linkLossMs .host (fr 0x2100 3 (leBytes 4 0))) live (fun t => told 0 [] t && decide (t.bus.goodAt = 100000000)) = true
    := by decide +kernel

theorem witness_partition_reset :
    goodB live .host (fr 0x3000 6 (leBytes 4 1)) = true
    ∧ gives (.partitionReset .host (fr 0x3000 6 (leBytes 4 1))) live
        (fun t => told 0 [] t && decide ((t.part 0).state = .resetting ∧ (t.part 0).rstBusy = true)) = true
    ∧ gives (.partitionReset .host (fr 0x3000 6 (leBytes 4 1))) (live.updPart 0 (fun p => { p with state := .offline, mcCause := 4 }))
        (fun t => told 0 [] t && decide ((t.part 0).state = .resetting)) = true
    ∧ tells (.partitionReset .host (fr 0x3000 6 (leBytes 4 1))) (live.updPart 0 (fun p => { p with state := .busy })) (abStatus St.busy) = true
    ∧ tells (.partitionReset .host (fr 0x300F 6 (leBytes 4 1))) live (abStatus St.busy) = true
    ∧ tells (.partitionReset .host (fr 0x3000 6 (leBytes 4 1))) (live.updPart 0 (fun p => { p with resume := some ⟨0, 0, 0⟩ }))
        (abStatus St.busy) = true := by decide +kernel

/-- `live` with P0 in role 0 of instance 0 under a contract. -/
def contracted : State := { boundRole live with contracts := [(4, { inst := 0, req := ⟨1, 0, 1000000, 900000, 0, 600⟩ })] }

/-- Bank metadata of a bundle in bank `k` whose bundle CRC is 7, and a verify word for it; CONFIRMED or not. -/
def bankBytes : List Byte :=
  let b := leBytes 4 0x4B4E4142 ++ leBytes 4 544 ++ leBytes 4 7 ++ leBytes 16 1
  b ++ leBytes 4 (crc32 b).toNat
def verifyBytes : List Byte :=
  let b := leBytes 4 0x56524659 ++ leBytes 4 7 ++ leBytes 4 0
  b ++ leBytes 4 (crc32 b).toNat

/-- A selector copy that names bank 0. -/
def selectorBytes : List Byte :=
  let b := leBytes 4 0x53454C31 ++ leBytes 4 1 ++ leBytes 20 0
  b ++ leBytes 4 (crc32 b).toNat

/-- `live` with these bytes in the keep store. -/
def keeping (l : List (Nat × List Byte)) : State :=
  { live with keep := l.foldl (fun k e => k.doStep (.program e.1 e.2)) live.keep }

theorem witness_entries :
    gives (.enable .host (fr 0x3000 1 [0])) live (fun t => told 0 [] t && decide ((t.part 0).enabled = false)) = true
    ∧ tells (.enable .host (fr 0x3000 1 [0])) contracted (abStatus St.contractBound) = true
    ∧ gives (.enable .host (fr 0x300F 1 [1])) live (fun t => told 0 [] t && decide ((t.part 15).enabled = true)) = true
    ∧ gives (.retire .host (fr 0x3000 7 [1])) live (fun t => told 0 [] t && decide ((t.part 0).retired = true)) = true
    ∧ gives (.retire .host (fr 0x3000 7 [0])) (live.updPart 0 (fun p => { p with retired := true }))
        (fun t => told 0 [] t && decide ((t.part 0).retired = false)) = true
    ∧ gives (.retire .host (fr 0x3000 7 [0])) live (told 0 []) = true
    ∧ tells (.retire .host (fr 0x3000 7 [1])) (contracted.updInst 0 (fun i => { i with owned := 1 })) (abStatus St.contractBound) = true
    ∧ gives (.privShareMbps .host (fr 0x4001 6 (leBytes 4 2000))) live (fun t => told 0 [] t
        && decide ((t.inst 1).limits.privShare = 2000 ∧ t.setting 0x4001 6 = 2000)) = true
    ∧ tells (.privShareMbps .host (fr 0x4001 6 (leBytes 4 68264))) live (abStatus St.shareSum) = true
    ∧ tells (.privShareMbps .host (fr 0x4001 6 (leBytes 4 1))) (with1 (fun i => { i with state := .frozen })) (abStatus St.instanceState) = true
    ∧ gives (.powerStateReq .host (fr 0x5000 1 [1])) live (fun t => told 0 [] t && decide (t.pwr.target = some 1)) = true
    ∧ gives (.powerStateReq .host (fr 0x5000 1 [0])) live (fun t => told 0 [] t && decide (t.pwr.target = none)) = true
    ∧ tells (.powerStateReq .host (fr 0x5000 1 [2])) contracted (abStatus St.powerContract) = true
    ∧ gives (.budgetMw .host (fr 0x5001 1 (leBytes 4 1500))) live (fun t => told 0 [] t && decide (t.setting 0x5001 1 = 1500)) = true
    := by decide +kernel

theorem witness_updates :
    tells (.verify .host (fr 0x9001 2 (leBytes 4 1))) live (abStatus St.updateState) = true
    ∧ (keeping [(ksMeta 0, bankBytes)]).bankState 0 = 1
    ∧ gives (.verify .host (fr 0x9001 2 (leBytes 4 1))) (keeping [(ksMeta 0, bankBytes)])
        (fun t => told 0 [] t && decide (t.keep.ops.map (·.code) = [2])) = true
    ∧ (keeping [(ksMeta 0, bankBytes), (ksMeta 0 + 0x100, verifyBytes)]).bankState 0 = 2
    ∧ gives (.activate .host (fr 0x9001 3 (leBytes 4 1))) (keeping [(ksMeta 0, bankBytes), (ksMeta 0 + 0x100, verifyBytes)])
        (fun t => told 0 [] t && decide (t.keep.ops.map (·.code) = [3])) = true
    ∧ tells (.activate .host (fr 0x9001 3 (leBytes 4 1))) (keeping [(ksMeta 0, bankBytes)]) (abStatus St.updateState) = true
    ∧ gives (.confirm .host (fr 0x9001 4 (leBytes 4 1)))
        { keeping [(ksMeta 0, bankBytes), (ksMeta 0 + 0x100, verifyBytes), (ksSelector 1, selectorBytes)] with cal := { activeBank := 0 } }
        (fun t => told 0 [] t && decide (t.keep.ops.map (·.code) = [4])) = true
    ∧ tells (.confirm .host (fr 0x9001 4 (leBytes 4 1))) live (abStatus St.updateState) = true
    ∧ tells (.confirm .host (fr 0x9001 4 (leBytes 4 1))) { live with keep := { ops := [⟨1, []⟩] } } (abStatus St.busy) = true
    ∧ tells (.verify .host (fr 0x9001 2 (leBytes 4 1))) { live with keep := { fitted := false } } (abStatus St.keepStoreFail) = true
    := by decide +kernel

/-- A READ of 0x2100:01 as bytes, its CRC good or not. -/
def readBytes (good : Bool) : List Byte :=
  let b := leBytes 1 ocRead ++ leBytes 1 5 ++ leBytes 2 0x2100 ++ leBytes 1 1 ++ leBytes 3 0
  b ++ leBytes 2 ((crc16 b).toNat + if good then 0 else 1)

/-- A tunnel message with these bytes. -/
def tunnel (n : Nat) : MsgHdr := { msg := kDictTunnel.code, cells := 1, seq := 9, target := 0, len := n, cookie := 0 }

/-- The link's data after a CCC. -/
def busGives (c : Instr) (s : State) (d : List Byte) : Bool := gives c s (fun t => decide (t.bus.busOut = d))

/-- The management link addressed dynamically; in an HDR period. -/
def addressed : State := { live with bus := { dynAddr := some 0x21 } }
def inHdr : State := { live with bus := { hdr := true } }

theorem witness_bus :
    live.busOn = true ∧ inHdr.busOn = false
    ∧ gives .enec live (fun t => decide (t.bus.ibiEnabled = true)) = true
    ∧ gives .disec { live with bus := { ibiEnabled := true } } (fun t => decide (t.bus.ibiEnabled = false)) = true
    ∧ gives .rstdaa addressed (fun t => decide (t.bus.dynAddr = none)) = true
    ∧ gives (.setdasa 0x11) live (fun t => decide (t.bus.dynAddr = some 0x11)) = true
    ∧ gives (.entdaa 0x11) live (fun t => decide (t.bus.dynAddr = some 0x11)) = true
    ∧ gives (.setnewda 0x12) addressed (fun t => decide (t.bus.dynAddr = some 0x12)) = true
    ∧ idle (.setnewda 0x12) live = true ∧ idle (.setdasa 0x12) addressed = true
    ∧ busGives .getBcr live [6] = true ∧ busGives .getDcr live [0] = true ∧ busGives .getMwl live [0, 0x6A] = true
    ∧ busGives .getMrl live [0, 0x6F, 1] = true ∧ gives .getPid live (fun t => decide (t.bus.busOut.length = 6)) = true
    ∧ gives .getStatus live (fun t => decide (t.bus.busOut.length = 2)) = true
    ∧ gives .i3cBroadcastAddress live (fun t => decide (t.bus.spikeFilter = false)) = true
    ∧ gives .hdrEntry live (fun t => decide (t.bus.hdr = true)) = true
    ∧ gives .hdrExitPattern inHdr (fun t => decide (t.bus.hdr = false)) = true
    ∧ idle .getPid inHdr = true ∧ idle (.requestFrameError (readBytes false)) inHdr = true
    ∧ gives (.requestFrameError (readBytes false)) live (fun t => decide (field t.bus.response 8 4 = abFrameCrc.toNat)) = true
    ∧ gives (.requestFrameError [1]) live (fun t => decide (field t.bus.response 8 4 = abFrameLength.toNat)) = true
    ∧ gives (.requestFrameError (readBytes true)) live (fun t => decide (field t.bus.response 12 4 = 1000)) = true := by decide +kernel

theorem witness_tunnel_and_keep_store :
    acceptedB live 0 (tunnel 10) (readBytes true) kDictTunnel = true
    ∧ gives (.dictTunnel 0 (tunnel 10) (readBytes true)) live (fun t => replied 0 St.ok t && decide (replyField t 0 44 4 = 1000)) = true
    ∧ gives (.dictTunnel 0 (tunnel 10) (readBytes false)) live (fun t => replied 0 St.ok t
        && decide (replyField t 0 40 4 = abFrameCrc.toNat)) = true
    ∧ answers (.dictTunnel 0 (tunnel 9) ((readBytes true).take 9)) live 0 St.badField = true
    ∧ gives .mgmtLinkLost { live with dict := { vals := [(dictKey 0x2100 3, 100), (dictKey 0x2100 4, 1)] }, bus := { claims := [(0, 1), (1, 2)] } }
        (fun t => decide (t.bus.lost = true ∧ tabGetD t.bus.claims 0 0 = 0 ∧ tabGetD t.bus.claims 1 0 = 2)) = true
    ∧ idle .mgmtLinkLost { live with dict := { vals := [(dictKey 0x2100 3, 101)] } } = true
    ∧ idle (.keepStoreOpDone true 0) live = true
    ∧ gives (.keepStoreOpDone true 0) { live with keep := { ops := [⟨5, [.erase 0x1000, .program 0x1000 [1, 2]]⟩], torn := [1] } }
        (fun t => decide (t.keep.ops = [] ∧ t.keep.torn = [] ∧ t.readKeep 0x1001 = 2 ∧ t.cal.written = true)) = true
    ∧ gives (.keepStoreOpDone false 0x1000) { live with keep := { ops := [⟨6, [.erase 0x1000]⟩] } }
        (fun t => decide (t.keep.torn = [1] ∧ tabGetD t.dict.cmdResult (dictKey 0x2004 1) 0 = abStatus St.keepStoreFail)) = true := by decide +kernel

-- The host link and power ----------------------------------------------------------------------------------------------------------------

/-- One host read outstanding under tag 5 for function 1, sent at 99.9 ms, through ATC page 7 or none. -/
def reading (marked : Bool) (pg : Option Nat) : State :=
  { live with link := { live.link with
      outstanding := [(5, { fn := 1, pkt := hostRd, sentAt := 98000000, marked := marked, page := pg })]
      atc := [(atcKey 1 7, 9)]
      atsPending := [(1, 7)] } }

/-- `live` with 32 ATS invalidations not yet completed. -/
def fullAts : State := { live with link := { live.link with atsPending := List.replicate 32 (1, 7) } }

theorem witness_functions :
    gives (.flr 1) live (fun t => decide (t.rst.acting = [⟨6, 100000000, 1⟩] ∧ t.func 1 = {})) = true
    ∧ idle (.flr 5) live = true ∧ idle (.d3hotEntry 5) live = true ∧ idle (.d0Return 5) live = true
    ∧ gives (.d3hotEntry 1) live (fun t => decide ((t.func 1).d3hot = true ∧ (t.queue 0).map (·.heldD3) = some false)) = true
    ∧ gives (.d0Return 1) (live.updFunc 1 (fun f => { f with d3hot := true })) (fun t => decide ((t.func 1).d3hot = false)) = true
    ∧ gives (.d3hotEntry 0) live (fun t => decide (t.pwr.pf0D3 = true ∧ t.pwr.fabricGated = true ∧ (t.part 0).state = .gated
        ∧ (t.queue 0).map (·.heldD3) = some true)) = true
    ∧ gives (.d0Return 0) { (live.updFunc 0 (fun f => { f with d3hot := true })) with pwr := { pf0D3 := true } }
        (fun t => decide (t.pwr.pf0D3 = false ∧ (t.func 0).d3hot = false)) = true
    ∧ gives .vfEnableSet { live with link := { live.link with vfEnable := false } } (fun t => decide (t.link.vfEnable = true)) = true
    ∧ gives .vfEnableClear live (fun t => decide (t.link.vfEnable = false ∧ t.link.numVfs = 4 ∧ t.func 1 = {})) = true
    ∧ gives (.numVfsWrite 32) live (fun t => decide (t.link.numVfs = 32)) = true
    ∧ idle (.numVfsWrite 0) live = true ∧ idle (.numVfsWrite 33) live = true
    ∧ gives (.atsInvalidate 1 7) (reading false none) (fun t => decide (t.link.atc = [] ∧ (1, 7) ∈ t.link.atsPending)) = true
    ∧ gives (.atsInvalidateComplete 1 7) (reading false none) (fun t => decide (t.link.atsPending = [] ∧ t.link.posted = [.atsDone 1 7])) = true
    ∧ idle (.atsInvalidateComplete 1 7) (reading false (some 7)) = true ∧ idle (.atsInvalidate 1 8) fullAts = true := by decide +kernel

/-- `live` with a translation request of a host write of function 1 outstanding under tag 5. -/
def translating : State :=
  { live with link := { live.link with
      outstanding := [(5, { fn := 1, pkt := hostWr, sentAt := 98000000, xlat := some { pkt := { hostWr with inst := 1 }, data := [7, 7], write := true } })] } }

theorem witness_completions_and_link :
    gives (.hostCompletion 4 0 false []) (reading false none) (fun t => decide ((t.func 0).aerUnc.getLsbD 16 = true)) = true
    ∧ gives (.hostCompletion 5 0 false [1, 2, 3, 4]) (reading false none) (fun t => decide (t.link.outstanding = [])) = true
    ∧ gives (.hostCompletion 5 0 false [2, 0, 0, 0, 0, 0, 0, 0]) translating (fun t => decide (t.link.outstanding = []
        ∧ tabGet t.link.atc (atcKey 1 1) = some 0)) = true
    ∧ gives (.hostCompletion 5 0 false [1, 0, 0, 0, 0, 0, 0, 0]) translating (fun t => decide (t.link.outstanding = []
        ∧ tabGet t.link.atc (atcKey 1 1) = none)) = true
    ∧ gives (.hostCompletion 5 0 false [1, 2, 3, 4]) (reading true none) (fun t => decide (t.link.outstanding = [] ∧ t.net = live.net)) = true
    ∧ idle (.hostCompletion 5 0 false []) { live with link := { up := false } } = true
    ∧ idle (.hostCplTimeout 5) { reading false none with clk := { devtime := 99999999 } } = true
    ∧ gives (.hostCplTimeout 5) (reading false none) (fun t => decide (t.link.outstanding = []
        ∧ (t.func 0).aerUnc.getLsbD 14 = true)) = true
    ∧ gives .hotReset live (fun t => decide (t.rst.acting = [⟨3, 100000000, 0⟩])) = true
    ∧ gives .linkRetrain live (fun t => decide ((t.func 0).aerCor.getLsbD 8 = true)) = true
    ∧ idle .hotReset { live with link := { up := false } } = true
    ∧ gives (.linkActive 6 16 2) { live with link := {} } (fun t => decide (t.link.up = true ∧ t.link.speed = 6 ∧ t.link.width = 16
        ∧ t.link.ucieVer = 2 ∧ t.link.cfgReady = true)) = true
    ∧ idle (.linkActive 7 16 2) { live with link := {} } = true
    ∧ idle (.linkActive 6 16 2) { live with rst := { phase := .hold, level := 1 }, link := {} } = true := by decide +kernel

/-- With nothing outstanding and nothing posted no message is cut. -/
theorem linkDown_quiet (s : State) (hu : s.link.up = true) (ho : s.link.outstanding = []) (hp : s.link.posted = []) :
    execLinkDown false s = .next ((({ s.useFree with link := { s.link with posted := [] } } : State).linkLost.repend []).actSource 3 0) := by
  unfold execLinkDown
  rw [hu, ho]
  simp only [List.foldl_nil, hp, List.drop_nil, List.take_nil, Bool.not_true, Bool.false_eq_true, Bool.false_and, if_false]

theorem witness_link_down :
    gives (.linkDown false) live (fun t => decide (t.link.up = false ∧ t.link.outstanding = [] ∧ t.link.downCount = 1
      ∧ t.rst.acting = [⟨3, 100000000, 0⟩])) = true := by
  show (match execLinkDown false live with
    | .next t => decide (t.link.up = false ∧ t.link.outstanding = [] ∧ t.link.downCount = 1
      ∧ t.rst.acting = [⟨3, 100000000, 0⟩])
    | .fault _ => false
    | .refused _ => false) = true
  rw [linkDown_quiet live rfl rfl rfl]
  decide +kernel

theorem witness_link_l2 :
    gives (.linkDown true) (live.updFunc 0 (fun f => { f with d3hot := true }))
        (fun t => decide (t.link.l2 = true ∧ t.link.up = false ∧ t.rst.acting = [] ∧ t.link.downCount = 0)) = true
    ∧ gives (.linkActive 6 16 2) { live with link := { l2 := true }, pins := { wakeN := false } }
        (fun t => decide (t.link.l2 = false ∧ t.link.up = true ∧ t.pins.wakeN = true)) = true := by decide +kernel

/-- `live` with P0 changed; with the power state and the request. -/
def part0 (f : Part → Part) : State := live.updPart 0 f
def powered (st : Nat) (tg : Option Nat) : State := { live with pwr := { pstate := st, target := tg } }

theorem witness_power :
    idle .powerStateTransitionDone live = true
    ∧ gives .powerStateTransitionDone (powered 0 (some 2)) (fun t => decide (t.pwr.pstate = 2 ∧ t.pwr.target = none
        ∧ t.pwr.fabricGated = true ∧ (t.part 0).state = .gated)) = true
    ∧ idle .powerStateTransitionDone { onP0 id id with pwr := { target := some 2 } } = true
    ∧ gives .fabricClockRegate { live with pwr := { pstate := 2, lastFabric := 99000000 } } (fun t => decide (t.pwr.fabricGated = true)) = true
    ∧ idle .fabricClockRegate { live with pwr := { pstate := 2, lastFabric := 99000001 } } = true
    ∧ gives (.partitionIdleGate 0) (part0 (fun p => { p with idleSince := 90000000 })) (fun t => decide ((t.part 0).state = .gated)) = true
    ∧ idle (.partitionIdleGate 0) (part0 (fun p => { p with idleSince := 90000001 })) = true
    ∧ gives (.partitionUngateDone 3) { live with insts := [(0, { activeInst with bind := [(0, 0x80008)] })] }
        (fun t => decide ((t.part 3).state = .idle ∧ (t.part 3).clkMhz = 300 ∧ (t.part 3).ldoMv = 550 ∧ t.nodeGen 3 0 = 1)) = true
    ∧ idle (.partitionUngateDone 3) live = true
    ∧ gives (.railLow 0 600) live (fun t => decide ((t.cluster 0).railLow = true ∧ (t.cluster 0).railCap = some 0)) = true
    ∧ gives (.railLow 0 615) live (fun t => decide ((t.cluster 0).railCap = some 1)) = true
    ∧ gives (.railLowClear 0) { live with clusters := [(0, { railLow := true, railCap := some 1 })] }
        (fun t => decide ((t.cluster 0).railLow = false ∧ (t.cluster 0).railCap = none)) = true
    ∧ gives (.ldoSettled 0) (part0 (fun p => { p with stepWanted := some 2 })) (fun t => decide ((t.part 0).step = 2
        ∧ (t.part 0).clkMhz = 350 ∧ (t.part 0).ldoMv = 580 ∧ (t.part 0).stepWanted = none)) = true
    ∧ idle (.ldoSettled 0) live = true
    ∧ gives (.voltageTrim 0 true) (part0 (fun p => { p with trimMv := 48, trimAt := 99990000 })) (fun t => decide ((t.part 0).trimMv = 50)) = true
    ∧ idle (.voltageTrim 0 true) (part0 (fun p => { p with trimAt := 99990001 })) = true
    ∧ gives (.readAssistStep 0 15 7) { live with cal := { valid := true, record := List.replicate 4096 0 } }
        (fun t => decide (t.assist 0 15 = 7 ∧ t.assist 0 14 = 0)) = true
    ∧ idle (.readAssistStep 0 15 7) live = true
    ∧ gives (.criticalPathMonitorReport 0 750) live (fun t => decide ((t.part 0).stretched = 750 ∧ (t.part 0).boosts = 0)) = true
    ∧ gives (.criticalPathMonitorReport 0 751) live (fun t => decide ((t.part 0).stretched = 750 ∧ (t.part 0).boosts = 1
        ∧ (t.part 0).ldoMv = 575)) = true
    ∧ idle (.criticalPathMonitorReport 3 9) live = true := by decide +kernel

/-- 24 samples of one temperature, in tenths of a degree. -/
def temps (v : Int) : List Int := List.replicate 24 v

theorem witness_thermal_cap_telemetry :
    gives (.thermalSample (temps 1100)) live (fun t => decide (t.pwr.tripped = false ∧ t.pwr.lastHot = true)) = true
    ∧ gives (.thermalSample (temps 1100)) { live with pwr := { lastHot := true } } (fun t => decide (t.pwr.tripped = true
        ∧ t.pins.thermTripN = false ∧ t.rst.acting = [⟨11, 100000000, 0⟩])) = true
    ∧ gives (.thermalSample (temps 999)) { live with pwr := { tripped := true }, pins := { thermTripN := false } }
        (fun t => decide (t.pwr.tripped = false ∧ t.pins.thermTripN = true)) = true
    ∧ gives (.thermalSample (temps 1000)) { live with pwr := { tripped := true } } (fun t => decide (t.pwr.tripped = true)) = true
    ∧ idle (.thermalSample [0]) live = true
    ∧ gives .thermalEvaluate { live with pwr := { sensors := temps 1000 } } (fun t => decide ((t.cluster 0).ceiling = 1400)) = true
    ∧ gives .thermalEvaluate { live with pwr := { sensors := temps 950 } } (fun t => decide ((t.cluster 0).ceiling = 1550)) = true
    ∧ gives .thermalEvaluate { live with pwr := { sensors := temps 921 }, clusters := [(1, { ceiling := 800 })] }
        (fun t => decide ((t.cluster 1).ceiling = 800)) = true
    ∧ gives .thermalEvaluate { live with pwr := { sensors := temps 920 }, clusters := [(1, { ceiling := 800 })] }
        (fun t => decide ((t.cluster 1).ceiling = 825)) = true
    ∧ gives (.pwrCapNFall 50) live (fun t => decide (t.pins.pwrCapN = false)) = true ∧ idle (.pwrCapNFall 19) live = true
    ∧ gives .pwrCapNRise { live with pins := { pwrCapN := false } } (fun t => decide (t.pins.pwrCapN = true)) = true
    ∧ idle .pwrCapNRise live = true
    ∧ gives (.telemetryUpdate (List.range 40)) live (fun t => decide (t.pwr.energy = 39 ∧ t.telemetry 0x24 = 2 ∧ t.telemetry 0x184 = 7)) = true
    ∧ idle (.telemetryUpdate []) live = true
    ∧ gives .dictRefresh live (fun t => decide (tabGet t.dict.mirror (dictKey 0x3000 4) = live.mirrored 0x3000 4)) = true
    ∧ gives .contractLogRead { live with fep := { log := [⟨4, true, 0, 0, 0⟩] } } (fun t => decide (t.fep.log = [])) = true
    ∧ idle .dictRefresh (withFw .loadWait) = true := by decide +kernel

-- Resets, pins and recovery -----------------------------------------------------------------------------------------------------------------

/-- `live` with a reset source that has acted. -/
def acting (src arg : Nat) : State := withActing live src arg

theorem witness_wide_resets :
    live.levelOf 2 = 1 ∧ live.levelOf 1 = 0
    ∧ gives .l1Reset (acting 2 0) (fun t => decide (t.rst.phase = .hold ∧ t.rst.level = 1 ∧ t.queues = [] ∧ t.mem.cells = []
        ∧ t.link.up = false ∧ t.clk = live.clk ∧ tabGetD t.rst.counts 1 0 = 1)) = true
    ∧ gives .l1Reset { acting 2 0 with rst := { (acting 2 0).rst with map := [(2, 0)] } }
        (fun t => decide (t.rst.level = 0 ∧ t.clk.alive = false)) = true
    ∧ idle .l1Reset live = true
    ∧ gives (.pwrGoodFall 5000) live (fun t => decide (t.pins.pwrGood = false ∧ t.rst.phase = .hold ∧ t.rst.level = 0)) = true
    ∧ idle (.pwrGoodFall 999) live = true ∧ idle (.pwrGoodFall 9999) { live with pins := { pwrGood := false } } = true
    ∧ gives .refclkLoss live (fun t => decide (t.clk.refclk = false ∧ t.rst.phase = .hold)) = true
    ∧ idle .refclkLoss { live with clk := { refclk := false } } = true
    ∧ gives (.rstNAssert 10000) live (fun t => decide (t.pins.rstN = false ∧ t.rst.acting = [⟨2, 100000000, 0⟩])) = true
    ∧ idle (.rstNAssert 999) live = true
    ∧ gives (.perstNAssert 10000) { live with pins := { modeP := true } }
        (fun t => decide (t.pins.perstN = false ∧ t.rst.acting = [⟨4, 100000000, 0⟩])) = true
    ∧ idle (.perstNAssert 10000) live = true
    ∧ gives .pwrGoodRise { live with pins := { pwrGood := false }, rst := { phase := .hold, level := 0 } }
        (fun t => decide (t.pins.pwrGood = true ∧ t.rst.phase = .l0Exiting)) = true
    ∧ gives .refclkRestored { live with clk := { refclk := false } } (fun t => decide (t.clk.refclk = true ∧ t.rst.phase = .none)) = true
    ∧ gives .resetHoldEnd { live with rst := { phase := .hold, level := 1, source := 12, startedAt := 99980000 } }
        (fun t => decide (t.rst.phase = .l1Exiting)) = true
    ∧ idle .resetHoldEnd { live with rst := { phase := .hold, level := 1, source := 12, startedAt := 99980001 } } = true
    ∧ gives .resetHoldEnd { live with rst := { phase := .hold, level := 0, source := 1, startedAt := 100000000 } }
        (fun t => decide (t.rst.phase = .l0Exiting)) = true
    ∧ idle .resetHoldEnd live = true := by decide +kernel

theorem witness_exits :
    gives (.l1Exit 0) { live with rst := { phase := .l1Exiting, level := 1 } } (fun t => decide (t.rst.phase = .none ∧ t.mem.rate = 6400
        ∧ t.mem.capGiB = 8)) = true
    ∧ gives (.l1Exit 1) { part0 id with rst := { phase := .l1Exiting, level := 1 } }
        (fun t => decide ((t.part 0).state = .offline ∧ (t.part 0).mcCause = 5)) = true
    ∧ idle (.l1Exit 0) live = true
    ∧ gives .memoryTrained { live with mem := {} } (fun t => decide (t.mem.trained = true)) = true
    ∧ gives .deviceRegionFilled { live with mem := { trained := true }, link := { up := true } }
        (fun t => decide (t.mem.regionFilled = true ∧ t.link.cfgReady = true)) = true
    ∧ idle .deviceRegionFilled live = true
    ∧ idle .memoryTrained { live with rst := { phase := .hold, level := 1 }, mem := {} } = true := by decide +kernel

/-- RST_N low, and the boundary register preloaded. -/
def underReset : State := { live with pins := { rstN := false }, tap := { boundary := 5 } }

theorem witness_test_port :
    gives .extest underReset (fun t => decide (t.tap.ir = 0 ∧ t.pinControl = .boundary 5)) = true
    ∧ gives .clamp underReset (fun t => decide (t.tap.ir = 3 ∧ t.pinControl = .boundary 5)) = true
    ∧ gives .highz underReset (fun t => decide (t.pinControl = .highZ)) = true
    ∧ gives .highz live (fun t => decide (t.pinControl = .functions ∧ t.tapReg = .bypass)) = true
    ∧ gives .tapReset underReset (fun t => decide (t.tapReg = .idcode)) = true ∧ gives .idcode live (fun t => decide (t.tap.ir = 2)) = true
    ∧ gives .bypass live (fun t => decide (t.tap.ir = 15)) = true
    ∧ gives (.samplePreload 3 9) live (fun t => decide (t.tap = { ir := 1, boundary := 9, captured := 3 })) = true := by decide +kernel

theorem witness_subindices :
    gives (.read .host (fr 0x1000 0 [])) live (told 0 [17]) = true
    ∧ tells (.write .host (fr 0x1000 0 [1])) live abPathDenied = true
    ∧ tells (.read .host (fr 0x3005 11 [])) live abNoSubindex = true ∧ tells (.write .host (fr 0x4021 1 [1])) live abNoIndex = true
    ∧ (entriesAt 0x300F).isSome = true ∧ (entriesAt 0x4020).isSome = true ∧ (entriesAt 0x4021).isNone = true := by decide +kernel

/-- `live` in a phase of an L2 reset that source 10 began at 99.96 ms. -/
def inL2 (ph : RstPhase) : State := { live with rst := { phase := ph, level := 2, source := 10, startedAt := 99960000 } }

theorem witness_narrow_resets :
    live.levelOf 6 = 3 ∧ live.levelOf 10 = 2
    ∧ gives (.l3Reset 1) (acting 6 1) (fun t => decide ((t.inst 1).state = .active ∧ (t.inst 1).gen = 2 ∧ t.rst.acting = [])) = true
    ∧ idle (.l3Reset 1) live = true ∧ idle (.l3Reset 1) { acting 6 1 with rst := { (acting 6 1).rst with phase := .l2Preempt } } = true
    ∧ gives (.l5ResetDone 0 true true) (part0 (fun p => { p with state := .resetting, rstBusy := true }))
        (fun t => decide ((t.part 0).state = .idle ∧ (t.part 0).rstBusy = false ∧ tabGetD t.rst.counts 5 0 = 1)) = true
    ∧ gives (.l5ResetDone 0 true false) (part0 (fun p => { p with state := .resetting }))
        (fun t => decide ((t.part 0).state = .offline ∧ (t.part 0).mcCause = 6)) = true
    ∧ gives (.l5ResetDone 0 false true) (part0 (fun p => { p with state := .resetting })) (fun t => decide ((t.part 0).mcCause = 5)) = true
    ∧ idle (.l5ResetDone 0 true true) live = true
    ∧ gives .l2Reset (acting 10 0) (fun t => decide (t.rst.phase = .l2Preempt ∧ t.rst.lastLevel = 2 ∧ tabGetD t.rst.counts 2 0 = 1)) = true
    ∧ idle .l2Reset live = true ∧ idle (.l2PreemptDeadline true true) live = true
    ∧ idle (.l2PreemptDeadline true true) { inL2 .l2Preempt with clk := { devtime := 99999999 } } = true
    ∧ gives (.l2PreemptDeadline true true) (inL2 .l2Preempt) (fun t => decide (t.rst.phase = .l2Stopped ∧ t.net.reqs = []
        ∧ t.fep.upsets = [] ∧ t.cal.seqBad = false)) = true
    ∧ gives (.l2PreemptDeadline true false) (inL2 .l2Preempt) (fun t => decide (t.cal.seqBad = true
        ∧ (t.part 0).state = .offline ∧ (t.part 0).mcCause = 6)) = true
    ∧ gives (.l5ResetDone 0 true true) { part0 (fun p => { p with state := .resetting }) with cal := { seqBad := true } }
        (fun t => decide ((t.part 0).state = .offline ∧ (t.part 0).mcCause = 6)) = true
    ∧ gives .l2Rebuild (inL2 .l2Stopped) (fun t => decide (t.rst.phase = .none ∧ t.fep.stopped = false)) = true
    ∧ gives .l2Rebuild { inL2 .l2Stopped with fep := { halted := true, stopped := true } } (fun t => decide (t.rst.phase = .none ∧ t.fep.stopped = true)) = true
    ∧ idle .l2Rebuild live = true := by decide +kernel

theorem witness_fep_errors :
    gives (.controlStoreError 9 3 3) live (fun t => decide (t.fep.stopped = true ∧ t.fep.mcCause = 1 ∧ t.rst.acting = [⟨10, 100000000, 0⟩])) = true
    ∧ gives (.controlStoreError 9 3 3) { live with fep := { lastRecovered := some (9, 90000001) } }
        (fun t => decide (t.fep.halted = true ∧ t.fep.mcCause = 5 ∧ t.rst.acting = [])) = true
    ∧ gives (.controlStoreError 9 3 3) { live with fep := { lastRecovered := some (9, 90000000) }, clk := { devtime := 10090000000 } }
        (fun t => decide (t.fep.halted = false)) = true
    ∧ idle (.controlStoreError 9 3 3) { live with fep := { stopped := true } } = true
    ∧ gives (.fepHangWatchdog false 3 9) live (fun t => decide (t.fep.mcCause = 2 ∧ t.fep.mcAddr = 9 ∧ t.rst.acting = [⟨9, 100000000, 0⟩])) = true
    ∧ gives (.fepHangWatchdog true 3 9) live (fun t => decide (t.fep.mcCause = 3 ∧ t.freeCount = 1)) = true
    ∧ gives (.controlStoreError 9 3 0) live (fun t => decide (t.fep.stopped = false ∧ t.fep.ceCount = 0)) = true
    ∧ gives (.controlStoreError 9 3 4) live (fun t => decide (t.fep.stopped = false ∧ t.fep.ceCount = 1 ∧ t.fep.upsets = [])) = true
    ∧ gives (.scrub 0 true) live (fun t => decide (t.fep.scrubPtr = 1 ∧ t.fep.ceCount = 0)) = true
    ∧ gives (.scrub 1 true) live (fun t => decide (t.fep.ceCount = 1)) = true
    ∧ gives (.scrub 3 true) live (fun t => decide (t.fep.repaired = 1 ∧ t.fep.upsets = [])) = true
    ∧ gives (.scrub 3 false) live (fun t => decide (t.fep.mcCause = 4 ∧ t.fep.bufferBad = true ∧ t.fep.stopped = true)) = true
    ∧ gives (.scrub 3 true) { live with fep := { bufferBad := true } } (fun t => decide (t.fep.mcCause = 4)) = true := by decide +kernel

theorem witness_memory_frame :
    mayWriteMemory .linkRetrain = false ∧ mayWriteMemory (.wr wrPkt [] okDma) = true
    ∧ gives .linkRetrain (live.writePriv 0x50000000 [9]) (fun t => decide (t.readPriv 0x50000000 = 9)) = true := by decide +kernel

end Sys2Proof.Tests
end

section
/-! PROOFS. The commands' frame on the view of a state, taken together over the dispatch, and the statements of 00 that
follow from it. -/

namespace Sys2Proof.Proofs
open Sys2Proof Sys2Proof.Machine Sys2Proof.Safety Sys2Proof.Laws

-- One frame for every command ----------------------------------------------------------------------------------------

theorem keeps_of_view {s t : State} (h : view t = view s) : (view t).Keeps s := h ▸ keeps_self s

/-- The dispatch read as a frame: each arm cites the law of its command, `view_` for one that leaves the view alone and
`keeps_` for one that may write a byte memory, a timeout or the link's fields. Only the L0 exit sets DEVTIME and the host
mode (00 R4, R10). -/
theorem exec_keeps_of_ne_l0Exit {s t : State} :
    ∀ c : Instr, c ≠ .l0Exit → exec c s = .next t → (view t).Keeps s
  | .registerWrite .., _, h => keeps_execRegisterWrite _ _ _ _ _ _ (keeps_self s) h
  | .doorbellWrite .., _, h => keeps_execDoorbellWrite _ _ _ _ (keeps_self s) h
  | .doorbell .., _, h => keeps_of_view (view_execDoorbell _ _ _ _ _ h)
  | .heartbeatWrite .., _, h => keeps_of_view (view_execHeartbeatWrite _ _ h)
  | .fwBegin, _, h => keeps_of_view (view_execFwBegin _ h)
  | .fwCommit, _, h => keeps_of_view (view_execFwCommit _ h)
  | .fwVerifyDone, _, h => keeps_of_view (view_execFwVerifyDone _ h)
  | .swReset .., _, h => keeps_execSwReset _ _ (keeps_self s) h
  | .abortQueue .., _, h => keeps_of_view (view_execAbortQueue _ _ _ _ h)
  | .abortInstance .., _, h => keeps_of_view (view_execAbortInstance _ _ _ h)
  | .mmuInvalidateRange .., _, h => keeps_of_view (view_execMmuInvalidateRange _ _ _ h)
  | .mmuInvalidateAll .., _, h => keeps_of_view (view_execMmuInvalidateAll _ _ _ h)
  | .invalidationDone .., _, h => keeps_of_view (view_execInvalidationDone _ _ h)
  | .prbCtlWrite .., _, h => keeps_of_view (view_execPrbCtlWrite _ _ _ h)
  | .traceCtlWrite .., _, h => keeps_of_view (view_execTraceCtlWrite _ _ h)
  | .netTmoWrite .., _, h => keeps_execNetTmoWrite _ _ _ (keeps_self s) h
  | .emuWrite .., _, h => keeps_of_view (view_execEmuWrite _ _ _ _ h)
  | .emuWriteApply .., _, h => keeps_of_view (view_execEmuWriteApply _ _ h)
  | .emuRead .., _, h => keeps_of_view (view_execEmuRead _ _ _ _ h)
  | .shadowPublish .., _, h => keeps_of_view (view_execShadowPublish _ _ h)
  | .msixVectorUnmask .., _, h => keeps_of_view (view_execMsixVectorUnmask _ _ _ h)
  | .mailboxDoorbell .., _, h => keeps_of_view (view_execMailboxDoorbell _ _ _ h)
  | .nopMessage .., _, h => keeps_of_view (view_execNopMessage _ _ _ _ h)
  | .queueCreate .., _, h => keeps_of_view (view_execQueueCreate _ _ _ _ h)
  | .queueDestroy .., _, h => keeps_of_view (view_execQueueDestroy _ _ _ _ h)
  | .queueReset .., _, h => keeps_of_view (view_execQueueReset _ _ _ _ h)
  | .semSet .., _, h => keeps_execSemSet _ _ _ _ (keeps_self s) h
  | .graphRegister .., _, h => keeps_of_view (view_execGraphRegister _ _ _ _ _ h)
  | .graphRelease .., _, h => keeps_of_view (view_execGraphRelease _ _ _ _ h)
  | .graphQuery .., _, h => keeps_of_view (view_execGraphQuery _ _ _ _ h)
  | .contractAdmit .., _, h => keeps_of_view (view_execContractAdmit _ _ _ _ h)
  | .contractRelease .., _, h => keeps_of_view (view_execContractRelease _ _ _ _ h)
  | .contractQuery .., _, h => keeps_of_view (view_execContractQuery _ _ _ _ h)
  | .instanceInfo .., _, h => keeps_of_view (view_execInstanceInfo _ _ _ _ h)
  | .mailboxClose .., _, h => keeps_of_view (view_execMailboxClose _ _ _ _ h)
  | .instanceCreate .., _, h => keeps_of_view (view_execInstanceCreate _ _ _ _ h)
  | .instanceQuiesce .., _, h => keeps_execInstanceQuiesce _ _ _ _ (keeps_self s) h
  | .instanceRemove .., _, h => keeps_of_view (view_execInstanceRemove _ _ _ _ h)
  | .instanceReset .., _, h => keeps_execInstanceReset _ _ _ _ (keeps_self s) h
  | .partAssign .., _, h => keeps_of_view (view_execPartAssign _ _ _ _ h)
  | .partRevoke .., _, h => keeps_of_view (view_execPartRevoke _ _ _ _ h)
  | .roleBind .., _, h => keeps_of_view (view_execRoleBind _ _ _ _ h)
  | .roleUnbind .., _, h => keeps_of_view (view_execRoleUnbind _ _ _ _ h)
  | .freeze .., _, h => keeps_of_view (view_execFreeze _ _ _ _ h)
  | .freezeComplete .., _, h => keeps_of_view (view_execFreezeComplete _ _ h)
  | .freezeTimeout .., _, h => keeps_of_view (view_execFreezeTimeout _ _ h)
  | .save .., _, h => keeps_execSave _ _ _ _ (keeps_self s) h
  | .restore .., _, h => keeps_execRestore _ _ _ _ _ _ (keeps_self s) h
  | .thaw .., _, h => keeps_execThaw _ _ _ _ (keeps_self s) h
  | .attach .., _, h => keeps_execAttach _ _ _ _ (keeps_self s) h
  | .dictTunnel .., _, h => keeps_execDictTunnel _ _ _ _ (keeps_self s) h
  | .flr .., _, h => keeps_execFlr _ _ (keeps_self s) h
  | .vfEnableClear, _, h => keeps_execVfEnableClear _ (keeps_self s) h
  | .vfEnableSet, _, h => keeps_of_view (view_execVfEnableSet _ h)
  | .numVfsWrite .., _, h => keeps_of_view (view_execNumVfsWrite _ _ h)
  | .d3hotEntry .., _, h => keeps_of_view (view_execD3hotEntry _ _ h)
  | .d0Return .., _, h => keeps_of_view (view_execD0Return _ _ h)
  | .atsInvalidate .., _, h => keeps_of_view (view_execAtsInvalidate _ _ _ h)
  | .atsInvalidateComplete .., _, h => keeps_of_view (view_execAtsInvalidateComplete _ _ _ h)
  | .hostCompletion .., _, h => keeps_execHostCompletion _ _ _ _ _ (keeps_self s) h
  | .hostCplTimeout .., _, h => keeps_execHostCplTimeout _ _ (keeps_self s) h
  | .linkDown .., _, h => keeps_execLinkDown _ _ (keeps_self s) h
  | .hotReset, _, h => keeps_execHotReset _ (keeps_self s) h
  | .linkActive .., _, h => keeps_execLinkActive _ _ _ _ (keeps_self s) h
  | .pwrGoodRise, _, h => keeps_of_view (view_execPwrGoodRise _ h)
  | .pwrGoodFall .., _, h => keeps_execPwrGoodFall _ _ (keeps_self s) h
  | .rstNAssert .., _, h => keeps_execRstNAssert _ _ (keeps_self s) h
  | .perstNAssert .., _, h => keeps_execPerstNAssert _ _ (keeps_self s) h
  | .pwrCapNFall .., _, h => keeps_of_view (view_execPwrCapNFall _ _ h)
  | .pwrCapNRise, _, h => keeps_of_view (view_execPwrCapNRise _ h)
  | .refclkLoss, _, h => keeps_execRefclkLoss _ (keeps_self s) h
  | .thermalSample .., _, h => keeps_execThermalSample _ _ (keeps_self s) h
  | .thermalEvaluate, _, h => keeps_of_view (view_execThermalEvaluate _ h)
  | .tapReset, _, h => keeps_execTapReset _ (keeps_self s) h
  | .extest, _, h => keeps_execExtest _ (keeps_self s) h
  | .samplePreload .., _, h => keeps_execSamplePreload _ _ _ (keeps_self s) h
  | .idcode, _, h => keeps_execIdcode _ (keeps_self s) h
  | .clamp, _, h => keeps_execClamp _ (keeps_self s) h
  | .highz, _, h => keeps_execHighz _ (keeps_self s) h
  | .bypass, _, h => keeps_execBypass _ (keeps_self s) h
  | .responseRead, _, h => keeps_of_view (view_execResponseRead _ h)
  | .read .., _, h => keeps_execRead _ _ _ (keeps_self s) h
  | .write .., _, h => keeps_execWrite _ _ _ (keeps_self s) h
  | .writeCond .., _, h => keeps_execWriteCond _ _ _ (keeps_self s) h
  | .segReadStart .., _, h => keeps_execSegReadStart _ _ _ (keeps_self s) h
  | .segRead .., _, h => keeps_execSegRead _ _ _ (keeps_self s) h
  | .segWriteStart .., _, h => keeps_execSegWriteStart _ _ _ (keeps_self s) h
  | .segWrite .., _, h => keeps_execSegWrite _ _ _ (keeps_self s) h
  | .segAbort .., _, h => keeps_execSegAbort _ _ _ (keeps_self s) h
  | .segSessionTimeout .., _, h => keeps_of_view (view_execSegSessionTimeout _ _ h)
  | .enec, _, h => keeps_of_view (view_execEnec _ h)
  | .disec, _, h => keeps_of_view (view_execDisec _ h)
  | .rstdaa, _, h => keeps_of_view (view_execRstdaa _ h)
  | .entdaa .., _, h => keeps_of_view (view_execEntdaa _ _ h)
  | .setdasa .., _, h => keeps_of_view (view_execSetdasa _ _ h)
  | .setnewda .., _, h => keeps_of_view (view_execSetnewda _ _ h)
  | .getPid, _, h => keeps_of_view (view_execGetPid _ h)
  | .getBcr, _, h => keeps_of_view (view_execGetBcr _ h)
  | .getDcr, _, h => keeps_of_view (view_execGetDcr _ h)
  | .getStatus, _, h => keeps_of_view (view_execGetStatus _ h)
  | .getMwl, _, h => keeps_of_view (view_execGetMwl _ h)
  | .getMrl, _, h => keeps_of_view (view_execGetMrl _ h)
  | .mgmtLinkLost, _, h => keeps_of_view (view_execMgmtLinkLost _ h)
  | .resetReq .., _, h => keeps_execResetReq _ _ _ (keeps_self s) h
  | .alertAck .., _, h => keeps_execAlertAck _ _ _ (keeps_self s) h
  | .claim .., _, h => keeps_execClaim _ _ _ (keeps_self s) h
  | .store .., _, h => keeps_execStore _ _ _ (keeps_self s) h
  | .restoreDefault .., _, h => keeps_execRestoreDefault _ _ _ (keeps_self s) h
  | .hostLossMs .., _, h => keeps_execHostLossMs _ _ _ (keeps_self s) h
  | .linkLossMs .., _, h => keeps_execLinkLossMs _ _ _ (keeps_self s) h
  | .enable .., _, h => keeps_execEnable _ _ _ (keeps_self s) h
  | .retire .., _, h => keeps_execRetire _ _ _ (keeps_self s) h
  | .partitionReset .., _, h => keeps_execPartitionReset _ _ _ (keeps_self s) h
  | .privShareMbps .., _, h => keeps_execPrivShareMbps _ _ _ (keeps_self s) h
  | .powerStateReq .., _, h => keeps_execPowerStateReq _ _ _ (keeps_self s) h
  | .budgetMw .., _, h => keeps_execBudgetMw _ _ _ (keeps_self s) h
  | .calRecord .., _, h => keeps_execCalRecord _ _ _ (keeps_self s) h
  | .download .., _, h => keeps_execDownload _ _ _ (keeps_self s) h
  | .verify .., _, h => keeps_execVerify _ _ _ (keeps_self s) h
  | .activate .., _, h => keeps_execActivate _ _ _ (keeps_self s) h
  | .confirm .., _, h => keeps_execConfirm _ _ _ (keeps_self s) h
  | .keepStoreOpDone .., _, h => keeps_execKeepStoreOpDone _ _ _ (keeps_self s) h
  | .serviceRequest, _, h => keeps_execServiceRequest _ (keeps_self s) h
  | .fetchRead, _, h => keeps_of_view (view_execFetchRead _ h)
  | .commandCheck .., _, h => keeps_of_view (view_execCommandCheck _ _ h)
  | .relocate .., _, h => keeps_of_view (view_execRelocate _ _ _ h)
  | .acceptancePoint .., _, h => keeps_execAcceptancePoint _ _ _ (keeps_self s) h
  | .nop .., _, h => keeps_of_view (view_execNop _ _ _ h)
  | .wait .., _, h => keeps_of_view (view_execWait _ _ _ h)
  | .signal .., _, h => keeps_of_view (view_execSignal _ _ _ h)
  | .barrier .., _, h => keeps_of_view (view_execBarrier _ _ _ h)
  | .copy .., _, h => keeps_execCopy _ _ _ (keeps_self s) h
  | .fill .., _, h => keeps_execFill _ _ _ (keeps_self s) h
  | .handleBind .., _, h => keeps_of_view (view_execHandleBind _ _ _ h)
  | .handleFree .., _, h => keeps_of_view (view_execHandleFree _ _ _ h)
  | .launchGraph .., _, h => keeps_of_view (view_execLaunchGraph _ _ _ h)
  | .patch .., _, h => keeps_of_view (view_execPatch _ _ _ h)
  | .scoreboardAdmit, _, h => keeps_of_view (view_execScoreboardAdmit _ h)
  | .waitTimeout .., _, h => keeps_of_view (view_execWaitTimeout _ _ _ h)
  | .priorityQueueInsert .., _, h => keeps_of_view (view_execPriorityQueueInsert _ _ _ h)
  | .scan, _, h => keeps_of_view (view_execScan _ h)
  | .grantAck .., _, h => keeps_of_view (view_execGrantAck _ _ h)
  | .fusionChangeComplete .., _, h => keeps_of_view (view_execFusionChangeComplete _ _ h)
  | .currentGrantRequest .., _, h => keeps_of_view (view_execCurrentGrantRequest _ _ h)
  | .tileStartReport .., _, h => keeps_of_view (view_execTileStartReport _ _ h)
  | .tileEnd .., _, h => keeps_of_view (view_execTileEnd _ _ _ h)
  | .tileOverrun .., _, h => keeps_of_view (view_execTileOverrun _ _ h)
  | .saveReport .., _, h => keeps_execSaveReport _ _ (keeps_self s) h
  | .endReport .., _, h => keeps_of_view (view_execEndReport _ _ h)
  | .completionRecordWrite .., _, h => keeps_execCompletionRecordWrite _ _ _ (keeps_self s) h
  | .recordAck .., _, h => keeps_execRecordAck _ _ _ _ (keeps_self s) h
  | .irqHoldoffExpiry .., _, h => keeps_of_view (view_execIrqHoldoffExpiry _ _ h)
  | .progressTimeout .., _, h => keeps_of_view (view_execProgressTimeout _ _ _ h)
  | .resetRecord .., _, h => keeps_execResetRecord _ _ _ (keeps_self s) h
  | .machineCheck .., _, h => keeps_of_view (view_execMachineCheck _ _ _ _ h)
  | .mcheckReport .., _, h => keeps_of_view (view_execMcheckReport _ _ h)
  | .skimBlockSend .., _, h => keeps_of_view (view_execSkimBlockSend _ _ h)
  | .slotCredit .., _, h => keeps_of_view (view_execSlotCredit _ _ _ h)
  | .skimHoldExpiry .., _, h => keeps_of_view (view_execSkimHoldExpiry _ _ h)
  | .token .., _, h => keeps_of_view (view_execToken _ _ _ _ _ _ h)
  | .credit .., _, h => keeps_of_view (view_execCredit _ _ _ _ h)
  | .rd .., _, h => keeps_execRd _ _ _ (keeps_self s) h
  | .wr .., _, h => keeps_execWr _ _ _ _ (keeps_self s) h
  | .walk .., _, h => keeps_of_view (view_execWalk _ _ _ _ h)
  | .irq .., _, h => keeps_of_view (view_execIrq _ _ _ h)
  | .regRd .., _, h => keeps_of_view (view_execRegRd _ _ h)
  | .regWr .., _, h => keeps_execRegWr _ _ _ (keeps_self s) h
  | .rdRsp .., _, h => keeps_of_view (view_execRdRsp _ _ _ h)
  | .wrAck .., _, h => keeps_of_view (view_execWrAck _ _ h)
  | .regRsp .., _, h => keeps_of_view (view_execRegRsp _ _ h)
  | .skim .., _, h => keeps_of_view (view_execSkim _ _ _ h)
  | .preempt .., _, h => keeps_of_view (view_execPreempt _ _ h)
  | .voidPkt .., _, h => keeps_of_view (view_execVoidPkt _ _ h)
  | .ticketReq .., _, h => keeps_of_view (view_execTicketReq _ _ _ h)
  | .ticketGrant .., _, h => keeps_of_view (view_execTicketGrant _ _ _ h)
  | .genUpdate .., _, h => keeps_of_view (view_execGenUpdate _ _ _ _ h)
  | .genAck .., _, h => keeps_of_view (view_execGenAck _ _ _ h)
  | .initiatorTimeout .., _, h => keeps_of_view (view_execInitiatorTimeout _ _ _ h)
  | .bridgeNak .., _, h => keeps_execBridgeNak _ _ _ (keeps_self s) h
  | .linkFatal .., _, h => keeps_execLinkFatal _ _ (keeps_self s) h
  | .linkFatalIntervalEnd .., _, h => keeps_of_view (view_execLinkFatalIntervalEnd _ _ h)
  | .drainRoundStart, _, h => keeps_of_view (view_execDrainRoundStart _ h)
  | .drainRoundEnd, _, h => keeps_execDrainRoundEnd _ (keeps_self s) h
  | .controlStoreError .., _, h => keeps_execControlStoreError _ _ _ _ (keeps_self s) h
  | .scrub .., _, h => keeps_execScrub _ _ _ (keeps_self s) h
  | .fepHangWatchdog .., _, h => keeps_execFepHangWatchdog _ _ _ _ (keeps_self s) h
  | .mgcWatchdog, _, h => keeps_execMgcWatchdog _ (keeps_self s) h
  | .stackingFault .., _, h => keeps_execStackingFault _ _ (keeps_self s) h
  | .mgcRestartComplete, _, h => keeps_execMgcRestartComplete _ (keeps_self s) h
  | .hostLossExpiry, _, h => keeps_of_view (view_execHostLossExpiry _ h)
  | .dictRefresh, _, h => keeps_of_view (view_execDictRefresh _ h)
  | .contractLogRead, _, h => keeps_of_view (view_execContractLogRead _ h)
  | .l1Reset, _, h => keeps_execL1Reset _ (keeps_self s) h
  | .resetHoldEnd, _, h => keeps_execResetHoldEnd _ (keeps_self s) h
  | .l0Exit, hc, _ => absurd rfl hc
  | .l1Exit .., _, h => keeps_execL1Exit _ _ (keeps_self s) h
  | .memoryTrained, _, h => keeps_of_view (view_execMemoryTrained _ h)
  | .deviceRegionFilled, _, h => keeps_of_view (view_execDeviceRegionFilled _ h)
  | .l2Reset, _, h => keeps_execL2Reset _ (keeps_self s) h
  | .l2PreemptDeadline .., _, h => keeps_of_view (view_execL2PreemptDeadline _ _ _ h)
  | .l2Rebuild, _, h => keeps_of_view (view_execL2Rebuild _ h)
  | .l3Reset .., _, h => keeps_execL3Reset _ _ (keeps_self s) h
  | .l5ResetDone .., _, h => keeps_of_view (view_execL5ResetDone _ _ _ _ h)
  | .powerStateTransitionDone, _, h => keeps_of_view (view_execPowerStateTransitionDone _ h)
  | .partitionIdleGate .., _, h => keeps_of_view (view_execPartitionIdleGate _ _ h)
  | .partitionUngateDone .., _, h => keeps_of_view (view_execPartitionUngateDone _ _ h)
  | .fabricClockRegate, _, h => keeps_of_view (view_execFabricClockRegate _ h)
  | .railLow .., _, h => keeps_of_view (view_execRailLow _ _ _ h)
  | .railLowClear .., _, h => keeps_of_view (view_execRailLowClear _ _ h)
  | .ldoSettled .., _, h => keeps_of_view (view_execLdoSettled _ _ h)
  | .voltageTrim .., _, h => keeps_of_view (view_execVoltageTrim _ _ _ h)
  | .readAssistStep .., _, h => keeps_of_view (view_execReadAssistStep _ _ _ _ h)
  | .telemetryUpdate .., _, h => keeps_of_view (view_execTelemetryUpdate _ _ h)
  | .coreFault, _, h => keeps_execCoreFault _ (keeps_self s) h
  | .undefinedMessage _ _ payload, _, h => keeps_of_view (view_execUndefinedMessage _ _ payload _ h)
  | .requestFrameError .., _, h => keeps_execRequestFrameError _ _ (keeps_self s) h
  | .i3cBroadcastAddress, _, h => keeps_of_view (view_execI3cBroadcastAddress _ h)
  | .hdrEntry, _, h => keeps_of_view (view_execHdrEntry _ h)
  | .hdrExitPattern, _, h => keeps_of_view (view_execHdrExitPattern _ h)
  | .refclkRestored, _, h => keeps_of_view (view_execRefclkRestored _ h)
  | .shareWindow, _, h => keeps_execShareWindow _ (keeps_self s) h
  | .criticalPathMonitorReport .., _, h => keeps_of_view (view_execCriticalPathMonitorReport _ _ _ h)
  | .bridgeRetrained, _, h => keeps_of_view (view_execBridgeRetrained _ h)
  | .linkRetrain, _, h => keeps_of_view (view_execLinkRetrain _ h)
  | .reservedTypePacket .., _, h => keeps_of_view (view_execReservedTypePacket _ _ h)
  | .statusWriteBack .., _, h => keeps_execStatusWriteBack _ _ _ (keeps_self s) h

-- The host mode (00 R4) ----------------------------------------------------------------------------------------------

theorem exec_modeP_of_ne_l0Exit {c : Instr} {s t : State} (hc : c ≠ .l0Exit) (h : exec c s = .next t) :
    t.pins.modeP = s.pins.modeP := by
  obtain ⟨⟨_, _, hmode⟩, _⟩ := exec_keeps_of_ne_l0Exit c hc h
  exact hmode

/-- With power and REFCLK good the exit point of L0 is passed, and the strap becomes the host mode. -/
theorem exec_l0Exit_latches_modeP {s : State} (hphase : s.rst.phase = .l0Exiting) (hpower : s.pins.pwrGood = true)
    (hclk : s.clk.refclk = true) : ∃ t, exec .l0Exit s = .next t ∧ t.pins.modeP = s.pins.hostModeStrap := by
  simp only [exec, execL0Exit, hphase, hpower, hclk]
  exact ⟨_, rfl, rfl⟩

/-- Settles O7: the L0 exit latches the strap, and the frame of every other command holds the latched mode. -/
theorem hostModeIsLatchedOnlyAtTheL0Exit : Obligations.HostModeIsLatchedOnlyAtTheL0Exit :=
  ⟨fun _ => exec_l0Exit_latches_modeP, fun _ _ _ => exec_modeP_of_ne_l0Exit⟩

end Sys2Proof.Proofs
end

section
/-! PROOFS. The object dictionary's index map (14 R291): how the table of entries answers an index and a subindex, how a
read or write that the table refuses runs through the serialiser, and the statement of 14 that follows. -/

namespace Sys2Proof.Proofs
open Sys2Proof Sys2Proof.Machine Sys2Proof.Safety Sys2Proof.Laws

-- The table of entries (14 R291) --------------------------------------------------------------------------------------

theorem entriesAt_partition_index {i : Nat} (hi : i / 16 = 0x300) :
    entriesAt i = entriesAt 0x3000 := by
  have below : ∀ j, j < 0x3000 → i ≠ j := by omega
  simp [entriesAt, hi, below]

theorem entriesAt_instance_index {i : Nat} (hlo : 0x4000 ≤ i) (hhi : i ≤ 0x4020) :
    entriesAt i = entriesAt 0x4000 := by
  have below : ∀ j, j < 0x4000 → i ≠ j := by omega
  have notPart : i / 16 ≠ 0x300 := by omega
  simp [entriesAt, hlo, hhi, below, notPart]

theorem ne_of_entriesAt_none {i j : Nat} (hi : entriesAt i = none) (hj : (entriesAt j).isSome = true) : i ≠ j := by
  rintro rfl
  simp [hi] at hj

theorem entryAt_of_entriesAt_none {i sub : Nat} (hi : entriesAt i = none) : entryAt i sub = .error abNoIndex := by
  simp [entryAt, hi]

theorem entryAt_zero {i : Nat} {es : List Entry} (hi : entriesAt i = some es) : entryAt i 0 = .ok (eConst 1) := by
  simp [entryAt, hi]

theorem entryAt_of_length_lt {i sub : Nat} {es : List Entry} (hi : entriesAt i = some es) (hsub : es.length < sub) :
    entryAt i sub = .error abNoSubindex := by
  have hne : sub ≠ 0 := by omega
  have hout : es[sub - 1]? = none := List.getElem?_eq_none (by omega)
  simp [entryAt, hi, hne, hout]

-- Reads and writes of the dictionary that the table decides (13 R279, R280, R287) -------------------------------------

/-- Subindex 0 mirrors nothing of the hardware, so no read of it is stale (14 R312). -/
theorem mirrored_zero (s : State) (i : Nat) : s.mirrored i 0 = none := by
  simp [State.mirrored]

theorem liveValue_zero (s : State) (i : Nat) : s.liveValue i 0 = ((entriesAt i).getD []).length := rfl

theorem dictRead_zero {i : Nat} {es : List Entry} (s : State) (hi : entriesAt i = some es) :
    s.dictRead i 0 false = .ok ([BitVec.ofNat 8 es.length], s) := by
  simp [State.dictRead, entryAt_zero hi, eConst, State.readValue, mirrored_zero, liveValue_zero, hi, leBytes]

theorem dictRead_of_entryAt_error {i sub : Nat} {a : Abort} (s : State) (seg : Bool) (h : entryAt i sub = .error a) :
    s.dictRead i sub seg = .error a := by
  simp [State.dictRead, h]

/-- The write half of subindex 0's path is N, and the path is the first check that an implemented entry meets. -/
theorem writeFault_zero {i : Nat} {es : List Entry} (s : State) (p : Path) (len : Nat) (seg : Bool)
    (hi : entriesAt i = some es) : s.writeFault p i 0 len seg = .error abPathDenied := by
  simp [State.writeFault, entryAt_zero hi, eConst]

theorem writeFault_of_entryAt_error {i sub : Nat} {a : Abort} (s : State) (p : Path) (len : Nat) (seg : Bool)
    (h : entryAt i sub = .error a) : s.writeFault p i sub len seg = .error a := by
  simp [State.writeFault, h]

theorem dictWrite_of_writeFault {i sub : Nat} {data : List Byte} {a : Abort} {s : State} {p : Path} {seg : Bool}
    (expect : Option (BitVec 16)) (h : s.writeFault p i sub data.length seg = .error a) :
    s.dictWrite p i sub data expect seg = (s, a) := by
  simp [State.dictWrite, h]

-- A request that reaches Topcoat (13 R283, R287, R288) ----------------------------------------------------------------

@[simp] theorem event_server (s : State) (code subject : Nat) (a b : Bool) (payload : List Byte) :
    (s.event code subject a b payload).server = s.server := by
  have hfw : (s.event code subject a b payload).mgc.fw = s.mgc.fw := by rw [event_mgc s code subject a b payload]
  simp [State.server, hfw]

@[simp] theorem goodFrame_server (s : State) : s.goodFrame.server = s.server := by
  unfold State.goodFrame
  dsimp only
  split
  · exact event_server ..
  · rfl

@[simp] theorem arrive_server (s : State) (p : Path) : (arrive s p).server = s.server := by
  cases p
  · exact goodFrame_server s
  · rfl

theorem server_of_reaches {s : State} {p : Path} : Reaches s p → s.server = .topcoat := And.left

theorem umner_of_serve {s t : State} {p : Path} {opc : Nat} {f : UFrame} {a : Abort} {out : List Byte} (hr : Reaches s p)
    (h : (arrive s p).serve p opc f = (t, a, out)) : s.umner p opc f = respond t p opc f a out := by
  obtain ⟨htop, hserving, hbus⟩ := hr
  cases p with
  | link =>
    have h' : s.goodFrame.serve .link opc f = (t, a, out) := h
    simp [State.umner, hbus rfl, htop, State.answerFrame, h', respond]
  | host =>
    have h' : s.serve .host opc f = (t, a, out) := h
    simp [State.umner, hserving, State.answerFrame, h', respond]

@[simp] theorem ocDefined_read : ocDefined ocRead = true := rfl
@[simp] theorem ocDefined_write : ocDefined ocWrite = true := rfl
@[simp] theorem dataLenOk_read (n : Nat) : dataLenOk ocRead n = (n == 0) := rfl
@[simp] theorem dataLenOk_write (n : Nat) : dataLenOk ocWrite n = decide (n ≤ 96) := rfl
theorem ocWrite_ne_ocRead : ocWrite ≠ ocRead := by decide

section
variable {s : State} {p : Path} {f : UFrame} (hr : Reaches s p) (hres : f.reservedSet = false)
include hr hres

theorem exec_read_of_dictRead_ok {t : State} {v : List Byte} (hdata : f.data = [])
    (h : (arrive s p).dictRead f.index f.sub false = .ok (v, t)) :
    exec (.read p f) s = .next (respond t p ocRead f 0 v) := by
  have hs : (arrive s p).serve p ocRead f = (t, 0, v) := by
    simp [State.serve, hres, server_of_reaches hr, hdata, h]
  exact congrArg _ (umner_of_serve hr hs)

theorem exec_read_of_dictRead_error {a : Abort} (hdata : f.data = [])
    (h : (arrive s p).dictRead f.index f.sub false = .error a) :
    exec (.read p f) s = .next (respond (arrive s p) p ocRead f a []) := by
  have hs : (arrive s p).serve p ocRead f = (arrive s p, a, []) := by
    simp [State.serve, hres, server_of_reaches hr, hdata, h]
  exact congrArg _ (umner_of_serve hr hs)

theorem exec_write_of_writeFault {a : Abort} (hlen : f.data.length ≤ 96)
    (h : (arrive s p).writeFault p f.index f.sub f.data.length false = .error a) :
    exec (.write p f) s = .next (respond (arrive s p) p ocWrite f a []) := by
  have hs : (arrive s p).serve p ocWrite f = (arrive s p, a, []) := by
    simp [State.serve, hres, server_of_reaches hr, hlen, dictWrite_of_writeFault _ h, ocWrite_ne_ocRead]
  exact congrArg _ (umner_of_serve hr hs)

theorem exec_read_of_entryAt_error {a : Abort} (h : entryAt f.index f.sub = .error a) (hdata : f.data = []) :
    exec (.read p f) s = .next (respond (arrive s p) p ocRead f a []) :=
  exec_read_of_dictRead_error hr hres hdata (dictRead_of_entryAt_error _ _ h)

theorem exec_write_of_entryAt_error {a : Abort} (h : entryAt f.index f.sub = .error a) (hlen : f.data.length ≤ 96) :
    exec (.write p f) s = .next (respond (arrive s p) p ocWrite f a []) :=
  exec_write_of_writeFault hr hres hlen (writeFault_of_entryAt_error _ _ _ _ h)

theorem exec_read_zero {es : List Entry} (hi : entriesAt f.index = some es) (hsub : f.sub = 0) (hdata : f.data = []) :
    exec (.read p f) s = .next (respond (arrive s p) p ocRead f 0 [BitVec.ofNat 8 es.length]) :=
  exec_read_of_dictRead_ok hr hres hdata (hsub ▸ dictRead_zero _ hi)

theorem exec_write_zero {es : List Entry} (hi : entriesAt f.index = some es) (hsub : f.sub = 0)
    (hlen : f.data.length ≤ 96) : exec (.write p f) s = .next (respond (arrive s p) p ocWrite f abPathDenied []) :=
  exec_write_of_writeFault hr hres hlen (hsub ▸ writeFault_zero _ _ _ _ hi)

end

-- The statement -------------------------------------------------------------------------------------------------------

/-- Settles O58: the table gives subindex 0 as a constant byte and refuses what it does not list, the serialiser hands
either answer on unchanged, and each range is one row of the table. -/
theorem subindexZeroHoldsTheHighestSubindex : Obligations.SubindexZeroHoldsTheHighestSubindex := by
  refine ⟨fun s p f es hr hres hi => ⟨fun hsub => ?zero, fun hsub => ?unlistedSub⟩, fun s p f hr hres hi => ?unlistedIndex,
    fun k hk => ?partitions, fun k hk => ?instances, fun i hi => ?others⟩
  case zero => exact ⟨exec_read_zero hr hres hi hsub, exec_write_zero hr hres hi hsub⟩
  case unlistedSub =>
    have h := entryAt_of_length_lt hi hsub
    exact ⟨exec_read_of_entryAt_error hr hres h, exec_write_of_entryAt_error hr hres h⟩
  case unlistedIndex =>
    have h : entryAt f.index f.sub = .error abNoIndex := entryAt_of_entriesAt_none hi
    exact ⟨exec_read_of_entryAt_error hr hres h, exec_write_of_entryAt_error hr hres h⟩
  case partitions =>
    have h : entriesAt (0x3000 + k) = entriesAt 0x3000 := entriesAt_partition_index (by omega)
    exact ⟨h ▸ rfl, h⟩
  case instances =>
    have h : entriesAt (0x4000 + k) = entriesAt 0x4000 := entriesAt_instance_index (by omega) (by omega)
    exact ⟨h ▸ rfl, h⟩
  case others =>
    have ne {j : Nat} : (entriesAt j).isSome = true → i ≠ j := ne_of_entriesAt_none hi
    exact ⟨ne rfl, ne rfl, ne rfl, ne rfl, ne rfl, ne rfl, ne rfl⟩

end Sys2Proof.Proofs
end

section
/-! PROOFS. The reset entry of a partition (17 R371): what a write whose checks have passed does, what a reassessment of the
clocks leaves of the partitions, how a partition's reset begins, and the statement of 17 that follows. -/

namespace Sys2Proof.Proofs
open Sys2Proof Sys2Proof.Machine Sys2Proof.Safety Sys2Proof.Laws

-- A write whose checks have passed (13 R287) ---------------------------------------------------------------------------

section
variable {s : State} {p : Path} {f : UFrame} {v : Nat} (hw : WriteGood s p f v)
  (hplain : ¬(f.index = 0x2004 ∧ f.sub = 2))
include hw

theorem umner_of_dictWrite {t : State} {a : Abort}
    (h : (arrive s p).dictWrite p f.index f.sub f.data none false = (t, a)) :
    s.umner p ocWrite f = respond t p ocWrite f a [] := by
  obtain ⟨hr, hres, hlen, -⟩ := hw
  have hs : (arrive s p).serve p ocWrite f = (t, a, []) := by
    simp [State.serve, hres, server_of_reaches hr, hlen, h, ocWrite_ne_ocRead]
  exact umner_of_serve hr hs

include hplain

theorem umner_write_of_writeEffect_error {a : Abort} (h : (arrive s p).writeEffect p f.index f.sub v true = .error a) :
    s.umner p ocWrite f = respond (arrive s p) p ocWrite f a [] := by
  refine umner_of_dictWrite hw ?_
  obtain ⟨-, -, -, hv, e, hfault, hsize, hrange⟩ := hw
  simp [State.dictWrite, hfault, hsize, hv, hrange, hplain, h]

theorem umner_write_of_writeEffect_ok {u : State} (h : (arrive s p).writeEffect p f.index f.sub v true = .ok u) :
    s.umner p ocWrite f = written (arrive s p) u p f := by
  refine umner_of_dictWrite hw ?_
  obtain ⟨-, -, -, hv, e, hfault, hsize, hrange⟩ := hw
  simp [State.dictWrite, hfault, hsize, hv, hrange, hplain, h]

end

@[simp] theorem goodFrame_parts (s : State) : s.goodFrame.parts = s.parts := by
  unfold State.goodFrame
  dsimp only
  split
  · exact event_parts ..
  · rfl

@[simp] theorem goodFrame_rst (s : State) : s.goodFrame.rst = s.rst := by
  unfold State.goodFrame
  dsimp only
  split
  · exact event_rst ..
  · rfl

@[simp] theorem arrive_part (s : State) (p : Path) (k : Nat) : (arrive s p).part k = s.part k := by
  cases p
  · simp [arrive, State.part]
  · rfl

@[simp] theorem arrive_rst (s : State) (p : Path) : (arrive s p).rst = s.rst := by
  cases p
  · exact goodFrame_rst s
  · rfl

-- What a reassessment leaves of the partitions (16 R340, R358, R360) -----------------------------------------------------

theorem still_of_view {s t : State} (h : view t = view s) : Still s t := by
  injection h with hpriv hkeep hpending htime hmode hpt hht hup hspeed hwidth hucie hir
  exact ⟨fun a => by simp [State.readPriv, hpriv], fun a => by simp [State.readKeep, hkeep], hpending, htime, hmode, hpt,
    hht, hup, hspeed, hwidth, hucie, hir⟩

theorem stepped_refl (a : Part) : Stepped a a := rfl

theorem stepped_trans {a b c : Part} (h : Stepped a b) (k : Stepped b c) : Stepped a c := by
  unfold Stepped at *
  rw [k, h]

theorem state_of_stepped {a b : Part} (h : Stepped a b) : b.state = a.state := (congrArg Part.state h :)

theorem rstBusy_of_stepped {a b : Part} (h : Stepped a b) : b.rstBusy = a.rstBusy := (congrArg Part.rstBusy h :)

/-- Every partition differs in its clock step and its LDO alone. -/
def PartsStepped (s t : State) : Prop := ∀ q, Stepped (s.part q) (t.part q)

theorem PartsStepped.trans {a b c : State} (h : PartsStepped a b) (k : PartsStepped b c) : PartsStepped a c :=
  fun q => stepped_trans (h q) (k q)

theorem partsStepped_of_parts_eq {s t : State} (h : t.parts = s.parts) : PartsStepped s t := fun q => by
  simp [State.part, h, stepped_refl]

theorem partsStepped_foldl {α : Type} (g : State → α → State) (hg : ∀ t x, PartsStepped t (g t x)) (l : List α)
    (s : State) : PartsStepped s (l.foldl g s) := by
  induction l generalizing s with
  | nil => exact partsStepped_of_parts_eq rfl
  | cons x l ih => exact (hg s x).trans (ih (g s x))

theorem partsStepped_updPart (s : State) (p : Nat) {f : Part → Part} (hf : Stepped (s.part p) (f (s.part p))) :
    PartsStepped s (s.updPart p f) := fun q => by
  by_cases h : q = p
  · subst h
    simpa using hf
  · simp [updPart_part_other s f h, stepped_refl]

theorem orderStep_partsStepped (s : State) (p k : Nat) : PartsStepped s (s.orderStep p k) := by
  unfold State.orderStep
  dsimp only
  split
  · exact partsStepped_updPart s p rfl
  · split
    · exact partsStepped_updPart s p rfl
    · split <;> exact partsStepped_updPart s p rfl

theorem orderGroup_partsStepped (s : State) (p k : Nat) : PartsStepped s (s.orderGroup p k) :=
  partsStepped_foldl _ (fun t q => orderStep_partsStepped t q k) _ s

@[simp] theorem powerEvent_parts (s : State) (code subject : Nat) (head : List Byte) (supp : Bool) :
    (s.powerEvent code subject head supp).parts = s.parts := by
  unfold State.powerEvent
  simp only [apply_ite State.parts, event_parts, ite_self]

/-- The jobs' steps, then the emergency step of the partitions without a grant, then a report that touches no partition. -/
theorem reassess_partsStepped (s : State) : PartsStepped s s.reassess := by
  unfold State.reassess
  extract_lets js jobsOrdered e capped unmet decided
  have hjobs : PartsStepped s jobsOrdered :=
    partsStepped_foldl (fun t j => t.orderGroup j.part (s.groupStep js j)) (fun t j => orderGroup_partsStepped t _ _) js s
  have hcapped : PartsStepped jobsOrdered capped := by
    dsimp only [capped]
    split
    · exact partsStepped_of_parts_eq rfl
    · refine partsStepped_foldl _ (fun t p => ?_) _ _
      split
      · exact orderStep_partsStepped t p e
      · exact partsStepped_of_parts_eq rfl
  refine (hjobs.trans hcapped).trans (partsStepped_of_parts_eq ?_)
  split
  · exact powerEvent_parts ..
  · rfl

-- A partition's reset begins (17 R364, R370, R371, 02 R51) -----------------------------------------------------------------

@[simp] theorem alerted_part (before after : State) (k : Nat) : (alerted before after).part k = after.part k := by
  unfold alerted
  split <;> rfl

/-- A partition's own reset source is fused to L5, the only level allowed to it. -/
theorem levelOf_partReset (s : State) : s.levelOf 13 = 5 := by
  simp only [State.levelOf, allowedLevels, List.contains_cons, List.contains_nil, Bool.or_false, List.headD_cons]
  split
  · rename_i h; exact eq_of_beq h
  · rfl

theorem actSource_partReset_of_no_reset {s : State} (h : s.rst.phase = .none) (k : Nat) :
    s.actSource 13 k = s.startL5 k := by
  simp [State.actSource, levelOf_partReset, State.wideRuns, State.l2Runs, h]

/-- The L5 reset of a partition that may leave its condition; the others meet only the reassessment of the clocks. -/
theorem startL5_resets {s : State} {k : Nat} (hstate : (s.part k).state ≠ .resetting)
    (hbroken : (s.part k).state = .offline → (s.part k).mcCause ≠ 5 ∧ (s.part k).mcCause ≠ 6) :
    ((s.startL5 k).part k).state = .resetting ∧ ((s.startL5 k).part k).rstBusy = true
      ∧ ∀ q, q ≠ k → Stepped (s.part q) ((s.startL5 k).part q) := by
  have hbroken' : ¬((s.part k).state = .offline ∧ ((s.part k).mcCause = 5 ∨ (s.part k).mcCause = 6)) := by
    rintro ⟨hoff, hcause⟩
    exact hcause.elim (hbroken hoff).1 (hbroken hoff).2
  simp only [State.startL5, beq_iff_eq, Bool.and_eq_true, Bool.or_eq_true, hstate, hbroken', if_false]
  refine ⟨?_, ?_, fun q hq => ?_⟩
  · rw [state_of_stepped (reassess_partsStepped _ k), alerted_part, updPart_part_same]
  · rw [rstBusy_of_stepped (reassess_partsStepped _ k), alerted_part, updPart_part_same]
  · refine stepped_trans ?_ (reassess_partsStepped _ q)
    rw [alerted_part, updPart_part_other _ _ hq]
    exact stepped_refl _

-- The reset entry (14 R301) ----------------------------------------------------------------------------------------------

theorem writeEffect_partReset (s : State) (p : Path) {i : Nat} (v : Nat) (sums : Bool) (hi : i / 16 = 0x300) :
    s.writeEffect p i 6 v sums = s.writePartReset (i % 16) := by
  have below : ∀ j, j < 0x3000 → i ≠ j := by omega
  simp [State.writeEffect, hi, below]

theorem writePartReset_refused {s : State} {k : Nat}
    (h : ¬(((s.part k).state = .idle ∨ (s.part k).state = .offline) ∧ (s.part k).resume = none)) :
    s.writePartReset k = .error (abStatus St.busy) := by
  unfold State.writePartReset
  dsimp only
  split
  · rename_i hc
    simp only [Bool.and_eq_true, Bool.or_eq_true, beq_iff_eq, Option.isNone_iff_eq_none] at hc
    exact absurd hc.1 h
  · rfl

theorem writePartReset_taken {s : State} {k : Nat} (hstate : (s.part k).state = .idle ∨ (s.part k).state = .offline)
    (hresume : (s.part k).resume = none) (hbusy : (s.part k).rstBusy = false) (hphase : s.rst.phase = .none) :
    s.writePartReset k = .ok ((s.updPart k (fun x => { x with rstBusy := true })).startL5 k) := by
  have hact := actSource_partReset_of_no_reset (s := s.updPart k (fun x => { x with rstBusy := true })) hphase k
  simp [State.writePartReset, hstate, hresume, hbusy, hact]

theorem exec_partitionReset (s : State) (p : Path) {f : UFrame} (hi : f.index / 16 = 0x300) (hsub : f.sub = 6) :
    exec (.partitionReset p f) s = .next (s.umner p ocWrite f) := by
  simp [exec, execPartitionReset, State.entryWrite, hi, hsub]

/-- Settles O50: the entry's own conditions decide between BUSY and the reset, and an L5 reset that begins while no other
runs puts the partition into STATE resetting, through the reassessment of the clocks. -/
theorem aPartitionResetIsTakenOnlyWhenIdleOrOffline : Obligations.APartitionResetIsTakenOnlyWhenIdleOrOffline := by
  intro s p f v hw hi hsub
  have hplain : ¬(f.index = 0x2004 ∧ f.sub = 2) := by omega
  have heffect : (arrive s p).writeEffect p f.index f.sub v true = (arrive s p).writePartReset (f.index % 16) :=
    hsub ▸ writeEffect_partReset _ p v true hi
  refine ⟨fun hbad => ?refused, fun hstate hresume hbusy hphase hbroken => ?taken⟩
  case refused =>
    rw [exec_partitionReset s p hi hsub,
      umner_write_of_writeEffect_error hw hplain (heffect.trans (writePartReset_refused (by simpa using hbad)))]
  case taken =>
    have hne : (s.part (f.index % 16)).state ≠ .resetting := by rcases hstate with h | h <;> simp [h]
    have htaken := writePartReset_taken (s := arrive s p) (k := f.index % 16) (by simpa using hstate)
      (by simpa using hresume) (by simpa using hbusy) (by simpa using hphase)
    obtain ⟨hresetting, hrst, hothers⟩ := startL5_resets (k := f.index % 16)
      (s := (arrive s p).updPart (f.index % 16) (fun x => { x with rstBusy := true })) (by simpa using hne)
      (by simpa using hbroken)
    refine ⟨_, ?_, still_of_view (by simp), hresetting, hrst, fun q hq => ?_⟩
    · rw [exec_partitionReset s p hi hsub, umner_write_of_writeEffect_ok hw hplain (heffect.trans htaken)]
    · simpa [updPart_part_other _ _ hq] using hothers q hq

end Sys2Proof.Proofs
end

section
/-! PROOFS. The test access port (20 R440, R441): what each TAP command loads into the instruction register, who then controls
the pins and which register stands between TDI and TDO, and the statement of 20 that follows. -/

namespace Sys2Proof.Proofs
open Sys2Proof Sys2Proof.Machine

-- The instruction register (R440) --------------------------------------------------------------------------------------

@[simp] theorem setIr_ir (s : State) (ir : Nat) : (s.setIr ir).tap.ir = ir := rfl

theorem exec_tapReset (s : State) : exec .tapReset s = .next (s.setIr 2) := rfl
theorem exec_idcode (s : State) : exec .idcode s = .next (s.setIr 2) := rfl
theorem exec_extest (s : State) : exec .extest s = .next (s.setIr 0) := rfl
theorem exec_clamp (s : State) : exec .clamp s = .next (s.setIr 3) := rfl
theorem exec_highz (s : State) : exec .highz s = .next (s.setIr 4) := rfl
theorem exec_bypass (s : State) : exec .bypass s = .next (s.setIr 15) := rfl

theorem exec_samplePreload (s : State) (cells preload : BitVec 64) :
    exec (.samplePreload cells preload) s = .next { s with tap := { ir := 1, boundary := preload, captured := cells } } := rfl

-- Who controls the pins (R441) -----------------------------------------------------------------------------------------

section
variable {s : State}

theorem pinControl_of_rstN_high (h : s.pins.rstN = true) : s.pinControl = .functions := by
  simp [State.pinControl, h]

theorem pinControl_of_extest_or_clamp (h : s.pins.rstN = false) (hir : s.tap.ir = 0 ∨ s.tap.ir = 3) :
    s.pinControl = .boundary s.tap.boundary := by
  simp [State.pinControl, h, hir]

theorem pinControl_of_highz (h : s.pins.rstN = false) (hir : s.tap.ir = 4) : s.pinControl = .highZ := by
  simp [State.pinControl, h, hir]

theorem pinControl_of_other (hir : s.tap.ir ≠ 0 ∧ s.tap.ir ≠ 3 ∧ s.tap.ir ≠ 4) : s.pinControl = .functions := by
  simp [State.pinControl, hir]

-- The register between TDI and TDO (R440, R441) ------------------------------------------------------------------------

theorem tapReg_of_idcode (hir : s.tap.ir = 2) : s.tapReg = .idcode := by
  simp [State.tapReg, hir]

theorem tapReg_of_samplePreload (hir : s.tap.ir = 1) : s.tapReg = .boundary := by
  simp [State.tapReg, hir]

theorem tapReg_of_other (hir : s.tap.ir ≠ 0 ∧ s.tap.ir ≠ 1 ∧ s.tap.ir ≠ 2) : s.tapReg = .bypass := by
  simp [State.tapReg, hir]

/-- EXTEST is the one instruction whose register depends on RST_N. -/
theorem tapReg_of_extest (hir : s.tap.ir = 0) : s.tapReg = if s.pins.rstN then .bypass else .boundary := by
  cases h : s.pins.rstN <;> simp [State.tapReg, hir, h]

end

/-- Settles O57: the commands only load the instruction register, RST_N decides whether what it holds reaches the pins, and
only EXTEST, under RST_N low, and SAMPLE/PRELOAD select the boundary register. -/
theorem theTestPortNeverDisturbsTheDevice : Obligations.TheTestPortNeverDisturbsTheDevice := by
  intro s cells preload sel
  have hbypass (ir : Nat) (hir : ir ≠ 0 ∧ ir ≠ 1 ∧ ir ≠ 2) : (sel ir).tapReg = .bypass := tapReg_of_other (s := s.setIr ir) hir
  have hextest : (sel 0).tapReg = if s.pins.rstN then .bypass else .boundary := tapReg_of_extest (s := s.setIr 0) rfl
  refine ⟨exec_tapReset s, exec_idcode s, exec_extest s, exec_clamp s, exec_highz s, exec_bypass s,
    exec_samplePreload s cells preload, fun hhigh ir => ?running, fun hlow => ⟨?extest, ?clamp, ?highz, ?bypass⟩,
    tapReg_of_idcode rfl, tapReg_of_samplePreload rfl, hbypass 15 (by decide), hbypass 3 (by decide), hextest,
    fun hhigh => ⟨by simp [hextest, hhigh], hbypass 3 (by decide), hbypass 4 (by decide)⟩⟩
  case running => exact pinControl_of_rstN_high (s := s.setIr ir) hhigh
  case extest => exact pinControl_of_extest_or_clamp (s := s.setIr 0) hlow (.inl rfl)
  case clamp => exact pinControl_of_extest_or_clamp (s := s.setIr 3) hlow (.inr rfl)
  case highz => exact pinControl_of_highz (s := s.setIr 4) hlow rfl
  case bypass => exact pinControl_of_other (s := s.setIr 15) (by simp)

end Sys2Proof.Proofs
end

section
/-! PROOFS. The statements about the block as a whole: what one step is, the state after reset, the invariant along every
step, and the frames of the waiting commands, of DEVTIME and of the two byte memories. -/

namespace Sys2Proof.Proofs
open Sys2Proof Sys2Proof.Machine Sys2Proof.Safety Sys2Proof.Laws

-- The front of the queue (00; log entry 21) ---------------------------------------------------------------------------

/-- Settles O1: the front of the queue is what the step matches on. -/
theorem stepRunsFrontCommand : Obligations.StepRunsFrontCommand := by
  intro c rest s
  simp only [step]

-- The state after reset -----------------------------------------------------------------------------------------------

theorem reset_inst_of_ne_zero {n : Nat} (hn : n ≠ 0) : State.reset.inst n = {} := by
  simp [State.reset, State.inst, tabGetD, tabGet, Ne.symm hn]

theorem reset_inst_zero : State.reset.inst 0 = { mmu := { bypass := true } } := rfl

theorem reset_inst_state (n : Nat) : (State.reset.inst n).state = .absent := by
  by_cases hn : n = 0
  · subst hn; rfl
  · rw [reset_inst_of_ne_zero hn]

theorem reset_inst_mmu_en (n : Nat) : (State.reset.inst n).mmu.en = false := by
  by_cases hn : n = 0
  · subst hn; rfl
  · rw [reset_inst_of_ne_zero hn]

/-- Settles O3: the tables are empty but for instance 0, so every record answers the default of its structure. -/
theorem resetLeavesTheSpecValues : Obligations.ResetLeavesTheSpecValues := by
  refine ⟨rfl, rfl, rfl, rfl, rfl, rfl, reset_inst_state, rfl, fun n hn => ?_, reset_inst_mmu_en, rfl, rfl,
    fun k => ?_, rfl, rfl, rfl, rfl, rfl, fun _ => ⟨rfl, rfl, rfl⟩, fun _ => rfl, fun fn v => ?_⟩
  · rw [reset_inst_of_ne_zero hn]
  · simp [State.reset, tabGetD, tabGet]
  · rfl

/-- Settles O4: nothing is listed in the memories, both timeouts stand at their reset values, the link is down and IDCODE is
selected. -/
theorem resetStateIsLegal : Obligations.ResetStateIsLegal :=
  ⟨by decide, ⟨by decide, by decide⟩, ⟨by decide, by decide⟩, fun _ => ⟨rfl, rfl, rfl⟩, by decide⟩

-- The invariant and the waiting commands (O5, O6) ---------------------------------------------------------------------

theorem exec_legal {c : Instr} {s t : State} (hs : Legal s) (h : exec c s = .next t) : Legal t := by
  by_cases hc : c = .l0Exit
  · subst hc
    exact (keeps_execL0Exit s hs h).1
  · exact (view_ok_iff t).1 ((exec_keeps_of_ne_l0Exit c hc h).2 hs)

theorem tick_legal {s : State} (hs : Legal s) : Legal s.tick := by
  unfold State.tick
  split
  · split <;> exact hs
  · exact hs

/-- Settles O5: a step is a tick or a command on the rest of the queue, which the invariant does not look at. -/
theorem everyStepKeepsTheStateLegal : Obligations.EveryStepKeepsTheStateLegal := by
  intro s t hs h
  unfold step at h
  split at h
  next c rest _ => exact exec_legal (s := { s with pending := rest }) hs h
  next =>
    cases h
    exact tick_legal hs

/-- The L0 exit starts DEVTIME, latches the straps and loads IDCODE, or does nothing; the queue and the memories stay. -/
theorem execL0Exit_frame {s t : State} (h : execL0Exit s = .next t) :
    t.pending = s.pending ∧ t.mem = s.mem ∧ t.keep = s.keep := by
  unfold execL0Exit at h
  split at h <;> cases h <;> exact ⟨rfl, rfl, rfl⟩

/-- Settles O6: the frame of every command holds the queue, and the L0 exit writes other fields. -/
theorem noCommandTouchesTheQueue : Obligations.NoCommandTouchesTheQueue := by
  intro c s t h
  by_cases hc : c = .l0Exit
  · subst hc
    exact (execL0Exit_frame h).1
  · obtain ⟨⟨hpending, _, _⟩, _⟩ := exec_keeps_of_ne_l0Exit c hc h
    exact hpending

-- DEVTIME (00 R10) ----------------------------------------------------------------------------------------------------

theorem step_of_empty_queue {s : State} (h : s.pending = []) : step s = .next s.tick := by
  simp only [step, h]

theorem exec_l0Exit_zeroes_devtime {s : State} (hphase : s.rst.phase = .l0Exiting) (hpower : s.pins.pwrGood = true)
    (hclk : s.clk.refclk = true) : ∃ t, exec .l0Exit s = .next t ∧ t.clk.devtime = 0 := by
  simp only [exec, execL0Exit, hphase, hpower, hclk]
  exact ⟨_, rfl, rfl⟩

/-- Settles O2: the tick's three cases, the L0 exit, and the frame of every other command. -/
theorem devtimeAdvancesAtATickAndIsClearedAtTheL0Exit :
    Obligations.DevtimeAdvancesAtATickAndIsClearedAtTheL0Exit := by
  refine ⟨fun s hidle => ⟨fun halive hclk hphase => ?mid, fun halive hclk hphase => ?last, fun hstopped => ?stopped⟩,
    fun s => exec_l0Exit_zeroes_devtime, fun c s t hc h => ?frame⟩
  case mid =>
    have hne : s.clk.phase ≠ 23 := by omega
    simp [step_of_empty_queue hidle, State.tick, halive, hclk, hne]
  case last => simp [step_of_empty_queue hidle, State.tick, halive, hclk, hphase]
  case stopped =>
    have hoff : (s.clk.alive && s.clk.refclk) = false := by simpa [← Bool.not_eq_true, imp_iff_not_or] using hstopped
    simp [step_of_empty_queue hidle, State.tick, hoff]
  case frame =>
    obtain ⟨⟨_, hdevtime, _⟩, _⟩ := exec_keeps_of_ne_l0Exit c hc h
    exact hdevtime

-- The byte memories (O60) ---------------------------------------------------------------------------------------------

/-- Private memory and the keep store list the same bytes in both states. -/
def MemSame (s t : State) : Prop := t.mem.cells = s.mem.cells ∧ t.keep.cells = s.keep.cells

theorem memSame_of_view {s t : State} (h : view t = view s) : MemSame s t :=
  ⟨congrArg View.priv h, congrArg View.keep h⟩

theorem MemSame.reads {s t : State} (h : MemSame s t) :
    (∀ a, t.readPriv a = s.readPriv a) ∧ (∀ a, t.readKeep a = s.readKeep a) := by
  obtain ⟨hpriv, hkeep⟩ := h
  simp [State.readPriv, State.readKeep, hpriv, hkeep]

theorem memSame_execL0Exit {s t : State} (h : execL0Exit s = .next t) : MemSame s t := by
  obtain ⟨_, hmem, hkeep⟩ := execL0Exit_frame h
  exact ⟨by rw [hmem], by rw [hkeep]⟩

theorem memSame_execNetTmoWrite {s t : State} {hostLimit : Bool} {v : BitVec 32}
    (h : execNetTmoWrite hostLimit v s = .next t) : MemSame s t := by
  have hwake : MemSame s s.wakeFabric := memSame_of_view (by simp)
  unfold execNetTmoWrite at h
  cases h
  split
  · cases hostLimit <;> exact hwake
  · exact ⟨rfl, rfl⟩

theorem memSame_foldl_msixFlush {s u : State} (l : List Nat) (h : MemSame s u) :
    MemSame s (l.foldl State.msixFlush u) := by
  obtain ⟨hpriv, hkeep⟩ := h
  have hfold := view_foldl _ view_State_msixFlush l u
  exact ⟨(congrArg View.priv hfold).trans hpriv, (congrArg View.keep hfold).trans hkeep⟩

theorem memSame_execLinkActive {s t : State} {speed width ucie : Nat}
    (h : execLinkActive speed width ucie s = .next t) : MemSame s t := by
  unfold execLinkActive at h
  cases h
  split
  · exact ⟨rfl, rfl⟩
  · exact memSame_foldl_msixFlush _ ⟨rfl, rfl⟩

/-- The dispatch read as the memories' frame: each command that writes no memory cites the law of its view, but the few that
write a timeout, the link's fields or the TAP. -/
theorem exec_memSame {s t : State} : ∀ c : Instr, mayWriteMemory c = false → exec c s = .next t → MemSame s t
  | .doorbell .., _, h => memSame_of_view (view_execDoorbell _ _ _ _ _ h)
  | .heartbeatWrite .., _, h => memSame_of_view (view_execHeartbeatWrite _ _ h)
  | .fwBegin, _, h => memSame_of_view (view_execFwBegin _ h)
  | .fwCommit, _, h => memSame_of_view (view_execFwCommit _ h)
  | .fwVerifyDone, _, h => memSame_of_view (view_execFwVerifyDone _ h)
  | .abortQueue .., _, h => memSame_of_view (view_execAbortQueue _ _ _ _ h)
  | .abortInstance .., _, h => memSame_of_view (view_execAbortInstance _ _ _ h)
  | .mmuInvalidateRange .., _, h => memSame_of_view (view_execMmuInvalidateRange _ _ _ h)
  | .mmuInvalidateAll .., _, h => memSame_of_view (view_execMmuInvalidateAll _ _ _ h)
  | .invalidationDone .., _, h => memSame_of_view (view_execInvalidationDone _ _ h)
  | .prbCtlWrite .., _, h => memSame_of_view (view_execPrbCtlWrite _ _ _ h)
  | .traceCtlWrite .., _, h => memSame_of_view (view_execTraceCtlWrite _ _ h)
  | .netTmoWrite .., _, h => memSame_execNetTmoWrite h
  | .emuWrite .., _, h => memSame_of_view (view_execEmuWrite _ _ _ _ h)
  | .emuWriteApply .., _, h => memSame_of_view (view_execEmuWriteApply _ _ h)
  | .emuRead .., _, h => memSame_of_view (view_execEmuRead _ _ _ _ h)
  | .shadowPublish .., _, h => memSame_of_view (view_execShadowPublish _ _ h)
  | .msixVectorUnmask .., _, h => memSame_of_view (view_execMsixVectorUnmask _ _ _ h)
  | .mailboxDoorbell .., _, h => memSame_of_view (view_execMailboxDoorbell _ _ _ h)
  | .nopMessage .., _, h => memSame_of_view (view_execNopMessage _ _ _ _ h)
  | .queueCreate .., _, h => memSame_of_view (view_execQueueCreate _ _ _ _ h)
  | .queueDestroy .., _, h => memSame_of_view (view_execQueueDestroy _ _ _ _ h)
  | .queueReset .., _, h => memSame_of_view (view_execQueueReset _ _ _ _ h)
  | .graphRegister .., _, h => memSame_of_view (view_execGraphRegister _ _ _ _ _ h)
  | .graphRelease .., _, h => memSame_of_view (view_execGraphRelease _ _ _ _ h)
  | .graphQuery .., _, h => memSame_of_view (view_execGraphQuery _ _ _ _ h)
  | .contractAdmit .., _, h => memSame_of_view (view_execContractAdmit _ _ _ _ h)
  | .contractRelease .., _, h => memSame_of_view (view_execContractRelease _ _ _ _ h)
  | .contractQuery .., _, h => memSame_of_view (view_execContractQuery _ _ _ _ h)
  | .instanceInfo .., _, h => memSame_of_view (view_execInstanceInfo _ _ _ _ h)
  | .mailboxClose .., _, h => memSame_of_view (view_execMailboxClose _ _ _ _ h)
  | .instanceCreate .., _, h => memSame_of_view (view_execInstanceCreate _ _ _ _ h)
  | .instanceRemove .., _, h => memSame_of_view (view_execInstanceRemove _ _ _ _ h)
  | .partAssign .., _, h => memSame_of_view (view_execPartAssign _ _ _ _ h)
  | .partRevoke .., _, h => memSame_of_view (view_execPartRevoke _ _ _ _ h)
  | .roleBind .., _, h => memSame_of_view (view_execRoleBind _ _ _ _ h)
  | .roleUnbind .., _, h => memSame_of_view (view_execRoleUnbind _ _ _ _ h)
  | .freeze .., _, h => memSame_of_view (view_execFreeze _ _ _ _ h)
  | .freezeComplete .., _, h => memSame_of_view (view_execFreezeComplete _ _ h)
  | .freezeTimeout .., _, h => memSame_of_view (view_execFreezeTimeout _ _ h)
  | .vfEnableSet, _, h => memSame_of_view (view_execVfEnableSet _ h)
  | .numVfsWrite .., _, h => memSame_of_view (view_execNumVfsWrite _ _ h)
  | .d3hotEntry .., _, h => memSame_of_view (view_execD3hotEntry _ _ h)
  | .d0Return .., _, h => memSame_of_view (view_execD0Return _ _ h)
  | .atsInvalidate .., _, h => memSame_of_view (view_execAtsInvalidate _ _ _ h)
  | .atsInvalidateComplete .., _, h => memSame_of_view (view_execAtsInvalidateComplete _ _ _ h)
  | .linkActive .., _, h => memSame_execLinkActive h
  | .pwrGoodRise, _, h => memSame_of_view (view_execPwrGoodRise _ h)
  | .pwrCapNFall .., _, h => memSame_of_view (view_execPwrCapNFall _ _ h)
  | .pwrCapNRise, _, h => memSame_of_view (view_execPwrCapNRise _ h)
  | .thermalEvaluate, _, h => memSame_of_view (view_execThermalEvaluate _ h)
  | .tapReset, _, h => by cases h; exact ⟨rfl, rfl⟩
  | .extest, _, h => by cases h; exact ⟨rfl, rfl⟩
  | .samplePreload .., _, h => by cases h; exact ⟨rfl, rfl⟩
  | .idcode, _, h => by cases h; exact ⟨rfl, rfl⟩
  | .clamp, _, h => by cases h; exact ⟨rfl, rfl⟩
  | .highz, _, h => by cases h; exact ⟨rfl, rfl⟩
  | .bypass, _, h => by cases h; exact ⟨rfl, rfl⟩
  | .responseRead, _, h => memSame_of_view (view_execResponseRead _ h)
  | .segSessionTimeout .., _, h => memSame_of_view (view_execSegSessionTimeout _ _ h)
  | .enec, _, h => memSame_of_view (view_execEnec _ h)
  | .disec, _, h => memSame_of_view (view_execDisec _ h)
  | .rstdaa, _, h => memSame_of_view (view_execRstdaa _ h)
  | .entdaa .., _, h => memSame_of_view (view_execEntdaa _ _ h)
  | .setdasa .., _, h => memSame_of_view (view_execSetdasa _ _ h)
  | .setnewda .., _, h => memSame_of_view (view_execSetnewda _ _ h)
  | .getPid, _, h => memSame_of_view (view_execGetPid _ h)
  | .getBcr, _, h => memSame_of_view (view_execGetBcr _ h)
  | .getDcr, _, h => memSame_of_view (view_execGetDcr _ h)
  | .getStatus, _, h => memSame_of_view (view_execGetStatus _ h)
  | .getMwl, _, h => memSame_of_view (view_execGetMwl _ h)
  | .getMrl, _, h => memSame_of_view (view_execGetMrl _ h)
  | .mgmtLinkLost, _, h => memSame_of_view (view_execMgmtLinkLost _ h)
  | .fetchRead, _, h => memSame_of_view (view_execFetchRead _ h)
  | .commandCheck .., _, h => memSame_of_view (view_execCommandCheck _ _ h)
  | .relocate .., _, h => memSame_of_view (view_execRelocate _ _ _ h)
  | .nop .., _, h => memSame_of_view (view_execNop _ _ _ h)
  | .wait .., _, h => memSame_of_view (view_execWait _ _ _ h)
  | .signal .., _, h => memSame_of_view (view_execSignal _ _ _ h)
  | .barrier .., _, h => memSame_of_view (view_execBarrier _ _ _ h)
  | .handleBind .., _, h => memSame_of_view (view_execHandleBind _ _ _ h)
  | .handleFree .., _, h => memSame_of_view (view_execHandleFree _ _ _ h)
  | .launchGraph .., _, h => memSame_of_view (view_execLaunchGraph _ _ _ h)
  | .patch .., _, h => memSame_of_view (view_execPatch _ _ _ h)
  | .scoreboardAdmit, _, h => memSame_of_view (view_execScoreboardAdmit _ h)
  | .waitTimeout .., _, h => memSame_of_view (view_execWaitTimeout _ _ _ h)
  | .priorityQueueInsert .., _, h => memSame_of_view (view_execPriorityQueueInsert _ _ _ h)
  | .scan, _, h => memSame_of_view (view_execScan _ h)
  | .grantAck .., _, h => memSame_of_view (view_execGrantAck _ _ h)
  | .fusionChangeComplete .., _, h => memSame_of_view (view_execFusionChangeComplete _ _ h)
  | .currentGrantRequest .., _, h => memSame_of_view (view_execCurrentGrantRequest _ _ h)
  | .tileStartReport .., _, h => memSame_of_view (view_execTileStartReport _ _ h)
  | .tileEnd .., _, h => memSame_of_view (view_execTileEnd _ _ _ h)
  | .tileOverrun .., _, h => memSame_of_view (view_execTileOverrun _ _ h)
  | .endReport .., _, h => memSame_of_view (view_execEndReport _ _ h)
  | .irqHoldoffExpiry .., _, h => memSame_of_view (view_execIrqHoldoffExpiry _ _ h)
  | .progressTimeout .., _, h => memSame_of_view (view_execProgressTimeout _ _ _ h)
  | .machineCheck .., _, h => memSame_of_view (view_execMachineCheck _ _ _ _ h)
  | .mcheckReport .., _, h => memSame_of_view (view_execMcheckReport _ _ h)
  | .skimBlockSend .., _, h => memSame_of_view (view_execSkimBlockSend _ _ h)
  | .slotCredit .., _, h => memSame_of_view (view_execSlotCredit _ _ _ h)
  | .skimHoldExpiry .., _, h => memSame_of_view (view_execSkimHoldExpiry _ _ h)
  | .token .., _, h => memSame_of_view (view_execToken _ _ _ _ _ _ h)
  | .credit .., _, h => memSame_of_view (view_execCredit _ _ _ _ h)
  | .walk .., _, h => memSame_of_view (view_execWalk _ _ _ _ h)
  | .irq .., _, h => memSame_of_view (view_execIrq _ _ _ h)
  | .regRd .., _, h => memSame_of_view (view_execRegRd _ _ h)
  | .rdRsp .., _, h => memSame_of_view (view_execRdRsp _ _ _ h)
  | .wrAck .., _, h => memSame_of_view (view_execWrAck _ _ h)
  | .regRsp .., _, h => memSame_of_view (view_execRegRsp _ _ h)
  | .skim .., _, h => memSame_of_view (view_execSkim _ _ _ h)
  | .preempt .., _, h => memSame_of_view (view_execPreempt _ _ h)
  | .voidPkt .., _, h => memSame_of_view (view_execVoidPkt _ _ h)
  | .ticketReq .., _, h => memSame_of_view (view_execTicketReq _ _ _ h)
  | .ticketGrant .., _, h => memSame_of_view (view_execTicketGrant _ _ _ h)
  | .genUpdate .., _, h => memSame_of_view (view_execGenUpdate _ _ _ _ h)
  | .genAck .., _, h => memSame_of_view (view_execGenAck _ _ _ h)
  | .initiatorTimeout .., _, h => memSame_of_view (view_execInitiatorTimeout _ _ _ h)
  | .linkFatalIntervalEnd .., _, h => memSame_of_view (view_execLinkFatalIntervalEnd _ _ h)
  | .drainRoundStart, _, h => memSame_of_view (view_execDrainRoundStart _ h)
  | .hostLossExpiry, _, h => memSame_of_view (view_execHostLossExpiry _ h)
  | .dictRefresh, _, h => memSame_of_view (view_execDictRefresh _ h)
  | .contractLogRead, _, h => memSame_of_view (view_execContractLogRead _ h)
  | .l0Exit, _, h => memSame_execL0Exit h
  | .memoryTrained, _, h => memSame_of_view (view_execMemoryTrained _ h)
  | .deviceRegionFilled, _, h => memSame_of_view (view_execDeviceRegionFilled _ h)
  | .l2PreemptDeadline .., _, h => memSame_of_view (view_execL2PreemptDeadline _ _ _ h)
  | .l2Rebuild, _, h => memSame_of_view (view_execL2Rebuild _ h)
  | .l5ResetDone .., _, h => memSame_of_view (view_execL5ResetDone _ _ _ _ h)
  | .powerStateTransitionDone, _, h => memSame_of_view (view_execPowerStateTransitionDone _ h)
  | .partitionIdleGate .., _, h => memSame_of_view (view_execPartitionIdleGate _ _ h)
  | .partitionUngateDone .., _, h => memSame_of_view (view_execPartitionUngateDone _ _ h)
  | .fabricClockRegate, _, h => memSame_of_view (view_execFabricClockRegate _ h)
  | .railLow .., _, h => memSame_of_view (view_execRailLow _ _ _ h)
  | .railLowClear .., _, h => memSame_of_view (view_execRailLowClear _ _ h)
  | .ldoSettled .., _, h => memSame_of_view (view_execLdoSettled _ _ h)
  | .voltageTrim .., _, h => memSame_of_view (view_execVoltageTrim _ _ _ h)
  | .readAssistStep .., _, h => memSame_of_view (view_execReadAssistStep _ _ _ _ h)
  | .telemetryUpdate .., _, h => memSame_of_view (view_execTelemetryUpdate _ _ h)
  | .undefinedMessage _ _ payload, _, h => memSame_of_view (view_execUndefinedMessage _ _ payload _ h)
  | .i3cBroadcastAddress, _, h => memSame_of_view (view_execI3cBroadcastAddress _ h)
  | .hdrEntry, _, h => memSame_of_view (view_execHdrEntry _ h)
  | .hdrExitPattern, _, h => memSame_of_view (view_execHdrExitPattern _ h)
  | .refclkRestored, _, h => memSame_of_view (view_execRefclkRestored _ h)
  | .criticalPathMonitorReport .., _, h => memSame_of_view (view_execCriticalPathMonitorReport _ _ _ h)
  | .bridgeRetrained, _, h => memSame_of_view (view_execBridgeRetrained _ h)
  | .linkRetrain, _, h => memSame_of_view (view_execLinkRetrain _ h)
  | .reservedTypePacket .., _, h => memSame_of_view (view_execReservedTypePacket _ _ h)

/-- Settles O60: a command that writes no memory leaves both lists of bytes, and a read looks at the list alone. -/
theorem otherCommandsLeaveMemoryAlone : Obligations.OtherCommandsLeaveMemoryAlone :=
  fun c _ _ hc h => (exec_memSame c hc h).reads

end Sys2Proof.Proofs
end

section
/-! PROOFS. The network's control registers (10 R230, R232), the emulated registers (15 R323, R324), the MMU's invalidations
(04 R85) and the firmware registers of the manager (15 R316, R319, R320, R333). -/

namespace Sys2Proof.Proofs
open Sys2Proof Sys2Proof.Machine Sys2Proof.Safety Sys2Proof.Laws

-- PRB_CTL, TRACE_CTL and NET_TMO (O8) ---------------------------------------------------------------------------------

theorem wakeFabric_net (s : State) : s.wakeFabric.net = s.net := rfl

@[simp] theorem wakeFabric_inst (s : State) (n : Nat) : s.wakeFabric.inst n = s.inst n := rfl

theorem writeCtl_frame (q : Probe) (v : BitVec 32) :
    (q.writeCtl v).ctl = v.setWidth 13 ∧ (q.writeCtl v).filt = q.filt ∧ (q.writeCtl v).types = q.types := by
  unfold Probe.writeCtl
  dsimp only
  split <;> exact ⟨rfl, rfl, rfl⟩

/-- A rise of EN clears the counters; any other write leaves them. -/
theorem writeCtl_counters (q : Probe) (v : BitVec 32) :
    (q.ctl.getLsbD 0 = false ∧ v.getLsbD 0 = true →
      (q.writeCtl v).pkts = 0 ∧ (q.writeCtl v).flits = 0 ∧ (q.writeCtl v).waitMax = 0)
    ∧ (¬ (q.ctl.getLsbD 0 = false ∧ v.getLsbD 0 = true) →
      (q.writeCtl v).pkts = q.pkts ∧ (q.writeCtl v).flits = q.flits ∧ (q.writeCtl v).waitMax = q.waitMax) := by
  have hnew : (v.setWidth 13).getLsbD 0 = v.getLsbD 0 := by simp
  simp only [Probe.writeCtl, hnew]
  generalize q.ctl.getLsbD 0 = old
  generalize v.getLsbD 0 = new
  cases old <;> cases new <;> simp

theorem clampTmo_eq (v : BitVec 32) :
    clampTmo v = if v.toNat % 8192 < 8 then 8 else if 4000 < v.toNat % 8192 then 4000 else v.toNat % 8192 := by
  simp only [clampTmo, bits]
  split <;> [skip; split] <;> omega

/-- Settles O8: each write is one update of the network's record after the fabric is woken. -/
theorem networkControlRegistersTakeWrites : Obligations.NetworkControlRegistersTakeWrites := by
  refine ⟨fun s k v hseen => ?probe, fun s v hseen => ?trace, fun s v hseen => ?limit⟩
  case probe =>
    obtain ⟨hctl, hfilt, htypes⟩ := writeCtl_frame (tabGetD s.net.probes k.val {}) v
    obtain ⟨hrise, hflat⟩ := writeCtl_counters (tabGetD s.net.probes k.val {}) v
    refine ⟨s.wakeFabric.updProbe k.val (·.writeCtl v), by simp [exec, execPrbCtlWrite, hseen], rfl, ?_⟩
    simp only [State.updProbe, wakeFabric_net, tabGetD_set_same]
    exact ⟨hctl, hfilt, htypes, hrise, hflat, fun j hj => tabGetD_set_other _ _ _ hj⟩
  case trace =>
    refine ⟨{ s.wakeFabric with net := s.net.writeTrace v }, by simp [exec, execTraceCtlWrite, hseen], ?_⟩
    simp only [Net.writeTrace]
    generalize v.getLsbD 0 = new
    cases hold : s.net.traceEn <;> cases new <;> exact ⟨rfl, by simp, by simp⟩
  case limit =>
    simp only [exec, execNetTmoWrite, hseen, State.writeTmo, clampTmo_eq, wakeFabric_net]
    exact ⟨rfl, rfl⟩

-- The emulated registers (O9) -----------------------------------------------------------------------------------------

theorem emuIndex_ne_feStatus {off k : Nat} (h : emuIndex off = some k) : off ≠ 0x0F0 := by
  rintro rfl
  simp [emuIndex] at h

theorem regionOf_emu {fn off : Nat} (hoff : off < 4096) : regionOf fn (emuBase fn + off) = some (.emu, off) := by
  by_cases hfn : fn = 0
  · subst hfn
    have hpage : (20480 + off) / 4096 = 5 := by omega
    have hlow : ¬ 20480 + off < 0x2000 := by omega
    have hhigh : 20480 + off < 0x7000 := by omega
    have hmod : (20480 + off) % 4096 = off := by omega
    simp [regionOf, emuBase, hpage, hlow, hhigh, hmod, pageRegion]
  · have hpage : (12288 + off) / 4096 = 3 := by omega
    have hmod : (12288 + off) % 4096 = off := by omega
    simp [regionOf, emuBase, hfn, hpage, hmod, pageRegion]

theorem emuBase_mod (fn : Nat) {k : Nat} (hk : k = 4 ∨ k = 8) (off : Nat) : (emuBase fn + off) % k = off % k := by
  unfold emuBase
  rcases hk with rfl | rfl <;> split <;> omega

/-- The word of an emulated register as a function meets it. -/
theorem readWord_emu (s : State) {fn off : Nat} (hoff : off < 4096) :
    s.readWord fn (emuBase fn + off) = if fn ≠ 0 ∧ (s.inst fn).state = .absent then 0 else s.emuWord fn off := by
  simp [State.readWord, regionOf_emu hoff, State.regionWord]

theorem emuWord_values (s : State) (n off : Nat) :
    (off ∈ emuOffsets → s.serving = true → s.emuWord n off = s.emuValue n off)
    ∧ (off ∈ emuOffsets → s.serving = false → s.emuWord n off = tabGetD (s.inst n).shadow off 0)
    ∧ (off = 0x0F0 → s.emuWord n off = s.feStatus n) := by
  have hne : off ∈ emuOffsets → off ≠ 0x0F0 := by
    rintro hmem rfl
    simp [emuOffsets] at hmem
  refine ⟨fun hmem hserving => ?_, fun hmem hserving => ?_, fun hoff => by simp [State.emuWord, hoff]⟩ <;>
    simp [State.emuWord, hne hmem, List.contains_iff_mem, hmem, hserving]

theorem exec_emuRead {s : State} {fn : Fin 33} (hseen : s.seen fn.val = true) (hflr : s.flrRuns fn.val = false) {off : Nat}
    (hoff : off < 4096) (k : Nat) : exec (.emuRead fn off k) s = .next (s.barRead fn.val (emuBase fn.val + off) k) := by
  simp [exec, execEmuRead, hseen, hflr, hoff]

/-- A read of one or two aligned registers answers their words, lowest first. -/
theorem barRead_emu (s : State) {fn off k : Nat} (hoff : off < 4096) (hk : k = 4 ∨ k = 8) (halign : off % k = 0) :
    s.barRead fn (emuBase fn + off) k = { s.wakeFabric with link := { s.link with
      readData := (List.range (k / 4)).flatMap
        (fun j => leBytes 4 (s.wakeFabric.readWord fn (emuBase fn + off + 4 * j)).toNat) } } := by
  have hsize : ((k != 4) && (k != 8)) = false := by rcases hk with rfl | rfl <;> rfl
  simp only [State.barRead, hsize, emuBase_mod fn hk, halign, regionOf_emu hoff]
  rfl

theorem barRead_emu_bad (s : State) {fn off k : Nat} (hbad : (k ≠ 4 ∧ k ≠ 8) ∨ off % k ≠ 0) :
    s.barRead fn (emuBase fn + off) k = { s.wakeFabric with link := { s.link with
      badAccess := satInc s.link.badAccess, readData := List.replicate k 0 } } := by
  have hcond : ((k != 4) && (k != 8) || (emuBase fn + off) % k != 0) = true := by
    by_cases hk : k = 4 ∨ k = 8
    · rw [emuBase_mod fn hk]
      have halign : off % k ≠ 0 := by omega
      simp [halign]
    · have hne : k ≠ 4 ∧ k ≠ 8 := by omega
      simp [hne]
  simp only [State.barRead, hcond, Bool.true_or]
  rfl

theorem publish_shadow (vals : List (Nat × BitVec 32)) (hkeys : (vals.map (·.1)).Nodup) (t : Tab (BitVec 32)) :
    ∀ e ∈ vals, tabGetD (vals.foldl (fun t e => tabSet t e.1 e.2) t) e.1 0 = e.2 := by
  have stays : ∀ (l : List (Nat × BitVec 32)) (t : Tab (BitVec 32)) (o : Nat), o ∉ l.map (·.1) →
      tabGetD (l.foldl (fun t e => tabSet t e.1 e.2) t) o 0 = tabGetD t o 0 := by
    intro l
    induction l with
    | nil => exact fun _ _ _ => rfl
    | cons x xs ih =>
      intro t o ho
      simp only [List.map_cons, List.mem_cons, not_or] at ho
      rw [List.foldl_cons, ih _ o ho.2, tabGetD_set_other _ _ _ ho.1]
  induction vals generalizing t with
  | nil => simp
  | cons x xs ih =>
    simp only [List.map_cons, List.nodup_cons] at hkeys
    intro e he
    rw [List.foldl_cons]
    rcases List.mem_cons.1 he with rfl | he
    · rw [stays xs _ _ hkeys.1, tabGetD_set_same]
    · exact ih hkeys.2 _ e he

/-- Settles O9: the queue of writes, the values as the function meets them, and the shadows. -/
theorem emulatedRegistersQueueApplyAnswerAndPublish : Obligations.EmulatedRegistersQueueApplyAnswerAndPublish := by
  refine ⟨fun s fn off k v hseen hk => ?queued, fun s fn v hseen => ?status, fun s fn k v rest hserving hqueue => ?applied,
    fun s fn off hseen hflr hoff => ⟨fun halign => ?one, fun halign => ?two, fun k hbad => ?bad⟩,
    fun s fn off k hflr => ?flr, fun s fn hserving => ?shadow⟩
  case queued =>
    constructor <;> intro hlen
    · simp [exec, execEmuWrite, hseen, State.writeEmu, emuIndex_ne_feStatus hk, hk, State.updInst, hlen]
    · simp [exec, execEmuWrite, hseen, State.writeEmu, emuIndex_ne_feStatus hk, hk, State.updInst, Nat.not_lt.2 hlen]
  case status => constructor <;> intro hv <;> simp only [exec, execEmuWrite, hseen, State.writeEmu, hv] <;> rfl
  case applied => simp [exec, execEmuWriteApply, hserving, State.updInst, applyEmu, hqueue]
  case one =>
    refine ⟨s.wakeFabric.readWord fn.val (emuBase fn.val + off), ?_, fun hfn habsent => ?_, fun hthere => ?_⟩
    · rw [exec_emuRead hseen hflr hoff, barRead_emu s hoff (.inl rfl) halign]
      simp [List.range_succ]
    · rw [readWord_emu _ hoff]
      exact if_pos ⟨hfn, habsent⟩
    · have hnot : ¬ (fn.val ≠ 0 ∧ (s.inst fn.val).state = .absent) := by tauto
      rw [readWord_emu _ hoff, wakeFabric_inst, if_neg hnot]
      exact emuWord_values s.wakeFabric fn.val off
  case two =>
    have hoff4 : off + 4 < 4096 := by omega
    refine ⟨_, _, _, exec_emuRead hseen hflr hoff 8, exec_emuRead hseen hflr hoff 4, exec_emuRead hseen hflr hoff4 4, ?_⟩
    rw [barRead_emu s hoff (.inr rfl) halign, barRead_emu s hoff (.inl rfl) (by omega),
      barRead_emu s hoff4 (.inl rfl) (by omega)]
    simp [List.range_succ, Nat.add_assoc]
  case bad =>
    rw [exec_emuRead hseen hflr hoff, barRead_emu_bad s hbad]
  case flr => simp [exec, execEmuRead, hflr]
  case shadow =>
    refine ⟨s.publish fn.val, by simp [exec, execShadowPublish, hserving], rfl, ?_, fun o ho => ?_,
      fun n hn => updInst_inst_other _ _ hn⟩
    · simp [State.publish]
    · simp only [State.publish, updInst_inst_same]
      exact publish_shadow (emuOffsets.map (fun o => (o, s.emuValue fn.val o))) (by simp [emuOffsets]) _
        (o, s.emuValue fn.val o) (List.mem_map_of_mem ho)

-- Invalidations of the MMU (O10) --------------------------------------------------------------------------------------

theorem mmu_write_inval (m : Mmu) (n : Nat) (v : BitVec 32) (now : Nat) : m.write n 0x118 v now = m.writeInval v now := rfl

/-- A row of INVAL_CTL writes the MMU of its instance and no other record. -/
theorem writeView_frame (s : State) (n off : Nat) (v : BitVec 32) :
    s.writeView n off v = { s with insts := (s.writeView n off v).insts }
    ∧ (s.writeView n off v).inst n = { s.inst n with mmu := (s.inst n).mmu.write n off v s.now }
    ∧ ∀ m, m ≠ n → (s.writeView n off v).inst m = s.inst m :=
  ⟨rfl, updInst_inst_same .., fun _ hm => updInst_inst_other _ _ hm⟩

/-- What MMU_INVALIDATE_RANGE writes: GO set, ALL clear, the other bits as given. -/
theorem rangeWord_bits (v : BitVec 32) :
    ((v ||| 1) &&& ~~~ 2#32).getLsbD 0 = true ∧ ((v ||| 1) &&& ~~~ 2#32).getLsbD 1 = false
    ∧ ((v ||| 1) &&& ~~~ 2#32).getLsbD 2 = v.getLsbD 2 ∧ bits ((v ||| 1) &&& ~~~ 2#32).toNat 31 16 = v.toNat / 2 ^ 16 := by
  have hsize : ((v ||| 1) &&& ~~~ 2#32) >>> 16 = v >>> 16 := by
    ext i hi
    have hone : (1#32).getLsbD (16 + i) = false := by
      rw [BitVec.getLsbD_one]
      simp
    have htwo : (2#32).getLsbD (16 + i) = false := by
      rw [show (2#32) = BitVec.twoPow 32 1 from rfl, BitVec.getLsbD_twoPow]
      simp
      omega
    simp only [BitVec.getElem_ushiftRight, BitVec.getLsbD_and, BitVec.getLsbD_or, BitVec.getLsbD_not, hone, htwo]
    by_cases hlt : 16 + i < 32
    · simp [hlt]
    · simp [hlt, BitVec.getLsbD_of_ge v (16 + i) (by omega)]
  refine ⟨by simp, by simp, by simp, ?_⟩
  have hnat := congrArg BitVec.toNat hsize
  simp only [BitVec.toNat_ushiftRight, Nat.shiftRight_eq_div_pow] at hnat
  have hv := v.isLt
  simp only [bits, hnat]
  omega

/-- A row of INVAL_CTL with GO set, met while none is under way: a range of no pages is done at once, any other range or the
whole space starts now. -/
theorem writeInval_go {m : Mmu} {v : BitVec 32} {now : Nat} (hidle : m.invalGo = false) (hgo : v.getLsbD 0 = true) :
    m.writeInval v now =
      if bits v.toNat 31 16 = 0 ∧ v.getLsbD 1 = false then
        { m with invalAll := false, invalSize := 0, invalDone := true }
      else { m with invalGo := true, invalAll := v.getLsbD 1, invalSize := BitVec.ofNat 16 (bits v.toNat 31 16),
                    invalDone := m.invalDone && !v.getLsbD 2, invalFrom := bits m.invalAddr.toNat 47 16,
                    invalPages := bits v.toNat 31 16, invalAt := now } := by
  simp only [Mmu.writeInval, hidle, hgo]
  generalize v.getLsbD 1 = all
  by_cases hsize : bits v.toNat 31 16 = 0 <;> cases all <;> simp [hsize]

theorem allWord_bits (v : BitVec 32) : (v ||| 3).getLsbD 0 = true ∧ (v ||| 3).getLsbD 1 = true := by
  constructor <;> simp

theorem exec_mmuInvalidateRange {s : State} (hseen : s.seen 0 = true) (n : Fin 33) (v : BitVec 32) :
    exec (.mmuInvalidateRange n v) s = .next (s.wakeFabric.writeView n.val 0x118 ((v ||| 1) &&& ~~~ 2#32)) := by
  simp only [exec, execMmuInvalidateRange, hseen, if_true]

theorem exec_mmuInvalidateAll {s : State} (hseen : s.seen 0 = true) (n : Fin 33) (v : BitVec 32) :
    exec (.mmuInvalidateAll n v) s = .next (s.wakeFabric.writeView n.val 0x118 (v ||| 3)) := by
  simp only [exec, execMmuInvalidateAll, hseen, if_true]

theorem invalHits_range {m : Mmu} (hall : m.invalAll = false) (page : Nat) :
    m.invalHits page = true ↔ m.invalFrom ≤ page ∧ page < m.invalFrom + m.invalPages := by
  simp [Mmu.invalHits, hall]

theorem invalHits_all {m : Mmu} (hall : m.invalAll = true) (page : Nat) : m.invalHits page = true := by
  simp [Mmu.invalHits, hall]

/-- An invalidation ends where no earlier request of the instance waits for it. -/
theorem exec_invalidationDone {s : State} {n : Fin 33} (hgo : (s.inst n.val).mmu.invalGo = true)
    (hreqs : ∀ r ∈ tabVals s.net.reqs, r.inst = n.val → r.sentAt ≤ (s.inst n.val).mmu.invalAt →
      (s.inst n.val).mmu.invalWaits r = false) :
    exec (.invalidationDone n) s = .next (s.updInst n.val (fun i => { i with mmu := i.mmu.endInval })) := by
  have hnone : (tabVals s.net.reqs).any (fun r => r.inst == n.val && decide (r.sentAt ≤ (s.inst n.val).mmu.invalAt)
      && (s.inst n.val).mmu.invalWaits r) = false := by
    rw [List.any_eq_false]
    intro r hr hwaits
    simp only [Bool.and_eq_true, beq_iff_eq, decide_eq_true_eq] at hwaits
    obtain ⟨⟨hinst, hsent⟩, hw⟩ := hwaits
    rw [hreqs r hr hinst hsent] at hw
    exact Bool.false_ne_true hw
  simp only [exec, execInvalidationDone, hgo, hnone]
  rfl

/-- Settles O10: GO starts the range or the whole space, and the end filters the covered translations out. -/
theorem invalidationStartsAndEnds : Obligations.InvalidationStartsAndEnds := by
  refine ⟨fun s n v hseen hidle hpages => ?range, fun s n v hseen hidle hempty => ?empty, fun s n v hseen hidle => ?all,
    fun s n hgo hreqs => ?done⟩
  case range =>
    obtain ⟨h0, h1, h2, hsize⟩ := rangeWord_bits v
    obtain ⟨hframe, hinst, hother⟩ := writeView_frame s.wakeFabric n.val 0x118 ((v ||| 1) &&& ~~~ 2#32)
    refine ⟨_, exec_mmuInvalidateRange hseen n v, hframe, ?_, hother⟩
    have hne : ¬ (v.toNat / 2 ^ 16 = 0 ∧ (false = false)) := by omega
    rw [hinst, mmu_write_inval, writeInval_go (m := (s.wakeFabric.inst n.val).mmu) hidle h0, hsize, h1, h2, if_neg hne]
    have hcode : (v >>> 16).setWidth 16 = BitVec.ofNat 16 (v.toNat / 2 ^ 16) := by
      apply BitVec.eq_of_toNat_eq
      simp [Nat.shiftRight_eq_div_pow]
    rw [hcode]
    rfl
  case empty =>
    obtain ⟨h0, h1, h2, hsize⟩ := rangeWord_bits v
    obtain ⟨hframe, hinst, hother⟩ := writeView_frame s.wakeFabric n.val 0x118 ((v ||| 1) &&& ~~~ 2#32)
    refine ⟨_, exec_mmuInvalidateRange hseen n v, hframe, ?_, ?_, ?_, hother⟩ <;>
      rw [hinst, mmu_write_inval, writeInval_go (m := (s.wakeFabric.inst n.val).mmu) hidle h0, hsize, h1, h2,
        if_pos ⟨by omega, rfl⟩]
    · exact hidle
    · rfl
  case all =>
    obtain ⟨h0, h1⟩ := allWord_bits v
    obtain ⟨hframe, hinst, hother⟩ := writeView_frame s.wakeFabric n.val 0x118 (v ||| 3)
    refine ⟨_, exec_mmuInvalidateAll hseen n v, hframe, ?_, ?_, ?_, ?_, hother⟩ <;>
      rw [hinst, mmu_write_inval, writeInval_go (m := (s.wakeFabric.inst n.val).mmu) hidle h0, h1, if_neg (by simp)] <;>
      rfl
  case done =>
    refine ⟨_, exec_invalidationDone hgo hreqs, rfl, ?_, fun hall => ?_, fun hall => ?_, fun k hk => updInst_inst_other _ _ hk⟩ <;>
      rw [updInst_inst_same]
    · rfl
    · simp [Mmu.endInval, invalHits_all hall]
    · constructor <;> intro e <;>
        simp only [Mmu.endInval, List.mem_filter, Bool.not_eq_true', ← Bool.not_eq_true, invalHits_range hall] <;> rfl

-- The firmware registers (O11) ----------------------------------------------------------------------------------------

theorem levelOf_swReset (s : State) : s.levelOf 12 = 1 ∨ s.levelOf 12 = 2 := by
  simp only [State.levelOf, allowedLevels]
  split
  next h => simpa using h
  next => exact .inl rfl

theorem mayBegin_iff (f : FwState) : f.mayBegin = true ↔ f = .reset ∨ f = .loadWait ∨ f = .loadFailed := by
  simp [FwState.mayBegin, or_assoc]

/-- With no reset under way a source at level L1 or L2 acts and waits to be resolved. -/
theorem actSource_acts {s : State} {source : Nat} (hphase : s.rst.phase = .none)
    (hlevel : s.levelOf source = 1 ∨ s.levelOf source = 2) (arg : Nat) : s.actSource source arg = withActing s source arg := by
  have hwide : s.wideRuns = false := by simp [State.wideRuns, hphase]
  have hl2 : s.l2Runs = false := by simp [State.l2Runs, hphase]
  rcases hlevel with h | h <;> simp [State.actSource, hwide, hl2, h, State.pushActing, withActing]

/-- Settles O11: each register's write is one update of the manager's firmware record, or a reset source that acts. -/
theorem firmwareRegistersTakeWrites : Obligations.FirmwareRegistersTakeWrites := by
  refine fun s hseen => ⟨fun v => ?heartbeat, fun hmay => ?begin, fun h1 h2 h3 => ?mayNot, fun hload => ?commit,
    fun hload => ?idle, fun hphase => ?reset, fun v hv => ?key⟩
  case heartbeat => simp only [exec, execHeartbeatWrite, hseen, State.heartbeat]; rfl
  case begin =>
    have hbegin : s.wakeFabric.mgc.fw.mayBegin = true := (mayBegin_iff s.mgc.fw).2 hmay
    simp only [exec, execFwBegin, hseen, State.loadBegin, hbegin]
    rfl
  case mayNot =>
    have hbegin : s.wakeFabric.mgc.fw.mayBegin = false :=
      Bool.eq_false_iff.2 (fun h => by have := (mayBegin_iff s.mgc.fw).1 h; tauto)
    simp only [exec, execFwBegin, hseen, State.loadBegin, hbegin]
    rfl
  case commit => simp [exec, execFwCommit, hseen, State.loadCommit, State.wakeFabric, hload]
  case idle => simp [exec, execFwCommit, hseen, State.loadCommit, State.wakeFabric, hload]
  case reset =>
    simp only [exec, execSwReset, hseen, State.swReset, if_true]
    rw [actSource_acts (s := s.wakeFabric) hphase (levelOf_swReset _)]
  case key =>
    simp only [exec, execSwReset, hseen, State.swReset, hv]
    rfl

end Sys2Proof.Proofs
end

section
/-! PROOFS. Host writes (05 R100 to R107): AER, the configuration space, the regions of the BARs, doorbells, IN_PROD and the
vectors' masks. -/

namespace Sys2Proof.Proofs
open Sys2Proof Sys2Proof.Machine Sys2Proof.Safety Sys2Proof.Laws

-- The alert of the management link ------------------------------------------------------------------------------------

theorem alerted_self (s : State) : alerted s s = s := by
  unfold alerted
  cases h : decide (s.alert = 0) <;> simp_all

/-- The in-band interrupt is all that an alert adds. -/
theorem alerted_eq (s t : State) : alerted s t = { t with bus := { t.bus with ibis := (alerted s t).bus.ibis } } := by
  unfold alerted
  split <;> rfl

@[simp] theorem alerted_func (s t : State) (g : Nat) : (alerted s t).func g = t.func g := by
  unfold alerted
  split <;> rfl

@[simp] theorem alerted_link (s t : State) : (alerted s t).link = t.link := by
  unfold alerted
  split <;> rfl

@[simp] theorem alerted_net (s t : State) : (alerted s t).net = t.net := by
  unfold alerted
  split <;> rfl

@[simp] theorem alerted_queues (s t : State) : (alerted s t).queues = t.queues := by
  unfold alerted
  split <;> rfl

@[simp] theorem alerted_abrt (s t : State) : (alerted s t).abrt = t.abrt := by
  unfold alerted
  split <;> rfl

-- AER (05 R106) -------------------------------------------------------------------------------------------------------

/-- What an error of a function does: its bit is noted in the function, a header of free words may be taken and the error may be
told on the link. -/
theorem aerFn_cases (s : State) (correctable : Bool) (b fn : Nat) :
    ∃ (n : Nat) (f : Func → Func), (∀ c, correctable = false → (f c).aerUnc = c.aerUnc ||| (1#32 <<< b))
      ∧ (s.aerFn correctable b fn = ({ s with freeCount := n } : State).updFunc fn f
        ∨ s.aerFn correctable b fn = (({ s with freeCount := n } : State).updFunc fn f).post (.err fn b)) := by
  simp only [State.aerFn]
  generalize (!correctable && (s.func fn).aerUnc == 0) = first
  have hheader : ∃ n, (if (first && aerLogs b) = true then freeHeader s else (List.replicate 4 0, s)).2
      = { s with freeCount := n } := by
    split
    · exact ⟨_, rfl⟩
    · exact ⟨s.freeCount, rfl⟩
  obtain ⟨n, hn⟩ := hheader
  rw [hn]
  refine ⟨n, _, fun c hc => ?_, (ite_eq_or_eq _ _ _).symm⟩
  subst hc
  rfl

/-- What AER changes: the functions, the posted messages and the count of free values. -/
def AerOnly (s t : State) : Prop :=
  t = { s with link := { s.link with funcs := t.link.funcs, posted := t.link.posted }, freeCount := t.freeCount }

theorem aerOnly_aerFn (s : State) (correctable : Bool) (b fn : Nat) : AerOnly s (s.aerFn correctable b fn) := by
  obtain ⟨n, f, _, h | h⟩ := aerFn_cases s correctable b fn <;> rw [h] <;> rfl

theorem AerOnly.trans {a b c : State} (h : AerOnly a b) (k : AerOnly b c) : AerOnly a c := by
  unfold AerOnly at *
  rw [k, h]

theorem aerOnly_foldl_aerFn (correctable : Bool) (b : Nat) (l : List Nat) (s : State) :
    AerOnly s (l.foldl (fun t fn => t.aerFn correctable b fn) s) := by
  induction l generalizing s with
  | nil => exact rfl
  | cons fn l ih => exact (aerOnly_aerFn s correctable b fn).trans (ih _)

theorem post_func (s : State) (p : Posted) (g : Nat) : (s.post p).func g = s.func g := rfl

theorem aerFn_func_other (s : State) (correctable : Bool) (b : Nat) {fn g : Nat} (h : g ≠ fn) :
    (s.aerFn correctable b fn).func g = s.func g := by
  obtain ⟨n, f, _, heq | heq⟩ := aerFn_cases s correctable b fn
  · rw [heq, updFunc_func_other _ _ h]; rfl
  · rw [heq, post_func, updFunc_func_other _ _ h]; rfl

/-- The bit of an uncorrectable error is set and no other is cleared. -/
theorem aerFn_aerUnc (s : State) (b fn : Nat) :
    ((s.aerFn false b fn).func fn).aerUnc = (s.func fn).aerUnc ||| (1#32 <<< b) := by
  obtain ⟨n, f, hf, heq | heq⟩ := aerFn_cases s false b fn
  · rw [heq, updFunc_func_same, hf _ rfl]; rfl
  · rw [heq, post_func, updFunc_func_same, hf _ rfl]; rfl

theorem aerFn_keeps_bit (s : State) {b k : Nat} (fn g : Nat) (h : (s.func g).aerUnc.getLsbD k = true) :
    ((s.aerFn false b fn).func g).aerUnc.getLsbD k = true := by
  by_cases hg : g = fn
  · subst hg
    rw [aerFn_aerUnc, BitVec.getLsbD_or, h, Bool.true_or]
  · rw [aerFn_func_other _ _ _ hg, h]

theorem aerFn_sets_bit (s : State) {b : Nat} (hb : b < 32) (fn : Nat) :
    ((s.aerFn false b fn).func fn).aerUnc.getLsbD b = true := by
  rw [aerFn_aerUnc, BitVec.getLsbD_or]
  simp [hb]

theorem foldl_aerFn_sets_bit {b : Nat} (hb : b < 32) (l : List Nat) (s : State) (g : Nat)
    (h : g ∈ l ∨ (s.func g).aerUnc.getLsbD b = true) :
    ((l.foldl (fun t fn => t.aerFn false b fn) s).func g).aerUnc.getLsbD b = true := by
  induction l generalizing s with
  | nil => simpa using h
  | cons fn l ih =>
    refine ih _ ?_
    rcases h with hmem | hset
    · rcases List.mem_cons.1 hmem with rfl | hmem
      · exact .inr (aerFn_sets_bit s hb g)
      · exact .inl hmem
    · exact .inr (aerFn_keeps_bit s fn g hset)

theorem aer_frame (s : State) (correctable : Bool) (b : Nat) : AerOnly s (s.aer correctable b) :=
  aerOnly_foldl_aerFn correctable b _ s

theorem aer_sets_bit (s : State) {b : Nat} (hb : b < 32) {f : Nat} (hf : f ∈ s.functions) :
    ((s.aer false b).func f).aerUnc.getLsbD b = true :=
  foldl_aerFn_sets_bit hb _ s f (.inl hf)

-- MSI-X vectors (05 R105) ---------------------------------------------------------------------------------------------

theorem updVector_func_same (s : State) (fn v : Nat) (f : Vector → Vector) :
    (s.updVector fn v f).func fn = { s.func fn with vectors := tabSet (s.func fn).vectors v (f (s.vector fn v)) } := by
  simp [State.updVector, State.vector]

theorem updVector_func_other (s : State) {fn g : Nat} (v : Nat) (f : Vector → Vector) (h : g ≠ fn) :
    (s.updVector fn v f).func g = s.func g := updFunc_func_other s _ h

@[simp] theorem updVector_vector_same (s : State) (fn v : Nat) (f : Vector → Vector) :
    (s.updVector fn v f).vector fn v = f (s.vector fn v) := by
  simp [State.updVector, State.vector]

theorem msix_func_other (s : State) {fn g : Nat} (v : Nat) (h : g ≠ fn) : (s.msix fn v).func g = s.func g := by
  unfold State.msix
  split
  · rw [post_func]
    exact updVector_func_other s v _ h
  · exact updVector_func_other s v _ h

theorem msix_memEnable (s : State) (fn v g : Nat) : ((s.msix fn v).func g).memEnable = (s.func g).memEnable := by
  by_cases h : g = fn
  · subst h
    unfold State.msix
    split <;> simp only [post_func, updVector_func_same]
  · rw [msix_func_other s v h]

/-- Flushing a function's pending vectors leaves the other functions and every Memory Space Enable alone. -/
theorem msixFlush_funcs (s : State) (fn : Nat) :
    (∀ g, g ≠ fn → (s.msixFlush fn).func g = s.func g) ∧ ∀ g, ((s.msixFlush fn).func g).memEnable = (s.func g).memEnable := by
  unfold State.msixFlush
  generalize tabKeys (s.func fn).vectors = l
  induction l generalizing s with
  | nil => exact ⟨fun _ _ => rfl, fun _ => rfl⟩
  | cons v l ih =>
    rw [List.foldl_cons]
    split
    · obtain ⟨hother, hmem⟩ := ih (s.msix fn v)
      exact ⟨fun g hg => (hother g hg).trans (msix_func_other s v hg), fun g => (hmem g).trans (msix_memEnable s fn v g)⟩
    · exact ih s

-- Configuration writes (05 R99) ---------------------------------------------------------------------------------------

theorem cfgByteAt_func (s : State) (fn off : Nat) (b : Byte) :
    (s.cfgByteAt fn off b).func fn = (s.func fn).cfgByte off b
    ∧ ∀ g, g ≠ fn → (s.cfgByteAt fn off b).func g = s.func g := by
  have hsriov (l : HostLink) : (l.sriovByte off b).funcs = l.funcs := by
    unfold HostLink.sriovByte
    repeat' split
    all_goals rfl
  unfold State.cfgByteAt
  dsimp only
  split
  · have hfunc (g : Nat) : ({ (s.updFunc fn (fun c => c.cfgByte off b)) with
        link := (s.updFunc fn (fun c => c.cfgByte off b)).link.sriovByte off b } : State).func g
        = (s.updFunc fn (fun c => c.cfgByte off b)).func g := by
      simp only [State.func, hsriov]
    exact ⟨(hfunc fn).trans (updFunc_func_same ..), fun g hg => (hfunc g).trans (updFunc_func_other _ _ hg)⟩
  · exact ⟨updFunc_func_same .., fun g hg => updFunc_func_other _ _ hg⟩

/-- The low byte of Command: bit 1 is Memory Space Enable, and the other functions stay. -/
theorem cfgWrite_command (s : State) (fn : Nat) (b : Byte) :
    ((s.cfgWrite fn 4 [b]).func fn).memEnable = b.getLsbD 1 ∧ ∀ g, g ≠ fn → (s.cfgWrite fn 4 [b]).func g = s.func g := by
  obtain ⟨hsame, hother⟩ := cfgByteAt_func s fn 4 b
  obtain ⟨hflush, hmem⟩ := msixFlush_funcs (s.cfgByteAt fn 4 b) fn
  refine ⟨?_, fun g hg => (hflush g hg).trans (hother g hg)⟩
  exact (hmem fn).trans (congrArg Func.memEnable hsame)

-- Glove check point 1 (05 R103) ---------------------------------------------------------------------------------------

/-- Only the instances, the vectors, the posted messages and the hold queue of events differ. -/
def ToldOnly (s t : State) : Prop :=
  SameLink s.link t.link ∧ t = { s with insts := t.insts, link := t.link, mgc := t.mgc }

theorem ToldOnly.trans {a b c : State} (h : ToldOnly a b) (k : ToldOnly b c) : ToldOnly a c := by
  obtain ⟨hlink, heq⟩ := h
  obtain ⟨klink, keq⟩ := k
  refine ⟨hlink.trans klink, ?_⟩
  rw [keq, heq]

theorem ToldOnly.net {s t : State} (h : ToldOnly s t) : t.net = s.net := by rw [h.2]
theorem ToldOnly.queues {s t : State} (h : ToldOnly s t) : t.queues = s.queues := by rw [h.2]
theorem ToldOnly.abrt {s t : State} (h : ToldOnly s t) : t.abrt = s.abrt := by rw [h.2]
theorem ToldOnly.gloveDrop {s t : State} (h : ToldOnly s t) : t.link.gloveDrop = s.link.gloveDrop := by rw [h.1]
theorem ToldOnly.badAccess {s t : State} (h : ToldOnly s t) : t.link.badAccess = s.link.badAccess := by rw [h.1]

theorem toldOnly_updInst (s : State) (n : Nat) (f : Inst → Inst) : ToldOnly s (s.updInst n f) := ⟨rfl, rfl⟩

/-- Two states are the same where every field is. -/
theorem state_ext {s t : State} (clk : s.clk = t.clk) (pins : s.pins = t.pins) (rst : s.rst = t.rst) (mem : s.mem = t.mem)
    (insts : s.insts = t.insts) (queues : s.queues = t.queues) (cmds : s.cmds = t.cmds) (contracts : s.contracts = t.contracts)
    (pages : s.pages = t.pages) (fep : s.fep = t.fep) (parts : s.parts = t.parts) (clusters : s.clusters = t.clusters)
    (skims : s.skims = t.skims) (net : s.net = t.net) (link : s.link = t.link) (mgc : s.mgc = t.mgc) (bus : s.bus = t.bus)
    (dict : s.dict = t.dict) (keep : s.keep = t.keep) (cal : s.cal = t.cal) (pwr : s.pwr = t.pwr) (abrt : s.abrt = t.abrt)
    (tap : s.tap = t.tap) (freeCount : s.freeCount = t.freeCount) (pending : s.pending = t.pending) : s = t := by
  cases s
  cases t
  simp_all

theorem toldOnly_event (s : State) (code subject : Nat) (a b : Bool) (payload : List Byte) :
    ToldOnly s (s.event code subject a b payload) :=
  ⟨event_link .., by apply state_ext <;> simp⟩

/-- A SPOOF event is counted and told. -/
theorem toldOnly_spoof (s : State) (point claimed : Nat) (owner : Option Nat) (src dst slot rid kind seq : Nat) :
    ToldOnly s (s.spoof point claimed owner src dst slot rid kind seq) := by
  have hcount (c : Prop) [Decidable c] (n : Nat) (f : Inst → Inst) : ToldOnly s (if c then s.updInst n f else s) := by
    split
    · exact toldOnly_updInst ..
    · exact ⟨rfl, rfl⟩
  unfold State.spoof
  dsimp only
  have hquiet (f g : Inst → Inst) (n : Nat) (c : Prop) [Decidable c] :
      ToldOnly s ((if c then s.updInst n f else s).updInst n g) := (hcount ..).trans (toldOnly_updInst ..)
  split
  · split
    · exact hquiet ..
    · exact (hquiet ..).trans (toldOnly_event ..)
  · exact (hquiet ..).trans (toldOnly_event ..)

-- A whole access (05 R102, R103) --------------------------------------------------------------------------------------

theorem writeWords_one (s : State) (fn : Nat) (r : Region) (off : Nat) (bs : List Byte) :
    s.writeWords fn r off bs 1 = s.regionWrite fn r off (word (field bs 0 4)) := by
  simp [State.writeWords]

theorem barWrite_past {s : State} {fn off : Nat} (data : List Byte) (h : barSize fn ≤ off) : s.barWrite fn off data = s := by
  simp [State.barWrite, h]

/-- An unassigned offset, or a size the region does not take. -/
theorem barWrite_bad {s : State} {fn off : Nat} {data : List Byte} (hoff : off < barSize fn)
    (hbad : regionOf fn off = none ∨ ∃ r o, regionOf fn off = some (r, o) ∧ sizeOk r o data.length = false) :
    s.barWrite fn off data = s.wakeFabric.badAccess := by
  rcases hbad with h | ⟨r, o, h, hsize⟩
  · simp [State.barWrite, Nat.not_le.2 hoff, h]
  · simp [State.barWrite, Nat.not_le.2 hoff, h, hsize]

theorem regionOf_lt_barSize {fn off : Nat} {x : Region × Nat} (h : regionOf fn off = some x) : off < barSize fn := by
  by_contra hge
  unfold barSize at hge
  unfold regionOf at h
  split at hge
  next hfn =>
    have h1 : ¬ off < 0x2000 := by omega
    have h2 : ¬ off < 0x7000 := by omega
    have h3 : off / 65536 ≠ 1 ∧ off / 65536 ≠ 2 ∧ off / 65536 ≠ 3 ∧ off / 65536 ≠ 4 := by omega
    have h4 : off / 4096 ≠ 0x60 ∧ off / 4096 ≠ 0x61 := by omega
    have h5 : ¬ (0x80000 ≤ off ∧ off < 0xA1000) := by omega
    simp [hfn, h1, h2, h3, h4, h5] at h
  next hfn =>
    have h1 : ¬ off / 4096 < 16 := by omega
    simp [hfn, h1] at h

theorem barWrite_glove1 {s : State} {fn off o : Nat} {r : Region} {data : List Byte} (hregion : regionOf fn off = some (r, o))
    (hsize : sizeOk r o data.length = true) (hstop : s.glove1Stops fn r = true) :
    s.barWrite fn off data = s.wakeFabric.glove1 fn := by
  have hwake : s.wakeFabric.glove1Stops fn r = true := hstop
  simp [State.barWrite, Nat.not_le.2 (regionOf_lt_barSize hregion), hregion, hsize, hwake]

theorem barWrite_words {s : State} {fn off o : Nat} {r : Region} {data : List Byte} (hregion : regionOf fn off = some (r, o))
    (hsize : sizeOk r o data.length = true) (hpass : s.glove1Stops fn r = false) :
    s.barWrite fn off data = if (s.wakeFabric.writeWords fn r o data (data.length / 4)).2
      then (s.wakeFabric.writeWords fn r o data (data.length / 4)).1.badAccess
      else (s.wakeFabric.writeWords fn r o data (data.length / 4)).1 := by
  have hwake : s.wakeFabric.glove1Stops fn r = false := hpass
  simp [State.barWrite, Nat.not_le.2 (regionOf_lt_barSize hregion), hregion, hsize, hwake]

-- O12 -----------------------------------------------------------------------------------------------------------------

theorem exec_registerWrite_seen {s : State} {fn : Fin 33} (hseen : s.seen fn.val = true) (hflr : s.flrRuns fn.val = false)
    (off : Nat) (data : List Byte) :
    exec (.registerWrite fn false false off data) s = .next (alerted s (s.barWrite fn.val off data)) := by
  simp [exec, execRegisterWrite, hseen, hflr]

/-- Settles O12: each outcome of a host write, by the branch of the access that it takes. -/
theorem registerWriteActsOrCountsAsBadAccess : Obligations.RegisterWriteActsOrCountsAsBadAccess := by
  refine ⟨fun s fn config p off data hgone hconfig => ?gone, fun s fn p off data hflr hup hexists hbad => ?error,
    fun s fn off data hseen hflr hoff => ?past, fun s fn off data hseen hflr hoff hbad => ?bad,
    fun s fn off o r data hseen hflr hregion hsize hfn habsent hr => ?glove,
    fun s off o n data hseen hflr hregion halign hlen => ?view,
    fun s fn p off data => ⟨fun hgone => ?noConfig, fun hflr hready hexists => ⟨?config, fun b => ?command⟩⟩⟩
  case gone =>
    subst hconfig
    rcases hgone with h | h | h
    · simp [exec, execRegisterWrite, h, alerted_self]
    · simp [exec, execRegisterWrite, State.seen, State.unsupported, h, alerted_self]
    · simp [exec, execRegisterWrite, State.seen, State.unsupported, h, alerted_self]
  case error =>
    have hexec : exec (.registerWrite fn false p off data) s =
        .next (alerted s (s.aer false (if (s.func fn.val).memEnable then 12 else 20))) := by
      cases hmem : (s.func fn.val).memEnable with
      | false => simp [exec, execRegisterWrite, hflr, State.seen, hup, hexists, hmem, State.unsupported, aerUnsupported]
      | true =>
        have hp : p = true := by simpa [hmem] using hbad
        simp [exec, execRegisterWrite, hflr, State.seen, hup, hexists, hmem, hp, aerPoisoned]
    have hframe := aer_frame s false (if (s.func fn.val).memEnable then 12 else 20)
    refine ⟨_, hexec, ?_, fun f hf => ?_⟩
    · rw [alerted_eq]
      rw [hframe]
    · rw [alerted_func]
      exact aer_sets_bit s (by split <;> decide) hf
  case past =>
    rw [exec_registerWrite_seen hseen hflr, barWrite_past data hoff, alerted_self]
  case bad =>
    rw [exec_registerWrite_seen hseen hflr, barWrite_bad hoff hbad]
    refine ⟨_, rfl, ?_⟩
    rw [alerted_eq]
    rfl
  case glove =>
    have hstop : s.glove1Stops fn.val r = true := by
      rcases hr with rfl | rfl | rfl | rfl <;> simp [State.glove1Stops, hfn, habsent]
    rw [exec_registerWrite_seen hseen hflr, barWrite_glove1 hregion hsize hstop]
    have htold := toldOnly_spoof (State.badAccess { s.wakeFabric with
      link := { s.link with gloveDrop := satInc s.link.gloveDrop } }) 1 0xFF none 0xFF 0xFF 0x3FF fn.val 0 0
    refine ⟨_, rfl, ?_, ?_, ?_, ?_, ?_⟩
    · rw [alerted_link]
      exact htold.gloveDrop
    · rw [alerted_link]
      exact htold.badAccess
    · rw [alerted_net]
      exact htold.net
    · rw [alerted_queues]
      exact htold.queues
    · rw [alerted_abrt]
      exact htold.abrt
  case view =>
    have hsize : sizeOk (.view n) o data.length = true := by simp [sizeOk, hlen, halign]
    have hpass : s.glove1Stops 0 (.view n) = false := by simp [State.glove1Stops]
    obtain ⟨hframe, hinst, hother⟩ := writeView_frame s.wakeFabric n o (word (field data 0 4))
    have hwrite : s.barWrite (0 : Fin 33).val off data = s.wakeFabric.writeView n o (word (field data 0 4)) := by
      rw [barWrite_words (fn := (0 : Fin 33).val) hregion hsize hpass, hlen, writeWords_one]
      rfl
    refine ⟨_, exec_registerWrite_seen (fn := 0) hseen hflr off data, ?_, ?_, fun m hm => ?_⟩
    · rw [hwrite, alerted_eq]
      rfl
    · rw [hwrite, alerted_eq]
      exact hinst
    · rw [hwrite, alerted_eq]
      exact hother m hm
  case noConfig =>
    rcases hgone with h | h | h <;> simp [exec, execRegisterWrite, h, alerted_self]
  case config => simp [exec, execRegisterWrite, hflr, hready, hexists]
  case command =>
    obtain ⟨hmem, hother⟩ := cfgWrite_command s fn.val b
    refine ⟨alerted s (s.cfgWrite fn.val 4 [b]), by simp [exec, execRegisterWrite, hflr, hready, hexists], ?_, fun g hg => ?_⟩
    · rw [alerted_func, hmem]
    · rw [alerted_func, hother g hg]

end Sys2Proof.Proofs
end

section
/-! PROOFS. Doorbell writes, IN_PROD and the vectors' masks at the BARs (05 R102, R105, 06 R119, 11 R243), the doorbell halves
at the FEP (06 R120) and abort requests (18 R383). -/

namespace Sys2Proof.Proofs
open Sys2Proof Sys2Proof.Machine Sys2Proof.Safety Sys2Proof.Laws

-- Byte order (00 R6) --------------------------------------------------------------------------------------------------

@[simp] theorem leBytes_length (n v : Nat) : (leBytes n v).length = n := by
  induction n generalizing v with
  | zero => rfl
  | succ n ih => simp [leBytes, ih]

theorem leNat_leBytes (n v : Nat) : leNat (leBytes n v) = v % 256 ^ n := by
  induction n generalizing v with
  | zero => simp [leBytes, leNat, Nat.mod_one]
  | succ n ih =>
    have hstep : v % 256 ^ (n + 1) = v % 256 + 256 * (v / 256 % 256 ^ n) := by
      rw [pow_succ, mul_comm, Nat.mod_mul]
    simp only [leBytes, leNat, ih, hstep, BitVec.toNat_ofNat]

/-- The word at the front of bytes that begin with a register's. -/
theorem word_field_leBytes (v : BitVec 32) (rest : List Byte) : word (field (leBytes 4 v.toNat ++ rest) 0 4) = v := by
  have htake : ((leBytes 4 v.toNat ++ rest).drop 0).take 4 = leBytes 4 v.toNat := by
    simpa using List.take_left' (l₁ := leBytes 4 v.toNat) (l₂ := rest) (leBytes_length 4 v.toNat)
  have hv := v.isLt
  rw [field, htake, leNat_leBytes, Nat.mod_eq_of_lt (by omega)]
  simp [word]

-- Doorbell writes (06 R119) -------------------------------------------------------------------------------------------

theorem regionOf_doorbell (fn : Nat) {off : Nat} (hoff : off < 4096) :
    regionOf fn (if fn = 0 then 0x2000 + off else off) = some (.doorbell, off) := by
  by_cases hfn : fn = 0
  · have hpage : (0x2000 + off) / 4096 = 2 := by omega
    have hlow : ¬ 0x2000 + off < 0x2000 := by omega
    have hhigh : 0x2000 + off < 0x7000 := by omega
    have hmod : (0x2000 + off) % 4096 = off := by omega
    subst hfn
    simp only [regionOf, if_true, hpage, hlow, hhigh, hmod]
    rfl
  · have hpage : off / 4096 = 0 := by omega
    have hmod : off % 4096 = off := by omega
    simp [regionOf, hfn, hpage, hmod, pageRegion]

theorem bellWord_of_slot {s : State} {n q : Nat} (hq : q < 16) (high : Bool) (v : BitVec 32)
    (hslot : (s.slotOf n q).isSome = true) :
    s.bellWord n (8 * q + if high then 4 else 0) v =
      ({ s with net := { s.net with bells := s.net.bells ++ [(n, q, high, v)] } }, false) := by
  have hdiv : (8 * q + if high then 4 else 0) / 8 = q := by split <;> omega
  have hlow : ¬ 0x80 ≤ 8 * q + if high then 4 else 0 := by split <;> omega
  have hhalf : ((8 * q + if high then 4 else 0) % 8 == 4) = high := by cases high <;> simp <;> omega
  have hsome : (s.slotOf n q).isNone = false := by simpa [Option.isNone_eq_false_iff] using hslot
  simp only [State.bellWord, hdiv, hlow, hhalf, hsome, took, decide_false, Bool.or_self, Bool.false_eq_true, if_false]

theorem bellWord_of_none {s : State} {n q : Nat} (high : Bool) (v : BitVec 32) (hslot : s.slotOf n q = none) :
    s.bellWord n (8 * q + if high then 4 else 0) v = (s, true) := by
  have hdiv : (8 * q + if high then 4 else 0) / 8 = q := by split <;> omega
  simp [State.bellWord, hdiv, hslot]

theorem exec_doorbellWrite {s : State} {fn : Fin 33} {off : Nat} {data : List Byte} (hseen : s.seen fn.val = true)
    (hflr : s.flrRuns fn.val = false) (hthere : fn.val = 0 ∨ (s.inst fn.val).state ≠ .absent) (hoff : off < 4096)
    (hsize : sizeOk .doorbell off data.length = true) :
    exec (.doorbellWrite fn off data) s = .next (
      if (s.wakeFabric.writeWords fn.val .doorbell off data (data.length / 4)).2
      then (s.wakeFabric.writeWords fn.val .doorbell off data (data.length / 4)).1.badAccess
      else (s.wakeFabric.writeWords fn.val .doorbell off data (data.length / 4)).1) := by
  have hpass : s.glove1Stops fn.val .doorbell = false := by
    rcases hthere with h | h <;> simp [State.glove1Stops, h]
  have hwords := barWrite_words (regionOf_doorbell fn.val hoff) hsize hpass
  simp only [exec, execDoorbellWrite, hseen, hflr, Nat.not_le.2 hoff, ← hwords]
  rfl

-- Vectors (05 R105) ---------------------------------------------------------------------------------------------------

/-- A vector's mask is cleared and its message is sent. -/
def unmasked (s : State) (fn v : Nat) (sends : Bool) : State :=
  let t := s.wakeFabric.updVector fn v (fun x => { x with masked := false })
  if sends then (t.updVector fn v (fun x => { x with pending := false })).post
    (.msix fn v (s.vector fn v).addr (s.vector fn v).data) else t

/-- A vector unmasked, and sent where it was pending and the function may send. -/
theorem exec_msixVectorUnmask {s : State} {fn : Fin 33} {v : Nat} (hseen : s.seen fn.val = true) (hv : v < vectorsOf fn.val) :
    exec (.msixVectorUnmask fn v) s = .next (unmasked s fn.val v ((s.vector fn.val v).pending
      && (s.link.up && (s.func fn.val).msixEnable && !(s.func fn.val).msixMask && !(fn.val == 0 && s.mgc.orphan)))) := by
  have hopen : (s.wakeFabric.updVector fn.val v (fun x => { x with masked := false })).msixOpen fn.val v
      = (s.link.up && (s.func fn.val).msixEnable && !(s.func fn.val).msixMask && !(fn.val == 0 && s.mgc.orphan)) := by
    simp only [State.msixOpen, updVector_vector_same, updVector_func_same, Bool.not_false, Bool.and_true]
    rfl
  have hvector : (s.wakeFabric.updVector fn.val v (fun x => { x with masked := false })).vector fn.val v
      = { s.vector fn.val v with masked := false } := updVector_vector_same ..
  simp only [exec, execMsixVectorUnmask, hseen, hv, hopen, hvector, State.msix, unmasked]
  generalize (s.link.up && (s.func fn.val).msixEnable && !(s.func fn.val).msixMask && !(fn.val == 0 && s.mgc.orphan)) = open_
  cases (s.vector fn.val v).pending <;> cases open_ <;> rfl

/-- What unmasking a vector changes: its mask, and, where the message goes out, its pending bit and the posted messages. -/
theorem unmasked_cases {s : State} (fn v : Nat) (sends : Bool) :
    unmasked s fn v sends = { s.wakeFabric with link := { s.link with
      funcs := (unmasked s fn v sends).link.funcs, posted := (unmasked s fn v sends).link.posted } }
    ∧ ((unmasked s fn v sends).vector fn v).masked = false
    ∧ (sends = true → ((unmasked s fn v sends).vector fn v).pending = false
        ∧ (unmasked s fn v sends).link.posted = s.link.posted ++ [.msix fn v (s.vector fn v).addr (s.vector fn v).data])
    ∧ (sends = false → ((unmasked s fn v sends).vector fn v).pending = (s.vector fn v).pending
        ∧ (unmasked s fn v sends).link.posted = s.link.posted)
    ∧ ∀ g, g ≠ fn → (unmasked s fn v sends).func g = s.func g := by
  have hpost (t : State) (p : Posted) : (t.post p).vector fn v = t.vector fn v := rfl
  cases sends with
  | false =>
    simp only [unmasked, Bool.false_eq_true, if_false, updVector_vector_same]
    exact ⟨rfl, trivial, nofun, fun _ => ⟨rfl, rfl⟩, fun g hg => updVector_func_other _ _ _ hg⟩
  | true =>
    simp only [unmasked, if_true, hpost, updVector_vector_same]
    exact ⟨rfl, trivial, fun _ => ⟨trivial, rfl⟩, nofun,
      fun g hg => (post_func ..).trans ((updVector_func_other _ _ _ hg).trans (updVector_func_other _ _ _ hg))⟩

-- O13 -----------------------------------------------------------------------------------------------------------------

/-- Settles O13: the halves of a doorbell write one by one, IN_PROD's range, and the vector with its mask cleared. -/
theorem doorbellsMailboxesAndVectorsTakeHostWrites : Obligations.DoorbellsMailboxesAndVectorsTakeHostWrites := by
  refine ⟨fun s fn q high v hseen hflr hthere => ?half, fun s fn q w c hseen hflr hthere hslot => ?both,
    fun s fn off data hgone => ?gone, fun s fn v hseen hthere => ?inProd, fun s fn v hseen hv => ?unmask⟩
  case half =>
    have hq := q.isLt
    have hoff : 8 * q.val + (if high then 4 else 0) < 4096 := by split <;> omega
    have hsize : sizeOk .doorbell (8 * q.val + if high then 4 else 0) (leBytes 4 v.toNat).length = true := by
      have halign : (8 * q.val + if high then 4 else 0) % 4 = 0 := by split <;> omega
      simp [sizeOk, halign]
    have hword : word (field (leBytes 4 v.toNat) 0 4) = v := by simpa using word_field_leBytes v []
    rw [exec_doorbellWrite hseen hflr hthere hoff hsize, leBytes_length, writeWords_one]
    simp only [State.regionWrite, hword]
    constructor <;> intro hslot
    · rw [bellWord_of_slot hq high v (s := s.wakeFabric) hslot]
      rfl
    · rw [bellWord_of_none high v (s := s.wakeFabric) hslot]
      rfl
  case both =>
    have hq := q.isLt
    have hsize : sizeOk .doorbell (8 * q.val) (leBytes 4 w.toNat ++ leBytes 4 c.toNat).length = true := by simp [sizeOk]
    rw [exec_doorbellWrite hseen hflr hthere (by omega) hsize]
    have hsecond : (leBytes 4 w.toNat ++ leBytes 4 c.toNat).drop 4 = leBytes 4 c.toNat :=
      List.drop_left' (leBytes_length 4 w.toNat)
    have hword : word (field (leBytes 4 c.toNat) 0 4) = c := by simpa using word_field_leBytes c []
    have hlow := bellWord_of_slot (s := s.wakeFabric) hq false w hslot
    have hhigh := bellWord_of_slot (s := { s.wakeFabric with net := { s.net with
      bells := s.net.bells ++ [(fn.val, q.val, false, w)] } }) hq true c hslot
    simp only [Bool.false_eq_true, if_false, if_true, Nat.add_zero] at hlow hhigh
    have hlen : (leBytes 4 w.toNat ++ leBytes 4 c.toNat).length / 4 = 1 + 1 := by simp
    rw [hlen]
    simp only [State.writeWords, State.regionWrite, word_field_leBytes, hsecond, hword, hlow]
    rw [wakeFabric_net, hhigh]
    simp
  case gone => rcases hgone with h | h <;> simp [exec, execDoorbellWrite, h]
  case inProd =>
    intro i f
    have hpass : s.glove1Stops fn.val .inbound = false := by
      rcases hthere with h | h <;> simp [State.glove1Stops, h]
    have hbits : bits v.toNat 6 0 = i := by simp [bits, i]
    have hexec : exec (.mailboxDoorbell fn v) s = .next (if f ≠ 0 ∧ inCells f ≤ i then s.wakeFabric.badAccess
        else s.wakeFabric.updInst fn.val (fun x => { x with box := { x.box with inProd := i } })) := by
      simp only [exec, execMailboxDoorbell, hseen, hpass, State.writeInProd, hbits, wakeFabric_inst, Bool.not_true,
        Bool.false_eq_true, if_false]
      split <;> rfl
    rw [hexec]
    refine ⟨fun hin => ?_, fun hf hout => ?_⟩
    · rw [if_neg (by omega)]
    · rw [if_pos ⟨hf, hout⟩]
      rfl
  case unmask =>
    intro open_
    obtain ⟨hframe, hmasked, hsent, hkept, hother⟩ :=
      unmasked_cases (s := s) fn.val v ((s.vector fn.val v).pending && open_)
    refine ⟨_, exec_msixVectorUnmask hseen hv, hframe, hmasked, fun hp ho => hsent (by simp [hp, ho]), fun h => hkept ?_, hother⟩
    rcases h with h | h <;> simp [h]

-- The probes (10 R230) ------------------------------------------------------------------------------------------------

/-- Only what the probes and the trace have counted differs. -/
def SeenOnly (m n : Net) : Prop :=
  n = { m with probes := n.probes, trace := n.trace, wptr := n.wptr, traceFull := n.traceFull, dropped := n.dropped }

theorem SeenOnly.refl (n : Net) : SeenOnly n n := rfl

theorem SeenOnly.trans {a b c : Net} (h : SeenOnly a b) (k : SeenOnly b c) : SeenOnly a c := by
  unfold SeenOnly at *
  rw [k, h]

theorem seenOnly_net_observe (n : Net) (now k port : Nat) (out : Bool) (p : Pkt) : SeenOnly n (n.observe now k port out p) := by
  unfold Net.observe Net.record
  dsimp only
  repeat' split
  all_goals rfl

theorem seenOnly_foldl_passHop (now : Nat) (p : Pkt) (l : List Hop) (n : Net) :
    SeenOnly n (l.foldl (fun n h => n.passHop now p h) n) := by
  induction l generalizing n with
  | nil => exact rfl
  | cons h l ih =>
    have hhop : SeenOnly n (n.passHop now p h) :=
      (((seenOnly_net_observe ..).trans (seenOnly_net_observe ..)).trans (seenOnly_net_observe ..)).trans
        (seenOnly_net_observe ..)
    exact hhop.trans (ih _)

/-- A packet that passes is seen by the probes and changes nothing else. -/
theorem observe_frame (s : State) (p : Pkt) :
    s.observe p = { s with net := (s.observe p).net } ∧ SeenOnly s.net (s.observe p).net :=
  ⟨rfl, seenOnly_foldl_passHop ..⟩

theorem SeenOnly.bells {m n : Net} (h : SeenOnly m n) : n.bells = m.bells := by rw [h]

-- Doorbell halves at the FEP (06 R120) --------------------------------------------------------------------------------

/-- Refused commands at READ are passed: the queue's own registers but READ, and every other unit, stay. -/
theorem settleOne_queue {s t : State} {slot : Nat} {q : Queue} (h : s.settleOne slot = some t)
    (hq : s.queue slot = some q) : t.net = s.net ∧ ∃ u, t.queue slot = some u ∧ u.cons = q.cons ∧ u.write = q.write
      ∧ u.cpl = q.cpl ∧ u.dbBad = q.dbBad := by
  have hpass (q : Queue) (k : Nat) : (q.passEntries k).cons = q.cons ∧ (q.passEntries k).write = q.write
      ∧ (q.passEntries k).cpl = q.cpl ∧ (q.passEntries k).dbBad = q.dbBad := ⟨rfl, rfl, rfl, rfl⟩
  unfold State.settleOne at h
  rw [hq] at h
  dsimp only at h
  split at h
  · cases h
    exact ⟨rfl, { q.passEntries q.guiltPass with guiltPass := 0 }, by rw [updQueue_queue_same, hq]; rfl, hpass q q.guiltPass⟩
  · split at h
    · cases h
    · split at h
      · cases h
        exact ⟨rfl, _, by rw [updQueue_queue_same, setCmd_queue, hq]; rfl, hpass ..⟩
      · cases h

theorem settle_queue {slot : Nat} {q : Queue} (fuel : Nat) {s : State} (hq : s.queue slot = some q) :
    (s.settle slot fuel).net = s.net ∧ ∃ u, (s.settle slot fuel).queue slot = some u ∧ u.cons = q.cons
      ∧ u.write = q.write ∧ u.cpl = q.cpl ∧ u.dbBad = q.dbBad := by
  induction fuel generalizing s q with
  | zero => exact ⟨rfl, q, hq, rfl, rfl, rfl, rfl⟩
  | succ fuel ih =>
    unfold State.settle
    split
    next => exact ⟨rfl, q, hq, rfl, rfl, rfl, rfl⟩
    next t hone =>
      obtain ⟨hnet, u, hu, h1, h2, h3, h4⟩ := settleOne_queue hone hq
      obtain ⟨hnet', w, hw, k1, k2, k3, k4⟩ := ih hu
      exact ⟨hnet'.trans hnet, w, hw, k1.trans h1, k2.trans h2, k3.trans h3, k4.trans h4⟩

theorem doorbellBad_frame {s : State} {slot : Nat} {q : Queue} (hq : s.queue slot = some q) (high : Bool)
    (value recorded : BitVec 32) : (s.doorbellBad slot q high value recorded).net = s.net
      ∧ (s.doorbellBad slot q high value recorded).queue slot = some { q with dbBad := satInc q.dbBad } := by
  refine ⟨by simp [State.doorbellBad], ?_⟩
  simp only [State.doorbellBad, State.queue, eventLimited_queues]
  exact (updQueue_queue_same ..).trans (by rw [hq]; rfl)

/-- A doorbell half leaves the network alone. -/
theorem doorbellHalf_net {s : State} {slot : Nat} {q : Queue} (hq : s.queue slot = some q) (high : Bool) (v : BitVec 32) :
    (s.doorbellHalf slot high v).net = s.net := by
  simp only [State.doorbellHalf, hq]
  split
  · split
    · obtain ⟨hnet, _⟩ := settle_queue (slot := slot) (q := { q with cons := v })
        ((({ s with queues := tabModify s.queues slot (fun q => { q with cons := v }) } : State).slotCmds slot).length + 1)
        (s := s.updQueue slot (fun q => { q with cons := v })) (by rw [updQueue_queue_same, hq]; rfl)
      exact hnet
    · exact (doorbellBad_frame hq ..).1
  · split
    · rfl
    · split
      · rfl
      · exact (doorbellBad_frame hq ..).1

theorem doorbellHalf_write {s : State} {slot : Nat} {q : Queue} (hq : s.queue slot = some q) (v : BitVec 32) :
    (dist v q.read = dist q.write q.read → (s.doorbellHalf slot false v).queues = s.queues)
    ∧ (dist q.write q.read < dist v q.read → dist v q.read ≤ q.entriesMax →
        (s.doorbellHalf slot false v).queue slot = some { q with write := v, stamps := q.stamps ++ [(v, s.now)] })
    ∧ (dist v q.read ≠ dist q.write q.read → ¬ (dist q.write q.read < dist v q.read ∧ dist v q.read ≤ q.entriesMax) →
        (s.doorbellHalf slot false v).queue slot = some { q with dbBad := satInc q.dbBad }) := by
  refine ⟨fun hsame => ?_, fun hlt hle => ?_, fun hne hbad => ?_⟩
  · simp [State.doorbellHalf, hq, hsame]
  · have hne : dist v q.read ≠ dist q.write q.read := Nat.ne_of_gt hlt
    simp [State.doorbellHalf, hq, hne, hlt, hle]
  · simp only [State.doorbellHalf, hq, hne, if_neg hbad]
    exact (doorbellBad_frame hq ..).2

theorem doorbellHalf_cons {s : State} {slot : Nat} {q : Queue} (hq : s.queue slot = some q) (v : BitVec 32) :
    (dist v q.cons ≤ dist q.cpl q.cons → ∃ u, (s.doorbellHalf slot true v).queue slot = some u ∧ u.cons = v
      ∧ u.write = q.write ∧ u.cpl = q.cpl ∧ u.dbBad = q.dbBad)
    ∧ (¬ dist v q.cons ≤ dist q.cpl q.cons →
      (s.doorbellHalf slot true v).queue slot = some { q with dbBad := satInc q.dbBad }) := by
  refine ⟨fun hle => ?_, fun hgt => ?_⟩
  · simp only [State.doorbellHalf, hq, hle, if_true]
    exact (settle_queue (q := { q with cons := v }) _ (by rw [updQueue_queue_same, hq]; rfl)).2
  · simp only [State.doorbellHalf, hq, hgt, if_true, if_false]
    exact (doorbellBad_frame hq ..).2

/-- The state with a doorbell half taken from those that wait. -/
def bellTaken (s : State) (e : Nat × Nat × Bool × BitVec 32) : State :=
  { s with net := { s.net with bells := s.net.bells.erase e } }

/-- The half found is taken from its queue; the FEP keeps it or executes it. -/
theorem exec_doorbell_found {s : State} {fn : Fin 33} {qid : Fin 16} {high : Bool} {v : BitVec 32}
    (hfind : s.net.bells.find? (fun e => e.1 == fn.val && e.2.1 == qid.val) = some (fn.val, qid.val, high, v)) :
    exec (.doorbell fn qid high v) s = .next (
      match (bellTaken s (fn.val, qid.val, high, v)).slotOf fn.val qid.val with
      | none => bellTaken s (fn.val, qid.val, high, v)
      | some slot =>
        if (bellTaken s (fn.val, qid.val, high, v)).l2Runs || s.fep.stopped then
          { bellTaken s (fn.val, qid.val, high, v) with
            fep := { s.fep with heldBells := coalesce s.fep.heldBells fn.val qid.val high v } }
        else if (bellTaken s (fn.val, qid.val, high, v)).fepRuns then
          ((bellTaken s (fn.val, qid.val, high, v)).observe
            (bellPkt fn.val slot (s.inst fn.val).gen)).doorbellHalf slot high v
        else bellTaken s (fn.val, qid.val, high, v)) := by
  simp only [exec, execDoorbell, hfind, bne_self_eq_false, Bool.false_eq_true, if_false]
  rfl

theorem exec_doorbell {s : State} {fn : Fin 33} {qid : Fin 16} {slot : Nat} {high : Bool} {v : BitVec 32}
    (hslot : s.slotOf fn.val qid.val = some slot) (hl2 : s.l2Runs = false) (hstop : s.fep.stopped = false)
    (hruns : s.fepRuns = true)
    (hfind : s.net.bells.find? (fun e => e.1 == fn.val && e.2.1 == qid.val) = some (fn.val, qid.val, high, v)) :
    exec (.doorbell fn qid high v) s = .next (((bellTaken s (fn.val, qid.val, high, v)).observe
        (bellPkt fn.val slot (s.inst fn.val).gen)).doorbellHalf slot high v) := by
  have hslot' : (bellTaken s (fn.val, qid.val, high, v)).slotOf fn.val qid.val = some slot := hslot
  have hkept : ((bellTaken s (fn.val, qid.val, high, v)).l2Runs || s.fep.stopped) = false :=
    Bool.or_eq_false_iff.2 ⟨hl2, hstop⟩
  have hruns' : (bellTaken s (fn.val, qid.val, high, v)).fepRuns = true := hruns
  rw [exec_doorbell_found hfind, hslot']
  simp only [hkept, hruns', Bool.false_eq_true, if_false, if_true]

/-- Settles O14: the half is taken, seen by the probes and executed by its kind, or kept while a reset of level L2 runs. -/
theorem doorbellRecordsWriteOrCons : Obligations.DoorbellRecordsWriteOrCons := by
  intro s fn qid slot q v hslot hq
  refine ⟨fun hl2 hstop hruns => ⟨fun hfind => ?write, fun hfind => ?cons⟩, fun high hkept hfind => ?kept⟩
  case write =>
    have hexec := exec_doorbell hslot hl2 hstop hruns hfind
    obtain ⟨hframe, hseen⟩ := observe_frame (bellTaken s (fn.val, qid.val, false, v)) (bellPkt fn.val slot (s.inst fn.val).gen)
    have hq' : (State.observe _ (bellPkt fn.val slot (s.inst fn.val).gen)).queue slot = some q := (congrArg (fun t => t.queue slot) hframe).trans hq
    refine ⟨_, hexec, still_of_view (view_execDoorbell _ _ _ _ _ hexec), ?_, ?_⟩
    · rw [doorbellHalf_net hq']
      exact hseen.bells
    · exact doorbellHalf_write hq' v
  case cons =>
    have hexec := exec_doorbell hslot hl2 hstop hruns hfind
    obtain ⟨hframe, hseen⟩ := observe_frame (bellTaken s (fn.val, qid.val, true, v)) (bellPkt fn.val slot (s.inst fn.val).gen)
    have hq' : (State.observe _ (bellPkt fn.val slot (s.inst fn.val).gen)).queue slot = some q := (congrArg (fun t => t.queue slot) hframe).trans hq
    refine ⟨_, hexec, still_of_view (view_execDoorbell _ _ _ _ _ hexec), ?_, ?_⟩
    · rw [doorbellHalf_net hq']
      exact hseen.bells
    · exact doorbellHalf_cons hq' v
  case kept =>
    have hslot' : (bellTaken s (fn.val, qid.val, high, v)).slotOf fn.val qid.val = some slot := hslot
    have hkept' : ((bellTaken s (fn.val, qid.val, high, v)).l2Runs
        || s.fep.stopped) = true := by
      rcases hkept with h | h
      · exact Bool.or_eq_true_iff.2 (.inl h)
      · simp [h]
    have hexec : exec (.doorbell fn qid high v) s = .next { bellTaken s (fn.val, qid.val, high, v) with
        fep := { s.fep with heldBells := coalesce s.fep.heldBells fn.val qid.val high v } } := by
      rw [exec_doorbell_found hfind, hslot']
      simp only [hkept', if_true]
    refine ⟨_, hexec, still_of_view (view_execDoorbell _ _ _ _ _ hexec), rfl, ?_, rfl⟩
    simp [coalesce]

end Sys2Proof.Proofs
end

section
/-! PROOFS. Abort requests (18 R383): what latching an abort and answering it at once leave alone. -/

namespace Sys2Proof.Proofs
open Sys2Proof Sys2Proof.Machine Sys2Proof.Safety Sys2Proof.Laws

-- Dropping what was not accepted --------------------------------------------------------------------------------------

/-- Only the graphs of the instances, the commands and the graph pages differ. -/
def DroppedOnly (s t : State) : Prop :=
  t = { s with insts := t.insts, cmds := t.cmds, pages := t.pages }
  ∧ ∀ n, t.inst n = { s.inst n with graphs := (t.inst n).graphs }

theorem DroppedOnly.refl (s : State) : DroppedOnly s s := ⟨rfl, fun _ => rfl⟩

theorem DroppedOnly.trans {a b c : State} (h : DroppedOnly a b) (k : DroppedOnly b c) : DroppedOnly a c := by
  obtain ⟨heq, hinst⟩ := h
  obtain ⟨keq, kinst⟩ := k
  refine ⟨by rw [keq, heq], fun n => ?_⟩
  rw [kinst n, hinst n]

theorem droppedOnly_updGraphs (s : State) (n : Nat) (f : Inst → Tab Graph) :
    DroppedOnly s (s.updInst n (fun i => { i with graphs := f i })) := by
  refine ⟨rfl, fun m => ?_⟩
  by_cases h : m = n
  · subst h; simp
  · simp [updInst_inst_other _ _ h]

theorem droppedOnly_pages (s : State) (ps : Tab (List Byte)) : DroppedOnly s { s with pages := ps } := ⟨rfl, fun _ => rfl⟩

theorem droppedOnly_releaseVersions (s : State) (n g : Nat) : DroppedOnly s (s.releaseVersions n g) := by
  unfold State.releaseVersions
  split
  · exact .refl s
  · dsimp only
    split <;> exact (droppedOnly_updGraphs s n _).trans (droppedOnly_pages _ _)

theorem droppedOnly_dropBuild (s : State) (c : Cmd) : DroppedOnly s (s.dropBuild c) := by
  unfold State.dropBuild
  split
  · exact .refl s
  · dsimp only
    split
    · exact ((droppedOnly_updGraphs s c.inst _).trans (droppedOnly_pages _ _)).trans (droppedOnly_releaseVersions ..)
    · exact (droppedOnly_updGraphs s c.inst _).trans (droppedOnly_releaseVersions ..)

theorem droppedOnly_dropCmd (s : State) (slot seq : Nat) : DroppedOnly s (s.dropCmd slot seq) := ⟨rfl, fun _ => rfl⟩

theorem droppedOnly_foldl {α : Type} (g : State → α → State) (hg : ∀ t x, DroppedOnly t (g t x)) (l : List α) (s : State) :
    DroppedOnly s (l.foldl g s) := by
  induction l generalizing s with
  | nil => exact .refl s
  | cons x l ih => exact (hg s x).trans (ih _)

/-- A queue that is latched stops fetching; its commands that were not accepted are dropped. -/
theorem latchQueue_eq (s : State) (slot : Nat) : ∃ u, DroppedOnly s u
    ∧ s.latchQueue slot = u.updQueue slot (fun q => { q with abortLatched := true, reads := 0, need := none }) := by
  refine ⟨_, droppedOnly_foldl _ (fun t c => ?_) (s.slotCmds slot) s, rfl⟩
  split
  · exact .refl t
  · exact (droppedOnly_dropCmd ..).trans (droppedOnly_dropBuild ..)

/-- What latching a queue leaves alone. -/
theorem latchQueue_frame (s : State) (slot : Nat) : (s.latchQueue slot).abrt = s.abrt
    ∧ (∀ n, (s.latchQueue slot).inst n = { s.inst n with graphs := ((s.latchQueue slot).inst n).graphs }) := by
  obtain ⟨u, ⟨heq, hinst⟩, h⟩ := latchQueue_eq s slot
  rw [h]
  exact ⟨by rw [updQueue_abrt, heq], fun n => by rw [updQueue_inst]; exact hinst n⟩

theorem latchQueue_latches {s : State} {slot : Nat} (h : (s.queue slot).isSome = true) :
    ∃ x, (s.latchQueue slot).queue slot = some x ∧ x.abortLatched = true := by
  obtain ⟨u, ⟨heq, _⟩, hu⟩ := latchQueue_eq s slot
  have hqueue : u.queue slot = s.queue slot := by rw [heq]; rfl
  obtain ⟨q, hq⟩ := Option.isSome_iff_exists.1 h
  exact ⟨_, by rw [hu, updQueue_queue_same, hqueue, hq]; rfl, rfl⟩

theorem foldl_latchQueue_frame (l : List Nat) (s : State) : (l.foldl State.latchQueue s).abrt = s.abrt
    ∧ ∀ n, (l.foldl State.latchQueue s).inst n
        = { s.inst n with graphs := ((l.foldl State.latchQueue s).inst n).graphs } := by
  induction l generalizing s with
  | nil => exact ⟨rfl, fun _ => rfl⟩
  | cons slot l ih =>
    obtain ⟨habrt, hinst⟩ := latchQueue_frame s slot
    obtain ⟨kabrt, kinst⟩ := ih (s.latchQueue slot)
    exact ⟨kabrt.trans habrt, fun n => by rw [List.foldl_cons, kinst n, hinst n]⟩

-- States of an instance (11 R238) -------------------------------------------------------------------------------------

theorem setIState_frame (s : State) (n : Nat) (new : IState) (cause : Nat) : (s.setIState n new cause).abrt = s.abrt
    ∧ (s.setIState n new cause).queues = s.queues
    ∧ (s.setIState n new cause).inst n = { s.inst n with state := new, box := ((s.setIState n new cause).inst n).box } := by
  by_cases h : (s.inst n).state = new
  · have hstay : s.setIState n new cause = s := by simp [State.setIState, h]
    rw [hstay]
    exact ⟨rfl, rfl, by rw [← h]⟩
  · simp only [State.setIState, h, if_false]
    refine ⟨by simp, by simp, ?_⟩
    rw [(event_insts ..).eq n, updInst_inst_same]

theorem endFreeze_frame (s : State) (n : Nat) (st : Status) (out : List Byte) : (s.endFreeze n st out).abrt = s.abrt
    ∧ (s.endFreeze n st out).queues = s.queues
    ∧ (s.endFreeze n st out).inst n = { s.inst n with
        freezeReq := ((s.endFreeze n st out).inst n).freezeReq, freezeOut := ((s.endFreeze n st out).inst n).freezeOut
        box := ((s.endFreeze n st out).inst n).box } := by
  unfold State.endFreeze
  split
  · exact ⟨rfl, rfl, rfl⟩
  · split
    · refine ⟨by simp, by simp, ?_⟩
      rw [(reply_insts ..).eq n, updInst_inst_same]
    · refine ⟨rfl, rfl, ?_⟩
      rw [updInst_inst_same]

-- ABORT_DONE (18 R387) ------------------------------------------------------------------------------------------------

/-- The bookkeeping of an abort that is answered: the result registers of the instance are written and ABORT_DONE is told. -/
theorem abortDone_frame (s : State) (n : Nat) (q : Option Nat) (by_ result at_ : Nat) (counts : Nat × Nat × Nat) :
    (s.abortDone n q by_ result at_ counts).abrt = s.abrt ∧ (s.abortDone n q by_ result at_ counts).queues = s.queues
    ∧ ((s.abortDone n q by_ result at_ counts).inst n).lastResult = BitVec.ofNat 2 result
    ∧ ((s.abortDone n q by_ result at_ counts).inst n).lastQid = BitVec.ofNat 4 (q.getD 0)
    ∧ ((s.abortDone n q by_ result at_ counts).inst n).lastAll = q.isNone
    ∧ ((s.abortDone n q by_ result at_ counts).inst n).doneCount = (s.inst n).doneCount + 1
    ∧ (q = none → ((s.abortDone n q by_ result at_ counts).inst n).iBusy = false) := by
  have hmsix (t : State) : (if n = 0 then t else t.msix 0 2).inst n = t.inst n := by
    split <;> simp [State.inst]
  have hbox (t : State) (u : State) (hu : u = (t.msix n 2)) (code : Nat) (payload : List Byte) :
      ((if n = 0 then u else u.msix 0 2).event code n true true payload).inst n
        = { t.inst n with box := (((if n = 0 then u else u.msix 0 2).event code n true true payload).inst n).box } := by
    rw [(event_insts ..).eq n, hmsix, hu]
    simp [State.inst]
  refine ⟨?_, ?_, ?_, ?_, ?_, ?_, fun hq => ?_⟩
  · unfold State.abortDone
    dsimp only
    split <;> simp
  · unfold State.abortDone
    dsimp only
    split <;> simp
  all_goals
    unfold State.abortDone
    dsimp only
    rw [hbox _ _ rfl, updInst_inst_same]
  rw [hq]

-- O15 -----------------------------------------------------------------------------------------------------------------

/-- The row of an abort request that may be made reaches R383's table in the state that the access has woken. -/
theorem exec_abort {s : State} {n : Fin 33} {byManager : Bool} (hmgr : byManager = true → s.seen 0 = true)
    (hfn : byManager = false → s.seen n.val = true ∧ (n.val = 0 ∨ (s.inst n.val).state ≠ .absent)) (q : Option Nat) :
    s.abortWrite n.val q byManager = s.wakeFabric.requestAbort n.val q (b2n byManager) := by
  cases byManager with
  | true => simp [State.abortWrite, hmgr rfl, b2n]
  | false =>
    obtain ⟨hseen, hthere⟩ := hfn rfl
    have hpass : s.glove1Stops n.val .abort = false := by
      rcases hthere with h | h <;> simp [State.glove1Stops, h]
    simp [State.abortWrite, hseen, hpass, b2n]

theorem requestAbort_answered {s : State} {n : Nat} {q : Option Nat} {by_ r : Nat} (hfree : s.abortLatched n q = false)
    (h : s.abortVerdict n q = some r) : s.requestAbort n q by_ =
      (s.updInst n (fun i => { i with abortReqTime := BitVec.ofNat 64 s.now })).abortDone n q by_ r s.now (0, 0, 0) := by
  simp [State.requestAbort, hfree, h]

theorem requestAbort_latched {s : State} {n : Nat} {q : Option Nat} {by_ : Nat} (hfree : s.abortLatched n q = false)
    (h : s.abortVerdict n q = none) : s.requestAbort n q by_ =
      (s.updInst n (fun i => { i with abortReqTime := BitVec.ofNat 64 s.now })).latch n q by_ := by
  simp [State.requestAbort, hfree, h]

theorem latch_queue_frame (s : State) (n k by_ : Nat) :
    (s.latch n (some k) by_).abrt = { s.abrt with reqs := s.abrt.reqs ++
      [{ inst := n, qid := some k, by_ := by_, at_ := s.now }] }
    ∧ ((s.latch n (some k) by_).inst n).qBusy = (s.inst n).qBusy ||| (1#16 <<< k)
    ∧ ((s.latch n (some k) by_).inst n).abortReqTime = (s.inst n).abortReqTime
    ∧ ∀ slot, s.slotOf n k = some slot → (s.queue slot).isSome = true →
        ∃ x, (s.latch n (some k) by_).queue slot = some x ∧ x.abortLatched = true := by
  unfold State.latch
  dsimp only
  split
  next slot hslot =>
    obtain ⟨habrt, hinst⟩ := latchQueue_frame (({ s with abrt := { s.abrt with reqs := s.abrt.reqs ++
      [{ inst := n, qid := some k, by_ := by_, at_ := s.now }] } } : State).updInst n
        (fun i => { i with qBusy := i.qBusy ||| (1#16 <<< k) })) slot
    refine ⟨habrt, ?_, ?_, fun j hj hqueue => ?_⟩
    · rw [hinst n, updInst_inst_same]; rfl
    · rw [hinst n, updInst_inst_same]; rfl
    · have hsame : j = slot := Option.some.inj (hj.symm.trans hslot)
      subst hsame
      exact latchQueue_latches hqueue
  next hslot =>
    have hnone : s.slotOf n k = none := hslot
    exact ⟨rfl, by rw [updInst_inst_same]; rfl, by rw [updInst_inst_same]; rfl, fun j hj => by rw [hnone] at hj; cases hj⟩

theorem latch_instance_frame (s : State) (n by_ : Nat) :
    (s.latch n none by_).abrt = { s.abrt with reqs := s.abrt.reqs ++
      [{ inst := n, qid := none, by_ := by_, at_ := s.now }] }
    ∧ ((s.latch n none by_).inst n).iBusy = true ∧ ((s.latch n none by_).inst n).state = .aborting := by
  unfold State.latch
  dsimp only
  generalize hs2 : ({ s with abrt := { s.abrt with reqs := s.abrt.reqs ++
      [{ inst := n, qid := none, by_ := by_, at_ := s.now }] } } : State).updInst n (fun i => { i with iBusy := true }) = s2
  obtain ⟨habrt, hinst⟩ := foldl_latchQueue_frame (s2.slotsOf n) s2
  generalize (s2.slotsOf n).foldl State.latchQueue s2 = s3 at *
  obtain ⟨iabrt, _, iinst⟩ := setIState_frame s3 n .aborting 0
  obtain ⟨eabrt, _, einst⟩ := endFreeze_frame (s3.setIState n .aborting 0) n St.instanceState []
  refine ⟨?_, ?_, ?_⟩
  · rw [updInst_abrt, eabrt, iabrt, habrt, ← hs2]; rfl
  · rw [updInst_inst_same, einst, iinst, hinst, ← hs2, updInst_inst_same]
  · rw [updInst_inst_same, einst, iinst]

/-- Settles O15: R383's table decides between the latch and ABORT_DONE. -/
theorem abortRequestsAreLatchedOrAnsweredAtOnce : Obligations.AbortRequestsAreLatchedOrAnsweredAtOnce := by
  intro s n byManager hmgr hfn
  have hwrite := exec_abort hmgr hfn
  refine ⟨fun q hfree => ⟨fun hnone => ?_, fun r hr => ?_⟩, fun hfree => ⟨fun hnone => ?_, fun r hr => ?_⟩⟩
  · have hexec : exec (.abortQueue n q byManager) s = .next (s.abortWrite n.val (some q.val) byManager) := rfl
    refine ⟨_, hexec, still_of_view (view_execAbortQueue _ _ _ _ hexec), ?_⟩
    rw [hwrite, requestAbort_latched (s := s.wakeFabric) hfree hnone]
    obtain ⟨habrt, hbusy, htime, hqueue⟩ := latch_queue_frame (s.wakeFabric.updInst n.val
      (fun i => { i with abortReqTime := BitVec.ofNat 64 s.now })) n.val q.val (b2n byManager)
    rw [updInst_inst_same] at hbusy htime
    exact ⟨habrt, hbusy, htime, hqueue⟩
  · have hexec : exec (.abortQueue n q byManager) s = .next (s.abortWrite n.val (some q.val) byManager) := rfl
    refine ⟨_, hexec, still_of_view (view_execAbortQueue _ _ _ _ hexec), ?_⟩
    rw [hwrite, requestAbort_answered (s := s.wakeFabric) hfree hr]
    obtain ⟨habrt, hqueues, hresult, hqid, hall, hcount, _⟩ := abortDone_frame (s.wakeFabric.updInst n.val
      (fun i => { i with abortReqTime := BitVec.ofNat 64 s.now })) n.val (some q.val) (b2n byManager) r s.now (0, 0, 0)
    rw [updInst_inst_same] at hcount
    exact ⟨habrt, hqueues, hresult, hqid, hall, hcount⟩
  · have hexec : exec (.abortInstance n byManager) s = .next (s.abortWrite n.val none byManager) := rfl
    refine ⟨_, hexec, still_of_view (view_execAbortInstance _ _ _ hexec), ?_⟩
    rw [hwrite, requestAbort_latched (s := s.wakeFabric) hfree hnone]
    exact latch_instance_frame ..
  · have hexec : exec (.abortInstance n byManager) s = .next (s.abortWrite n.val none byManager) := rfl
    refine ⟨_, hexec, still_of_view (view_execAbortInstance _ _ _ hexec), ?_⟩
    rw [hwrite, requestAbort_answered (s := s.wakeFabric) hfree hr]
    obtain ⟨habrt, hqueues, hresult, _, hall, hcount, hbusy⟩ := abortDone_frame (s.wakeFabric.updInst n.val
      (fun i => { i with abortReqTime := BitVec.ofNat 64 s.now })) n.val none (b2n byManager) r s.now (0, 0, 0)
    rw [updInst_inst_same] at hcount
    exact ⟨habrt, hqueues, hresult, hall, hbusy rfl, hcount⟩

end Sys2Proof.Proofs
end

section
/-! PROOFS. Requests at their targets (10 R216, R223, R229): what travelling changes, and the reads and writes at the memory
controllers and the host bridge (04 R76, R79, 02 R37). -/

namespace Sys2Proof.Proofs
open Sys2Proof Sys2Proof.Machine Sys2Proof.Safety Sys2Proof.Laws

-- Tables --------------------------------------------------------------------------------------------------------------

theorem tabGetD_bump_same (t : Tab Nat) (k : Nat) (f : Nat → Nat) : tabGetD (bump t k f) k 0 = f (tabGetD t k 0) := by
  unfold bump
  dsimp only
  split
  next h => rw [h]; simp [tabGetD]
  next => exact tabGetD_set_same ..

theorem tabGetD_bump_other (t : Tab Nat) {j k : Nat} (f : Nat → Nat) (h : j ≠ k) :
    tabGetD (bump t k f) j 0 = tabGetD t j 0 := by
  unfold bump
  dsimp only
  split
  next => simp [tabGetD, tabGet_erase_other _ h]
  next => exact tabGetD_set_other _ _ _ h

theorem tabGet_eq_none_of_not_mem {α : Type} {t : Tab α} {k : Nat} (h : k ∉ tabKeys t) : tabGet t k = none := by
  induction t with
  | nil => rfl
  | cons e t ih =>
    obtain ⟨j, a⟩ := e
    simp only [tabKeys, List.map_cons, List.mem_cons, not_or] at h
    simp only [tabGet, if_neg (Ne.symm h.1)]
    exact ih h.2

theorem mem_of_tabGet {α : Type} {t : Tab α} {k : Nat} {a : α} (h : tabGet t k = some a) : (k, a) ∈ t := by
  induction t with
  | nil => cases h
  | cons e t ih =>
    obtain ⟨j, b⟩ := e
    unfold tabGet at h
    split at h
    next hj =>
      cases h
      exact hj ▸ List.mem_cons_self
    next => exact List.mem_cons_of_mem _ (ih h)

theorem lowestFree_spec {used : List Nat} {lo fuel k : Nat} (h : lowestFree used lo fuel = some k) :
    k ∉ used ∧ lo ≤ k ∧ k < lo + fuel := by
  induction fuel generalizing lo with
  | zero => cases h
  | succ fuel ih =>
    unfold lowestFree at h
    split at h
    next =>
      obtain ⟨hfree, hlo, hhi⟩ := ih h
      exact ⟨hfree, by omega, by omega⟩
    next hfree =>
      cases h
      exact ⟨by simpa using hfree, le_refl _, by omega⟩

-- Requests on their way (10 R216, R223) -------------------------------------------------------------------------------

/-- The identity of a request is filled in; its addressing is the initiator's. -/
theorem filled_eq (s : State) (p : Pkt) :
    s.filled p = { p with inst := (s.filled p).inst, gen := (s.filled p).gen, slot := (s.filled p).slot } := by
  unfold State.filled
  dsimp only
  repeat' split
  all_goals rfl

@[simp] theorem filled_src (s : State) (p : Pkt) : (s.filled p).src = p.src := by rw [filled_eq]
@[simp] theorem filled_dst (s : State) (p : Pkt) : (s.filled p).dst = p.dst := by rw [filled_eq]
@[simp] theorem filled_tag (s : State) (p : Pkt) : (s.filled p).tag = p.tag := by rw [filled_eq]
@[simp] theorem filled_tgen (s : State) (p : Pkt) : (s.filled p).tgen = p.tgen := by rw [filled_eq]
@[simp] theorem filled_addr (s : State) (p : Pkt) : (s.filled p).addr = p.addr := by rw [filled_eq]
@[simp] theorem filled_bytes (s : State) (p : Pkt) : (s.filled p).bytes = p.bytes := by rw [filled_eq]
@[simp] theorem filled_hostSpace (s : State) (p : Pkt) : (s.filled p).hostSpace = p.hostSpace := by rw [filled_eq]
@[simp] theorem filled_typ (s : State) (p : Pkt) : (s.filled p).typ = p.typ := by rw [filled_eq]

/-- A request that travels is recorded and seen by the probes; of the partitions only a ring read's own counter moves. -/
theorem travelled_eq (s : State) (p : Pkt) (d : Option Dma) :
    travelled s p d = { s with net := (travelled s p d).net, parts := (travelled s p d).parts } := by
  unfold travelled State.sent State.observe
  dsimp only
  split
  · rfl
  · split <;> rfl

theorem travelled_parts {s : State} {p : Pkt} {d : Option Dma} (h : 16 ≤ p.src ∨ d.any (·.ring) = false) :
    (travelled s p d).parts = s.parts := by
  have hring : ¬ (p.src < 16 ∧ d.any (·.ring) = true) := by
    rcases h with h | h
    · omega
    · simp [h]
  have hsent : (s.sent p d).parts = s.parts := by
    unfold State.sent
    dsimp only
    rw [if_neg hring]
  unfold travelled
  split
  · rfl
  · exact hsent

@[simp] theorem travelled_mem (s : State) (p : Pkt) (d : Option Dma) : (travelled s p d).mem = s.mem := by rw [travelled_eq]
@[simp] theorem travelled_insts (s : State) (p : Pkt) (d : Option Dma) : (travelled s p d).insts = s.insts := by
  rw [travelled_eq]
@[simp] theorem travelled_link (s : State) (p : Pkt) (d : Option Dma) : (travelled s p d).link = s.link := by rw [travelled_eq]
@[simp] theorem travelled_dict (s : State) (p : Pkt) (d : Option Dma) : (travelled s p d).dict = s.dict := by rw [travelled_eq]

@[simp] theorem view_travelled (s : State) (p : Pkt) (d : Option Dma) : view (travelled s p d) = view s := by
  unfold travelled
  split <;> simp

/-- The request of a packet that travelled is recorded, with a ticket of its initiator taken, where it was not under way. -/
theorem travelled_request {s : State} {p : Pkt} (d : Option Dma) (hnew : underWay s p = false) :
    (travelled s p d).net.out = bump s.net.out (pairKey p.src p.dst) (· + 1)
    ∧ tabGet (travelled s p d).net.reqs (tagKey p.src p.tag) = some (s.reqOf p d) := by
  obtain ⟨_, hseen⟩ := observe_frame (s.sent p d) p
  have hnet : (s.sent p d).net.out = bump s.net.out (pairKey p.src p.dst) (· + 1)
      ∧ tabGet (s.sent p d).net.reqs (tagKey p.src p.tag) = some (s.reqOf p d) := by
    unfold State.sent
    dsimp only
    split <;> exact ⟨rfl, tabGet_set_same ..⟩
  unfold travelled
  rw [hnew, if_neg Bool.false_ne_true, hseen]
  exact hnet

/-- A request that is delivered reaches its target's own work. -/
theorem dmaRequest_of_delivered {s : State} {p0 : Pkt} {d : Option Dma} (h : Delivered s (s.filled p0) d)
    (f : Pkt → State → State) : s.dmaRequest p0 d f = f (s.filled p0) (travelled s (s.filled p0) d) := by
  obtain ⟨hsrc, hdst, hway, hvoid, hpass⟩ := h
  have hissue : ((s.cutOff (s.filled p0).src || (!(tabGet s.net.reqs (tagKey (s.filled p0).src (s.filled p0).tag)).isSome
      && decide ((s.filled p0).tgen = s.tagGen (s.filled p0).src (s.filled p0).tag)
      && (!s.net.hasTicket (s.filled p0).src (s.filled p0).dst || !s.mayIssue (s.filled p0) d)))) = false := by
    rw [hsrc, Bool.false_or]
    rcases hway with hway | ⟨hticket, hmay⟩
    · unfold underWay at hway
      generalize (tabGet s.net.reqs (tagKey (s.filled p0).src (s.filled p0).tag)).isSome = known at *
      generalize decide ((s.filled p0).tgen = s.tagGen (s.filled p0).src (s.filled p0).tag) = current at *
      cases known <;> cases current <;> simp_all
    · simp only [hticket, hmay, Bool.not_true, Bool.or_self, Bool.and_false]
  unfold travelled underWay at hvoid hpass
  unfold State.dmaRequest travelled underWay
  dsimp only at *
  rw [hissue, hdst, Bool.false_or, hvoid]
  simp only [Bool.false_eq_true, if_false, hpass]

-- The requests that wait (04 R79) -------------------------------------------------------------------------------------

/-- Whether a request waits depends on the share windows, the instances' shares and the host link alone. -/
theorem mustWait_congr {s t : State} (hmem : t.mem = s.mem) (hinsts : t.insts = s.insts) (hlink : t.link = s.link)
    (w : Waiting) : t.mustWait w = s.mustWait w := by
  cases s
  cases t
  cases hmem
  cases hinsts
  cases hlink
  rfl

theorem travelled_mustWait (s : State) (p : Pkt) (d : Option Dma) (w : Waiting) :
    (travelled s p d).mustWait w = s.mustWait w := mustWait_congr (by simp) (by simp) (by simp) w

-- The share windows (04 R79, 14 R310) ---------------------------------------------------------------------------------

theorem chargePriv_window (s : State) (n a len : Nat) {c : Nat} (hc : c < 2) :
    tabGetD (s.chargePriv n a len).mem.window (64 * c + n) 0 = tabGetD s.mem.window (64 * c + n) 0 + ctlBytes c a len := by
  have hkeys : n ≠ 64 + n := by omega
  interval_cases c
  · simp only [State.chargePriv, Nat.mul_zero, Nat.zero_add]
    rw [tabGetD_bump_other _ _ hkeys, tabGetD_bump_same]
  · simp only [State.chargePriv, Nat.mul_one]
    rw [tabGetD_bump_same, tabGetD_bump_other _ _ hkeys.symm]

theorem satAdd_le (x : BitVec 32) (k : Nat) : x ≤ satAdd x k := by
  unfold satAdd
  rw [BitVec.le_def]
  split
  · have := x.isLt
    simp only [BitVec.toNat_allOnes]
    omega
  · rw [BitVec.toNat_add, BitVec.toNat_ofNat]
    omega

/-- Correcting a read word counts it and changes nothing else. -/
theorem corrected_eq (s : State) (a len : Nat) :
    s.corrected a len = { s with dict := { s.dict with memCe := (s.corrected a len).dict.memCe } } := by
  unfold State.corrected
  split <;> rfl

theorem corrected_memCe (s : State) (a len : Nat) : s.dict.memCe ≤ (s.corrected a len).dict.memCe
    ∧ (s.mem.ecc = false → (s.corrected a len).dict.memCe = s.dict.memCe) := by
  unfold State.corrected
  split
  next h => exact ⟨satAdd_le _ _, fun hecc => by simp [hecc] at h⟩
  next => exact ⟨BitVec.le_refl _, fun _ => rfl⟩

/-- A charge counts the bytes in MEM_MB and in the share windows. -/
theorem chargePriv_eq (s : State) (n a len : Nat) : ∃ w, s.chargePriv n a len = { s with
    mem := { s.mem with window := w }, dict := { s.dict with memBytes := s.dict.memBytes + len } } :=
  ⟨bump (bump s.mem.window n (· + ctlBytes 0 a len)) (64 + n) (· + ctlBytes 1 a len), rfl⟩

/-- Bytes stored at an address; the words they cover wholly hold no error any more. -/
def storedIn (u : State) (a : Nat) (bs : List Byte) : State :=
  let t := u.writePriv a bs
  { t with mem := { t.mem with bad := clearBad t.mem.bad a bs.length } }

theorem storePriv_eq (s : State) (n a : Nat) (bs : List Byte) :
    s.storePriv n a bs = storedIn (s.chargePriv n a bs.length) a bs := rfl

theorem storedIn_eq (u : State) (a : Nat) (bs : List Byte) : storedIn u a bs = { u with mem := { u.mem with
    cells := cellWriteN privUnlisted u.mem.cells a bs, bad := clearBad u.mem.bad a bs.length } } := rfl

theorem storePriv_window (s : State) (n a : Nat) (bs : List Byte) {c : Nat} (hc : c < 2) :
    tabGetD (s.storePriv n a bs).mem.window (64 * c + n) 0
      = tabGetD s.mem.window (64 * c + n) 0 + ctlBytes c a bs.length := by
  obtain ⟨w, hw⟩ := chargePriv_eq s n a bs.length
  have hwindow := chargePriv_window s n a bs.length hc
  rw [hw] at hwindow
  rw [storePriv_eq, hw, storedIn_eq]
  exact hwindow

/-- What a store changes beside its bytes. -/
theorem storePriv_frame (s : State) (n a : Nat) (bs : List Byte) :
    s.storePriv n a bs = { s with
      mem := { s.mem with cells := (s.storePriv n a bs).mem.cells, bad := (s.storePriv n a bs).mem.bad,
                          window := (s.storePriv n a bs).mem.window }
      dict := { s.dict with memBytes := s.dict.memBytes + bs.length } }
    ∧ (s.storePriv n a bs).mem.bad = clearBad s.mem.bad a bs.length := by
  obtain ⟨w, hw⟩ := chargePriv_eq s n a bs.length
  rw [storePriv_eq, hw]
  exact ⟨rfl, rfl⟩

/-- A store writes its bytes at its address and nothing else. -/
theorem storePriv_bytes {s : State} (hwf : Memory.wf s = true) (n a : Nat) (bs : List Byte) :
    (s.storePriv n a bs).readPrivN a bs.length = bs
    ∧ ∀ x, x < a ∨ a + bs.length ≤ x → (s.storePriv n a bs).readPriv x = s.readPriv x := by
  obtain ⟨w, hw⟩ := chargePriv_eq s n a bs.length
  simp only [Memory.wf, Bool.and_eq_true] at hwf
  obtain ⟨hcells, _⟩ := hwf
  rw [storePriv_eq, hw, storedIn_eq]
  exact ⟨cellReadN_writeN_same hcells a bs, fun x hx => cellRead_writeN_other hcells bs hx⟩

theorem mem_clearBad (bad : List Nat) (a len w : Nat) :
    w ∈ clearBad bad a len ↔ w ∈ bad ∧ ¬ (a ≤ w * 8 ∧ w * 8 + 8 ≤ a + len) := by
  simp only [clearBad, List.mem_filter, Bool.not_eq_true', Bool.and_eq_false_iff, decide_eq_false_iff_not]
  tauto

theorem readSram_length (x : Part) (k : Sram) (off n : Nat) : (x.readSram k off n).length = n := by
  have hcells (m : List Host.Cell) (a n : Nat) : (cellReadN 0 m a n).length = n := by
    induction n generalizing a with
    | zero => rfl
    | succ n ih => simpa [cellReadN] using ih (a + 1)
  unfold Part.readSram
  split
  · exact hcells ..
  · simp

-- Reads and writes performed (04 R76, R79) ----------------------------------------------------------------------------

theorem performOrWait_waits {s : State} {w : Waiting} (h : s.mustWait w = true) :
    s.performOrWait w = { s with mem := { s.mem with windowWait := s.mem.windowWait ++ [w] } } := by
  simp only [State.performOrWait, h, if_true]

theorem performOrWait_performs {s : State} {w : Waiting} (h : s.mustWait w = false) : s.performOrWait w = s.perform w := by
  simp only [State.performOrWait, h, Bool.false_eq_true, if_false]

theorem perform_store {s : State} {w : Waiting} (hdst : w.pkt.dst = 17 ∨ w.pkt.dst = 18) (hwrite : w.write = true) :
    s.perform w = s.storePriv w.pkt.inst w.pkt.addr (w.data.take (w.pkt.bytes + 1)) := by
  have hhost : w.pkt.dst ≠ nHost := by rcases hdst with h | h <;> simp [h, nHost]
  have hmc : ¬ (w.pkt.dst ≠ 17 ∧ w.pkt.dst ≠ 18) := by omega
  simp only [State.perform, hhost, hmc, hwrite, if_true, if_false]

/-- A read at a controller: charged, corrected, held for its response, and counted where a word of it is uncorrectable. -/
def readAt (s : State) (p : Pkt) : State :=
  let t := ((s.chargePriv p.inst p.addr (p.bytes + 1)).corrected p.addr (p.bytes + 1)).readFor p
    (s.readPrivN p.addr (p.bytes + 1))
  if s.badIn p.addr (p.bytes + 1) then { t with dict := { t.dict with memUe := satInc t.dict.memUe } } else t

theorem perform_read {s : State} {p : Pkt} {data : List Byte} (hdst : p.dst = 17 ∨ p.dst = 18) :
    s.perform ⟨false, p, data⟩ = readAt s p := by
  have hhost : p.dst ≠ nHost := by rcases hdst with h | h <;> simp [h, nHost]
  have hmc : ¬ (p.dst ≠ 17 ∧ p.dst ≠ 18) := by omega
  simp only [State.perform, hhost, hmc, if_false, Bool.false_eq_true, readAt]

/-- The bytes read, held with the request of the same tag generation. -/
def readHeld (p : Pkt) (bs : List Byte) (r : NetReq) : NetReq := if r.tgen = p.tgen then { r with data := bs } else r

/-- What a read at a controller changes. -/
theorem readAt_frame (s : State) (p : Pkt) :
    readAt s p = { s with
      net := { s.net with reqs := tabModify s.net.reqs (tagKey p.src p.tag) (readHeld p (s.readPrivN p.addr (p.bytes + 1))) }
      mem := { s.mem with window := (readAt s p).mem.window }
      dict := { s.dict with memBytes := s.dict.memBytes + (p.bytes + 1), memUe := (readAt s p).dict.memUe,
                            memCe := (readAt s p).dict.memCe } }
    ∧ (readAt s p).dict.memUe = (if s.badIn p.addr (p.bytes + 1) then satInc s.dict.memUe else s.dict.memUe)
    ∧ s.dict.memCe ≤ (readAt s p).dict.memCe ∧ (s.mem.ecc = false → (readAt s p).dict.memCe = s.dict.memCe)
    ∧ ∀ c, c < 2 → tabGetD (readAt s p).mem.window (64 * c + p.inst) 0
        = tabGetD s.mem.window (64 * c + p.inst) 0 + ctlBytes c p.addr (p.bytes + 1) := by
  obtain ⟨w, hw⟩ := chargePriv_eq s p.inst p.addr (p.bytes + 1)
  have hwindow (c : Nat) (hc : c < 2) := chargePriv_window s p.inst p.addr (p.bytes + 1) hc
  unfold readAt
  rw [hw] at hwindow ⊢
  generalize hu : ({ s with mem := { s.mem with window := w }, dict := { s.dict with memBytes := s.dict.memBytes + (p.bytes + 1) } } :
    State) = u at *
  obtain ⟨hle, hecc⟩ := corrected_memCe u p.addr (p.bytes + 1)
  rw [corrected_eq]
  dsimp only [State.readFor]
  subst hu
  split <;> exact ⟨rfl, rfl, hle, hecc, hwindow⟩

-- The host bridge (04 R72, 05 R96) ------------------------------------------------------------------------------------

theorem chargeHost_eq (s : State) (n k : Nat) :
    s.chargeHost n k = { s with mem := { s.mem with window := bump s.mem.window (128 + n) (· + k) } } := rfl

/-- A free tag of the enabled range answers nothing yet. -/
theorem freeTag_spec {s : State} {k : Nat} (h : s.freeTag = some k) :
    tabGet s.link.outstanding k = none ∧ s.linkTags.1 ≤ k ∧ k < s.linkTags.1 + s.linkTags.2 := by
  unfold State.freeTag at h
  split at h
  · cases h
  · obtain ⟨hfree, hlo, hhi⟩ := lowestFree_spec h
    exact ⟨tabGet_eq_none_of_not_mem hfree, hlo, hhi⟩

theorem perform_host {s : State} {w : Waiting} (hdst : w.pkt.dst = 16) :
    s.perform w = (s.chargeHost w.pkt.inst (w.pkt.bytes + 1)).performHost w := by
  simp only [State.perform, nHost, hdst, if_true]

/-- A read that leaves on the link with the link up and a tag free: it, or the translation request it needs, is outstanding. -/
theorem performHost_read {s : State} {p : Pkt} {k : Nat} (hup : s.link.up = true) (htag : s.freeTag = some k) :
    ∃ r, s.performHost ⟨false, p, []⟩ = { s with link := { s.link with outstanding := tabSet s.link.outstanding k r } }
      ∧ r.pkt = p ∧ r.fn = p.inst ∧ r.sentAt = s.now ∧ r.marked = false
      ∧ r.xlat = (if s.usesAts p.inst = true ∧ tabGet s.link.atc (atcKey p.inst (p.addr / 4096)) = none
          then some ⟨false, p, []⟩ else none) := by
  by_cases hask : s.usesAts p.inst = true ∧ tabGet s.link.atc (atcKey p.inst (p.addr / 4096)) = none
  · obtain ⟨huses, hunknown⟩ := hask
    refine ⟨{ fn := p.inst, pkt := p, sentAt := s.now, page := some (p.addr / 4096), xlat := some ⟨false, p, []⟩ }, ?_,
      rfl, rfl, rfl, rfl, by rw [if_pos ⟨huses, hunknown⟩]⟩
    simp [State.performHost, hup, huses, hunknown, State.askXlat, htag]
  · refine ⟨{ fn := p.inst, pkt := p, sentAt := s.now, page := if s.usesAts p.inst then some (p.addr / 4096) else none }, ?_,
      rfl, rfl, rfl, rfl, by rw [if_neg hask]⟩
    have hno : (s.usesAts p.inst && (tabGet s.link.atc (atcKey p.inst (p.addr / 4096))).isNone) = false := by
      rw [← Bool.not_eq_true, Bool.and_eq_true, Option.isNone_iff_eq_none]
      exact hask
    simp [State.performHost, hup, hno, State.hostRead, htag]

/-- A write that leaves on the link goes out at once, to the translated address where the function uses ATS, or asks for its
translation first. -/
theorem performHost_write {s : State} {p : Pkt} {bs : List Byte} (hup : s.link.up = true) (hbs : bs ≠ []) :
    (s.usesAts p.inst = false →
      s.performHost ⟨true, p, bs⟩ = s.post (.write p.inst p.addr (bs.take (p.bytes + 1))))
    ∧ (∀ a, s.usesAts p.inst = true → tabGet s.link.atc (atcKey p.inst (p.addr / 4096)) = some a →
      s.performHost ⟨true, p, bs⟩
        = s.post (.writeAt p.inst (a * 4096 + p.addr % 4096) (bs.take (p.bytes + 1))))
    ∧ (s.usesAts p.inst = true → tabGet s.link.atc (atcKey p.inst (p.addr / 4096)) = none →
      s.performHost ⟨true, p, bs⟩ = s.askXlat p.inst ⟨true, p, bs⟩) := by
  refine ⟨fun huses => ?_, fun a huses hknown => ?_, fun huses hunknown => ?_⟩
  · simp only [State.performHost, hup, huses, List.isEmpty_eq_false_iff.2 hbs, Bool.not_true, Bool.false_eq_true, if_false,
      Bool.false_and, if_true]
    split <;> rfl
  · simp [State.performHost, hup, huses, hknown, hbs]
  · simp [State.performHost, hup, huses, hunknown]

/-- The translation request that an access waits for. -/
def xlatRequest (s : State) (n : Nat) (w : Waiting) : HostReq :=
  { fn := n, pkt := w.pkt, sentAt := s.now, page := some (w.pkt.addr / 4096), xlat := some w }

theorem askXlat_eq {s : State} (n : Nat) (w : Waiting) :
    (∀ k, s.freeTag = some k → s.askXlat n w =
      { s with link := { s.link with outstanding := tabSet s.link.outstanding k (xlatRequest s n w) } })
    ∧ (s.freeTag = none → s.askXlat n w = { s with mem := { s.mem with windowWait := s.mem.windowWait ++ [w] } }) :=
  ⟨fun _ h => by simp only [State.askXlat, h, xlatRequest], fun h => by simp only [State.askXlat, h]⟩

-- O16 -----------------------------------------------------------------------------------------------------------------

theorem ppaMissing_eq_false {s : State} {p : Pkt} (h : p.addr + p.bytes + 1 ≤ s.usable) : s.ppaMissing p = false := by
  simp only [State.ppaMissing, Bool.and_eq_false_iff, decide_eq_false_iff_not]
  exact .inr (by omega)

theorem ppaMissing_of_host {s : State} {p : Pkt} (h : p.dst = 16) : s.ppaMissing p = false := by
  simp [State.ppaMissing, h]

theorem ppaMissing_of_past {s : State} {p : Pkt} (hdst : p.dst = 17 ∨ p.dst = 18) (h : s.usable < p.addr + p.bytes + 1) :
    s.ppaMissing p = true := by
  simp only [State.ppaMissing, Bool.and_eq_true, Bool.or_eq_true, beq_iff_eq, decide_eq_true_eq]
  exact ⟨hdst, h⟩

/-- In a new window no byte is counted and no request waits. -/
theorem mustWait_of_new_window {s : State} {w : Waiting} (hwindow : s.mem.window = []) (hold : s.mem.oldShares = [])
    (hwait : s.mem.windowWait = []) (hdst : w.pkt.dst = 17 ∨ w.pkt.dst = 18)
    (hshare : 0 < (s.inst w.pkt.inst).limits.privShare) : s.mustWait w = false := by
  have hhost : w.pkt.dst ≠ nHost := by rcases hdst with h | h <;> simp [h, nHost]
  have hspent : s.windowSpent w.pkt = false := by
    simp only [State.windowSpent, hhost, if_false, State.sharesNow, hwindow, hold, tabGetD, tabGet, Option.getD_none,
      decide_eq_false_iff_not]
    omega
  simp [State.mustWait, hspent, hhost, hwait]

theorem addressed_mc {p : Pkt} (hdst : p.dst = 17 ∨ p.dst = 18) (hspace : p.hostSpace = false)
    (hctl : p.dst = 17 + p.addr / 4096 % 2) : addressed p = true := by
  have hhost : p.dst ≠ nHost := by rcases hdst with h | h <;> simp [h, nHost]
  simp [addressed, hhost, hdst, hspace, ← hctl]

theorem addressed_host {p : Pkt} (hdst : p.dst = 16) (hspace : p.hostSpace = true) : addressed p = true := by
  simp [addressed, hdst, nHost, hspace]

/-- A read that is delivered is performed or waits. -/
theorem exec_rd {s : State} {p0 : Pkt} {d : Dma} (hlen : p0.len = 0) (hmiss : s.ppaMissing p0 = false)
    (haddr : addressed p0 = true) (hdel : Delivered s (s.filled p0) (some d)) :
    exec (.rd p0 d) s = .next ((travelled s (s.filled p0) (some d)).performOrWait ⟨false, s.filled p0, []⟩) := by
  have hok : lenOk false p0 = true := by simp [lenOk, hlen]
  simp only [exec, execRd, hok, hmiss, haddr, dmaRequest_of_delivered hdel, Bool.not_true, Bool.false_eq_true, if_false]

theorem lenOk_write {p0 : Pkt} (hlo : 1 ≤ p0.len) (hhi : p0.len ≤ 8) (hbytes : p0.bytes < 32 * p0.len) :
    lenOk true p0 = true := by
  simp [lenOk, hlo, hhi, hbytes]

theorem exec_wr {s : State} {p0 : Pkt} {data : List Byte} {d : Dma} (hok : lenOk true p0 = true)
    (hdata : 16 ≤ p0.src → p0.bytes < data.length) (hmiss : s.ppaMissing p0 = false) (haddr : addressed p0 = true)
    (hdel : Delivered s (s.filled p0) (some { d with ring := false })) :
    exec (.wr p0 data d) s = .next ((travelled s (s.filled p0) (some { d with ring := false })).performOrWait
      ⟨true, s.filled p0, if p0.src < 16 then (s.part p0.src).readSram d.sram d.off (p0.bytes + 1) else data⟩) := by
  have hlong : decide (16 ≤ p0.src ∧ data.length < p0.bytes + 1) = false := by
    rw [decide_eq_false_iff_not]
    rintro ⟨hsrc, hshort⟩
    have := hdata hsrc
    omega
  simp only [exec, execWr, hok, hlong, hmiss, haddr, dmaRequest_of_delivered hdel, Bool.not_true, Bool.or_self,
    Bool.false_eq_true, if_false, State.writeData, filled_src, filled_bytes]

theorem travelled_write_parts (s : State) (p : Pkt) (d : Dma) :
    (travelled s p (some { d with ring := false })).parts = s.parts := travelled_parts (.inr rfl)

theorem travelled_read_parts {s : State} {p : Pkt} {d : Dma} (h : 16 ≤ p.src ∨ d.ring = false) :
    (travelled s p (some d)).parts = s.parts := travelled_parts (by simpa using h)

/-- The bytes of a write suffice for the length it names. -/
theorem writeBytes_length {s : State} {p0 : Pkt} {data : List Byte} (d : Dma) (hdata : 16 ≤ p0.src → p0.bytes < data.length) :
    p0.bytes + 1 ≤ (if p0.src < 16 then (s.part p0.src).readSram d.sram d.off (p0.bytes + 1) else data).length := by
  split
  · rw [readSram_length]
  next h => exact hdata (by omega)

theorem travelled_wf {s : State} (h : Memory.wf s = true) (p : Pkt) (d : Option Dma) : Memory.wf (travelled s p d) = true := by
  rw [travelled_eq]
  exact h

/-- The state a delivered request meets, its network and the ring reader's partition abstracted. -/
theorem travelled_cases (s : State) (p : Pkt) (d : Option Dma) : ∃ n ps, travelled s p d = { s with net := n, parts := ps }
    ∧ ((16 ≤ p.src ∨ d.any (·.ring) = false) → ps = s.parts)
    ∧ (underWay s p = false → n.out = bump s.net.out (pairKey p.src p.dst) (· + 1)
        ∧ tabGet n.reqs (tagKey p.src p.tag) = some (s.reqOf p d)) :=
  ⟨_, _, travelled_eq s p d, travelled_parts, travelled_request d⟩

theorem travelled_write_cases (s : State) (p : Pkt) (d : Dma) :
    ∃ n, travelled s p (some { d with ring := false }) = { s with net := n } := by
  obtain ⟨n, ps, htrav, hparts, _⟩ := travelled_cases s p (some { d with ring := false })
  rw [hparts (.inr rfl)] at htrav
  exact ⟨n, htrav⟩

/-- Settles O16: a delivered request is performed in the state it travelled through, or joins those that wait. -/
theorem readsAndWritesReachMemoryAndHost : Obligations.ReadsAndWritesReachMemoryAndHost := by
  refine ⟨?read, ?write, ?hostRead, ?hostWrite, ?wait, ?missing, ?length, ?emptyWindow, ?window⟩
  case read =>
    intro s p0 d p hlen hspace hdst hctl hfits hdel hgo
    have hexec := exec_rd hlen (ppaMissing_eq_false hfits) (addressed_mc hdst hspace hctl) hdel
    rw [performOrWait_performs ((travelled_mustWait s p (some d) _).trans hgo), perform_read (by simpa [p] using hdst)] at hexec
    have hstill : Still s (readAt (travelled s p (some d)) p) := by
      apply still_of_view
      unfold readAt
      dsimp only
      split <;> simp
    obtain ⟨hframe, hue, hce, hecc, hwindow⟩ := readAt_frame (travelled s p (some d)) p
    obtain ⟨n, ps, htrav, hparts, hreq⟩ := travelled_cases s p (some d)
    rw [htrav] at hexec hstill hframe hue hce hecc hwindow
    generalize readAt { s with net := n, parts := ps } p = t at *
    have hnet : t.net = { n with reqs := tabModify n.reqs (tagKey p.src p.tag) (readHeld p (s.readPrivN p.addr (p.bytes + 1))) } := by
      rw [hframe]; rfl
    have hreqs : tabGet t.net.reqs (tagKey p0.src p0.tag)
        = (tabGet n.reqs (tagKey p.src p.tag)).map (readHeld p (s.readPrivN p.addr (p.bytes + 1))) := by
      rw [hnet]
      simp [p]
    simp only [p, filled_addr, filled_bytes] at hframe hue hwindow
    refine ⟨t, hexec, hstill, ?_, fun hsrc => ?_, hecc, hce, hue, hwindow, fun r hr htgen => ?_, fun hnew => ?_⟩
    · rw [hframe]
    · have hps := hparts (by simpa [p] using hsrc)
      rw [hframe, hps]
    · rw [hreqs, Option.map_eq_some_iff] at hr
      obtain ⟨r0, _, rfl⟩ := hr
      unfold readHeld at htgen ⊢
      split at htgen
      next h => rw [if_pos h]; simp [p]
      next h => exact absurd htgen (by simpa [p] using h)
    · obtain ⟨hout, hsome⟩ := hreq hnew
      refine ⟨?_, _, by rw [hreqs, hsome]; rfl, ?_⟩
      · rw [hnet, hout]
        simpa [p] using tabGetD_bump_same s.net.out (pairKey p0.src p0.dst) (· + 1)
      · have hheld : readHeld p (s.readPrivN p.addr (p.bytes + 1)) (s.reqOf p (some d))
            = { s.reqOf p (some d) with data := s.readPrivN p.addr (p.bytes + 1) } := if_pos rfl
        rw [hheld]
        exact ⟨filled_dst s p0, rfl, rfl, rfl, filled_tgen s p0, rfl⟩
  case write =>
    intro s p0 data d p bs hlo hhi hbytes hdata hspace hdst hctl hfits hdel hgo hwf
    have hexec := exec_wr (d := d) (lenOk_write hlo hhi hbytes) hdata (ppaMissing_eq_false hfits)
      (addressed_mc hdst hspace hctl) hdel
    rw [performOrWait_performs ((travelled_mustWait s p _ _).trans hgo), perform_store (by simpa [p] using hdst) rfl] at hexec
    obtain ⟨n, htrav⟩ := travelled_write_cases s p d
    have hlen : (bs.take (p0.bytes + 1)).length = p0.bytes + 1 := by
      rw [List.length_take]
      exact Nat.min_eq_left (writeBytes_length (s := s) d hdata)
    rw [htrav] at hexec
    simp only [p, filled_addr, filled_bytes] at hexec
    change exec _ s = .next (State.storePriv _ (s.filled p0).inst p0.addr (bs.take (p0.bytes + 1))) at hexec
    have hwf' : Memory.wf { s with net := n } = true := hwf
    obtain ⟨hstored, hother⟩ := storePriv_bytes hwf' (s.filled p0).inst p0.addr (bs.take (p0.bytes + 1))
    obtain ⟨hframe, hbad⟩ := storePriv_frame { s with net := n } (s.filled p0).inst p0.addr (bs.take (p0.bytes + 1))
    have hwindow (c : Nat) (hc : c < 2) :=
      storePriv_window { s with net := n } (s.filled p0).inst p0.addr (bs.take (p0.bytes + 1)) hc
    rw [hlen] at hstored hother hframe hbad hwindow
    generalize State.storePriv { s with net := n } (s.filled p0).inst p0.addr (bs.take (p0.bytes + 1)) = t at *
    refine ⟨t, hexec, ?_, hstored, fun a ha => hother a (by omega), hwindow, fun w => ?_⟩
    · have hnet : t.net = n := by rw [hframe]
      rw [hnet]
      exact hframe
    · rw [hbad, mem_clearBad]
      simp only [Nat.add_assoc]
  case hostRead =>
    intro s p0 d k p hlen hspace hdst hdel hgo hup htag
    have hexec := exec_rd hlen (ppaMissing_of_host hdst) (addressed_host hdst hspace) hdel
    rw [performOrWait_performs ((travelled_mustWait s p (some d) _).trans hgo), perform_host (by simpa [p] using hdst),
      chargeHost_eq] at hexec
    obtain ⟨n, ps, htrav, hparts, _⟩ := travelled_cases s p (some d)
    have hview := view_travelled s p (some d)
    rw [htrav] at hexec hview
    dsimp only at hexec
    generalize bump s.mem.window _ _ = w at hexec
    obtain ⟨hfree, hlo, hhi⟩ := freeTag_spec htag
    obtain ⟨r, hr, hpkt, hfn, hsent, hmarked, hxlat⟩ :=
      performHost_read (s := { s with net := n, parts := ps, mem := { s.mem with window := w } }) (p := p) hup htag
    rw [hr] at hexec
    refine ⟨_, hexec, still_of_view hview, hfree, hlo, hhi, ⟨r, tabGet_set_same .., hpkt, hfn, hsent, hmarked, ?_⟩,
      fun j hj => tabGet_set_other _ _ hj, fun hsrc => hparts (by simpa [p] using hsrc), rfl⟩
    rw [hxlat, show p.addr = p0.addr from filled_addr s p0]
    rfl
  case hostWrite =>
    intro s p0 data d p bs hlo hhi hbytes hdata hspace hdst hdel hgo hup
    have hexec := exec_wr (d := d) (lenOk_write hlo hhi hbytes) hdata (ppaMissing_of_host hdst) (addressed_host hdst hspace) hdel
    rw [performOrWait_performs ((travelled_mustWait s p _ _).trans hgo), perform_host (by simpa [p] using hdst),
      chargeHost_eq] at hexec
    obtain ⟨n, htrav⟩ := travelled_write_cases s p d
    have hview := view_travelled s p (some { d with ring := false })
    rw [htrav] at hexec hview
    dsimp only at hexec
    change exec _ s = .next (State.performHost _ ⟨true, p, bs⟩) at hexec
    generalize bump s.mem.window _ _ = w at hexec
    have hbs : bs ≠ [] := List.ne_nil_of_length_pos (Nat.lt_of_lt_of_le (Nat.succ_pos _) (writeBytes_length (s := s) d hdata))
    have haddr : p.addr = p0.addr := filled_addr s p0
    have hlen : p.bytes = p0.bytes := filled_bytes s p0
    obtain ⟨hplain, hknown, hask⟩ :=
      performHost_write (s := { s with net := n, mem := { s.mem with window := w } }) (p := p) (bs := bs) hup hbs
    obtain ⟨hsome, hnone⟩ := askXlat_eq (s := { s with net := n, mem := { s.mem with window := w } }) p.inst ⟨true, p, bs⟩
    rw [haddr, hlen] at hplain hknown
    rw [haddr] at hask
    cases huses : s.usesAts p.inst with
    | false =>
      rw [hplain huses] at hexec
      exact ⟨_, hexec, still_of_view hview, rfl, fun _ => ⟨rfl, rfl, rfl⟩, fun _ h => by simp at h, fun _ h => by simp at h⟩
    | true =>
      cases hatc : tabGet s.link.atc (atcKey p.inst (p0.addr / 4096)) with
      | some a =>
        rw [hknown a huses hatc] at hexec
        refine ⟨_, hexec, still_of_view hview, rfl, fun h => by simp at h, fun b _ hb => ?_, fun _ _ h => by simp at h⟩
        cases hb
        exact ⟨rfl, rfl, rfl⟩
      | none =>
        rw [hask huses hatc] at hexec
        cases htag : s.freeTag with
        | some k =>
          rw [hsome k htag] at hexec
          refine ⟨_, hexec, still_of_view hview, rfl, fun h => by simp at h, fun _ _ h => by simp at h, fun j _ _ hj => ?_⟩
          cases hj
          exact ⟨rfl, rfl, _, tabGet_set_same .., rfl, rfl⟩
        | none =>
          rw [hnone htag] at hexec
          exact ⟨_, hexec, still_of_view hview, rfl, fun h => by simp at h, fun _ _ h => by simp at h, fun _ _ _ h => by simp at h⟩
  case wait =>
    intro s p0 data d p bs hspace hdst hctl hfits
    refine ⟨fun hlen hdel hwait => ?_, fun hlo hhi hbytes hdata hdel hwait => ?_⟩
    · have hexec := exec_rd hlen (ppaMissing_eq_false hfits) (addressed_mc hdst hspace hctl) hdel
      rw [performOrWait_waits ((travelled_mustWait s p (some d) _).trans hwait)] at hexec
      obtain ⟨n, ps, htrav, _⟩ := travelled_cases s p (some d)
      rw [htrav] at hexec
      exact ⟨_, hexec, rfl⟩
    · have hexec := exec_wr (d := d) (lenOk_write hlo hhi hbytes) hdata (ppaMissing_eq_false hfits)
        (addressed_mc hdst hspace hctl) hdel
      rw [performOrWait_waits ((travelled_mustWait s p _ _).trans hwait)] at hexec
      obtain ⟨n, htrav⟩ := travelled_write_cases s p d
      rw [htrav] at hexec
      exact ⟨_, hexec, rfl⟩
  case missing =>
    intro s p data d hdst hpast
    have hmiss : s.ppaMissing p = true := ppaMissing_of_past hdst hpast
    refine ⟨fun hlen => ?_, fun hlo hhi hbytes hdata => ?_⟩
    · have hok : lenOk false p = true := by simp [lenOk, hlen]
      simp only [exec, execRd, hok, hmiss, Bool.not_true, Bool.false_eq_true, if_false, if_true]
    · have hok := lenOk_write hlo hhi hbytes
      have hlong : decide (16 ≤ p.src ∧ data.length < p.bytes + 1) = false := decide_eq_false (by omega)
      simp only [exec, execWr, hok, hmiss, hlong, Bool.not_true, Bool.or_self, Bool.false_eq_true, if_false, if_true]
  case length =>
    intro s p data d
    refine ⟨fun hlen => ?_, fun hbad => ?_⟩
    · have hok : lenOk false p = false := by simpa [lenOk] using hlen
      simp only [exec, execRd, hok, Bool.not_false, if_true]
      rfl
    · have hok : lenOk true p = false := by
        simp only [lenOk, if_true, Bool.and_eq_false_iff, decide_eq_false_iff_not]
        omega
      simp only [exec, execWr, hok, Bool.not_false, Bool.true_or, if_true]
      rfl
  case emptyWindow =>
    intro s hnone
    simp only [exec, execShareWindow, State.releaseWaiting, hnone, List.foldl_nil]
  case window =>
    intro s w hone hwrite hdst hdata hwf hshare
    have hexec : exec .shareWindow s = .next (State.performOrWait
        { s with mem := { s.mem with window := [], oldShares := [], windowWait := [] } } w) := by
      simp only [exec, execShareWindow, State.releaseWaiting, hone, List.foldl_cons, List.foldl_nil]
    have hgo : State.mustWait { s with mem := { s.mem with window := [], oldShares := [], windowWait := [] } } w = false :=
      mustWait_of_new_window rfl rfl rfl hdst hshare
    rw [performOrWait_performs hgo, perform_store hdst hwrite] at hexec
    have hlen : (w.data.take (w.pkt.bytes + 1)).length = w.pkt.bytes + 1 := by
      rw [List.length_take]
      exact Nat.min_eq_left hdata
    generalize hu : ({ s with mem := { s.mem with window := [], oldShares := [], windowWait := [] } } : State) = u at hexec
    have hwf' : Memory.wf u = true := by
      rw [← hu]
      exact hwf
    obtain ⟨hstored, hother⟩ := storePriv_bytes hwf' w.pkt.inst w.pkt.addr (w.data.take (w.pkt.bytes + 1))
    obtain ⟨hframe, _⟩ := storePriv_frame u w.pkt.inst w.pkt.addr (w.data.take (w.pkt.bytes + 1))
    rw [hlen] at hstored hother hframe
    generalize u.storePriv w.pkt.inst w.pkt.addr (w.data.take (w.pkt.bytes + 1)) = t at *
    have hwaits : t.mem.windowWait = [] := by rw [hframe, ← hu]
    have hmem : t = { s with mem := t.mem, dict := { s.dict with memBytes := s.dict.memBytes + (w.pkt.bytes + 1) } } := by
      rw [hframe, ← hu]
    subst hu
    exact ⟨t, hexec, hwaits, hstored, fun a ha => hother a (by omega), hmem⟩

end Sys2Proof.Proofs
end

section
/-! PROOFS. Walks, interrupt requests and register requests served (04 R81, R82, R84, 05 R105, 10 R221): what the translation
caches take, and what a fault records. -/

namespace Sys2Proof.Proofs
open Sys2Proof Sys2Proof.Machine Sys2Proof.Safety Sys2Proof.Laws

-- What loads of the translation caches change (04 R82) ----------------------------------------------------------------

/-- Only translation caches of the instances, the bytes counted and the corrected errors differ. -/
def CachesOnly (s t : State) : Prop :=
  t = { s with insts := t.insts, mem := { s.mem with window := t.mem.window },
               dict := { s.dict with memBytes := t.dict.memBytes, memCe := t.dict.memCe } }
  ∧ ∀ n, t.inst n = { s.inst n with mmu := { (s.inst n).mmu with
      tlb := (t.inst n).mmu.tlb, micro := (t.inst n).mmu.micro, upper := (t.inst n).mmu.upper } }

theorem CachesOnly.refl (s : State) : CachesOnly s s := ⟨rfl, fun _ => rfl⟩

theorem CachesOnly.trans {a b c : State} (h : CachesOnly a b) (k : CachesOnly b c) : CachesOnly a c := by
  obtain ⟨heq, hinst⟩ := h
  obtain ⟨keq, kinst⟩ := k
  refine ⟨by rw [keq, heq], fun n => ?_⟩
  rw [kinst n, hinst n]

/-- An instance whose caches alone are changed. -/
theorem cachesOnly_updInst (s : State) (n : Nat) {f : Mmu → Mmu} (h : ∀ m, f m = { m with
    tlb := (f m).tlb, micro := (f m).micro, upper := (f m).upper }) :
    CachesOnly s (s.updInst n (fun i => { i with mmu := f i.mmu })) := by
  refine ⟨rfl, fun m => ?_⟩
  by_cases hm : m = n
  · subst hm
    rw [updInst_inst_same]
    dsimp only
    rw [← h]
  · rw [updInst_inst_other _ _ hm]

theorem cachesOnly_charged (s : State) (n a len : Nat) : CachesOnly s ((s.chargePriv n a len).corrected a len) := by
  obtain ⟨w, hw⟩ := chargePriv_eq s n a len
  rw [hw, corrected_eq]
  exact ⟨rfl, fun _ => rfl⟩

theorem cachesOnly_makeRoom (s : State) (among : Nat → Bool) (size : Mmu → Nat) {drop : Mmu → Mmu} (limit : Nat)
    (h : ∀ m, drop m = { m with tlb := (drop m).tlb, micro := (drop m).micro, upper := (drop m).upper }) :
    CachesOnly s (s.makeRoom among size drop limit) := by
  unfold State.makeRoom
  dsimp only
  split
  · exact .refl s
  · split
    · exact cachesOnly_updInst s _ h
    · exact .refl s

theorem cachesOnly_tlbLoad (s : State) (n page : Nat) (leaf : BitVec 64) : CachesOnly s (s.tlbLoad n page leaf) := by
  unfold State.tlbLoad
  refine .trans ?_ (cachesOnly_updInst _ n (f := fun m => { m with tlb := tabSet m.tlb page leaf }) fun _ => rfl)
  split
  · exact .refl s
  · exact cachesOnly_makeRoom s _ _ _ fun _ => rfl

theorem cachesOnly_microLoad (s : State) (n node page : Nat) (leaf : BitVec 64) : CachesOnly s (s.microLoad n node page leaf) := by
  unfold State.microLoad
  have hload (u : State) (g : BitVec 16) : CachesOnly u (u.updInst n (fun i => { i with mmu := { i.mmu with
      micro := tabSet i.mmu.micro (node * 2 ^ 32 + page) (i.gen, leaf) } })) := by
    refine ⟨rfl, fun m => ?_⟩
    by_cases hm : m = n
    · subst hm
      rw [updInst_inst_same]
    · rw [updInst_inst_other _ _ hm]
  refine .trans ?_ (hload _ 0)
  split
  · exact .refl s
  · exact cachesOnly_makeRoom s _ _ _ fun _ => rfl

/-- Room made in a cache drops an entry of one instance, or nothing. -/
theorem makeRoom_inst (s : State) (among : Nat → Bool) (size : Mmu → Nat) (drop : Mmu → Mmu) (limit m : Nat) :
    (s.makeRoom among size drop limit).inst m = s.inst m
    ∨ (s.makeRoom among size drop limit).inst m = { s.inst m with mmu := drop (s.inst m).mmu } := by
  unfold State.makeRoom
  dsimp only
  split
  · exact .inl rfl
  · split
    next e _ _ =>
      by_cases hm : m = e.1
      · subst hm
        exact .inr (updInst_inst_same ..)
      · exact .inl (updInst_inst_other _ _ hm)
    · exact .inl rfl

/-- What dropping a cache entry keeps of an instance, room made in a cache keeps. -/
theorem makeRoom_keeps {β : Type} (g : Inst → β) (s : State) (among : Nat → Bool) (size : Mmu → Nat) {drop : Mmu → Mmu}
    (limit m : Nat) (h : ∀ i, g { i with mmu := drop i.mmu } = g i) :
    g ((s.makeRoom among size drop limit).inst m) = g (s.inst m) := by
  rcases makeRoom_inst s among size drop limit m with hm | hm
  · rw [hm]
  · rw [hm, h]

theorem upperLoad_one (s : State) (n : Nat) (e : Nat × BitVec 64) :
    CachesOnly s (s.upperLoad n [e]) ∧ ∀ m, ((s.upperLoad n [e]).inst m).mmu.tlb = (s.inst m).mmu.tlb := by
  have hset (u : State) : CachesOnly u (u.updInst n (fun i => { i with mmu := { i.mmu with upper := tabSet i.mmu.upper e.1 e.2 } }))
      ∧ ∀ m, ((u.updInst n (fun i => { i with mmu := { i.mmu with upper := tabSet i.mmu.upper e.1 e.2 } })).inst m).mmu.tlb
        = (u.inst m).mmu.tlb := by
    refine ⟨cachesOnly_updInst u n (f := fun m => { m with upper := tabSet m.upper e.1 e.2 }) fun _ => rfl, fun m => ?_⟩
    by_cases hm : m = n
    · rw [hm, updInst_inst_same]
    · rw [updInst_inst_other _ _ hm]
  simp only [State.upperLoad, List.foldl_cons, List.foldl_nil]
  split
  · exact hset s
  · obtain ⟨honly, htlb⟩ := hset (s.makeRoom (fun k => k % 2 == n % 2) (fun m => m.upper.length)
      (fun m => { m with upper := m.upper.drop 1 }) 256)
    refine ⟨.trans (cachesOnly_makeRoom s _ _ _ fun _ => rfl) honly, fun m => (htlb m).trans ?_⟩
    exact makeRoom_keeps (·.mmu.tlb) s _ _ _ m fun _ => rfl

/-- Loading upper-level entries leaves the TLBs alone. -/
theorem upperLoad_frame (s : State) (n : Nat) (es : List (Nat × BitVec 64)) :
    CachesOnly s (s.upperLoad n es) ∧ ∀ m, ((s.upperLoad n es).inst m).mmu.tlb = (s.inst m).mmu.tlb := by
  induction es generalizing s with
  | nil => exact ⟨.refl s, fun _ => rfl⟩
  | cons e es ih =>
    have hcons : s.upperLoad n (e :: es) = (s.upperLoad n [e]).upperLoad n es := rfl
    obtain ⟨hone, hkept⟩ := upperLoad_one s n e
    obtain ⟨honly, hsame⟩ := ih (s.upperLoad n [e])
    rw [hcons]
    exact ⟨hone.trans honly, fun m => (hsame m).trans (hkept m)⟩

/-- The reads of a walk are charged to its instance. -/
theorem walkCharged_frame (s : State) (n : Nat) (l : List (Nat × BitVec 64)) :
    CachesOnly s (l.foldl (fun t e => (t.chargePriv n e.1 8).corrected e.1 8) s)
    ∧ (l.foldl (fun t e => (t.chargePriv n e.1 8).corrected e.1 8) s).insts = s.insts := by
  induction l generalizing s with
  | nil => exact ⟨.refl s, rfl⟩
  | cons e l ih =>
    rw [List.foldl_cons]
    have hone := cachesOnly_charged s n e.1 8
    have hkept : ((s.chargePriv n e.1 8).corrected e.1 8).insts = s.insts := by
      obtain ⟨w, hw⟩ := chargePriv_eq s n e.1 8
      rw [hw, corrected_eq]
    obtain ⟨honly, hinsts⟩ := ih ((s.chargePriv n e.1 8).corrected e.1 8)
    exact ⟨hone.trans honly, hinsts.trans hkept⟩

/-- The reads of a walk are charged and their upper levels cached; the TLBs stay. -/
theorem walked_frame (s : State) (n dva : Nat) :
    CachesOnly s (s.walked n dva) ∧ ∀ m, ((s.walked n dva).inst m).mmu.tlb = (s.inst m).mmu.tlb := by
  unfold State.walked
  split
  · exact ⟨.refl s, fun _ => rfl⟩
  · dsimp only
    generalize List.filter _ (walkReads s dva (s.rootOf n) 1 4) = reads
    generalize List.filter _ (List.take 3 (walkReads s dva (s.rootOf n) 1 4)) = found
    obtain ⟨hcharged, hinsts⟩ := walkCharged_frame s n reads
    generalize List.foldl _ s reads = u at *
    obtain ⟨honly, htlb⟩ := upperLoad_frame u n found
    refine ⟨hcharged.trans honly, fun m => (htlb m).trans ?_⟩
    simp only [State.inst, hinsts]

theorem tlbLoad_tlb (s : State) (n page : Nat) (leaf : BitVec 64) :
    tabGet ((s.tlbLoad n page leaf).inst n).mmu.tlb page = some leaf := by
  simp [State.tlbLoad]

theorem microLoad_caches (s : State) (n node page : Nat) (leaf : BitVec 64) :
    ((s.microLoad n node page leaf).inst n).mmu.tlb = (s.inst n).mmu.tlb
    ∧ tabGet ((s.microLoad n node page leaf).inst n).mmu.micro (node * 2 ^ 32 + page) = some ((s.inst n).gen, leaf) := by
  unfold State.microLoad
  dsimp only
  split
  · exact ⟨by simp, by simp⟩
  · rw [updInst_inst_same]
    exact ⟨makeRoom_keeps (·.mmu.tlb) s _ _ _ n fun _ => rfl,
      (tabGet_set_same ..).trans (congrArg (fun g => some (g, leaf)) (makeRoom_keeps (·.gen) s _ _ _ n fun _ => rfl))⟩

-- A translation that no cache answers (04 R81, R82) -------------------------------------------------------------------

theorem leafOf_of_uncached {s : State} {n dva : Nat} (h : s.cachedLeaves n dva = []) : s.leafOf n dva = s.walk n dva := by
  simp [State.leafOf, h]

theorem tlb_none_of_uncached {s : State} {n dva : Nat} (h : s.cachedLeaves n dva = []) :
    tabGet (s.inst n).mmu.tlb (dva / 65536) = none := by
  simp only [State.cachedLeaves, List.append_eq_nil_iff, Option.toList_eq_nil_iff] at h
  exact h.1.1

/-- An initiator's micro-TLB that held the page of the instance's generation would be a cached leaf. -/
theorem micro_stale_of_uncached {s : State} {n node dva : Nat} {e : BitVec 16 × BitVec 64} (hdva : dva < 2 ^ 48)
    (h : s.cachedLeaves n dva = []) (he : tabGet (s.inst n).mmu.micro (node * 2 ^ 32 + dva / 65536) = some e) :
    e.1 ≠ (s.inst n).gen := by
  intro hgen
  simp only [State.cachedLeaves, List.append_eq_nil_iff, List.filterMap_eq_nil_iff] at h
  obtain ⟨⟨_, hmicro⟩, _⟩ := h
  have hnone := hmicro _ (mem_of_tabGet he)
  have hpage : (node * 2 ^ 32 + dva / 65536) % 2 ^ 32 = dva / 65536 := by omega
  rw [if_pos ⟨hpage, hgen⟩] at hnone
  cases hnone

/-- A walk that no cache spares reads its tables, and the caches take the leaf that it finds. -/
theorem xlated_of_uncached {s : State} {n node dva : Nat} (hen : (s.inst n).mmu.en = true) (hdva : dva < 2 ^ 48)
    (h : s.cachedLeaves n dva = []) :
    (∀ leaf, s.walk n dva = .ok leaf →
      s.xlated n node dva = ((s.walked n dva).tlbLoad n (dva / 65536) leaf).microLoad n node (dva / 65536) leaf)
    ∧ (∀ e, s.walk n dva = .error e → s.xlated n node dva = s.walked n dva) := by
  rw [← leafOf_of_uncached h]
  cases he : tabGet (s.inst n).mmu.micro (node * 2 ^ 32 + dva / 65536) with
  | none =>
    refine ⟨fun leaf hl => ?_, fun e hl => ?_⟩ <;>
    simp only [State.xlated, hen, he, hl, tlb_none_of_uncached h, Bool.not_true, Bool.false_or, Option.isSome_none,
      Bool.false_eq_true, if_false]
  | some e =>
    have hstale : (e.1 == (s.inst n).gen) = false := by simpa using micro_stale_of_uncached hdva h he
    refine ⟨fun leaf hl => ?_, fun e hl => ?_⟩ <;>
    simp only [State.xlated, hen, he, hl, hstale, tlb_none_of_uncached h, Bool.not_true, Bool.false_or, Option.isSome_none,
      Bool.false_eq_true, if_false]

theorem walkFrom_net (s : State) (m : Net) (up : Tab (BitVec 64)) (dva table lvl fuel : Nat) :
    walkFrom { s with net := m } up dva table lvl fuel = walkFrom s up dva table lvl fuel := by
  induction fuel generalizing table lvl with
  | zero => rfl
  | succ fuel ih =>
    unfold walkFrom
    simp only [ih]
    rfl

theorem walk_net (s : State) (m : Net) (n dva : Nat) : State.walk { s with net := m } n dva = s.walk n dva := by
  unfold State.walk
  rw [walkFrom_net]
  rfl

theorem cachedLeaves_net (s : State) (m : Net) (n dva : Nat) :
    State.cachedLeaves { s with net := m } n dva = s.cachedLeaves n dva := by
  unfold State.cachedLeaves
  dsimp only
  rw [walkFrom_net]
  rfl

-- Fault records (04 R84) ----------------------------------------------------------------------------------------------

/-- The first fault of an instance is recorded, and an event tells each. -/
theorem mmuFault_record (s : State) {n : Nat} {st : Status} {dva lvl : Nat} (w : Bool) (who part slot seq : Nat)
    (hxlate : isXlate st = true) :
    let t := s.mmuFault n ⟨st, dva, lvl⟩ w who part slot seq
    (t.inst n).mmu.faultValid = true ∧ (t.inst n).mmu.tlb = (s.inst n).mmu.tlb
      ∧ ((s.inst n).mmu.faultValid = false → (t.inst n).mmu.faultDva = BitVec.ofNat 48 dva
          ∧ (t.inst n).mmu.faultInfo.setWidth 16 = BitVec.ofNat 16 st.toNat)
      ∧ ((s.inst n).mmu.faultValid = true → (t.inst n).mmu.faultDva = (s.inst n).mmu.faultDva
          ∧ (t.inst n).mmu.faultInfo = (s.inst n).mmu.faultInfo) := by
  have hmmu : isMmuStatus st = true := by simp [isMmuStatus, hxlate]
  dsimp only [State.mmuFault]
  simp only [hmmu, hxlate, Bool.not_true, Bool.false_eq_true, if_true, if_false]
  rw [(event_insts ..).eq n]
  dsimp only
  cases hvalid : (s.inst n).mmu.faultValid with
  | true => exact ⟨hvalid, rfl, fun h => by simp at h, fun _ => ⟨rfl, rfl⟩⟩
  | false =>
    simp only [Bool.false_eq_true, if_false, updInst_inst_same]
    refine ⟨trivial, trivial, fun _ => ⟨trivial, ?_⟩, fun h => h.elim⟩
    apply BitVec.eq_of_toNat_eq
    simp only [BitVec.toNat_setWidth, BitVec.toNat_ofNat]
    omega

-- O17 -----------------------------------------------------------------------------------------------------------------

theorem travelled_none (s : State) (p : Pkt) : ∃ m, travelled s p none = { s with net := m } := by
  obtain ⟨m, ps, htrav, hparts, _⟩ := travelled_cases s p none
  rw [hparts (.inr rfl)] at htrav
  exact ⟨m, htrav⟩

/-- A walk that reaches its controller is served there. -/
theorem exec_walk {s : State} {p0 : Pkt} {dva : Nat} {w : Bool} (hlen : p0.len = 0)
    (hctl : p0.dst = 17 + (s.filled p0).inst % 2) (hdel : Delivered s (s.filled p0) none) (hdva : dva < 2 ^ 48) :
    exec (.walk p0 dva w) s = .next ((travelled s (s.filled p0) none).serveWalk (s.filled p0) dva w) := by
  have hok : (decide (dva < 2 ^ 48) && decide ((s.filled p0).dst = 17 + (s.filled p0).inst % 2)) = true := by
    rw [filled_dst, decide_eq_true hctl, decide_eq_true hdva, Bool.and_self]
  simp only [exec, execWalk, State.request, dmaRequest_of_delivered hdel, hlen, ne_eq, not_true, if_false, hok, if_true]

/-- What serving a walk is where no cache answers: with a leaf that allows the access the caches take it, and with a fault the
walk is recorded. -/
theorem serveWalk_of_uncached {s : State} {p : Pkt} {dva : Nat} {w : Bool} (hen : (s.inst p.inst).mmu.en = true)
    (hdva : dva < 2 ^ 48) (hmiss : s.cachedLeaves p.inst dva = []) :
    (∀ leaf, s.walk p.inst dva = .ok leaf → (∀ st lvl, s.applyLeaf leaf dva w ≠ .fault st lvl) → s.serveWalk p dva w
        = ((s.walked p.inst dva).tlbLoad p.inst (dva / 65536) leaf).microLoad p.inst p.src (dva / 65536) leaf)
    ∧ (∀ st lvl, s.walk p.inst dva = .error (st, lvl) → ∃ who part slot seq,
        s.serveWalk p dva w = (s.walked p.inst dva).mmuFault p.inst ⟨st, dva, lvl⟩ w who part slot seq) := by
  obtain ⟨hfound, hfailed⟩ := xlated_of_uncached (node := p.src) hen hdva hmiss
  have hshort : ¬ dva ≥ 2 ^ 48 := by omega
  refine ⟨fun leaf hleaf hallowed => ?_, fun st lvl herr => ?_⟩
  · have htrans : s.translate p.inst dva w = s.applyLeaf leaf dva w := by
      simp only [State.translate, hshort, if_false, hen, if_true, leafOf_of_uncached hmiss, hleaf]
    unfold State.serveWalk
    rw [htrans, hfound leaf hleaf]
    cases h : s.applyLeaf leaf dva w with
    | fault st lvl => exact absurd h (hallowed st lvl)
    | priv a => rfl
    | host a => rfl
  · have htrans : s.translate p.inst dva w = .fault st lvl := by
      simp only [State.translate, hshort, if_false, hen, if_true, leafOf_of_uncached hmiss, herr]
    unfold State.serveWalk
    rw [htrans, hfailed _ herr]
    exact ⟨_, _, _, _, rfl⟩

/-- A message of a vector changes its function's vectors and what is posted. -/
theorem msix_frame (s : State) (fn v : Nat) :
    s.msix fn v = { s with link := { s.link with funcs := (s.msix fn v).link.funcs, posted := (s.msix fn v).link.posted } }
    ∧ (s.msixOpen fn v = true → ((s.msix fn v).vector fn v).pending = false
        ∧ (s.msix fn v).link.posted = s.link.posted ++ [.msix fn v (s.vector fn v).addr (s.vector fn v).data])
    ∧ (s.msixOpen fn v = false → ((s.msix fn v).vector fn v).pending = true ∧ (s.msix fn v).link.posted = s.link.posted) := by
  unfold State.msix
  cases hopen : s.msixOpen fn v with
  | true =>
    refine ⟨rfl, fun _ => ⟨?_, rfl⟩, fun h => by cases h⟩
    exact congrArg Vector.pending (updVector_vector_same s fn v (fun x => { x with pending := false }))
  | false =>
    refine ⟨rfl, fun h => by (cases h), fun _ => ⟨?_, rfl⟩⟩
    exact congrArg Vector.pending (updVector_vector_same s fn v (fun x => { x with pending := true }))

/-- Settles O17: a delivered request meets the state with the network alone changed, so its walk, interrupt, read or write is
that of the state before. -/
theorem walksInterruptsAndRegisterRequestsAreServed : Obligations.WalksInterruptsAndRegisterRequestsAreServed := by
  refine ⟨?found, ?faulted, ?interrupt, ?read, ?write, ?length⟩
  case found =>
    intro s p0 dva w leaf p hlen hctl hdel hen hdva hmiss hwalk hallowed
    have hexec := exec_walk (w := w) hlen hctl hdel hdva
    obtain ⟨m, htrav⟩ := travelled_none s p
    have hmiss' : State.cachedLeaves { s with net := m } p.inst dva = [] := (cachedLeaves_net s m p.inst dva).trans hmiss
    have hwalk' : State.walk { s with net := m } p.inst dva = .ok leaf := (walk_net s m p.inst dva).trans hwalk
    obtain ⟨hserved, _⟩ := serveWalk_of_uncached (s := { s with net := m }) (w := w) (p := p) hen hdva hmiss'
    rw [htrav, hserved leaf hwalk' hallowed] at hexec
    obtain ⟨hcaches, _⟩ := walked_frame { s with net := m } p.inst dva
    generalize State.walked { s with net := m } p.inst dva = u at *
    obtain ⟨htlb, hmicro⟩ := microLoad_caches (u.tlbLoad p.inst (dva / 65536) leaf) p.inst p.src (dva / 65536) leaf
    have honly := hcaches.trans (cachesOnly_tlbLoad u p.inst (dva / 65536) leaf)
    have hgen : ((u.tlbLoad p.inst (dva / 65536) leaf).inst p.inst).gen = (s.inst p.inst).gen := by
      rw [honly.2 p.inst]
      rfl
    obtain ⟨hframe, hinst⟩ := honly.trans (cachesOnly_microLoad _ p.inst p.src (dva / 65536) leaf)
    have hsrc : p.src = p0.src := filled_src s p0
    rw [hsrc] at hexec hframe hinst
    rw [hgen, hsrc] at hmicro
    have hpage := tlbLoad_tlb u p.inst (dva / 65536) leaf
    rw [← htlb, hsrc] at hpage
    generalize (u.tlbLoad p.inst (dva / 65536) leaf).microLoad p.inst p0.src (dva / 65536) leaf = t at *
    refine ⟨t, hexec, ?_, hpage, hmicro, hinst⟩
    have hnet : t.net = m := by rw [hframe]
    have hcount : t.freeCount = s.freeCount := by rw [hframe]
    rw [hnet, hcount]
    exact hframe
  case faulted =>
    intro s p0 dva w st lvl p hlen hctl hdel hen hdva hmiss hwalk hxlate
    have hexec := exec_walk (w := w) hlen hctl hdel hdva
    have hstill : Still s ((travelled s p none).serveWalk p dva w) := still_of_view (by simp)
    obtain ⟨m, htrav⟩ := travelled_none s p
    have hmiss' : State.cachedLeaves { s with net := m } p.inst dva = [] := (cachedLeaves_net s m p.inst dva).trans hmiss
    obtain ⟨_, hserved⟩ := serveWalk_of_uncached (s := { s with net := m }) (w := w) (p := p) hen hdva hmiss'
    obtain ⟨who, part, slot, seq, hserve⟩ := hserved st lvl ((walk_net s m p.inst dva).trans hwalk)
    rw [htrav, hserve] at hexec hstill
    obtain ⟨⟨_, hinst⟩, htlb⟩ := walked_frame { s with net := m } p.inst dva
    have hrecord := mmuFault_record (State.walked { s with net := m } p.inst dva) w who part slot seq (n := p.inst) (dva := dva)
      (lvl := lvl) hxlate
    have hvalid := congrArg (·.mmu.faultValid) (hinst p.inst)
    have hdva' := congrArg (·.mmu.faultDva) (hinst p.inst)
    have hinfo := congrArg (·.mmu.faultInfo) (hinst p.inst)
    dsimp only at hrecord hvalid hdva' hinfo
    rw [htlb, hvalid, hdva', hinfo] at hrecord
    exact ⟨_, hexec, hstill, hrecord⟩
  case interrupt =>
    intro s p0 v p hlen hdel hv
    obtain ⟨m, htrav⟩ := travelled_none s p
    have hexec : exec (.irq p0 v) s = .next (State.msix { s with net := m } p.inst v) := by
      rw [← htrav]
      simp only [exec, execIrq, State.request, dmaRequest_of_delivered hdel, hlen, ne_eq, not_true, if_false]
      rw [if_pos hv]
    obtain ⟨hframe, hopen, hheld⟩ := msix_frame { s with net := m } p.inst v
    have hother (g : Nat) (hg : g ≠ p.inst) : (State.msix { s with net := m } p.inst v).func g = s.func g :=
      msix_func_other { s with net := m } v hg
    generalize State.msix { s with net := m } p.inst v = t at *
    refine ⟨t, hexec, ?_, hopen, hheld, hother⟩
    have hnet : t.net = m := by rw [hframe]
    rw [hnet]
    exact hframe
  case read =>
    intro s p0 p hlen hdel
    obtain ⟨m, htrav⟩ := travelled_none s p
    have hexec : exec (.regRd p0) s = .next { travelled s p none with link := { (travelled s p none).link with
        readData := leBytes 4 ((travelled s p none).readWord p.inst (p0.addr / 4 * 4)).toNat } } := by
      simp only [exec, execRegRd, State.request, dmaRequest_of_delivered hdel, hlen, ne_eq, not_true, if_false, filled_addr]
      rfl
    refine ⟨_, hexec, ?_, rfl⟩
    rw [htrav]
  case write =>
    intro s p0 v n o p hlen hdel hregion
    obtain ⟨m, htrav⟩ := travelled_none s p
    have hexec : exec (.regWr p0 v) s = .next (alerted s (State.writeView { s with net := m } n o v)) := by
      rw [← htrav]
      simp only [exec, execRegWr, State.request, dmaRequest_of_delivered hdel, hlen, ne_eq, not_true, if_false, filled_addr]
      rw [show regionOf (s.filled p0).inst (p0.addr / 4 * 4) = some (.view n, o) from hregion]
      rfl
    obtain ⟨hframe, hsame, hother⟩ := writeView_frame { s with net := m } n o v
    rw [alerted_eq] at hexec
    generalize State.writeView { s with net := m } n o v = t at *
    generalize (alerted s t).bus.ibis = ibis at *
    refine ⟨_, hexec, ?_, hsame, hother⟩
    rw [hframe]
  case length =>
    intro s p v
    refine ⟨fun hlen => ⟨?_, ?_, ?_⟩, fun hlen => ?_⟩
    · simp only [exec, execRegRd, if_pos hlen]; rfl
    · simp only [exec, execIrq, if_pos hlen]; rfl
    · simp only [exec, execWalk, if_pos hlen]; rfl
    · simp only [exec, execRegWr, if_pos hlen]; rfl

end Sys2Proof.Proofs
end

section
/-! PROOFS. Responses, loan tickets, generations and initiator timeouts (10 R216, R222, R227, R229): what ends a request, and
what an error makes of the work it belonged to. -/

namespace Sys2Proof.Proofs
open Sys2Proof Sys2Proof.Machine Sys2Proof.Safety Sys2Proof.Laws

-- Guilty commands (18 R380) -------------------------------------------------------------------------------------------

/-- Only the queues, their commands, the graph pages and the graphs of the instances differ. -/
def GuiltOnly (s t : State) : Prop :=
  t = { s with insts := t.insts, queues := t.queues, cmds := t.cmds, pages := t.pages }
  ∧ ∀ n, t.inst n = { s.inst n with graphs := (t.inst n).graphs }

theorem GuiltOnly.refl (s : State) : GuiltOnly s s := ⟨rfl, fun _ => rfl⟩

theorem GuiltOnly.trans {a b c : State} (h : GuiltOnly a b) (k : GuiltOnly b c) : GuiltOnly a c := by
  obtain ⟨heq, hinst⟩ := h
  obtain ⟨keq, kinst⟩ := k
  refine ⟨by rw [keq, heq], fun n => ?_⟩
  rw [kinst n, hinst n]

theorem GuiltOnly.net {s t : State} (h : GuiltOnly s t) : t.net = s.net := by rw [h.1]

theorem DroppedOnly.guiltOnly {s t : State} (h : DroppedOnly s t) : GuiltOnly s t := by
  refine ⟨?_, h.2⟩
  rw [h.1]

theorem guiltOnly_updCmd (s : State) (slot seq : Nat) (f : Cmd → Cmd) : GuiltOnly s (s.updCmd slot seq f) := ⟨rfl, fun _ => rfl⟩
theorem guiltOnly_setCmd (s : State) (c : Cmd) : GuiltOnly s (s.setCmd c) := ⟨rfl, fun _ => rfl⟩
theorem guiltOnly_updQueue (s : State) (slot : Nat) (f : Queue → Queue) : GuiltOnly s (s.updQueue slot f) := ⟨rfl, fun _ => rfl⟩

theorem guiltOnly_foldl {α : Type} (g : State → α → State) (hg : ∀ t x, GuiltOnly t (g t x)) (l : List α) (s : State) :
    GuiltOnly s (l.foldl g s) := by
  induction l generalizing s with
  | nil => exact .refl s
  | cons x l ih => exact (hg s x).trans (ih _)

theorem guiltOnly_cutFrom (s : State) (slot : Nat) (seq : BitVec 32) (st : Status) : GuiltOnly s (s.cutFrom slot seq st) := by
  refine guiltOnly_foldl _ (fun t c => ?_) (s.slotCmds slot) s
  split
  · split
    · exact guiltOnly_updCmd ..
    · exact ((droppedOnly_dropCmd ..).trans (droppedOnly_dropBuild ..)).guiltOnly
  · exact .refl t

theorem guiltOnly_settleOne {s t : State} {slot : Nat} (h : s.settleOne slot = some t) : GuiltOnly s t := by
  unfold State.settleOne at h
  split at h
  · cases h
  · split at h
    · cases h
      exact guiltOnly_updQueue ..
    · split at h
      · cases h
      · split at h
        · cases h
          exact (guiltOnly_setCmd ..).trans (guiltOnly_updQueue ..)
        · cases h

theorem guiltOnly_settle (s : State) (slot fuel : Nat) : GuiltOnly s (s.settle slot fuel) := by
  induction fuel generalizing s with
  | zero => exact .refl s
  | succ fuel ih =>
    unfold State.settle
    split
    next => exact .refl s
    next t hone => exact (guiltOnly_settleOne hone).trans (ih t)

theorem guiltOnly_ite {s a b : State} {c : Prop} [Decidable c] (h : GuiltOnly s a) (k : GuiltOnly s b) :
    GuiltOnly s (if c then a else b) := by
  split
  · exact h
  · exact k

/-- A guilty command cuts the queue behind it; the rest of the device stays. -/
theorem guiltOnly_makeGuilty (s : State) (slot : Nat) (seq : BitVec 32) (entries pass : Nat) (st : Status)
    (head : Option (Byte × BitVec 32)) : GuiltOnly s (s.makeGuilty slot seq entries pass st head) := by
  unfold State.makeGuilty
  split
  · exact .refl s
  · split
    · exact .refl s
    · exact guiltOnly_ite (.refl s) (((guiltOnly_cutFrom ..).trans (guiltOnly_updQueue ..)).trans (guiltOnly_settle ..))

theorem guiltOnly_cmdGuilty (s : State) (c : Cmd) (st : Status) : GuiltOnly s (s.cmdGuilty c st) := guiltOnly_makeGuilty ..

theorem guiltOnly_replicaError (s : State) (slot seq idx : Nat) (st : Status) : GuiltOnly s (s.replicaError slot seq idx st) := by
  unfold State.replicaError
  split
  · exact .refl s
  · split
    · exact .refl s
    · split
      · exact guiltOnly_cmdGuilty ..
      · exact guiltOnly_updCmd ..

-- Faults told (04 R84) ------------------------------------------------------------------------------------------------

theorem toldOnly_mmuFault (s : State) (n : Nat) (f : XFault) (w : Bool) (who part slot seq : Nat) :
    ToldOnly s (s.mmuFault n f w who part slot seq) := by
  unfold State.mmuFault
  dsimp only
  split
  · have hrecord (c : Prop) [Decidable c] (g : Inst → Inst) : ToldOnly s (if c then s else s.updInst n g) := by
      split
      · exact ⟨.refl _, rfl⟩
      · exact toldOnly_updInst ..
    split
    · exact hrecord ..
    · exact (hrecord _ _).trans (toldOnly_event ..)
  · exact ⟨.refl _, rfl⟩

-- Errors at the initiator (10 R229) -----------------------------------------------------------------------------------

theorem skimFault_net (s : State) (g : Nat) (f : XFault) : (s.skimFault g f).net = s.net := by
  unfold State.skimFault
  dsimp only
  have htold := (toldOnly_mmuFault s (s.skim g).inst f false 2 0 (s.skim g).slot (s.skim g).seq).net
  split
  · exact htold
  · split
    · exact (guiltOnly_cmdGuilty ..).net.trans htold
    · exact (guiltOnly_foldl _ (fun t l => guiltOnly_updCmd ..) _ _).net.trans htold

theorem dvaOf_net (s : State) (r : NetReq) : (s.dvaOf r).2.net = s.net := by
  unfold State.dvaOf
  split <;> rfl

/-- An error ends no other request and moves no ticket. -/
theorem errorResponse_net (s : State) (node tag : Nat) (r : NetReq) (st : Status) :
    (s.errorResponse node tag r st).net = s.net := by
  unfold State.errorResponse
  split
  · dsimp only
    have htold : (if st = St.hostXlate then (s.dvaOf r).2.mmuFault r.inst ⟨st, (s.dvaOf r).1, 0⟩ r.write 1 node r.slot
        (((s.runOf node).map (·.1.seq)).getD 0) else s).net = s.net := by
      split
      · exact (toldOnly_mmuFault ..).net.trans (dvaOf_net s r)
      · rfl
    split
    · exact (guiltOnly_replicaError ..).net.trans htold
    · exact htold
  · split
    · dsimp only
      split
      · rfl
      · split
        · rfl
        · exact skimFault_net ..
    · split
      · unfold State.streamFails
        split <;> rfl
      · rfl

-- A request that ends (10 R216, R227) ---------------------------------------------------------------------------------

/-- The network once the request of a tag has ended: the tag is free and its ticket back. -/
def endedNet (n : Net) (src tag : Nat) (r : NetReq) : Net :=
  { n.giveTicket src r.dst r.loaned with reqs := tabErase n.reqs (tagKey src tag) }

/-- The state at the end of a request, the response seen by the probes. -/
def endedState (s : State) (p : Pkt) (r : NetReq) : State :=
  { s with net := endedNet (s.observe p).net p.dst p.tag r }

theorem endedNet_ends {m n : Net} (h : SeenOnly m n) (src tag : Nat) (r : NetReq) :
    tabGet (endedNet n src tag r).reqs (tagKey src tag) = none
    ∧ tabGetD (endedNet n src tag r).out (pairKey src r.dst) 0 = tabGetD m.out (pairKey src r.dst) 0 - 1
    ∧ (r.loaned = true → tabGetD (endedNet n src tag r).lent r.dst 0 = tabGetD m.lent r.dst 0 - 1
        ∧ tabGetD (endedNet n src tag r).loans (pairKey src r.dst) 0 = tabGetD m.loans (pairKey src r.dst) 0 - 1)
    ∧ (r.loaned = false → (endedNet n src tag r).lent = m.lent ∧ (endedNet n src tag r).loans = m.loans)
    ∧ ∀ j, j ≠ tagKey src tag → tabGet (endedNet n src tag r).reqs j = tabGet m.reqs j := by
  rw [h]
  simp only [endedNet, Net.giveTicket]
  refine ⟨tabGet_erase_same .., tabGetD_bump_same .., fun hloan => ?_, fun hloan => ?_, fun j hj => tabGet_erase_other _ hj⟩
  · rw [if_pos hloan, if_pos hloan]
    exact ⟨tabGetD_bump_same .., tabGetD_bump_same ..⟩
  · rw [hloan]
    exact ⟨rfl, rfl⟩

theorem answered_of_request {s : State} {p : Pkt} {r : NetReq} (h : tabGet s.net.reqs (tagKey p.dst p.tag) = some r) :
    (s.observe p).answered p.dst p.tag = endedState s p r := by
  obtain ⟨_, hseen⟩ := observe_frame s p
  have hreq : tabGet (s.observe p).net.reqs (tagKey p.dst p.tag) = some r := by
    rw [hseen]
    exact h
  simp only [State.answered, hreq]
  rfl

theorem notGated_of_imp {s : State} {p : Nat} (h : p < 16 → (s.part p).state ≠ .gated) :
    (decide (p < 16) && (s.part p).state == .gated) = false := by
  rw [Bool.and_eq_false_iff, decide_eq_false_iff_not, beq_eq_false_iff_ne]
  exact Classical.or_iff_not_imp_left.2 fun hp => h (Classical.not_not.1 hp)

/-- A response at a running initiator under the tag's generation with its request outstanding ends the request; one that no
drain round voids and check point 3 passes reaches its own work, and a VOID does no more. -/
theorem response_of_request {s : State} {p : Pkt} {r : NetReq} (hsrc : s.cutOff p.src = false) (hdst : s.cutOff p.dst = false)
    (hgated : p.dst < 16 → (s.part p.dst).state ≠ .gated) (hgen : p.tgen = s.tagGen p.dst p.tag)
    (hreq : tabGet s.net.reqs (tagKey p.dst p.tag) = some r) (f : NetReq → State → State) :
    (p.typ = 0x17 → s.response p f = endedState s p r)
    ∧ (p.typ ≠ 0x17 → (endedState s p r).voided p = false → (endedState s p r).glove3 p.dst
          (if 32 < p.inst then p else { p with inst := r.inst, gen := r.gen, slot := r.slot }) = .pass →
        s.response p f = f r (endedState s p r)) := by
  obtain ⟨_, hseen⟩ := observe_frame s p
  have hfound : tabGet (s.observe p).net.reqs (tagKey p.dst p.tag) = some r := by
    rw [hseen]
    exact hreq
  have hrun : (decide (p.dst < 16) && ((s.observe p).part p.dst).state == .gated) = false := notGated_of_imp hgated
  have hold : (p.tgen ≠ s.tagGen p.dst p.tag) = False := eq_false (not_not.2 hgen)
  refine ⟨fun htyp => ?_, fun htyp hvoid hpass => ?_⟩
  · unfold State.response
    simp only [hsrc, hdst, hrun, hold, hfound, answered_of_request hreq, htyp, Bool.or_self, Bool.false_eq_true, if_false,
      decide_true, Bool.true_or, if_true]
  · have hvoid' : (s.observe p).voided p = false := hvoid
    unfold State.response
    simp only [hsrc, hdst, hrun, hold, hfound, answered_of_request hreq, htyp, hvoid', Bool.or_self, decide_false,
      Bool.false_eq_true, if_false]
    rw [hpass]

theorem response_of_answers {s : State} {p : Pkt} {r : NetReq} (h : Answers s p r) (f : NetReq → State → State) :
    (p.typ ≠ 0x17 → s.response p f = f r (endedState s p r))
    ∧ s.response { p with typ := 0x17 } f = endedState s { p with typ := 0x17 } r := by
  obtain ⟨hsrc, hdst, hgated, hgen, hreq, hvoid, hpass⟩ := h
  rw [answered_of_request hreq] at hvoid hpass
  obtain ⟨_, hwork⟩ := response_of_request hsrc hdst hgated hgen hreq f
  obtain ⟨hvoided, _⟩ := response_of_request (p := { p with typ := 0x17 }) hsrc hdst hgated hgen hreq f
  exact ⟨fun htyp => hwork htyp hvoid hpass, hvoided rfl⟩

/-- A response under an old generation of its tag is counted, and a ticket written off comes back. -/
def lateState (s : State) (p : Pkt) : State :=
  { s with net := { (s.observe p).net with
      late := satInc (s.observe p).net.late
      writtenOff := bump (s.observe p).net.writtenOff (pairKey p.dst p.src) (· - 1) } }

theorem response_of_old {s : State} {p : Pkt} (hsrc : s.cutOff p.src = false) (hdst : s.cutOff p.dst = false)
    (hgated : p.dst < 16 → (s.part p.dst).state ≠ .gated) (hgen : p.tgen ≠ s.tagGen p.dst p.tag)
    (f : NetReq → State → State) : s.response p f = lateState s p := by
  have hrun : (decide (p.dst < 16) && ((s.observe p).part p.dst).state == .gated) = false := notGated_of_imp hgated
  unfold State.response
  simp only [hsrc, hdst, hrun, hgen, Bool.or_self, Bool.false_eq_true, if_false, ne_eq, not_false_iff, if_true]
  rfl

theorem lateState_counts (s : State) (p : Pkt) :
    lateState s p = { s with net := (lateState s p).net } ∧ (lateState s p).net.late = satInc s.net.late
    ∧ (lateState s p).net.reqs = s.net.reqs ∧ (lateState s p).net.out = s.net.out
    ∧ tabGetD (lateState s p).net.writtenOff (pairKey p.dst p.src) 0 = tabGetD s.net.writtenOff (pairKey p.dst p.src) 0 - 1 := by
  obtain ⟨_, hseen⟩ := observe_frame s p
  refine ⟨rfl, ?_, ?_, ?_, ?_⟩
  all_goals unfold lateState; dsimp only; rw [hseen]
  exact tabGetD_bump_same ..

-- A read's bytes at its initiator (02 R37) ----------------------------------------------------------------------------

theorem readArrived_net (s : State) (node tag : Nat) (r : NetReq) (data : List Byte) :
    (s.readArrived node tag r data).net = s.net := by
  unfold State.readArrived
  split
  · unfold State.dmaLand
    split <;> rfl
  · split
    · split
      · unfold State.streamData
        split <;> rfl
      · rfl
    · split
      · split <;> rfl
      · rfl

theorem padTo_take_self (n : Nat) {bs : List Byte} (h : bs.length = n) : padTo n (bs.take n) = bs := by
  subst h
  simp [padTo]

/-- The bytes that a partition's channel has read land in the SRAM it names. -/
theorem dmaLand_lands {s : State} {p : Nat} {r : NetReq} {d : Dma} {c : Cmd} {x : Replica} (hdma : r.dma = some d)
    (hrun : s.runOf p = some (c, x)) (hring : d.ring = false) (hwf : cellsWf 0 ((s.part p).sram d.sram) = true)
    (hfit : d.off + r.len ≤ sramSize d.sram) (hdata : r.data.length = r.len) :
    s.dmaLand p r r.data = { s with parts := (s.dmaLand p r r.data).parts }
    ∧ ((s.dmaLand p r r.data).part p).readSram d.sram d.off r.len = r.data
    ∧ ∀ q, q ≠ p → (s.dmaLand p r r.data).part q = s.part q := by
  have hload (y : Part) : (y.loadedBy c.inst c.graph c.version).sram d.sram = y.sram d.sram := by
    unfold Part.loadedBy
    split
    · split
      · rfl
      · cases d.sram <;> rfl
    · rfl
  have hland : s.dmaLand p r r.data = s.updPart p (fun x =>
      (if d.sram = .weight then x.loadedBy c.inst c.graph c.version else x).writeSram d.sram d.off r.data) := by
    simp only [State.dmaLand, hdma, hrun, hring, Bool.false_eq_true, if_false, padTo_take_self _ hdata]
  rw [hland]
  refine ⟨rfl, ?_, fun q hq => updPart_part_other s _ hq⟩
  rw [updPart_part_same, ← hdata]
  refine readSram_writeSram_same ?_ (by rw [hdata]; exact hfit)
  split
  · rw [hload]
    exact hwf
  · exact hwf

theorem cutOff_observe (s : State) (p : Pkt) (node : Nat) : (s.observe p).cutOff node = s.cutOff node := by
  obtain ⟨_, hseen⟩ := observe_frame s p
  simp only [State.cutOff, State.bridge]
  rw [hseen]

-- O18 -----------------------------------------------------------------------------------------------------------------

/-- A response without an error ends its request and delivers the bytes of a controller's read. -/
theorem exec_rdRsp_ok {s : State} {p : Pkt} (hok : p.status = St.ok) (hlen : p.len ≤ 8)
    (hwait : s.waitsAt p.dst p.tag p.tgen = false) : exec (.rdRsp p false) s = .next (s.response p (fun r t =>
      if r.atMc && !r.write then t.readArrived p.dst p.tag r r.data else t)) := by
  have hshort : ¬ 8 < p.len := by omega
  have hgood : (p.status == St.memUncorrectable) = false := by rw [hok]; rfl
  have hne : (p.status = St.memUncorrectable) = False := by rw [hok]; decide
  have herr : ¬ p.status ≠ St.ok := not_not.2 hok
  simp only [exec, execRdRsp, if_neg hshort, hwait, hgood, Bool.or_self, Bool.and_false, Bool.false_eq_true, if_false, hne,
    decide_false, Bool.false_and, if_neg herr]

theorem exec_wrAck_ok {s : State} {p : Pkt} (hok : p.status = St.ok) (hlen : p.len = 0)
    (hwait : s.waitsAt p.dst p.tag p.tgen = false) : exec (.wrAck p) s = .next (s.response p (fun _ t => t)) := by
  have herr : ¬ p.status ≠ St.ok := not_not.2 hok
  simp only [exec, execWrAck, hlen, hwait, Bool.false_eq_true, if_false, if_neg herr, ne_eq, not_true]

theorem exec_regRsp_short {s : State} {p : Pkt} (hlen : p.len ≤ 1) :
    exec (.regRsp p) s = .next (s.response p (fun _ t => t)) := by
  simp only [exec, execRegRsp, if_neg (show ¬ 1 < p.len by omega)]

theorem exec_void {s : State} {p : Pkt} (hlen : p.len = 0) :
    exec (.voidPkt p) s = .next (s.response { p with typ := 0x17 } (fun _ t => t)) := by
  simp only [exec, execVoidPkt, hlen, ne_eq, not_true, if_false]

/-- The network once a request's time is over. -/
def timedOut (s : State) (src tag : Nat) (r : NetReq) : State :=
  { s with net := { s.net with
      reqs := tabErase s.net.reqs (tagKey src tag)
      tgen := bump s.net.tgen (tagKey src tag) (fun g => (g + 1) % 16)
      out := bump s.net.out (pairKey src r.dst) (· - 1)
      writtenOff := bump s.net.writtenOff (pairKey src r.dst) (· + 1) } }

/-- A request whose limit has passed ends as with ERR_TIMEOUT; one whose limit has not passed stays. -/
theorem exec_initiatorTimeout {s : State} {src : Fin 24} {tag : Fin 1024} {r : NetReq}
    (h : tabGet s.net.reqs (tagKey src.val tag.val) = some r) :
    (s.now < r.sentAt + (if r.dst = 16 then s.net.tmoHost else s.net.tmoPriv) * 1000 →
      exec (.initiatorTimeout src tag) s = .next s)
    ∧ (r.sentAt + (if r.dst = 16 then s.net.tmoHost else s.net.tmoPriv) * 1000 ≤ s.now →
      exec (.initiatorTimeout src tag) s
        = .next ((timedOut s src.val tag.val r).errorResponse src.val tag.val r St.errTimeout)) := by
  refine ⟨fun hearly => ?_, fun hlate => ?_⟩
  · simp only [exec, execInitiatorTimeout, h]
    exact congrArg _ (if_pos hearly)
  · simp only [exec, execInitiatorTimeout, h]
    exact congrArg _ (if_neg (Nat.not_lt.2 hlate))

/-- A timeout under the FEP or a unit without work of its own changes the FEP's stream errors alone. -/
theorem errorResponse_units {s : State} {node tag : Nat} {r : NetReq} {st : Status} (h16 : 16 ≤ node) :
    (node ≠ 19 → node ≠ 22 → node ≠ 23 → s.errorResponse node tag r st = s)
    ∧ (node = 19 → s.errorResponse node tag r st = { s with fep := { s.fep with
        readErr := (s.errorResponse node tag r st).fep.readErr } }) := by
  have hpart : ¬ node < 16 := by omega
  refine ⟨fun hfep hs0 hs1 => ?_, fun hfep => ?_⟩
  · simp only [State.errorResponse, hpart, hs0, hs1, hfep, nFep, or_self, if_false]
  · subst hfep
    simp only [State.errorResponse, nFep, if_true]
    rw [if_neg hpart, if_neg (by decide)]
    unfold State.streamFails
    split <;> rfl

/-- Settles O18: a response, a ticket packet, a generation packet and a timeout, each by the one rule of what it ends. -/
theorem responsesTicketsGenerationsAndTimeouts : Obligations.ResponsesTicketsGenerationsAndTimeouts := by
  refine ⟨?answer, ?late, ?length, ?ask, ?grant, ?gated, ?update, ?ack, ?timeout⟩
  case answer =>
    intro s p r hans htyp hwait k ended done
    obtain ⟨_, hseen⟩ := observe_frame s p
    obtain ⟨_, hseenVoid⟩ := observe_frame s { p with typ := 0x17 }
    have hended : ended (endedState s p r) := endedNet_ends hseen p.dst p.tag r
    refine ⟨fun hok hlen hno => ?_, fun hok hlen hmc hread => ?_, fun hok hlen => ?_, fun hlen => ?_, fun hlen => ?_⟩
    · have hexec := exec_rdRsp_ok hok hlen hwait
      obtain ⟨hwork, _⟩ := response_of_answers hans (fun r t =>
        if r.atMc && !r.write then t.readArrived p.dst p.tag r r.data else t)
      have hnoread : (r.atMc && !r.write) = false := by rcases hno with h | h <;> simp [h]
      rw [hwork htyp, hnoread] at hexec
      exact ⟨_, hexec, rfl, hended⟩
    · have hexec := exec_rdRsp_ok hok hlen hwait
      obtain ⟨hwork, _⟩ := response_of_answers hans (fun r t =>
        if r.atMc && !r.write then t.readArrived p.dst p.tag r r.data else t)
      rw [hwork htyp, hmc, hread] at hexec
      have hstill := still_of_view (view_execRdRsp _ _ _ hexec)
      refine ⟨_, hexec, hstill, ?_, fun d c x hp hdma hrun hring hwf hfit hdata => ?_⟩
      · have hnet := readArrived_net (endedState s p r) p.dst p.tag r r.data
        have := hended
        simp only [ended] at this ⊢
        rw [show (if (true && !false) = true then (endedState s p r).readArrived p.dst p.tag r r.data else endedState s p r).net
          = (endedState s p r).net from hnet]
        exact this
      · have hland : (endedState s p r).readArrived p.dst p.tag r r.data = (endedState s p r).dmaLand p.dst r r.data := by
          simp only [State.readArrived, if_pos hp]
        obtain ⟨hframe, hbytes, hother⟩ := dmaLand_lands (s := endedState s p r) hdma hrun hring hwf hfit hdata
        simp only [Bool.not_false, Bool.and_self, if_true]
        rw [hland]
        refine ⟨?_, hbytes, hother⟩
        rw [hframe]
        rfl
    · have hexec := exec_wrAck_ok hok hlen hwait
      rw [(response_of_answers hans _).1 htyp] at hexec
      exact ⟨_, hexec, rfl, hended⟩
    · have hexec := exec_regRsp_short (s := s) hlen
      rw [(response_of_answers hans _).1 htyp] at hexec
      exact ⟨_, hexec, rfl, hended⟩
    · have hexec := exec_void (s := s) hlen
      rw [(response_of_answers hans _).2] at hexec
      exact ⟨_, hexec, rfl, endedNet_ends hseenVoid p.dst p.tag r⟩
  case late =>
    intro s p hsrc hdst hgated hwait hgen hlen hok late
    refine ⟨⟨_, exec_rdRsp_ok hok (by omega) hwait, ?_⟩, ⟨_, exec_wrAck_ok hok hlen hwait, ?_⟩,
      ⟨_, exec_regRsp_short (by omega), ?_⟩, ⟨_, exec_void hlen, ?_⟩⟩
    · rw [response_of_old hsrc hdst hgated hgen]
      exact lateState_counts s p
    · rw [response_of_old hsrc hdst hgated hgen]
      exact lateState_counts s p
    · rw [response_of_old hsrc hdst hgated hgen]
      exact lateState_counts s p
    · rw [response_of_old (p := { p with typ := 0x17 }) hsrc hdst hgated hgen]
      exact lateState_counts s { p with typ := 0x17 }
  case length =>
    intro s p hlen b
    have hsome : p.len ≠ 0 := by omega
    have hone : 1 < p.len := by omega
    refine ⟨?_, ?_, ?_, ?_⟩
    · simp only [exec, execRdRsp, if_pos hlen]; rfl
    · simp only [exec, execWrAck, if_pos hsome]; rfl
    · simp only [exec, execRegRsp, if_pos hone]; rfl
    · simp only [exec, execVoidPkt, if_pos hsome]; rfl
  case ask =>
    intro s p k hlen hlo hhi hpool
    obtain ⟨_, hseen⟩ := observe_frame s p
    have hgood : ¬ (k = 0 ∨ 8 < k ∨ loanPool p.dst < k) := by omega
    have hexec : exec (.ticketReq p k) s = .next { s.observe p with net := { (s.observe p).net with
        loanQueue := (s.observe p).net.loanQueue ++ [(p.dst, p.src, k)] } } := by
      simp only [exec, execTicketReq, hlen, ne_eq, not_true, if_false, if_neg hgood]
    exact ⟨_, hexec, rfl, by rw [hseen], by rw [hseen], by rw [hseen]⟩
  case grant =>
    intro s p k hk hfind hcut hgated
    obtain ⟨_, hseen⟩ := observe_frame s p
    have hrun : (decide (p.dst < 16) && ((s.observe p).part p.dst).state == .gated) = false := notGated_of_imp hgated
    have hfind' : (s.observe p).net.loanQueue.find? (fun e => e.1 == p.src) = some (p.src, p.dst, k) := by
      rw [hseen]
      exact hfind
    have hcut' : (s.observe p).cutOff p.dst = false := by
      rw [show (s.observe p).cutOff p.dst = s.cutOff p.dst from cutOff_observe s p p.dst]
      exact hcut
    have hlent : (s.observe p).net.lent = s.net.lent := by rw [hseen]
    have hexec : exec (.ticketGrant p k) s
        = .next (if decide (tabGetD s.net.lent p.src 0 + k ≤ loanPool p.src) then { s.observe p with net := { (s.observe p).net with
            loanQueue := (s.observe p).net.loanQueue.erase (p.src, p.dst, k)
            lent := bump (s.observe p).net.lent p.src (· + k)
            loans := bump (s.observe p).net.loans (pairKey p.dst p.src) (· + k) } } else s.observe p) := by
      simp only [exec, execTicketGrant, hrun, Bool.false_eq_true, if_false, hfind', hcut', beq_self_eq_true, Bool.true_and,
        Bool.not_false, Bool.and_true, hlent]
    refine ⟨fun hfits => ?_, fun hover => ?_⟩
    · rw [decide_eq_true hfits, if_pos rfl] at hexec
      refine ⟨_, hexec, rfl, by rw [hseen], ?_, ?_⟩
      · exact (tabGetD_bump_same (s.observe p).net.lent p.src (· + k)).trans (by rw [hlent])
      · exact (tabGetD_bump_same (s.observe p).net.loans (pairKey p.dst p.src) (· + k)).trans (by rw [hseen])
    · rw [decide_eq_false (Nat.not_le.2 hover)] at hexec
      exact hexec
  case gated =>
    intro s p k hp hgated
    have hrun : (decide (p.dst < 16) && ((s.observe p).part p.dst).state == .gated) = true := by
      rw [Bool.and_eq_true, decide_eq_true_eq, beq_iff_eq]
      exact ⟨hp, hgated⟩
    simp only [exec, execTicketGrant, hrun, if_true]
    rfl
  case update =>
    intro s node n g hwaits hg hcut u
    have hgo : ((s.inst n.val).genWait.contains node.val && g == (s.inst n.val).gen && !s.cutOff node.val) = true := by
      simp [hwaits, hg, hcut]
    have hexec : exec (.genUpdate node n g) s = .next { u with net := { u.net with
        gens := tabSet u.net.gens (node.val * 64 + n.val) g } } := by
      simp only [exec, execGenUpdate, hgo, if_true]
      rfl
    refine ⟨_, hexec, rfl, fun hfep => ?_⟩
    simp only [State.nodeGen, nFep, if_neg hfep, tabGetD_set_same, hg]
    rfl
  case ack =>
    intro s node n
    refine ⟨fun hsame => ?_, fun hother => ?_⟩
    · have hexec : exec (.genAck node n) s = .next ((s.genAckSeen node.val).updInst n.val (fun i =>
          { i with genWait := i.genWait.filter (· != node.val) })) := by
        simp only [exec, execGenAck, if_pos hsame]
      refine ⟨_, hexec, rfl, ?_, fun k => ?_, fun m hm => updInst_inst_other _ _ hm⟩
      · rw [updInst_inst_same]
        rfl
      · rw [updInst_inst_same]
        simp only [List.mem_filter, bne_iff_ne]
        exact Iff.rfl
    · simp only [exec, execGenAck, if_neg hother]
  case timeout =>
    intro s src tag r hreq lim
    obtain ⟨hearly, hlate⟩ := exec_initiatorTimeout hreq
    refine ⟨hearly, fun hover => ?_⟩
    have hexec := hlate hover
    have hnet := errorResponse_net (timedOut s src.val tag.val r) src.val tag.val r St.errTimeout
    refine ⟨_, hexec, still_of_view (view_execInitiatorTimeout _ _ _ hexec), ?_, ?_, ?_, fun h16 h19 h22 h23 => ?_, fun h19 => ?_⟩
    · rw [hnet]
      exact tabGet_erase_same ..
    · unfold State.tagGen
      rw [hnet]
      exact tabGetD_bump_same s.net.tgen _ (fun g => (g + 1) % 16)
    · rw [hnet]
      exact tabGetD_bump_same s.net.writtenOff _ (· + 1)
    · rw [(errorResponse_units h16).1 h19 h22 h23]
      rfl
    · rw [(errorResponse_units (by omega)).2 h19]
      rfl

end Sys2Proof.Proofs
end

section
/-! PROOFS. Packets of VC2 and VC3 at a partition, and the stream blocks of a Skim engine (03 R59, R61, R62, 07 R157, R159, 10
R226). -/

namespace Sys2Proof.Proofs
open Sys2Proof Sys2Proof.Machine Sys2Proof.Safety Sys2Proof.Laws

-- Check point 3 (10 R221) ---------------------------------------------------------------------------------------------

theorem runOf_congr {s t : State} (hparts : t.parts = s.parts) (hcmds : t.cmds = s.cmds) (p : Nat) : t.runOf p = s.runOf p := by
  simp only [State.runOf, State.part, State.cmd, hparts, hcmds]

theorem glove3_pass_iff (s : State) (k : Nat) (p : Pkt) : s.glove3 k p = .pass ↔
    p.inst ≤ 32 ∧ (s.inst p.inst).state ≠ .absent ∧ (16 ≤ k ∨ (s.runOf k).any (fun e => e.1.inst == p.inst) = true)
      ∧ p.gen = s.nodeGen k p.inst := by
  unfold State.glove3
  cases hrun : s.runOf k with
  | none => grind
  | some e => grind

/-- Check point 3 reads the instances, what runs, and the nodes' generations. -/
theorem glove3_pass_congr {s t : State} {k : Nat} {p : Pkt} (hinsts : t.insts = s.insts) (hparts : t.parts = s.parts)
    (hcmds : t.cmds = s.cmds) (hgens : t.net.gens = s.net.gens) (h : s.glove3 k p = .pass) : t.glove3 k p = .pass := by
  have hinst (n : Nat) : t.inst n = s.inst n := by simp only [State.inst, hinsts]
  rw [glove3_pass_iff] at h ⊢
  simp only [hinst, State.nodeGen, hgens, runOf_congr hparts hcmds] at h ⊢
  exact h

-- Packets at a partition ----------------------------------------------------------------------------------------------

theorem control_of_block {s : State} {p : Nat} {pkt : Pkt} (htyp : pkt.typ = 0x0C) (hsrc : s.cutOff pkt.src = false)
    (hp : s.cutOff p = false) (hgated : (s.part p).state ≠ .gated) (hvoid : s.voided pkt = false)
    (hpass : s.glove3 p pkt = .pass) (f : State → State) : s.control p pkt f = f s := by
  have hrun : ((s.part p).state == .gated) = false := by simpa using hgated
  simp only [State.control, htyp, if_true, hsrc, hp, hrun, hvoid, hpass, Bool.or_self, Bool.false_eq_true, if_false]

theorem control_of_received {s : State} {p : Nat} {pkt : Pkt} (htyp : pkt.typ ≠ 0x0C) (h : Received s p pkt)
    (f : State → State) : s.control p pkt f = f (s.observe pkt) := by
  obtain ⟨hsrc, hp, hgated, hvoid, hpass⟩ := h
  have hrun : (((s.observe pkt).part p).state == .gated) = false := by
    rw [beq_eq_false_iff_ne]
    exact hgated
  simp only [State.control, if_neg htyp, hsrc, hp, hrun, hvoid, hpass, Bool.or_self, Bool.false_eq_true, if_false]

/-- A gated partition's bridge sinks a packet and counts it. -/
theorem control_of_gated {s : State} {p : Nat} {pkt : Pkt} (hsrc : s.cutOff pkt.src = false) (hp : s.cutOff p = false)
    (hgated : (s.part p).state = .gated) (f : State → State) : s.control p pkt f = { s with net := (s.control p pkt f).net }
    ∧ ((s.control p pkt f).bridge p).discard = satInc (s.bridge p).discard := by
  have hsunk : s.control p pkt f = (if pkt.typ = 0x0C then s else s.observe pkt).sink p := by
    have hrun : (((if pkt.typ = 0x0C then s else s.observe pkt).part p).state == .gated) = true := by
      rw [beq_iff_eq]
      split <;> exact hgated
    simp only [State.control, hsrc, hp, hrun, Bool.or_self, Bool.false_eq_true, if_false, if_true]
  rw [hsunk]
  obtain ⟨_, hseen⟩ := observe_frame s pkt
  have hbridge : (s.observe pkt).bridge p = s.bridge p := by
    unfold State.bridge
    rw [hseen]
  split
  · exact ⟨rfl, by simp [State.sink]⟩
  · exact ⟨rfl, by simp [State.sink, hbridge]⟩

theorem seenOnly_foldl_ports (now : Nat) (out : Bool) (p : Pkt) (l : List (Nat × Nat)) (n : Net) :
    SeenOnly n (l.foldl (fun n e => (n.observe now (2 * e.1) e.2 out p).observe now (2 * e.1 + 1) e.2 out p) n) := by
  induction l generalizing n with
  | nil => exact rfl
  | cons e l ih => exact ((seenOnly_net_observe ..).trans (seenOnly_net_observe ..)).trans (ih _)

theorem observeSkim_frame (s : State) (p : Pkt) :
    s.observeSkim p = { s with net := (s.observeSkim p).net } ∧ SeenOnly s.net (s.observeSkim p).net :=
  ⟨rfl, (seenOnly_foldl_ports ..).trans (seenOnly_foldl_ports ..)⟩

theorem SeenOnly.bridges {m n : Net} (h : SeenOnly m n) : n.bridges = m.bridges := by rw [h]
theorem SeenOnly.gens {m n : Net} (h : SeenOnly m n) : n.gens = m.gens := by rw [h]
theorem SeenOnly.reqs {m n : Net} (h : SeenOnly m n) : n.reqs = m.reqs := by rw [h]

theorem cutOff_congr {s t : State} (h : t.net.bridges = s.net.bridges) (node : Nat) : t.cutOff node = s.cutOff node := by
  simp only [State.cutOff, State.bridge, h]

theorem updCmd_cmd_same (s : State) (slot seq : Nat) (f : Cmd → Cmd) :
    (s.updCmd slot seq f).cmd slot seq = (s.cmd slot seq).map f := tabGet_modify_same ..

-- Stream blocks that land (03 R59) ------------------------------------------------------------------------------------

/-- A block that holds no error lands in the slot of the ring that follows the last one. -/
theorem landBlock_lands (s : State) (p : Nat) (c : Cmd) (r : Replica) (data : List Byte) :
    s.landBlock p c r false data = { s with parts := (s.landBlock p c r false data).parts }
    ∧ ((s.landBlock p c r false data).part p).landed = (s.part p).landed + 1
    ∧ (cellsWf 0 (s.part p).weight = true → data.length = 4096 →
        ((s.landBlock p c r false data).part p).readSram .weight (ringSlot (s.part p).landed) 4096 = data)
    ∧ ∀ q, q ≠ p → (s.landBlock p c r false data).part q = s.part q := by
  have hload (y : Part) : (y.loadedBy c.inst c.graph c.version).weight = y.weight := by
    unfold Part.loadedBy
    split
    · split <;> rfl
    · rfl
  have hland : s.landBlock p c r false data = s.updPart p (fun x =>
      { (x.loadedBy c.inst c.graph c.version).writeSram .weight (ringSlot x.landed) data with
        landed := x.landed + 1 }) := by
    simp only [State.landBlock, Bool.false_eq_true, if_false]
  rw [hland]
  refine ⟨rfl, ?_, fun hwf hdata => ?_, fun q hq => updPart_part_other s _ hq⟩
  · rw [updPart_part_same]
  · rw [updPart_part_same, ← hdata]
    have hwf' : cellsWf 0 (((s.part p).loadedBy c.inst c.graph c.version).sram .weight) = true := by
      rw [show ((s.part p).loadedBy c.inst c.graph c.version).sram .weight = (s.part p).weight from hload _]
      exact hwf
    refine readSram_writeSram_same hwf' ?_
    rw [hdata]
    unfold ringSlot ringBase sramSize
    dsimp only
    omega

-- Relay tokens and credits (07 R157) ----------------------------------------------------------------------------------

/-- What a producer may send depends on nothing that the probes change. -/
theorem maySend_seen {s : State} {n : Net} (h : SeenOnly s.net n) (c : Cmd) (r : Replica) (edge : Nat) (marker : Bool) :
    State.maySend { s with net := n } c r edge marker = s.maySend c r edge marker := by
  unfold State.maySend State.writesOpen
  dsimp only
  rw [h.reqs]
  rfl

/-- A token or credit reaches the role that it names, saved or running. -/
theorem relayPacket_reaches {s : State} {p : Nat} {h : Pkt} {c : Cmd} {r : Replica}
    (hrole : s.savedRole p h.slot = some (c, r)
      ∨ (s.savedRole p h.slot = none ∧ h.typ ≠ 0x0C ∧ Received s p h ∧ s.runOf p = some (c, r)))
    (f : Cmd → Replica → State → State) : s.relayPacket p h f = f c r (s.observe h) := by
  rcases hrole with hsaved | ⟨hsaved, htyp, hrec, hrun⟩
  · simp only [State.relayPacket, hsaved]
  · have hrun' : (s.observe h).runOf p = some (c, r) := hrun
    simp only [State.relayPacket, hsaved, control_of_received htyp hrec, hrun']

theorem tokenArrive_cmds {s : State} {c : Cmd} {e : Edge} {edge : Nat} {rs : Replica} {final marker : Bool}
    (hcmd : s.cmd c.slot c.seq = some c) (hsrc : roleReplica c e.src = some rs) (hmay : s.maySend c rs edge marker = true) :
    let fin (l : List Nat) : List Nat := if final then l ++ [edge] else l
    let producer (x : Replica) : Replica :=
      if x.idx = rs.idx then
        (if marker then { x with outFinal := fin x.outFinal }
         else { x with outFinal := fin x.outFinal
                       outSent := if x.outSent.contains edge then x.outSent else x.outSent ++ [edge]
                       outCredits := tabSet x.outCredits edge (tabGetD x.outCredits edge 0 - 1) })
      else x
    let consumer (x : Replica) : Replica :=
      if x.role = e.dst then
        (if marker then { x with inFinal := fin x.inFinal }
         else { x with inFinal := fin x.inFinal, inTokens := tabSet x.inTokens edge (tabGetD x.inTokens edge 0 + 1) })
      else x
    tokenArrive c e edge final marker s = { s with cmds := (tokenArrive c e edge final marker s).cmds }
    ∧ (tokenArrive c e edge final marker s).cmd c.slot c.seq
        = some { c with replicas := (c.replicas.map producer).map consumer } := by
  intro fin producer consumer
  have harrive : tokenArrive c e edge final marker s = (s.updCmd c.slot c.seq (fun c =>
      { c with replicas := c.replicas.map producer })).updCmd c.slot c.seq (fun c =>
      { c with replicas := c.replicas.map consumer }) := by
    simp only [tokenArrive, hsrc, hmay, Bool.not_true, Bool.false_eq_true, if_false]
    rfl
  rw [harrive, updCmd_cmd_same, updCmd_cmd_same, hcmd]
  exact ⟨rfl, rfl⟩

theorem creditArrive_cmds {s : State} {c : Cmd} {e : Edge} {edge : Nat} {rd : Replica}
    (hcmd : s.cmd c.slot c.seq = some c) (hdst : roleReplica c e.dst = some rd) (hrun : rd.state = .running)
    (howed : 0 < tabGetD rd.owed edge 0) :
    let consumer (x : Replica) : Replica := if x.idx = rd.idx then { x with owed := tabModify x.owed edge (· - 1) } else x
    let producer (x : Replica) : Replica :=
      if x.role = e.src then
        { x with outCredits := tabSet x.outCredits edge (tabGetD x.outCredits edge 0 + 1) } else x
    creditArrive c e edge s = { s with cmds := (creditArrive c e edge s).cmds }
    ∧ (creditArrive c e edge s).cmd c.slot c.seq = some { c with replicas := (c.replicas.map consumer).map producer } := by
  intro consumer producer
  have hgo : (rd.state != .running || tabGetD rd.owed edge 0 == 0) = false := by
    rw [hrun, Bool.or_eq_false_iff]
    exact ⟨rfl, beq_eq_false_iff_ne.2 (by omega)⟩
  have harrive : creditArrive c e edge s = (s.updCmd c.slot c.seq (fun c =>
      { c with replicas := c.replicas.map consumer })).updCmd c.slot c.seq (fun c =>
      { c with replicas := c.replicas.map producer }) := by
    simp only [creditArrive, hdst, hgo, Bool.false_eq_true, if_false]
    rfl
  rw [harrive, updCmd_cmd_same, updCmd_cmd_same, hcmd]
  exact ⟨rfl, rfl⟩

-- The engine's blocks (03 R61, R62) -----------------------------------------------------------------------------------

theorem cachesOnly_ite {s a b : State} {c : Prop} [Decidable c] (h : CachesOnly s a) (k : CachesOnly s b) :
    CachesOnly s (if c then a else b) := by
  split
  · exact h
  · exact k

theorem cachesOnly_xlated (s : State) (n node dva : Nat) : CachesOnly s (s.xlated n node dva) := by
  obtain ⟨hwalked, _⟩ := walked_frame s n dva
  unfold State.xlated
  dsimp only
  refine cachesOnly_ite (.refl s) ?_
  cases s.leafOf n dva with
  | ok l =>
    exact ((cachesOnly_ite (.refl s) hwalked).trans (cachesOnly_tlbLoad ..)).trans (cachesOnly_microLoad ..)
  | error e => exact cachesOnly_ite (.refl s) hwalked

theorem CachesOnly.skims {s t : State} (h : CachesOnly s t) : t.skims = s.skims := by rw [h.1]

/-- Charging a block's reads leaves the streams alone. -/
theorem chargeBlock_skims (s : State) (x : Skim) (dva len fuel : Nat) : (s.chargeBlock x dva len fuel).skims = s.skims := by
  have hxlated (u : State) (n node d : Nat) : (u.xlated n node d).skims = u.skims := (cachesOnly_xlated u n node d).skims
  induction fuel generalizing s dva len with
  | zero => rfl
  | succ fuel ih =>
    unfold State.chargeBlock
    split
    · rfl
    · dsimp only
      rw [ih]
      split
      · dsimp only
        rw [corrected_eq]
        exact hxlated ..
      · exact hxlated ..
      · rfl

theorem sendBlock_skims (s : State) (g : Nat) (poison : Bool) (data : List Byte) :
    (s.sendBlock g poison data).skim g = (s.skim g).advance (poison || (s.skim g).poison) data
    ∧ ∀ j, j ≠ g → (s.sendBlock g poison data).skim j = s.skim j := by
  have hskim (j : Nat) : (s.chargeBlock (s.skim g) (s.skim g).nextDva 4096 (pagesOf 4096)).skim j = s.skim j := by
    simp only [State.skim, chargeBlock_skims]
  refine ⟨?_, fun j hj => ?_⟩
  · unfold State.sendBlock
    dsimp only
    rw [updSkim_skim_same, hskim]
  · unfold State.sendBlock
    dsimp only
    rw [updSkim_skim_other _ _ hj, hskim]

theorem mmuFault_skim (s : State) (n : Nat) (f : XFault) (w : Bool) (who part slot seq j : Nat) :
    (s.mmuFault n f w who part slot seq).skim j = s.skim j := by
  unfold State.skim
  rw [(toldOnly_mmuFault s n f w who part slot seq).2]

/-- What the engine has left once the next block is on its way. -/
theorem advance_fields (x : Skim) (poison : Bool) (data : List Byte) :
    (x.advance poison data).started = true ∧ (x.advance poison data).holding = none
    ∧ (x.advance poison data).lag = x.lag.map (fun e => (e.1, e.2 + 1))
    ∧ (x.head < x.stream.blocks → (x.advance poison data).head = x.head + 1 ∧ (x.advance poison data).pass = x.pass)
    ∧ (x.stream.blocks ≤ x.head → (x.advance poison data).head = 1 ∧ (x.advance poison data).pass = x.pass + 1)
    ∧ (x.advance poison data).flight = x.flight ++ [{ mask := x.maskFor x.block, left := x.maskFor x.block, poison := poison, data := data }] := by
  refine ⟨rfl, rfl, rfl, fun h => ?_, fun h => ?_, rfl⟩
  · have hle : ¬ x.stream.blocks ≤ x.head := by omega
    simp only [Skim.advance, Skim.block, if_neg hle, and_self]
  · simp only [Skim.advance, Skim.block, if_pos h, and_self]

theorem blocked_eq_false {x : Skim} (h : ∀ e ∈ x.lag, e.2 + 1 ≤ 16) : x.blocked = false := by
  rw [Bool.eq_false_iff]
  intro hany
  obtain ⟨e, he, hover⟩ := List.any_eq_true.1 hany
  exact absurd (h e he) (Nat.not_le.2 (of_decide_eq_true hover))

theorem blocked_eq_true {x : Skim} (h : ∃ e ∈ x.lag, 16 < e.2 + 1) : x.blocked = true := by
  obtain ⟨e, he, hover⟩ := h
  exact List.any_eq_true.2 ⟨e, he, decide_eq_true hover⟩

theorem blocked_single (x : Skim) (l k : Nat) (h : x.lag = [(l, k)]) : x.blocked = decide (16 ≤ k) := by
  simp only [Skim.blocked, driftBlocks, h, List.any_cons, List.any_nil, Bool.or_false]
  exact decide_eq_decide.2 (by omega)

/-- The hold limit detaches nothing where one replica is attached. -/
theorem holdExpiry_single {s : State} {g l k : Nat} (h : (s.skim g).lag = [(l, k)]) : s.holdExpiry g = s := by
  have hlast : (s.skim g).lag.length ≤ 1 ∨ (s.skim g).lagDetached.contains l = true := by
    rw [h]
    exact .inl (Nat.le_refl 1)
  simp only [State.holdExpiry, Skim.leaders, h, tabKeys, List.map_cons, List.map_nil, List.filter_cons, List.filter_nil]
  split
  · simp only [List.foldl_cons, List.foldl_nil]
    rw [if_pos hlast]
  · rfl

theorem eventLimited_skim (s : State) (code limitSubject subject : Nat) (a b : Bool) (payload : List Byte) (j : Nat) :
    (s.eventLimited code limitSubject subject a b payload).skim j = s.skim j := by
  simp only [State.skim, eventLimited_skims]

/-- A replica detached for its lag leaves the group, and is counted. -/
theorem detach_skim {s : State} {g l k : Nat} (shape : Nat) (hlag : tabGet (s.skim g).lag l = some k)
    (hrest : tabErase (s.skim g).lag l ≠ []) :
    ((s.detach g l shape 0).skim g).lag = tabErase (s.skim g).lag l
    ∧ ((s.detach g l shape 0).skim g).detCount = satInc (s.skim g).detCount := by
  unfold State.detach
  simp only [hlag]
  rw [State.sweepSkim, eventLimited_skim, updCmd_skim, updSkim_skim_same]
  have hstay : (tabErase (s.skim g).lag l).isEmpty = false := by
    cases h : tabErase (s.skim g).lag l with
    | nil => exact absurd h hrest
    | cons a t => rfl
  rw [if_neg (by simp [hstay]), eventLimited_skim, updCmd_skim, updSkim_skim_same]
  exact ⟨rfl, rfl⟩

/-- Of two attached replicas the one that blocks the stream is detached at the hold limit. -/
theorem holdExpiry_pair {s : State} {g l k m j : Nat} {c : Cmd} {r : Replica} (h : (s.skim g).lag = [(l, k), (m, j)])
    (hne : l ≠ m) (hk : 16 ≤ k) (hj : j < 16) (hnew : l ∉ (s.skim g).lagDetached) (hrun : s.runOf l = some (c, r)) :
    s.holdExpiry g = s.detach g l r.shape 0 := by
  have hblocks : decide (driftBlocks < tabGetD [(l, k), (m, j)] l 0 + 1) = true := by
    simp only [tabGetD, tabGet, if_true, Option.getD_some, driftBlocks, decide_eq_true_eq]
    omega
  have hflows : decide (driftBlocks < tabGetD [(l, k), (m, j)] m 0 + 1) = false := by
    simp only [tabGetD, tabGet, if_neg hne, if_true, Option.getD_some, driftBlocks, decide_eq_false_iff_not]
    omega
  have hgo : ¬ ((s.skim g).lag.length ≤ 1 ∨ (s.skim g).lagDetached.contains l = true) := by
    rw [h, List.contains_iff_mem]
    exact fun hor => hor.elim (by simp) hnew
  simp only [State.holdExpiry, Skim.leaders, h, tabKeys, List.map_cons, List.map_nil, List.filter_cons, List.filter_nil, hblocks,
    hflows, Bool.false_eq_true, if_true, if_false, List.foldl_cons, List.foldl_nil]
  rw [h] at hgo
  rw [if_neg hgo, hrun]

/-- A slot freed by a member of an attached replica lowers its lag and ends the hold where nothing blocks the stream. -/
theorem exec_slotCredit {s : State} {g : Fin 8} {p : Fin 16} {c : Cmd} {r : Replica} {k : Nat}
    (hlag : (s.skim g.val).lag = [(r.leader, k + 1)]) (hrun : s.runOf r.leader = some (c, r))
    (hslot : c.slot = (s.skim g.val).slot) (hseq : c.seq = (s.skim g.val).seq) (hmember : p.val ∈ groupParts r.shape r.leader)
    (howed : (s.part p.val).owed ≠ 0) (hmore : (s.skim g.val).allSent = false ∨ 0 < k) :
    let t := (((s.slotCreditSeen p.val (s.skim g.val).engine).updPart p.val (fun x => { x with owed := x.owed - 1 })).updSkim g.val
      (fun x => { x with lag := tabModify x.lag r.leader (· - 1) })).updSkim g.val
      (fun x => { x with holding := if x.blocked then x.holding else none })
    exec (.slotCredit g p) s = .next t
    ∧ t.part p.val = { s.part p.val with owed := (s.part p.val).owed - 1 }
    ∧ t.skim g.val = { s.skim g.val with lag := [(r.leader, k)], holding := if 16 ≤ k then (s.skim g.val).holding else none } := by
  intro t
  have hskim : t.skim g.val = { s.skim g.val with
      lag := [(r.leader, k)], holding := if 16 ≤ k then (s.skim g.val).holding else none } := by
    have hlow : tabModify (s.skim g.val).lag r.leader (· - 1) = [(r.leader, k)] := by simp [hlag, tabModify]
    have hblock := blocked_single { s.skim g.val with lag := [(r.leader, k)] } r.leader k rfl
    simp only [t, updSkim_skim_same, updPart_skim, State.slotCreditSeen, State.vc3]
    rw [show ∀ q, (s.observe q).skim g.val = s.skim g.val from fun q => rfl, hlow, hblock]
    simp only [decide_eq_true_eq]
  refine ⟨?_, ?_, hskim⟩
  · have hmember' : (groupParts r.shape r.leader).contains p.val = true := List.contains_iff_mem.2 hmember
    have hstay : ((t.skim g.val).allSent && tabGetD (t.skim g.val).lag r.leader 1 == 0) = false := by
      rw [hskim, Bool.and_eq_false_iff]
      refine hmore.imp (fun h => h) fun h => ?_
      simp only [tabGetD, tabGet, if_true, Option.getD_some, beq_eq_false_iff_ne]
      omega
    simp only [exec, execSlotCredit, slotCredit, Skim.leaders, hlag, tabKeys, List.map_cons, List.map_nil, List.find?_cons,
      hrun, hslot, hseq, hmember', beq_self_eq_true, Bool.and_self]
    rw [if_neg howed]
    exact congrArg _ (if_neg (by rw [hstay]; exact Bool.false_ne_true))
  · simp only [t, updSkim_part, updPart_part_same]
    rfl

-- O19 -----------------------------------------------------------------------------------------------------------------

/-- Settles O19: a packet that reaches its partition's own work does that work, and a stream's next block goes out by the lags,
the share and the bytes that have come. -/
theorem skimBlocksTokensAndCreditsFlow : Obligations.SkimBlocksTokensAndCreditsFlow := by
  refine ⟨?block, ?token, ?credit, ?sunk, ?send, ?slot, ?hold⟩
  case block =>
    intro s p pkt g x k c r hlen hfind hskim hcopy hcmd hpoison hsrc hp hgated hvoid hpass hrun
    obtain ⟨n, hn, hseen⟩ : ∃ n, (if (leadersOf k.mask).head? = some p.val then s.observeSkim (skimPkt pkt k c) else s)
        = { s with net := n } ∧ SeenOnly s.net n := by
      split
      · exact ⟨_, observeSkim_frame s _⟩
      · exact ⟨s.net, rfl, .refl _⟩
    have hexec : exec (.skim pkt p) s = .next ((State.updSkim { s with net := n } g (fun x =>
        { x with flight := takeCopy p.val x.flight })).landBlock p.val c r false k.data) := by
      have hsrc' : (State.updSkim { s with net := n } g (fun x => { x with flight := takeCopy p.val x.flight })).cutOff
          (skimPkt pkt k c).src = false := (cutOff_congr hseen.bridges _).trans hsrc
      have hp' : (State.updSkim { s with net := n } g (fun x => { x with flight := takeCopy p.val x.flight })).cutOff p.val = false :=
        (cutOff_congr hseen.bridges _).trans hp
      have hpass' : (State.updSkim { s with net := n } g (fun x => { x with flight := takeCopy p.val x.flight })).glove3 p.val
          (skimPkt pkt k c) = .pass := glove3_pass_congr (s := s) rfl rfl rfl hseen.gens hpass
      have hrun' : (State.updSkim { s with net := n } g (fun x => { x with flight := takeCopy p.val x.flight })).runOf p.val
          = some (c, r) := hrun
      simp only [exec, execSkim, hlen, ne_eq, not_true, if_false, hfind, hcopy, hcmd, hn]
      rw [control_of_block rfl hsrc' hp' hgated hvoid hpass']
      simp only [hrun', and_self, if_true, hpoison]
    have hstill := still_of_view (view_execSkim _ _ _ hexec)
    obtain ⟨hframe, hlanded, hbytes, hother⟩ := landBlock_lands (State.updSkim { s with net := n } g (fun x =>
      { x with flight := takeCopy p.val x.flight })) p.val c r k.data
    refine ⟨_, hexec, hstill, ?_, hlanded, hbytes, ?_, hother⟩
    · rw [hframe]
      rfl
    · rw [hframe]
      exact (congrArg Skim.flight (updSkim_skim_same { s with net := n } g (fun x =>
        { x with flight := takeCopy p.val x.flight }))).trans (congrArg (fun y : Skim => takeCopy p.val y.flight) hskim)
  case token =>
    intro s p edge pkt c r e rs final marker h hrole hedge hcmd hrelay hdst hleader hsrc hmay hfinal fin producer consumer
    obtain ⟨hframe, hseen⟩ := observe_frame s h
    have hmay' : (s.observe h).maySend c rs edge.val marker = true := (maySend_seen hseen c rs edge.val marker).trans hmay
    have hedge' : (s.observe (s.filled pkt)).edgeOf c edge.val = some e := hedge
    have hgo : (c.relay && e.dst == r.role && r.leader == p.val && (final || !marker)) = true := by
      have hmark : (final || !marker) = true := by
        cases marker with
        | true => rw [hfinal rfl]; rfl
        | false => simp
      rw [hrelay, hmark, Bool.true_and, Bool.and_true, Bool.and_eq_true, beq_iff_eq, beq_iff_eq]
      exact ⟨hdst, hleader⟩
    have hexec : exec (.token p edge final marker pkt) s = .next (tokenArrive c e edge.val final marker (s.observe h)) := by
      simp only [exec, execToken, relayPacket_reaches (h := s.filled pkt) hrole]
      rw [hedge']
      simp only [hgo, if_true]
      rfl
    obtain ⟨hcmds, hnow⟩ := tokenArrive_cmds (s := s.observe h) (final := final) hcmd hsrc hmay'
    refine ⟨_, hexec, ?_, hnow⟩
    rw [hcmds]
    rfl
  case credit =>
    intro s p edge pkt c r e rd h hrole hedge hcmd hrelay hsrc hleader hdst hrun howed consumer producer
    have hedge' : (s.observe (s.filled pkt)).edgeOf c edge.val = some e := hedge
    have hgo : (c.relay && e.src == r.role && r.leader == p.val) = true := by
      rw [hrelay, Bool.true_and, Bool.and_eq_true, beq_iff_eq, beq_iff_eq]
      exact ⟨hsrc, hleader⟩
    have hexec : exec (.credit p edge pkt) s = .next (creditArrive c e edge.val (s.observe h)) := by
      simp only [exec, execCredit, relayPacket_reaches (h := s.filled pkt) hrole]
      rw [hedge']
      simp only [hgo, if_true]
      rfl
    obtain ⟨hcmds, hnow⟩ := creditArrive_cmds (s := s.observe h) hcmd hdst hrun howed
    refine ⟨_, hexec, ?_, hnow⟩
    rw [hcmds]
    rfl
  case sunk =>
    intro s p edge pkt final marker hsaved hsrc hp hgated sunk
    have hsrc' : s.cutOff (s.filled pkt).src = false := by rw [filled_src]; exact hsrc
    refine ⟨⟨_, rfl, ?_⟩, ⟨_, rfl, ?_⟩⟩
    · simp only [State.relayPacket, hsaved]
      exact control_of_gated hsrc' hp hgated _
    · simp only [State.relayPacket, hsaved]
      exact control_of_gated hsrc' hp hgated _
  case send =>
    intro s g hactive hlag hall hphase hdrain x spent sends
    have hgo : (!(s.skim g.val).active || (s.skim g.val).lag.isEmpty || (s.skim g.val).allSent || s.rst.phase != .none
        || s.skimDrained (s.skim g.val)) = false := by
      rw [hactive, List.isEmpty_eq_false_iff.2 hlag, hall, hphase, hdrain]
      rfl
    have hfree (hfits : ∀ e ∈ x.lag, e.2 + 1 ≤ 16) : (s.skim g.val).blocked = false := blocked_eq_false hfits
    refine ⟨fun hfits hshare => ⟨fun bs rest hread hcome => ?_, fun bs rest hread hmiss => ?_, fun f hread hue => ?_⟩,
      fun hfits hspent => ?_, fun hover => ⟨fun hnone => ?_, fun hsome => ?_⟩⟩
    · have hexec : exec (.skimBlockSend g) s = .next (s.sendBlock g.val false bs) := by
        simp only [exec, execSkimBlockSend, skimBlockSend, hgo, hfree hfits, Bool.false_eq_true, if_false]
        rw [if_neg hshare, hread]
        exact congrArg _ (if_neg (Nat.not_lt.2 hcome))
      obtain ⟨hsent, hother⟩ := sendBlock_skims s g.val false bs
      obtain ⟨h1, h2, h3, h4, h5, hflight⟩ := advance_fields (s.skim g.val) (false || (s.skim g.val).poison) bs
      rw [← hsent] at h1 h2 h3 h4 h5 hflight
      exact ⟨_, hexec, ⟨still_of_view (view_execSkimBlockSend _ _ hexec), h1, h2, h3, h4, h5,
        ⟨_, hflight, rfl, rfl, rfl⟩, hother⟩, _, hflight, rfl⟩
    · simp only [exec, execSkimBlockSend, skimBlockSend, hgo, hfree hfits, Bool.false_eq_true, if_false]
      rw [if_neg hshare, hread]
      exact congrArg _ (if_pos hmiss)
    · have hexec : exec (.skimBlockSend g) s = .next ((s.sendBlock g.val true (List.replicate 4096 0)).mmuFault
          (s.skim g.val).inst f false 2 0 (s.skim g.val).slot (s.skim g.val).seq) := by
        simp only [exec, execSkimBlockSend, skimBlockSend, hgo, hfree hfits, Bool.false_eq_true, if_false]
        rw [if_neg hshare, hread]
        exact congrArg _ (if_pos hue)
      obtain ⟨hsent, hother⟩ := sendBlock_skims s g.val true (List.replicate 4096 0)
      obtain ⟨h1, h2, h3, h4, h5, hflight⟩ := advance_fields (s.skim g.val) (true || (s.skim g.val).poison) (List.replicate 4096 0)
      have hsent' := (mmuFault_skim (s.sendBlock g.val true (List.replicate 4096 0)) (s.skim g.val).inst f false 2 0
        (s.skim g.val).slot (s.skim g.val).seq g.val).trans hsent
      rw [← hsent'] at h1 h2 h3 h4 h5 hflight
      exact ⟨_, hexec, still_of_view (view_execSkimBlockSend _ _ hexec), h1, h2, h3, h4, h5, ⟨_, hflight, rfl, rfl, rfl⟩,
        fun j hj => (mmuFault_skim ..).trans (hother j hj)⟩
    · simp only [exec, execSkimBlockSend, skimBlockSend, hgo, hfree hfits, Bool.false_eq_true, if_false]
      exact congrArg _ (if_pos hspent)
    · have hfull : (s.skim g.val).blocked = true := blocked_eq_true hover
      have hnone' : (s.skim g.val).holding.isSome = false := by
        rw [hnone]
        rfl
      simp only [exec, execSkimBlockSend, skimBlockSend, hgo, hfull, hnone', Bool.false_eq_true, if_false, if_true]
    · have hfull : (s.skim g.val).blocked = true := blocked_eq_true hover
      have hsome' : (s.skim g.val).holding.isSome = true := hsome
      simp only [exec, execSkimBlockSend, skimBlockSend, hgo, hfull, hsome', Bool.false_eq_true, if_false, if_true]
  case slot =>
    intro s g p c r k hlag hrun hslot hseq hmember howed hmore
    obtain ⟨hexec, hpart, hskim⟩ := exec_slotCredit hlag hrun hslot hseq hmember howed hmore
    refine ⟨_, hexec, rfl, by rw [hskim], hpart, fun hk => ?_⟩
    rw [hskim]
    exact if_neg (Nat.not_le.2 hk)
  case hold =>
    intro s g u hhold
    refine ⟨fun hearly => ?_, fun hlate => ?_⟩
    · simp only [exec, execSkimHoldExpiry, hhold]
      exact congrArg _ (if_neg (Nat.not_le.2 hearly))
    · have hexec : exec (.skimHoldExpiry g) s = .next ((s.holdExpiry g.val).updSkim g.val (fun x =>
          { x with holding := if x.blocked then x.holding else none })) := by
        simp only [exec, execSkimHoldExpiry, hhold]
        exact congrArg _ (if_pos hlate)
      refine ⟨_, hexec, still_of_view (view_execSkimHoldExpiry _ _ hexec), fun l k hlag => ?_, fun l k m j c r hlag hne hk hj hnew hrun => ?_⟩
      · rw [holdExpiry_single hlag, updSkim_skim_same]
        refine ⟨hlag, ?_⟩
        simp only [blocked_single _ l k hlag, hhold, decide_eq_true_eq]
        by_cases hk : k < 16
        · rw [if_neg (Nat.not_le.2 hk), if_pos hk]
        · rw [if_pos (Nat.not_lt.1 hk), if_neg hk]
      · have htwo : tabGet (s.skim g.val).lag l = some k := by simp [hlag, tabGet]
        have hrest : tabErase (s.skim g.val).lag l = [(m, j)] := by simp [hlag, tabErase, hne.symm]
        obtain ⟨hlag', hcount⟩ := detach_skim r.shape htwo (by simp [hrest])
        rw [holdExpiry_pair hlag hne hk hj hnew hrun, updSkim_skim_same]
        rw [hrest] at hlag'
        refine ⟨hlag', ?_, hcount⟩
        simp only [blocked_single _ m j hlag', decide_eq_true_eq]
        exact if_neg (Nat.not_le.2 hj)

end Sys2Proof.Proofs
end

section
/-! PROOFS. Bridges that retry, give up and train again (10 R212, R222, R224, R225, R232). -/

namespace Sys2Proof.Proofs
open Sys2Proof Sys2Proof.Machine Sys2Proof.Safety Sys2Proof.Laws

-- What a reassessment leaves alone (16 R340, R358, R360) --------------------------------------------------------------

/-- Only clock steps and LDOs of the partitions, the power controller's own state and what events change differ. -/
def PowerOnly (s t : State) : Prop :=
  t = { s with parts := t.parts, pwr := t.pwr, insts := t.insts, link := t.link, mgc := t.mgc }
  ∧ SameInsts s t ∧ SameLink s.link t.link ∧ SameMgc s.mgc t.mgc

theorem PowerOnly.refl (s : State) : PowerOnly s s := ⟨rfl, .refl s, .refl _, .refl _⟩

theorem SameMgc.trans {a b c : Mgc} (h : SameMgc a b) (k : SameMgc b c) : SameMgc a c := by
  unfold SameMgc at *
  rw [k, h]

theorem PowerOnly.trans {a b c : State} (h : PowerOnly a b) (k : PowerOnly b c) : PowerOnly a c := by
  obtain ⟨heq, hinst, hlink, hmgc⟩ := h
  obtain ⟨keq, kinst, klink, kmgc⟩ := k
  refine ⟨?_, hinst.trans kinst, hlink.trans klink, SameMgc.trans hmgc kmgc⟩
  rw [keq, heq]

theorem PowerOnly.net {s t : State} (h : PowerOnly s t) : t.net = s.net := by rw [h.1]

theorem powerOnly_foldl {α : Type} (g : State → α → State) (hg : ∀ t x, PowerOnly t (g t x)) (l : List α) (s : State) :
    PowerOnly s (l.foldl g s) := by
  induction l generalizing s with
  | nil => exact .refl s
  | cons x l ih => exact (hg s x).trans (ih _)

theorem powerOnly_updPart (s : State) (p : Nat) (f : Part → Part) : PowerOnly s (s.updPart p f) :=
  ⟨rfl, ⟨fun _ => rfl⟩, .refl _, .refl _⟩

theorem powerOnly_event (s : State) (code subject : Nat) (a b : Bool) (payload : List Byte) :
    PowerOnly s (s.event code subject a b payload) :=
  ⟨by apply state_ext <;> simp, event_insts .., event_link .., event_mgc ..⟩

theorem powerOnly_pwr (s : State) (w : Power) : PowerOnly s { s with pwr := w } := ⟨rfl, ⟨fun _ => rfl⟩, .refl _, .refl _⟩

theorem powerOnly_orderStep (s : State) (p k : Nat) : PowerOnly s (s.orderStep p k) := by
  unfold State.orderStep
  dsimp only
  split
  · exact powerOnly_updPart ..
  · split
    · exact powerOnly_updPart ..
    · split <;> exact powerOnly_updPart ..

theorem powerOnly_powerEvent (s : State) (code subject : Nat) (head : List Byte) (supp : Bool) :
    PowerOnly s (s.powerEvent code subject head supp) := by
  unfold State.powerEvent
  extract_lets k late n
  split
  · exact (powerOnly_pwr s _).trans (powerOnly_event ..)
  · exact powerOnly_pwr s _

theorem powerOnly_reassess (s : State) : PowerOnly s s.reassess := by
  unfold State.reassess
  extract_lets js jobsOrdered e capped unmet decided
  have hjobs : PowerOnly s jobsOrdered :=
    powerOnly_foldl _ (fun t j => powerOnly_foldl _ (fun u q => powerOnly_orderStep u q _) _ t) js s
  have hcapped : PowerOnly jobsOrdered capped := by
    dsimp only [capped]
    split
    · exact .refl _
    · refine powerOnly_foldl _ (fun t p => ?_) _ _
      split
      · exact powerOnly_orderStep t p e
      · exact .refl t
  refine (hjobs.trans hcapped).trans ?_
  split
  · exact (powerOnly_pwr _ _).trans (powerOnly_powerEvent ..)
  · exact powerOnly_pwr ..

-- A lost partition (02 R52, 10 R225) ----------------------------------------------------------------------------------

theorem haltParts_part (s : State) (ps : List Nat) (q : Nat) :
    (s.haltParts ps).part q = s.part q
    ∨ (s.haltParts ps).part q = { s.part q with grant := none, tileRunning := false } := by
  unfold State.haltParts
  induction ps generalizing s with
  | nil => exact .inl rfl
  | cons p ps ih =>
    rw [List.foldl_cons]
    by_cases h : q = p
    · subst h
      rcases ih (s.updPart q (fun x => { x with grant := none, tileRunning := false })) with hq | hq <;>
      (rw [hq, updPart_part_same]; exact .inr rfl)
    · rcases ih (s.updPart p (fun x => { x with grant := none, tileRunning := false })) with hq | hq <;>
      rw [hq, updPart_part_other s _ h]
      · exact .inl rfl
      · exact .inr rfl

theorem haltParts_frame (s : State) (ps : List Nat) : s.haltParts ps = { s with parts := (s.haltParts ps).parts } := by
  unfold State.haltParts
  induction ps generalizing s with
  | nil => rfl
  | cons p ps ih =>
    rw [List.foldl_cons, ih (s.updPart p _)]
    rfl

theorem sameInsts_of_insts {s u t : State} (k : SameInsts u t) (h : u.insts = s.insts) : SameInsts s t := ⟨fun n => by
  have hn := k.eq n
  rwa [show u.inst n = s.inst n by simp only [State.inst, h]] at hn⟩

/-- A group dissolves without touching its members. -/
theorem dissolve_frame (s : State) (p : Nat) : (s.dissolve p).parts = s.parts ∧ (s.dissolve p).net = s.net
    ∧ SameInsts s (s.dissolve p) := by
  unfold State.dissolve
  dsimp only
  split
  · exact ⟨rfl, rfl, .refl s⟩
  · exact ⟨by simp, by simp, sameInsts_of_insts (event_insts ..) rfl⟩

/-- The report of a lost partition: its group's members stop; nothing else of a partition changes, and of a group without a
launch nothing at all. -/
theorem lossReported_frame (s : State) (p : Nat) : (s.lossReported p).net = s.net ∧ SameInsts s (s.lossReported p)
    ∧ (∀ q, (s.lossReported p).part q = s.part q
      ∨ (s.lossReported p).part q = { s.part q with grant := none, tileRunning := false })
    ∧ ((s.part p).run = none → (s.lossReported p).parts = s.parts) := by
  unfold State.lossReported
  have hnone (h : (s.part p).run = none) : s.lostWith p = [] := by simp [State.lostWith, State.runOf, h]
  generalize s.lostWith p = rs at *
  obtain ⟨hparts, hnet, hinsts⟩ := dissolve_frame (s.haltParts (rs.flatMap (fun r => groupParts r.shape r.leader))) p
  have hhalt := haltParts_frame s (rs.flatMap (fun r => groupParts r.shape r.leader))
  refine ⟨hnet.trans (by rw [hhalt]), ⟨fun n => (hinsts.eq n).trans ?_⟩, fun q => ?_, fun h => ?_⟩
  · have hsame : (s.haltParts (rs.flatMap (fun r => groupParts r.shape r.leader))).inst n = s.inst n := by rw [hhalt]; rfl
    rw [hsame]
  · have hq : ((s.haltParts (rs.flatMap (fun r => groupParts r.shape r.leader))).dissolve p).part q
        = (s.haltParts (rs.flatMap (fun r => groupParts r.shape r.leader))).part q := by simp only [State.part, hparts]
    rw [hq]
    exact haltParts_part s _ q
  · rw [hparts, hnone h]
    rfl

/-- A partition whose bridge gave up: offline with cause 0, its interval running, what it held kept. -/
theorem partFatal_part (s : State) (p : Nat) : (s.partFatal p).net = s.net ∧ SameInsts s (s.partFatal p)
    ∧ ((s.partFatal p).part p).state = .offline ∧ ((s.partFatal p).part p).mcCause = 0
    ∧ ((s.partFatal p).part p).faultPending = true
    ∧ ((s.partFatal p).part p).fatalUntil = some (s.now + s.fatalInterval)
    ∧ ((s.partFatal p).part p).run = (s.part p).run
    ∧ ((s.part p).run = none → ∀ q, q ≠ p → Stepped (s.part q) ((s.partFatal p).part q)) := by
  unfold State.partFatal
  dsimp only
  generalize hf : (fun x : Part => { x with
    state := .offline, mcCause := 0, grant := none, tileRunning := false, residency := none,
    faultPending := true, fatalUntil := some (s.now + s.fatalInterval) }) = f
  have hp : (s.updPart p f).part p = f (s.part p) := updPart_part_same ..
  have hother (q : Nat) (hq : q ≠ p) : (s.updPart p f).part q = s.part q := updPart_part_other s _ hq
  obtain ⟨hnet, hinsts, hparts, hsame⟩ := lossReported_frame (s.updPart p f) p
  generalize (s.updPart p f).lossReported p = u at *
  have hstep := reassess_partsStepped (alerted s u)
  have honly := powerOnly_reassess (alerted s u)
  have halert (q : Nat) : (alerted s u).part q = u.part q := alerted_part s u q
  have hmine := hstep p
  rw [halert p] at hmine
  generalize (alerted s u).reassess = t at *
  have hrun : ((s.updPart p f).part p).run = (s.part p).run := by rw [hp, ← hf]
  have hu : u.part p = f (s.part p) := by
    rcases hparts p with h | h <;> (rw [h, hp, ← hf])
  rw [hu] at hmine
  subst hf
  refine ⟨?_, ?_, ?_, ?_, ?_, ?_, ?_, fun hidle q hq => ?_⟩
  · rw [honly.net, alerted_eq]
    exact hnet
  · have halerted : SameInsts u (alerted s u) := ⟨fun n => by rw [alerted_eq]; rfl⟩
    exact sameInsts_of_insts ((hinsts.trans halerted).trans honly.2.1) rfl
  · rw [hmine]
  · rw [hmine]
  · rw [hmine]
  · rw [hmine]
  · rw [hmine]
  · have hq' : u.part q = s.part q := by
      rw [← hother q hq]
      simp only [State.part, hsame (hrun.trans hidle)]
    have := hstep q
    rwa [halert, hq'] at this


-- A bridge gives up (10 R224, R225) -----------------------------------------------------------------------------------

/-- The bridge FATAL, its node dropped from the generation updates under way, and the event told. -/
def bridgeDown (s : State) (b : Nat) : State :=
  let s0 := s.updBridge b (fun x => { x with fatal := true, replays := 0, refusedAt := none })
  ({ s0 with insts := tabMap s0.insts (fun _ i => { i with genWait := i.genWait.filter (· != if b < 16 then b else b + 4) }) } :
    State).event Ev.linkFatal 0 false true (leBytes 1 b)

theorem giveUp_eq (s : State) (b : Nat) : s.giveUp b =
    if b < 16 then (bridgeDown s b).partFatal b else if b = 16 then (bridgeDown s b).actSource 14 3 else bridgeDown s b := rfl

theorem updBridge_bridge_same (s : State) (b : Nat) (f : Bridge → Bridge) : (s.updBridge b f).bridge b = f (s.bridge b) :=
  tabGetD_set_same ..

theorem updBridge_bridge_other (s : State) {b j : Nat} (f : Bridge → Bridge) (h : j ≠ b) :
    (s.updBridge b f).bridge j = s.bridge j := tabGetD_set_other _ _ _ h

theorem tabGet_map {α : Type} (t : Tab α) (f : Nat → α → α) (k : Nat) : tabGet (tabMap t f) k = (tabGet t k).map (f k) := by
  induction t with
  | nil => rfl
  | cons e t ih =>
    simp only [tabMap, List.map_cons, tabGet]
    split
    next h => subst h; rfl
    next h => exact ih

theorem inst_of_tabMap {s : State} {f : Inst → Inst} (hf : f {} = {}) (n : Nat) :
    tabGetD (tabMap s.insts (fun _ i => f i)) n {} = f (s.inst n) := by
  unfold State.inst tabGetD
  rw [tabGet_map]
  cases tabGet s.insts n with
  | none => exact hf.symm
  | some i => rfl

theorem bridgeDown_frame (s : State) (b : Nat) : ((bridgeDown s b).bridge b).fatal = true ∧ (bridgeDown s b).parts = s.parts
    ∧ (bridgeDown s b).rst = s.rst ∧ SameMgc s.mgc (bridgeDown s b).mgc
    ∧ (bridgeDown s b).net.tmoPriv = s.net.tmoPriv ∧ (bridgeDown s b).net.tmoHost = s.net.tmoHost
    ∧ ∀ n, (if b < 16 then b else b + 4) ∉ ((bridgeDown s b).inst n).genWait := by
  unfold bridgeDown
  dsimp only
  refine ⟨?_, by simp, by simp, event_mgc .., by simp [State.updBridge], by simp [State.updBridge], fun n => ?_⟩
  · unfold State.bridge
    rw [event_net]
    exact congrArg Bridge.fatal (updBridge_bridge_same s b (fun x => { x with fatal := true, replays := 0, refusedAt := none }))
  · rw [(event_insts ..).eq n]
    have hmap := inst_of_tabMap (s := s) (f := fun i => { i with genWait := i.genWait.filter (· != if b < 16 then b else b + 4) }) rfl n
    have hwait := congrArg Inst.genWait hmap
    intro hmem
    exact absurd (hwait ▸ hmem) (by simp)

theorem view_bridgeDown (s : State) (b : Nat) : view (bridgeDown s b) = view s := by
  unfold bridgeDown
  dsimp only
  rw [view_State_event]
  rfl

-- The core restarted (10 R225, 15 R313) -------------------------------------------------------------------------------

theorem tabGetD_foldl_set {α : Type} (key : Nat → Nat) (hkey : ∀ a b, key a = key b → a = b) (f : Nat → α) (d : α) (l : List Nat)
    (t : Tab α) (n : Nat) : tabGetD (l.foldl (fun g k => tabSet g (key k) (f k)) t) (key n) d
      = if n ∈ l then f n else tabGetD t (key n) d := by
  induction l generalizing t with
  | nil => rfl
  | cons k l ih =>
    rw [List.foldl_cons, ih]
    by_cases hn : n ∈ l
    · simp [hn]
    · by_cases hk : n = k
      · subst hk
        simp [hn]
      · have hne : key n ≠ key k := fun h => hk (hkey _ _ h)
        simp [hn, hk, tabGetD_set_other _ _ _ hne]

/-- A node's generation table filled again with the instances' generations. -/
theorem refillGens_nodeGen (s : State) {node n : Nat} (hn : n < 33) (hnode : node ≠ 19) :
    (s.refillGens node).nodeGen node n = (s.inst n).gen := by
  refine (if_neg hnode).trans ?_
  unfold State.refillGens
  dsimp only
  rw [tabGetD_foldl_set (fun k => node * 64 + k) (fun a b h => by omega) (fun k => (s.inst k).gen), if_pos (List.mem_range.2 hn)]

theorem stageDone_frame (s : State) (stage : Nat) (result : Abort) :
    (s.stageDone stage result).net = s.net ∧ SameMgc s.mgc (s.stageDone stage result).mgc := by
  unfold State.stageDone
  dsimp only
  split
  · exact ⟨event_net .., event_mgc ..⟩
  · exact ⟨event_net .., event_mgc ..⟩

theorem stopVerify_frame (s : State) : s.stopVerify.net = s.net ∧ SameMgc s.mgc s.stopVerify.mgc := by
  unfold State.stopVerify
  split
  · exact ⟨rfl, rfl⟩
  · split
    · obtain ⟨hnet, hmgc⟩ := stageDone_frame { s.useFree with keep := { s.keep with
        ops := s.keep.ops.filter (fun o => o.code != 2) } } 2 0x05000002
      exact ⟨hnet, hmgc⟩
    · exact ⟨rfl, rfl⟩

/-- The core's own record of a restart. -/
def coreCounted (s : State) (cause : Nat) : State :=
  (({ s with mgc := { s.mgc with
    fw := fwStopped s.mgc.started s.mgc.fw, lastCause := BitVec.ofNat 4 cause, restarts := satInc s.mgc.restarts,
    restartsSinceAttach := satInc s.mgc.restartsSinceAttach, restartAt := s.now,
    restartTimes := s.mgc.restartTimes.filter (fun t => decide (s.now ≤ t + 1000000000)) ++ [s.now] } } : State).countReset 6).countReset 4

/-- The bridge of the MGC complex trained again where it had given up. -/
def coreLinked (s : State) : State :=
  if (s.bridge 16).fatal then (s.updBridge 16 (fun b => { b with fatal := false })).refillGens nMgc else s

theorem restartCore_eq (s : State) (cause : Nat) :
    s.restartCore cause = alerted s ((coreLinked (coreCounted s cause)).latchAlert alertRestarted).stopVerify := rfl

theorem refillGens_frame (s : State) (node : Nat) :
    ∃ gens, s.refillGens node = { s with net := { s.net with gens := gens } } := ⟨_, rfl⟩

theorem coreLinked_frame (s : State) : (coreLinked s).mgc = s.mgc ∧ ((coreLinked s).bridge 16).fatal = false := by
  unfold coreLinked
  split
  next =>
    obtain ⟨gens, hgens⟩ := refillGens_frame (s.updBridge 16 (fun b => { b with fatal := false })) nMgc
    rw [hgens]
    exact ⟨rfl, congrArg Bridge.fatal (updBridge_bridge_same s 16 (fun b => { b with fatal := false }))⟩
  next h => exact ⟨rfl, Bool.eq_false_iff.2 h⟩

/-- A restart of a running core: FW_STATE, LAST_CAUSE and RESTARTS, with the bridge of its complex trained again. -/
theorem restartCore_frame {s : State} (hrun : s.mgc.fw = .running) (cause : Nat) :
    (s.restartCore cause).mgc.fw = .restarting ∧ (s.restartCore cause).mgc.lastCause = BitVec.ofNat 4 cause
    ∧ (s.restartCore cause).mgc.restarts = satInc s.mgc.restarts ∧ ((s.restartCore cause).bridge 16).fatal = false := by
  obtain ⟨hmgc, hbridge⟩ := coreLinked_frame (coreCounted s cause)
  obtain ⟨hnet, hsame⟩ := stopVerify_frame ((coreLinked (coreCounted s cause)).latchAlert alertRestarted)
  have hfw : (coreCounted s cause).mgc.fw = .restarting := by
    unfold coreCounted State.countReset
    dsimp only
    rw [hrun]
    rfl
  rw [restartCore_eq, alerted_eq]
  dsimp only [State.bridge]
  rw [hnet, hsame]
  dsimp only [State.latchAlert]
  rw [hmgc]
  exact ⟨hfw, rfl, rfl, hbridge⟩

-- O20 -----------------------------------------------------------------------------------------------------------------

theorem exec_linkFatal {s : State} {b : Fin 18} (h : (s.bridge b.val).fatal = false) :
    exec (.linkFatal b) s = .next (s.giveUp b.val) := by
  simp only [exec, execLinkFatal, h, Bool.false_eq_true, if_false]

/-- Where a flit refused again has been sent 4 times, or 2 µs have passed, the bridge gives up. -/
theorem nakSpent_iff (again : Bool) (x : Bridge) (now : Nat) :
    (again && (decide (4 ≤ x.replays) || (x.refusedAt.any fun t => decide (t + 2000 ≤ now)))) = true
      ↔ again = true ∧ (4 ≤ x.replays ∨ ∃ u, x.refusedAt = some u ∧ u + 2000 ≤ now) := by
  rw [Bool.and_eq_true, Bool.or_eq_true, decide_eq_true_eq, Option.any_eq_true]
  simp only [decide_eq_true_eq]

theorem exec_bridgeNak_spent {s : State} {b : Fin 18} {again : Bool} (hup : (s.bridge b.val).fatal = false)
    (h : (again && (decide (4 ≤ (s.bridge b.val).replays)
      || ((s.bridge b.val).refusedAt.any fun t => decide (t + 2000 ≤ s.now)))) = true) :
    exec (.bridgeNak b again) s
      = .next ((s.updBridge b.val (fun x => { x with crcErr := satInc x.crcErr })).giveUp b.val) := by
  simp only [exec, execBridgeNak, hup, Bool.false_eq_true, if_false]
  cases hrefused : (s.bridge b.val).refusedAt with
  | none =>
    rw [hrefused] at h
    exact congrArg _ (if_pos h)
  | some u =>
    rw [hrefused] at h
    exact congrArg _ (if_pos h)

/-- A refused flit that is sent again: counted, with the time of its first refusal kept. -/
def nakCounted (s : State) (b : Nat) (again : Bool) : State :=
  (s.updBridge b (fun x => { x with crcErr := satInc x.crcErr })).updBridge b (fun x =>
    { x with replays := if again then x.replays + 1 else 1
             refusedAt := if again then x.refusedAt.orElse (fun _ => some s.now) else some s.now })

theorem nakCounted_frame (s : State) (b : Nat) (again : Bool) :
    nakCounted s b again = { s with net := { s.net with bridges := (nakCounted s b again).net.bridges } }
    ∧ (nakCounted s b again).bridge b = { s.bridge b with
        crcErr := satInc (s.bridge b).crcErr, replays := if again then (s.bridge b).replays + 1 else 1
        refusedAt := if again then some ((s.bridge b).refusedAt.getD s.now) else some s.now }
    ∧ ∀ j, j ≠ b → (nakCounted s b again).bridge j = s.bridge j := by
  have horElse (o : Option Nat) (t : Nat) : o.orElse (fun _ => some t) = some (o.getD t) := by cases o <;> rfl
  refine ⟨rfl, ?_, fun j hj => (updBridge_bridge_other _ _ hj).trans (updBridge_bridge_other _ _ hj)⟩
  unfold nakCounted
  simp only [updBridge_bridge_same, horElse]

theorem exec_bridgeNak_again {s : State} {b : Fin 18} {again : Bool} (hup : (s.bridge b.val).fatal = false)
    (h : (again && (decide (4 ≤ (s.bridge b.val).replays)
      || ((s.bridge b.val).refusedAt.any fun t => decide (t + 2000 ≤ s.now)))) = false) :
    exec (.bridgeNak b again) s = .next { nakCounted s b.val again with
      net := { (nakCounted s b.val again).net with retry := satInc (nakCounted s b.val again).net.retry } } := by
  simp only [exec, execBridgeNak, hup, Bool.false_eq_true, if_false]
  cases hrefused : (s.bridge b.val).refusedAt with
  | none =>
    rw [hrefused] at h
    exact congrArg _ (if_neg (Bool.eq_false_iff.1 h))
  | some u =>
    rw [hrefused] at h
    exact congrArg _ (if_neg (Bool.eq_false_iff.1 h))

/-- Settles O20: a bridge's refusals, what its giving up does on each of the three links, and how it comes back. -/
theorem bridgesRetryGiveUpAndTrainAgain : Obligations.BridgesRetryGiveUpAndTrainAgain := by
  refine ⟨?nak, ?fatal, ?part, ?core, ?io, ?interval, ?trained, ?reserved⟩
  case nak =>
    intro s b again hup x spent
    have hcounted : ((s.updBridge b.val (fun x => { x with crcErr := satInc x.crcErr })).bridge b.val).fatal = false := by
      rw [updBridge_bridge_same]
      exact hup
    have hdecide := nakSpent_iff again (s.bridge b.val) s.now
    refine ⟨fun hno => ?_, fun hspent => ?_⟩
    · have hexec := exec_bridgeNak_again hup (Bool.eq_false_iff.2 fun h => hno (hdecide.1 h))
      obtain ⟨hframe, hmine, hother⟩ := nakCounted_frame s b.val again
      generalize nakCounted s b.val again = u at *
      refine ⟨_, hexec, ?_, hmine, hother⟩
      rw [hframe]
    · rw [exec_linkFatal hcounted]
      exact exec_bridgeNak_spent hup (hdecide.2 hspent)
  case fatal =>
    intro s b again hfatal
    refine ⟨?_, ?_⟩
    · simp only [exec, execBridgeNak, hfatal, if_true]
    · simp only [exec, execLinkFatal, hfatal, if_true]
  case part =>
    intro s b hup hb
    have hexec := exec_linkFatal hup
    rw [giveUp_eq, if_pos hb] at hexec
    obtain ⟨hfatal, hparts, _, _, hpriv, hhost, hwait⟩ := bridgeDown_frame s b.val
    obtain ⟨hnet, hinsts, hstate, hcause, hpending, huntil, hrun, hother⟩ := partFatal_part (bridgeDown s b.val) b.val
    have hstill : Still s ((bridgeDown s b.val).partFatal b.val) := still_of_view (by simp [view_bridgeDown])
    have hpart (q : Nat) : (bridgeDown s b.val).part q = s.part q := by simp only [State.part, hparts]
    have hnow : (bridgeDown s b.val).now = s.now := by
      unfold State.now bridgeDown
      dsimp only
      rw [event_clk]
      rfl
    refine ⟨_, hexec, hstill, ?_, hstate, hcause, hpending, ?_, ?_, fun n => ?_, fun hidle q hq => ?_⟩
    · unfold State.bridge
      rw [hnet]
      exact hfatal
    · rw [huntil, hnow, State.fatalInterval, hpriv, hhost]
    · rw [hrun, hpart]
    · rw [hinsts.eq n]
      have := hwait n
      rwa [if_pos hb] at this
    · have := hother (by rw [hpart]; exact hidle) q hq
      rwa [hpart] at this
  case core =>
    intro s b hup hb hphase hlevel hfw
    have hexec := exec_linkFatal hup
    rw [giveUp_eq, hb, if_neg (by decide), if_pos rfl] at hexec
    obtain ⟨_, _, hrst, hmgc, _⟩ := bridgeDown_frame s 16
    have hact : (bridgeDown s 16).actSource 14 3 = (bridgeDown s 16).restartCore 3 := by
      have hlevel' : (bridgeDown s 16).levelOf 14 = 4 := by
        unfold State.levelOf at hlevel ⊢
        rw [hrst]
        exact hlevel
      have hwide : (bridgeDown s 16).wideRuns = false := by simp [State.wideRuns, hrst, hphase]
      have hl2 : (bridgeDown s 16).l2Runs = false := by simp [State.l2Runs, hrst, hphase]
      simp only [State.actSource, hlevel', hwide, hl2, Bool.false_eq_true, if_false, if_true]
    rw [hact] at hexec
    have hrun : (bridgeDown s 16).mgc.fw = .running := (congrArg Mgc.fw hmgc).trans hfw
    obtain ⟨hfw', hcause, hcount, hlinked⟩ := restartCore_frame hrun 3
    refine ⟨_, hexec, still_of_view (by simp [view_bridgeDown]), hlinked, hfw', hcause, hcount.trans ?_⟩
    rw [show (bridgeDown s 16).mgc.restarts = s.mgc.restarts from by rw [hmgc]]
  case io =>
    intro s b hup hb
    have hexec := exec_linkFatal hup
    rw [giveUp_eq, hb, if_neg (by decide), if_neg (by decide)] at hexec
    obtain ⟨hfatal, hparts, hrst, _, _, _, hwait⟩ := bridgeDown_frame s 17
    exact ⟨_, hexec, still_of_view (view_bridgeDown s 17), hfatal, hparts, hrst, hwait⟩
  case interval =>
    intro s p u huntil hruns
    refine ⟨fun hnot => ?_, fun hpast hready => ?_⟩
    · have hgo : (s.fepRuns && decide (u ≤ s.now) && s.lossReady p.val true) = false := by
        rw [hruns, Bool.true_and, Bool.and_eq_false_iff, decide_eq_false_iff_not]
        exact hnot.imp_left Nat.not_le.2
      simp only [exec, execLinkFatalIntervalEnd, huntil, hgo, Bool.false_eq_true, if_false]
    · have hgo : (s.fepRuns && decide (u ≤ s.now) && s.lossReady p.val true) = true := by
        rw [hruns, hready, decide_eq_true hpast]
        rfl
      have hexec : exec (.linkFatalIntervalEnd p) s
          = .next ((s.updPart p.val (fun x => { x with fatalUntil := none })).memberLost p.val 0x10 St.linkFatal) := by
        simp only [exec, execLinkFatalIntervalEnd, huntil, hgo, if_true]
      exact ⟨_, hexec, still_of_view (view_execLinkFatalIntervalEnd _ _ hexec), rfl⟩
  case trained =>
    intro s hfatal
    have hexec : exec .bridgeRetrained s
        = .next ((s.updBridge 17 (fun b => { b with fatal := false })).refillGens 21) := by
      simp only [exec, execBridgeRetrained, hfatal, if_true]
    have hgens (n : Nat) (hn : n < 33) : ((s.updBridge 17 (fun b => { b with fatal := false })).refillGens 21).nodeGen 21 n
        = (s.inst n).gen := refillGens_nodeGen _ hn (by decide)
    obtain ⟨gens, heq⟩ := refillGens_frame (s.updBridge 17 (fun b => { b with fatal := false })) 21
    rw [heq] at hexec hgens
    refine ⟨_, hexec, rfl, ?_, fun b hb => updBridge_bridge_other s (fun b => { b with fatal := false }) hb, hgens⟩
    exact congrArg Bridge.fatal (updBridge_bridge_same s 17 (fun b => { b with fatal := false }))
  case reserved =>
    intro s p
    refine ⟨fun hno => ?_, fun hdef => ?_⟩
    · simp only [exec, execReservedTypePacket, hno, Bool.false_eq_true, if_false]
      rfl
    · simp only [exec, execReservedTypePacket, hdef, if_true]

end Sys2Proof.Proofs
end

section
/-! PROOFS. The queues' own steps (06 R121, R132, R134): settling what is refused at READ, and the guilty point. -/

namespace Sys2Proof.Proofs
open Sys2Proof Sys2Proof.Machine Sys2Proof.Safety Sys2Proof.Laws

-- Commands by their key -----------------------------------------------------------------------------------------------

theorem cmdKey_inj {slot a b : Nat} : cmdKey slot a = cmdKey slot b ↔ a = b := by
  unfold cmdKey
  omega

/-- A command set under its own key is found there, and every other of its slot as before. -/
theorem setCmd_cmd (s : State) {c : Cmd} {slot k : Nat} (hslot : c.slot = slot) (hseq : c.seq = k) (j : Nat) :
    (s.setCmd c).cmd slot j = if j = k then some c else s.cmd slot j := by
  subst hslot hseq
  split
  next h => rw [h]; exact setCmd_cmd_same s c
  next h => exact tabGet_set_other _ _ fun hk => h (cmdKey_inj.1 hk)

-- Refused commands at READ (06 R121, R132) ----------------------------------------------------------------------------

/-- Only READ, the stamps that it passes, the guilty point's own pass and what a write-back shows differ. -/
def Passed (q u : Queue) : Prop :=
  u = { q with read := u.read, stamps := u.stamps, guiltPass := u.guiltPass, wbPending := u.wbPending }

theorem Passed.refl (q : Queue) : Passed q q := rfl

theorem Passed.trans {a b c : Queue} (h : Passed a b) (k : Passed b c) : Passed a c := by
  unfold Passed at *
  rw [k, h]

theorem passed_passEntries (q : Queue) (k : Nat) : Passed q (q.passEntries k) := rfl

/-- What settling the refused commands of a slot changes: its queue's READ, and the reservations of its commands. -/
structure Settled (slot : Nat) (s t : State) : Prop where
  only : t = { s with queues := t.queues, cmds := t.cmds }
  queue : ∀ q, s.queue slot = some q → ∃ u, t.queue slot = some u ∧ Passed q u
  others : ∀ j, j ≠ slot → t.queue j = s.queue j
  cmds : Filed s slot → Filed t slot ∧ ∀ k x, s.cmd slot k = some x → ∃ r, t.cmd slot k = some { x with resv := r }
    ∧ (x.accepted = true → r = x.resv)

theorem Settled.refl (slot : Nat) (s : State) : Settled slot s s :=
  ⟨rfl, fun q hq => ⟨q, hq, rfl⟩, fun _ _ => rfl, fun h => ⟨h, fun _ x hx => ⟨x.resv, hx, fun _ => rfl⟩⟩⟩

theorem Settled.trans {slot : Nat} {a b c : State} (h : Settled slot a b) (k : Settled slot b c) : Settled slot a c := by
  refine ⟨by rw [k.only, h.only], fun q hq => ?_, fun j hj => (k.others j hj).trans (h.others j hj), fun hf => ?_⟩
  · obtain ⟨u, hu, hp⟩ := h.queue q hq
    obtain ⟨w, hw, hp'⟩ := k.queue u hu
    exact ⟨w, hw, hp.trans hp'⟩
  · obtain ⟨hfb, hb⟩ := h.cmds hf
    obtain ⟨hfc, hc⟩ := k.cmds hfb
    refine ⟨hfc, fun n x hx => ?_⟩
    obtain ⟨r, hr, hsame⟩ := hb n x hx
    obtain ⟨r', hr', hsame'⟩ := hc n { x with resv := r } hr
    exact ⟨r', hr', fun hacc => (hsame' hacc).trans (hsame hacc)⟩

theorem settled_updQueue (s : State) (slot : Nat) {f : Queue → Queue} (hf : ∀ q, Passed q (f q)) :
    Settled slot s (s.updQueue slot f) :=
  ⟨rfl, fun q hq => ⟨f q, by rw [updQueue_queue_same, hq]; rfl, hf q⟩, fun j hj => updQueue_queue_other _ _ hj,
    fun h => ⟨h, fun _ x hx => ⟨x.resv, hx, fun _ => rfl⟩⟩⟩

theorem settled_reserve {s : State} {slot k : Nat} {c : Cmd} (hc : s.cmd slot k = some c) (r : Nat)
    (hnew : c.accepted = false) (hslot : c.slot = slot) : Settled slot s (s.setCmd { c with resv := r }) := by
  refine ⟨rfl, fun q hq => ⟨q, hq, rfl⟩, fun _ _ => rfl, fun hf => ?_⟩
  obtain ⟨_, hseq⟩ := hf k c hc
  have hat' (j : Nat) : (s.setCmd { c with resv := r }).cmd slot j = if j = k then some { c with resv := r } else s.cmd slot j :=
    setCmd_cmd s (c := { c with resv := r }) hslot hseq j
  refine ⟨fun j x hx => ?_, fun j x hx => ?_⟩
  · rw [hat' j] at hx
    split at hx
    next h =>
      cases hx
      exact ⟨hslot, hseq.trans h.symm⟩
    · exact hf j x hx
  · rw [hat' j]
    split
    next h =>
      rw [h, hc] at hx
      cases hx
      exact ⟨r, rfl, fun hacc => by rw [hnew] at hacc; cases hacc⟩
    · exact ⟨x.resv, hx, fun _ => rfl⟩

theorem settled_settleOne {s t : State} {slot : Nat} (hf : ∀ k x, s.cmd slot k = some x → x.slot = slot)
    (h : s.settleOne slot = some t) : Settled slot s t := by
  unfold State.settleOne at h
  split at h
  · cases h
  · split at h
    · cases h
      exact settled_updQueue s slot fun _ => rfl
    · split at h
      · cases h
      next c hc =>
        split at h
        next hgo =>
          simp only [Bool.and_eq_true, Bool.not_eq_true'] at hgo
          obtain ⟨⟨⟨⟨hnew, _⟩, _⟩, _⟩, _⟩ := hgo
          cases h
          exact (settled_reserve hc 1 hnew (hf _ _ hc)).trans (settled_updQueue _ slot fun q => passed_passEntries q c.entries)
        · cases h

theorem settled_settle {s : State} {slot : Nat} (hf : Filed s slot) (fuel : Nat) : Settled slot s (s.settle slot fuel) := by
  induction fuel generalizing s with
  | zero => exact .refl slot s
  | succ fuel ih =>
    unfold State.settle
    split
    next => exact .refl slot s
    next t hone =>
      have hstep := settled_settleOne (fun k x hx => (hf k x hx).1) hone
      exact hstep.trans (ih (hstep.cmds hf).1)

theorem settle_of_none {s : State} {slot : Nat} (h : s.settleOne slot = none) (fuel : Nat) : s.settle slot fuel = s := by
  cases fuel with
  | zero => rfl
  | succ fuel =>
    unfold State.settle
    rw [h]

theorem settled_settleRefused {s : State} {slot : Nat} (hf : Filed s slot) : Settled slot s (s.settleRefused slot) :=
  settled_settle hf _

-- The guilty point (06 R134) ------------------------------------------------------------------------------------------

theorem settleOne_passed {s t : State} {slot : Nat} {q : Queue} (h : s.settleOne slot = some t) (hq : s.queue slot = some q) :
    ∃ u, t.queue slot = some u ∧ Passed q u := by
  unfold State.settleOne at h
  rw [hq] at h
  dsimp only at h
  split at h
  · cases h
    exact ⟨{ q.passEntries q.guiltPass with guiltPass := 0 }, by rw [updQueue_queue_same, hq]; rfl, rfl⟩
  · split at h
    · cases h
    next c hc =>
      split at h
      · cases h
        exact ⟨_, by rw [updQueue_queue_same, setCmd_queue, hq]; rfl, passed_passEntries q c.entries⟩
      · cases h

theorem settle_passed {slot : Nat} {q : Queue} (fuel : Nat) {s : State} (hq : s.queue slot = some q) :
    ∃ u, (s.settle slot fuel).queue slot = some u ∧ Passed q u := by
  induction fuel generalizing s q with
  | zero => exact ⟨q, hq, rfl⟩
  | succ fuel ih =>
    unfold State.settle
    split
    next => exact ⟨q, hq, rfl⟩
    next t hone =>
      obtain ⟨u, hu, hp⟩ := settleOne_passed hone hq
      obtain ⟨w, hw, hp'⟩ := ih hu
      exact ⟨w, hw, hp.trans hp'⟩

theorem cutFrom_queue (s : State) (slot : Nat) (seq : BitVec 32) (st : Status) (k : Nat) :
    (s.cutFrom slot seq st).queue k = s.queue k := by
  have hone (t : State) (c : Cmd) : (if decide (dist (BitVec.ofNat 32 c.seq) seq ≤ 2 ^ 31) then
      if c.accepted then t.updCmd c.slot c.seq (fun x =>
        { x with cancelled := true, status := if c.seq = seq.toNat then st else x.status })
      else (t.dropCmd c.slot c.seq).dropBuild c
    else t).queues = t.queues := by
    split
    · split
      · rfl
      · rw [(droppedOnly_dropBuild _ c).1]
        rfl
    · rfl
  unfold State.cutFrom State.queue
  generalize s.slotCmds slot = l
  induction l generalizing s with
  | nil => rfl
  | cons c l ih => rw [List.foldl_cons, ih, hone]

/-- A queue without a guilty point, an abort or a reset gets its guilty point. -/
theorem makeGuilty_guilty {s : State} {slot : Nat} {q : Queue} (hq : s.queue slot = some q) (hguilty : q.guilty = none)
    (hsaid : q.guiltSaid = false) (hreset : q.resetDone = false) (habort : q.abortLatched = false) (seq : BitVec 32)
    (entries pass : Nat) (st : Status) (head : Option (Byte × BitVec 32)) :
    GuiltyAt (s.makeGuilty slot seq entries pass st head) slot seq st := by
  have hgo : (q.abortLatched || q.resetDone || q.guiltSaid) = false := by rw [habort, hreset, hsaid]; rfl
  have hmade : s.makeGuilty slot seq entries pass st head = ((s.cutFrom slot seq st).updQueue slot (fun q => { q with
        guilty := some (seq, st), guiltyHead := head, guiltRound := 1, guiltEntries := entries, guiltPass := pass, reads := 0,
        need := none })).settleRefused slot := by
    simp only [State.makeGuilty, hq, hgo, hguilty, Bool.false_eq_true, if_false]
  have hcut : ((s.cutFrom slot seq st).updQueue slot (fun q => { q with
      guilty := some (seq, st), guiltyHead := head, guiltRound := 1, guiltEntries := entries, guiltPass := pass, reads := 0,
      need := none })).queue slot = some { q with
        guilty := some (seq, st), guiltyHead := head, guiltRound := 1, guiltEntries := entries, guiltPass := pass, reads := 0,
        need := none } := by
    rw [updQueue_queue_same, cutFrom_queue, hq]
    rfl
  rw [hmade]
  obtain ⟨u, hu, hp⟩ := settle_passed _ hcut
  exact ⟨u, hu, by rw [hp], by rw [hp]⟩

end Sys2Proof.Proofs
end

section
/-! PROOFS. The fetch unit and stage 3 (06 R120, R124, R128, R134, 08 R162, R164, R166). -/

namespace Sys2Proof.Proofs
open Sys2Proof Sys2Proof.Machine Sys2Proof.Safety Sys2Proof.Laws

-- The fetch unit's read (08 R166) -------------------------------------------------------------------------------------

/-- The slot served next is one that may be served, from the pointer on where there is one. -/
theorem nextFetchSlot_spec {s : State} (h : ∃ e ∈ s.queues, s.fetchable e.1 e.2 = true) :
    ∃ k q, s.nextFetchSlot = some k ∧ (k, q) ∈ s.queues ∧ s.fetchable k q = true
      ∧ ((∃ e ∈ s.queues, s.fetchable e.1 e.2 = true ∧ s.fep.rrNext ≤ e.1) → s.fep.rrNext ≤ k) := by
  unfold State.nextFetchSlot
  dsimp only
  cases hfind : (s.queues.filter (fun e => s.fetchable e.1 e.2)).find? (fun e => decide (s.fep.rrNext ≤ e.1)) with
  | some e =>
    obtain ⟨hmem, hok⟩ := List.mem_filter.1 (List.mem_of_find?_eq_some hfind)
    exact ⟨e.1, e.2, rfl, hmem, hok, fun _ =>
      of_decide_eq_true (List.find?_some (p := fun e : Nat × Queue => decide (s.fep.rrNext ≤ e.1)) hfind)⟩
  | none =>
    obtain ⟨e, he, hok⟩ := h
    cases hlist : s.queues.filter (fun e => s.fetchable e.1 e.2) with
    | nil => exact absurd (List.mem_filter.2 ⟨he, hok⟩) (by rw [hlist]; exact List.not_mem_nil)
    | cons a t =>
      have ha : a ∈ s.queues.filter (fun e => s.fetchable e.1 e.2) := by rw [hlist]; exact List.mem_cons_self
      obtain ⟨hmem, haok⟩ := List.mem_filter.1 ha
      refine ⟨a.1, a.2, rfl, hmem, haok, fun ⟨x, hx, hxok, hxge⟩ => ?_⟩
      exact absurd (decide_eq_true hxge) (List.find?_eq_none.1 hfind x (List.mem_filter.2 ⟨hx, hxok⟩))

theorem nextFetchSlot_none {s : State} (h : ∀ e ∈ s.queues, s.fetchable e.1 e.2 = false) : s.nextFetchSlot = none := by
  have hlist : s.queues.filter (fun e => s.fetchable e.1 e.2) = [] :=
    List.filter_eq_nil_iff.2 fun e he => by rw [h e he]; exact Bool.false_ne_true
  simp only [State.nextFetchSlot, hlist, List.find?_nil, List.head?_nil, Option.map_none]

/-- The stream of a slot, reset where the read is the command's first. -/
def streamStarted (s : State) (k : Nat) : State := if ((s.queue k).map (·.reads)).getD 0 = 0 then s.resetStream k else s

theorem exec_fetchRead {s : State} {k : Nat} (hruns : s.fepRuns = true) (hnext : s.nextFetchSlot = some k) :
    exec .fetchRead s = .next { ((streamStarted s k).updQueue k (fun q => { q with reads := q.reads + 1 })).onThread 0
        (some (k, ((s.queue k).map (·.nextFetch.toNat)).getD 0)) with
      fep := { (((streamStarted s k).updQueue k (fun q => { q with reads := q.reads + 1 })).onThread 0
        (some (k, ((s.queue k).map (·.nextFetch.toNat)).getD 0))).fep with rrNext := k + 1 } } := by
  simp only [exec, execFetchRead, fetchRead, hruns, hnext, if_true]
  rfl

theorem streamStarted_frame (s : State) (k : Nat) : streamStarted s k = { s with fep := { s.fep with
      hostIn := (streamStarted s k).fep.hostIn, readErr := (streamStarted s k).fep.readErr } }
    ∧ (∀ q, s.queue k = some q → q.reads = 0 → (streamStarted s k).hostBytes k = [] ∧ (streamStarted s k).streamErr k = none)
    ∧ ∀ j, j ≠ k → (streamStarted s k).hostBytes j = s.hostBytes j ∧ (streamStarted s k).streamErr j = s.streamErr j := by
  unfold streamStarted
  split
  next =>
    refine ⟨rfl, fun q _ _ => ⟨?_, tabGet_erase_same ..⟩, fun j hj => ⟨?_, tabGet_erase_other _ hj⟩⟩
    · exact congrArg (fun o : Option (List Byte) => o.getD []) (tabGet_erase_same s.fep.hostIn k)
    · exact congrArg (fun o : Option (List Byte) => o.getD []) (tabGet_erase_other s.fep.hostIn hj)
  next h =>
    refine ⟨rfl, fun q hq hreads => ?_, fun _ _ => ⟨rfl, rfl⟩⟩
    rw [hq] at h
    exact absurd hreads h

theorem fepOut_of_fetchable {s : State} {k : Nat} {q : Queue} (h : s.fetchable k q = true) (hreads : q.reads = 0) :
    s.fepOut k = [] := by
  unfold State.fetchable at h
  rw [Bool.and_eq_true] at h
  simpa [hreads] using h.2

theorem onThread_thread (s : State) (k : Nat) (work : Option (Nat × Nat)) :
    ∃ th, tabGet (s.onThread k work).fep.threads k = some th ∧ th.regs.length = 64 ∧ th.work = work :=
  ⟨_, tabGet_set_same .., by simp, rfl⟩

-- Stage 3 (06 R128) ---------------------------------------------------------------------------------------------------

theorem cachesOnly_chargeExtent (s : State) (n node dva len fuel : Nat) : CachesOnly s (s.chargeExtent n node dva len fuel) := by
  induction fuel generalizing s dva len with
  | zero => exact .refl s
  | succ fuel ih =>
    unfold State.chargeExtent
    split
    · exact .refl s
    · refine .trans ?_ (ih _ _ _)
      split
      · exact (cachesOnly_xlated ..).trans (cachesOnly_charged ..)
      · exact cachesOnly_xlated ..
      · exact .refl s

theorem cachesOnly_chargeRing (s : State) (q : Queue) (k : Nat) : CachesOnly s (s.chargeRing q k) :=
  cachesOnly_chargeExtent ..

theorem spoof_queue (s : State) (point claimed : Nat) (owner : Option Nat) (src dst slot rid kind seq k : Nat) :
    (s.spoof point claimed owner src dst slot rid kind seq).queue k = s.queue k := by
  unfold State.queue
  rw [(toldOnly_spoof ..).queues]

/-- The fetch of a queue whose reads have been answered goes on: its guilty point, its abort and its stop all clear. -/
theorem checkOpen {s : State} {slot : Nat} {q : Queue} (hruns : s.fepRuns = true) (hreads : q.reads ≠ 0) (hstop : q.stopCause = 0)
    (hguilty : q.guilty = none) (habort : q.abortLatched = false) (hout : s.fepOut slot = []) :
    (!s.fepRuns || decide (q.reads = 0) || decide (q.stopCause ≠ 0) || q.guilty.isSome || q.abortLatched
      || !(s.fepOut slot).isEmpty) = false := by
  rw [hruns, hguilty, habort, hout, decide_eq_false hreads, decide_eq_false (not_not.2 hstop)]
  rfl

/-- The fetched command's thread, its stream and its queue's fetch pointer. -/
def fetchDone (s : State) (slot seq e : Nat) : State :=
  ((s.onThread 1 (some (slot, seq))).resetStream slot).updQueue slot (fun q =>
    { q with nextFetch := q.nextFetch + BitVec.ofNat 32 e, reads := 0, need := none })

theorem fetchDone_frame (s : State) (slot seq e : Nat) : fetchDone s slot seq e = { s with
    queues := (fetchDone s slot seq e).queues
    fep := (fetchDone s slot seq e).fep } := rfl

theorem applyCheck_pass {s : State} {slot e : Nat} {q : Queue} {bytes : List Byte}
    (h : s.stage3 q (bytes.take (entrySize q.desc.format)) = .pass) :
    s.applyCheck slot q bytes e = (fetchDone s slot q.nextFetch.toNat e).setCmd (mkCmd slot q bytes e s.now) := by
  unfold State.applyCheck
  rw [h]
  rfl

theorem applyCheck_refuse {s : State} {slot e : Nat} {q : Queue} {bytes : List Byte} {st : Status}
    (h : s.stage3 q (bytes.take (entrySize q.desc.format)) = .refuse st) :
    s.applyCheck slot q bytes e = ((fetchDone s slot q.nextFetch.toNat e).setCmd
      (finishCmd (mkCmd slot q bytes e s.now) st 0)).settleRefused slot := by
  unfold State.applyCheck
  rw [h]
  rfl

theorem applyCheck_glove {s : State} {slot e : Nat} {q : Queue} {bytes : List Byte}
    (h : s.stage3 q (bytes.take (entrySize q.desc.format)) = .glove) : ∃ kind head, s.applyCheck slot q bytes e
      = ((fetchDone s slot q.nextFetch.toNat e).spoof 2 (hdrInst bytes) (some q.inst) 0xFF 0xFF slot 0 kind q.nextFetch.toNat).makeGuilty
        slot q.nextFetch e e St.gloveMismatch head := by
  unfold State.applyCheck
  rw [h]
  refine ⟨(mkCmd slot q bytes e s.now).opcode, some (BitVec.ofNat 8 (mkCmd slot q bytes e s.now).opcode,
    (mkCmd slot q bytes e s.now).tag), ?_⟩
  have hseq : BitVec.ofNat 32 (mkCmd slot q bytes e s.now).seq = q.nextFetch :=
    (BitVec.ofNat_toNat 32 q.nextFetch).trans (BitVec.setWidth_eq _)
  dsimp only
  rw [hseq]
  rfl

/-- A command under its own key is found, and no other command changes. -/
theorem setCmd_others (s : State) {c : Cmd} {slot k : Nat} (hslot : c.slot = slot) (hseq : c.seq = k) {j : Nat}
    (hj : j ≠ cmdKey slot k) : tabGet (s.setCmd c).cmds j = tabGet s.cmds j := by
  subst hslot hseq
  exact tabGet_set_other _ _ hj

-- O21 -----------------------------------------------------------------------------------------------------------------

/-- Settles O21: the slot that the fetch unit serves, and what stage 3 makes of the bytes that have come. -/
theorem commandsAreFetchedAndChecked : Obligations.CommandsAreFetchedAndChecked := by
  refine ⟨?fetch, ?idle, ?check, ?fault⟩
  case fetch =>
    intro s hruns hsome
    obtain ⟨k, q, hnext, hmem, hok, hfirst⟩ := nextFetchSlot_spec hsome
    have hexec := exec_fetchRead hruns hnext
    obtain ⟨hframe, hfresh, hothers⟩ := streamStarted_frame s k
    have hqueue (j : Nat) : (streamStarted s k).queue j = s.queue j := by rw [hframe]; rfl
    generalize streamStarted s k = u at *
    refine ⟨k, q, _, hmem, hok, hfirst, hexec, ?_, fun hreads hq => ?_, fun j hj => hothers j hj, ?_, fun j => ?_⟩
    · rw [hframe]
      rfl
    · exact ⟨fepOut_of_fetchable hok hreads, hfresh q hq hreads⟩
    · obtain ⟨th, hth, hregs, hwork⟩ := onThread_thread (u.updQueue k (fun q => { q with reads := q.reads + 1 })) 0
        (some (k, ((s.queue k).map (·.nextFetch.toNat)).getD 0))
      refine ⟨th, hth, hregs, fun x hx => ?_⟩
      rw [hwork, hx]
      rfl
    · have hj : (u.updQueue k (fun q => { q with reads := q.reads + 1 })).queue j
          = if j = k then (s.queue j).map (fun q => { q with reads := q.reads + 1 }) else s.queue j := by
        split
        next h => rw [h, updQueue_queue_same, hqueue]
        next h => rw [updQueue_queue_other _ _ h, hqueue]
      exact hj
  case idle =>
    intro s hidle
    cases hruns : s.fepRuns with
    | false => simp only [exec, execFetchRead, fetchRead, hruns, Bool.false_eq_true, if_false]
    | true =>
      have hnone := nextFetchSlot_none (hidle.resolve_left (by rw [hruns]; exact Bool.noConfusion))
      simp only [exec, execFetchRead, fetchRead, hruns, hnone, if_true]
  case check =>
    intro s slot q hd rest hruns hq hreads hstop hguilty habort hout herr hhead e c next
    have hgo := checkOpen hruns hreads hstop hguilty habort hout
    refine ⟨fun hmore => ?_, fun hthere hshort => ?_, fun bs r2 hthere hcome hring => ?_⟩
    · have hexec : exec (.commandCheck slot) s
          = .next ((s.resetStream slot.val).updQueue slot.val (fun q => { q with reads := 0, need := some e })) := by
        simp only [exec, execCommandCheck, commandCheck, hq, hgo, herr, hhead, Bool.false_eq_true, if_false]
        exact congrArg _ (if_pos hmore)
      refine ⟨_, hexec, rfl, ?_, fun j hj => updQueue_queue_other _ _ hj⟩
      rw [updQueue_queue_same]
      exact congrArg _ hq
    · have hexec : exec (.commandCheck slot) s = .next (s.updQueue slot.val (fun q => { q with need := some e })) := by
        simp only [exec, execCommandCheck, commandCheck, hq, hgo, herr, hhead, Bool.false_eq_true, if_false]
        exact congrArg _ ((if_neg (Nat.not_lt.2 hthere)).trans (if_pos hshort))
      refine ⟨_, hexec, rfl, ?_, fun j hj => updQueue_queue_other _ _ hj⟩
      rw [updQueue_queue_same]
      exact congrArg _ hq
    · have hexec : exec (.commandCheck slot) s = .next ((s.chargeRing q e).applyCheck slot.val q bs e) := by
        simp only [exec, execCommandCheck, commandCheck, hq, hgo, herr, hhead, Bool.false_eq_true, if_false]
        refine congrArg _ ((if_neg (Nat.not_lt.2 hthere)).trans ((if_neg (Nat.not_lt.2 hcome)).trans ?_))
        rw [hring]
      have hstill (t : State) (ht : exec (.commandCheck slot) s = .next t) : Still s t :=
        still_of_view (view_execCommandCheck _ _ ht)
      obtain ⟨hcharged, _⟩ := cachesOnly_chargeRing s q e
      have hnow : (s.chargeRing q e).now = s.now := by rw [hcharged]; rfl
      have hq' : (s.chargeRing q e).queue slot.val = some q := by rw [hcharged]; exact hq
      have hfep : (s.chargeRing q e).fep = s.fep := by rw [hcharged]
      have hcmds : (s.chargeRing q e).cmds = s.cmds := by rw [hcharged]
      generalize s.chargeRing q e = u at *
      have hdone : (fetchDone u slot.val q.nextFetch.toNat e).queue slot.val = some next := by
        unfold fetchDone
        rw [updQueue_queue_same]
        exact congrArg _ hq'
      have honly := fetchDone_frame u slot.val q.nextFetch.toNat e
      refine ⟨fun hpass => ?_, fun st hrefused hfiled => ?_, fun hglove hsaid hreset => ?_⟩
      · rw [applyCheck_pass hpass, hnow] at hexec
        obtain ⟨th, hth, _, hwork⟩ := onThread_thread u 1 (some (slot.val, q.nextFetch.toNat))
        refine ⟨_, hexec, ⟨hstill _ hexec, ?_⟩, hdone, ⟨th, hth, hwork⟩, ?_, fun j hj => ?_⟩
        · rw [honly, hcharged]
          rfl
        · exact setCmd_cmd_same (fetchDone u slot.val q.nextFetch.toNat e) (c bs)
        · exact (setCmd_others (fetchDone u slot.val q.nextFetch.toNat e) (c := c bs) (slot := slot.val) (k := q.nextFetch.toNat)
            rfl rfl hj).trans (congrArg (fun t => tabGet t j) hcmds)
      · rw [applyCheck_refuse hrefused, hnow] at hexec
        have hfiled' : Filed ((fetchDone u slot.val q.nextFetch.toNat e).setCmd (finishCmd (c bs) st 0)) slot.val := by
          intro k x hx
          rw [setCmd_cmd _ (c := finishCmd (c bs) st 0) (slot := slot.val) (k := q.nextFetch.toNat) rfl rfl] at hx
          split at hx
          next h => cases hx; exact ⟨rfl, h.symm⟩
          next => exact hfiled k x ((congrArg (fun t => tabGet t (cmdKey slot.val k)) hcmds).symm.trans hx)
        have hset := settled_settleRefused hfiled'
        obtain ⟨_, hkept⟩ := hset.cmds hfiled'
        obtain ⟨r, hr, _⟩ := hkept q.nextFetch.toNat (finishCmd (c bs) st 0)
          (setCmd_cmd_same (fetchDone u slot.val q.nextFetch.toNat e) (finishCmd (c bs) st 0))
        obtain ⟨w, hw, hpassed⟩ := hset.queue next (by rw [setCmd_queue]; exact hdone)
        refine ⟨_, _, hexec, ⟨hstill _ hexec, ?_⟩, hr, rfl, ?_⟩
        · rw [hset.only, honly, hcharged]
          rfl
        · rw [hw, hpassed]
          rfl
      · obtain ⟨kind, head, happly⟩ := applyCheck_glove (e := e) hglove
        rw [happly] at hexec
        refine ⟨_, hexec, hstill _ hexec, makeGuilty_guilty (q := next) ?_ hguilty hsaid hreset habort ..⟩
        rw [spoof_queue]
        exact hdone
  case fault =>
    intro s slot q st hruns hq hreads hstop hclean hout hwhy
    obtain ⟨q', hq', hguilty, hsaid, hreset, habort⟩ := hclean
    rw [hq] at hq'
    cases hq'
    have hgo := checkOpen hruns hreads hstop hguilty habort hout
    have hfault (f : XFault) (hf : f.status = st) : GuiltyAt (s.ringFault slot.val q f) slot.val q.nextFetch st := by
      unfold State.ringFault
      rw [hf]
      refine makeGuilty_guilty (q := q) ?_ hguilty hsaid hreset habort ..
      unfold State.queue
      rw [(toldOnly_mmuFault ..).queues]
      exact hq
    rcases hwhy with herr | ⟨f, herr, hread, hf⟩
    · have hexec : exec (.commandCheck slot) s = .next (s.ringFault slot.val q
          ⟨st, q.desc.subBase + entrySize q.desc.format * (q.nextFetch.toNat % q.entriesMax), 0⟩) := by
        simp only [exec, execCommandCheck, commandCheck, hq, hgo, herr, Bool.false_eq_true, if_false]
      exact ⟨_, hexec, still_of_view (view_execCommandCheck _ _ hexec), hfault _ rfl⟩
    · have hexec : exec (.commandCheck slot) s = .next (s.ringFault slot.val q f) := by
        simp only [exec, execCommandCheck, commandCheck, hq, hgo, herr, hread, Bool.false_eq_true, if_false]
      exact ⟨_, hexec, still_of_view (view_execCommandCheck _ _ hexec), hfault f hf⟩

end Sys2Proof.Proofs
end

section
/-! PROOFS. Relocation at stage 4 (04 R86, R88, R89, R90, 07 R149, R151). -/

namespace Sys2Proof.Proofs
open Sys2Proof Sys2Proof.Machine Sys2Proof.Safety Sys2Proof.Laws

-- A thread that works changes no relocation ---------------------------------------------------------------------------

theorem relocPairs_onThread (s : State) (k : Nat) (w : Option (Nat × Nat)) (n : Nat)
    (l : List (BitVec 32 × Nat × Nat × Bool × Bool)) : (s.onThread k w).relocPairs n l = s.relocPairs n l := by
  induction l with
  | nil => rfl
  | cons p l ih =>
    obtain ⟨h, o, len, rd, wr⟩ := p
    unfold State.relocPairs
    rw [ih]
    rfl

theorem relocCb_onThread (s : State) (k : Nat) (w : Option (Nat × Nat)) (n : Nat) (l : List Reloc) (cb : List Byte) :
    (s.onThread k w).relocCb n l cb = s.relocCb n l cb := by
  induction l generalizing cb with
  | nil => rfl
  | cons r l ih =>
    unfold State.relocCb
    simp only [ih]
    rfl

theorem relocStreams_onThread (s : State) (k : Nat) (w : Option (Nat × Nat)) (n : Nat) (v : GVersion) (l : List Variant)
    (tab : Tab Nat) : (s.onThread k w).relocStreams n v l tab = s.relocStreams n v l tab := by
  induction l generalizing tab with
  | nil => rfl
  | cons r l ih =>
    unfold State.relocStreams
    simp only [ih]
    rfl

-- Relocating one command ----------------------------------------------------------------------------------------------

theorem relocateCmd_pairs {s : State} {c : Cmd} {fmt : Nat} (hop : c.opcode ≠ opLaunch) :
    (∀ ds, s.relocPairs c.inst (cmdPairs c) = .ok ds → s.relocateCmd c fmt = s.setCmd { c with stage := .relocated, dvas := ds })
    ∧ (∀ st, s.relocPairs c.inst (cmdPairs c) = .error st → s.relocateCmd c fmt = s.refuse c st) := by
  refine ⟨fun ds h => ?_, fun st h => ?_⟩
  · simp only [State.relocateCmd, if_neg hop, h]
  · simp only [State.relocateCmd, if_neg hop, h]

theorem relocateCmd_launch {s : State} {c : Cmd} {fmt : Nat} {g : Graph} {v : GVersion} {cb : List Byte} {ds : List Nat}
    {sd : Tab Nat} (hop : c.opcode = opLaunch) (hg : s.graph c.inst c.graph = some g)
    (hv : g.current.bind (graphVersion? g) = some v)
    (hcb : s.relocCb c.inst g.fixed.relocs (assembleCb g.fixed (s.patchBytes v)
      ((c.bytes.drop 64).take (launchCbLen fmt c.bytes))) = .ok (cb, ds))
    (hsd : s.relocStreams c.inst v (launchVariants g.fixed c.role) [] = .ok sd) :
    s.relocateCmd c fmt = s.setCmd { c with
      stage := .relocated, cb := cb, dvas := ds, streamDva := sd, version := v.num, relay := g.fixed.relay } := by
  simp only [State.relocateCmd, if_pos hop, hg, hv, hcb, hsd]

/-- The handles that a relocation reads stand in the handle cache as the table holds them. -/
theorem cacheHandles_entries (s : State) (n : Nat) (hs : List (BitVec 32)) :
    ∀ e ∈ (s.cacheHandles n hs).fep.hcache, e ∈ s.fep.hcache ∨ e.2 = s.handle n (e.1 % 4096) := by
  unfold State.cacheHandles
  dsimp only
  generalize s.fep.hcache = t
  suffices h : ∀ u : List (Nat × Handle), (∀ e ∈ u, e ∈ t ∨ e.2 = s.handle n (e.1 % 4096)) →
      ∀ e ∈ hs.foldl (fun t h => ((n * 4096 + h.toNat % 4096, s.handle n (h.toNat % 4096)) ::
        t.filter (fun e => e.1 != n * 4096 + h.toNat % 4096)).take 1024) u, e ∈ t ∨ e.2 = s.handle n (e.1 % 4096) from
    h t fun e he => .inl he
  induction hs with
  | nil => exact fun u hu => hu
  | cons h hs ih =>
    refine fun u hu => ih _ fun e he => ?_
    rcases List.mem_cons.1 (List.mem_of_mem_take he) with rfl | he
    · refine .inr ?_
      have hk : (n * 4096 + h.toNat % 4096) % 4096 = h.toNat % 4096 := by omega
      simp only [hk]
    · exact hu e (List.mem_filter.1 he).1

theorem cacheHandles_frame (s : State) (n : Nat) (hs : List (BitVec 32)) : s.cacheHandles n hs = { s with fep := { s.fep with
    hcache := (s.cacheHandles n hs).fep.hcache } } := rfl

theorem filed_setCmd {s : State} {x : Cmd} {slot : Nat} (hslot : x.slot = slot) (hfiled : Filed s slot) : Filed (s.setCmd x) slot := by
  intro j y hy
  rw [setCmd_cmd s (c := x) hslot rfl] at hy
  split at hy
  next h => cases hy; exact ⟨hslot, h.symm⟩
  next => exact hfiled j y hy

/-- A command refused: it has ended with its status, and READ may pass it. -/
theorem refuse_cmd {s : State} {c : Cmd} {slot k : Nat} (hslot : c.slot = slot) (hseq : c.seq = k) (st : Status)
    (hfiled : Filed s slot) : s.refuse c st = { s with queues := (s.refuse c st).queues, cmds := (s.refuse c st).cmds }
    ∧ ∃ r, (s.refuse c st).cmd slot k = some { finishCmd c st 0 with resv := r } := by
  have hfiled' : Filed (s.setCmd (finishCmd c st 0)) slot := filed_setCmd (x := finishCmd c st 0) hslot hfiled
  have hset := settled_settleRefused hfiled'
  obtain ⟨r, hr, _⟩ := (hset.cmds hfiled').2 k (finishCmd c st 0) (by
    rw [setCmd_cmd s (c := finishCmd c st 0) hslot hseq, if_pos rfl])
  have hrefuse : s.refuse c st = (s.setCmd (finishCmd c st 0)).settleRefused slot := by rw [State.refuse, hslot]
  rw [hrefuse]
  refine ⟨?_, _, hr⟩
  rw [hset.only]
  rfl

theorem refuse_ends {s : State} {c : Cmd} {slot k : Nat} (hslot : c.slot = slot) (hseq : c.seq = k) (st : Status)
    (hfiled : Filed s slot) : s.refuse c st = { s with queues := (s.refuse c st).queues, cmds := (s.refuse c st).cmds }
    ∧ ∃ x, (s.refuse c st).cmd slot k = some x ∧ x.stage = .ended ∧ x.status = st ∧ x.accepted = c.accepted := by
  obtain ⟨hframe, r, hr⟩ := refuse_cmd hslot hseq st hfiled
  exact ⟨hframe, _, hr, rfl, rfl, rfl⟩

/-- A checked command whose turn has come is relocated. -/
theorem exec_relocate {s : State} {slot : Fin 512} {seq : BitVec 32} {c : Cmd} {q : Queue} (hruns : s.fepRuns = true)
    (hc : s.cmd slot.val seq.toNat = some c) (hq : s.queue slot.val = some q) (hstage : c.stage = .checked) :
    ((s.earlier c).all Cmd.letsRelocate = true → exec (.relocate slot seq) s
        = .next (((s.onThread 2 (some (slot.val, seq.toNat))).relocateCmd c q.desc.format).cacheHandles c.inst
          (s.handlesOf c q.desc.format)))
    ∧ ((s.earlier c).all Cmd.letsRelocate = false → exec (.relocate slot seq) s = .next s) := by
  have hchecked : (c.stage == .checked) = true := by rw [hstage]; rfl
  refine ⟨fun h => ?_, fun h => ?_⟩
  · simp only [exec, execRelocate, relocate, hc, hq, hruns, hchecked, h, Bool.and_self, if_true]
  · simp only [exec, execRelocate, relocate, hc, hq, hruns, hchecked, h, Bool.and_false, Bool.false_eq_true, if_false]

-- O22 -----------------------------------------------------------------------------------------------------------------

/-- Settles O22: the pairs and the constant buffer relocated with the thread at work are those of the state before, and one
pair's checks in their order. -/
theorem commandsAreRelocatedInOrder : Obligations.CommandsAreRelocatedInOrder := by
  refine ⟨?command, ?pair⟩
  case command =>
    intro s slot seq c q hruns hc hslot hseq hq hstage
    obtain ⟨hgo, hwait⟩ := exec_relocate hruns hc hq hstage
    refine ⟨fun hturn => ⟨fun hop ds hds => ?_, fun hop st hst hfiled => ?_, fun hop g v cb ds sd hg hv hcb hsd => ?_⟩,
      fun hearly => ?_⟩
    · have hexec := hgo hturn
      obtain ⟨hok, _⟩ := relocateCmd_pairs (s := s.onThread 2 (some (slot.val, seq.toNat))) (fmt := q.desc.format) hop
      rw [hok ds ((relocPairs_onThread ..).trans hds)] at hexec
      refine ⟨_, hexec, rfl, ?_, cacheHandles_entries _ _ _, fun j hj => ?_⟩
      · exact (setCmd_cmd (s.onThread 2 (some (slot.val, seq.toNat))) (c := { c with stage := .relocated, dvas := ds }) hslot hseq
          seq.toNat).trans (if_pos rfl)
      · exact setCmd_others (s.onThread 2 (some (slot.val, seq.toNat))) (c := { c with stage := .relocated, dvas := ds }) hslot hseq hj
    · have hexec := hgo hturn
      obtain ⟨_, herr⟩ := relocateCmd_pairs (s := s.onThread 2 (some (slot.val, seq.toNat))) (fmt := q.desc.format) hop
      rw [herr st ((relocPairs_onThread ..).trans hst)] at hexec
      obtain ⟨honly, x, hx, hended, hstatus, haccepted⟩ := refuse_ends (s := s.onThread 2 (some (slot.val, seq.toNat))) hslot hseq
        st hfiled
      refine ⟨_, x, hexec, ?_, hx, hended, hstatus, haccepted⟩
      rw [cacheHandles_frame, honly]
      rfl
    · have hexec := hgo hturn
      rw [relocateCmd_launch (s := s.onThread 2 (some (slot.val, seq.toNat))) (fmt := q.desc.format) hop hg hv
        ((relocCb_onThread ..).trans hcb) ((relocStreams_onThread ..).trans hsd)] at hexec
      refine ⟨_, hexec, rfl, ?_⟩
      exact (setCmd_cmd (s.onThread 2 (some (slot.val, seq.toNat))) (c := { c with
        stage := .relocated, cb := cb, dvas := ds, streamDva := sd, version := v.num, relay := g.fixed.relay }) hslot hseq
          seq.toNat).trans (if_pos rfl)
    · refine hwait ?_
      obtain ⟨x, hx, hchecked⟩ := List.any_eq_true.1 hearly
      rw [Bool.eq_false_iff]
      intro hall
      have hlets := List.all_eq_true.1 hall x hx
      have hno : (x.stage != .checked) = false := by rw [beq_iff_eq.1 hchecked]; rfl
      simp [Cmd.letsRelocate, hno] at hlets
  case pair =>
    intro s n h off len rd wr e size
    have hpair : s.relocPair n h off len rd wr =
        if s.handleBad n (h.toNat % 4096) then .error St.memUncorrectable
        else if !e.bound || e.gen != h.toNat / 4096 then .error St.handleStale
        else if decide (off + len > size) || decide (e.base + off + len > 2 ^ 48) then .error St.handleRange
        else if (rd && !e.rd) || (wr && !e.wr) then .error St.handleAccess
        else .ok (e.base + off) := rfl
    refine ⟨fun hbad => ?_, fun hgood hstale => ?_, fun hgood hbound hgen => ?_⟩
    · rw [hpair, if_pos hbad]
    · have hno : (!e.bound || e.gen != h.toNat / 4096) = true := by
        rw [Bool.or_eq_true, Bool.not_eq_true', bne_iff_ne]
        exact hstale
      rw [hpair, hgood, if_neg Bool.false_ne_true, if_pos hno]
    · have hfresh : (!e.bound || e.gen != h.toNat / 4096) = false := by
        rw [hbound, hgen, bne_self_eq_false]
        rfl
      rw [hpair, hgood, if_neg Bool.false_ne_true, hfresh, if_neg Bool.false_ne_true]
      refine ⟨fun hpast => ?_, fun hfits hspace => ⟨fun hdenied => ?_, fun hr hw => ?_⟩⟩
      · have hover : (decide (off + len > size) || decide (e.base + off + len > 2 ^ 48)) = true := by
          rw [Bool.or_eq_true, decide_eq_true_eq, decide_eq_true_eq]
          exact hpast
        rw [if_pos hover]
      all_goals
        have hin : (decide (off + len > size) || decide (e.base + off + len > 2 ^ 48)) = false := by
          rw [Bool.or_eq_false_iff, decide_eq_false_iff_not, decide_eq_false_iff_not]
          exact ⟨Nat.not_lt.2 hfits, Nat.not_lt.2 hspace⟩
        rw [hin, if_neg Bool.false_ne_true]
      · have hno : ((rd && !e.rd) || (wr && !e.wr)) = true := by
          simpa only [Bool.or_eq_true, Bool.and_eq_true, Bool.not_eq_true'] using hdenied
        rw [if_pos hno]
      · have hyes : ((rd && !e.rd) || (wr && !e.wr)) = false := by
          rw [Bool.eq_false_iff]
          intro hno
          simp only [Bool.or_eq_true, Bool.and_eq_true, Bool.not_eq_true'] at hno
          rcases hno with ⟨h1, h2⟩ | ⟨h1, h2⟩
          · rw [hr h1] at h2; cases h2
          · rw [hw h1] at h2; cases h2
        rw [hyes, if_neg Bool.false_ne_true]

end Sys2Proof.Proofs
end

section
/-! PROOFS. The acceptance point (01 R17, R18, 04 R91, 06 R121, R132, 07 R147, R148). -/

namespace Sys2Proof.Proofs
open Sys2Proof Sys2Proof.Machine Sys2Proof.Safety Sys2Proof.Laws

-- A command accepted --------------------------------------------------------------------------------------------------

/-- The command as its acceptance leaves it. -/
structure Accepted (s : State) (c x : Cmd) (need : Nat) (pool : Option Nat) : Prop where
  slot : x.slot = c.slot
  seq : x.seq = c.seq
  accepted : x.accepted = true
  order : x.order = s.fep.nextOrder
  gen : x.gen = (s.inst c.inst).gen
  stage : x.stage = .waiting
  stage6At : x.stage6At = s.now
  pool : x.pool = pool
  resv : x.resv = need
  cls : c.contract = 0 → x.cls = c.cls ∧ x.key = 0

/-- What an acceptance changes: the command, its queue's READ, the order, the pool, the contract, and the constant buffer. -/
theorem acceptCmd_spec (s : State) (c : Cmd) (need : Nat) (pool : Option Nat) : ∃ x, Accepted s c x need pool
    ∧ (∃ fep contracts, fep.nextOrder = s.fep.nextOrder + 1 ∧ fep.pool = pool.toList ++ s.fep.pool
      ∧ s.acceptCmd c need pool = (fun t : State => pool.elim t (fun p => t.writePriv (0x800000 + 4096 * p) c.cb))
          { (s.setCmd x).updQueue c.slot (fun q => q.passEntries c.entries) with fep := fep, contracts := contracts }) := by
  unfold State.acceptCmd
  extract_lets k early cls0 key c1 s1 fep1 s2 s3
  refine ⟨c1, ⟨rfl, rfl, rfl, rfl, rfl, rfl, rfl, rfl, rfl, fun h => ⟨?_, ?_⟩⟩, s3.fep, s3.contracts, ?_, ?_, ?_⟩
  · have hcls : cls0 = false := by
      dsimp only [cls0]
      cases k with
      | none => rfl
      | some y => simp [h]
    dsimp only [c1]
    rw [hcls, if_neg Bool.false_ne_true]
  · have hcls : cls0 = false := by
      dsimp only [cls0]
      cases k with
      | none => rfl
      | some y => simp [h]
    dsimp only [c1, key]
    cases k with
    | none => rfl
    | some y => simp only [hcls, Bool.false_eq_true, if_false]
  · dsimp only [s3]
    split <;> rfl
  · dsimp only [s3]
    cases pool <;> split <;> rfl
  · have hs3 : s3 = { (s.setCmd c1).updQueue c.slot (fun q => q.passEntries c.entries) with fep := s3.fep, contracts := s3.contracts } := by
      dsimp only [s3]
      split <;> rfl
    cases pool with
    | none => exact hs3
    | some p => exact congrArg (fun t : State => t.writePriv (0x800000 + 4096 * p) c.cb) hs3

/-- Nothing refused stands at READ: nothing is settled. -/
theorem settleOne_none {s : State} {slot : Nat} {q : Queue} (hq : s.queue slot = some q) (hguilty : q.atGuilty = false)
    (h : ∀ x, s.cmd slot q.read.toNat = some x → x.accepted = true ∨ x.stage ≠ .ended) : s.settleOne slot = none := by
  unfold State.settleOne
  simp only [hq, hguilty, Bool.false_eq_true, if_false]
  cases hc : s.cmd slot q.read.toNat with
  | none => rfl
  | some x =>
    have hno : (!x.accepted && x.stage == .ended) = false := by
      rcases h x hc with h | h
      · rw [h]; rfl
      · rw [beq_eq_false_iff_ne.2 h, Bool.and_false]
    simp only [hno, Bool.false_and, Bool.false_eq_true, if_false]

/-- The commands and the queue of the slot after an acceptance. -/
theorem acceptCmd_slot {s : State} {c : Cmd} {slot k : Nat} {q : Queue} (hslot : c.slot = slot) (hseq : c.seq = k)
    (hq : s.queue slot = some q) (need : Nat) (pool : Option Nat) : ∃ x, Accepted s c x need pool
    ∧ (∀ j, (s.acceptCmd c need pool).cmd slot j = if j = k then some x else s.cmd slot j)
    ∧ (s.acceptCmd c need pool).queue slot = some (q.passEntries c.entries)
    ∧ (s.acceptCmd c need pool).fep.nextOrder = s.fep.nextOrder + 1
    ∧ (s.acceptCmd c need pool).fep.pool = pool.toList ++ s.fep.pool
    ∧ (∀ n, (s.acceptCmd c need pool).inst n = s.inst n)
    ∧ s.acceptCmd c need pool = { s with
        cmds := (s.acceptCmd c need pool).cmds
        queues := (s.acceptCmd c need pool).queues
        fep := (s.acceptCmd c need pool).fep
        contracts := (s.acceptCmd c need pool).contracts
        mem := (s.acceptCmd c need pool).mem }
    ∧ (s.acceptCmd c need pool).mem = (pool.elim s (fun p => s.writePriv (0x800000 + 4096 * p) c.cb)).mem := by
  obtain ⟨x, hx, fep, contracts, horder, hpool, heq⟩ := acceptCmd_spec s c need pool
  have hcmd (j : Nat) : (s.setCmd x).cmd slot j = if j = k then some x else s.cmd slot j :=
    setCmd_cmd s (hx.slot.trans hslot) (hx.seq.trans hseq) j
  have hqueue : ((s.setCmd x).updQueue c.slot (fun q => q.passEntries c.entries)).queue slot = some (q.passEntries c.entries) := by
    rw [hslot, updQueue_queue_same, setCmd_queue, hq]
    rfl
  refine ⟨x, hx, ?_⟩
  rw [heq]
  cases pool with
  | none => exact ⟨hcmd, hqueue, horder, hpool, fun _ => rfl, rfl, rfl⟩
  | some p => exact ⟨hcmd, hqueue, horder, hpool, fun _ => rfl, rfl, rfl⟩

/-- A command at its acceptance point whose conditions hold. -/
def acceptTurn (s : State) (slot : Nat) (seq : BitVec 32) (c : Cmd) (q : Queue) : Bool :=
  s.fepRuns && c.stage == .relocated && q.read.toNat == seq.toNat && q.stopCause == 0 && !q.abortLatched
    && (s.inst c.inst).genWait.isEmpty && s.instWorks c.inst && decide (s.inflight slot < 32)
    && s.ringSpace slot q (if c.opcode = opLaunch then 16 else 1)

theorem exec_acceptancePoint_closed {s : State} {slot : Fin 512} {seq : BitVec 32} {c : Cmd} {q : Queue}
    (hc : s.cmd slot.val seq.toNat = some c) (hq : s.queue slot.val = some q) (h : acceptTurn s slot.val seq c q = false) :
    exec (.acceptancePoint slot seq) s = .next s := by
  unfold acceptTurn at h
  simp only [exec, execAcceptancePoint, acceptancePoint, hc, hq, h, Bool.false_eq_true, if_false]

theorem exec_acceptancePoint_open {s : State} {slot : Fin 512} {seq : BitVec 32} {c : Cmd} {q : Queue}
    (hc : s.cmd slot.val seq.toNat = some c) (hq : s.queue slot.val = some q) (h : acceptTurn s slot.val seq c q = true) :
    (c.opcode ≠ opPatch → c.cb = [] → exec (.acceptancePoint slot seq) s
      = .next ((s.acceptCmd c (if c.opcode = opLaunch then 16 else 1) none).settleRefused slot.val))
    ∧ (c.opcode ≠ opPatch → c.cb ≠ [] → (∀ k, s.poolSlot c.contract = some k → exec (.acceptancePoint slot seq) s
        = .next ((s.acceptCmd c (if c.opcode = opLaunch then 16 else 1) (some k)).settleRefused slot.val))
      ∧ (s.poolSlot c.contract = none → exec (.acceptancePoint slot seq) s = .next s))
    ∧ (c.opcode = opPatch → (tabVals s.cmds).any (fun x => x.opcode == opLaunch && x.stage == .relocated && x.inst == c.inst
          && x.graph == c.graph) = false → exec (.acceptancePoint slot seq) s = .next (s.acceptPatch c)) := by
  unfold acceptTurn at h
  have hempty (hcb : c.cb ≠ []) : c.cb.isEmpty = false := List.isEmpty_eq_false_iff.2 hcb
  refine ⟨fun hop hcb => ?_, fun hop hcb => ⟨fun k hk => ?_, fun hnone => ?_⟩, fun hop hidle => ?_⟩
  · simp only [exec, execAcceptancePoint, acceptancePoint, hc, hq, h, if_true, if_neg hop, hcb, List.isEmpty_nil]
  · simp only [exec, execAcceptancePoint, acceptancePoint, hc, hq, h, if_true, if_neg hop, hempty hcb, hk, Bool.false_eq_true, if_false]
  · simp only [exec, execAcceptancePoint, acceptancePoint, hc, hq, h, if_true, if_neg hop, hempty hcb, hnone, Bool.false_eq_true, if_false]
  · simp only [exec, execAcceptancePoint, acceptancePoint, hc, hq, h, if_true, if_pos hop, hidle, Bool.false_eq_true, if_false]

/-- An accepted command under its key, the others of its slot as before: still filed. -/
theorem filed_of_cmds {s t : State} {slot k : Nat} {x : Cmd} (hf : Filed s slot) (hslot : x.slot = slot) (hseq : x.seq = k)
    (h : ∀ j, t.cmd slot j = if j = k then some x else s.cmd slot j) : Filed t slot := by
  intro j y hy
  rw [h j] at hy
  split at hy
  next hj => cases hy; exact ⟨hslot, hseq.trans hj.symm⟩
  next => exact hf j y hy

/-- After an acceptance the accepted command stays as it is, and READ stays where nothing refused stands. -/
theorem settled_accepted {s u : State} {slot k : Nat} {x : Cmd} {q : Queue} (hf : Filed s slot) (hslot : x.slot = slot)
    (hseq : x.seq = k) (haccepted : x.accepted = true) (hcmds : ∀ j, u.cmd slot j = if j = k then some x else s.cmd slot j)
    (hq : u.queue slot = some q) : Settled slot u (u.settleRefused slot) ∧ (u.settleRefused slot).cmd slot k = some x
    ∧ (q.atGuilty = false ∧ (∀ y, s.cmd slot q.read.toNat = some y → y.accepted = true ∨ y.stage ≠ .ended) →
      (u.settleRefused slot).queue slot = some q) := by
  have hfu := filed_of_cmds hf hslot hseq hcmds
  have hset := settled_settleRefused hfu
  obtain ⟨r, hr, hsame⟩ := (hset.cmds hfu).2 k x (by rw [hcmds k, if_pos rfl])
  refine ⟨hset, ?_, fun ⟨hguilty, hnone⟩ => ?_⟩
  · rw [hr, hsame haccepted]
  · unfold State.settleRefused
    rw [settle_of_none, hq]
    refine settleOne_none hq hguilty fun y hy => ?_
    rw [hcmds] at hy
    split at hy
    · cases hy
      exact .inl haccepted
    · exact hnone y hy

-- A new graph version (07 R147, R148) ---------------------------------------------------------------------------------

theorem releaseVersions_frame (s : State) (n g : Nat) :
    s.releaseVersions n g = { s with insts := (s.releaseVersions n g).insts, pages := (s.releaseVersions n g).pages } := by
  unfold State.releaseVersions
  split
  · rfl
  · dsimp only
    split <;> rfl

/-- Releasing versions keeps the current one. -/
theorem releaseVersions_graph {s : State} {n g : Nat} {x : Graph} {v : GVersion} (hg : s.graph n g = some x)
    (hv : v ∈ x.versions) (hcur : x.current = some v.num) :
    ∃ y, (s.releaseVersions n g).graph n g = some y ∧ y.current = some v.num ∧ v ∈ y.versions := by
  have hlive : v ∈ x.versions.filter (fun w => x.current == some w.num || s.pinned n g w.num) :=
    List.mem_filter.2 ⟨hv, by rw [hcur]; simp⟩
  have hsome : (x.versions.filter (fun w => x.current == some w.num || s.pinned n g w.num)).isEmpty = false :=
    List.isEmpty_eq_false_iff.2 (List.ne_nil_of_mem hlive)
  unfold State.releaseVersions
  simp only [hg, hsome, Bool.false_and, Bool.false_eq_true, if_false]
  refine ⟨{ x with versions := x.versions.filter (fun w => x.current == some w.num || s.pinned n g w.num) }, ?_, hcur, hlive⟩
  simp [State.graph, State.setGraph, State.inst, State.updInst]

theorem settled_graph {slot : Nat} {s t : State} (h : Settled slot s t) (n g : Nat) : t.graph n g = s.graph n g := by
  unfold State.graph State.inst
  rw [h.only]

/-- A PATCH whose version is current. -/
def patchDone (c : Cmd) : Cmd :=
  { finishCmd c St.ok 0 with version := 0, built := none, effectDone := true, chan := none }

theorem updCmd_cmd (s : State) (slot k : Nat) (f : Cmd → Cmd) (j : Nat) :
    (s.updCmd slot k f).cmd slot j = if j = k then (s.cmd slot k).map f else s.cmd slot j := by
  split
  next h => rw [h, updCmd_cmd_same]
  next h => exact tabGet_modify_other _ _ fun hk => h (cmdKey_inj.1 hk)

/-- A PATCH accepted: its version is current, and its command has ended with OK. -/
theorem acceptPatch_spec {s : State} {c : Cmd} {slot k cur : Nat} {q : Queue} {g : Graph} {pages : List Nat}
    (hslot : c.slot = slot) (hseq : c.seq = k) (hq : s.queue slot = some q) (hf : Filed s slot)
    (hg : s.graph c.inst c.graph = some g) (hbuilt : c.built = some pages) (hcur : g.current = some cur) :
    view (s.acceptPatch c) = view s
    ∧ (∃ g', (s.acceptPatch c).graph c.inst c.graph = some g'
      ∧ g'.current = some (nextVersionNum (g.versions.map (·.num)) cur 8)
      ∧ (⟨nextVersionNum (g.versions.map (·.num)) cur 8, pages⟩ : GVersion) ∈ g'.versions)
    ∧ ((q.passEntries c.entries).atGuilty = false ∧ (∀ y, s.cmd slot (q.passEntries c.entries).read.toNat = some y →
        y.accepted = true ∨ y.stage ≠ .ended) → (s.acceptPatch c).queue slot = some (q.passEntries c.entries)) := by
  obtain ⟨x, hx, hcmds, hqueue, _, _, _, honly, hmem⟩ := acceptCmd_slot hslot hseq hq 1 none
  have haccept : s.acceptPatch c = ((((s.acceptCmd c 1 none).setGraph c.inst c.graph { g with
      versions := g.versions ++ [⟨nextVersionNum (g.versions.map (·.num)) cur 8, pages⟩],
      current := some (nextVersionNum (g.versions.map (·.num)) cur 8), builder := none }).updCmd c.slot c.seq patchDone).releaseVersions c.inst
        c.graph).settleRefused c.slot := by
    simp only [State.acceptPatch, hg, hbuilt, hcur]
    rfl
  rw [haccept, hslot, hseq]
  generalize nextVersionNum (g.versions.map (·.num)) cur 8 = num
  generalize hgraph : ({ g with versions := g.versions ++ [⟨num, pages⟩], current := some num, builder := none } : Graph) = new
  generalize hu : s.acceptCmd c 1 none = u at *
  have hview : view u = view s := by
    rw [honly, hmem]
    rfl
  generalize hw : ((u.setGraph c.inst c.graph new).updCmd slot k patchDone) = w
  have hwcmds (j : Nat) : w.cmd slot j = if j = k then some (patchDone x) else s.cmd slot j := by
    rw [← hw]
    split
    next h =>
      rw [h, updCmd_cmd_same, show (u.setGraph c.inst c.graph new).cmd slot k = u.cmd slot k from rfl, hcmds, if_pos rfl]
      rfl
    next h =>
      rw [updCmd_cmd, if_neg h, show (u.setGraph c.inst c.graph new).cmd slot j = u.cmd slot j from rfl, hcmds, if_neg h]
  have hwgraph : w.graph c.inst c.graph = some new := by
    rw [← hw]
    simp [State.graph, State.setGraph, State.inst, State.updInst, State.updCmd]
  obtain ⟨y, hy, hycur, hyver⟩ := releaseVersions_graph (v := ⟨num, pages⟩) hwgraph (by rw [← hgraph]; simp) (by rw [← hgraph])
  have hrel := releaseVersions_frame w c.inst c.graph
  have hwview : view (w.releaseVersions c.inst c.graph) = view s := by
    rw [view_State_releaseVersions, ← hw, ← hview]
    rfl
  have hrqueue : (w.releaseVersions c.inst c.graph).queue slot = some (q.passEntries c.entries) := by
    rw [hrel, ← hw]
    exact hqueue
  have hrcmds (j : Nat) : (w.releaseVersions c.inst c.graph).cmd slot j = if j = k then some (patchDone x) else s.cmd slot j := by
    rw [hrel]
    exact hwcmds j
  generalize w.releaseVersions c.inst c.graph = r at *
  obtain ⟨hset, _, hstay⟩ := settled_accepted (x := patchDone x) hf (hx.slot.trans hslot) (hx.seq.trans hseq) hx.accepted
    hrcmds hrqueue
  refine ⟨?_, ⟨y, (settled_graph hset _ _).trans hy, hycur, hyver⟩, hstay⟩
  rw [hset.only, ← hwview]
  rfl

-- O23 -----------------------------------------------------------------------------------------------------------------

/-- Settles O23: the acceptance of the command at READ, what settles behind it, and the conditions that hold it. -/
theorem theAcceptancePoint : Obligations.TheAcceptancePoint := by
  intro s slot seq c q hruns hc hslot hseq hq hstage hread hfiled passed nothingRefused
  refine ⟨fun hstop habort hgens hworks hinflight hspace => ?_, fun hheld => ?_⟩
  · have hturn : acceptTurn s slot.val seq c q = true := by
      simp only [acceptTurn, hruns, hstage, hread, hstop, habort, hgens, hworks, decide_eq_true hinflight, hspace,
        beq_self_eq_true, List.isEmpty_nil, Bool.not_false, Bool.and_self]
    obtain ⟨hplain, hpool, hpatch⟩ := exec_acceptancePoint_open hc hq hturn
    refine ⟨fun hop hcb => ?_, fun hop hcb k hk hwf => ?_, fun hop hcb hnone => (hpool hop hcb).2 hnone,
      fun hop g pages cur hg hbuilt hcur hidle => ?_⟩
    · have hexec := hplain hop hcb
      obtain ⟨x, hx, hcmds, hqueue, horder, _, _, honly, hmem⟩ := acceptCmd_slot hslot hseq hq (if c.opcode = opLaunch then 16 else 1) none
      obtain ⟨hset, hkept, hstay⟩ := settled_accepted hfiled (hx.slot.trans hslot) (hx.seq.trans hseq) hx.accepted hcmds hqueue
      refine ⟨_, x, hexec, ?_, hkept, hx.accepted, hx.order, hx.gen, hx.stage, hx.stage6At, hx.pool, hx.resv, hx.cls, hstay, ?_⟩
      · rw [hset.only, honly, hmem]
        rfl
      · rw [hset.only]
        exact horder
    · have hexec := (hpool hop hcb).1 k hk
      obtain ⟨x, hx, hcmds, hqueue, _, hslots, _, honly, hmem⟩ := acceptCmd_slot hslot hseq hq (if c.opcode = opLaunch then 16 else 1) (some k)
      obtain ⟨hset, hkept, hstay⟩ := settled_accepted hfiled (hx.slot.trans hslot) (hx.seq.trans hseq) hx.accepted hcmds hqueue
      simp only [Memory.wf, Bool.and_eq_true] at hwf
      obtain ⟨hcells, _⟩ := hwf
      have hmem' : ((s.acceptCmd c (if c.opcode = opLaunch then 16 else 1) (some k)).settleRefused slot.val).mem
          = (s.writePriv (0x800000 + 4096 * k) c.cb).mem := by
        rw [hset.only]
        exact hmem
      refine ⟨_, x, hexec, ?_, hkept, hx.accepted, hx.pool, hx.gen, ?_, hstay, ?_, fun a ha => ?_⟩
      · rw [hset.only, honly, hmem]
        rfl
      · rw [hset.only]
        exact hslots
      · unfold State.readPrivN
        rw [hmem']
        exact cellReadN_writeN_same hcells _ _
      · unfold State.readPriv
        rw [hmem']
        exact cellRead_writeN_other hcells _ ha
    · have hexec := hpatch hop hidle
      obtain ⟨hview, ⟨g', hg', hnow, hmem⟩, hstay⟩ := acceptPatch_spec hslot hseq hq hfiled hg hbuilt hcur
      exact ⟨_, g', hexec, still_of_view hview, hg', hnow, hmem, hstay⟩
  · refine exec_acceptancePoint_closed hc hq ?_
    rw [Bool.eq_false_iff]
    intro hturn
    simp only [acceptTurn, Bool.and_eq_true, beq_iff_eq, Bool.not_eq_true', List.isEmpty_iff] at hturn
    obtain ⟨⟨⟨⟨⟨⟨_, hstop⟩, habort⟩, hgens⟩, hworks⟩, _⟩, _⟩ := hturn
    rcases hheld with h | h | h | h
    · exact h hstop
    · rw [habort] at h; cases h
    · exact h hgens
    · rw [hworks] at h; cases h

end Sys2Proof.Proofs
end

section
/-! PROOFS. Stage 6 and the priority queue (06 R123, R125, R126, R129, R130, 08 R167, R169, 09 R199, R202, 18 R388). -/

namespace Sys2Proof.Proofs
open Sys2Proof Sys2Proof.Machine Sys2Proof.Safety Sys2Proof.Laws

theorem onThread_sbFifo (s : State) (k : Nat) (w : Option (Nat × Nat)) : (s.onThread k w).fep.sbFifo = s.fep.sbFifo := by
  unfold State.onThread
  rfl

/-- Work of a thread changes its registers alone. -/
theorem onThread_frame (s : State) (k : Nat) (w : Option (Nat × Nat)) :
    s.onThread k w = { s with fep := { s.fep with threads := (s.onThread k w).fep.threads } } := by
  unfold State.onThread
  rfl

-- Stage 6 -------------------------------------------------------------------------------------------------------------

theorem sixReady_of_atSix {s : State} {slot seq op : Nat} {c : Cmd} (h : AtSix s slot seq op c) :
    s.sixReady slot seq op = some c := by
  obtain ⟨hc, _, _, hop, hruns, hstage, hhead, hworks⟩ := h
  have hgo : (s.fepRuns && c.opcode == op && c.stage == .waiting && s.headOfSix c && s.instWorks c.inst) = true := by
    rw [hruns, hop, hstage, hhead, hworks, beq_self_eq_true]
    rfl
  simp only [State.sixReady, hc, hgo, if_true]

theorem fenceOk_iff (s : State) (c : Cmd) : s.fenceOk c = true ↔ c.fence = false ∨ s.earlier c = [] := by
  simp [State.fenceOk, State.earlierDone]

/-- A command set with thread 4 at work on it. -/
theorem cmdBecomes_setCmd {s : State} {slot k : Nat} {x : Cmd} (hslot : x.slot = slot) (hseq : x.seq = k) (w : Option (Nat × Nat)) :
    CmdBecomes s ((s.onThread 4 w).setCmd x) slot k x
    ∧ ∃ th, tabGet ((s.onThread 4 w).setCmd x).fep.threads 4 = some th ∧ th.work = w := by
  obtain ⟨th, hth, _, hwork⟩ := onThread_thread s 4 w
  refine ⟨⟨rfl, ?_, fun j hj => setCmd_others _ hslot hseq hj⟩, th, hth, hwork⟩
  rw [setCmd_cmd _ hslot hseq, if_pos rfl]

-- Waits (06 R129, R130) -----------------------------------------------------------------------------------------------

theorem waitRes_satisfied {x : Sem} {w : Nat} (h : w ≤ x.value.toNat) : waitRes x w = .satisfied := if_pos h

theorem waitRes_poisoned {x : Sem} {w : Nat} {p : BitVec 64} (h : x.value.toNat < w) (hp : x.poison = some p) (hw : w ≤ p.toNat) :
    waitRes x w = .poisoned p := by
  simp only [waitRes, hp, if_pos hw]
  exact if_neg (Nat.not_le.2 h)

theorem waitRes_waits {x : Sem} {w : Nat} (h : x.value.toNat < w) (hp : ∀ p, x.poison = some p → p.toNat < w) :
    waitRes x w = .waits := by
  unfold waitRes
  refine (if_neg (Nat.not_le.2 h)).trans ?_
  cases hpoison : x.poison with
  | none => rfl
  | some p => exact if_neg (Nat.not_le.2 (hp p hpoison))

theorem resolveWait_satisfied {s : State} {c : Cmd} {i w : Nat} (hwait : c.waitSem = some (i, w))
    (h : w ≤ (s.sem c.inst i).value.toNat) :
    s.resolveWait c = s.setCmd (if c.opcode = opWait then finishCmd (beginCmd c s.now) St.ok 0
      else { c with stage := .passed, waitSem := none, inScoreboard := false }) := by
  simp only [State.resolveWait, hwait, waitRes_satisfied h]

theorem resolveWait_poisoned {s : State} {c : Cmd} {i w : Nat} {p : BitVec 64} (hwait : c.waitSem = some (i, w))
    (h : (s.sem c.inst i).value.toNat < w) (hp : (s.sem c.inst i).poison = some p) (hw : w ≤ p.toNat) (hsig : c.sigSem = none) :
    s.resolveWait c = s.endCmd c St.depAborted p := by
  simp only [State.resolveWait, hwait, waitRes_poisoned h hp hw, State.depAbort, hsig]

/-- The command with its time limit at stage 6 noted. -/
def timed (c : Cmd) : Cmd :=
  { c with waitUntil := if c.opcode = opWait ∧ semTimeoutUs c.bytes ≠ 0 then some (c.stage6At + semTimeoutUs c.bytes * 1000) else none }

/-- A wait that nothing ends: its entry is held, taken, or asked for in order of arrival. -/
theorem resolveWait_waits {s : State} {c : Cmd} {i w : Nat} (hwait : c.waitSem = some (i, w))
    (h : waitRes (s.sem c.inst i) w = .waits) :
    (c.inScoreboard = true → s.resolveWait c = s)
    ∧ (c.inScoreboard = false → s.sbTurn c = true →
      s.resolveWait c = (s.sbLeave c.slot c.seq).setCmd { timed c with inScoreboard := true })
    ∧ (c.inScoreboard = false → s.sbTurn c = false → s.resolveWait c = if s.fep.sbFifo.contains (c.slot, c.seq) then s.setCmd (timed c)
        else { s.setCmd (timed c) with fep := { s.fep with sbFifo := s.fep.sbFifo ++ [(c.slot, c.seq)] } }) := by
  have hwaits : s.resolveWait c = if c.inScoreboard then s
      else if s.sbTurn c then (s.sbLeave c.slot c.seq).setCmd { timed c with inScoreboard := true }
      else if (s.setCmd (timed c)).fep.sbFifo.contains (c.slot, c.seq) then s.setCmd (timed c)
        else { s.setCmd (timed c) with fep := { s.fep with sbFifo := s.fep.sbFifo ++ [(c.slot, c.seq)] } } := by
    unfold State.resolveWait timed
    rw [hwait]
    dsimp only
    rw [h]
    dsimp only
    rfl
  rw [hwaits]
  refine ⟨fun hin => if_pos hin, fun hout hturn => ?_, fun hout hturn => ?_⟩
  · rw [hout, hturn, if_neg Bool.false_ne_true, if_pos rfl]
  · rw [hout, hturn, if_neg Bool.false_ne_true, if_neg Bool.false_ne_true]
    rfl

/-- A command that ends and gives its pool slot back. -/
theorem endCmd_frame {s : State} {c : Cmd} {slot k : Nat} (hslot : c.slot = slot) (hseq : c.seq = k) (st : Status) (r : BitVec 64) :
    s.endCmd c st r = { s with cmds := (s.endCmd c st r).cmds, fep := { s.fep with pool := (s.endCmd c st r).fep.pool } }
    ∧ (s.endCmd c st r).cmd slot k = some { finishCmd c st r with pool := none }
    ∧ (∀ j, j ≠ cmdKey slot k → tabGet (s.endCmd c st r).cmds j = tabGet s.cmds j)
    ∧ (s.endCmd c st r).fep.pool = s.fep.pool.filter (fun k => c.pool != some k) := by
  have hset (u : State) : (u.setCmd { finishCmd c st r with pool := none }).cmd slot k = some { finishCmd c st r with pool := none } := by
    rw [setCmd_cmd u (c := { finishCmd c st r with pool := none }) hslot hseq, if_pos rfl]
  have hothers (u : State) (j : Nat) (hj : j ≠ cmdKey slot k) :
      tabGet (u.setCmd { finishCmd c st r with pool := none }).cmds j = tabGet u.cmds j :=
    setCmd_others u (c := { finishCmd c st r with pool := none }) hslot hseq hj
  cases hpool : c.pool with
  | none =>
    have hend : s.endCmd c st r = s.setCmd { finishCmd c st r with pool := none } := by simp only [State.endCmd, hpool]
    rw [hend]
    exact ⟨rfl, hset s, hothers s, (List.filter_eq_self.2 fun a _ => rfl).symm⟩
  | some k0 =>
    have hend : s.endCmd c st r = State.setCmd { s with fep := { s.fep with pool := s.fep.pool.filter (· != k0) } }
        { finishCmd c st r with pool := none } := by simp only [State.endCmd, hpool]
    rw [hend]
    refine ⟨rfl, hset _, hothers _, ?_⟩
    refine List.filter_congr fun a _ => ?_
    by_cases h : a = k0
    · rw [h, bne_self_eq_false, bne_self_eq_false]
    · rw [bne_iff_ne.2 h, bne_iff_ne.2 fun heq => h (Option.some.inj heq).symm]

theorem sbLeave_of_nil {s : State} (slot seq : Nat) (h : s.fep.sbFifo = []) : s.sbLeave slot seq = s := by
  have : s.fep.sbFifo.filter (· != (slot, seq)) = s.fep.sbFifo := by rw [h]; rfl
  rw [State.sbLeave, this]

-- O24 -----------------------------------------------------------------------------------------------------------------

/-- Settles O24: each command at stage 6, by whether its fence and its wait let it go. -/
theorem commandsPassStageSix : Obligations.CommandsPassStageSix := by
  intro s slot seq c free ends aborts
  have hends (hat : c.slot = slot.val ∧ c.seq = seq.toNat) (st : Status) (r : BitVec 64) :
      ends ((s.onThread 4 (some (c.slot, c.seq))).setCmd (finishCmd (beginCmd c s.now) st r)) st r := by
    obtain ⟨hslot, hseq⟩ := hat
    have := cmdBecomes_setCmd (s := s) (x := finishCmd (beginCmd c s.now) st r) hslot hseq (some (c.slot, c.seq))
    rw [hslot, hseq] at this ⊢
    exact this
  have hsets (hslot : c.slot = slot.val) (hseq : c.seq = seq.toNat) (x : Cmd) (hx : x.slot = slot.val ∧ x.seq = seq.toNat) :
      CmdBecomes s ((s.onThread 4 (some (c.slot, c.seq))).setCmd x) slot.val seq.toNat x :=
    (cmdBecomes_setCmd hx.1 hx.2 (some (c.slot, c.seq))).1
  have haborts (hat : c.slot = slot.val ∧ c.seq = seq.toNat) (p : BitVec 64) :
      aborts ((s.onThread 4 (some (c.slot, c.seq))).endCmd c St.depAborted p) p := by
    obtain ⟨hslot, hseq⟩ := hat
    obtain ⟨hframe, hcmd, hothers, hpool⟩ := endCmd_frame (s := s.onThread 4 (some (c.slot, c.seq))) hslot hseq St.depAborted p
    refine ⟨?_, hcmd, hothers, hpool⟩
    rw [hframe]
    rfl
  have hfence : s.fenceOk c = true ↔ free := fenceOk_iff s c
  refine ⟨fun hat => ?nop, fun hat => ?barrier, fun hat i v hsig => ?signal, fun hat i w hwait => ?wait, fun hat => ?launch⟩
  all_goals
    have hsix := sixReady_of_atSix hat
    obtain ⟨hc, hslot, hseq, hop, -⟩ := hat
  case nop =>
    refine ⟨fun hfree => ⟨_, ?_, hends ⟨hslot, hseq⟩ St.ok 0⟩, fun hf he => ?_⟩
    · simp only [exec, execNop, hsix, hfence.2 hfree, if_true]
    · have hno : s.fenceOk c = false := by
        rw [Bool.eq_false_iff, ne_eq, hfence]
        rintro (h | h)
        · rw [hf] at h; cases h
        · exact he h
      simp only [exec, execNop, hsix, hno, Bool.false_eq_true, if_false]
  case barrier =>
    refine ⟨fun hearlier => ⟨_, ?_, hends ⟨hslot, hseq⟩ St.ok 0⟩, fun hearlier => ?_⟩
    · simp only [exec, execBarrier, hsix, State.earlierDone, hearlier, List.isEmpty_nil, if_true]
    · simp only [exec, execBarrier, hsix, State.earlierDone, List.isEmpty_eq_false_iff.2 hearlier, Bool.false_eq_true, if_false]
  case signal =>
    refine ⟨fun hearlier hmore => ⟨_, ?_, hends ⟨hslot, hseq⟩ St.ok 0⟩,
      fun hearlier hless => ⟨_, ?_, hends ⟨hslot, hseq⟩ St.semNoChange 0⟩, fun hearlier => ?_⟩
    · have hraises : v > (s.sem c.inst i).value.toNat := hmore
      simp only [exec, execSignal, hsix, State.earlierDone, hearlier, List.isEmpty_nil, hsig, if_pos hraises, if_true]
    · have hno : ¬ v > (s.sem c.inst i).value.toNat := Nat.not_lt.2 hless
      simp only [exec, execSignal, hsix, State.earlierDone, hearlier, List.isEmpty_nil, hsig, if_neg hno, if_true]
    · simp only [exec, execSignal, hsix, State.earlierDone, List.isEmpty_eq_false_iff.2 hearlier, Bool.false_eq_true, if_false]
  case wait =>
    intro x us until_
    have hgo (hfree : free) : exec (.wait slot seq) s = .next ((s.onThread 4 (some (c.slot, c.seq))).resolveWait c) := by
      simp only [exec, execWait, hsix, hfence.2 hfree, if_true]
    have htimed : timed c = { c with waitUntil := until_ } := by
      by_cases hus : us = 0
      · have hlimit : until_ = none := if_pos hus
        rw [hlimit, timed, if_neg fun h => h.2 hus]
      · have hlimit : until_ = some (c.stage6At + us * 1000) := if_neg hus
        rw [hlimit, timed, if_pos ⟨hop, hus⟩]
    refine ⟨fun hfree hval => ?_, fun p hfree hlow hp hw hsig => ?_, fun hfree hlow hp hout => ⟨fun hsb hfifo => ?_,
      fun hsb hnew => ?_, fun e hfirst hne hown => ?_⟩, fun hheld => ?_⟩
    · have hexec := hgo hfree
      rw [resolveWait_satisfied (s := s.onThread 4 (some (c.slot, c.seq))) hwait hval, if_pos hop] at hexec
      exact ⟨_, hexec, hends ⟨hslot, hseq⟩ St.ok 0⟩
    · have hexec := hgo hfree
      rw [resolveWait_poisoned (s := s.onThread 4 (some (c.slot, c.seq))) hwait hlow hp hw hsig] at hexec
      exact ⟨_, hexec, haborts ⟨hslot, hseq⟩ p⟩
    · have hturn : s.sbTurn c = true := by simp [State.sbTurn, hsb, State.sbFirst, hfifo]
      have hexec := hgo hfree
      rw [((resolveWait_waits (s := s.onThread 4 (some (c.slot, c.seq))) hwait (waitRes_waits hlow hp)).2.1 hout hturn),
        sbLeave_of_nil (s := s.onThread 4 (some (c.slot, c.seq))) _ _ hfifo, htimed] at hexec
      dsimp only at hexec
      refine ⟨_, hexec, ?_⟩
      exact hsets hslot hseq { c with waitUntil := until_, inScoreboard := true } ⟨hslot, hseq⟩
    · have hturn : s.sbTurn c = false := by simp [State.sbTurn, hsb]
      have hnot : ¬ s.fep.sbFifo.contains (c.slot, c.seq) = true := by
        rw [hslot, hseq, List.contains_iff_mem]
        exact hnew
      have hexec := hgo hfree
      rw [((resolveWait_waits (s := s.onThread 4 (some (c.slot, c.seq))) hwait (waitRes_waits hlow hp)).2.2 hout hturn),
        onThread_sbFifo, if_neg hnot, htimed] at hexec
      refine ⟨_, hexec, ?_, ?_⟩
      · rw [← hslot, ← hseq]
        rfl
      · exact (setCmd_cmd _ (c := { c with waitUntil := until_ }) hslot hseq _).trans (if_pos rfl)
    · have hturn : s.sbTurn c = false := by
        have hother : (e == (c.slot, c.seq)) = false := by rw [hslot, hseq]; exact beq_eq_false_iff_ne.2 hne
        simp [State.sbTurn, hfirst, hown, hother]
      have hexec := hgo hfree
      have hres := (resolveWait_waits (s := s.onThread 4 (some (c.slot, c.seq))) hwait (waitRes_waits hlow hp)).2.2 hout hturn
      have hcmd (u : State) : (u.setCmd (timed c)).cmd slot.val seq.toNat = some (timed c) :=
        (setCmd_cmd u (c := timed c) hslot hseq _).trans (if_pos rfl)
      by_cases hin : s.fep.sbFifo.contains (c.slot, c.seq) = true
      · rw [hres.trans (if_pos hin)] at hexec
        refine ⟨_, _, hexec, hcmd _, hout, ?_⟩
        rw [← hslot, ← hseq]
        exact List.contains_iff_mem.1 hin
      · rw [hres.trans (if_neg hin)] at hexec
        refine ⟨_, _, hexec, hcmd _, hout, ?_⟩
        rw [← hslot, ← hseq]
        exact List.mem_append_right _ (List.mem_singleton_self _)
    · have hno : s.fenceOk c = false := Bool.eq_false_iff.2 fun h => hheld (hfence.1 h)
      simp only [exec, execWait, hsix, hno, Bool.false_eq_true, if_false]
  case launch =>
    have hgo : exec (.launchGraph slot seq) s = .next ((s.onThread 4 (some (c.slot, c.seq))).resolveWait c) := by
      simp only [exec, execLaunchGraph, hsix]
    have hnotWait : ¬ c.opcode = opWait := by rw [hop]; decide
    refine ⟨fun hnone => ?_, fun i w hwait => ⟨fun hval => ?_, fun p hlow hp hw hsig => ?_, fun hlow hp hin => ?_⟩⟩
    · have hpass : (s.onThread 4 (some (c.slot, c.seq))).resolveWait c
          = (s.onThread 4 (some (c.slot, c.seq))).setCmd { c with stage := .passed } := by
        unfold State.resolveWait
        rw [hnone]
        dsimp only
        rw [if_neg hnotWait]
      rw [hpass] at hgo
      refine ⟨_, hgo, ?_⟩
      exact hsets hslot hseq { c with stage := .passed } ⟨hslot, hseq⟩
    · rw [resolveWait_satisfied (s := s.onThread 4 (some (c.slot, c.seq))) hwait hval, if_neg hnotWait] at hgo
      exact ⟨_, hgo, hsets hslot hseq { c with stage := .passed, waitSem := none, inScoreboard := false } ⟨hslot, hseq⟩⟩
    · rw [resolveWait_poisoned (s := s.onThread 4 (some (c.slot, c.seq))) hwait hlow hp hw hsig] at hgo
      exact ⟨_, hgo, haborts ⟨hslot, hseq⟩ p⟩
    · rw [(resolveWait_waits (s := s.onThread 4 (some (c.slot, c.seq))) hwait (waitRes_waits hlow hp)).1 hin] at hgo
      exact ⟨_, hgo, onThread_frame ..⟩

end Sys2Proof.Proofs
end

section
/-! PROOFS. Time limits of waits, the scoreboard and the entry to the priority queue (06 R126, R130, 01 R20, 08 R167, R169,
09 R199, R202). -/

namespace Sys2Proof.Proofs
open Sys2Proof Sys2Proof.Machine Sys2Proof.Safety Sys2Proof.Laws

theorem mem_sbLeave (s : State) (slot seq : Nat) (e : Nat × Nat) :
    e ∈ (s.sbLeave slot seq).fep.sbFifo ↔ e ∈ s.fep.sbFifo ∧ e ≠ (slot, seq) := by
  simp only [State.sbLeave, List.mem_filter, bne_iff_ne]

theorem mem_sbLeave_twice (s : State) (slot seq : Nat) (x : Cmd) (e : Nat × Nat) :
    e ∈ (((s.sbLeave slot seq).setCmd x).sbLeave slot seq).fep.sbFifo ↔ e ∈ s.fep.sbFifo ∧ e ≠ (slot, seq) := by
  rw [mem_sbLeave, State.setCmd, mem_sbLeave, and_assoc, and_self]

/-- The command that came first of those that wait for an entry holds none. -/
theorem sbFirst_outside {s : State} {a b : Nat} {c : Cmd} (h : s.sbFirst = some (a, b)) (hc : s.cmd a b = some c) :
    c.inScoreboard = false := by
  have hwaits : s.sbWaits (a, b) = true := by simpa using List.find?_some h
  simp only [State.sbWaits, hc, Bool.and_eq_true, Bool.not_eq_true'] at hwaits
  exact hwaits.2

/-- The first of those that wait takes an entry that is free for it. -/
theorem sbTurn_of_first {s : State} {c : Cmd} (h : s.sbFirst = some (c.slot, c.seq)) (hfree : s.sbFree c.contract = true) :
    s.sbTurn c = true := by
  simp [State.sbTurn, h, hfree]

theorem entryClass_of_lower {s : State} {c : Cmd} (h : c.cls ≠ 0) : s.entryClass c = c.cls := by
  unfold State.entryClass
  split
  · exact if_neg fun hboth => h hboth.1
  · rfl

theorem entryClass_of_standing {s : State} {c : Cmd} {k : Contract} (hk : tabGet s.contracts c.contract = some k)
    (h : k.state ≠ .suspended) : s.entryClass c = c.cls := by
  unfold State.entryClass
  rw [hk]
  split
  case h_1 k' q hk' hq =>
    obtain rfl := Option.some.inj hk'
    exact if_neg fun hboth => h hboth.2
  case h_2 => rfl

theorem entryClass_of_suspended {s : State} {c : Cmd} {k : Contract} {q : Queue} (hc : c.cls = 0)
    (hk : tabGet s.contracts c.contract = some k) (hq : s.queue c.slot = some q) (h : k.state = .suspended) :
    s.entryClass c = q.desc.cls := by
  simp only [State.entryClass, hk, hq, hc, h, and_self, if_true]

/-- A ready command in an entry of the priority queue. -/
def entered (s : State) (c : Cmd) (r : Bool) : Cmd :=
  { c with stage := .queued, pqEntry := some r, cls := s.entryClass c, key := if s.entryClass c = 0 then c.key else s.now }

/-- Settles O25: the time limit of a wait, the scoreboard's next entry, and what a ready command enters with. -/
theorem waitsTimeOutAndReadyCommandsQueue : Obligations.WaitsTimeOutAndReadyCommandsQueue := by
  refine ⟨?timeout, ?oldest, ?idle, ?insert⟩
  case timeout =>
    intro s slot seq c u hc hslot hseq hu hruns hstage hcancel hworks
    have hexec : exec (.waitTimeout slot seq) s = .next (if u ≤ s.now then
        (s.sbLeave c.slot c.seq).setCmd (finishCmd c St.waitTimeout 0) else s) := by
      simp only [exec, execWaitTimeout, hc, hu, hruns, hstage, hcancel, hworks, beq_self_eq_true, Bool.not_false,
        Bool.true_and, decide_eq_true_iff]
    refine ⟨fun hearly => hexec.trans (congrArg _ (if_neg (Nat.not_le.2 hearly))), fun hlate => ?_⟩
    refine ⟨_, hexec.trans (congrArg _ (if_pos hlate)), rfl, ?_, fun e => ?_⟩
    · exact (setCmd_cmd _ (c := finishCmd c St.waitTimeout 0) hslot hseq _).trans (if_pos rfl)
    · rw [← hslot, ← hseq]
      exact mem_sbLeave s c.slot c.seq e
  case oldest =>
    intro s a b i w c hruns hfirst hc ha hb hwait hwaits
    have hout := sbFirst_outside hfirst hc
    refine ⟨fun hfree => ?_, fun hfull => ?_⟩
    · have hturn : s.sbTurn c = true := sbTurn_of_first (by rw [ha, hb]; exact hfirst) hfree
      have hexec : exec .scoreboardAdmit s = .next ((s.resolveWait c).sbLeave a b) := by
        simp only [exec, execScoreboardAdmit, scoreboardAdmit, hruns, hfirst, hc, hwait, hfree, Bool.or_true, if_true]
      rw [(resolveWait_waits hwait hwaits).2.1 hout hturn, ha, hb] at hexec
      refine ⟨_, hexec, rfl, mem_sbLeave_twice s a b _, _,
        (setCmd_cmd _ (c := { timed c with inScoreboard := true }) ha hb _).trans (if_pos rfl), rfl⟩
    · simp only [exec, execScoreboardAdmit, scoreboardAdmit, hruns, hfirst, hc, hwait, hwaits, hfull, bne_self_eq_false,
        Bool.or_false, Bool.false_eq_true, if_false, ite_self]
  case idle =>
    rintro s (hhalted | hnone)
    · simp only [exec, execScoreboardAdmit, hhalted, Bool.false_eq_true, if_false]
    · simp only [exec, execScoreboardAdmit, scoreboardAdmit, State.sbFirst, hnone, List.find?_nil, ite_self]
  case insert =>
    intro s slot seq c hc hslot hseq hruns hworks hready own enters
    have hpq : s.pqReady c = true := by
      rcases hready with ⟨hop, hstage, hcancel⟩ | ⟨hop, hstage, hhead⟩
      · simp only [State.pqReady, hop, hstage, hcancel, if_true]
        rfl
      · have hne : ¬ c.opcode = opLaunch := by
          rcases hop with h | h <;> rw [h] <;> decide
        have hcf : (c.opcode == opCopy || c.opcode == opFill) = true := by simpa using hop
        simp only [State.pqReady, if_neg hne, hcf, hstage, hhead]
        rfl
    have henters (r : Bool) (hr : s.pqChoice c = some r) : enters r := by
      have hexec : exec (.priorityQueueInsert slot seq) s
          = .next ((s.onThread 4 (some (slot.val, seq.toNat))).setCmd (entered s c r)) := by
        simp only [exec, execPriorityQueueInsert, priorityQueueInsert, hc, hruns, hpq, hworks, Bool.and_self, if_true, hr]
        rfl
      have hbecomes := (cmdBecomes_setCmd (s := s) (x := entered s c r) hslot hseq (some (slot.val, seq.toNat))).1
      exact ⟨_, entered s c r, hexec, hbecomes, rfl, entryClass_of_lower, fun k => entryClass_of_standing,
        fun k q => entryClass_of_suspended⟩
    refine ⟨fun hcon hearly hk hown => henters true ?_, fun hunres => ⟨fun hroom => henters false ?_, fun hfull => ?_⟩⟩
    · have hown' : (tabVals s.cmds).any (fun x => x.contract == c.contract && x.pqEntry == some true) = false := hown
      simp only [State.pqChoice, hown', hearly, hk, hcon, ne_eq, not_false_eq_true, decide_true, Bool.not_false, Bool.and_self,
        if_true]
    all_goals
      have hnot : (decide (c.contract ≠ 0) && !c.early && (tabGet s.contracts c.contract).isSome
          && !((tabVals s.cmds).any (fun x => x.contract == c.contract && x.pqEntry == some true))) = false := by
        rcases hunres with h | h | h
        · rw [h]; rfl
        · rw [h, Bool.not_true, Bool.and_false, Bool.false_and, Bool.false_and]
        · rw [show (tabVals s.cmds).any (fun x => x.contract == c.contract && x.pqEntry == some true) = true from h,
            Bool.not_true, Bool.and_false]
    · simp only [State.pqChoice, hnot, Bool.false_eq_true, if_false, if_pos hroom]
    · have hnone : s.pqChoice c = none := by
        simp only [State.pqChoice, hnot, Bool.false_eq_true, if_false, if_neg (Nat.not_lt.2 hfull)]
      simp only [exec, execPriorityQueueInsert, priorityQueueInsert, hc, hruns, hpq, hworks, hnone, Bool.and_self, if_true]

end Sys2Proof.Proofs
end

section
/-! PROOFS. HANDLE_BIND and HANDLE_FREE (04 R87, R90, 06 R127). -/

namespace Sys2Proof.Proofs
open Sys2Proof Sys2Proof.Machine Sys2Proof.Safety Sys2Proof.Laws

theorem handleReady_of_turn {s : State} {slot seq op : Nat} {c : Cmd} (h : HandleTurn s slot seq op c) :
    s.handleReady slot seq op = some (beginCmd c s.now) := by
  obtain ⟨hc, _, _, hop, hruns, haccepted, hstage, heffect, hcancel, hworks, hfence, hearlier⟩ := h
  simp only [State.handleReady, hc, hop, hruns, haccepted, hstage, heffect, hcancel, hworks, hfence, hearlier, beq_self_eq_true,
    Bool.not_false, Bool.and_self, if_true]

/-- A handle entry written: its words good, the cache without it, the other entries and instances as they were. -/
theorem setHandle_frame (s : State) (n i : Nat) (h : Handle) :
    s.setHandle n i h = { s with
      insts := (s.setHandle n i h).insts
      fep := { s.fep with hcache := (s.setHandle n i h).fep.hcache }
      mem := { s.mem with bad := (s.setHandle n i h).mem.bad } } := rfl

theorem setHandle_inst (s : State) (n i : Nat) (h : Handle) :
    (s.setHandle n i h).inst n = { s.inst n with handles := tabSet (s.inst n).handles i h } :=
  updInst_inst_same s n fun t => { t with handles := tabSet t.handles i h }

theorem setHandle_inst_other (s : State) {n m : Nat} (i : Nat) (h : Handle) (hm : m ≠ n) :
    (s.setHandle n i h).inst m = s.inst m :=
  updInst_inst_other s (fun t => { t with handles := tabSet t.handles i h }) hm

theorem setHandle_handle (s : State) (n i : Nat) (h : Handle) : (s.setHandle n i h).handle n i = h := by
  rw [State.handle, setHandle_inst]
  exact tabGetD_set_same ..

theorem setHandle_handle_other (s : State) {n i j : Nat} (h : Handle) (hj : j ≠ i) :
    (s.setHandle n i h).handle n j = s.handle n j := by
  rw [State.handle, setHandle_inst]
  exact tabGetD_set_other _ _ _ hj

theorem mem_setHandle_hcache (s : State) (n i : Nat) (h : Handle) (e : Nat × Handle) :
    e ∈ (s.setHandle n i h).fep.hcache ↔ e ∈ s.fep.hcache ∧ e.1 ≠ n * 4096 + i := by
  simp only [State.setHandle, updInst_fep, List.mem_filter, bne_iff_ne]

/-- Settles O26: each command on an entry that is bound and on one that is not. -/
theorem handlesAreBoundAndFreed : Obligations.HandlesAreBoundAndFreed := by
  intro s slot seq c i h done others
  have hothers (x : Handle) (y : Cmd) : others ((s.setHandle c.inst i x).setCmd y) :=
    ⟨by rw [setHandle_frame]; rfl, mem_setHandle_hcache s c.inst i x, fun m hm => setHandle_inst_other s i x hm,
      fun j hj => setHandle_handle_other s x hj, by rw [setCmd_inst, setHandle_inst]⟩
  have hdone (t : State) (st : Status) (r : BitVec 64) (hat : c.slot = slot.val ∧ c.seq = seq.toNat) :
      done (t.setCmd { finishCmd (beginCmd c s.now) st r with effectDone := true }) st r :=
    (setCmd_cmd t (c := { finishCmd (beginCmd c s.now) st r with effectDone := true }) hat.1 hat.2 _).trans (if_pos rfl)
  refine ⟨fun hturn => ?bind, fun hturn => ?free⟩
  all_goals
    have hready := handleReady_of_turn hturn
    obtain ⟨hc, hslot, hseq, -⟩ := hturn
  case bind =>
    have hexec : exec (.handleBind slot seq) s = .next (if h.bound then
        s.setCmd { finishCmd (beginCmd c s.now) St.handleBusy 0 with effectDone := true }
      else (s.setHandle c.inst i ⟨field c.bytes 16 6, field c.bytes 24 5, h.gen, bit (field c.bytes 8 2) 12,
            bit (field c.bytes 8 2) 13, true⟩).setCmd
        { finishCmd (beginCmd c s.now) St.ok ((handleValue i h.gen).setWidth 64) with effectDone := true }) := by
      simp only [exec, execHandleBind, hready]
      exact (apply_ite _ _ _ _).symm
    refine ⟨fun hnew => ⟨_, hexec.trans (congrArg _ (if_neg (by rw [hnew]; exact Bool.false_ne_true))), hothers _ _,
      hdone _ _ _ ⟨hslot, hseq⟩, setHandle_handle ..⟩, fun hbound => ⟨_, hexec.trans (congrArg _ (if_pos hbound)), rfl,
      hdone _ _ _ ⟨hslot, hseq⟩⟩⟩
  case free =>
    have hexec : exec (.handleFree slot seq) s = .next (if !h.bound || h.gen != field c.bytes 10 4 / 4096 then
        s.setCmd { finishCmd (beginCmd c s.now) St.handleStale 0 with effectDone := true }
      else (s.setHandle c.inst i (freeHandle h)).setCmd { finishCmd (beginCmd c s.now) St.ok 0 with effectDone := true }) := by
      simp only [exec, execHandleFree, hready]
      exact (apply_ite _ _ _ _).symm
    refine ⟨fun hbound hgen => ?_, fun hstale => ?_⟩
    · have hgo : ¬ (!h.bound || h.gen != field c.bytes 10 4 / 4096) = true := by rw [hbound, ← hgen, bne_self_eq_false]; decide
      exact ⟨_, hexec.trans (congrArg _ (if_neg hgo)), hothers _ _, hdone _ _ _ ⟨hslot, hseq⟩, setHandle_handle ..⟩
    · have hno : (!h.bound || h.gen != field c.bytes 10 4 / 4096) = true := by
        rcases hstale with hs | hs
        · rw [hs]; rfl
        · rw [bne_iff_ne.2 hs, Bool.or_true]
      exact ⟨_, hexec.trans (congrArg _ (if_pos hno)), rfl, hdone _ _ _ ⟨hslot, hseq⟩⟩

end Sys2Proof.Proofs
end

section
/-! PROOFS. Extents written through the MMU; COPY and FILL (04 R71, R74, R79, R81, 06 R126, R127, R134). -/

namespace Sys2Proof.Proofs
open Sys2Proof Sys2Proof.Machine Sys2Proof.Safety Sys2Proof.Laws

theorem wf_of_view {s t : State} (h : view t = view s) (hwf : Memory.wf s = true) : Memory.wf t = true := by
  obtain ⟨hpriv, hkeep⟩ := memSame_of_view h
  simpa only [Memory.wf, hpriv, hkeep] using hwf

theorem storePriv_wf {s : State} (hwf : Memory.wf s = true) (n a : Nat) (bs : List Byte) :
    Memory.wf (s.storePriv n a bs) = true := by
  obtain ⟨w, hw⟩ := chargePriv_eq s n a bs.length
  simp only [Memory.wf, Bool.and_eq_true] at hwf
  obtain ⟨hpriv, hkeep⟩ := hwf
  rw [storePriv_eq, hw, storedIn_eq]
  simp only [Memory.wf, hkeep, Bool.and_true]
  exact cellWriteN_wf hpriv a bs

-- What writing an extent changes (04 R71, R74, R79) -------------------------------------------------------------------

/-- Only memory, the instances' caches and faults, the counts, and what waits on the host link differ. -/
def ExtentOnly (s t : State) : Prop := t = { s with
  mem := t.mem
  insts := t.insts
  dict := t.dict
  link := { s.link with posted := t.link.posted, outstanding := t.link.outstanding } }

theorem ExtentOnly.trans {a b c : State} (h : ExtentOnly a b) (k : ExtentOnly b c) : ExtentOnly a c := by
  unfold ExtentOnly at *
  rw [k, h]

theorem CachesOnly.extentOnly {s t : State} (h : CachesOnly s t) : ExtentOnly s t := by
  obtain ⟨heq, _⟩ := h
  rw [heq]
  rfl

theorem extentOnly_storePriv (s : State) (n a : Nat) (bs : List Byte) : ExtentOnly s (s.storePriv n a bs) := by
  obtain ⟨hframe, _⟩ := storePriv_frame s n a bs
  rw [hframe]
  rfl

theorem extentOnly_askXlat (s : State) (n : Nat) (w : Waiting) : ExtentOnly s (s.askXlat n w) := by
  unfold State.askXlat
  split <;> rfl

theorem extentOnly_hostPost (s : State) (n a : Nat) (bs : List Byte) (fuel : Nat) : ExtentOnly s (s.hostPost n a bs fuel) := by
  induction fuel generalizing s a bs with
  | zero => rfl
  | succ fuel ih =>
    unfold State.hostPost
    split
    · rfl
    split
    · rfl
    dsimp only
    split
    · exact ExtentOnly.trans (b := s.post _) rfl (ih ..)
    · exact (extentOnly_askXlat ..).trans (ih ..)

/-- Writing an extent: what it changes, that memory keeps its form, and the bytes that it does not cover. -/
theorem writeExtent_frame {s : State} (hwf : Memory.wf s = true) (n dva : Nat) (bs : List Byte) (fuel : Nat) :
    ExtentOnly s (s.writeExtent n dva bs fuel).1
    ∧ ∀ a, (∀ e ∈ storesTo s n dva bs fuel, a < e.1 ∨ e.1 + e.2 ≤ a) → (s.writeExtent n dva bs fuel).1.readPriv a = s.readPriv a := by
  induction fuel generalizing s dva bs with
  | zero => exact ⟨rfl, fun _ _ => rfl⟩
  | succ fuel ih =>
    by_cases hnil : bs.length = 0
    · simp only [State.writeExtent, hnil, if_true]
      exact ⟨rfl, fun _ _ => trivial⟩
    have hxview := view_State_xlated s n 19 dva
    have hxwf := wf_of_view hxview hwf
    obtain ⟨hxreads, _⟩ := (memSame_of_view hxview).reads
    have hxonly := (cachesOnly_xlated s n 19 dva).extentOnly
    simp only [State.writeExtent, storesTo, hnil, if_false]
    cases s.translate n dva true with
    | fault st lvl => exact ⟨rfl, fun _ _ => rfl⟩
    | priv a =>
      dsimp only
      generalize min bs.length (65536 - dva % 65536) = k
      obtain ⟨honly, hreads⟩ := ih (storePriv_wf hxwf n a (bs.take k)) (dva + k) (bs.drop k)
      obtain ⟨_, hstored⟩ := storePriv_bytes hxwf n a (bs.take k)
      refine ⟨(hxonly.trans (extentOnly_storePriv ..)).trans honly, fun x hx => ?_⟩
      obtain ⟨hhere, hlater⟩ := List.forall_mem_cons.1 hx
      have hlen : (bs.take k).length ≤ k := List.length_take_le ..
      rw [hreads x hlater, hstored x (hhere.imp_right fun h => Nat.le_trans (Nat.add_le_add_left hlen a) h), hxreads]
    | host a =>
      dsimp only
      generalize min bs.length (65536 - dva % 65536) = k
      split
      · have hview := (view_State_hostPost (s.xlated n 19 dva) n a (bs.take k) (k / 4096 + 2)).trans hxview
        obtain ⟨honly, hreads⟩ := ih (wf_of_view hview hwf) (dva + k) (bs.drop k)
        refine ⟨(hxonly.trans (extentOnly_hostPost ..)).trans honly, fun x hx => ?_⟩
        rw [hreads x hx]
        exact (memSame_of_view hview).reads.1 x
      · exact ⟨rfl, fun _ _ => rfl⟩

/-- Bytes written within one page of private memory are there. -/
theorem writeDva_page {s u : State} (hwf : Memory.wf s = true) {n dva a : Nat} {bs : List Byte} {f : Option XFault}
    (hu : s.writeDva n dva bs = (u, f)) (ha : s.translate n dva true = .priv a) (hpage : dva % 65536 + bs.length ≤ 65536) :
    u.readPrivN a bs.length = bs := by
  by_cases hnil : bs.length = 0
  · rw [List.length_eq_zero_iff.1 hnil]
    rfl
  have hk : min bs.length (65536 - dva % 65536) = bs.length := by omega
  have hrest (t : State) (n dva fuel : Nat) : t.writeExtent n dva [] (fuel + 1) = (t, none) := if_pos rfl
  have hfuel : pagesOf bs.length = bs.length / 65536 + 1 + 1 := rfl
  rw [State.writeDva, hfuel, State.writeExtent, if_neg hnil, ha] at hu
  dsimp only at hu
  rw [hk, List.take_length, List.drop_length, hrest] at hu
  obtain ⟨rfl, _⟩ := Prod.mk.inj hu
  exact (storePriv_bytes (wf_of_view (view_State_xlated ..) hwf) n a bs).1

-- A command of the FEP that an access ends (04 R81, 18 R380) ----------------------------------------------------------

theorem resetStream_done (s : State) (k : Nat) :
    (s.resetStream k).hostBytes k = [] ∧ (s.resetStream k).streamErr k = none := by
  constructor
  · simp [State.resetStream, State.hostBytes, tabGetD]
  · simp [State.resetStream, State.streamErr]

theorem fepFault_ends {s : State} {c : Cmd} {slot k : Nat} (hslot : c.slot = slot) (hseq : c.seq = k) (f : XFault) (w : Bool)
    (hst : St.isGuilty f.status = false) :
    (s.fepFault c f w).cmd slot k = some { finishCmd c f.status 0 with chan := none } := by
  simp only [State.fepFault, hst, Bool.false_eq_true, if_false]
  exact (setCmd_cmd _ (c := { finishCmd c f.status 0 with chan := none }) hslot hseq _).trans (if_pos rfl)

theorem fepFault_guilty {s : State} {c : Cmd} {slot : Nat} {seq : BitVec 32} (hslot : c.slot = slot) (hseq : c.seq = seq.toNat)
    (hclean : Clean s slot) (f : XFault) (w : Bool) (hst : St.isGuilty f.status = true) :
    GuiltyAt (s.fepFault c f w) slot seq f.status := by
  obtain ⟨q, hq, hguilty, hsaid, hreset, habort⟩ := hclean
  have hfault : s.fepFault c f w
      = State.cmdGuilty ((s.resetStream (512 + c.chan.getD 0)).mmuFault c.inst f w 0 0 c.slot c.seq) c f.status := by
    simp only [State.fepFault, hst, if_true]
  have hqueues := (toldOnly_mmuFault (s.resetStream (512 + c.chan.getD 0)) c.inst f w 0 0 c.slot c.seq).queues
  rw [hfault, State.cmdGuilty, hslot, hseq, BitVec.ofNat_toNat, BitVec.setWidth_eq]
  rw [hslot, hseq] at hqueues
  refine makeGuilty_guilty ?_ hguilty hsaid hreset habort seq _ _ _ _
  rw [State.queue, hqueues]
  exact hq

theorem chanDone_done (s : State) {c : Cmd} {slot k : Nat} (hslot : c.slot = slot) (hseq : c.seq = k) (ch : Nat) :
    s.chanDone c ch = { s with
      cmds := (s.chanDone c ch).cmds
      fep := { s.fep with hostIn := (s.chanDone c ch).fep.hostIn, readErr := (s.chanDone c ch).fep.readErr } }
    ∧ (s.chanDone c ch).hostBytes (512 + ch) = [] ∧ (s.chanDone c ch).streamErr (512 + ch) = none
    ∧ (s.chanDone c ch).cmd slot k = some { finishCmd c St.ok 0 with chan := none } := by
  obtain ⟨hbytes, herr⟩ := resetStream_done s (512 + ch)
  exact ⟨rfl, hbytes, herr, (setCmd_cmd _ (c := { finishCmd c St.ok 0 with chan := none }) hslot hseq _).trans (if_pos rfl)⟩

theorem onChannel_eq {s : State} {slot seq op ch : Nat} {c : Cmd} (h : OnChannel s slot seq op c ch) :
    s.onChannel slot seq op = some (c, ch) := by
  obtain ⟨hc, _, _, hop, hruns, hstage, hchan, hcancel, hout, hspent⟩ := h
  simp only [State.onChannel, hc, hchan, hop, hruns, hstage, hcancel, hout, hspent, beq_self_eq_true, Bool.not_false,
    List.isEmpty_nil, Bool.and_self, if_true]

-- O27 -----------------------------------------------------------------------------------------------------------------

/-- Settles O27: a COPY and a FILL by what their reads and writes meet. -/
theorem copyAndFillWriteTheirDestination : Obligations.CopyAndFillWriteTheirDestination := by
  intro s slot seq c ch hwf done fails
  have hfails {u : State} {op : Instr} {f : XFault} {w : Bool} (hat : c.slot = slot.val ∧ c.seq = seq.toNat) (hu : view u = view s)
      (hqueues : u.queues = s.queues) (hexec : exec op s = .next (u.fepFault c f w)) : fails op f.status := by
    have hstill : Still s (u.fepFault c f w) := still_of_view ((view_State_fepFault ..).trans hu)
    refine ⟨fun hst => ⟨_, hexec, hstill, fepFault_ends hat.1 hat.2 f w hst⟩, fun hst hclean => ⟨_, hexec, hstill, ?_⟩⟩
    refine fepFault_guilty hat.1 hat.2 ?_ f w hst
    simpa only [Clean, State.queue, hqueues] using hclean
  have hdone (u : State) (hat : c.slot = slot.val ∧ c.seq = seq.toNat) : done (u.chanDone c ch) u := chanDone_done u hat.1 hat.2 ch
  have hreads {u v : State} {n dva : Nat} {bs : List Byte} {f : Option XFault} (hu : Memory.wf u = true)
      (hv : u.writeDva n dva bs = (v, f)) : ExtentOnly u v ∧ OnlyStores u v n dva bs := by
    have hframe := writeExtent_frame hu n dva bs (pagesOf bs.length)
    rw [show u.writeExtent n dva bs (pagesOf bs.length) = (v, f) from hv] at hframe
    exact hframe
  have hland (u : State) (a n : Nat) : (u.chanDone c ch).readPrivN a n = u.readPrivN a n := rfl
  refine ⟨fun hon src dst hdvas => ?copy, fun hon dst hdvas => ?fill⟩
  all_goals
    have honch := onChannel_eq hon
    obtain ⟨hc, hslot, hseq, -, -, -, hchan, -⟩ := hon
    have hat : c.slot = slot.val ∧ c.seq = seq.toNat := ⟨hslot, hseq⟩
  case copy =>
    intro len s1
    have hview : view s1 = view s := view_State_chargeRead ..
    have hwf1 : Memory.wf s1 = true := wf_of_view hview hwf
    refine ⟨fun st herr => hfails (u := s) (f := ⟨st, src, 0⟩) (w := false) hat rfl rfl ?_, fun hnoerr => ⟨fun bs rest hbytes =>
      ⟨fun hapart u hu => ?_, fun hover u hu => ?_⟩, fun hshort => ?_, fun f hfault => hfails (u := s) (w := false) hat rfl rfl ?_⟩⟩
    · simp only [exec, execCopy, honch, copyRun, hdvas, herr]
    · have hexec : exec (.copy slot seq) s = .next (u.chanDone c ch) := by
        have hcopy : copyBytes c bs s1 = (bs, s1) := by
          simp only [copyBytes, hdvas, hapart, Bool.false_eq_true, if_false]
        have hb : s.readDva c.inst src (field c.bytes 32 8) (s.hostBytes (512 + ch)) = .bytes bs rest := hbytes
        have hcopy' : copyBytes c bs (s.chargeRead c.inst src (field c.bytes 32 8)) = (bs, s1) := hcopy
        simp only [exec, execCopy, honch, copyRun, hdvas, hnoerr, hb, hcopy', hu]
      obtain ⟨_, honly⟩ := hreads hwf1 hu
      refine ⟨_, hexec, hdone u hat, honly, (memSame_of_view hview).reads.1, fun a ha hpage => ?_⟩
      exact (hland u a _).trans (writeDva_page hwf1 hu ha hpage)
    · have hexec : exec (.copy slot seq) s = .next (u.chanDone c ch) := by
        have hb : s.readDva c.inst src (field c.bytes 32 8) (s.hostBytes (512 + ch)) = .bytes bs rest := hbytes
        have hcopy : copyBytes c bs (s.chargeRead c.inst src (field c.bytes 32 8)) = freeBytes bs.length s1 := by
          simp only [copyBytes, hdvas, hover, if_true]
          rfl
        simp only [exec, execCopy, honch, copyRun, hdvas, hnoerr, hb, hcopy, hu]
      obtain ⟨_, honly⟩ := hreads (wf_of_view (view_freeBytes ..) hwf1) hu
      exact ⟨_, hexec, hdone u hat, honly⟩
    · have hb : s.readDva c.inst src (field c.bytes 32 8) (s.hostBytes (512 + ch)) = .short := hshort
      simp only [exec, execCopy, honch, copyRun, hdvas, hnoerr, hb]
    · have hb : s.readDva c.inst src (field c.bytes 32 8) (s.hostBytes (512 + ch)) = .fault f := hfault
      simp only [exec, execCopy, honch, copyRun, hdvas, hnoerr, hb]
  case fill =>
    intro bs
    refine ⟨fun st herr => hfails (u := s) (f := ⟨st, dst, 0⟩) (w := true) hat rfl rfl ?_, fun hnoerr =>
      ⟨fun u hu => ?_, fun u f hu => ?_⟩⟩
    · simp only [exec, execFill, honch, hdvas, herr]
    · have hw : s.writeDva c.inst dst (fillBytes (field c.bytes 12 4) (field c.bytes 24 8)) = (u, none) := hu
      have hexec : exec (.fill slot seq) s = .next (u.chanDone c ch) := by
        simp only [exec, execFill, honch, hdvas, hnoerr, hw]
      exact ⟨_, hexec, hdone u hat, (hreads hwf hu).2, fun a ha hpage =>
        (hland u a _).trans (writeDva_page hwf hu ha hpage)⟩
    · have hw : s.writeDva c.inst dst (fillBytes (field c.bytes 12 4) (field c.bytes 24 8)) = (u, some f) := hu
      have hexec : exec (.fill slot seq) s = .next (u.fepFault c f true) := by
        simp only [exec, execFill, honch, hdvas, hnoerr, hw]
      obtain ⟨hextent, honly⟩ := hreads hwf hu
      have hstores : OnlyStores s (u.fepFault c f true) c.inst dst bs := fun a ha =>
        ((memSame_of_view (view_State_fepFault ..)).reads.1 a).trans (honly a ha)
      refine ⟨fun hst => ⟨_, hexec, hstores, fepFault_ends hslot hseq f true hst⟩, fun hst hclean => ⟨_, hexec, ?_, hstores⟩⟩
      refine fepFault_guilty hslot hseq ?_ f true hst
      rw [hextent]
      exact hclean

end Sys2Proof.Proofs
end

section
/-! PROOFS. PATCH (07 R146, R150, R151, 06 R123, R127): the turn for the build, the source's faults and the pages built. -/

namespace Sys2Proof.Proofs
open Sys2Proof Sys2Proof.Machine Sys2Proof.Safety Sys2Proof.Laws

-- The pages of a new version (07 R146, R150) --------------------------------------------------------------------------

theorem putPages_frame (s : State) (fresh : List Nat) (bs : List Byte) :
    s.putPages fresh bs = { s with pages := (s.putPages fresh bs).pages }
    ∧ ∀ p, p ∉ fresh → tabGet (s.putPages fresh bs).pages p = tabGet s.pages p := by
  induction fresh generalizing s bs with
  | nil => exact ⟨rfl, fun _ _ => rfl⟩
  | cons x l ih =>
    obtain ⟨hframe, hpages⟩ := ih { s with pages := tabSet s.pages x (padTo 256 (bs.take 256)) } (bs.drop 256)
    refine ⟨hframe, fun p hp => ?_⟩
    rw [List.mem_cons, not_or] at hp
    exact (hpages p hp.2).trans (tabGet_set_other _ _ hp.1)

/-- The 256-byte pages that a PATCH of these bytes touches. -/
def patchSpan (c : Cmd) (bs : List Byte) : Nat := (field c.bytes 24 4 + bs.length - 1) / 256 + 1 - field c.bytes 24 4 / 256

/-- The quota of the instance holds the pages touched. -/
def PatchRoom (s : State) (c : Cmd) (bs : List Byte) : Prop :=
  s.storeCharge c.inst + patchSpan c bs ≤ (s.inst c.inst).limits.storeKiB * 4

/-- A PATCH whose build fails: the graph has no builder, and the command its status. -/
def buildFails (s : State) (c : Cmd) (g : Graph) (st : Status) : State :=
  (s.setGraph c.inst c.graph { g with builder := none }).refuse { c with chan := none } st

theorem buildPatch_full {s : State} {c : Cmd} (g : Graph) (cur : GVersion) {bs : List Byte}
    (h : ¬ PatchRoom s c bs ∨ freePages (tabKeys s.pages) 0 s.storePages (patchSpan c bs) = none) :
    s.buildPatch c g cur bs = buildFails s c g St.graphStoreFull := by
  unfold State.buildPatch
  by_cases hroom : PatchRoom s c bs
  · refine (if_neg (Nat.not_lt.2 hroom)).trans ?_
    have hnone := h.resolve_left fun hno => hno hroom
    unfold patchSpan at hnone
    rw [hnone]
    rfl
  · exact if_pos (Nat.not_le.1 hroom)

theorem buildPatch_of_pages {s : State} {c : Cmd} (g : Graph) (cur : GVersion) {bs : List Byte} {fresh : List Nat}
    (hroom : PatchRoom s c bs) (hfresh : freePages (tabKeys s.pages) 0 s.storePages (patchSpan c bs) = some fresh) :
    s.buildPatch c g cur bs = if !streamsOk g.fixed (patched (s.patchBytes cur) (field c.bytes 24 4) bs) then
        buildFails s c g St.graphLimits
      else (s.putPages fresh (((patched (s.patchBytes cur) (field c.bytes 24 4) bs).drop (256 * (field c.bytes 24 4 / 256))).take
        (256 * patchSpan c bs))).setCmd { c with
          built := some (newPageMap cur.pages (field c.bytes 24 4 / 256) ((field c.bytes 24 4 + bs.length - 1) / 256) fresh)
          chan := none } := by
  unfold State.buildPatch
  refine (if_neg (Nat.not_lt.2 hroom)).trans ?_
  unfold patchSpan at hfresh
  rw [hfresh]
  rfl

-- A PATCH that ends (07 R150, 06 R134) --------------------------------------------------------------------------------

/-- A state that differs in nothing that PATCH looks up beside its graph's builder. -/
theorem refuse_patch {s u : State} {c : Cmd} {slot k : Nat} (hslot : c.slot = slot) (hseq : c.seq = k) (st : Status)
    (hview : view u = view s) (hpages : u.pages = s.pages) (hfiled : Filed u slot) :
    Still s (u.refuse { c with chan := none } st) ∧ (u.refuse { c with chan := none } st).pages = s.pages
    ∧ ∃ r, (u.refuse { c with chan := none } st).cmd slot k = some { finishCmd { c with chan := none } st 0 with resv := r } := by
  obtain ⟨hframe, hcmd⟩ := refuse_cmd (c := { c with chan := none }) hslot hseq st hfiled
  refine ⟨still_of_view ((view_State_refuse ..).trans hview), ?_, hcmd⟩
  rw [hframe]
  exact hpages

/-- A PATCH whose source's fault has been recorded: its channel and its build are free. -/
def patchFaulted (s : State) (c : Cmd) (g : Graph) (ch : Nat) (f : XFault) : State :=
  (((s.setGraph c.inst c.graph { g with builder := none }).resetStream (512 + ch)).setCmd { c with chan := none }).mmuFault
    c.inst f false 0 0 c.slot c.seq

theorem patchFaulted_frame (s : State) (c : Cmd) (g : Graph) (ch : Nat) (f : XFault) :
    view (patchFaulted s c g ch f) = view s ∧ (patchFaulted s c g ch f).pages = s.pages
    ∧ (patchFaulted s c g ch f).queues = s.queues
    ∧ (patchFaulted s c g ch f).cmds = (s.setCmd { c with chan := none }).cmds := by
  obtain ⟨_, htold⟩ := toldOnly_mmuFault (((s.setGraph c.inst c.graph { g with builder := none }).resetStream
    (512 + ch)).setCmd { c with chan := none }) c.inst f false 0 0 c.slot c.seq
  refine ⟨by simp [patchFaulted], ?_⟩
  rw [patchFaulted, htold]
  exact ⟨rfl, rfl, rfl⟩

/-- The source of a PATCH met an error. -/
theorem patchFault_ends {s : State} {c : Cmd} (g : Graph) (ch : Nat) {slot : Nat} {seq : BitVec 32} (hslot : c.slot = slot)
    (hseq : c.seq = seq.toNat) (f : XFault) :
    (St.isGuilty f.status = false → Filed s slot → (s.patchFault c g ch f).pages = s.pages
      ∧ ∃ r, (s.patchFault c g ch f).cmd slot seq.toNat = some { finishCmd { c with chan := none } f.status 0 with resv := r })
    ∧ (St.isGuilty f.status = true → Clean s slot → GuiltyAt (s.patchFault c g ch f) slot seq f.status) := by
  obtain ⟨hview, hpages, hqueues, hcmds⟩ := patchFaulted_frame s c g ch f
  have heq : s.patchFault c g ch f = if St.isGuilty f.status then
      (patchFaulted s c g ch f).cmdGuilty { c with chan := none } f.status
    else (patchFaulted s c g ch f).refuse { c with chan := none } f.status := rfl
  refine ⟨fun hst hfiled => ?_, fun hst hclean => ?_⟩
  · rw [heq, hst, if_neg Bool.false_ne_true]
    have hfiled' : Filed (patchFaulted s c g ch f) slot := by
      unfold Filed State.cmd
      rw [hcmds]
      exact filed_setCmd (x := { c with chan := none }) hslot hfiled
    exact (refuse_patch hslot hseq f.status hview hpages hfiled').2
  · rw [heq, hst, if_pos rfl]
    obtain ⟨q, hq, hguilty, hsaid, hreset, habort⟩ := hclean
    rw [State.cmdGuilty, hslot, hseq, BitVec.ofNat_toNat, BitVec.setWidth_eq]
    refine makeGuilty_guilty ?_ hguilty hsaid hreset habort seq _ _ _ _
    rw [State.queue, hqueues]
    exact hq

-- O28 -----------------------------------------------------------------------------------------------------------------

/-- A PATCH that takes its graph's build and a copy channel. -/
def patchStarts (s : State) (c : Cmd) (g : Graph) (ws : List (Nat × Nat)) (ch : Nat) : State :=
  ((s.setGraph c.inst c.graph { g with builder := some (c.slot, c.seq), waiters := ws.filter (· != (c.slot, c.seq)) }).resetStream
    (512 + ch)).setCmd { beginCmd c s.now with chan := some ch }

/-- Settles O28: a PATCH before it has its turn, and the holder of its graph's build. -/
theorem patchBuildsTheNewVersion : Obligations.PatchBuildsTheNewVersion := by
  intro s slot seq c g cur hc hslot hseq hruns hop hstage hbuilt hg hcur me ws
  have hpatch : exec (.patch slot seq) s = .next (patchRun c s) := by
    simp only [exec, execPatch, hc, hruns, hop, hstage, beq_self_eq_true, Bool.and_self, if_true]
  have hwaiters : (if g.waiters.contains (c.slot, c.seq) then g.waiters else g.waiters ++ [(c.slot, c.seq)]) = ws := by
    have hme : (c.slot, c.seq) = me := by rw [hslot, hseq]
    rw [hme]
    exact if_congr List.contains_iff_mem rfl rfl
  refine ⟨fun hchan => ?waits, fun ch hchan hout hspent => ?holds⟩
  case waits =>
    intro turn
    have hturn : (g.builder.isSome || ws.head? != some (c.slot, c.seq) || decide (g.versions.length > 7) || !s.fenceOk c) = false
        ↔ turn := by
      rw [hslot, hseq]
      simp only [Bool.or_eq_false_iff, Option.isSome_eq_false_iff, Option.isNone_iff_eq_none, bne_eq_false_iff_eq,
        decide_eq_false_iff_not, Nat.not_lt, Bool.not_eq_false', and_assoc, turn, me]
    have hwaits (hno : ¬ turn ∨ lowestFree s.chansUsed 0 4 = none) :
        patchRun c s = s.setGraph c.inst c.graph { g with waiters := ws } := by
      cases hlow : lowestFree s.chansUsed 0 4 with
      | none => simp only [patchRun, hg, hcur, hbuilt, hchan, hlow, hwaiters, Option.isSome_none, Bool.false_eq_true, if_false]
      | some ch =>
        have hnot := hno.resolve_right (by rw [hlow]; exact fun h => nomatch h)
        rw [← hturn, Bool.not_eq_false] at hnot
        simp only [patchRun, hg, hcur, hbuilt, hchan, hlow, hwaiters, hnot, Option.isSome_none, Bool.false_eq_true, if_false,
          if_true]
    refine ⟨fun ch hgo hlow => ?_, fun hno => hpatch.trans (congrArg _ (hwaits hno))⟩
    have hgo' := hturn.2 hgo
    have hstart : patchRun c s = State.patchBuild (patchStarts s c g ws ch) { beginCmd c s.now with chan := some ch }
        { g with builder := some me, waiters := ws.filter (· != me) } cur ch := by
      simp only [patchRun, hg, hcur, hbuilt, hchan, hlow, hwaiters, hgo', Option.isSome_none, Bool.false_eq_true, if_false]
      rw [patchStarts, hslot, hseq]
    have hcmd : (patchStarts s c g ws ch).cmd slot.val seq.toNat = some { beginCmd c s.now with chan := some ch } :=
      (setCmd_cmd _ (c := { beginCmd c s.now with chan := some ch }) hslot hseq _).trans (if_pos rfl)
    have hgraph : (patchStarts s c g ws ch).graph c.inst c.graph
        = some { g with builder := some (c.slot, c.seq), waiters := ws.filter (· != (c.slot, c.seq)) } := by
      show tabGet ((s.updInst c.inst fun i => { i with graphs := tabSet i.graphs c.graph _ }).inst c.inst).graphs c.graph = _
      rw [updInst_inst_same]
      exact tabGet_set_same ..
    have hruns' : (patchStarts s c g ws ch).fepRuns = true := hruns
    have hexec : exec (.patch slot seq) (patchStarts s c g ws ch)
        = .next (patchRun { beginCmd c s.now with chan := some ch } (patchStarts s c g ws ch)) := by
      simp only [exec, execPatch, hcmd, hruns', hop, hstage, beginCmd, beq_self_eq_true, Bool.and_self, if_true]
    have hbuild : patchRun { beginCmd c s.now with chan := some ch } (patchStarts s c g ws ch)
        = State.patchBuild (patchStarts s c g ws ch) { beginCmd c s.now with chan := some ch }
          { g with builder := some me, waiters := ws.filter (· != me) } cur ch := by
      have hcur' (b : Option (Nat × Nat)) (l : List (Nat × Nat)) :
          g.current.bind (graphVersion? { g with builder := b, waiters := l }) = some cur := hcur
      simp only [patchRun, beginCmd, hgraph, hcur', hbuilt, Option.isSome_none, Bool.false_eq_true, if_false]
      rw [hslot, hseq]
    rw [hpatch, hstart, ← hbuild, ← hexec, patchStarts, hslot, hseq]
  case holds =>
    intro len src fails failsOrGuilty
    have hgo : exec (.patch slot seq) s = .next (s.patchBuild c g cur ch) := by
      rw [hpatch]
      simp only [patchRun, hg, hcur, hbuilt, hchan, Option.isSome_none, Bool.false_eq_true, if_false]
    have hbusy : (!(s.fepOut (512 + ch)).isEmpty || s.privSpent c.inst) = false := by rw [hout, hspent]; rfl
    have hfault (f : XFault) (hexec : s.patchBuild c g cur ch = s.patchFault c g ch f) : failsOrGuilty f.status := by
      rw [hexec] at hgo
      obtain ⟨hends, hguilty⟩ := patchFault_ends (s := s) g ch hslot hseq f
      have hstill : Still s (s.patchFault c g ch f) := still_of_view (view_State_patchFault ..)
      refine ⟨fun hst hfiled => ?_, fun hst hclean => ⟨_, hgo, hstill, hguilty hst hclean⟩⟩
      obtain ⟨hpages, r, hcmd⟩ := hends hst hfiled
      exact ⟨_, _, hgo, hstill, hpages, hcmd, rfl, rfl, rfl⟩
    refine ⟨fun st herr => hfault ⟨st, c.dvas.headD 0, 0⟩ ?_, fun hnoerr => ⟨fun hshort => ?_, fun f hf => hfault f ?_,
      fun bs rest hbytes => ?_⟩⟩
    · simp only [State.patchBuild, hbusy, herr, Bool.false_eq_true, if_false]
    · have hb : s.readDva c.inst (c.dvas.headD 0) (field c.bytes 28 4) (s.hostBytes (512 + ch)) = .short := hshort
      rw [hgo]
      simp only [State.patchBuild, hbusy, hnoerr, hb, Bool.false_eq_true, if_false]
    · have hb : s.readDva c.inst (c.dvas.headD 0) (field c.bytes 28 4) (s.hostBytes (512 + ch)) = .fault f := hf
      simp only [State.patchBuild, hbusy, hnoerr, hb, Bool.false_eq_true, if_false]
    · intro tgt lo hi k room
      have hb : s.readDva c.inst (c.dvas.headD 0) (field c.bytes 28 4) (s.hostBytes (512 + ch)) = .bytes bs rest := hbytes
      have hbuild : s.patchBuild c g cur ch = ((s.resetStream (512 + ch)).chargeRead c.inst (c.dvas.headD 0)
          (field c.bytes 28 4)).buildPatch c g cur bs := by
        simp only [State.patchBuild, hbusy, hnoerr, hb, Bool.false_eq_true, if_false]
      rw [hbuild] at hgo
      have hcaches := cachesOnly_chargeExtent (s.resetStream (512 + ch)) c.inst 19 (c.dvas.headD 0) (field c.bytes 28 4)
        (pagesOf (field c.bytes 28 4))
      have hview := view_State_chargeRead (s.resetStream (512 + ch)) c.inst (c.dvas.headD 0) (field c.bytes 28 4)
      rw [show (s.resetStream (512 + ch)).chargeExtent c.inst 19 (c.dvas.headD 0) (field c.bytes 28 4)
        (pagesOf (field c.bytes 28 4)) = (s.resetStream (512 + ch)).chargeRead c.inst (c.dvas.headD 0)
          (field c.bytes 28 4) from rfl] at hcaches
      rw [view_State_resetStream] at hview
      generalize (s.resetStream (512 + ch)).chargeRead c.inst (c.dvas.headD 0) (field c.bytes 28 4) = u at *
      obtain ⟨heq, hinst⟩ := hcaches
      have hcmds : u.cmds = s.cmds := by rw [heq]; rfl
      have hpages : u.pages = s.pages := by rw [heq]; rfl
      have hstore : u.storePages = s.storePages := by unfold State.storePages; rw [heq]; rfl
      have hgraphs (n : Nat) : (u.inst n).graphs = (s.inst n).graphs := by rw [hinst]; rfl
      have hlimits : (u.inst c.inst).limits = (s.inst c.inst).limits := by rw [hinst]; rfl
      have hcharge : u.storeCharge c.inst = s.storeCharge c.inst := by simp only [State.storeCharge, hcmds, hgraphs]
      have hbytes' : u.patchBytes cur = s.patchBytes cur := by simp only [State.patchBytes, hpages]
      have hroom : PatchRoom u c bs ↔ room := by
        unfold PatchRoom
        rw [hcharge, hlimits]
        exact Iff.rfl
      have hfree : freePages (tabKeys u.pages) 0 u.storePages (patchSpan c bs) = freePages (tabKeys s.pages) 0 s.storePages k := by
        rw [hpages, hstore]
        rfl
      have hfailed (st : Status) (h : u.buildPatch c g cur bs = buildFails u c g st) (hfiled : Filed s slot.val) : fails st := by
        have hfiled' : Filed (u.setGraph c.inst c.graph { g with builder := none }) slot := by
          unfold Filed State.cmd
          rw [State.setGraph, updInst_cmds, hcmds]
          exact hfiled
        rw [h] at hgo
        obtain ⟨hstill, hp, r, hr⟩ := refuse_patch (s := s) hslot hseq st (by simpa [State.setGraph] using hview)
          (by rw [State.setGraph, updInst_pages, hpages]) hfiled'
        exact ⟨_, _, hgo, hstill, hp, hr, rfl, rfl, rfl⟩
      refine ⟨fun fresh hr hf hok => ?_, fun st hbad => hfailed st ?_⟩
      · rw [buildPatch_of_pages g cur (hroom.2 hr) (hfree.trans hf), hbytes', hok, Bool.not_true, if_neg Bool.false_ne_true] at hgo
        refine ⟨_, hgo, ?_, (setCmd_cmd _ (c := { c with built := some (newPageMap cur.pages lo hi fresh), chan := none }) hslot hseq
          _).trans (if_pos rfl), ?_, fun p hp => ?_⟩
        all_goals obtain ⟨hframe, hothers⟩ := putPages_frame u fresh (((patched (s.patchBytes cur) (field c.bytes 24 4) bs).drop
          (256 * (field c.bytes 24 4 / 256))).take (256 * patchSpan c bs))
        · rw [hframe, heq]
          rfl
        · rw [State.graph, setCmd_inst, hframe]
          exact (congrArg (tabGet · c.graph) (hgraphs c.inst)).trans hg
        · exact (hothers p hp).trans (by rw [hpages])
      · rcases hbad with ⟨hno, rfl⟩ | ⟨hr, ⟨fresh, hf⟩, hillegal, rfl⟩
        · exact buildPatch_full g cur (hno.imp (fun h => fun hr => h (hroom.1 hr)) fun h => hfree.trans h)
        · rw [buildPatch_of_pages g cur (hroom.2 hr) (hfree.trans hf), hbytes']
          have hno : streamsOk g.fixed (patched (s.patchBytes cur) (field c.bytes 24 4) bs) = false := hillegal
          rw [hno, Bool.not_false, if_pos rfl]

end Sys2Proof.Proofs
end

section
/-! PROOFS. Completion records: their turn, and what completing a command gives back (01 R18, R24, 06 R131, R132, R136). -/

namespace Sys2Proof.Proofs
open Sys2Proof Sys2Proof.Machine Sys2Proof.Safety Sys2Proof.Laws

-- What a completed command gives back (01 R24) ------------------------------------------------------------------------

/-- A command that is gone, with its graph version, its pool slot and its contract's hold. -/
structure GivenBack (c : Cmd) (s t : State) : Prop where
  only : t = { s with
    cmds := tabErase s.cmds (cmdKey c.slot c.seq)
    insts := t.insts
    pages := t.pages
    contracts := t.contracts
    fep := { s.fep with pool := t.fep.pool } }
  insts : ∀ n, t.inst n = { s.inst n with graphs := (t.inst n).graphs }

theorem sweepContract_frame (s : State) (id : Nat) :
    s.sweepContract id = { s with contracts := (s.sweepContract id).contracts } := by
  unfold State.sweepContract
  split
  · split <;> rfl
  · rfl

/-- The command dropped and its graph's versions released, its pool slot free. -/
theorem givenBack_release (s : State) (c : Cmd) (pool : List Nat) : GivenBack c s
    (if c.opcode = opLaunch && c.graph ≠ 0 then
      (State.dropCmd { s with fep := { s.fep with pool := pool } } c.slot c.seq).releaseVersions c.inst c.graph
    else State.dropCmd { s with fep := { s.fep with pool := pool } } c.slot c.seq) := by
  split
  · refine ⟨?_, fun n => ?_⟩
    · rw [releaseVersions_frame]
      rfl
    · exact (droppedOnly_releaseVersions _ c.inst c.graph).2 n
  · exact ⟨rfl, fun _ => rfl⟩

theorem givenBack (s : State) (c : Cmd) : GivenBack c s (s.giveBack c) := by
  have hpool : ∃ pool, (if c.contract = 0 then id else (fun t : State => t.sweepContract c.contract))
      (if c.opcode = opLaunch && c.graph ≠ 0 then
        (State.dropCmd { s with fep := { s.fep with pool := pool } } c.slot c.seq).releaseVersions c.inst c.graph
      else State.dropCmd { s with fep := { s.fep with pool := pool } } c.slot c.seq) = s.giveBack c := by
    unfold State.giveBack
    cases c.pool with
    | none => exact ⟨s.fep.pool, by split <;> rfl⟩
    | some k => exact ⟨s.fep.pool.filter (· != k), by split <;> rfl⟩
  obtain ⟨pool, hpool⟩ := hpool
  obtain ⟨honly, hinsts⟩ := givenBack_release s c pool
  rw [← hpool]
  generalize (if c.opcode = opLaunch && c.graph ≠ 0 then
        (State.dropCmd { s with fep := { s.fep with pool := pool } } c.slot c.seq).releaseVersions c.inst c.graph
      else State.dropCmd { s with fep := { s.fep with pool := pool } } c.slot c.seq) = u at *
  split
  · exact ⟨honly, hinsts⟩
  · dsimp only
    have hsweep := sweepContract_frame u c.contract
    generalize u.sweepContract c.contract = t at *
    refine ⟨by rw [hsweep, honly], fun n => ?_⟩
    rw [hsweep]
    exact hinsts n

theorem GivenBack.queues {c : Cmd} {s t : State} (h : GivenBack c s t) : t.queues = s.queues := by rw [h.only]
theorem GivenBack.link {c : Cmd} {s t : State} (h : GivenBack c s t) : t.link = s.link := by rw [h.only]

theorem GivenBack.cmd {c : Cmd} {s t : State} {slot k : Nat} (h : GivenBack c s t) (hslot : c.slot = slot) (hseq : c.seq = k) (j : Nat) :
    t.cmd slot j = if j = k then none else s.cmd slot j := by
  have hcmds : t.cmds = tabErase s.cmds (cmdKey slot k) := by rw [h.only, hslot, hseq]
  unfold State.cmd
  rw [hcmds]
  split
  next hj => rw [hj, tabGet_erase_same]
  next hj => exact tabGet_erase_other _ fun hk => hj (cmdKey_inj.1 hk)

theorem GivenBack.filed {c : Cmd} {s t : State} {slot : Nat} (h : GivenBack c s t) (hslot : c.slot = slot) (hfiled : Filed s slot) :
    Filed t slot := by
  intro j x hx
  rw [h.cmd hslot rfl] at hx
  split at hx
  · cases hx
  · exact hfiled j x hx

-- A slot whose commands are gone --------------------------------------------------------------------------------------

/-- A command that is gone does not come back with READ's passing. -/
theorem settle_gone {s : State} {slot k : Nat} (hf : Filed s slot) (hgone : s.cmd slot k = none) (fuel : Nat) :
    (s.settle slot fuel).cmd slot k = none := by
  induction fuel generalizing s with
  | zero => exact hgone
  | succ fuel ih =>
    unfold State.settle
    split
    next => exact hgone
    next t hone =>
      have hstep := settled_settleOne (fun j x hx => (hf j x hx).1) hone
      refine ih (hstep.cmds hf).1 ?_
      unfold State.settleOne at hone
      split at hone
      · cases hone
      · split at hone
        · cases hone
          exact hgone
        · split at hone
          · cases hone
          next q _ _ c hc =>
            split at hone
            · cases hone
              obtain ⟨hslot, hseq⟩ := hf _ c hc
              refine (setCmd_cmd s (c := { c with resv := 1 }) hslot hseq k).trans ((if_neg ?_).trans hgone)
              intro heq
              rw [heq, hc] at hgone
              cases hgone
            · cases hone

/-- A queue that is stopped without a guilty point lets nothing pass. -/
theorem settleRefused_stopped {s : State} {slot : Nat} {q : Queue} (hq : s.queue slot = some q) (hguilty : q.guilty = none)
    (hstop : q.stopCause = 3) : s.settleRefused slot = s := by
  refine settle_of_none ?_ _
  have hat : q.atGuilty = false := by simp only [Queue.atGuilty, hguilty, Bool.and_false]
  unfold State.settleOne
  rw [hq]
  dsimp only
  rw [hat, if_neg Bool.false_ne_true]
  split
  · rfl
  · refine if_neg ?_
    rw [hstop, Bool.and_eq_true]
    exact fun h => absurd h.2 (by decide)

theorem logLate_frame (s : State) (c : Cmd) : s.logLate c = { s with fep := { s.fep with log := (s.logLate c).fep.log } } := by
  unfold State.logLate
  split <;> rfl

/-- A command whose next record is in flight. -/
def recordSent (s : State) (q : Queue) (c : Cmd) : Cmd :=
  { c with
    inFlight := some (q.desc.cplBase + 32 * (q.cpl.toNat % q.records), s.nextRecord q c)
    stage := if decide (c.recordsDone + 1 = recordsOf c) then .writing else .ended
    resv := if decide (c.recordsDone + 1 = recordsOf c) then 0 else c.resv }

/-- A command that completes without its record. -/
def lostRecord (c : Cmd) : Cmd := { c with recordLost := true }

/-- Settles O29: the next record of a command whose turn has come, of a stale one, and on a broken queue. -/
theorem completionRecordsGoOutInTurn : Obligations.CompletionRecordsGoOutInTurn := by
  intro s slot seq c q hruns hc hslot hseq hq hstage hcancel hflight
  have hexec : exec (.completionRecordWrite slot seq) s = .next (completionRecordWrite slot.val seq.toNat s) := rfl
  refine ⟨fun hwait => ?_, fun hfull => ?_, fun hturn hroom hstate => ⟨fun hgen hstop => ?_, fun hacc hgen => ?_,
    fun hgen hstop hguilty hsig => ?_⟩⟩
  · have hno : s.recordTurn c = false := by
      obtain ⟨x, hx, hlive⟩ := hwait
      exact List.all_eq_false.2 ⟨x, hx, by rw [hlive]; exact Bool.false_ne_true⟩
    rw [hexec]
    simp only [completionRecordWrite, hc, hq, hno, Bool.not_false, Bool.or_true, Bool.true_or, if_true]
  · rw [hexec]
    simp only [completionRecordWrite, hc, hq, hfull, Bool.not_false, Bool.or_true, Bool.true_or, if_true]
  all_goals
    have hgo : (!s.fepRuns || c.stage != .ended || c.cancelled || c.inFlight.isSome || !s.recordTurn c || !s.recordRoom c q
        || (s.inst c.inst).state == .frozen) = false := by
      rw [hruns, hstage, hcancel, hflight, hturn, hroom, beq_false_of_ne hstate]
      rfl
  · have hcurrent : (c.accepted && c.gen != (s.inst c.inst).gen) = false := by
      rcases hgen with h | h
      · rw [h, Bool.false_and]
      · rw [h, bne_self_eq_false, Bool.and_false]
    have hframe : (s.onThread 6 (some (slot.val, seq.toNat))).logLate c = { s with fep := { s.fep with
        log := ((s.onThread 6 (some (slot.val, seq.toNat))).logLate c).fep.log
        threads := ((s.onThread 6 (some (slot.val, seq.toNat))).logLate c).fep.threads } } := by
      rw [logLate_frame]
      generalize ((s.onThread 6 (some (slot.val, seq.toNat))).logLate c).fep.log = l
      rw [onThread_frame]
    have hstop' : ¬ q.stopCause = 3 := hstop
    have hwrite : completionRecordWrite slot.val seq.toNat s
        = (((s.onThread 6 (some (slot.val, seq.toNat))).logLate c).setCmd (recordSent s q c)).updQueue slot.val
          (fun q => Queue.touch { q with cpl := q.cpl + 1 }) := by
      simp only [completionRecordWrite, hc, hq, hgo, hcurrent, hstop', Bool.false_eq_true, if_false]
      rfl
    rw [hwrite] at hexec
    generalize (s.onThread 6 (some (slot.val, seq.toNat))).logLate c = u at *
    have hcmd : ((u.setCmd (recordSent s q c)).updQueue slot.val (fun q => Queue.touch { q with cpl := q.cpl + 1 })).cmd slot.val
        seq.toNat = some (recordSent s q c) := (setCmd_cmd u (c := recordSent s q c) hslot hseq _).trans (if_pos rfl)
    refine ⟨_, hexec, ?_, ?_, fun hlast => hcmd.trans ?_, fun hlast => hcmd.trans ?_⟩
    · rw [hframe]
      rfl
    · rw [updQueue_queue_same, State.queue, setCmd_queues, hframe]
      exact congrArg (Option.map _) hq
    · have hl : c.recordsDone + 1 = recordsOf c := hlast
      simp only [recordSent, hl, decide_true, if_true]
    · have hl : ¬ c.recordsDone + 1 = recordsOf c := hlast
      simp only [recordSent, hl, decide_false, Bool.false_eq_true, if_false, ← hstage]
  · have hstale : (c.accepted && c.gen != (s.inst c.inst).gen) = true := by rw [hacc, bne_iff_ne.2 hgen]; rfl
    have hback := givenBack s c
    have hwrite : completionRecordWrite slot.val seq.toNat s
        = (s.giveBack c).updInst c.inst (fun i => { i with stale := satInc i.stale }) := by
      simp only [completionRecordWrite, hc, hq, hgo, hstale, Bool.false_eq_true, if_false, if_true]
    rw [hwrite] at hexec
    refine ⟨_, hexec, still_of_view (by simp), ?_, ?_, ?_, ?_⟩
    · exact (hback.cmd hslot hseq _).trans (if_pos rfl)
    · rw [updInst_inst_same, hback.insts]
    · rw [State.queue, updInst_queues, hback.queues]
      exact hq
    · rw [updInst_link, hback.link]
  · have hcurrent : (c.accepted && c.gen != (s.inst c.inst).gen) = false := by
      rcases hgen with h | h
      · rw [h, Bool.false_and]
      · rw [h, bne_self_eq_false, Bool.and_false]
    have hback := givenBack (s.logLate c) (lostRecord c)
    have hlogged : (s.logLate c).queues = s.queues ∧ (s.logLate c).link = s.link := by
      rw [logLate_frame]
      exact ⟨rfl, rfl⟩
    have hq' : ((s.logLate c).giveBack (lostRecord c)).queue slot.val = some q := by
      rw [State.queue, hback.queues, hlogged.1]
      exact hq
    have hwrite : completionRecordWrite slot.val seq.toNat s = (s.logLate c).giveBack (lostRecord c) := by
      simp only [completionRecordWrite, hc, hq, hgo, hcurrent, hstop, State.completeCmd, hsig, Bool.false_eq_true, if_false,
        if_true]
      have hsettled := settleRefused_stopped hq' hguilty hstop
      rw [← hslot] at hsettled
      exact hsettled
    rw [hwrite] at hexec
    refine ⟨_, hexec, still_of_view ((view_State_giveBack ..).trans (view_State_logLate ..)), ?_, ?_, hq'⟩
    · rw [hback.cmd (slot := slot.val) (k := seq.toNat) hslot hseq, if_pos rfl]
    · rw [hback.link, hlogged.2]

end Sys2Proof.Proofs
end

section
/-! PROOFS. The acknowledgement of a completion record (01 R24, 06 R129, R133, R136). -/

namespace Sys2Proof.Proofs
open Sys2Proof Sys2Proof.Machine Sys2Proof.Safety Sys2Proof.Laws

-- A queue's message, and a queue that breaks (06 R133, R136) ----------------------------------------------------------

theorem queueIrq_frame (s : State) (slot : Nat) (flagged : Bool) :
    s.queueIrq slot flagged = { s with
      queues := (s.queueIrq slot flagged).queues
      link := { s.link with funcs := (s.queueIrq slot flagged).link.funcs, posted := (s.queueIrq slot flagged).link.posted } } := by
  have hmsix (u : State) (fn v : Nat) (hu : u = { s with queues := u.queues }) : u.msix fn v = { s with
      queues := (u.msix fn v).queues
      link := { s.link with funcs := (u.msix fn v).link.funcs, posted := (u.msix fn v).link.posted } } := by
    obtain ⟨hframe, _⟩ := msix_frame u fn v
    rw [hframe, hu]
  unfold State.queueIrq
  split
  · rfl
  · split
    · exact hmsix s _ _ rfl
    · split
      · exact hmsix s _ _ rfl
      · rfl
    · split
      · exact hmsix _ _ _ rfl
      · rfl
    · rfl

theorem queueIrq_always {s : State} {slot : Nat} {q : Queue} (hq : s.queue slot = some q) (h : q.desc.irqPolicy = 1)
    (flagged : Bool) : s.queueIrq slot flagged = s.msix q.inst q.desc.vector := by
  simp only [State.queueIrq, hq, h]

theorem queueIrq_never {s : State} {slot : Nat} {q : Queue} (hq : s.queue slot = some q) (h : q.desc.irqPolicy = 0)
    (flagged : Bool) : s.queueIrq slot flagged = s := by
  simp only [State.queueIrq, hq, h]

/-- A queue that was not broken breaks. -/
theorem breakQueue_breaks {s : State} {slot : Nat} {q : Queue} (hq : s.queue slot = some q) (h : q.stopCause ≠ 3) (st : Status) :
    (s.breakQueue slot st).queue slot = some { q with stopCause := 3, wbPending := true }
    ∧ (s.breakQueue slot st).cmds = s.cmds := by
  have htold := toldOnly_event (s.updQueue slot (fun q => Queue.touch { q with stopCause := 3 })) Ev.queueBroken q.inst true true
    (leBytes 1 q.desc.qid ++ leBytes 2 slot ++ leBytes 2 st.toNat)
  have hbreak : s.breakQueue slot st = (s.updQueue slot (fun q => Queue.touch { q with stopCause := 3 })).event Ev.queueBroken q.inst
      true true (leBytes 1 q.desc.qid ++ leBytes 2 slot ++ leBytes 2 st.toNat) := by
    simp only [State.breakQueue, hq, if_neg h]
  rw [hbreak]
  refine ⟨?_, by rw [htold.2]; rfl⟩
  rw [State.queue, htold.queues]
  exact (updQueue_queue_same ..).trans (congrArg (Option.map _) hq)

-- A semaphore raised (06 R129) ----------------------------------------------------------------------------------------

/-- The semaphores have their values and their mirrors; poison alone may differ. -/
def SemsKept (s t : State) : Prop := ∀ n i, (t.sem n i).value = (s.sem n i).value ∧ (t.sem n i).mirror = (s.sem n i).mirror

theorem SemsKept.trans {a b c : State} (h : SemsKept a b) (k : SemsKept b c) : SemsKept a c := fun n i =>
  ⟨(k n i).1.trans (h n i).1, (k n i).2.trans (h n i).2⟩

theorem semsKept_of_insts {s t : State} (h : t.insts = s.insts) : SemsKept s t := fun n i => by
  unfold State.sem State.inst
  rw [h]
  exact ⟨rfl, rfl⟩

theorem semsKept_of_graphs {s t : State} (h : ∀ n, t.inst n = { s.inst n with graphs := (t.inst n).graphs }) : SemsKept s t :=
  fun n i => by
    unfold State.sem
    rw [h n]
    exact ⟨rfl, rfl⟩

theorem setSem_sem (s : State) (n i : Nat) (x : Sem) (m j : Nat) :
    (s.setSem n i x).sem m j = if m = n ∧ j = i then x else s.sem m j := by
  unfold State.sem State.setSem
  by_cases hm : m = n
  · subst hm
    rw [updInst_inst_same]
    by_cases hj : j = i
    · rw [hj, if_pos ⟨rfl, rfl⟩]
      exact tabGetD_set_same ..
    · rw [if_neg fun h => hj h.2]
      exact tabGetD_set_other _ _ _ hj
  · rw [updInst_inst_other _ _ hm, if_neg fun h => hm h.1]

theorem semsKept_poison (s : State) (n i v : Nat) : SemsKept s (s.setSem n i (poisonSem (s.sem n i) v)) := by
  intro m j
  rw [setSem_sem]
  split
  next h =>
    rw [h.1, h.2]
    unfold poisonSem
    split <;> exact ⟨rfl, rfl⟩
  next => exact ⟨rfl, rfl⟩

theorem endCmd_insts (s : State) (c : Cmd) (st : Status) (r : BitVec 64) : (s.endCmd c st r).insts = s.insts := by
  rw [(endCmd_frame (s := s) rfl rfl st r).1]

/-- Commands woken change no semaphore but by poison. -/
theorem semsKept_wake (s : State) (n i fuel : Nat) : SemsKept s (s.wake n i fuel) := by
  induction fuel generalizing s n i with
  | zero => exact fun _ _ => ⟨rfl, rfl⟩
  | succ fuel ih =>
    unfold State.wake
    dsimp only
    split
    · exact fun _ _ => ⟨rfl, rfl⟩
    next c _ =>
      split
      · exact fun _ _ => ⟨rfl, rfl⟩
      · split
        · exact (semsKept_of_insts (t := s.setCmd _) rfl).trans (ih _ _ _)
        next p _ =>
          have hended := semsKept_of_insts (endCmd_insts s c St.depAborted p)
          split
          · exact ((hended.trans (semsKept_poison _ _ _ _)).trans (ih _ _ _)).trans (ih _ _ _)
          · exact hended.trans (ih _ _ _)
        · exact fun _ _ => ⟨rfl, rfl⟩

theorem writeSem_sem (s : State) (n i : Nat) (v : BitVec 64) :
    ((s.writeSem n i v).sem n i).value = v ∧ ((s.writeSem n i v).sem n i).mirror = (s.sem n i).mirror := by
  have hset (x : Sem) : (((s.setSem n i x).wake n i s.wakeFuel).sem n i).value = x.value
      ∧ (((s.setSem n i x).wake n i s.wakeFuel).sem n i).mirror = x.mirror := by
    obtain ⟨hvalue, hmir⟩ := semsKept_wake (s.setSem n i x) n i s.wakeFuel n i
    rw [setSem_sem, if_pos ⟨rfl, rfl⟩] at hvalue hmir
    exact ⟨hvalue, hmir⟩
  unfold State.writeSem
  dsimp only
  exact hset _

/-- A semaphore without a mirror raised to a value above its own. -/
theorem signalSem_raises {s : State} {n i v : Nat} (slot seq : Nat) (hlow : (s.sem n i).value.toNat < v)
    (hmirror : (s.sem n i).mirror = none) :
    ((s.signalSem n i v slot seq).sem n i).value = BitVec.ofNat 64 v ∧ view (s.signalSem n i v slot seq) = view s := by
  obtain ⟨hvalue, hmir⟩ := writeSem_sem s n i (BitVec.ofNat 64 v)
  have hsignal : s.signalSem n i v slot seq = s.writeSem n i (BitVec.ofNat 64 v) := by
    have hraise : v > (s.sem n i).value.toNat := hlow
    unfold State.signalSem
    rw [if_pos hraise, State.writeMirror, hmir.trans hmirror]
  rw [hsignal]
  exact ⟨hvalue, view_State_writeSem ..⟩

theorem semsKept_of_mmu {s t : State} (h : ∀ n, t.inst n = { s.inst n with mmu := (t.inst n).mmu }) : SemsKept s t :=
  fun n i => by
    unfold State.sem
    rw [h n]
    exact ⟨rfl, rfl⟩

theorem CachesOnly.semsKept {s t : State} (h : CachesOnly s t) : SemsKept s t :=
  semsKept_of_mmu fun n => by rw [h.2 n]

theorem hostPost_insts (s : State) (n a : Nat) (bs : List Byte) (fuel : Nat) : (s.hostPost n a bs fuel).insts = s.insts := by
  induction fuel generalizing s a bs with
  | zero => rfl
  | succ fuel ih =>
    unfold State.hostPost
    split
    · rfl
    split
    · rfl
    dsimp only
    split
    · exact ih ..
    · refine (ih ..).trans ?_
      unfold State.askXlat
      split <;> rfl

theorem semsKept_writeExtent (s : State) (n dva : Nat) (bs : List Byte) (fuel : Nat) :
    SemsKept s (s.writeExtent n dva bs fuel).1 := by
  induction fuel generalizing s dva bs with
  | zero => exact fun _ _ => ⟨rfl, rfl⟩
  | succ fuel ih =>
    have hx := (cachesOnly_xlated s n 19 dva).semsKept
    unfold State.writeExtent
    split
    · exact fun _ _ => ⟨rfl, rfl⟩
    · dsimp only
      split
      · exact fun _ _ => ⟨rfl, rfl⟩
      · refine (hx.trans (semsKept_of_insts ?_)).trans (ih _ _ _)
        rw [(storePriv_frame ..).1]
      · split
        · exact (hx.trans (semsKept_of_insts (hostPost_insts ..))).trans (ih _ _ _)
        · exact fun _ _ => ⟨rfl, rfl⟩

-- A command completed (01 R24) ----------------------------------------------------------------------------------------

theorem completeCmd_silent (s : State) {c : Cmd} (h : c.sigSem = none) :
    s.completeCmd c = ((if c.recordLost then s else s.queueIrq c.slot c.irq).giveBack c).settleRefused c.slot := by
  simp only [State.completeCmd, h]

theorem completeCmd_signals (s : State) {c : Cmd} {i v : Nat} (h : c.sigSem = some (i, v)) (hst : c.status ≠ St.depAborted)
    (hacc : c.accepted = true) :
    s.completeCmd c = ((if c.recordLost then s.signalSem c.inst i v c.slot c.seq
      else (s.signalSem c.inst i v c.slot c.seq).queueIrq c.slot c.irq).giveBack c).settleRefused c.slot := by
  simp only [State.completeCmd, h, hst, hacc, decide_false, Bool.not_true, Bool.or_self, Bool.false_eq_true, if_false]

/-- Giving back what a command held and passing READ on: the command is gone, its queue has its settings, and the link and the
semaphores are as they were. -/
theorem givenBack_settled {s : State} {c : Cmd} {slot k : Nat} (hslot : c.slot = slot) (hseq : c.seq = k) :
    view ((s.giveBack c).settleRefused c.slot) = view s ∧ ((s.giveBack c).settleRefused c.slot).link = s.link
    ∧ SemsKept s ((s.giveBack c).settleRefused c.slot)
    ∧ (Filed s slot → ((s.giveBack c).settleRefused c.slot).cmd slot k = none
      ∧ ∀ q, s.queue slot = some q → ∃ x, ((s.giveBack c).settleRefused c.slot).queue slot = some x ∧ Passed q x) := by
  have hback := givenBack s c
  have hview := (view_State_settleRefused (s.giveBack c) c.slot).trans (view_State_giveBack ..)
  obtain ⟨honly, hinsts⟩ := guiltOnly_settle (s.giveBack c) c.slot (((s.giveBack c).slotCmds c.slot).length + 1)
  have hsettled : (s.giveBack c).settle c.slot (((s.giveBack c).slotCmds c.slot).length + 1)
    = (s.giveBack c).settleRefused c.slot := rfl
  rw [hsettled] at honly hinsts
  refine ⟨hview, ?_, (semsKept_of_graphs hback.insts).trans (semsKept_of_graphs hinsts), fun hfiled => ⟨?_, fun q hq => ?_⟩⟩
  · rw [honly]
    exact hback.link
  all_goals
    have hfiled' := hback.filed hslot hfiled
    rw [hslot]
  · exact settle_gone hfiled' (by rw [hback.cmd hslot hseq, if_pos rfl]) _
  · refine (settled_settleRefused hfiled').queue q ?_
    rw [State.queue, hback.queues]
    exact hq

/-- A command whose record's write has ended. -/
def acked (c : Cmd) (lost : Bool) : Cmd :=
  { c with inFlight := none, recordsDone := c.recordsDone + 1, recordLost := c.recordLost || lost }

theorem recordAck_landed {s u : State} {slot seq : Nat} {c : Cmd} {a : Nat} {bs : List Byte} (hruns : s.fepRuns = true)
    (hc : s.cmd slot seq = some c) (hcancel : c.cancelled = false) (hflight : c.inFlight = some (a, bs))
    (hu : s.writeDva c.inst a bs = (u, none)) :
    recordAck slot seq St.ok s
      = if c.stage == .writing then (u.setCmd (acked c false)).completeCmd (acked c false) else u.setCmd (acked c false) := by
  have hland : s.landRecord c.inst a bs St.ok = (u, St.ok) := by
    simp only [State.landRecord, hu, ne_eq, not_true_eq_false, if_false]
  have hgo : (!s.fepRuns || c.cancelled) = false := by rw [hruns, hcancel]; rfl
  simp only [recordAck, hc, hflight, hgo, hland, ne_eq, not_true_eq_false, decide_false, Bool.false_eq_true, if_false, acked]

theorem recordAck_failed {s : State} {slot seq : Nat} {c : Cmd} {a : Nat} {bs : List Byte} {st : Status} (hruns : s.fepRuns = true)
    (hc : s.cmd slot seq = some c) (hcancel : c.cancelled = false) (hflight : c.inFlight = some (a, bs)) (hst : st ≠ St.ok) :
    recordAck slot seq st s
      = if c.stage == .writing then ((s.breakQueue slot st).setCmd (acked c true)).completeCmd (acked c true)
        else (s.breakQueue slot st).setCmd (acked c true) := by
  have hland : s.landRecord c.inst a bs st = (s, st) := if_pos hst
  have hgo : (!s.fepRuns || c.cancelled) = false := by rw [hruns, hcancel]; rfl
  simp only [recordAck, hc, hflight, hgo, hland, ne_eq, hst, not_false_eq_true, decide_true, Bool.false_eq_true, if_false, if_true,
    acked]

/-- Settles O30: a record that landed, the last one of its command, one that signals, and one that failed. -/
theorem acknowledgedRecordsCompleteTheCommand : Obligations.AcknowledgedRecordsCompleteTheCommand := by
  intro s slot seq c q a bs hwf hruns hc hslot hseq hq hcancel hflight hfiled
  have hexec (st : Status) : exec (.recordAck slot seq st) s = .next (recordAck slot.val seq.toNat st s) := rfl
  refine ⟨fun u hu => ⟨fun hmore => ?more, fun hlast hsig hnotLost => ?last, fun i v hlast hsig hstatus hacc hmirror hlow hv => ?signal⟩,
    fun st hst hopen hsig => ?failed⟩
  case failed =>
    have hgo := (hexec st).trans (congrArg _ (recordAck_failed hruns hc hcancel hflight hst))
    obtain ⟨hbroken, hcmds⟩ := breakQueue_breaks hq hopen st
    have hfiled' : Filed ((s.breakQueue slot.val st).setCmd (acked c true)) slot := by
      refine filed_setCmd (x := acked c true) hslot ?_
      unfold Filed State.cmd
      rw [hcmds]
      exact hfiled
    have hview : view ((s.breakQueue slot.val st).setCmd (acked c true)) = view s := by simp
    by_cases hlast : c.stage = .writing
    · have hdone := completeCmd_silent ((s.breakQueue slot.val st).setCmd (acked c true)) (c := acked c true) hsig
      rw [if_pos (show (acked c true).recordLost = true from Bool.or_true _)] at hdone
      rw [hlast, beq_self_eq_true, if_pos rfl, hdone] at hgo
      obtain ⟨hsame, -, -, hgone⟩ := givenBack_settled (s := (s.breakQueue slot.val st).setCmd (acked c true)) (c := acked c true)
        hslot hseq
      obtain ⟨hcmd, hqueue⟩ := hgone hfiled'
      obtain ⟨x, hx, hpassed⟩ := hqueue _ hbroken
      exact ⟨_, x, hgo, still_of_view (hsame.trans hview), hx, by rw [hpassed], fun _ => hcmd, fun h => absurd hlast h⟩
    · rw [beq_false_of_ne hlast, if_neg Bool.false_ne_true] at hgo
      refine ⟨_, _, hgo, still_of_view hview, hbroken, rfl, fun h => absurd h hlast, fun _ => ?_⟩
      rw [setCmd_cmd _ (c := acked c true) hslot hseq, if_pos rfl, acked, Bool.or_true]
  all_goals
    have hgo := (hexec St.ok).trans (congrArg _ (recordAck_landed hruns hc hcancel hflight hu))
    have hextent := writeExtent_frame hwf c.inst a bs (pagesOf bs.length)
    rw [show s.writeExtent c.inst a bs (pagesOf bs.length) = (u, none) from hu] at hextent
    obtain ⟨hframe, honly⟩ := hextent
    dsimp only at hframe honly
    have hstores (t : State) (ht : view t = view u) : OnlyStores s t c.inst a bs := fun x hx =>
      ((memSame_of_view ht).reads.1 x).trans (honly x hx)
    have hqueue : (u.setCmd (acked c false)).queue slot.val = some q := by
      rw [State.queue, setCmd_queues, hframe]
      exact hq
    have hfiled' : Filed (u.setCmd (acked c false)) slot := by
      refine filed_setCmd (x := acked c false) hslot ?_
      rw [hframe]
      exact hfiled
  case more =>
    rw [beq_false_of_ne hmore, if_neg Bool.false_ne_true] at hgo
    refine ⟨_, hgo, rfl, hstores _ (by simp), ?_⟩
    rw [setCmd_cmd u (c := acked c false) hslot hseq, if_pos rfl, acked, Bool.or_false]
  case last =>
    have hdone := completeCmd_silent (u.setCmd (acked c false)) (c := acked c false) hsig
    rw [if_neg (show ¬ (acked c false).recordLost = true by simp [acked, hnotLost])] at hdone
    rw [hlast, beq_self_eq_true, if_pos rfl, hdone] at hgo
    have hirq := queueIrq_frame (u.setCmd (acked c false)) (acked c false).slot (acked c false).irq
    have hirqView : view ((u.setCmd (acked c false)).queueIrq (acked c false).slot (acked c false).irq) = view u := by simp
    obtain ⟨hsame, hlink, -, hgone⟩ := givenBack_settled (c := acked c false)
      (s := (u.setCmd (acked c false)).queueIrq (acked c false).slot (acked c false).irq) hslot hseq
    have hview := hsame.trans hirqView
    refine ⟨_, hgo, hstores _ hview, (hgone ?_).1, fun p hp hpage => ?_, fun hpolicy hmsix => ?_, fun hpolicy => ?_⟩
    · rw [hirq]
      exact hfiled'
    · refine Eq.trans ?_ (writeDva_page hwf hu hp hpage)
      unfold State.readPrivN
      rw [(memSame_of_view hview).1]
    · rw [hlink, queueIrq_always (by rw [← hqueue]; exact congrArg _ hslot) hpolicy]
      have hopen : (u.setCmd (acked c false)).msixOpen q.inst q.desc.vector = true := by
        rw [hframe]
        exact hmsix
      refine ((msix_frame ..).2.1 hopen).2.trans ?_
      rw [hframe]
      rfl
    · rw [hlink, queueIrq_never (by rw [← hqueue]; exact congrArg _ hslot) hpolicy]
      rfl
  case signal =>
    obtain ⟨hsemValue, hsemMirror⟩ := semsKept_writeExtent s c.inst a bs (pagesOf bs.length) c.inst i
    rw [show s.writeExtent c.inst a bs (pagesOf bs.length) = (u, none) from hu] at hsemValue hsemMirror
    have hdone := completeCmd_signals (u.setCmd (acked c false)) (c := acked c false) hsig hstatus hacc
    obtain ⟨hraised, hsview⟩ := signalSem_raises (s := u.setCmd (acked c false)) (n := (acked c false).inst) (i := i) (v := v)
      (acked c false).slot (acked c false).seq (lt_of_eq_of_lt (congrArg BitVec.toNat hsemValue) hlow) (hsemMirror.trans hmirror)
    rw [hlast, beq_self_eq_true, if_pos rfl, hdone] at hgo
    generalize State.signalSem (u.setCmd (acked c false)) (acked c false).inst i v (acked c false).slot (acked c false).seq = w at *
    have hsent : view (if (acked c false).recordLost = true then w else w.queueIrq (acked c false).slot (acked c false).irq) = view w
        ∧ (if (acked c false).recordLost = true then w else w.queueIrq (acked c false).slot (acked c false).irq).insts = w.insts := by
      split
      · exact ⟨rfl, rfl⟩
      · rw [queueIrq_frame]
        exact ⟨by rw [← queueIrq_frame, view_State_queueIrq], rfl⟩
    generalize (if (acked c false).recordLost = true then w else w.queueIrq (acked c false).slot (acked c false).irq) = x at *
    obtain ⟨hsame, -, hsems, -⟩ := givenBack_settled (s := x) (c := acked c false) hslot hseq
    refine ⟨_, hgo, hstores _ ((hsame.trans hsent.1).trans (hsview.trans (by simp))), ?_⟩
    exact ((hsems c.inst i).1.trans (semsKept_of_insts hsent.2 c.inst i).1).trans hraised

end Sys2Proof.Proofs
end

section
/-! PROOFS. Holdoff, progress time, the RESET record, the status write-back and the service port (06 R122, R133 to R136, 08 R172). -/

namespace Sys2Proof.Proofs
open Sys2Proof Sys2Proof.Machine Sys2Proof.Safety Sys2Proof.Laws

theorem msix_queue (s : State) (fn v slot : Nat) : (s.msix fn v).queue slot = s.queue slot := by
  rw [State.queue, (msix_frame s fn v).1]
  rfl

/-- A queue's message leaves the queue, but for the state of its interrupt. -/
theorem queueIrq_queue {s : State} {slot : Nat} {q : Queue} (hq : s.queue slot = some q) (flagged : Bool) :
    ∃ held until_, (s.queueIrq slot flagged).queue slot = some { q with irqHeld := held, holdoffUntil := until_ } := by
  have hheld (f : Queue → Queue) : (s.updQueue slot f).queue slot = some (f q) :=
    (updQueue_queue_same ..).trans (congrArg (Option.map f) hq)
  unfold State.queueIrq
  rw [hq]
  dsimp only
  split
  · exact ⟨q.irqHeld, q.holdoffUntil, (msix_queue ..).trans hq⟩
  · split
    · exact ⟨q.irqHeld, q.holdoffUntil, (msix_queue ..).trans hq⟩
    · exact ⟨q.irqHeld, q.holdoffUntil, hq⟩
  · split
    · exact ⟨_, _, (msix_queue ..).trans (hheld _)⟩
    · exact ⟨_, _, hheld _⟩
  · exact ⟨q.irqHeld, q.holdoffUntil, hq⟩

-- The RESET record (06 R134) ------------------------------------------------------------------------------------------

/-- A guilty queue that has been told. -/
def guiltTold (q : Queue) (seq : BitVec 32) : Queue :=
  if q.guiltSaid then q else { q with
    guiltSaid := true
    wbPending := true
    guiltDiscard := dist q.write (seq + BitVec.ofNat 32 q.guiltEntries)
    stopCause := if q.stopCause = 0 then 1 else q.stopCause }

theorem stopGuilty_queue {s : State} {slot : Nat} {q : Queue} {seq : BitVec 32} {st : Status} (hq : s.queue slot = some q)
    (hguilty : q.guilty = some (seq, st)) : (s.stopGuilty slot).queue slot = some (guiltTold q seq) := by
  have hstop : s.stopGuilty slot = if q.guiltSaid then s else
      (s.updQueue slot (fun q => Queue.touch { q with
        stopCause := if q.stopCause = 0 then 1 else q.stopCause
        guiltSaid := true
        guiltDiscard := dist ((s.queue slot).getD q).write (seq + BitVec.ofNat 32 ((s.queue slot).getD q).guiltEntries) })).event
        Ev.queueGuilty q.inst true true (leBytes 1 q.desc.qid ++ leBytes 2 slot ++ leBytes 2 st.toNat ++ leBytes 4 seq.toNat
          ++ leBytes 4 (dist q.write (seq + BitVec.ofNat 32 q.guiltEntries))) := by
    simp only [State.stopGuilty, hq, hguilty, Option.getD_some]
  rw [hstop]
  unfold guiltTold
  split
  · exact hq
  · rw [State.queue, (toldOnly_event ..).queues]
    refine (updQueue_queue_same ..).trans ?_
    rw [hq]
    rfl

theorem guiltTold_keeps (q : Queue) (seq : BitVec 32) :
    (guiltTold q seq).guiltyHead = q.guiltyHead ∧ (guiltTold q seq).desc = q.desc ∧ (guiltTold q seq).cpl = q.cpl
    ∧ (guiltTold q seq).inst = q.inst ∧ (guiltTold q seq).freeRecords = q.freeRecords
    ∧ ((guiltTold q seq).stopCause = 3 ↔ q.stopCause = 3) := by
  unfold guiltTold
  split
  · exact ⟨rfl, rfl, rfl, rfl, rfl, Iff.rfl⟩
  · refine ⟨rfl, rfl, rfl, rfl, rfl, ?_⟩
    dsimp only
    split <;> omega

-- The status write-back (06 R122) -------------------------------------------------------------------------------------

/-- A queue whose status is being written back. -/
def writingBack (s : State) (slot : Nat) : State := s.updQueue slot (fun q => { q with wbPending := false, wbAt := some s.now })

/-- READ, CPL and the state of a queue as they are written back. -/
def statusBytes (q : Queue) : List Byte :=
  leBytes 4 q.read.toNat ++ leBytes 4 q.cpl.toNat ++ leBytes 1 (q.stateCode + 4 * q.causeCode) ++ List.replicate 7 0

theorem writingBack_queue {s : State} {slot : Nat} {q : Queue} (hq : s.queue slot = some q) :
    (writingBack s slot).queue slot = some { q with wbPending := false, wbAt := some s.now } := by
  rw [writingBack, updQueue_queue_same, hq]
  rfl

/-- A write-back that is due: the queue breaks where the write failed, and the status is written where it did not. -/
theorem statusWriteBack_due {s : State} {slot : Nat} {q : Queue} (hruns : s.fepRuns = true) (hq : s.queue slot = some q)
    (hpending : q.wbPending = true) (hdue : ∀ w, q.wbAt = some w → w + 1000 ≤ s.now) (hblock : q.desc.statusWb ≠ 0)
    (hstate : (s.inst q.inst).state ≠ .frozen) :
    (∀ st, st ≠ St.ok → statusWriteBack slot st s = (writingBack s slot).breakQueue slot st)
    ∧ ∀ u, (writingBack s slot).writeDva q.inst q.desc.statusWb (statusBytes q) = (u, none) → statusWriteBack slot St.ok s = u := by
  have hstate' : ((s.inst q.inst).state == .frozen) = false := beq_false_of_ne hstate
  have hwaited (w : Nat) (hat : q.wbAt = some w) : decide (w + 1000 ≤ s.now) = true := decide_eq_true (hdue w hat)
  refine ⟨fun st hst => ?_, fun u hu => ?_⟩
  · cases hat : q.wbAt with
    | none => simp [statusWriteBack, hq, hat, hruns, hpending, hblock, hstate', hst, writingBack]
    | some w => simp [statusWriteBack, hq, hat, hwaited w hat, hruns, hpending, hblock, hstate', hst, writingBack]
  · have hu' : (s.updQueue slot (fun q => { q with wbPending := false, wbAt := some s.now })).writeDva q.inst q.desc.statusWb
        (leBytes 4 q.read.toNat ++ leBytes 4 q.cpl.toNat ++ leBytes 1 (q.stateCode + 4 * q.causeCode) ++ List.replicate 7 0)
          = (u, none) := hu
    cases hat : q.wbAt with
    | none =>
      simp only [statusWriteBack, hq, hat, hruns, hpending, hblock, hstate', hu', ne_eq, not_true_eq_false, decide_false,
        Bool.not_true, Bool.or_self, Bool.false_eq_true, if_false]
    | some w =>
      simp only [statusWriteBack, hq, hat, hwaited w hat, hruns, hpending, hblock, hstate', hu', ne_eq, not_true_eq_false,
        decide_false, Bool.not_true, Bool.or_self, Bool.false_eq_true, if_false]

-- The service port (08 R172) ------------------------------------------------------------------------------------------

/-- Only semaphores, graphs and caches of the instances, commands and the pool slots that these give back differ. -/
def WakesOnly (s t : State) : Prop := t = { s with
  insts := t.insts
  cmds := t.cmds
  fep := { s.fep with pool := t.fep.pool } }

theorem WakesOnly.trans {a b c : State} (h : WakesOnly a b) (k : WakesOnly b c) : WakesOnly a c := by
  unfold WakesOnly at *
  rw [k, h]

theorem wakesOnly_endCmd (s : State) (c : Cmd) (st : Status) (r : BitVec 64) : WakesOnly s (s.endCmd c st r) := by
  rw [(endCmd_frame (s := s) rfl rfl st r).1]
  rfl

theorem wakesOnly_setSem (s : State) (n i : Nat) (x : Sem) : WakesOnly s (s.setSem n i x) := rfl

theorem wakesOnly_wake (s : State) (n i fuel : Nat) : WakesOnly s (s.wake n i fuel) := by
  induction fuel generalizing s n i with
  | zero => rfl
  | succ fuel ih =>
    unfold State.wake
    dsimp only
    split
    · rfl
    · split
      · rfl
      · split
        · exact WakesOnly.trans (b := s.setCmd _) rfl (ih ..)
        · split
          · exact (((wakesOnly_endCmd ..).trans (wakesOnly_setSem ..)).trans (ih ..)).trans (ih ..)
          · exact (wakesOnly_endCmd ..).trans (ih ..)
        · rfl

theorem wakesOnly_writeSem (s : State) (n i : Nat) (v : BitVec 64) : WakesOnly s (s.writeSem n i v) :=
  (wakesOnly_setSem ..).trans (wakesOnly_wake ..)

/-- SEM_SET of the value of a semaphore without a mirror. -/
theorem semSet_value {s : State} {n i : Nat} (v mirror : Nat) (hmirror : (s.sem n i).mirror = none) :
    ((s.semSet n i 1 v mirror).sem n i).value = BitVec.ofNat 64 v ∧ view (s.semSet n i 1 v mirror) = view s
    ∧ WakesOnly s (s.semSet n i 1 v mirror) := by
  have hset : s.semSet n i 1 v mirror = (s.setSem n i (s.sem n i)).writeSem n i (BitVec.ofNat 64 v) := by
    obtain ⟨_, hmir⟩ := writeSem_sem (s.setSem n i (s.sem n i)) n i (BitVec.ofNat 64 v)
    rw [setSem_sem, if_pos ⟨rfl, rfl⟩, hmirror] at hmir
    have hkept (u : State) (hu : (u.sem n i).mirror = none) : u.writeMirror n i 0x3FF 0 = u := by
      rw [State.writeMirror, hu]
    have hvalueFlag : bit 1 0 = true := rfl
    have hmirrorFlag : bit 1 1 = false := rfl
    have hnoMirror : bit 1 2 = false := rfl
    have hpoisonFlag : bit 1 3 = false := rfl
    simp only [State.semSet, hvalueFlag, hmirrorFlag, hnoMirror, hpoisonFlag, Bool.false_eq_true, if_false, if_true]
    split
    · rfl
    · exact hkept _ hmir
  rw [hset]
  exact ⟨(writeSem_sem ..).1, (view_State_writeSem ..).trans (view_State_setSem ..), (wakesOnly_setSem ..).trans
    (wakesOnly_writeSem ..)⟩

/-- A request executed while Topcoat serves: its reply goes out and the ring is empty. -/
theorem flushService_one {s w : State} {r : SvcReq} (hbody : serviceBody r (s.onThread 7 none) r.payload = (w, some (St.ok, [])))
    (hring : w.fep.service = [r]) (hout : r.out = none) (hserve : w.serving = true) :
    (s.serveOne r).flushService = State.reply
      { w with fep := { w.fep with service := [], serviceDone := w.fep.serviceDone + 1 } } r.mb r.hdr St.ok [] := by
  have hset : setResult (St.ok, []) w.fep.service = [{ r with out := some (St.ok, []) }] := by
    rw [hring, setResult, hout]
    rfl
  have hserved : s.serveOne r = { w with fep := { w.fep with
      service := [{ r with out := some (St.ok, []) }]
      serviceDone := w.fep.serviceDone + 1 } } := by
    simp only [State.serveOne, hbody, Option.getD_some, hset]
  rw [hserved]
  unfold State.flushService
  refine (if_pos hserve).trans ?_
  rfl

/-- Settles O31: each timer of a queue, its RESET record and write-back, and the service port. -/
theorem queueTimersResetRecordAndWriteBack : Obligations.QueueTimersResetRecordAndWriteBack := by
  refine ⟨?holdoff, ?progress, ?reset, ?writeBack, ?service⟩
  case holdoff =>
    intro s slot q hq
    have hexec : exec (.irqHoldoffExpiry slot) s = .next (if q.irqHeld && decide (q.holdoffUntil ≤ s.now) then
        (s.updQueue slot (fun q => { q with irqHeld := false, holdoffUntil := s.now + q.desc.holdoff * 1000 })).msix
          q.inst q.desc.vector else s) := by
      simp only [exec, execIrqHoldoffExpiry, hq]
    refine ⟨fun hheld hdue => ?_, fun hno => hexec.trans (congrArg _ (if_neg ?_))⟩
    · have hgo : (q.irqHeld && decide (q.holdoffUntil ≤ s.now)) = true := by rw [hheld, decide_eq_true hdue]; rfl
      obtain ⟨hframe, hopen, hclosed⟩ := msix_frame (s.updQueue slot (fun q => { q with
        irqHeld := false, holdoffUntil := s.now + q.desc.holdoff * 1000 })) q.inst q.desc.vector
      refine ⟨_, hexec.trans (congrArg _ (if_pos hgo)), ?_, ?_, fun h => (hopen h).2, fun h => ⟨(hclosed h).2, (hclosed h).1⟩⟩
      · rw [hframe]
        rfl
      · rw [msix_queue, updQueue_queue_same, hq]
        rfl
    · rcases hno with h | h
      · rw [h]
        exact Bool.false_ne_true
      · rw [decide_eq_false (Nat.not_le.2 h), Bool.and_false]
        exact Bool.false_ne_true
  case progress =>
    intro s slot seq c q hc hslot hseq hq hfrom hcancel limit
    have hexec : exec (.progressTimeout slot seq) s
        = .next (if limit ≤ s.progress c then s.cmdGuilty c St.progressTimeout else s) := by
      simp only [exec, execProgressTimeout, hc, hq, hfrom, hcancel, Bool.not_false, Bool.and_self, Bool.true_and, ge_iff_le,
        decide_eq_true_iff]
      rfl
    refine ⟨fun hpassed hclean => ⟨_, hexec.trans (congrArg _ (if_pos hpassed)), still_of_view (view_State_cmdGuilty ..), ?_⟩,
      fun hearly => hexec.trans (congrArg _ (if_neg (Nat.not_le.2 hearly)))⟩
    obtain ⟨q', hq', hguilty, hsaid, hreset, habort⟩ := hclean
    rw [State.cmdGuilty, hslot, hseq, BitVec.ofNat_toNat, BitVec.setWidth_eq]
    exact makeGuilty_guilty hq' hguilty hsaid hreset habort seq _ _ _ _
  case reset =>
    intro s slot q seq st e hwf hruns hq hguilty due said s1 hd bs a
    have hview : view s1 = view s := (view_State_stopGuilty ..).trans (view_State_onThread ..)
    have hsaid : s1.queue slot.val = some said := stopGuilty_queue (s := s.onThread 7 none) hq hguilty
    have hkeeps : said.guiltyHead = q.guiltyHead ∧ said.desc = q.desc ∧ said.cpl = q.cpl ∧ said.inst = q.inst
      ∧ said.freeRecords = q.freeRecords ∧ (said.stopCause = 3 ↔ q.stopCause = 3) := guiltTold_keeps q seq
    obtain ⟨hhead, hdesc, hcpl, hinst, hfree, hcause⟩ := hkeeps
    have hs1 : (s.onThread 7 none).stopGuilty slot.val = s1 := rfl
    clear_value said s1
    have hnow : s1.now = s.now := congrArg View.devtime hview
    have hrecords : said.records = q.records := by rw [Queue.records, Queue.records, hdesc]
    have hbytes : said.resetBytes seq st s1.now = bs := by
      rw [Queue.resetBytes, hnow, hhead, phaseBit, hcpl, hrecords]
      rfl
    have haddr : said.desc.cplBase + 32 * (said.cpl.toNat % said.records) = a := by rw [hdesc, hcpl, hrecords]
    have hexec (f : Status) : exec (.resetRecord slot f) s = .next (resetRecord slot.val f s) := rfl
    have hdue (h : due) : (!s.fepRuns || q.resetDone || q.guiltRound != 3 || !((s.slotCmds slot.val).isEmpty)) = false := by
      obtain ⟨hreset, hround, hnone⟩ := h
      rw [hruns, hreset, hround, hnone]
      rfl
    refine ⟨still_of_view hview, hsaid, fun hgo hopen hroom => ⟨fun u hu => ?lands, fun he => ?breaks⟩, fun hgo hopen hroom => ?full,
      fun hgo hbroken => ?lost, fun hno => ?idle⟩
    case lands =>
      have hgo' := hdue hgo
      have hclosed : ¬ said.stopCause = 3 := fun h => hopen (hcause.1 h)
      have hspace : ¬ said.freeRecords = 0 := by rw [hfree]; exact hroom
      have hland : s1.landRecord said.inst a bs St.ok = (u, St.ok) := by
        rw [hinst]
        simp only [State.landRecord, hu, ne_eq, not_true_eq_false, if_false]
      have hreset : resetRecord slot.val St.ok s
          = (u.updQueue slot.val (fun q => Queue.touch { q with cpl := q.cpl + 1, resetDone := true })).queueIrq slot.val true := by
        simp only [resetRecord, hq, hs1, hsaid, hguilty, hgo', hclosed, hspace, haddr, hbytes, hland, Bool.false_eq_true, if_false,
          if_true]
      have hextent := writeExtent_frame (wf_of_view hview hwf) q.inst a bs (pagesOf bs.length)
      rw [show s1.writeExtent q.inst a bs (pagesOf bs.length) = (u, none) from hu] at hextent
      obtain ⟨hframe, honly⟩ := hextent
      dsimp only at hframe honly
      have huq : (u.updQueue slot.val (fun q => Queue.touch { q with cpl := q.cpl + 1, resetDone := true })).queue slot.val
          = some { said with cpl := said.cpl + 1, resetDone := true, wbPending := true } := by
        have hsame : u.queue slot.val = some said := by rw [State.queue, hframe]; exact hsaid
        rw [updQueue_queue_same, hsame]
        rfl
      obtain ⟨held, until_, hirq⟩ := queueIrq_queue huq true
      refine ⟨_, _, (hexec St.ok).trans (congrArg _ hreset), fun x hx => ?_, hirq, ?_, fun hpolicy => ?_⟩
      · exact ((memSame_of_view ((view_State_queueIrq ..).trans (by simp))).reads.1 x).trans (honly x hx)
      · rw [hcpl]
      · rw [queueIrq_never huq (by rw [← hpolicy, ← hdesc])]
        rfl
    case breaks =>
      have hgo' := hdue hgo
      have hclosed : ¬ said.stopCause = 3 := fun h => hopen (hcause.1 h)
      have hspace : ¬ said.freeRecords = 0 := by rw [hfree]; exact hroom
      have hland : s1.landRecord said.inst a bs e = (s1, e) := if_pos he
      have hreset : resetRecord slot.val e s
          = (s1.updQueue slot.val (fun q => Queue.touch { q with cpl := q.cpl + 1, resetDone := true })).breakQueue slot.val e := by
        simp only [resetRecord, hq, hs1, hsaid, hguilty, hgo', hclosed, hspace, haddr, hbytes, hland, he, Bool.false_eq_true,
          if_false]
      have huq : (s1.updQueue slot.val (fun q => Queue.touch { q with cpl := q.cpl + 1, resetDone := true })).queue slot.val
          = some { said with cpl := said.cpl + 1, resetDone := true, wbPending := true } := by
        rw [updQueue_queue_same, hsaid]
        rfl
      refine ⟨_, _, (hexec e).trans (congrArg _ hreset), still_of_view ((view_State_breakQueue ..).trans (by simpa using hview)),
        (breakQueue_breaks huq hclosed e).1, ?_⟩
      rw [hcpl]
    case full =>
      have hgo' := hdue hgo
      have hclosed : ¬ said.stopCause = 3 := fun h => hopen (hcause.1 h)
      have hspace : said.freeRecords = 0 := hfree.trans hroom
      rw [hexec]
      simp only [resetRecord, hq, hs1, hsaid, hguilty, hgo', hclosed, hspace, Bool.false_eq_true, if_false, if_true]
    case lost =>
      have hgo' := hdue hgo
      have hbroken' : said.stopCause = 3 := hcause.2 hbroken
      have hreset : resetRecord slot.val e s = s1.updQueue slot.val (fun q => { q with resetDone := true }) := by
        simp only [resetRecord, hq, hs1, hsaid, hguilty, hgo', hbroken', Bool.false_eq_true, if_false, if_true]
      refine ⟨_, (hexec e).trans (congrArg _ hreset), still_of_view (by simpa using hview), ?_⟩
      rw [updQueue_queue_same, hsaid]
      rfl
    case idle =>
      have hno' : (!s.fepRuns || q.resetDone || q.guiltRound != 3 || !((s.slotCmds slot.val).isEmpty)) = true := by
        by_contra h
        simp only [Bool.not_eq_true, Bool.or_eq_false_iff, Bool.not_eq_false', bne_eq_false_iff_eq, List.isEmpty_iff] at h
        obtain ⟨⟨⟨_, hreset⟩, hround⟩, hnone⟩ := h
        exact hno ⟨hreset, hround, hnone⟩
      rw [hexec]
      simp only [resetRecord, hq, hs1, hsaid, hguilty, hno', if_true]
  case writeBack =>
    intro s slot q e hwf hruns hq bs s0
    have hexec (f : Status) : exec (.statusWriteBack slot f) s = .next (statusWriteBack slot.val f s) := rfl
    refine ⟨fun hpending hdue hblock hstate => ?_, fun hno => (hexec e).trans (congrArg _ ?_)⟩
    · obtain ⟨hbreaks, hlands⟩ := statusWriteBack_due hruns hq hpending hdue hblock hstate
      have hview : view s0 = view s := by simp [s0]
      refine ⟨fun u hu => ?_, fun he hopen => ?_⟩
      · have hwf0 := wf_of_view hview hwf
        have hextent := writeExtent_frame hwf0 q.inst q.desc.statusWb bs (pagesOf bs.length)
        rw [show s0.writeExtent q.inst q.desc.statusWb bs (pagesOf bs.length) = (u, none) from hu] at hextent
        obtain ⟨hframe, honly⟩ := hextent
        dsimp only at hframe honly
        have hlen : bs.length = 16 := by simp [bs]
        refine ⟨(hexec St.ok).trans (congrArg _ (hlands u hu)), ?_, ?_, honly, fun p hp hpage => ?_⟩
        · rw [State.queue, hframe]
          exact writingBack_queue hq
        · rw [hframe]
          rfl
        · have hwritten := writeDva_page hwf0 hu hp (by rw [hlen]; exact hpage)
          rw [hlen] at hwritten
          exact hwritten
      · exact ⟨_, _, (hexec e).trans (congrArg _ (hbreaks e he)), still_of_view ((view_State_breakQueue ..).trans hview),
          (breakQueue_breaks (writingBack_queue hq) hopen e).1, rfl⟩
    · rcases hno with h | h | ⟨w, hat, h⟩
      · simp only [statusWriteBack, hq, h, Bool.not_false, Bool.or_true, Bool.true_or, if_true]
      · simp only [statusWriteBack, hq, h, decide_true, Bool.or_true, Bool.true_or, if_true]
      · have hearly : decide (w + 1000 ≤ s.now) = false := decide_eq_false (Nat.not_le.2 h)
        simp only [statusWriteBack, hq, hat, hearly, Bool.not_false, Bool.or_true, Bool.true_or, if_true]
  case service =>
    intro s hruns
    refine ⟨fun hall => ?_, fun r hring hout hserve hcode hfree => ?_⟩
    · have hnone : s.fep.service.find? (·.out.isNone) = none := by
        refine List.find?_eq_none.2 fun x hx => ?_
        have := List.all_eq_true.1 hall x hx
        rw [Option.isNone_iff_eq_none]
        intro h
        rw [h] at this
        cases this
      simp only [exec, execServiceRequest, hruns, hnone, Bool.not_true, Bool.false_eq_true, if_false]
    · intro i hcount hflags hmirror
      obtain ⟨hvalue, hview, hwakes⟩ := semSet_value (s := s.onThread 7 none) (field r.payload 8 8) (field r.payload 16 8) hmirror
      have hbody : serviceBody r (s.onThread 7 none) r.payload
          = ((s.onThread 7 none).semSet r.mb i 1 (field r.payload 8 8) (field r.payload 16 8), some (St.ok, [])) := by
        have hfree' : (s.onThread 7 none).freezes r.mb = false := hfree
        have hlow : ¬ ((s.onThread 7 none).inst r.mb).limits.semCount ≤ field r.payload 0 2 := Nat.not_le.2 hcount
        have hpick : serviceBody r = semSetBody r.mb := by
          unfold serviceBody
          rw [hcode]
          rfl
        rw [hpick]
        unfold semSetBody unfrozen
        rw [hfree', if_neg Bool.false_ne_true]
        dsimp only
        rw [if_neg hlow, hflags, if_neg (show ¬ (bit 1 1 && bit 1 2 || bit 1 1 && decide (2 ^ 48 ≤ field r.payload 16 8)) = true from
          fun h => nomatch h)]
        rfl
      have hfind : s.fep.service.find? (·.out.isNone) = some r := by rw [hring, List.find?_cons_of_pos (by rw [hout]; rfl)]
      have hexec : exec .serviceRequest s = .next (s.serveOne r).flushService := by
        simp only [exec, execServiceRequest, hruns, hfind, Bool.not_true, Bool.false_eq_true, if_false]
      obtain ⟨hring', hserve', hdone'⟩ : ((s.onThread 7 none).semSet r.mb i 1 (field r.payload 8 8) (field r.payload 16 8)).fep.service
            = [r]
          ∧ ((s.onThread 7 none).semSet r.mb i 1 (field r.payload 8 8) (field r.payload 16 8)).serving = true
          ∧ ((s.onThread 7 none).semSet r.mb i 1 (field r.payload 8 8) (field r.payload 16 8)).fep.serviceDone
            = s.fep.serviceDone := by
        rw [hwakes]
        exact ⟨hring, hserve, rfl⟩
      rw [flushService_one hbody hring' hout hserve'] at hexec
      generalize (s.onThread 7 none).semSet r.mb i 1 (field r.payload 8 8) (field r.payload 16 8) = w at *
      refine ⟨_, { w with fep := { w.fep with service := [], serviceDone := w.fep.serviceDone + 1 } }, hexec, rfl,
        still_of_view ((view_State_reply ..).trans hview), ?_, ?_, ?_⟩
      · rw [reply_fep]
      · rw [reply_fep, hdone']
      · rw [← hvalue]
        unfold State.sem
        rw [(reply_insts ..).eq]
        rfl

end Sys2Proof.Proofs
end

section
/-! PROOFS. The scan of the priority queue (01 R21, 06 R127, 08 R167, R168). -/

namespace Sys2Proof.Proofs
open Sys2Proof Sys2Proof.Machine Sys2Proof.Safety Sys2Proof.Laws

/-- A scan of one entry. -/
theorem scan_one {s : State} {it : Item} (hruns : s.fepRuns = true) (hitems : s.items = [it]) :
    exec .scan s = .next ((Scan.entry ⟨s.onThread 5 none, []⟩ it).st).reassess := by
  have hscan : scan s = ((Scan.entry ⟨s.onThread 5 none, []⟩ it).st).reassess := by
    unfold scan
    rw [if_pos hruns, hitems, List.mergeSort_singleton]
    rfl
  rw [← hscan]
  rfl

theorem scan_still {s t : State} (h : exec .scan s = .next t) : Still s t := still_of_view (view_execScan s h)

theorem reassess_cmds (s : State) : s.reassess.cmds = s.cmds := by rw [(powerOnly_reassess s).1]
theorem reassess_fep (s : State) : s.reassess.fep = s.fep := by rw [(powerOnly_reassess s).1]

theorem reassess_cmd (s : State) (slot seq : Nat) : s.reassess.cmd slot seq = s.cmd slot seq := by
  rw [State.cmd, reassess_cmds]
  rfl

/-- An entry of a queued command whose instance is active and whose fence is met. -/
theorem entry_queued {s : State} {c : Cmd} (hc : s.cmd c.slot c.seq = some c) (hactive : (s.inst c.inst).state = .active)
    (hfence : s.fenceOk c = true) : Scan.entry ⟨s.onThread 5 none, []⟩ ⟨0, c, 0⟩
      = if c.opcode = opLaunch then
          (if c.relay then Scan.relay ⟨s.onThread 5 none, []⟩ c else Scan.launch ⟨s.onThread 5 none, []⟩ c)
        else Scan.chan ⟨s.onThread 5 none, []⟩ c := by
  have hc' : (s.onThread 5 none).cmd c.slot c.seq = some c := hc
  have hfetches : ((s.onThread 5 none).inst c.inst).state.fetches = true := by
    rw [show (s.onThread 5 none).inst c.inst = s.inst c.inst from rfl, hactive]
    rfl
  have hfence' : (s.onThread 5 none).fenceOk c = true := hfence
  simp only [Scan.entry, hc', hfetches, hfence', beq_self_eq_true, Bool.not_true, Bool.and_false, Bool.or_self,
    Bool.false_eq_true, if_false, if_true]

-- A launch granted its only member (01 R21, 08 R168) ------------------------------------------------------------------

/-- A member of one partition granted: what the partition holds, and the others as they were. -/
theorem grantMember_one {s : State} (c : Cmd) {n : Need} (hshape : n.shape = 0) :
    ((s.grantMember c n).part n.leader).run = some (c.slot, c.seq, n.idx)
    ∧ ((s.grantMember c n).part n.leader).acked = false
    ∧ ((s.grantMember c n).part n.leader).state = (if s.hasGroup 0 n.leader then .busy else .fusing)
    ∧ (∀ q, q ≠ n.leader → (s.grantMember c n).part q = s.part q)
    ∧ (s.grantMember c n).cmds = s.cmds := by
  have hgroup : groupParts n.shape n.leader = [n.leader] := by rw [hshape]; rfl
  unfold State.grantMember
  rw [hgroup, hshape]
  simp only [List.foldl_cons, List.foldl_nil]
  have hcluster (u : State) (j : Nat) (g : Cluster → Cluster) (q : Nat) : (u.updCluster j g).part q = u.part q := rfl
  split
  next hok =>
    refine ⟨?_, ?_, ?_, fun q hq => updPart_part_other _ _ hq, rfl⟩
    all_goals rw [updPart_part_same]
  next hno =>
    refine ⟨?_, ?_, ?_, fun q hq => (hcluster _ _ _ q).trans (updPart_part_other _ _ hq), rfl⟩
    all_goals rw [hcluster, updPart_part_same]

/-- A launch of one role with its only replica, whose member is granted. -/
def launched (s : State) (c : Cmd) (n : Need) : Cmd :=
  { beginCmd c s.now with
    stage := .executing
    pqEntry := none
    replicas := [mkReplica ((s.graph c.inst c.graph).map (·.fixed)) false { n with idx := 0 } .granted none] }

def launchStarted (s : State) (c : Cmd) (n : Need) : State := s.setCmd (launched s c n)

/-- The only candidate of a SPREAD launch, free and without a stream, is granted the launch as replica 0. -/
theorem launch_only {s : State} {c : Cmd} {n : Need} (hrelay : c.relay = false) (hone : s.candidates c c.role = [n])
    (hgang : bwGang (s.bindWord c.inst c.role) = false) (hfree : s.memberFree [] c n = true) (hstream : s.needStream c n = none)
    (hgated : s.allGated [n] = false) (hskims : s.skimsFree c 0 = true) :
    Scan.launch ⟨s.onThread 5 none, []⟩ c
      = ⟨(launchStarted (s.onThread 5 none) c n).grantMember c { n with idx := 0 }, []⟩ := by
  have hone' : (s.onThread 5 none).candidates c c.role = [n] := hone
  have hgang' : bwGang ((s.onThread 5 none).bindWord c.inst c.role) = false := hgang
  have hfree' : (s.onThread 5 none).memberFree [] c n = true := hfree
  have hstream' : (s.onThread 5 none).needStream c n = none := hstream
  have hstream0 : (s.onThread 5 none).needStream c { n with idx := 0 } = none := hstream
  have hgated' : (s.onThread 5 none).allGated [n] = false := hgated
  have hneed : (s.onThread 5 none).skimNeed c [n] = 0 := by
    simp only [State.skimNeed, List.filter_cons, hstream', Option.isSome_none, Bool.false_eq_true, if_false, List.filter_nil,
      List.length_nil, hrelay, Nat.zero_min]
  have hskims' : (s.onThread 5 none).skimsFree c ((s.onThread 5 none).skimNeed c [n]) = true := by
    rw [hneed]
    exact hskims
  have hstart : (s.onThread 5 none).startLaunch c [{ n with idx := 0 }] []
      = (launchStarted (s.onThread 5 none) c n).grantMember c { n with idx := 0 } := by
    simp only [State.startLaunch, List.append_nil, List.mergeSort_singleton, State.takeSkims, hstream0, List.map_cons,
      List.map_nil, List.contains_cons, beq_self_eq_true, Bool.true_or, if_true, List.foldl_cons, List.foldl_nil, hrelay,
      launchStarted, launched]
  simp only [Scan.launch, hone', hgated', hgang', hskims', List.isEmpty_cons, Bool.false_eq_true, if_false, Bool.not_true,
    List.filter_cons, hfree', if_true, List.filter_nil, List.take_succ_cons, List.take_zero, List.map_cons, List.map_nil, hstart,
    Scan.holdEach, List.foldl_nil]

/-- Settles O32: the order of the entries, and what the scan makes of the only entry. -/
theorem theScanGrantsEntriesInOrder : Obligations.TheScanGrantsEntriesInOrder := by
  refine ⟨?order, ?pass, ?halted, ?channel, ?launch⟩
  case order =>
    intro a b
    simp only [itemBefore]
    refine ⟨fun hcls => ?_, fun hcls hkey => ?_, fun hcls hkey horder => ?_⟩
    · have := Nat.ne_of_lt hcls
      simp [hcls, Nat.not_lt.2 (Nat.le_of_lt hcls), this.symm]
    · simp [hcls, hkey, Nat.not_lt.2 (Nat.le_of_lt hkey), (Nat.ne_of_lt hkey).symm]
    · simp [hcls, hkey, horder, Nat.not_lt.2 (Nat.le_of_lt horder), (Nat.ne_of_lt horder).symm]
  case pass =>
    intro s hruns
    have hexec : exec .scan s = .next (((s.items.mergeSort itemBefore).foldl Scan.entry ⟨s.onThread 5 none, []⟩).st).reassess := by
      simp only [exec, execScan, scan, hruns, if_true]
    refine ⟨_, hexec, scan_still hexec, rfl, fun hnone => ?_⟩
    rw [hnone, List.mergeSort_nil, List.foldl_nil]
    exact ⟨reassess_cmds (s.onThread 5 none), reassess_partsStepped (s.onThread 5 none)⟩
  case halted =>
    intro s hhalted
    simp only [exec, execScan, scan, hhalted, Bool.false_eq_true, if_false]
  case channel =>
    intro s c ch hruns hitems hc hactive hfence hop hlow
    have hexec := scan_one hruns hitems
    have hchan : Scan.chan ⟨s.onThread 5 none, []⟩ c = ⟨((s.onThread 5 none).resetStream (512 + ch)).setCmd
        { beginCmd c s.now with stage := .executing, pqEntry := none, chan := some ch }, []⟩ := by
      have hlow' : lowestFree (s.onThread 5 none).chansUsed 0 4 = some ch := hlow
      simp only [Scan.chan, hlow']
      rfl
    have hstill := scan_still hexec
    rw [entry_queued hc hactive hfence, if_neg hop, hchan] at hexec hstill
    refine ⟨_, hexec, hstill, ?_, ?_⟩
    · rw [State.hostBytes, reassess_fep]
      exact (resetStream_done (s.onThread 5 none) (512 + ch)).1
    · rw [reassess_cmd, setCmd_cmd _ (c := { beginCmd c s.now with stage := .executing, pqEntry := none, chan := some ch })
        (slot := c.slot) (k := c.seq) rfl rfl, if_pos rfl]
      rfl
  case launch =>
    intro s c hruns hitems hc hactive hfence hop hrelay
    have hexec := scan_one hruns hitems
    have hstill := scan_still hexec
    rw [entry_queued hc hactive hfence, if_pos hop, hrelay, if_neg Bool.false_ne_true] at hexec hstill
    refine ⟨fun hnone => ?_, fun n hone hshape hgang hfree hstream hgated hskims => ?_⟩
    · have hlaunch : Scan.launch ⟨s.onThread 5 none, []⟩ c = ⟨(s.onThread 5 none).endCmd c St.unitWithdrawn 0, []⟩ := by
        have hnone' : (s.onThread 5 none).candidates c c.role = [] := hnone
        simp only [Scan.launch, hnone', List.isEmpty_nil, if_true, State.withdraw]
      rw [hlaunch] at hexec hstill
      refine ⟨_, hexec, hstill, ?_⟩
      rw [reassess_cmd]
      exact (endCmd_frame rfl rfl St.unitWithdrawn 0).2.1
    · rw [launch_only hrelay hone hgang hfree hstream hgated hskims] at hexec hstill
      obtain ⟨hrun, hacked, hstate, hothers, hcmds⟩ := grantMember_one (s := launchStarted (s.onThread 5 none) c n) c
        (n := { n with idx := 0 }) hshape
      have hstepped := reassess_partsStepped ((launchStarted (s.onThread 5 none) c n).grantMember c { n with idx := 0 })
      have hcmd : (((launchStarted (s.onThread 5 none) c n).grantMember c { n with idx := 0 }).reassess).cmd c.slot c.seq
          = some (launched (s.onThread 5 none) c n) := by
        rw [reassess_cmd, State.cmd, hcmds]
        exact (setCmd_cmd (s.onThread 5 none) (c := launched (s.onThread 5 none) c n) (slot := c.slot) (k := c.seq) rfl rfl
          c.seq).trans (if_pos rfl)
      generalize (launchStarted (s.onThread 5 none) c n).grantMember c { n with idx := 0 } = t at *
      have hmine := hstepped n.leader
      refine ⟨_, launched (s.onThread 5 none) c n, hexec, hstill, hcmd, rfl, rfl, rfl, ?_, ?_, ?_, ?_, fun q hq => ?_⟩
      · simp only [launched, List.map_cons, List.map_nil, mkReplica, hshape]
      · rw [hmine]
        exact hrun
      · rw [hmine]
        exact hacked
      · rw [hmine]
        exact hstate
      · have hsame := hstepped q
        rw [hothers q hq] at hsame
        exact hsame

end Sys2Proof.Proofs
end

section
/-! PROOFS. Machine checks (02 R49 to R53), grants and the start of tiles (01 R16, R22, 02 R43, R46, 07 R153, 10 R226, 16 R357). -/

namespace Sys2Proof.Proofs
open Sys2Proof Sys2Proof.Machine Sys2Proof.Safety Sys2Proof.Laws

-- O36 -----------------------------------------------------------------------------------------------------------------

/-- A partition whose machine check is to be reported, while the first probe of router 0 counts the REPORT packets that come
in. -/
def probedReport : State :=
  { parts := [(0, { faultPending := true })], net := { probes := [(0, { ctl := 0x3D9, types := 0x40000 })] } }

/-- The packets that the first probe has counted. -/
def probeCount (s : State) : BitVec 32 := (tabGetD s.net.probes 0 {}).pkts

/-- The report of a machine check once the requests of the launch have completed. -/
theorem mcheckReport_ready {s : State} {p : Fin 16} (hruns : s.fepRuns = true) (hfault : (s.part p.val).faultPending = true)
    (hfatal : (s.part p.val).fatalUntil = none) (hready : s.lossReady p.val false = true) :
    exec (.mcheckReport p) s = .next (((s.reportSeen p.val).lossReported p.val).memberLost p.val (s.part p.val).mcCause.toNat
      St.partMcheck) := by
  simp only [exec, execMcheckReport, hruns, hfault, hfatal, hready, Option.isNone_none, Bool.and_self, if_true]

/-- Refutes O36: the report of a machine check is a packet of the network, which a probe counts, and the third clause gives the
state after it as one in which no packet has passed. -/
theorem not_machineChecksTakeAPartitionOffline : ¬ Obligations.MachineChecksTakeAPartitionOffline := by
  intro h
  obtain ⟨-, -, hreport⟩ := h
  obtain ⟨hready, -⟩ := hreport probedReport 0 (by decide +kernel) (by decide +kernel) (by decide +kernel)
  obtain ⟨t, hexec, -, ht⟩ := hready (by decide +kernel)
  have hmodel := mcheckReport_ready (s := probedReport) (p := 0) (by decide +kernel) (by decide +kernel) (by decide +kernel)
    (by decide +kernel)
  have hcause : (probedReport.part 0).mcCause.toNat = 0 := by decide +kernel
  rw [show ((0 : Fin 16).val) = 0 from rfl, hcause] at hmodel ht
  have hcounted : probeCount (((probedReport.reportSeen 0).lossReported 0).memberLost 0 0 St.partMcheck) = 1 := by decide +kernel
  have hstated : probeCount t = 0 := by
    rw [ht]
    decide +kernel
  rw [hmodel] at hexec
  injection hexec with hsame
  rw [← hsame, hcounted] at hstated
  exact absurd hstated (by decide)

-- A partition taken offline (02 R49, R52) -----------------------------------------------------------------------------

/-- Partitions of a list changed alike, by a change that a second time alters nothing. -/
theorem foldl_updPart_part (s : State) {f : Part → Part} (hf : ∀ x, f (f x) = f x) (l : List Nat) (q : Nat) :
    (l.foldl (fun t p => t.updPart p f) s).part q = if q ∈ l then f (s.part q) else s.part q := by
  induction l generalizing s with
  | nil => rfl
  | cons p l ih =>
    rw [List.foldl_cons, ih]
    by_cases hp : q = p
    · subst hp
      rw [updPart_part_same, if_pos List.mem_cons_self, hf, ite_self]
    · rw [updPart_part_other _ _ hp]
      exact if_congr (by rw [List.mem_cons, or_iff_right hp]) rfl rfl

theorem foldl_updPart_frame (s : State) (f : Nat → Part → Part) (l : List Nat) :
    l.foldl (fun t p => t.updPart p (f p)) s = { s with parts := (l.foldl (fun t p => t.updPart p (f p)) s).parts } := by
  induction l generalizing s with
  | nil => rfl
  | cons p l ih =>
    rw [List.foldl_cons, ih]
    rfl

/-- Every partition changed, each by its own change. -/
theorem mapParts_part (s : State) (f : Nat → Part → Part) {q : Nat} (hq : q < 16) : (s.mapParts f).part q = f q (s.part q) := by
  have hlist (l : List Nat) (hl : l.Nodup) (u : State) : (l.foldl (fun t p => t.updPart p (f p)) u).part q
      = if q ∈ l then f q (u.part q) else u.part q := by
    induction l generalizing u with
    | nil => rfl
    | cons p l ih =>
      obtain ⟨hp, hl⟩ := List.nodup_cons.1 hl
      rw [List.foldl_cons, ih hl]
      by_cases hqp : q = p
      · subst hqp
        rw [if_neg hp, updPart_part_same, if_pos List.mem_cons_self]
      · rw [updPart_part_other _ _ hqp]
        exact if_congr (by rw [List.mem_cons, or_iff_right hqp]) rfl rfl
  exact (hlist _ List.nodup_range s).trans (if_pos (List.mem_range.2 hq))

theorem mapParts_frame (s : State) (f : Nat → Part → Part) : s.mapParts f = { s with parts := (s.mapParts f).parts } :=
  foldl_updPart_frame s f _

/-- A group that detaches from its stream keeps its partitions. -/
theorem detach_parts (s : State) (g leader shape cause : Nat) : (s.detach g leader shape cause).parts = s.parts := by
  have hsweep (u : State) : (u.sweepSkim g).parts = u.parts := by
    unfold State.sweepSkim
    split <;> rfl
  unfold State.detach
  dsimp only
  split
  · rfl
  · rw [hsweep, eventLimited_parts]
    rfl

/-- What the CBA's reassessment leaves of a partition. -/
theorem alerted_reassess_part (s u : State) (p : Nat) : Stepped (u.part p) (((alerted s u).reassess).part p) := by
  have := reassess_partsStepped (alerted s u) p
  rwa [alerted_part] at this

/-- A partition with a machine check: out of service, its grant gone, and its loss to be reported. -/
theorem machineCheck_offline {s : State} {p : Nat} (cause : Nat) (loc : BitVec 27)
    (hservice : (s.part p).state = .idle ∨ (s.part p).state = .busy ∨ (s.part p).state = .fusing) :
    ((machineCheck p cause loc s).part p).state = .offline ∧ ((machineCheck p cause loc s).part p).faultPending = true
    ∧ ((machineCheck p cause loc s).part p).grant = none := by
  have hgo : ((s.part p).state != .idle && (s.part p).state != .busy && (s.part p).state != .fusing) = false := by
    rcases hservice with h | h | h <;> rw [h] <;> rfl
  have hstop (u x : State) (hx : (x.part p).state = .offline ∧ (x.part p).faultPending = true ∧ (x.part p).grant = none) :
      (((alerted u x).reassess).part p).state = .offline ∧ (((alerted u x).reassess).part p).faultPending = true
      ∧ (((alerted u x).reassess).part p).grant = none := by
    rw [alerted_reassess_part u x p]
    exact hx
  have hhalt (x : State) (ps : List Nat)
      (hx : (x.part p).state = .offline ∧ (x.part p).faultPending = true ∧ (x.part p).grant = none) :
      ((x.haltParts ps).part p).state = .offline ∧ ((x.haltParts ps).part p).faultPending = true
      ∧ ((x.haltParts ps).part p).grant = none := by
    rcases haltParts_part x ps p with h | h <;> rw [h]
    · exact hx
    · exact ⟨hx.1, hx.2.1, rfl⟩
  unfold machineCheck
  dsimp only
  rw [hgo, if_neg Bool.false_ne_true]
  refine hstop _ _ ?_
  split
  · split
    · have hparts (x : State) (g l sh k : Nat) : (x.detach g l sh k).part p = x.part p := by
        unfold State.part
        rw [detach_parts]
      rw [hparts]
      exact hhalt _ _ (by rw [updPart_part_same]; exact ⟨rfl, rfl, rfl⟩)
    · exact hhalt _ _ (by rw [updPart_part_same]; exact ⟨rfl, rfl, rfl⟩)
  · rw [updPart_part_same]
    exact ⟨rfl, rfl, rfl⟩

end Sys2Proof.Proofs
end

section
/-! PROOFS. Grants acknowledged, fusion changes and current grants (01 R16, R22, 02 R38, R43, R44, R46, 07 R153, 10 R226,
16 R357). -/

namespace Sys2Proof.Proofs
open Sys2Proof Sys2Proof.Machine Sys2Proof.Safety Sys2Proof.Laws

/-- What runs on a partition: one of the replicas of its command. -/
theorem mem_replicas_of_runOf {s : State} {p : Nat} {c : Cmd} {r : Replica} (h : s.runOf p = some (c, r)) : r ∈ c.replicas := by
  simp only [State.runOf, Option.bind_eq_bind, Option.bind_eq_some_iff, Option.pure_def, Option.some.injEq] at h
  obtain ⟨⟨slot, seq, idx⟩, _, d, _, x, hx, heq⟩ := h
  obtain ⟨rfl, rfl⟩ := Prod.mk.inj heq
  exact List.mem_of_find?_eq_some hx

-- Grants (01 R16, 10 R226) --------------------------------------------------------------------------------------------

theorem vc3_frame (s : State) (typ src dst p : Nat) : s.vc3 typ src dst p = { s with net := (s.vc3 typ src dst p).net } := rfl

theorem grantSeen_cmds (s : State) (p : Nat) : (s.grantSeen p).cmds = s.cmds := by rw [State.grantSeen, vc3_frame]

theorem freeReplica_cmds (s : State) (slot seq idx : Nat) : (s.freeReplica slot seq idx).cmds = s.cmds := by
  rw [State.freeReplica, mapParts_frame]

theorem grantAck_still {s t : State} {p : Fin 16} (h : exec (.grantAck p) s = .next t) : Still s t :=
  still_of_view (view_execGrantAck p s h)

/-- A partition that has acknowledged its grant, the GRANT and the REPORT counted by the probes they pass. -/
def grantAcked (s : State) (p : Nat) : State := ((s.grantSeen p).reportSeen p).updPart p (fun x => { x with acked := true })

theorem grantAcked_frame (s : State) (p : Nat) :
    grantAcked s p = { (s.grantSeen p).reportSeen p with parts := (grantAcked s p).parts }
    ∧ (grantAcked s p).part p = { s.part p with acked := true } ∧ (∀ q, q ≠ p → (grantAcked s p).part q = s.part q)
    ∧ (grantAcked s p).cmds = s.cmds := by
  have hseen : ((s.grantSeen p).reportSeen p).parts = s.parts ∧ ((s.grantSeen p).reportSeen p).cmds = s.cmds := by
    rw [State.reportSeen, vc3_frame, State.grantSeen, vc3_frame]
    exact ⟨rfl, rfl⟩
  unfold grantAcked
  generalize (s.grantSeen p).reportSeen p = u at *
  obtain ⟨hparts, hcmds⟩ := hseen
  have hpart (q : Nat) : u.part q = s.part q := by unfold State.part; rw [hparts]
  refine ⟨rfl, ?_, fun q hq => ?_, hcmds⟩
  · rw [updPart_part_same, hpart]
  · rw [updPart_part_other _ _ hq, hpart]

theorem grantAck_eq {s : State} {p : Nat} {c : Cmd} {r : Replica} (hrun : s.runOf p = some (c, r)) (hruns : s.fepRuns = true)
    (hgranted : r.state = .granted) (hunacked : (s.part p).acked = false) (hcancel : c.cancelled = false) :
    ((s.part p).state ≠ .gated → grantAck p s = if c.relay then
        (if c.replicas.all (fun x => x.state == .granted && (grantAcked s p).ackedAll x) then
          c.replicas.foldl (fun t x => t.startReplica c x) (grantAcked s p)
        else grantAcked s p)
      else if (grantAcked s p).ackedAll r then (grantAcked s p).startReplica c r else grantAcked s p)
    ∧ ((s.part p).state = .gated → c.relay = false →
      grantAck p s = State.endIfDone (((s.grantSeen p).freeReplica c.slot c.seq r.idx).updReplica c.slot c.seq r.idx (fun r =>
        { r with state := .ended, status := St.unitWithdrawn })) c.slot c.seq) := by
  have hgo : (!s.fepRuns || r.state != .granted || (s.part p).acked || c.cancelled) = false := by
    rw [hruns, hgranted, hunacked, hcancel]
    rfl
  refine ⟨fun hstate => ?_, fun hstate hrelay => ?_⟩
  · simp only [grantAck, hrun, hgo, beq_false_of_ne hstate, Bool.false_eq_true, if_false]
    rfl
  · simp only [grantAck, hrun, hgo, hstate, hrelay, beq_self_eq_true, Bool.false_eq_true, if_false, if_true]

theorem ackedAll_false {s : State} {p : Nat} {x : Replica}
    (h : ∃ q ∈ groupParts x.shape x.leader, q ≠ p ∧ (s.part q).acked = false) : (grantAcked s p).ackedAll x = false := by
  obtain ⟨q, hq, hne, hacked⟩ := h
  refine List.all_eq_false.2 ⟨q, hq, ?_⟩
  rw [(grantAcked_frame s p).2.2.1 q hne, hacked]
  exact Bool.false_ne_true

/-- A replica of one partition without a stream that starts its first tile. -/
theorem startReplica_first {s : State} {c : Cmd} {r : Replica} (hshape : r.shape = 0) (hskim : r.skim = none) (htile : r.tile = 0) :
    s.startReplica c r = s.updReplica c.slot c.seq r.idx (fun r => { r with state := .running }) := by
  have hlive (q : Nat) : s.restoreLive c r q = s := by
    have hbytes : s.liveBytes c r = 0 := if_pos htile
    unfold State.restoreLive
    rw [hbytes]
    rfl
  have hjoin : s.joinSkim c r = s := by
    unfold State.joinSkim
    rw [hskim]
  have hgroup : groupParts r.shape r.leader = [r.leader] := by rw [hshape]; rfl
  unfold State.startReplica
  rw [hjoin, hgroup, List.foldl_cons, List.foldl_nil, hlive]

/-- A command whose only replica ends at a gated bridge. -/
theorem endIfDone_only {s : State} {c : Cmd} {slot k : Nat} {r : Replica} (hc : s.cmd slot k = some c) (hslot : c.slot = slot)
    (hseq : c.seq = k) (hreplicas : c.replicas = [r]) (hended : r.state = .ended) (hstage : c.stage = .executing)
    (hcancel : c.cancelled = false) :
    ∃ x, (s.endIfDone slot k).cmd slot k = some x ∧ x.stage = .ended ∧ x.replicas = [r] := by
  have hgo : (!c.replicas.isEmpty && c.replicas.all (fun r => r.state == .ended) && c.stage == .executing && !c.cancelled) = true := by
    rw [hreplicas, List.all_cons, hended, hstage, hcancel]
    rfl
  unfold State.endIfDone
  rw [hc]
  dsimp only
  rw [if_pos hgo]
  generalize (if c.relay then (c.replicas.find? (fun r => r.status != St.ok)).map (·.status) |>.getD St.ok else c.status) = st
  exact ⟨_, (endCmd_frame hslot hseq st 0).2.1, rfl, hreplicas⟩

-- Fusion changes (02 R43, R44) ----------------------------------------------------------------------------------------

theorem groupClocks_frame (s : State) (c old : Nat) : PowerOnly s (s.groupClocks c old) ∧ PartsStepped s (s.groupClocks c old) := by
  unfold State.groupClocks
  refine ⟨powerOnly_foldl _ (fun t q => ?_) _ s, partsStepped_foldl _ (fun t q => ?_) _ s⟩
  · dsimp only
    split
    · exact .refl t
    · exact powerOnly_orderStep ..
  · dsimp only
    split
    · exact partsStepped_of_parts_eq rfl
    · exact orderStep_partsStepped _ _ _

theorem fusionChange_still {s t : State} {c : Fin 4} (h : exec (.fusionChangeComplete c) s = .next t) : Still s t :=
  still_of_view (view_execFusionChangeComplete c s h)

theorem currentGrant_still {s t : State} {p : Fin 16} (h : exec (.currentGrantRequest p) s = .next t) : Still s t :=
  still_of_view (view_execCurrentGrantRequest p s h)

/-- A partition of the cluster whose change is complete: its group may request its grants. -/
def fusedPart (c p : Nat) (x : Part) : Part :=
  if p / 4 = c then
    { x with fuseWait := false, state := if x.state == .fusing then (if x.run.isSome then .busy else .idle) else x.state }
  else x

theorem fusionChangeComplete_eq {s : State} {c sh : Nat} (h : (s.cluster c).changing = some sh) :
    fusionChangeComplete c s = (((s.updCluster c (fun k => { k with shape := sh, changing := none })).mapParts
      (fusedPart c)).groupClocks c (s.cluster c).shape).reassess := by
  simp only [fusionChangeComplete, h]
  rfl

-- Current grants (02 R46, 07 R153, 16 R357) ---------------------------------------------------------------------------

theorem chargeStore_frame (s : State) (n : Nat) (pages : List Nat) :
    (s.chargeStore n pages).parts = s.parts ∧ (s.chargeStore n pages).cmds = s.cmds := by
  unfold State.chargeStore
  induction pages generalizing s with
  | nil => exact ⟨rfl, rfl⟩
  | cons k pages ih =>
    obtain ⟨hparts, hcmds⟩ := ih (s.chargePriv n (0x2000000 + 256 * k) 256)
    obtain ⟨w, hw⟩ := chargePriv_eq s n (0x2000000 + 256 * k) 256
    rw [List.foldl_cons]
    rw [hw] at hparts hcmds ⊢
    exact ⟨hparts, hcmds⟩

/-- The tag of a member whose resident weights are loaded. -/
def tagOf (c : Cmd) (i m : Nat) : ResTag := ⟨c.inst, c.graph, c.version, i, m⟩

/-- A member with its resident weights loaded. -/
def residentPart (s : State) (c : Cmd) (v : GVersion) (i : Nat) (var : Variant) (m : Nat) (x : Part) : Part :=
  if x.residency = some (tagOf c i m) then x
  else { x.writeSram .weight 0 (((s.patchBytes v).drop (var.resOff + m * var.resMember)).take var.resMember) with
    residency := some (tagOf c i m) }

theorem loadResident_known {s : State} {c : Cmd} {r : Replica} {g : Graph} {v : GVersion} {i : Nat} {var : Variant}
    (hv : s.pinnedVersion c = some (g, v)) (hvar : s.variantOf c r = some (i, var)) (p m : Nat) :
    (s.loadResident c r p m).cmds = s.cmds ∧ (∀ q, q ≠ p → (s.loadResident c r p m).part q = s.part q)
    ∧ (s.loadResident c r p m).part p = residentPart s c v i var m (s.part p) := by
  unfold State.loadResident
  rw [hv, hvar]
  dsimp only
  unfold residentPart tagOf
  split
  · exact ⟨rfl, fun _ _ => rfl, rfl⟩
  · obtain ⟨hparts, hcmds⟩ := chargeStore_frame s c.inst ((v.pages.drop ((var.resOff + m * var.resMember) / 256)).take
      (var.resMember / 256))
    generalize s.chargeStore c.inst _ = u at *
    have hpart (q : Nat) : u.part q = s.part q := by unfold State.part; rw [hparts]
    refine ⟨hcmds, fun q hq => (updPart_part_other _ _ hq).trans (hpart q), ?_⟩
    rw [updPart_part_same, hpart]

theorem writeSram_weight (x : Part) (off : Nat) (bs : List Byte) :
    x.writeSram .weight off bs = { x with weight := (x.writeSram .weight off bs).weight } := by
  unfold Part.writeSram
  split <;> rfl

/-- Loading resident weights touches the member's weights and its tag alone. -/
theorem loadResident_frame (s : State) (c : Cmd) (r : Replica) (p m : Nat) :
    (s.loadResident c r p m).cmds = s.cmds ∧ (∀ q, q ≠ p → (s.loadResident c r p m).part q = s.part q)
    ∧ (s.loadResident c r p m).part p = { s.part p with
      weight := ((s.loadResident c r p m).part p).weight
      residency := ((s.loadResident c r p m).part p).residency } := by
  cases hv : s.pinnedVersion c with
  | none =>
    have : s.loadResident c r p m = s := by unfold State.loadResident; rw [hv]
    rw [this]
    exact ⟨rfl, fun _ _ => rfl, rfl⟩
  | some gv =>
    cases hvar : s.variantOf c r with
    | none =>
      have : s.loadResident c r p m = s := by unfold State.loadResident; rw [hv, hvar]
      rw [this]
      exact ⟨rfl, fun _ _ => rfl, rfl⟩
    | some iv =>
      obtain ⟨hcmds, hothers, hpart⟩ := loadResident_known (g := gv.1) (v := gv.2) (i := iv.1) (var := iv.2) hv hvar p m
      refine ⟨hcmds, hothers, ?_⟩
      rw [hpart]
      unfold residentPart
      split
      · rfl
      · rw [writeSram_weight]

/-- A member that asks for current, its weights loaded; the tile of a group whose members all hold a grant runs. -/
def grantAsked (s : State) (c : Cmd) (r : Replica) (p : Nat) (tl : Tile) : State :=
  (s.loadResident c r p (p - r.leader)).updPart p (fun x => { x with grant := some tl.cls })

/-- The group's tile starts where every member holds a grant. -/
def startTile (u : State) (g : List Nat) : State :=
  if g.all (fun q => (u.part q).grant.isSome) then g.foldl (fun t q => t.updPart q (fun x => { x with tileRunning := true })) u
  else u

theorem currentGrant_eq {s : State} {p : Nat} {c : Cmd} {r : Replica} {tl : Tile} (hmay : s.mayTile p = true)
    (hround : s.abrt.roundOn = false ∨ p ∉ s.abrt.parts) (hrun : s.runOf p = some (c, r)) (htile : s.tileOf c r r.tile = some tl) :
    (parityFails (s.seqStored p tl.uentry) = 0 → currentGrantRequest p s
      = (startTile (grantAsked s c r p tl) (groupParts r.shape r.leader)).reassess)
    ∧ (parityFails (s.seqStored p tl.uentry) ≠ 0 → currentGrantRequest p s
      = machineCheck p 1 (parityLocation tl.uentry (parityFails (s.seqStored p tl.uentry))) s) := by
  have hgo : (!s.mayTile p || (s.abrt.roundOn && s.abrt.parts.contains p)) = false := by
    rw [hmay]
    rcases hround with h | h
    · rw [h]; rfl
    · rw [show s.abrt.parts.contains p = false by simpa using h, Bool.and_false]; rfl
  refine ⟨fun hok => ?_, fun hfails => ?_⟩
  · simp only [currentGrantRequest, hgo, hrun, htile, hok, ne_eq, not_true_eq_false, Bool.false_eq_true, if_false]
    rfl
  · simp only [currentGrantRequest, hgo, hrun, htile, hfails, ne_eq, not_false_eq_true, Bool.false_eq_true, if_false, if_true]

theorem startTile_part (u : State) (g : List Nat) (q : Nat) : (startTile u g).part q
      = { u.part q with tileRunning := ((startTile u g).part q).tileRunning }
    ∧ ((∀ k ∈ g, (u.part k).grant.isSome = true) → q ∈ g → ((startTile u g).part q).tileRunning = true)
    ∧ ((∃ k ∈ g, (u.part k).grant = none) → ((startTile u g).part q).tileRunning = (u.part q).tileRunning) := by
  unfold startTile
  split
  next hall =>
    rw [foldl_updPart_part u (f := fun x => { x with tileRunning := true }) (fun _ => rfl)]
    refine ⟨by split <;> rfl, fun _ hq => by rw [if_pos hq], fun hno => ?_⟩
    obtain ⟨k, hk, hnone⟩ := hno
    have := List.all_eq_true.1 hall k hk
    rw [hnone] at this
    cases this
  next hno => exact ⟨rfl, fun hall => absurd (List.all_eq_true.2 hall) hno, fun _ => rfl⟩

theorem startTile_cmds (u : State) (g : List Nat) : (startTile u g).cmds = u.cmds := by
  unfold startTile
  split
  · rw [foldl_updPart_frame u (fun _ x => { x with tileRunning := true })]
  · rfl

theorem grantAsked_frame (s : State) (c : Cmd) (r : Replica) (p : Nat) (tl : Tile) : (grantAsked s c r p tl).cmds = s.cmds
    ∧ (∀ q, q ≠ p → (grantAsked s c r p tl).part q = s.part q)
    ∧ (grantAsked s c r p tl).part p = { (s.loadResident c r p (p - r.leader)).part p with grant := some tl.cls } := by
  obtain ⟨hcmds, hothers, _⟩ := loadResident_frame s c r p (p - r.leader)
  exact ⟨hcmds, fun q hq => (updPart_part_other _ _ hq).trans (hothers q hq), updPart_part_same ..⟩

theorem busy_of_mayTile {s : State} {p : Nat} (h : s.mayTile p = true) : (s.part p).state = .busy := by
  simp only [State.mayTile, Bool.and_eq_true, beq_iff_eq] at h
  exact h.1.2

/-- Settles O33: each answer to a grant, a fusion change, and a request for current by what its member may do. -/
theorem grantsAreAcknowledgedAndTilesStart : Obligations.GrantsAreAcknowledgedAndTilesStart := by
  refine ⟨?ack, ?fused, ?unchanged, ?current, ?held, ?none⟩
  case ack =>
    intro s p c r hrun hc hruns hgranted hunacked hcancel seen
    obtain ⟨hgo, hgated⟩ := grantAck_eq hrun hruns hgranted hunacked hcancel
    obtain ⟨hframe, hmine, hothers, hcmds⟩ := grantAcked_frame s p.val
    have hexec : exec (.grantAck p) s = .next (grantAck p.val s) := rfl
    have hunstarted (h : grantAck p.val s = grantAcked s p.val) : ∃ t, exec (.grantAck p) s = .next t
        ∧ t = { seen with parts := t.parts } ∧ t.part p.val = { s.part p.val with acked := true }
        ∧ ∀ q, q ≠ p.val → t.part q = s.part q := ⟨_, hexec.trans (congrArg _ h), hframe, hmine, hothers⟩
    refine ⟨fun hstate hmore => hunstarted ?_, fun hstate hrelay hmore => hunstarted ?_,
      fun hstate hrelay hshape hleader hskim htile => ?_, fun hstate hrelay hstage hreplicas => ?_⟩
    · have hnot := ackedAll_false hmore
      have hall : c.replicas.all (fun x => x.state == .granted && (grantAcked s p.val).ackedAll x) = false :=
        List.all_eq_false.2 ⟨r, mem_replicas_of_runOf hrun, by rw [hnot, Bool.and_false]; exact Bool.false_ne_true⟩
      rw [hgo hstate, hnot, hall]
      simp only [Bool.false_eq_true, if_false, ite_self]
    · obtain ⟨x, hx, hwait⟩ := hmore
      have hall : c.replicas.all (fun x => x.state == .granted && (grantAcked s p.val).ackedAll x) = false := by
        refine List.all_eq_false.2 ⟨x, hx, ?_⟩
        rcases hwait with h | h
        · rw [beq_false_of_ne h]
          exact Bool.false_ne_true
        · rw [ackedAll_false h, Bool.and_false]
          exact Bool.false_ne_true
      rw [hgo hstate, hrelay, hall]
      rfl
    · have hgroup : groupParts r.shape r.leader = [p.val] := by rw [hshape, hleader]; rfl
      have hall : (grantAcked s p.val).ackedAll r = true := by
        rw [State.ackedAll, hgroup, List.all_cons, hmine]
        rfl
      have hstarts : grantAck p.val s = (grantAcked s p.val).updReplica c.slot c.seq r.idx (fun r => { r with state := .running }) := by
        rw [hgo hstate, hrelay, hall, startReplica_first hshape hskim htile]
        rfl
      refine ⟨_, hexec.trans (congrArg _ hstarts), ?_, hmine, hothers, ?_⟩
      · rw [hframe]
        rfl
      · rw [State.updReplica, updCmd_cmd, if_pos rfl, State.cmd, hcmds]
        exact congrArg (Option.map _) hc
    · have hends := hgated hstate hrelay
      have hcmd : ((((s.grantSeen p.val).freeReplica c.slot c.seq r.idx).updReplica c.slot c.seq r.idx (fun r =>
          { r with state := .ended, status := St.unitWithdrawn })).cmd c.slot c.seq)
          = some { c with replicas := [{ r with state := .ended, status := St.unitWithdrawn }] } := by
        have hfreed : ((s.grantSeen p.val).freeReplica c.slot c.seq r.idx).cmd c.slot c.seq = some c := by
          rw [State.cmd, freeReplica_cmds, grantSeen_cmds]
          exact hc
        rw [State.updReplica, updCmd_cmd, if_pos rfl, hfreed, Option.map_some, hreplicas, List.map_cons, List.map_nil, if_pos rfl]
      obtain ⟨x, hx, hended, hrep⟩ := endIfDone_only hcmd rfl rfl rfl rfl hstage hcancel
      have hnext := hexec.trans (congrArg _ hends)
      refine ⟨_, x, hnext, grantAck_still hnext, hx, hended, hrep⟩
  case fused =>
    intro s k sh hchanging
    have hexec : exec (.fusionChangeComplete k) s = .next (fusionChangeComplete k.val s) := rfl
    have hstill := fusionChange_still hexec
    rw [fusionChangeComplete_eq hchanging] at hexec hstill
    have hmapped := mapParts_frame (s.updCluster k.val (fun k => { k with shape := sh, changing := none })) (fusedPart k.val)
    have hparts (q : Nat) (hq : q < 16) := mapParts_part (s.updCluster k.val (fun k => { k with shape := sh, changing := none }))
      (fusedPart k.val) hq
    have hcluster : ((s.updCluster k.val (fun k => { k with shape := sh, changing := none })).mapParts (fusedPart k.val)).clusters
        = (s.updCluster k.val (fun k => { k with shape := sh, changing := none })).clusters := by rw [hmapped]
    have hcmds : ((s.updCluster k.val (fun k => { k with shape := sh, changing := none })).mapParts (fusedPart k.val)).cmds = s.cmds := by
      rw [hmapped]
      rfl
    generalize (s.updCluster k.val (fun k => { k with shape := sh, changing := none })).mapParts (fusedPart k.val) = u at *
    obtain ⟨hclocks, hclockParts⟩ := groupClocks_frame u k.val (s.cluster k.val).shape
    have hall := hclocks.trans (powerOnly_reassess (u.groupClocks k.val (s.cluster k.val).shape))
    have hallParts := hclockParts.trans (reassess_partsStepped (u.groupClocks k.val (s.cluster k.val).shape))
    generalize (u.groupClocks k.val (s.cluster k.val).shape).reassess = t at *
    have hkept (j : Nat) : t.cluster j = (s.updCluster k.val (fun k => { k with shape := sh, changing := none })).cluster j := by
      unfold State.cluster
      rw [hall.1, hcluster]
    refine ⟨t, hexec, hstill, ?_, ?_, fun j hj => ?_, fun p hp => ?_⟩
    · rw [hall.1]
      exact hcmds
    · rw [hkept, updCluster_cluster_same]
    · rw [hkept, updCluster_cluster_other _ _ hj]
    · have hstep := hallParts p
      rw [hparts p hp] at hstep
      have hfused : fusedPart k.val p (s.part p) = if p / 4 = k.val then { s.part p with
          fuseWait := false
          state := if (s.part p).state = .fusing then (if (s.part p).run.isSome then .busy else .idle)
            else (s.part p).state } else s.part p := by
        simp only [fusedPart, beq_iff_eq]
      rw [← hfused]
      exact hstep
  case unchanged =>
    intro s k hnone
    simp only [exec, execFusionChangeComplete, fusionChangeComplete, hnone]
  case current =>
    intro s p c r tl hmay hround hrun htile hmem
    obtain ⟨hgranted, hchecked⟩ := currentGrant_eq hmay hround hrun htile
    have hexec : exec (.currentGrantRequest p) s = .next (currentGrantRequest p.val s) := rfl
    refine ⟨fun hok => ?_, fun hfails => ?_⟩
    · rw [hgranted hok] at hexec
      have hstill := currentGrant_still hexec
      obtain ⟨hcmds, hothers, hmine⟩ := grantAsked_frame s c r p.val tl
      obtain ⟨_, _, hloaded⟩ := loadResident_frame s c r p.val (p.val - r.leader)
      have hrunning (q : Nat) := startTile_part (grantAsked s c r p.val tl) (groupParts r.shape r.leader) q
      have hstartCmds := startTile_cmds (grantAsked s c r p.val tl) (groupParts r.shape r.leader)
      generalize startTile (grantAsked s c r p.val tl) (groupParts r.shape r.leader) = u at *
      have hsteps := reassess_partsStepped u
      have hrunningKept (q : Nat) : (u.reassess.part q).tileRunning = (u.part q).tileRunning := by rw [hsteps q]
      have hmyPart : u.reassess.part p.val = { (s.loadResident c r p.val (p.val - r.leader)).part p.val with
          grant := some tl.cls
          tileRunning := (u.part p.val).tileRunning
          step := (u.reassess.part p.val).step
          clkMhz := (u.reassess.part p.val).clkMhz
          downAt := (u.reassess.part p.val).downAt
          ldoMv := (u.reassess.part p.val).ldoMv
          ldoSettled := (u.reassess.part p.val).ldoSettled
          stepWanted := (u.reassess.part p.val).stepWanted } := by
        rw [hsteps p.val, (hrunning p.val).1, hmine]
      refine ⟨_, hexec, hstill, ?_, ?_, fun hall q hq => ?_, fun hno q => ?_, fun g v i var hv hvar => ?_⟩
      · rw [reassess_cmds, hstartCmds, hcmds]
      · rw [hmyPart]
      · rw [hrunningKept]
        refine (hrunning q).2.1 (fun k hk => ?_) hq
        by_cases hkp : k = p.val
        · rw [hkp, hmine]
          rfl
        · rw [hothers k hkp]
          exact hall k hk hkp
      · obtain ⟨k, hk, hkp, hnone⟩ := hno
        rw [hrunningKept, (hrunning q).2.2 ⟨k, hk, by rw [hothers k hkp]; exact hnone⟩]
        by_cases hqp : q = p.val
        · rw [hqp, hmine, hloaded]
        · rw [hothers q hqp]
      · intro tag
        obtain ⟨_, _, hknown⟩ := loadResident_known hv hvar p.val (p.val - r.leader)
        rw [hmyPart, hknown]
        unfold residentPart
        have htag : tagOf c i (p.val - r.leader) = tag := rfl
        rw [htag]
        by_cases hres : (s.part p.val).residency = some tag
        · rw [if_pos hres]
          exact ⟨hres, rfl, fun _ => rfl, fun h => absurd hres h⟩
        · rw [if_neg hres]
          refine ⟨rfl, ?_, fun h => absurd h hres, fun _ => rfl⟩
          rw [writeSram_weight]
    · have hbusy := busy_of_mayTile hmay
      rw [hchecked hfails] at hexec
      obtain ⟨hoffline, hfault, hgrant⟩ := machineCheck_offline 1
        (parityLocation tl.uentry (parityFails (s.seqStored p.val tl.uentry))) (.inr (.inl hbusy))
      exact ⟨_, hexec, currentGrant_still hexec, hoffline, hfault, hgrant⟩
  case held =>
    intro s p hno
    have hstop : (!s.mayTile p.val || (s.abrt.roundOn && s.abrt.parts.contains p.val)) = true := by
      rcases hno with h | ⟨hround, hmem⟩
      · rw [h]
        rfl
      · rw [hround, List.contains_iff_mem.2 hmem, Bool.and_self, Bool.or_true]
    simp only [exec, execCurrentGrantRequest, currentGrantRequest, hstop, if_true]
  case none =>
    intro s p c r hrun hno
    have hmay : s.mayTile p.val = false := by
      simp only [State.mayTile, hrun, Bool.and_eq_false_iff, Bool.not_eq_false']
      rcases hno with h | h | h | ⟨hrelay, hnext⟩
      · simp [h]
      · simp [h]
      · simp [h]
      · simp [hrelay, hnext]
    simp only [exec, execCurrentGrantRequest, currentGrantRequest, hmay, Bool.not_false, Bool.true_or, if_true]

end Sys2Proof.Proofs
end

section
/-! PROOFS. Columns and the ends of tiles (02 R27 to R29, R40, 03 R59, 07 R157, 08 R170, 09 R197, R204). -/

namespace Sys2Proof.Proofs
open Sys2Proof Sys2Proof.Machine Sys2Proof.Safety Sys2Proof.Laws

-- Arithmetic of a column (02 R27 to R29) ------------------------------------------------------------------------------

theorem clamped_int32 (acc : BitVec 32) (flag : Bool) (x : Int) : accInt (acc, flag) x
    = if 2 ^ 31 ≤ acc.toInt + x then (0x7FFFFFFF, true)
      else if acc.toInt + x < -(2 ^ 31) then (0x80000000, true) else (BitVec.ofInt 32 (acc.toInt + x), flag) := by
  simp only [accInt]
  generalize acc.toInt + x = v
  by_cases hhigh : 2 ^ 31 ≤ v
  · have hc : clamp (-2147483648) 2147483647 v = 2147483647 := by
      unfold clamp
      rw [if_neg (by omega), if_pos (by omega)]
    rw [if_pos hhigh, hc, decide_eq_true (by omega), Bool.or_true]
    rfl
  · by_cases hlow : v < -(2 ^ 31)
    · have hc : clamp (-2147483648) 2147483647 v = -2147483648 := if_pos (by omega)
      rw [if_neg hhigh, if_pos hlow, hc, decide_eq_true (by omega), Bool.or_true]
      rfl
    · have hc : clamp (-2147483648) 2147483647 v = v := by
        unfold clamp
        rw [if_neg (by omega), if_neg (by omega)]
      rw [if_neg hhigh, if_neg hlow, hc, decide_eq_false (fun h => h rfl), Bool.or_false]

theorem accFl_nan {a w : Fl} (acc : BitVec 32) (h : a.mul w = .nan) : accFl acc a w = 0x7FC00000 := by
  have hadd : Fl.nan.add (fp32.decode acc.toNat) = .nan := by cases fp32.decode acc.toNat <;> rfl
  unfold accFl
  rw [h, hadd]
  rfl

-- Partitions of a group changed one by one ----------------------------------------------------------------------------

/-- What no change of a list touches, the changes keep. -/
theorem foldl_updPart_keeps {α β : Type} (φ : Part → β) (k : α → Nat) (h : α → Part → Part) (hφ : ∀ e x, φ (h e x) = φ x)
    (l : List α) (s : State) (q : Nat) : φ ((l.foldl (fun t e => t.updPart (k e) (h e)) s).part q) = φ (s.part q) := by
  induction l generalizing s with
  | nil => rfl
  | cons e l ih =>
    rw [List.foldl_cons, ih]
    by_cases hq : q = k e
    · rw [hq, updPart_part_same, hφ]
    · rw [updPart_part_other _ _ hq]

theorem foldl_updPart_other {α : Type} (k : α → Nat) (h : α → Part → Part) (l : List α) (s : State) {q : Nat}
    (hq : ∀ e ∈ l, q ≠ k e) : (l.foldl (fun t e => t.updPart (k e) (h e)) s).part q = s.part q := by
  induction l generalizing s with
  | nil => rfl
  | cons e l ih =>
    obtain ⟨hhead, htail⟩ := List.forall_mem_cons.1 hq
    rw [List.foldl_cons, ih _ htail, updPart_part_other _ _ hhead]

/-- Members of a list with different partitions each get their own change. -/
theorem foldl_updPart_each {α : Type} (k : α → Nat) (h : α → Part → Part) {l : List α} (hl : (l.map k).Nodup) (s : State) {e : α}
    (he : e ∈ l) : (l.foldl (fun t e => t.updPart (k e) (h e)) s).part (k e) = h e (s.part (k e)) := by
  induction l generalizing s with
  | nil => cases he
  | cons x l ih =>
    rw [List.map_cons, List.nodup_cons] at hl
    obtain ⟨hx, hl⟩ := hl
    rw [List.foldl_cons]
    rcases List.mem_cons.1 he with rfl | hmem
    · rw [foldl_updPart_other k h l _ fun y hy heq => hx (by rw [heq]; exact List.mem_map_of_mem hy), updPart_part_same]
    · have hne : k e ≠ k x := fun heq => hx (heq ▸ List.mem_map_of_mem hmem)
      rw [ih hl _ hmem, updPart_part_other _ _ hne]

theorem foldl_updPart_only {α : Type} (k : α → Nat) (h : α → Part → Part) (l : List α) (s : State) :
    l.foldl (fun t e => t.updPart (k e) (h e)) s = { s with parts := (l.foldl (fun t e => t.updPart (k e) (h e)) s).parts } := by
  induction l generalizing s with
  | nil => rfl
  | cons e l ih =>
    rw [List.foldl_cons, ih]
    rfl

theorem groupParts_nodup (shape p : Nat) : (groupParts shape p).Nodup := by
  unfold groupParts
  split <;> simp

theorem leader_mem_groupParts (shape p : Nat) : p ∈ groupParts shape p := by
  unfold groupParts
  split <;> simp

-- The end of a tile (08 R170) -----------------------------------------------------------------------------------------

/-- A member whose grant has ended. -/
def released (now q : Nat) (x : Part) : Part :=
  { x with grant := none, tileRunning := false, ceCount := satAdd x.ceCount (Config.sramCorrected now q) }

theorem releaseGrants_part (s : State) {g : List Nat} (hg : g.Nodup) (q : Nat) :
    (s.releaseGrants g).part q = if q ∈ g then released s.now q (s.part q) else s.part q := by
  have hfold : s.releaseGrants g = g.foldl (fun t q => t.updPart q (released s.now q)) s := rfl
  rw [hfold]
  split
  next h => exact foldl_updPart_each id (released s.now) (by rwa [List.map_id]) s h
  next h => exact foldl_updPart_other id (released s.now) g s fun e he heq => h (heq ▸ he)

theorem map_fst_zip_sublist {α β : Type} (l : List α) (k : List β) : ((l.zip k).map Prod.fst).Sublist l := by
  induction l generalizing k with
  | nil => exact .slnil
  | cons a l ih =>
    cases k with
    | nil => exact List.nil_sublist _
    | cons b k => exact (ih k).cons₂ a

/-- A member with what the tile's operations made of its SRAMs. -/
def workedPart (r : Replica) (slots : Nat) (y x : Part) : Part :=
  { x with
    weight := y.weight
    act := y.act
    scratch := y.scratch
    lastParity := none
    owed := if r.skim.isSome then x.owed + slots else x.owed }

/-- The group after a tile: grants released, a saturation counted, SRAMs as the tile left them. -/
def tileWorked (s : State) (p : Nat) (r : Replica) (slots : Nat) (sat : Bool) (done : List Part) : State :=
  ((groupParts r.shape r.leader).zip done).foldl (fun t e => t.updPart e.1 (workedPart r slots e.2))
    ((s.releaseGrants (groupParts r.shape r.leader)).updPart p (fun x => { x with
      satCount := if sat then satInc x.satCount else x.satCount }))

theorem tileWorked_frame (s : State) {p : Nat} (r : Replica) (slots : Nat) (sat : Bool) (done : List Part)
    (hp : p ∈ groupParts r.shape r.leader) :
    (∀ q ∈ groupParts r.shape r.leader, ((tileWorked s p r slots sat done).part q).grant = none
      ∧ ((tileWorked s p r slots sat done).part q).tileRunning = false)
    ∧ ((tileWorked s p r slots sat done).part p).satCount = (if sat then satInc (s.part p).satCount else (s.part p).satCount)
    ∧ (∀ e ∈ (groupParts r.shape r.leader).zip done, ((tileWorked s p r slots sat done).part e.1).weight = e.2.weight
      ∧ ((tileWorked s p r slots sat done).part e.1).act = e.2.act
      ∧ ((tileWorked s p r slots sat done).part e.1).scratch = e.2.scratch)
    ∧ (∀ q, q ∉ groupParts r.shape r.leader → (tileWorked s p r slots sat done).part q = s.part q)
    ∧ (tileWorked s p r slots sat done).cmds = s.cmds := by
  have hnodup := groupParts_nodup r.shape r.leader
  generalize hgroup : groupParts r.shape r.leader = g at *
  have hreleased := releaseGrants_part s hnodup
  have hcmds : (s.releaseGrants g).cmds = s.cmds := by
    have := foldl_updPart_only id (released s.now) g s
    rw [show s.releaseGrants g = g.foldl (fun t q => t.updPart (id q) (released s.now q)) s from rfl, this]
  unfold tileWorked
  rw [hgroup]
  generalize s.releaseGrants g = u at *
  have hkeeps {β : Type} (φ : Part → β) (hφ : ∀ (y x : Part), φ (workedPart r slots y x) = φ x) (q : Nat) :=
    foldl_updPart_keeps (α := Nat × Part) φ Prod.fst (fun e => workedPart r slots e.2) (fun e x => hφ e.2 x) (g.zip done)
      (u.updPart p (fun x => { x with satCount := if sat then satInc x.satCount else x.satCount })) q
  refine ⟨fun q hq => ⟨?_, ?_⟩, ?_, fun e he => ?_, fun q hq => ?_, ?_⟩
  · refine (hkeeps (·.grant) (fun _ _ => rfl) q).trans ?_
    by_cases hqp : q = p
    · rw [hqp, updPart_part_same, hreleased, if_pos hp]
      rfl
    · rw [updPart_part_other _ _ hqp, hreleased, if_pos hq]
      rfl
  · refine (hkeeps (·.tileRunning) (fun _ _ => rfl) q).trans ?_
    by_cases hqp : q = p
    · rw [hqp, updPart_part_same, hreleased, if_pos hp]
      rfl
    · rw [updPart_part_other _ _ hqp, hreleased, if_pos hq]
      rfl
  · refine (hkeeps (·.satCount) (fun _ _ => rfl) p).trans ?_
    rw [updPart_part_same, hreleased, if_pos hp]
    rfl
  · have hzip : ((g.zip done).map Prod.fst).Nodup := by
      exact hnodup.sublist (map_fst_zip_sublist g done)
    have := foldl_updPart_each (α := Nat × Part) Prod.fst (fun e => workedPart r slots e.2) hzip
      (u.updPart p (fun x => { x with satCount := if sat then satInc x.satCount else x.satCount })) he
    rw [this]
    exact ⟨rfl, rfl, rfl⟩
  · have hout : ∀ e ∈ g.zip done, q ≠ e.1 := fun e he heq => hq (by rw [heq]; exact (List.of_mem_zip he).1)
    rw [foldl_updPart_other (α := Nat × Part) Prod.fst (fun e => workedPart r slots e.2) _ _ hout,
      updPart_part_other _ _ fun heq => hq (by rw [heq]; exact hp), hreleased, if_neg hq]
  · rw [foldl_updPart_only (α := Nat × Part) Prod.fst (fun e => workedPart r slots e.2)]
    exact hcmds

theorem tileEnd_still {s t : State} {p : Fin 16} {work : List TileOp} (h : exec (.tileEnd p work) s = .next t) : Still s t :=
  still_of_view (view_execTileEnd p work s h)

theorem tileEnd_eq {s : State} {p : Nat} {work : List TileOp} {c : Cmd} {r : Replica} {tl : Tile} (hrun : s.runOf p = some (c, r))
    (htile : s.tileOf c r r.tile = some tl) (hleader : r.leader = p) (hcancel : c.cancelled = false)
    (hrunning : (groupParts r.shape r.leader).all (fun q => (s.part q).tileRunning) = true) :
    (s.tileFed r (slotsOf tl work) work = true → tileEnd p work s
      = ((tileWorked (if c.relay then s else s.reportSeen p) p r (slotsOf tl work)
          (runWork (Tile.feed tl r.used) work ((groupParts r.shape r.leader).map s.part)).2
          (runWork (Tile.feed tl r.used) work ((groupParts r.shape r.leader).map s.part)).1).updReplica c.slot c.seq r.idx (fun x =>
            pastTile x (slotsOf tl work) (runWork (Tile.feed tl r.used) work ((groupParts r.shape r.leader).map s.part)).2
              work)).reassess)
    ∧ (s.tileFed r (slotsOf tl work) work = false → tileEnd p work s = s) := by
  have hlead : (r.leader != p) = false := by rw [hleader, bne_self_eq_false]
  refine ⟨fun hfed => ?_, fun hunfed => ?_⟩
  · simp only [tileEnd, hrun, htile, hlead, hrunning, hcancel, hfed, Bool.not_true, Bool.or_self, Bool.false_eq_true, if_false]
    rfl
  · simp only [tileEnd, hrun, htile, hunfed, Bool.not_false, Bool.or_true, if_true]

-- Overruns (02 R40, 09 R197) ------------------------------------------------------------------------------------------

theorem freeBytes_frame (n : Nat) (s : State) : (freeBytes n s).2 = { s with freeCount := (freeBytes n s).2.freeCount } := by
  induction n generalizing s with
  | zero => rfl
  | succ n ih =>
    show (freeBytes n s.useFree).2 = _
    rw [ih]
    rfl

theorem updContract_contract (s : State) (id : Nat) (f : Contract → Contract) :
    tabGet (s.updContract id f).contracts id = (tabGet s.contracts id).map f := tabGet_modify_same s.contracts id f

theorem missRisk_frame (s : State) (id reason part : Nat) : (s.missRisk id reason part).cmds = s.cmds
    ∧ (s.missRisk id reason part).parts = s.parts
    ∧ ∀ k, tabGet s.contracts id = some k → k.state = .admitted → s.freezes k.inst = false →
      tabGet (s.missRisk id reason part).contracts id = some { k with state := .atRisk, reason := reason } := by
  refine ⟨?_, ?_, fun k hk hadmitted hthawed => ?_⟩
  · unfold State.missRisk
    split
    · split
      · rw [event_cmds]
        rfl
      · rfl
    · rfl
  · unfold State.missRisk
    split
    · split
      · rw [event_parts]
        rfl
      · rfl
    · rfl
  · have hgo : (k.state == .admitted && !s.freezes k.inst) = true := by rw [hadmitted, hthawed]; rfl
    simp only [State.missRisk, hk, hgo, if_true]
    rw [event_contracts]
    rw [updContract_contract, hk]
    rfl

/-- A tile that has run past its worst case, counted and told. -/
def overrunTold (s : State) (p : Nat) (c : Cmd) (r : Replica) : State :=
  State.eventLimited ((freeBytes 4 s).2.updPart p (fun x => { x with overruns := satInc x.overruns })) Ev.tileOverrun p 0 false true
    (leBytes 1 p ++ leBytes 2 c.graph ++ leBytes 2 c.version ++ leBytes 4 r.tile
      ++ leBytes 3 (((s.tileOf c r r.tile).map (·.wcCycles)).getD 0) ++ (freeBytes 4 s).1)

theorem overrunTold_frame (s : State) (p : Nat) (c : Cmd) (r : Replica) : (overrunTold s p c r).cmds = s.cmds
    ∧ (overrunTold s p c r).contracts = s.contracts
    ∧ (overrunTold s p c r).part p = { s.part p with overruns := satInc (s.part p).overruns }
    ∧ (∀ q, q ≠ p → (overrunTold s p c r).part q = s.part q)
    ∧ ∀ n, ((overrunTold s p c r).inst n).state = (s.inst n).state := by
  have hfree := freeBytes_frame 4 s
  have hpart (q : Nat) : (freeBytes 4 s).2.part q = s.part q := by rw [hfree]; rfl
  have hparts (q : Nat) : (overrunTold s p c r).part q
      = ((freeBytes 4 s).2.updPart p (fun x => { x with overruns := satInc x.overruns })).part q := by
    unfold overrunTold State.part
    rw [eventLimited_parts]
  refine ⟨?_, ?_, ?_, fun q hq => ?_, fun n => ?_⟩
  · unfold overrunTold
    rw [eventLimited_cmds, updPart_cmds, hfree]
  · unfold overrunTold
    rw [eventLimited_contracts, updPart_contracts, hfree]
  · rw [hparts, updPart_part_same, hpart]
  · rw [hparts, updPart_part_other _ _ hq, hpart]
  · unfold overrunTold
    rw [(eventLimited_insts ..).eq n]
    unfold State.inst
    rw [updPart_insts, hfree]

theorem tileOverrun_eq {s : State} {p : Fin 16} {c : Cmd} {r : Replica} (hrun : s.runOf p.val = some (c, r))
    (hrunning : (s.part p.val).tileRunning = true) : exec (.tileOverrun p) s = .next (if c.contract ≠ 0 ∧ c.cls = 0 then
      (overrunTold s p.val c r).missRisk c.contract 5 p.val else overrunTold s p.val c r) := by
  simp only [exec, execTileOverrun, hrun, hrunning, Bool.not_true, Bool.false_eq_true, if_false]
  rfl

theorem tileOverrun_still {s t : State} {p : Fin 16} (h : exec (.tileOverrun p) s = .next t) : Still s t :=
  still_of_view (view_execTileOverrun p s h)

/-- Settles O34: the arithmetic of a column, the end of a tile, its overrun, and its leader's reports. -/
theorem tilesEndAndOverrun : Obligations.TilesEndAndOverrun := by
  refine ⟨?split, ?saturates, ?nan, ?tile, ?overrun, ?start, ?preempt⟩
  case split =>
    intro f init as₁ as₂ ws₁ ws₂ hlen
    simp only [Pairing.column, List.zip_append hlen, List.foldl_append]
  case saturates =>
    intro acc flag sa sw a w
    exact clamped_int32 acc flag _
  case nan =>
    intro acc x
    exact ⟨accFl_nan acc (by cases x <;> rfl), accFl_nan acc (by cases x <;> rfl)⟩
  case tile =>
    intro s p work c r tl hrun hc htile hleader hcancel g slots done hrunning
    obtain ⟨hends, hwaits⟩ := tileEnd_eq (work := work) hrun htile hleader hcancel hrunning
    have hexec : exec (.tileEnd p work) s = .next (tileEnd p.val work s) := rfl
    refine ⟨fun hfed => ?_, fun hunfed => hexec.trans (congrArg _ (hwaits hunfed))⟩
    have hstill := tileEnd_still hexec
    rw [hends hfed] at hexec hstill
    have hbase : (if c.relay then s else s.reportSeen p.val).parts = s.parts ∧ (if c.relay then s else s.reportSeen p.val).cmds = s.cmds := by
      split
      · exact ⟨rfl, rfl⟩
      · rw [State.reportSeen, vc3_frame]
        exact ⟨rfl, rfl⟩
    generalize (if c.relay then s else s.reportSeen p.val) = u at *
    obtain ⟨hparts, hcmds⟩ := hbase
    have hpart (q : Nat) : u.part q = s.part q := by unfold State.part; rw [hparts]
    have hmem : p.val ∈ groupParts r.shape r.leader := by rw [← hleader]; exact leader_mem_groupParts ..
    have hworked := tileWorked_frame u r slots done.2 done.1 hmem
    obtain ⟨hfree, hsat, heach, hothers, hkept⟩ := hworked
    have hsteps := reassess_partsStepped ((tileWorked u p.val r slots done.2 done.1).updReplica c.slot c.seq r.idx (fun x =>
      pastTile x slots done.2 work))
    have hstep (q : Nat) : Stepped ((tileWorked u p.val r slots done.2 done.1).part q) _ := hsteps q
    refine ⟨_, hexec, hstill, fun q hq => ?_, ?_, fun e he => ?_, fun q hq => ?_, ?_⟩
    · obtain ⟨hgrant, htiles⟩ := hfree q hq
      rw [hstep q]
      exact ⟨hgrant, htiles⟩
    · rw [hstep p.val, ← hpart]
      exact hsat
    · rw [hstep e.1]
      exact heach e he
    · have := hstep q
      rw [hothers q hq, hpart] at this
      exact this
    · rw [reassess_cmd, State.updReplica, updCmd_cmd, if_pos rfl, State.cmd, hkept, hcmds]
      exact congrArg (Option.map _) hc
  case overrun =>
    intro s p c r hrun
    refine ⟨fun hrunning => ?_, fun hidle => ?_⟩
    · have hexec := tileOverrun_eq hrun hrunning
      have hstill := tileOverrun_still hexec
      obtain ⟨hcmds, hcontracts, hmine, hothers, hstates⟩ := overrunTold_frame s p.val c r
      generalize overrunTold s p.val c r = u at *
      obtain ⟨hrcmds, hrparts, hrisk⟩ := missRisk_frame u c.contract 5 p.val
      by_cases hurgent : c.contract ≠ 0 ∧ c.cls = 0
      · rw [if_pos hurgent] at hexec hstill
        have hpart (q : Nat) : (u.missRisk c.contract 5 p.val).part q = u.part q := by unfold State.part; rw [hrparts]
        refine ⟨_, hexec, hstill, hrcmds.trans hcmds, (hpart _).trans hmine, fun q hq => (hpart q).trans (hothers q hq),
          fun k _ _ hk hadmitted hthawed => ?_, fun h => ?_⟩
        · refine hrisk k (by rw [hcontracts]; exact hk) hadmitted ?_
          simpa only [State.freezes, hstates] using hthawed
        · exact absurd h (by rw [not_or, ne_eq, not_not]; exact hurgent)
      · rw [if_neg hurgent] at hexec hstill
        exact ⟨_, hexec, hstill, hcmds, hmine, hothers, fun k h0 h1 => absurd ⟨h0, h1⟩ hurgent, fun _ => hcontracts⟩
    · simp only [exec, execTileOverrun, hrun, hidle, Bool.not_false, if_true]
  case start =>
    intro s p c r hrun hruns hrelay hleader hrunning
    simp only [exec, execTileStartReport, hrun, hruns, hrelay, hleader, hrunning, beq_self_eq_true, Bool.not_false, Bool.and_self,
      if_true]
    rfl
  case preempt =>
    intro s p
    refine ⟨fun hrun hwanted => ?_, fun hno => ?_⟩
    · simp only [exec, execPreempt, hrun, hwanted, Bool.and_self, if_true]
    · have hstop : ((s.part p.val).run.isSome && (s.part p.val).preempt.isSome) = false := by
        rcases hno with h | h <;> rw [h]
        · rfl
        · exact Bool.and_false _
      simp only [exec, execPreempt, hstop, Bool.false_eq_true, if_false]

end Sys2Proof.Proofs
end

section
/-! PROOFS. O35: launches saved at a boundary, and launches that end. -/

namespace Sys2Proof.Proofs
open Sys2Proof Sys2Proof.Machine Sys2Proof.Safety Sys2Proof.Laws

-- Saving (07 R78, 09 R204) ----------------------------------------------------------------------------------------------

theorem readPrivN_congr {s t : State} {a n : Nat} (h : ∀ x, a ≤ x → x < a + n → t.readPriv x = s.readPriv x) :
    t.readPrivN a n = s.readPrivN a n := by
  have hread (m m' : List Host.Cell) : ∀ n a, (∀ x, a ≤ x → x < a + n → cellRead privUnlisted m' x = cellRead privUnlisted m x) →
      cellReadN privUnlisted m' a n = cellReadN privUnlisted m a n := by
    intro n
    induction n with
    | zero => exact fun _ _ => rfl
    | succ n ih =>
      intro a hsame
      simp only [cellReadN]
      rw [hsame a (Nat.le_refl a) (by omega), ih (a + 1) fun x hx hn => hsame x (by omega) (by omega)]
  exact hread s.mem.cells t.mem.cells n a h

/-- What saving live sets leaves: the state but for memory and its counters. -/
def SavedOnly (s t : State) : Prop := t = { s with mem := t.mem, dict := t.dict }

theorem SavedOnly.trans {a b c : State} (h : SavedOnly a b) (k : SavedOnly b c) : SavedOnly a c := by
  unfold SavedOnly at *
  rw [k, h]

theorem SavedOnly.cmds {s t : State} (h : SavedOnly s t) : t.cmds = s.cmds := by rw [h]
theorem SavedOnly.part {s t : State} (h : SavedOnly s t) (q : Nat) : t.part q = s.part q := by rw [h]; rfl
theorem SavedOnly.liveBytes {s t : State} (h : SavedOnly s t) (c : Cmd) (r : Replica) : t.liveBytes c r = s.liveBytes c r := by
  rw [h]
  rfl

theorem saveLive_frame (s : State) (c : Cmd) (r : Replica) (p : Nat) : SavedOnly s (s.saveLive c r p) := by
  unfold State.saveLive
  dsimp only
  split
  · exact rfl
  · unfold SavedOnly
    rw [(storePriv_frame ..).1]

/-- One member's live set stands in its save area. -/
theorem saveLive_bytes {s : State} (hwf : Memory.wf s = true) (c : Cmd) (r : Replica) (p : Nat) :
    Memory.wf (s.saveLive c r p) = true
    ∧ (s.saveLive c r p).readPrivN (saveArea p) (s.liveBytes c r) = (s.part p).readSram .act 0 (s.liveBytes c r)
    ∧ ∀ a, a < saveArea p ∨ saveArea p + s.liveBytes c r ≤ a → (s.saveLive c r p).readPriv a = s.readPriv a := by
  unfold State.saveLive
  dsimp only
  by_cases hn : s.liveBytes c r = 0
  · rw [if_pos hn, hn]
    refine ⟨hwf, ?_, fun a _ => rfl⟩
    exact (List.length_eq_zero_iff.1 (readSram_length ..)).symm
  · rw [if_neg hn]
    have hbytes := storePriv_bytes hwf c.inst (saveArea p) ((s.part p).readSram .act 0 (s.liveBytes c r))
    rw [readSram_length] at hbytes
    exact ⟨storePriv_wf hwf .., hbytes.1, hbytes.2⟩

theorem saveArea_apart {q p n : Nat} (hn : n ≤ 0x40000) (h : q ≠ p) : saveArea q + n ≤ saveArea p ∨ saveArea p + n ≤ saveArea q := by
  unfold saveArea
  omega

/-- The live sets of the members of `g`, each in its own save area. -/
def savedLive (s : State) (c : Cmd) (r : Replica) (g : List Nat) : State := g.foldl (fun t q => t.saveLive c r q) s

theorem savedLive_frame (s : State) (c : Cmd) (r : Replica) (g : List Nat) : SavedOnly s (savedLive s c r g) := by
  induction g generalizing s with
  | nil => exact rfl
  | cons p g ih => exact (saveLive_frame s c r p).trans (ih _)

theorem savedLive_none {s : State} {c : Cmd} {r : Replica} (h : s.liveBytes c r = 0) (g : List Nat) : savedLive s c r g = s := by
  have hone (p : Nat) : s.saveLive c r p = s := by simp only [State.saveLive, h, if_true]
  induction g with
  | nil => rfl
  | cons p g ih => exact (congrArg (fun u => savedLive u c r g) (hone p)).trans ih

theorem savedLive_outside {s : State} (hwf : Memory.wf s = true) (c : Cmd) (r : Replica) (g : List Nat) {a : Nat}
    (ha : ∀ q ∈ g, a < saveArea q ∨ saveArea q + s.liveBytes c r ≤ a) : (savedLive s c r g).readPriv a = s.readPriv a := by
  induction g generalizing s with
  | nil => rfl
  | cons p g ih =>
    obtain ⟨hwf', -, hout⟩ := saveLive_bytes hwf c r p
    have hlive := (saveLive_frame s c r p).liveBytes c r
    exact (ih hwf' (by rw [hlive]; exact fun q hq => ha q (.tail _ hq))).trans (hout a (ha p (.head _)))

theorem savedLive_bytes {s : State} (hwf : Memory.wf s = true) (c : Cmd) (r : Replica) {g : List Nat} (hg : g.Nodup)
    (hn : s.liveBytes c r ≤ 0x40000) : ∀ q ∈ g,
    (savedLive s c r g).readPrivN (saveArea q) (s.liveBytes c r) = (s.part q).readSram .act 0 (s.liveBytes c r) := by
  induction g generalizing s with
  | nil => exact fun q hq => nomatch hq
  | cons p g ih =>
    intro q hq
    obtain ⟨hwf', hbytes, hout⟩ := saveLive_bytes hwf c r p
    obtain ⟨hp, hg⟩ := List.nodup_cons.1 hg
    have hframe := saveLive_frame s c r p
    have hlive := hframe.liveBytes c r
    have hrest : savedLive s c r (p :: g) = savedLive (s.saveLive c r p) c r g := rfl
    rw [hrest]
    rcases List.mem_cons.1 hq with rfl | hq
    · rw [← hbytes]
      refine readPrivN_congr fun x hx hxn => savedLive_outside hwf' c r g fun q' hq' => ?_
      have hapart := saveArea_apart hn fun h : q' = q => hp (h ▸ hq')
      rw [hlive]
      omega
    · rw [← hlive, ih hwf' hg (hlive ▸ hn) q hq, hframe.part]

theorem reportSeen_frame (s : State) (p : Nat) : s.reportSeen p = { s with net := (s.reportSeen p).net }
    ∧ SeenOnly s.net (s.reportSeen p).net :=
  observe_frame ..

theorem reportSeen_part (s : State) (p q : Nat) : (s.reportSeen p).part q = s.part q := by
  rw [(reportSeen_frame s p).1]
  rfl

/-- A launch that is saved, what its members keep being in memory: its partitions free, its leader's resume slot its own. -/
def savedAt (u : State) (p : Nat) (c : Cmd) (r : Replica) : State :=
  (((u.freeReplica c.slot c.seq r.idx).updPart p (fun x => { x with resume := some ⟨c.slot, c.seq, r.idx⟩ })).updReplica
    c.slot c.seq r.idx (fun r => { r with state := .saved })).reassess

theorem savedAt_view (u : State) (p : Nat) (c : Cmd) (r : Replica) : view (savedAt u p c r) = view u := by
  simp [savedAt]

theorem savedAt_part {u : State} {p : Nat} (hp : p < 16) {c : Cmd} {r : Replica} (hrun : (u.part p).run = some (c.slot, c.seq, r.idx)) :
    ((savedAt u p c r).part p).resume = some ⟨c.slot, c.seq, r.idx⟩ ∧ ((savedAt u p c r).part p).run = none
    ∧ ((savedAt u p c r).part p).grant = none := by
  have hpart : ((u.freeReplica c.slot c.seq r.idx).updPart p (fun x => { x with resume := some ⟨c.slot, c.seq, r.idx⟩ })).part p
      = { freePart u.now (u.part p) with resume := some ⟨c.slot, c.seq, r.idx⟩ } := by
    rw [updPart_part_same, State.freeReplica, mapParts_part _ _ hp, if_pos hrun]
  unfold savedAt State.updReplica
  generalize (u.freeReplica c.slot c.seq r.idx).updPart p (fun x => { x with resume := some ⟨c.slot, c.seq, r.idx⟩ }) = v at *
  generalize hw : v.updCmd c.slot c.seq _ = w
  have hwp : w.part p = v.part p := by rw [← hw]; rfl
  have hstep := reassess_partsStepped w p
  rw [hstep, hwp, hpart]
  exact ⟨rfl, rfl, rfl⟩

theorem savedAt_cmd {u : State} {p : Nat} {c : Cmd} {r : Replica} (hc : u.cmd c.slot c.seq = some c) :
    (savedAt u p c r).cmd c.slot c.seq = some { c with replicas := c.replicas.map (fun x =>
      if x.idx = r.idx then { x with state := .saved } else x) } := by
  have hkept : ((u.freeReplica c.slot c.seq r.idx).updPart p
      (fun x => { x with resume := some ⟨c.slot, c.seq, r.idx⟩ })).cmd c.slot c.seq = some c := by
    unfold State.cmd
    rw [updPart_cmds, freeReplica_cmds]
    exact hc
  rw [savedAt, reassess_cmd, State.updReplica, updCmd_cmd, if_pos rfl, hkept]
  rfl

theorem saveReport_eq {s : State} {p : Nat} {c : Cmd} {r : Replica} (hrun : s.runOf p = some (c, r)) (hleader : r.leader = p)
    (hhonour : (s.part p).honour = true) (hidle : (s.part p).tileRunning = false) (hrunning : r.state = .running)
    (hboundary : s.atBoundary c r = true) (hcancel : c.cancelled = false)
    (hfree : (groupParts r.shape p).all (fun q => (s.savedOver q).isEmpty) = true) (hfep : s.fepRuns = true)
    (hskim : r.skim = none) (hdrained : s.replicaIdle r = true) :
    saveReport p s = savedAt (savedLive (s.reportSeen p) c r (groupParts r.shape p)) p c r := by
  subst hleader
  have hheld : s.boundaryHeld c r = true := by
    unfold State.boundaryHeld
    rw [hhonour, hboundary, hfree]
    rfl
  have hgo : (r.leader != r.leader || !s.boundaryHeld c r || (s.part r.leader).tileRunning || r.state != .running || c.cancelled
      || !s.replicaIdle r || !(s.fepRuns || s.rst.phase == .l2Preempt)) = false := by
    rw [hheld, hidle, hrunning, hcancel, hdrained, hfep, bne_self_eq_false]
    rfl
  simp only [saveReport, hrun, hgo, hskim, Bool.false_eq_true, if_false]
  rfl

theorem saveReport_stays {s : State} {p : Nat} {c : Cmd} {r : Replica} (hrun : s.runOf p = some (c, r))
    (h : r.leader ≠ p ∨ (s.part p).honour = false ∨ (s.part p).tileRunning = true ∨ s.atBoundary c r = false
      ∨ s.replicaIdle r = false) : saveReport p s = s := by
  have hstop : (r.leader != p || !s.boundaryHeld c r || (s.part p).tileRunning || r.state != .running || c.cancelled
      || !s.replicaIdle r || !(s.fepRuns || s.rst.phase == .l2Preempt)) = true := by
    by_cases hleader : r.leader = p
    · rcases h with h | h | h | h | h
      · exact absurd hleader h
      all_goals simp [State.boundaryHeld, hleader, h]
    · simp [hleader]
  simp only [saveReport, hrun, hstop, if_true]

-- The end of a launch (07 R158) ----------------------------------------------------------------------------------------

theorem endReport_still {s t : State} {p : Fin 16} (h : exec (.endReport p) s = .next t) : Still s t :=
  still_of_view (view_execEndReport p s h)

theorem endReport_stays {s : State} {p : Nat} {c : Cmd} {r : Replica} (hrun : s.runOf p = some (c, r))
    (h : s.replicaDone c r = false ∨ (s.part p).tileRunning = true
      ∨ c.relay = false ∧ (s.replicaIdle r = false ∨ ∃ q ∈ groupParts r.shape r.leader, (s.part q).faultPending = true)) :
    endReport p s = s := by
  simp only [endReport, hrun]
  split
  · rfl
  next hgo =>
    simp only [Bool.or_eq_true, Bool.not_eq_true', not_or, Bool.not_eq_true, Bool.not_eq_false] at hgo
    obtain ⟨⟨⟨-, hidle⟩, hdone⟩, -⟩ := hgo
    rcases h with h | h | ⟨hrelay, h⟩
    · exact absurd hdone (by rw [h]; decide)
    · exact absurd hidle (by rw [h]; decide)
    · have hstop : (!s.replicaIdle r || !(groupParts r.shape r.leader).all (fun q => !(s.part q).faultPending)) = true := by
        rcases h with h | ⟨q, hq, h⟩
        · simp [h]
        · simp only [Bool.or_eq_true, Bool.not_eq_true', List.all_eq_false]
          exact .inr ⟨q, hq, by simp [h]⟩
      simp only [hrelay, Bool.false_eq_true, if_false, hstop, if_true]

/-- A launch whose only replica has ended: its partitions are free and its replica shows the end. -/
def endedAt (u : State) (c : Cmd) (r : Replica) : State :=
  (u.freeReplica c.slot c.seq r.idx).updReplica c.slot c.seq r.idx (fun r => { r with state := .ended })

theorem endReport_eq {s : State} {p : Nat} {c : Cmd} {r : Replica} (hrun : s.runOf p = some (c, r)) (hfep : s.fepRuns = true)
    (hleader : r.leader = p) (hrunning : r.state = .running) (hidle : (s.part p).tileRunning = false)
    (hdone : s.replicaDone c r = true) (hcancel : c.cancelled = false) :
    (c.relay = true → endReport p s = ((s.reportSeen p).endRole c r).reassess)
    ∧ (c.relay = false → r.skim = none → s.replicaIdle r = true →
        (∀ q ∈ groupParts r.shape r.leader, (s.part q).faultPending = false) →
        endReport p s = ((endedAt (s.reportSeen p) c r).endIfDone c.slot c.seq).reassess) := by
  have hgo : (!s.fepRuns || r.leader != p || r.state != .running || (s.part p).tileRunning || !s.replicaDone c r || c.cancelled)
      = false := by
    rw [hfep, hleader, hrunning, hidle, hdone, hcancel, bne_self_eq_false]
    rfl
  refine ⟨fun hrelay => ?_, fun hrelay hskim hdrained hwell => ?_⟩
  · simp only [endReport, hrun, hgo, hrelay, Bool.false_eq_true, if_false, if_true]
  · have hwell' : (!s.replicaIdle r || !(groupParts r.shape r.leader).all (fun q => !(s.part q).faultPending)) = false := by
      have hall : (groupParts r.shape r.leader).all (fun q => !(s.part q).faultPending) = true :=
        List.all_eq_true.2 fun q hq => by rw [hwell q hq]; rfl
      rw [hdrained, hall]
      rfl
    simp only [endReport, hrun, hgo, hrelay, hwell', hskim, Bool.false_eq_true, if_false]
    rfl

theorem endIfDone_parts (s : State) (slot seq : Nat) : (s.endIfDone slot seq).parts = s.parts := by
  have hsweep (u : State) (g : Nat) : (u.sweepSkim g).parts = u.parts := by
    unfold State.sweepSkim
    split <;> rfl
  have hsweeps (l : List Nat) (u : State) :
      (l.foldl (fun t g => if (t.skim g).slot = slot ∧ (t.skim g).seq = seq then t.sweepSkim g else t) u).parts = u.parts := by
    induction l generalizing u with
    | nil => rfl
    | cons g l ih =>
      rw [List.foldl_cons, ih]
      split
      · exact hsweep u g
      · rfl
  unfold State.endIfDone
  split
  next c _ =>
    split
    · dsimp only
      generalize (if c.relay then (c.replicas.find? (fun r => r.status != St.ok)).map (·.status) |>.getD St.ok else c.status) = st
      rw [(endCmd_frame (c := c) rfl rfl st 0).1]
      rfl
    · exact hsweeps _ s
  · rfl

/-- The status of a command that is not a relay and whose only replica has ended is its own. -/
theorem endIfDone_status {s : State} {c : Cmd} {slot k : Nat} {r : Replica} (hc : s.cmd slot k = some c) (hslot : c.slot = slot)
    (hseq : c.seq = k) (hreplicas : c.replicas = [r]) (hended : r.state = .ended) (hstage : c.stage = .executing)
    (hcancel : c.cancelled = false) (hrelay : c.relay = false) :
    ∃ x, (s.endIfDone slot k).cmd slot k = some x ∧ x.stage = .ended ∧ x.status = c.status ∧ x.replicas = [r] := by
  have hgo : (!c.replicas.isEmpty && c.replicas.all (fun r => r.state == .ended) && c.stage == .executing && !c.cancelled) = true := by
    rw [hreplicas, List.all_cons, hended, hstage, hcancel]
    rfl
  unfold State.endIfDone
  rw [hc]
  dsimp only
  rw [if_pos hgo, hrelay, if_neg Bool.false_ne_true]
  exact ⟨_, (endCmd_frame hslot hseq c.status 0).2.1, rfl, rfl, hreplicas⟩

/-- Settles O35: a launch leaves its partitions at a boundary it honours, or when its last tile has ended. -/
theorem launchesAreSavedOrEnd : Obligations.LaunchesAreSavedOrEnd := by
  refine ⟨?saved, ?unsaved, ?ended, ?unended, ?relay⟩
  case saved =>
    intro s p c r hrun hc hpart hleader hhonour hidle hrunning hboundary hcancel hfree hfep hskim hdrained hwf n
    have hexec : exec (.saveReport p) s = .next (saveReport p.val s) := rfl
    rw [saveReport_eq hrun hleader hhonour hidle hrunning hboundary hcancel hfree hfep hskim hdrained] at hexec
    have hseen := (reportSeen_frame s p.val).1
    have hview : view (s.reportSeen p.val) = view s := view_State_reportSeen s p.val
    have hlive : (s.reportSeen p.val).liveBytes c r = n := by rw [hseen]; rfl
    have hparts := reportSeen_part s p.val
    have hcmds : (s.reportSeen p.val).cmds = s.cmds := by rw [hseen]
    have hwf' : Memory.wf (s.reportSeen p.val) = true := by rw [hseen]; exact hwf
    have hreads : ∀ a, (s.reportSeen p.val).readPriv a = s.readPriv a := (still_of_view hview).1
    generalize s.reportSeen p.val = u at *
    have hkept := savedLive_frame u c r (groupParts r.shape p.val)
    have hout := fun a => savedLive_outside hwf' c r (groupParts r.shape p.val) (a := a)
    have hin := savedLive_bytes hwf' c r (groupParts_nodup r.shape p.val)
    have hnone := fun h => savedLive_none (s := u) (c := c) (r := r) h (groupParts r.shape p.val)
    rw [hlive] at hout hin hnone
    generalize savedLive u c r (groupParts r.shape p.val) = w at *
    have hstill := still_of_view (savedAt_view w p.val c r)
    have hwrun : (w.part p.val).run = some (c.slot, c.seq, r.idx) := by rw [hkept.part, hparts, hpart]
    obtain ⟨hresume, hrun', hgrant⟩ := savedAt_part p.isLt hwrun
    refine ⟨_, hexec, fun h0 => still_of_view ?_, fun a ha => ?_, fun hn q hq => ?_, hresume, hrun', hgrant, savedAt_cmd ?_⟩
    · rw [savedAt_view, hnone h0, hview]
    · rw [hstill.1, hout a ha, hreads]
    · rw [readPrivN_congr fun x _ _ => hstill.1 x, hin hn q hq, hparts]
    · rw [State.cmd, hkept.cmds, hcmds]
      exact hc
  case unsaved => exact fun s p c r hrun h => congrArg _ (saveReport_stays hrun h)
  case ended =>
    intro s p c r hrun hc hpart hfep hleader hrunning hidle hdone hcancel hrelay hskim hstage hreplicas hdrained hwell
    have hexec : exec (.endReport p) s = .next (endReport p.val s) := rfl
    rw [(endReport_eq hrun hfep hleader hrunning hidle hdone hcancel).2 hrelay hskim hdrained hwell] at hexec
    have hstill := endReport_still hexec
    have hparts := reportSeen_part s p.val
    have hcmds : (s.reportSeen p.val).cmds = s.cmds := by rw [(reportSeen_frame s p.val).1]
    generalize s.reportSeen p.val = u at *
    have hp : (endedAt u c r).part p.val = freePart u.now (s.part p.val) := by
      have hfreed : (u.freeReplica c.slot c.seq r.idx).part p.val = freePart u.now (s.part p.val) := by
        rw [State.freeReplica, mapParts_part _ _ p.isLt, hparts, if_pos hpart]
      exact hfreed
    have hx : (endedAt u c r).cmd c.slot c.seq = some { c with replicas := [{ r with state := .ended }] } := by
      rw [endedAt, State.updReplica, updCmd_cmd, if_pos rfl, State.cmd, freeReplica_cmds, hcmds]
      refine (congrArg (Option.map _) hc).trans ?_
      simp only [Option.map_some, hreplicas, List.map_cons, List.map_nil, if_true]
    obtain ⟨x, hended, hxstage, hxstatus, hxreplicas⟩ := endIfDone_status hx rfl rfl rfl rfl hstage hcancel hrelay
    have hstep := reassess_partsStepped ((endedAt u c r).endIfDone c.slot c.seq) p.val
    have hdonepart : ((endedAt u c r).endIfDone c.slot c.seq).part p.val = freePart u.now (s.part p.val) := by
      rw [State.part, endIfDone_parts]
      exact hp
    refine ⟨_, x, hexec, hstill, ?_, hxstage, hxstatus, hxreplicas, ?_, fun hbusy => ?_⟩
    · rw [reassess_cmd]
      exact hended
    · rw [hstep, hdonepart]
      rfl
    · rw [hstep, hdonepart]
      unfold freePart
      dsimp only
      rw [hbusy]
      rfl
  case unended => exact fun s p c r hrun h => congrArg _ (endReport_stays hrun h)
  case relay =>
    intro s p c r hrun hc hfep hleader hrunning hidle hdone hrelay hok hgoes hdrained hedges
    have hcancel : c.cancelled = false := by
      simp only [State.goes, Bool.and_eq_true, Bool.not_eq_true'] at hgoes
      exact hgoes.1
    have hexec : exec (.endReport p) s = .next (endReport p.val s) := rfl
    rw [(endReport_eq hrun hfep hleader hrunning hidle hdone hcancel).1 hrelay] at hexec
    have hstill := endReport_still hexec
    obtain ⟨hseen, hnet⟩ := reportSeen_frame s p.val
    have hcmds : (s.reportSeen p.val).cmds = s.cmds := by rw [hseen]
    have hgoes' : (s.reportSeen p.val).goes c r = true := by rw [hseen]; exact hgoes
    have hdrained' : (s.reportSeen p.val).replicaIdle r = true := by
      have hnode : (s.reportSeen p.val).nodeIdle = s.nodeIdle := by
        funext q
        simp only [State.nodeIdle, hnet.reqs]
        rw [hseen]
      rw [State.replicaIdle, hnode]
      exact hdrained
    generalize s.reportSeen p.val = u at *
    have hrole : u.endRole c r = if finalsSent r then u.updReplica c.slot c.seq r.idx (fun r => { r with done := true }) else u := by
      have hgo : (!u.goes c r || !u.replicaIdle r) = false := by rw [hgoes', hdrained']; rfl
      have hsome : (tabKeys r.outCredits).isEmpty = false := by
        rw [Bool.eq_false_iff, ne_eq, List.isEmpty_iff]
        exact hedges
      have hno : (r.status != St.ok) = false := by rw [hok, bne_self_eq_false]
      simp only [State.endRole, hno, hgo, hsome, Bool.false_eq_true, if_false]
    rw [hrole] at hexec hstill
    refine ⟨fun hfinal => ?_, fun hfinal => ?_⟩
    · rw [if_pos hfinal] at hexec hstill
      refine ⟨_, hexec, hstill, ?_⟩
      rw [reassess_cmd, State.updReplica, updCmd_cmd, if_pos rfl, State.cmd, hcmds]
      exact congrArg (Option.map _) hc
    · rw [if_neg (by rw [hfinal]; exact Bool.false_ne_true)] at hexec hstill
      exact ⟨_, hexec, hstill, (reassess_cmds u).trans hcmds⟩

end Sys2Proof.Proofs
end

section
/-! PROOFS. O37: drain rounds. -/

namespace Sys2Proof.Proofs
open Sys2Proof Sys2Proof.Machine Sys2Proof.Safety Sys2Proof.Laws

-- The start of a round (18 R384, R385) ----------------------------------------------------------------------------------

theorem drainRoundStart_still {s t : State} (h : exec .drainRoundStart s = .next t) : Still s t :=
  still_of_view (view_execDrainRoundStart s h)

/-- A command that the requests of `l` have marked to end. -/
def doomed (s : State) (l : List AbortReq) (c : Cmd) : Cmd :=
  { c with cancelled := c.cancelled || (c.accepted && l.any (fun r => abortHits s r.inst r.qid c)) }

theorem doomed_cons (s : State) (r : AbortReq) (l : List AbortReq) (c : Cmd) :
    doomed s l (if c.accepted && abortHits s r.inst r.qid c then { c with cancelled := true } else c) = doomed s (r :: l) c := by
  cases hacc : c.accepted <;> cases hhit : abortHits s r.inst r.qid c <;> simp [doomed, hacc, hhit]

/-- The commands that the requests of `l` name, marked to end. -/
def markedAll (s : State) (l : List AbortReq) : State := l.foldl (fun t r => t.markAborted r.inst r.qid) s

theorem markedAll_cmds (s : State) (l : List AbortReq) : markedAll s l = { s with cmds := (markedAll s l).cmds }
    ∧ ∀ k, tabGet (markedAll s l).cmds k = (tabGet s.cmds k).map (doomed s l) := by
  induction l generalizing s with
  | nil =>
    refine ⟨rfl, fun k => ?_⟩
    have hid : doomed s [] = id := by
      funext c
      simp [doomed]
    rw [hid, Option.map_id]
    rfl
  | cons r l ih =>
    obtain ⟨hframe, hcmds⟩ := ih (s.markAborted r.inst r.qid)
    have hrest : markedAll s (r :: l) = markedAll (s.markAborted r.inst r.qid) l := rfl
    rw [hrest]
    refine ⟨hframe, fun k => ?_⟩
    rw [hcmds k]
    have hmark : tabGet (s.markAborted r.inst r.qid).cmds k
        = (tabGet s.cmds k).map (fun c => if c.accepted && abortHits s r.inst r.qid c then { c with cancelled := true } else c) :=
      tabGet_map s.cmds (fun _ c => if c.accepted && abortHits s r.inst r.qid c then { c with cancelled := true } else c) k
    rw [hmark, Option.map_map]
    exact congrArg (fun f => Option.map f (tabGet s.cmds k)) (funext fun c => doomed_cons s r l c)

/-- What a stop keeps of a partition: its launch. -/
theorem stopPart_run (s : State) (p q : Nat) : ((s.stopPart p).part q).run = (s.part q).run := by
  unfold State.stopPart
  by_cases h : q = p
  · subst h
    rw [updPart_part_same]
    dsimp only
    repeat' split
    all_goals rfl
  · rw [updPart_part_other _ _ h]

theorem stopPart_runsCancelled (s : State) (p : Nat) : (s.stopPart p).runsCancelled = s.runsCancelled := by
  funext q
  unfold State.runsCancelled
  rw [stopPart_run]
  rfl

/-- A partition that holds no grant and runs no tile. -/
def Stopped (x : Part) : Prop := x.grant = none ∧ x.tileRunning = false

theorem stopPart_stops (s : State) (p q : Nat) : (Stopped (s.part q) → Stopped ((s.stopPart p).part q))
    ∧ (s.runsCancelled p = true → Stopped ((s.stopPart p).part p)) := by
  unfold State.stopPart
  refine ⟨fun hstop => ?_, fun hruns => ?_⟩
  · by_cases h : q = p
    · subst h
      obtain ⟨hgrant, htile⟩ := hstop
      rw [updPart_part_same]
      dsimp only
      repeat' split
      all_goals simp [Stopped, hgrant, htile]
    · rw [updPart_part_other _ _ h]
      exact hstop
  · rw [updPart_part_same]
    dsimp only
    rw [if_pos hruns]
    split <;> exact ⟨rfl, rfl⟩

theorem stopParts_frame (s : State) (l : List Nat) : l.foldl State.stopPart s = { s with parts := (l.foldl State.stopPart s).parts }
    ∧ (l.foldl State.stopPart s).runsCancelled = s.runsCancelled
    ∧ (∀ q, Stopped (s.part q) → Stopped ((l.foldl State.stopPart s).part q))
    ∧ ∀ q ∈ l, s.runsCancelled q = true → Stopped ((l.foldl State.stopPart s).part q) := by
  induction l generalizing s with
  | nil => exact ⟨rfl, rfl, fun _ h => h, fun q hq => nomatch hq⟩
  | cons p l ih =>
    obtain ⟨hframe, hruns, hstays, hstops⟩ := ih (s.stopPart p)
    have hsame := stopPart_runsCancelled s p
    refine ⟨hframe.trans ?_, hruns.trans hsame, fun q hq => hstays q ((stopPart_stops s p q).1 hq), fun q hq hcan => ?_⟩
    · rfl
    · rcases List.mem_cons.1 hq with rfl | hq
      · exact hstays q ((stopPart_stops s q q).2 hcan)
      · exact hstops q hq (by rw [hsame]; exact hcan)

theorem joinedGuilt_frame (s : State) (l : List Nat) :
    l.foldl (fun t k => t.updQueue k (fun q => { q with guiltRound := 2 })) s
      = { s with queues := (l.foldl (fun t k => t.updQueue k (fun q => { q with guiltRound := 2 })) s).queues }
    ∧ ∀ k q, s.queue k = some q → ∃ g, (g = q.guiltRound ∨ g = 2) ∧ (k ∈ l → g = 2)
        ∧ (l.foldl (fun t k => t.updQueue k (fun q => { q with guiltRound := 2 })) s).queue k = some { q with guiltRound := g } := by
  induction l generalizing s with
  | nil => exact ⟨rfl, fun k q hq => ⟨_, .inl rfl, (fun h => nomatch h), hq⟩⟩
  | cons j l ih =>
    obtain ⟨hframe, hqueue⟩ := ih (s.updQueue j (fun q => { q with guiltRound := 2 }))
    refine ⟨hframe, fun k q hq => ?_⟩
    by_cases h : k = j
    · subst h
      obtain ⟨g, hg, -, hkept⟩ := hqueue k { q with guiltRound := 2 } (by rw [updQueue_queue_same, hq]; rfl)
      have hg2 : g = 2 := hg.elim id id
      exact ⟨g, .inr hg2, fun _ => hg2, hkept⟩
    · obtain ⟨g, hg, hin, hkept⟩ := hqueue k q (by rw [updQueue_queue_other _ _ h]; exact hq)
      exact ⟨g, hg, fun hk => hin ((List.mem_cons.1 hk).resolve_left h), hkept⟩

-- The end of a round (10 R229, 18 R387) -----------------------------------------------------------------------------------

/-- The aborts, the network and the counts of the aborts done are as they were. -/
def Booked (s t : State) : Prop := t.abrt = s.abrt ∧ t.net = s.net ∧ ∀ n, (t.inst n).doneCount = (s.inst n).doneCount

theorem Booked.refl (s : State) : Booked s s := ⟨rfl, rfl, fun _ => rfl⟩

theorem Booked.trans {a b c : State} (h : Booked a b) (k : Booked b c) : Booked a c :=
  ⟨k.1.trans h.1, k.2.1.trans h.2.1, fun n => (k.2.2 n).trans (h.2.2 n)⟩

theorem booked_foldl {α : Type} (g : State → α → State) (hg : ∀ t x, Booked t (g t x)) (l : List α) (s : State) :
    Booked s (l.foldl g s) := by
  induction l generalizing s with
  | nil => exact .refl s
  | cons x l ih => exact (hg s x).trans (ih _)

theorem booked_of_insts {s t : State} (habrt : t.abrt = s.abrt) (hnet : t.net = s.net) (h : t.insts = s.insts) : Booked s t :=
  ⟨habrt, hnet, fun n => by unfold State.inst; rw [h]⟩

theorem booked_setSem (s : State) (n i : Nat) (x : Sem) : Booked s (s.setSem n i x) := by
  refine ⟨rfl, rfl, fun m => ?_⟩
  unfold State.setSem
  by_cases h : m = n
  · subst h
    rw [updInst_inst_same]
  · rw [updInst_inst_other _ _ h]

theorem booked_endCmd (s : State) (c : Cmd) (st : Status) (r : BitVec 64) : Booked s (s.endCmd c st r) := by
  rw [(endCmd_frame (s := s) rfl rfl st r).1]
  exact booked_of_insts rfl rfl rfl

theorem booked_wake (s : State) (n i fuel : Nat) : Booked s (s.wake n i fuel) := by
  induction fuel generalizing s n i with
  | zero => exact .refl s
  | succ fuel ih =>
    unfold State.wake
    dsimp only
    split
    · exact .refl s
    · split
      · exact .refl s
      · split
        · exact (booked_of_insts (t := s.setCmd _) rfl rfl rfl).trans (ih ..)
        · split
          · exact (((booked_endCmd ..).trans (booked_setSem ..)).trans (ih ..)).trans (ih ..)
          · exact (booked_endCmd ..).trans (ih ..)
        · exact .refl s

theorem booked_poisonOf (s : State) (c : Cmd) : Booked s (s.poisonOf c).1 ∧ (s.poisonOf c).1.queues = s.queues := by
  unfold State.poisonOf
  split
  · split
    · refine ⟨(booked_setSem ..).trans (booked_wake ..), ?_⟩
      dsimp only
      rw [(wakesOnly_setSem ..).trans (wakesOnly_wake ..)]
    · exact ⟨.refl s, rfl⟩
  · exact ⟨.refl s, rfl⟩

theorem booked_freeEnded (s : State) (c : Cmd) : Booked s (s.freeEnded c) ∧ (s.freeEnded c).queues = s.queues := by
  have hparts : (s.freeCmdParts c.slot c.seq).freeSkims c.slot c.seq = { s with
      parts := ((s.freeCmdParts c.slot c.seq).freeSkims c.slot c.seq).parts
      skims := ((s.freeCmdParts c.slot c.seq).freeSkims c.slot c.seq).skims } := by
    unfold State.freeCmdParts State.freeSkims
    rw [mapParts_frame]
  unfold State.freeEnded
  generalize (s.freeCmdParts c.slot c.seq).freeSkims c.slot c.seq = u at *
  obtain ⟨hdrop, hdropInst⟩ := droppedOnly_dropBuild u c
  have hback := givenBack (u.dropBuild c) c
  have hu : Booked s u := by
    rw [hparts]
    exact booked_of_insts rfl rfl rfl
  have hd : Booked u (u.dropBuild c) := ⟨by rw [hdrop], by rw [hdrop], fun n => by rw [hdropInst n]⟩
  have hb : Booked (u.dropBuild c) ((u.dropBuild c).giveBack c) :=
    ⟨by rw [hback.only], by rw [hback.only], fun n => by rw [hback.insts n]⟩
  refine ⟨(hu.trans hd).trans hb, ?_⟩
  rw [hback.only]
  dsimp only
  rw [hdrop]
  dsimp only
  rw [hparts]

/-- The semaphores that the ended commands `cs` would have raised, poisoned; with how many. -/
def poisoned (a : State × Nat) (cs : List Cmd) : State × Nat :=
  cs.foldl (fun (a : State × Nat) c => let x := a.1.poisonOf c; (x.1, a.2 + x.2)) a

theorem booked_poisoned (a : State × Nat) (cs : List Cmd) : Booked a.1 (poisoned a cs).1 ∧ (poisoned a cs).1.queues = a.1.queues := by
  induction cs generalizing a with
  | nil => exact ⟨.refl _, rfl⟩
  | cons c cs ih =>
    obtain ⟨hone, hqueues⟩ := booked_poisonOf a.1 c
    obtain ⟨hrest, krest⟩ := ih ((a.1.poisonOf c).1, a.2 + (a.1.poisonOf c).2)
    exact ⟨hone.trans hrest, krest.trans hqueues⟩

theorem booked_freeAll (s : State) (cs : List Cmd) : Booked s (cs.foldl State.freeEnded s)
    ∧ (cs.foldl State.freeEnded s).queues = s.queues := by
  induction cs generalizing s with
  | nil => exact ⟨.refl _, rfl⟩
  | cons c cs ih =>
    obtain ⟨hone, hqueues⟩ := booked_freeEnded s c
    obtain ⟨hrest, krest⟩ := ih (s.freeEnded c)
    exact ⟨hone.trans hrest, krest.trans hqueues⟩

theorem booked_endCmds (s : State) (cs : List Cmd) : Booked s (s.endCmds cs).1 ∧ (s.endCmds cs).1.queues = s.queues := by
  obtain ⟨hp, kp⟩ := booked_poisoned (s, 0) cs
  obtain ⟨hf, kf⟩ := booked_freeAll (poisoned (s, 0) cs).1 cs
  exact ⟨hp.trans hf, kf.trans kp⟩

theorem booked_event (s : State) (code src : Nat) (wake must : Bool) (bs : List Byte) : Booked s (s.event code src wake must bs) := by
  refine ⟨by simp, by simp, fun n => ?_⟩
  rw [(event_insts ..).eq n]

theorem booked_stopGuilty (s : State) (slot : Nat) : Booked s (s.stopGuilty slot) := by
  unfold State.stopGuilty
  repeat' split
  · exact .refl s
  · exact .refl s
  · exact .refl s
  · exact (booked_of_insts (t := s.updQueue slot _) rfl rfl rfl).trans (booked_event ..)

theorem booked_breakQueue (s : State) (slot : Nat) (st : Status) : Booked s (s.breakQueue slot st) := by
  unfold State.breakQueue
  repeat' split
  · exact .refl s
  · exact .refl s
  · exact (booked_of_insts (t := s.updQueue slot _) rfl rfl rfl).trans (booked_event ..)

theorem booked_writeExtent (s : State) (n dva : Nat) (bs : List Byte) (fuel : Nat) : Booked s (s.writeExtent n dva bs fuel).1 := by
  induction fuel generalizing s dva bs with
  | zero => exact .refl s
  | succ fuel ih =>
    obtain ⟨hxframe, hxinst⟩ := cachesOnly_xlated s n 19 dva
    have hx : Booked s (s.xlated n 19 dva) := ⟨by rw [hxframe], by rw [hxframe], fun m => by rw [hxinst m]⟩
    unfold State.writeExtent
    split
    · exact .refl s
    · dsimp only
      split
      · exact .refl s
      · refine (hx.trans ?_).trans (ih _ _ _)
        rw [(storePriv_frame ..).1]
        exact booked_of_insts rfl rfl rfl
      · split
        · refine (hx.trans ?_).trans (ih _ _ _)
          rw [extentOnly_hostPost]
          exact booked_of_insts rfl rfl (hostPost_insts ..)
        · exact .refl s

theorem booked_mmuFault (s : State) (n : Nat) (f : XFault) (write : Bool) (initiator part slot seq : Nat) :
    Booked s (s.mmuFault n f write initiator part slot seq) := by
  have hupd (g : Inst → Inst) (hg : ∀ i, (g i).doneCount = i.doneCount) : Booked s (s.updInst n g) := by
    refine ⟨rfl, rfl, fun m => ?_⟩
    by_cases h : m = n
    · subst h
      rw [updInst_inst_same, hg]
    · rw [updInst_inst_other _ _ h]
  unfold State.mmuFault
  dsimp only
  split
  · generalize hu : (if (s.inst n).mmu.faultValid then s else s.updInst n _) = u
    have hs : Booked s u := by
      rw [← hu]
      split
      · exact .refl s
      · exact hupd _ fun _ => rfl
    split
    · exact hs
    · exact hs.trans (booked_event ..)
  · exact .refl s

theorem booked_landRecord (s : State) (n a : Nat) (bs : List Byte) (st : Status) : Booked s (s.landRecord n a bs st).1 := by
  unfold State.landRecord
  have hwrite := booked_writeExtent s n a bs (pagesOf bs.length)
  split
  · exact .refl s
  · split
    next t h =>
      rw [State.writeDva] at h
      rw [h] at hwrite
      exact hwrite
    next t f h =>
      rw [State.writeDva] at h
      rw [h] at hwrite
      exact hwrite.trans (booked_mmuFault ..)

theorem booked_queueIrq (s : State) (slot : Nat) (flagged : Bool) : Booked s (s.queueIrq slot flagged) := by
  rw [queueIrq_frame]
  exact booked_of_insts rfl rfl rfl

theorem booked_resetRecord (s : State) (slot : Nat) (st : Status) : Booked s (resetRecord slot st s) := by
  have hstop : Booked s ((s.onThread 7 none).stopGuilty slot) :=
    (booked_of_insts (t := s.onThread 7 none) rfl rfl rfl).trans (booked_stopGuilty ..)
  have hupd (u : State) (f : Queue → Queue) : Booked u (u.updQueue slot f) := booked_of_insts rfl rfl rfl
  unfold resetRecord
  dsimp only
  repeat' split
  · exact .refl s
  · exact .refl s
  · exact hstop.trans (hupd ..)
  · exact hstop
  · exact ((hstop.trans (booked_landRecord ..)).trans (hupd ..)).trans (booked_queueIrq ..)
  · exact ((hstop.trans (booked_landRecord ..)).trans (hupd ..)).trans (booked_breakQueue ..)
  · exact .refl s

theorem booked_bookAbort (s : State) (n : Nat) (q : Option Nat) : Booked s (s.bookAbort n q).1 := by
  unfold State.bookAbort
  dsimp only
  exact ((booked_endCmds ..).1.trans (booked_foldl (fun t k => t.updQueue k stopQueue)
    (fun t k => booked_of_insts rfl rfl rfl) _ _)).trans
    (booked_foldl (fun t k => resetRecord k St.ok (t.stopGuilty k)) (fun t k => (booked_stopGuilty t k).trans (booked_resetRecord ..)) _ _)

theorem slotOf_updQueue (s : State) (j : Nat) {f : Queue → Queue} (hf : ∀ q, (f q).inst = q.inst ∧ (f q).desc = q.desc) :
    (s.updQueue j f).slotOf = s.slotOf := by
  funext n qid
  unfold State.slotOf State.updQueue
  dsimp only
  induction s.queues with
  | nil => rfl
  | cons e l ih =>
    obtain ⟨hinst, hdesc⟩ := hf e.2
    simp only [tabModify, List.map_cons] at ih ⊢
    by_cases h : e.1 = j
    · simp only [h, if_true, List.find?_cons, hinst, hdesc]
      split
      · exact congrArg some h.symm
      · exact ih
    · simp only [h, if_false, List.find?_cons]
      split
      · rfl
      · exact ih

/-- The rounds of guilty queues done: of a queue only its round has moved on. -/
theorem finishGuilts_frame (s : State) (l : List Nat) : Booked s (l.foldl State.finishGuilt s)
    ∧ (l.foldl State.finishGuilt s).slotOf = s.slotOf
    ∧ ∀ k q, s.queue k = some q → ∃ g, (l.foldl State.finishGuilt s).queue k = some { q with guiltRound := g } := by
  induction l generalizing s with
  | nil => exact ⟨.refl s, rfl, fun k q hq => ⟨_, hq⟩⟩
  | cons j l ih =>
    obtain ⟨hrest, hslots, hqueue⟩ := ih (s.finishGuilt j)
    obtain ⟨hone, hqueues⟩ := booked_endCmds s (s.cancelledCmds (fun c => c.slot == j))
    have hfinish : s.finishGuilt j = (s.endCmds (s.cancelledCmds (fun c => c.slot == j))).1.updQueue j
      (fun q => { q with guiltRound := 3 }) := rfl
    rw [List.foldl_cons]
    rw [hfinish] at hrest hslots hqueue ⊢
    generalize (s.endCmds (s.cancelledCmds (fun c => c.slot == j))).1 = u at *
    have hget (k : Nat) : u.queue k = s.queue k := by rw [State.queue, hqueues]; rfl
    refine ⟨(hone.trans (booked_of_insts (t := u.updQueue j _) rfl rfl rfl)).trans hrest, ?_, fun k q hq => ?_⟩
    · rw [hslots, slotOf_updQueue u j (f := fun q => { q with guiltRound := 3 }) (fun _ => ⟨rfl, rfl⟩)]
      unfold State.slotOf
      rw [hqueues]
    · by_cases h : k = j
      · subst h
        obtain ⟨g, hg⟩ := hqueue k { q with guiltRound := 3 } (by rw [updQueue_queue_same, hget, hq]; rfl)
        exact ⟨g, hg⟩
      · exact hqueue k q (by rw [updQueue_queue_other _ _ h, hget, hq])

/-- A queue with no guilty command is stopped by the abort of it alone, with cause 2. -/
theorem bookAbort_queue {s : State} {n k slot : Nat} {q : Queue} (hslot : s.slotOf n k = some slot) (hq : s.queue slot = some q)
    (hcause : q.stopCause = 0) (hguilty : q.guilty = none) :
    ∃ x, (s.bookAbort n (some k)).1.queue slot = some x ∧ x.stopCause = 2 ∧ x.abortLatched = false := by
  obtain ⟨-, hqueues⟩ := booked_endCmds s (s.cancelledCmds (fun c => abortHits s n (some k) c))
  have hbook : (s.bookAbort n (some k)).1
      = ((s.endCmds (s.cancelledCmds (fun c => abortHits s n (some k) c))).1.slotsNamed n (some k)).foldl
          (fun t k => resetRecord k St.ok (t.stopGuilty k))
          (((s.endCmds (s.cancelledCmds (fun c => abortHits s n (some k) c))).1.slotsNamed n (some k)).foldl
            (fun t k => t.updQueue k stopQueue) (s.endCmds (s.cancelledCmds (fun c => abortHits s n (some k) c))).1) := rfl
  rw [hbook]
  generalize (s.endCmds (s.cancelledCmds (fun c => abortHits s n (some k) c))).1 = u at *
  have hnamed : u.slotsNamed n (some k) = [slot] := by
    have hslot' : u.slotOf n k = some slot := by
      rw [← hslot]
      unfold State.slotOf
      rw [hqueues]
    simp only [State.slotsNamed, hslot', Option.toList_some]
  rw [hnamed, List.foldl_cons, List.foldl_nil, List.foldl_cons, List.foldl_nil]
  have hstopped : (u.updQueue slot stopQueue).queue slot = some (stopQueue q) := by
    rw [updQueue_queue_same, State.queue, hqueues]
    exact congrArg (Option.map _) hq
  have hnone : (stopQueue q).guilty = none := hguilty
  have hcause' : (stopQueue q).stopCause = 2 := by
    have hgo : (q.stopCause = 0 && (q.guilty.isNone || q.guiltSaid)) = true := by rw [hcause, hguilty]; rfl
    exact if_pos hgo
  have hfirst : (u.updQueue slot stopQueue).stopGuilty slot = u.updQueue slot stopQueue := by
    simp only [State.stopGuilty, hstopped, hnone]
  rw [hfirst]
  generalize u.updQueue slot stopQueue = v at *
  have hreset : resetRecord slot St.ok v = v := by
    have hthread : (v.onThread 7 none).queue slot = some (stopQueue q) := hstopped
    have hstay : (v.onThread 7 none).stopGuilty slot = v.onThread 7 none := by
      simp only [State.stopGuilty, hthread, hnone]
    simp only [resetRecord, hstay, hstopped, hthread, hnone]
  rw [hreset]
  exact ⟨_, hstopped, hcause', rfl⟩

theorem msix_inst (s : State) (fn v n : Nat) : (s.msix fn v).inst n = s.inst n := by simp [State.inst]

theorem abortDone_net (s : State) (n : Nat) (q : Option Nat) (by_ result at_ : Nat) (counts : Nat × Nat × Nat) :
    (s.abortDone n q by_ result at_ counts).net = s.net
    ∧ ((s.abortDone n q by_ result at_ counts).inst n).state = (s.inst n).state := by
  unfold State.abortDone
  dsimp only
  refine ⟨by split <;> simp, ?_⟩
  rw [(event_insts ..).eq n]
  have hmsix (t : State) : (if n = 0 then t else t.msix 0 2).inst n = t.inst n := by
    split <;> simp [State.inst]
  rw [hmsix, msix_inst, updInst_inst_same]

theorem booked_setIState (s : State) (n : Nat) (new : IState) (cause : Nat) : Booked s (s.setIState n new cause) := by
  unfold State.setIState
  dsimp only
  split
  · exact .refl s
  · refine Booked.trans (b := s.updInst n (fun i => { i with state := new })) ⟨rfl, rfl, fun m => ?_⟩ (booked_event ..)
    by_cases h : m = n
    · subst h
      rw [updInst_inst_same]
    · rw [updInst_inst_other _ _ h]

/-- The state in which ABORT_DONE of a request is told. -/
def beforeDone (s : State) (r : AbortReq) : State :=
  if r.qid.isNone then (s.bookAbort r.inst r.qid).1.setIState r.inst .aborted 0 else (s.bookAbort r.inst r.qid).1

theorem finishRequest_eq (s : State) (r : AbortReq) : s.finishRequest r
    = (beforeDone s r).abortDone r.inst r.qid r.by_ 0 r.at_ (s.bookAbort r.inst r.qid).2 := rfl

theorem booked_beforeDone (s : State) (r : AbortReq) : Booked s (beforeDone s r) := by
  unfold beforeDone
  split
  · exact (booked_bookAbort ..).trans (booked_setIState ..)
  · exact booked_bookAbort ..

theorem finishRequests_frame (s : State) (l : List AbortReq) :
    (l.foldl State.finishRequest s).abrt = s.abrt ∧ (l.foldl State.finishRequest s).net = s.net := by
  induction l generalizing s with
  | nil => exact ⟨rfl, rfl⟩
  | cons r l ih =>
    obtain ⟨habrt, hnet⟩ := ih (s.finishRequest r)
    obtain ⟨kabrt, knet, -⟩ := booked_beforeDone s r
    rw [List.foldl_cons]
    rw [finishRequest_eq] at habrt hnet ⊢
    exact ⟨(habrt.trans (abortDone_frame ..).1).trans kabrt, (hnet.trans (abortDone_net ..).1).trans knet⟩

/-- A request answered, or none there: its tag is free. -/
theorem answered_frame (s : State) (src tag : Nat) : s.answered src tag = { s with net := (s.answered src tag).net }
    ∧ tabGet (s.answered src tag).net.reqs (tagKey src tag) = none
    ∧ ∀ k, tabGet s.net.reqs k = none → tabGet (s.answered src tag).net.reqs k = none := by
  unfold State.answered
  split
  next h => exact ⟨rfl, h, fun k hk => hk⟩
  next r h =>
    refine ⟨rfl, tabGet_erase_same .., fun k hk => ?_⟩
    by_cases hkey : k = tagKey src tag
    · rw [hkey]
      exact tabGet_erase_same ..
    · exact (tabGet_erase_other _ hkey).trans hk

theorem tagKey_split (k : Nat) : tagKey (k / 1024) (k % 1024) = k := by
  unfold tagKey
  omega

/-- The requests of `l` that match the entries `es` are answered with nothing. -/
def endedIn (es : List DrainEntry) (s : State) (l : Tab NetReq) : State :=
  l.foldl (fun t e => if reqMatches es e.1 e.2 then t.answered (e.1 / 1024) (e.1 % 1024) else t) s

theorem endedIn_frame (es : List DrainEntry) (s : State) (l : Tab NetReq) :
    endedIn es s l = { s with net := (endedIn es s l).net }
    ∧ (∀ k, tabGet s.net.reqs k = none → tabGet (endedIn es s l).net.reqs k = none)
    ∧ ∀ e ∈ l, reqMatches es e.1 e.2 = true → tabGet (endedIn es s l).net.reqs e.1 = none := by
  induction l generalizing s with
  | nil => exact ⟨rfl, fun _ h => h, fun e he => nomatch he⟩
  | cons e l ih =>
    have hone : ∃ u, endedIn es s (e :: l) = endedIn es u l ∧ u = { s with net := u.net }
        ∧ (∀ k, tabGet s.net.reqs k = none → tabGet u.net.reqs k = none)
        ∧ (reqMatches es e.1 e.2 = true → tabGet u.net.reqs e.1 = none) := by
      refine ⟨_, rfl, ?_⟩
      dsimp only
      obtain ⟨hframe, hdone, hstays⟩ := answered_frame s (e.1 / 1024) (e.1 % 1024)
      rw [tagKey_split] at hdone
      split
      next h => exact ⟨hframe, hstays, fun _ => hdone⟩
      next h => exact ⟨rfl, fun _ hk => hk, fun hm => absurd hm h⟩
    obtain ⟨u, heq, huframe, hustays, hudone⟩ := hone
    obtain ⟨hframe, hstays, hdone⟩ := ih u
    rw [heq]
    refine ⟨?_, fun k hk => hstays k (hustays k hk), fun e' he' hm => ?_⟩
    · rw [hframe, huframe]
    · rcases List.mem_cons.1 he' with rfl | he'
      · exact hstays _ (hudone hm)
      · exact hdone e' he' hm

/-- The state in which the requests of a round that ends are answered. -/
def roundClosed (s : State) : State :=
  { s.endMatching s.abrt.entries with abrt := { (s.endMatching s.abrt.entries).abrt with
      roundOn := false
      entries := []
      parts := []
      rounds := satInc (s.endMatching s.abrt.entries).abrt.rounds
      reqs := (s.endMatching s.abrt.entries).abrt.reqs.filter (fun r => !r.joined) } }

theorem roundClosed_frame (s : State) : roundClosed s = { s with
      net := (s.endMatching s.abrt.entries).net
      abrt := { s.abrt with
        roundOn := false
        entries := []
        parts := []
        rounds := satInc s.abrt.rounds
        reqs := s.abrt.reqs.filter (fun r => !r.joined) } } := by
  have hframe : s.endMatching s.abrt.entries = { s with net := (s.endMatching s.abrt.entries).net } :=
    (endedIn_frame s.abrt.entries s s.net.reqs).1
  unfold roundClosed
  rw [hframe]

/-- The round opened: the commands that its requests name are marked, and its entries stand in the table. -/
def roundOpened (s : State) : State :=
  let s1 := markedAll s (s.abrt.reqs.filter (fun r => !r.joined))
  { s1 with abrt := { s1.abrt with
      roundOn := true
      entries := (s.abrt.reqs.filter (fun r => !r.joined)).map (fun r => s1.entryOf r.inst r.qid)
        ++ s.guiltWaiting.filterMap (fun k => (s1.queue k).map (s1.guiltEntry k))
      parts := s1.roundParts
      reqs := s1.abrt.reqs.map (fun r => { r with joined := true }) } }

/-- The round started: the partitions of its work stopped, its guilty queues joined, what waits at the targets discarded. -/
def roundStarted (s : State) : State :=
  (s.guiltWaiting.foldl (fun t k => t.updQueue k (fun q => { q with guiltRound := 2 }))
    ((roundOpened s).abrt.parts.foldl State.stopPart (roundOpened s))).drainTargets

theorem drainRoundStart_eq {s : State}
    (hgo : (s.abrt.roundOn || ((s.abrt.reqs.filter (fun r => !r.joined)).isEmpty && s.guiltWaiting.isEmpty)) = false) :
    drainRoundStart s = (roundStarted s).reassess := by
  simp only [drainRoundStart, hgo, Bool.false_eq_true, if_false]
  rfl

theorem roundStarted_frame (s : State) : roundStarted s = { roundOpened s with
    parts := ((roundOpened s).abrt.parts.foldl State.stopPart (roundOpened s)).parts
    queues := (s.guiltWaiting.foldl (fun t k => t.updQueue k (fun q => { q with guiltRound := 2 }))
      ((roundOpened s).abrt.parts.foldl State.stopPart (roundOpened s))).queues
    mem := (roundStarted s).mem
    link := (roundStarted s).link } := by
  have hjoined := (joinedGuilt_frame ((roundOpened s).abrt.parts.foldl State.stopPart (roundOpened s)) s.guiltWaiting).1
  have hstopped := (stopParts_frame (roundOpened s) (roundOpened s).abrt.parts).1
  unfold roundStarted State.drainTargets
  rw [hjoined]
  dsimp only
  rw [hstopped]

/-- Settles O37: a round marks and stops the work it takes up, and at its end that work's requests are answered and its aborts
done. -/
theorem drainRoundsEndTheAbortedWork : Obligations.DrainRoundsEndTheAbortedWork := by
  refine ⟨?start, ?idle, ?noRound, ?end_⟩
  case start =>
    intro s hoff hwork
    have hexec : exec .drainRoundStart s = .next (drainRoundStart s) := rfl
    have hstill := drainRoundStart_still hexec
    have hgo : (s.abrt.roundOn || ((s.abrt.reqs.filter (fun r => !r.joined)).isEmpty && s.guiltWaiting.isEmpty)) = false := by
      rw [hoff, Bool.false_or, Bool.and_eq_false_iff]
      refine hwork.imp (fun h => ?_) (fun h => ?_)
      · obtain ⟨r, hr, hj⟩ := h
        rw [List.isEmpty_eq_false_iff_exists_mem]
        exact ⟨r, List.mem_filter.2 ⟨hr, by rw [hj]; rfl⟩⟩
      · rw [List.isEmpty_eq_false_iff]
        exact h
    rw [drainRoundStart_eq hgo] at hexec hstill
    have hkept := roundStarted_frame s
    obtain ⟨hstopped, hruns, -, hstops⟩ := stopParts_frame (roundOpened s) (roundOpened s).abrt.parts
    have hpower := (powerOnly_reassess (roundStarted s)).1
    have hsteps := reassess_partsStepped (roundStarted s)
    obtain ⟨-, hqueues⟩ := joinedGuilt_frame ((roundOpened s).abrt.parts.foldl State.stopPart (roundOpened s)) s.guiltWaiting
    refine ⟨_, hexec, hstill, ?_, ?_, fun k c hk => ?_, fun p hp hrun => ?_, fun k hk q hq => ?_⟩
    · rw [hpower, hkept]
      rfl
    · rw [hpower, hkept]
      show (markedAll s _).abrt.reqs.map _ = _
      rw [(markedAll_cmds ..).1]
    · refine ⟨doomed s (s.abrt.reqs.filter (fun r => !r.joined)) c, ?_, rfl, ?_⟩
      · rw [hpower, hkept]
        refine ((markedAll_cmds ..).2 k).trans ?_
        rw [hk]
        rfl
      · simp only [doomed, Bool.or_eq_true, Bool.and_eq_true, List.any_eq_true, List.mem_filter, Bool.not_eq_true', and_assoc]
    · have hpart : (roundStarted s).part p = ((roundOpened s).abrt.parts.foldl State.stopPart (roundOpened s)).part p := by
        rw [hkept]
        rfl
      have hin : p ∈ (roundOpened s).abrt.parts := by
        rw [hpower, hkept] at hp
        exact hp
      have hrun' : (roundOpened s).runsCancelled p = true := by
        rw [← hruns]
        have hsame : (roundStarted s).reassess.runsCancelled p
            = ((roundOpened s).abrt.parts.foldl State.stopPart (roundOpened s)).runsCancelled p := by
          have hcmd (a b : Nat) : (roundStarted s).reassess.cmd a b
              = ((roundOpened s).abrt.parts.foldl State.stopPart (roundOpened s)).cmd a b := by
            rw [reassess_cmd, hkept, hstopped]
            rfl
          unfold State.runsCancelled
          rw [hsteps p, hpart]
          simp only [hcmd]
        exact hsame.symm.trans hrun
      obtain ⟨hgrant, htile⟩ := hstops p hin hrun'
      rw [hsteps p, hpart]
      exact ⟨hgrant, htile⟩
    · have hq' : ((roundOpened s).abrt.parts.foldl State.stopPart (roundOpened s)).queue k = some q := by
        rw [hstopped]
        show tabGet (markedAll s _).queues k = _
        rw [(markedAll_cmds ..).1]
        exact hq
      obtain ⟨g, -, hg, hjoined⟩ := hqueues k q hq'
      refine ⟨_, ?_, congrArg (fun g => ({ q with guiltRound := g } : Queue)) (hg hk)⟩
      rw [hpower, hkept]
      exact hjoined
  case idle =>
    intro s h
    have hstop : (s.abrt.roundOn || ((s.abrt.reqs.filter (fun r => !r.joined)).isEmpty && s.guiltWaiting.isEmpty)) = true := by
      rcases h with h | ⟨hjoined, hnone⟩
      · rw [h]
        rfl
      · have hempty : s.abrt.reqs.filter (fun r => !r.joined) = [] :=
          List.filter_eq_nil_iff.2 fun r hr => by rw [hjoined r hr]; decide
        rw [hempty, hnone]
        exact Bool.or_true _
    simp only [exec, execDrainRoundStart, drainRoundStart, hstop, if_true]
  case noRound =>
    intro s hoff
    simp only [exec, execDrainRoundEnd, drainRoundEnd, hoff, Bool.not_false, if_true]
  case end_ =>
    intro s hon
    have hexec : exec .drainRoundEnd s = .next (((s.abrt.reqs.filter (·.joined)).foldl State.finishRequest
        ((tabKeys (s.queues.filter (fun e => e.2.guiltRound == 2 && !e.2.abortLatched))).foldl State.finishGuilt
          (roundClosed s))).reassess) := by
      simp only [exec, execDrainRoundEnd, drainRoundEnd, hon, Bool.not_true, Bool.false_eq_true, if_false]
      rfl
    have hclosed := roundClosed_frame s
    have hended := (endedIn_frame s.abrt.entries s s.net.reqs).2.2
    obtain ⟨hbooked, hslots, hqueues⟩ := finishGuilts_frame (roundClosed s)
      (tabKeys (s.queues.filter (fun e => e.2.guiltRound == 2 && !e.2.abortLatched)))
    generalize (tabKeys (s.queues.filter (fun e => e.2.guiltRound == 2 && !e.2.abortLatched))).foldl State.finishGuilt
      (roundClosed s) = u at *
    obtain ⟨habrt, hnet, hcount⟩ := hbooked
    rw [hclosed] at habrt hnet
    have hall := finishRequests_frame u (s.abrt.reqs.filter (·.joined))
    obtain ⟨hpower, hsame, -⟩ := powerOnly_reassess ((s.abrt.reqs.filter (·.joined)).foldl State.finishRequest u)
    refine ⟨_, hexec, ?_, fun k r hk hmatch => ?_, fun r hr => ?_⟩
    · rw [hpower]
      exact hall.1.trans habrt
    · rw [hpower]
      dsimp only
      rw [hall.2, hnet]
      exact hended (k, r) (mem_of_tabGet hk) hmatch
    · rw [hr] at hpower hsame ⊢
      rw [List.foldl_cons, List.foldl_nil, finishRequest_eq] at hpower hsame ⊢
      have hbefore := booked_beforeDone u r
      have hinst := hsame.eq r.inst
      have hdone := abortDone_frame (beforeDone u r) r.inst r.qid r.by_ 0 r.at_ (u.bookAbort r.inst r.qid).2
      have hstate := (abortDone_net (beforeDone u r) r.inst r.qid r.by_ 0 r.at_ (u.bookAbort r.inst r.qid).2).2
      obtain ⟨-, hkqueues, hresult, -, hlastAll, hdoneCount, hbusy⟩ := hdone
      rw [hinst]
      refine ⟨hresult, ?_, fun hq => ⟨?_, hbusy hq, ?_⟩, fun k slot q hqid hslot hqueue hcause hguilty => ?_⟩
      · rw [show ∀ i : Inst, ∀ b, ({ i with box := b } : Inst).doneCount = i.doneCount from fun _ _ => rfl]
        rw [hdoneCount, hbefore.2.2, hcount, hclosed]
        rfl
      · refine hstate.trans ?_
        have hb : beforeDone u r = (u.bookAbort r.inst r.qid).1.setIState r.inst .aborted 0 := by
          unfold beforeDone
          rw [hq]
          rfl
        rw [hb, (setIState_frame ..).2.2]
      · refine hlastAll.trans ?_
        rw [hq]
        rfl
      · obtain ⟨g, hg⟩ := hqueues slot q (by rw [hclosed]; exact hqueue)
        have hslot' : u.slotOf r.inst k = some slot := by
          rw [hslots, hclosed]
          exact hslot
        obtain ⟨x, hx, hxcause, hxlatched⟩ := bookAbort_queue hslot' hg hcause hguilty
        refine ⟨x, ?_, hxcause, hxlatched⟩
        rw [hpower]
        have hb : beforeDone u r = (u.bookAbort r.inst (some k)).1 := by
          unfold beforeDone
          rw [hqid]
          rfl
        rw [hb] at hkqueues ⊢
        rw [← hx]
        exact congrArg (fun t => tabGet t slot) hkqueues

end Sys2Proof.Proofs
end

section
/-! PROOFS. O38 and O39: freezes, host loss and restarts of the core. -/

namespace Sys2Proof.Proofs
open Sys2Proof Sys2Proof.Machine Sys2Proof.Safety Sys2Proof.Laws

-- Queues held together (12 R253, 15 R334) ---------------------------------------------------------------------------------

theorem foldl_updQueue_frame (s : State) (f : Queue → Queue) (l : List Nat) :
    l.foldl (fun t k => t.updQueue k f) s = { s with queues := (l.foldl (fun t k => t.updQueue k f) s).queues } := by
  induction l generalizing s with
  | nil => rfl
  | cons j l ih => exact ih _

theorem foldl_updQueue_queue (s : State) {f : Queue → Queue} (hf : ∀ q, f (f q) = f q) (l : List Nat) (k : Nat) :
    (l.foldl (fun t k => t.updQueue k f) s).queue k = if k ∈ l then (s.queue k).map f else s.queue k := by
  induction l generalizing s with
  | nil => rfl
  | cons j l ih =>
    rw [List.foldl_cons, ih]
    by_cases hkj : k = j
    · subst hkj
      rw [updQueue_queue_same, if_pos List.mem_cons_self, Option.map_map]
      have hff : f ∘ f = f := funext hf
      rw [hff]
      exact ite_self _
    · rw [updQueue_queue_other _ _ hkj]
      simp only [List.mem_cons, hkj, false_or]

theorem mem_slotsOf {s : State} {n k : Nat} : k ∈ s.slotsOf n ↔ ∃ e ∈ s.queues, e.1 = k ∧ e.2.inst = n := by
  simp only [State.slotsOf, tabKeys, List.mem_map, List.mem_filter, beq_iff_eq]
  exact ⟨fun ⟨e, ⟨he, hi⟩, hk⟩ => ⟨e, he, hk, hi⟩, fun ⟨e, he, hk, hi⟩ => ⟨e, ⟨he, hi⟩, hk⟩⟩

/-- The queues of an instance held by `f`, which leaves a STOPPED queue alone. -/
def heldQueues (s : State) (n : Nat) (f : Queue → Queue) : State :=
  (s.slotsOf n).foldl (fun t k => t.updQueue k (fun q => if q.stopCause = 0 then f q else q)) s

theorem heldQueues_frame (s : State) (n : Nat) (f : Queue → Queue) :
    heldQueues s n f = { s with queues := (heldQueues s n f).queues } :=
  foldl_updQueue_frame ..

theorem heldQueues_queue {s : State} {n : Nat} {f : Queue → Queue} (hf : ∀ q, f (f q) = f q ∧ (f q).stopCause = q.stopCause) :
    (∀ slot q, s.queue slot = some q → q.inst = n → q.stopCause = 0 → (heldQueues s n f).queue slot = some (f q))
    ∧ (∀ slot q, s.queue slot = some q → q.stopCause ≠ 0 → (heldQueues s n f).queue slot = some q)
    ∧ ∀ slot, (∀ e ∈ s.queues, e.1 = slot → e.2.inst ≠ n) → (heldQueues s n f).queue slot = s.queue slot := by
  have hidem (q : Queue) : (fun q : Queue => if q.stopCause = 0 then f q else q) ((fun q : Queue => if q.stopCause = 0 then f q else q) q)
      = (fun q : Queue => if q.stopCause = 0 then f q else q) q := by
    obtain ⟨hff, hcause⟩ := hf q
    dsimp only
    by_cases h : q.stopCause = 0
    · rw [if_pos h, if_pos (hcause.trans h), hff]
    · rw [if_neg h, if_neg h]
  have hget := foldl_updQueue_queue s (f := fun q => if q.stopCause = 0 then f q else q) hidem (s.slotsOf n)
  refine ⟨fun slot q hq hinst hcause => ?_, fun slot q hq hcause => ?_, fun slot hno => ?_⟩
  · have hmem : slot ∈ s.slotsOf n := mem_slotsOf.2 ⟨(slot, q), mem_of_tabGet hq, rfl, hinst⟩
    refine (hget slot).trans ?_
    rw [if_pos hmem, hq]
    exact congrArg some (if_pos hcause)
  · refine (hget slot).trans ?_
    rw [hq]
    split
    · exact congrArg some (if_neg hcause)
    · rfl
  · have hmem : slot ∉ s.slotsOf n := fun h => by
      obtain ⟨e, he, hk, hi⟩ := mem_slotsOf.1 h
      exact hno e he hk hi
    exact (hget slot).trans (if_neg hmem)

-- Freezes (12 R253, R254) -------------------------------------------------------------------------------------------------

theorem freezeComplete_still {s t : State} {n : Fin 33} (h : exec (.freezeComplete n) s = .next t) : Still s t :=
  still_of_view (view_execFreezeComplete n s h)

theorem freezeTimeout_still {s t : State} {n : Fin 33} (h : exec (.freezeTimeout n) s = .next t) : Still s t :=
  still_of_view (view_execFreezeTimeout n s h)

/-- What telling the end or the change of an instance's state leaves: only instances, the link and held events differ. -/
def SpokenOnly (s t : State) : Prop := t = { s with insts := t.insts, link := t.link, mgc := t.mgc } ∧ SameMgc s.mgc t.mgc

theorem SpokenOnly.refl (s : State) : SpokenOnly s s := ⟨rfl, rfl⟩

theorem SpokenOnly.trans {a b c : State} (h : SpokenOnly a b) (k : SpokenOnly b c) : SpokenOnly a c :=
  ⟨by rw [k.1, h.1], SameMgc.trans h.2 k.2⟩

theorem spokenOnly_setIState (s : State) (n : Nat) (new : IState) (cause : Nat) : SpokenOnly s (s.setIState n new cause) := by
  unfold State.setIState
  dsimp only
  split
  · exact .refl s
  · exact SpokenOnly.trans (b := s.updInst n (fun i => { i with state := new })) ⟨rfl, rfl⟩ ⟨(toldOnly_event ..).2, event_mgc ..⟩

theorem spokenOnly_reply (s : State) (mb : Nat) (h : MsgHdr) (st : Status) (out : List Byte) : SpokenOnly s (s.reply mb h st out) :=
  ⟨by apply state_ext <;> simp, by rw [reply_mgc]; exact rfl⟩

theorem spokenOnly_endFreeze (s : State) (n : Nat) (st : Status) (out : List Byte) : SpokenOnly s (s.endFreeze n st out) := by
  unfold State.endFreeze
  split
  · exact .refl s
  · split
    · exact SpokenOnly.trans (b := s.updInst n (fun i => { i with freezeReq := none, freezeOut := none })) ⟨rfl, rfl⟩
        (spokenOnly_reply ..)
    · exact ⟨rfl, rfl⟩

theorem preemptParts_frame (s : State) (sel : Nat → Bool) : s.preemptParts sel = { s with parts := (s.preemptParts sel).parts } := by
  have hfold (l : List Nat) (f : State → Nat → State) (hf : ∀ t p, f t p = { t with parts := (f t p).parts }) (u : State) :
      l.foldl f u = { u with parts := (l.foldl f u).parts } := by
    induction l generalizing u with
    | nil => rfl
    | cons p l ih =>
      rw [List.foldl_cons, ih (f u p), hf u p]
  unfold State.preemptParts
  refine hfold _ _ (fun t p => ?_) s
  split
  · split <;> rfl
  · rfl

/-- A freeze started: the instance is FREEZING with its deadline, and pre-emptions are asked of partitions. -/
theorem startFreeze_frame (s : State) (n ms : Nat) (req : Option (Nat × MsgHdr)) (halt : Bool) :
    s.startFreeze n ms req halt = { s with
      insts := (s.startFreeze n ms req halt).insts
      link := (s.startFreeze n ms req halt).link
      mgc := (s.startFreeze n ms req halt).mgc
      parts := (s.startFreeze n ms req halt).parts }
    ∧ SameMgc s.mgc (s.startFreeze n ms req halt).mgc
    ∧ ((s.startFreeze n ms req halt).inst n).state = .freezing
    ∧ ((s.startFreeze n ms req halt).inst n).freezeUntil = s.now + ms * 1000000
    ∧ ((s.startFreeze n ms req halt).inst n).freezeReq = req
    ∧ ((s.startFreeze n ms req halt).inst n).haltFreeze = halt := by
  obtain ⟨hspoken, hsame⟩ := spokenOnly_setIState s n .freezing 0
  have hinst := (setIState_frame s n .freezing 0).2.2
  unfold State.startFreeze
  dsimp only
  generalize s.setIState n .freezing 0 = u at *
  generalize hv : u.updInst n (fun i => { i with freezeUntil := s.now + ms * 1000000, freezeReq := req, haltFreeze := halt }) = v
  have hvinst : v.inst n = { u.inst n with freezeUntil := s.now + ms * 1000000, freezeReq := req, haltFreeze := halt } := by
    rw [← hv, updInst_inst_same]
  have hvframe : v = { s with insts := v.insts, link := v.link, mgc := v.mgc } := by
    rw [← hv]
    unfold State.updInst
    rw [hspoken]
  have hvmgc : SameMgc s.mgc v.mgc := by
    rw [← hv]
    exact hsame
  generalize (fun p => _ : Nat → Bool) = sel
  have hparts := preemptParts_frame v sel
  have hinst' : (v.preemptParts sel).inst n = v.inst n := by
    rw [hparts]
    rfl
  rw [hinst', hvinst]
  refine ⟨?_, ?_, ?_, rfl, rfl, rfl⟩
  · rw [hparts, hvframe]
  · rw [hparts]
    exact hvmgc
  · show (u.inst n).state = _
    rw [hinst]

/-- The state of an instance whose freeze is complete, its reply yet to come. -/
def frozenAt (s : State) (n : Nat) : State :=
  (heldQueues ((s.setIState n .frozen 0).updInst n (fun i => { i with frozenAt := s.now, freezeUntil := 0 })) n
    (fun q => Queue.touch { q with heldFrozen := true })).stopProgress n

theorem freezeComplete_eq {s : State} {n : Nat} (hstate : (s.inst n).state = .freezing) (hphase : s.rst.phase = .none)
    (hdone : s.freezeDone n = true) : ∃ out, freezeComplete n s = (frozenAt s n).endFreeze n St.ok out := by
  have hgo : ((s.inst n).state == .freezing && s.rst.phase == .none && s.freezeDone n) = true := by
    rw [hstate, hphase, hdone]
    rfl
  refine ⟨leBytes 8 s.now ++ leBytes 2 ((frozenAt s n).savedLaunches n) ++ leBytes 6 0 ++ leBytes 8 ((frozenAt s n).blobLen n), ?_⟩
  simp only [freezeComplete, hgo, if_true]
  rfl

theorem stopProgress_cmds (s : State) (n k : Nat) : tabGet (s.stopProgress n).cmds k
    = (tabGet s.cmds k).map (fun c => if c.inst = n then { c with progUsed := s.progress c, progFrom := none } else c) :=
  tabGet_map s.cmds (fun _ c => if c.inst = n then { c with progUsed := s.progress c, progFrom := none } else c) k

theorem frozenAt_frame (s : State) (n : Nat) :
    ((frozenAt s n).inst n).state = .frozen ∧ ((frozenAt s n).inst n).frozenAt = s.now ∧ ((frozenAt s n).inst n).freezeUntil = 0
    ∧ (∀ slot, (frozenAt s n).queue slot
        = (heldQueues ((s.setIState n .frozen 0).updInst n (fun i => { i with frozenAt := s.now, freezeUntil := 0 })) n
            (fun q => Queue.touch { q with heldFrozen := true })).queue slot)
    ∧ ((s.setIState n .frozen 0).updInst n (fun i => { i with frozenAt := s.now, freezeUntil := 0 })).queues = s.queues
    ∧ ∀ k c, tabGet s.cmds k = some c → c.inst = n →
        tabGet (frozenAt s n).cmds k = some { c with progUsed := s.progress c, progFrom := none } := by
  obtain ⟨hspoken, -⟩ := spokenOnly_setIState s n .frozen 0
  have hinst := (setIState_frame s n .frozen 0).2.2
  unfold frozenAt
  generalize s.setIState n .frozen 0 = u at *
  generalize hv : u.updInst n (fun i => { i with frozenAt := s.now, freezeUntil := 0 }) = v
  have hvinst : v.inst n = { u.inst n with frozenAt := s.now, freezeUntil := 0 } := by rw [← hv, updInst_inst_same]
  have hvqueues : v.queues = s.queues := by
    rw [← hv]
    show u.queues = _
    rw [hspoken]
  have hvcmds : v.cmds = s.cmds := by
    rw [← hv]
    show u.cmds = _
    rw [hspoken]
  have hvclk : v.clk = s.clk := by
    rw [← hv]
    show u.clk = _
    rw [hspoken]
  have hheld := heldQueues_frame v n (fun q => Queue.touch { q with heldFrozen := true })
  generalize heldQueues v n (fun q => Queue.touch { q with heldFrozen := true }) = w at *
  have hwinst : (w.stopProgress n).inst n = { u.inst n with frozenAt := s.now, freezeUntil := 0 } := by
    rw [← hvinst, hheld]
    rfl
  have hclk : w.clk = s.clk := by
    rw [hheld]
    exact hvclk
  rw [hwinst]
  refine ⟨?_, rfl, rfl, fun _ => rfl, hvqueues, fun k c hk hn => ?_⟩
  · show (u.inst n).state = _
    rw [hinst]
  · refine (stopProgress_cmds w n k).trans ?_
    have hwcmds : w.cmds = s.cmds := by
      rw [hheld]
      exact hvcmds
    have hprog : w.progress c = s.progress c := by
      unfold State.progress State.now
      rw [hclk]
    rw [hwcmds, hk]
    exact congrArg some ((if_pos hn).trans (by rw [hprog]))

theorem freezeComplete_stays {s : State} {n : Nat}
    (h : ((s.inst n).state == .freezing && s.rst.phase == .none && s.freezeDone n) = false) : freezeComplete n s = s := by
  simp only [freezeComplete, h, Bool.false_eq_true, if_false]

theorem freezeTimeout_stays {s : State} {n : Nat}
    (h : ((s.inst n).state == .freezing && decide ((s.inst n).freezeUntil ≤ s.now)) = false) : freezeTimeout n s = s := by
  simp only [freezeTimeout, h, Bool.false_eq_true, if_false]

/-- A freeze abandoned, with whether HALT_ALL will send it again. -/
def abandoned (s : State) (n : Nat) : State :=
  ((s.setIState n .active 0).endFreeze n St.freezeTimeout []).updInst n
    (fun i => { i with freezeUntil := 0, haltFreeze := (s.inst n).haltFreeze && s.mgc.orphan })

theorem abandoned_frame (s : State) (n : Nat) : SpokenOnly s (abandoned s n) ∧ ((abandoned s n).inst n).state = .active
    ∧ ((abandoned s n).inst n).freezeUntil = 0 := by
  have hstate := (setIState_frame s n .active 0).2.2
  have hend := (endFreeze_frame (s.setIState n .active 0) n St.freezeTimeout []).2.2
  refine ⟨((spokenOnly_setIState s n .active 0).trans (spokenOnly_endFreeze ..)).trans ⟨rfl, rfl⟩, ?_, ?_⟩
  · unfold abandoned
    rw [updInst_inst_same, hend, hstate]
  · unfold abandoned
    rw [updInst_inst_same]

theorem freezeTimeout_eq {s : State} {n : Nat} (hstate : (s.inst n).state = .freezing) (hdue : (s.inst n).freezeUntil ≤ s.now) :
    freezeTimeout n s = if ((s.inst n).haltFreeze && s.mgc.orphan) && s.serving then (abandoned s n).startFreeze n 10000 none true
      else abandoned s n := by
  have hgo : ((s.inst n).state == .freezing && decide ((s.inst n).freezeUntil ≤ s.now)) = true := by
    rw [hstate, decide_eq_true hdue]
    rfl
  simp only [freezeTimeout, hgo, if_true]
  rfl

/-- Settles O38: a freeze that is done completes; one whose time passes is abandoned or sent again. -/
theorem freezesCompleteOrTimeOut : Obligations.FreezesCompleteOrTimeOut := by
  refine ⟨fun s n hstate hphase => ⟨fun hdone => ?done, fun hno => ?undone⟩, fun s n hstate => ?none_,
    fun s n hstate => ⟨fun hearly => ?early, fun hdue => ⟨fun hno => ?abandoned, fun hhalt horphan hserving => ?again⟩⟩⟩
  case done =>
    obtain ⟨out, heq⟩ := freezeComplete_eq hstate hphase hdone
    have hexec : exec (.freezeComplete n) s = .next ((frozenAt s n.val).endFreeze n.val St.ok out) := congrArg _ heq
    obtain ⟨hfrozen, hat, huntil, hqueues, hsame, hcmds⟩ := frozenAt_frame s n.val
    have hspoken := (spokenOnly_endFreeze (frozenAt s n.val) n.val St.ok out).1
    have hinst := (endFreeze_frame (frozenAt s n.val) n.val St.ok out).2.2
    have hget (slot : Nat) : ((frozenAt s n.val).endFreeze n.val St.ok out).queue slot = (frozenAt s n.val).queue slot := by
      rw [hspoken]
      rfl
    have hheld := heldQueues_queue (s := (s.setIState n.val .frozen 0).updInst n.val
      (fun i => { i with frozenAt := s.now, freezeUntil := 0 })) (n := n.val)
      (f := fun q => Queue.touch { q with heldFrozen := true }) fun _ => ⟨rfl, rfl⟩
    simp only [State.queue, hsame] at hheld
    obtain ⟨hmine, hstopped, hothers⟩ := hheld
    refine ⟨_, hexec, freezeComplete_still hexec, ?_, ?_, ?_, fun slot q hq hi hc => ?_, fun slot q hq hc => ?_, fun slot hno => ?_,
      fun k c hk hi => ?_⟩
    · rw [hinst]
      exact hfrozen
    · rw [hinst]
      exact hat
    · rw [hinst]
      exact huntil
    · exact ((hget slot).trans (hqueues slot)).trans (hmine slot q hq hi hc)
    · exact ((hget slot).trans (hqueues slot)).trans (hstopped slot q hq hc)
    · exact ((hget slot).trans (hqueues slot)).trans (hothers slot hno)
    · rw [hspoken]
      exact hcmds k c hk hi
  case undone => exact congrArg _ (freezeComplete_stays (by rw [hno]; exact Bool.and_false _))
  case none_ =>
    have hno : ((s.inst n.val).state == .freezing) = false := beq_false_of_ne hstate
    exact ⟨congrArg _ (freezeComplete_stays (by rw [hno]; rfl)), congrArg _ (freezeTimeout_stays (by rw [hno]; rfl))⟩
  case early =>
    have hno : decide ((s.inst n.val).freezeUntil ≤ s.now) = false := decide_eq_false (Nat.not_le.2 hearly)
    exact congrArg _ (freezeTimeout_stays (by rw [hno]; exact Bool.and_false _))
  case abandoned =>
    have hexec : exec (.freezeTimeout n) s = .next (abandoned s n.val) := by
      refine congrArg _ ((freezeTimeout_eq hstate hdue).trans (if_neg ?_))
      rcases hno with h | h <;> rw [h] <;> simp
    obtain ⟨⟨hspoken, -⟩, hactive, huntil⟩ := abandoned_frame s n.val
    refine ⟨_, hexec, freezeTimeout_still hexec, hactive, huntil, ?_, ?_⟩
    · rw [hspoken]
    · rw [hspoken]
  case again =>
    have hexec : exec (.freezeTimeout n) s = .next ((abandoned s n.val).startFreeze n.val 10000 none true) :=
      congrArg _ ((freezeTimeout_eq hstate hdue).trans (if_pos (by rw [hhalt, horphan, hserving]; rfl)))
    have hnow : (abandoned s n.val).now = s.now := by
      unfold State.now
      rw [(abandoned_frame s n.val).1.1]
    obtain ⟨-, -, hfreezing, huntil, -, -⟩ := startFreeze_frame (abandoned s n.val) n.val 10000 none true
    exact ⟨_, hexec, freezeTimeout_still hexec, hfreezing, huntil.trans (by rw [hnow])⟩

-- Host loss (15 R333 to R335) ---------------------------------------------------------------------------------------------

theorem hostLoss_still {s t : State} (h : exec .hostLossExpiry s = .next t) : Still s t :=
  still_of_view (view_execHostLossExpiry s h)

/-- Applying the policy of orphan mode: freezes are sent, and of the manager's record only HALTED and the held events move. -/
def PolicyOnly (s t : State) : Prop :=
  t = { s with insts := t.insts, link := t.link, mgc := t.mgc, parts := t.parts }
  ∧ t.mgc = { s.mgc with halted := t.mgc.halted, holdQueue := t.mgc.holdQueue, holdLost := t.mgc.holdLost }

theorem PolicyOnly.refl (s : State) : PolicyOnly s s := ⟨rfl, rfl⟩

theorem PolicyOnly.trans {a b c : State} (h : PolicyOnly a b) (k : PolicyOnly b c) : PolicyOnly a c := by
  obtain ⟨heq, hmgc⟩ := h
  obtain ⟨keq, kmgc⟩ := k
  exact ⟨by rw [keq, heq], by rw [kmgc, hmgc]⟩

theorem policyOnly_startFreeze (s : State) (n ms : Nat) (req : Option (Nat × MsgHdr)) (halt : Bool) :
    PolicyOnly s (s.startFreeze n ms req halt) := by
  obtain ⟨hframe, hmgc, -⟩ := startFreeze_frame s n ms req halt
  refine ⟨hframe, ?_⟩
  rw [hmgc]

theorem policyOnly_applyPolicy (s : State) : PolicyOnly s s.applyPolicy := by
  have hfold (l : List Nat) (u : State) : PolicyOnly u (l.foldl (fun t n => t.startFreeze n 10000 none true) u) := by
    induction l generalizing u with
    | nil => exact .refl u
    | cons n l ih => exact (policyOnly_startFreeze ..).trans (ih _)
  unfold State.applyPolicy
  dsimp only
  split
  · exact PolicyOnly.trans (b := { s with mgc := { s.mgc with halted := true } }) ⟨rfl, rfl⟩ (hfold ..)
  · exact .refl s

/-- Orphan mode begun, its queues held and its time noted. -/
def orphaned (s : State) : State :=
  heldQueues { s with mgc := { s.mgc with
      armed := false
      orphan := true
      orphanAt := s.now
      halted := false
      orphanCount := satInc s.mgc.orphanCount } } 0 (fun q => Queue.touch { q with heldOrphan := true })

theorem beginOrphan_frame {s : State} (h : s.mgc.orphan = false) : ∃ u, s.beginOrphan = alerted s u ∧ PolicyOnly (orphaned s) u := by
  have htold : PolicyOnly (orphaned s) ((orphaned s).event Ev.orphanEntered 0 false true (leBytes 8 s.now)) := by
    have hmgc := event_mgc (orphaned s) Ev.orphanEntered 0 false true (leBytes 8 s.now)
    refine ⟨?_, ?_⟩
    · rw [(toldOnly_event ..).2]
    · rw [hmgc]
  have heq : s.beginOrphan = alerted s (if s.serving then
      ((orphaned s).event Ev.orphanEntered 0 false true (leBytes 8 s.now)).applyPolicy
      else (orphaned s).event Ev.orphanEntered 0 false true (leBytes 8 s.now)) := by
    simp only [State.beginOrphan, h, Bool.false_eq_true, if_false]
    rfl
  refine ⟨_, heq, ?_⟩
  split
  · exact htold.trans (policyOnly_applyPolicy _)
  · exact htold

-- Restarts of the core (15 R325 to R328) ------------------------------------------------------------------------------------

/-- A restart of the core alone for `cause`: the core's own record shows it and nothing of the work changes. -/
def CoreRestarted (s t : State) (cause : Nat) : Prop :=
  t.mgc.fw = .restarting ∧ t.mgc.lastCause = BitVec.ofNat 4 cause ∧ t.mgc.restarts = satInc s.mgc.restarts
    ∧ t.mgc.restartAt = s.now ∧ t.mem = s.mem ∧ t.queues = s.queues ∧ t.cmds = s.cmds ∧ t.parts = s.parts
    ∧ t.contracts = s.contracts ∧ t.fep = s.fep ∧ t.pending = s.pending ∧ (∀ a, t.readKeep a = s.readKeep a)
    ∧ (t.dict.alertLatched.getLsbD 8 = true)

/-- What stopping a verification under way leaves: its operation, its result and the event differ. -/
theorem stopVerify_keeps (s : State) : s.stopVerify = { s with
      freeCount := s.stopVerify.freeCount
      keep := { s.keep with ops := s.stopVerify.keep.ops }
      dict := { s.dict with cmdResult := s.stopVerify.dict.cmdResult }
      insts := s.stopVerify.insts
      link := s.stopVerify.link
      mgc := s.stopVerify.mgc } := by
  have hstage (u : State) (result : Abort) : u.stageDone 2 result = { u with
      dict := { u.dict with cmdResult := (u.stageDone 2 result).dict.cmdResult }
      insts := (u.stageDone 2 result).insts
      link := (u.stageDone 2 result).link
      mgc := (u.stageDone 2 result).mgc } := by
    unfold State.stageDone
    dsimp only
    rw [if_neg (by decide), (toldOnly_event ..).2]
  unfold State.stopVerify
  split
  · rfl
  · split
    · rw [hstage]
      rfl
    · rfl

theorem coreLinked_keeps (s : State) : coreLinked s = { s with net := (coreLinked s).net } := by
  unfold coreLinked
  split
  · obtain ⟨gens, hgens⟩ := refillGens_frame (s.updBridge 16 (fun b => { b with fatal := false })) nMgc
    rw [hgens]
    rfl
  · rfl

theorem coreRestarted {s : State} (hrun : s.mgc.fw = .running) (cause : Nat) : CoreRestarted s (s.restartCore cause) cause := by
  obtain ⟨hfw, hcause, hrestarts, -⟩ := restartCore_frame hrun cause
  refine ⟨hfw, hcause, hrestarts, ?_⟩
  rw [restartCore_eq, alerted_eq]
  have hsame := (stopVerify_frame ((coreLinked (coreCounted s cause)).latchAlert alertRestarted)).2
  have hkeeps := stopVerify_keeps ((coreLinked (coreCounted s cause)).latchAlert alertRestarted)
  have hmgc := (coreLinked_frame (coreCounted s cause)).1
  have hlinked := coreLinked_keeps (coreCounted s cause)
  refine ⟨?at_, ?_, ?_, ?_, ?_, ?_, ?_, ?_, fun a => ?_, ?alert⟩
  case at_ =>
    dsimp only
    rw [hsame]
    dsimp only [State.latchAlert]
    rw [hmgc]
    rfl
  case alert =>
    dsimp only
    rw [hkeeps]
    have hbit : ((1#32 : Abort) <<< alertRestarted).getLsbD 8 = true := by decide
    exact (BitVec.getLsbD_or ..).trans (by rw [hbit]; exact Bool.or_true _)
  all_goals
    dsimp only [State.readKeep]
    rw [hkeeps]
    dsimp only [State.latchAlert]
    rw [hlinked]
    rfl

/-- What a restart writes of the core's record. -/
theorem restartCore_mgc (s : State) (cause : Nat) : (s.restartCore cause).mgc = { s.mgc with
      fw := (s.restartCore cause).mgc.fw
      lastCause := (s.restartCore cause).mgc.lastCause
      restarts := (s.restartCore cause).mgc.restarts
      restartsSinceAttach := (s.restartCore cause).mgc.restartsSinceAttach
      restartAt := (s.restartCore cause).mgc.restartAt
      restartTimes := (s.restartCore cause).mgc.restartTimes
      holdQueue := (s.restartCore cause).mgc.holdQueue
      holdLost := (s.restartCore cause).mgc.holdLost } := by
  have hsame := (stopVerify_frame ((coreLinked (coreCounted s cause)).latchAlert alertRestarted)).2
  have hmgc := (coreLinked_frame (coreCounted s cause)).1
  rw [restartCore_eq, alerted_eq]
  dsimp only
  rw [hsame]
  dsimp only [State.latchAlert]
  rw [hmgc]
  rfl

theorem actSource_core {s : State} {source : Nat} (hphase : s.rst.phase = .none) (h : s.levelOf source = 4) (arg : Nat) :
    s.actSource source arg = s.restartCore arg := by
  have hwide : s.wideRuns = false := by simp [State.wideRuns, hphase]
  have hl2 : s.l2Runs = false := by simp [State.l2Runs, hphase]
  simp only [State.actSource, hwide, hl2, h, Bool.false_eq_true, if_false, if_true]

/-- Settles O39: host loss begins orphan mode, and a fault of the core restarts the core alone. -/
theorem hostLossAndCoreFaultsAreActedOn : Obligations.HostLossAndCoreFaultsAreActedOn := by
  refine ⟨fun s harmed horphan hdue => ?lost, fun s h => ?notLost, fun s hrun hphase => ?core⟩
  case lost =>
    obtain ⟨u, heq, hpolicy, hmgc⟩ := beginOrphan_frame horphan
    have hgo : (s.mgc.armed && decide (s.mgc.beatBase + s.setting 0x2100 0x01 * 1000000 ≤ s.now)) = true := by
      rw [harmed, decide_eq_true hdue]
      rfl
    have hexec : exec .hostLossExpiry s = .next (alerted s u) := by
      simp only [exec, execHostLossExpiry, hgo, if_true, heq]
    have hstill := hostLoss_still hexec
    have hframe := heldQueues_frame { s with mgc := { s.mgc with
      armed := false
      orphan := true
      orphanAt := s.now
      halted := false
      orphanCount := satInc s.mgc.orphanCount } } 0 (fun q => Queue.touch { q with heldOrphan := true })
    obtain ⟨hmine, hstopped, hothers⟩ := heldQueues_queue (s := { s with mgc := { s.mgc with
      armed := false
      orphan := true
      orphanAt := s.now
      halted := false
      orphanCount := satInc s.mgc.orphanCount } }) (n := 0) (f := fun q => Queue.touch { q with heldOrphan := true })
      fun _ => ⟨rfl, rfl⟩
    have hmgc' : (alerted s u).mgc = u.mgc := by rw [alerted_eq]
    have hget (slot : Nat) : (alerted s u).queue slot = (orphaned s).queue slot := by
      unfold State.queue
      rw [alerted_queues, hpolicy]
    have horphaned : (orphaned s).mgc = { s.mgc with
      armed := false
      orphan := true
      orphanAt := s.now
      halted := false
      orphanCount := satInc s.mgc.orphanCount } := by
      unfold orphaned
      rw [hframe]
    rw [horphaned] at hmgc
    refine ⟨_, hexec, hstill, ?_, ?_, ?_, ?_, fun slot q hq hi hc => ?_, fun slot q hq hc => ?_, fun slot hno => ?_, ?_⟩
    · rw [hmgc', hmgc]
    · rw [hmgc', hmgc]
    · rw [hmgc', hmgc]
    · rw [hmgc', hmgc]
    · exact (hget slot).trans (hmine slot q hq hi hc)
    · exact (hget slot).trans (hstopped slot q hq hc)
    · exact (hget slot).trans (hothers slot hno)
    · rw [alerted_eq, hpolicy]
      unfold orphaned
      rw [hframe]
  case notLost =>
    have hno : (s.mgc.armed && decide (s.mgc.beatBase + s.setting 0x2100 0x01 * 1000000 ≤ s.now)) = false := by
      rcases h with h | h
      · rw [h]
        rfl
      · rw [decide_eq_false (Nat.not_le.2 h), Bool.and_false]
    simp only [exec, execHostLossExpiry, hno, Bool.false_eq_true, if_false]
  case core =>
    have hserving : s.serving = true := by rw [State.serving, hrun]; rfl
    intro restarted
    refine ⟨fun hl => ⟨_, ?_, coreRestarted hrun 2⟩, fun hl => ?_, fun hl sp hbad => ?_, fun sp hok => ?_, fun hl => ?_⟩
    · simp only [exec, execMgcWatchdog, hserving, if_true, actSource_core hphase hl]
    · simp only [exec, execMgcWatchdog, hserving, if_true, actSource_acts hphase (.inl hl)]
    · have hgo : (s.serving && !pushOk sp.toNat s.mgc.stkLo.toNat s.mgc.stkHi.toNat) = true := by rw [hserving, hbad]; rfl
      have hstart := coreRestarted (s := { s with mgc := { s.mgc with sp := sp, shadowBank := some (1, sp) } }) hrun 1
      have hact := actSource_core (s := { s with mgc := { s.mgc with sp := sp, shadowBank := some (1, sp) } }) (source := 14)
        hphase hl 1
      refine ⟨_, ?_, hstart, ?_⟩
      · simp only [exec, execStackingFault, hgo, if_true, hact]
      · exact ⟨congrArg Mgc.sp (restartCore_mgc _ 1), congrArg Mgc.shadowBank (restartCore_mgc _ 1)⟩
    · have hno : (s.serving && !pushOk sp.toNat s.mgc.stkLo.toNat s.mgc.stkHi.toNat) = false := by rw [hok]; exact Bool.and_false _
      simp only [exec, execStackingFault, hno, Bool.false_eq_true, if_false]
    · have hstart := coreRestarted (s := { s with mgc := { s.mgc with shadowBank := some (4, s.mgc.sp) } }) hrun 4
      have hact := actSource_core (s := { s with mgc := { s.mgc with shadowBank := some (4, s.mgc.sp) } }) (source := 14)
        hphase hl 4
      refine ⟨_, ?_, hstart, ?_⟩
      · simp only [exec, execCoreFault, hserving, if_true, hact]
      · exact congrArg Mgc.shadowBank (restartCore_mgc _ 4)

end Sys2Proof.Proofs
end

section
/-! PROOFS. O40: the starts of Topcoat. -/

namespace Sys2Proof.Proofs
open Sys2Proof Sys2Proof.Machine Sys2Proof.Safety Sys2Proof.Laws

-- What waited for Topcoat is taken up (15 R324, R329, R335) -----------------------------------------------------------------

/-- Only what Topcoat takes up at a start differs: instances, messages, the events held, answers of the service port, and the
pre-emptions that freezes ask. -/
def TakenUp (s t : State) : Prop :=
  t = { s with
    insts := t.insts
    link := t.link
    mgc := t.mgc
    parts := t.parts
    fep := { s.fep with service := t.fep.service } }
  ∧ t.mgc = { s.mgc with halted := t.mgc.halted, holdQueue := t.mgc.holdQueue, holdLost := t.mgc.holdLost }

theorem TakenUp.refl (s : State) : TakenUp s s := ⟨rfl, rfl⟩

theorem TakenUp.trans {a b c : State} (h : TakenUp a b) (k : TakenUp b c) : TakenUp a c := by
  obtain ⟨heq, hmgc⟩ := h
  obtain ⟨keq, kmgc⟩ := k
  exact ⟨by rw [keq, heq], by rw [kmgc, hmgc]⟩

theorem takenUp_foldl {α : Type} (g : State → α → State) (hg : ∀ t x, TakenUp t (g t x)) (l : List α) (s : State) :
    TakenUp s (l.foldl g s) := by
  induction l generalizing s with
  | nil => exact .refl s
  | cons x l ih => exact (hg s x).trans (ih _)

/-- The instances keep their states and generations. -/
def StatesKept (s t : State) : Prop := ∀ n, (t.inst n).state = (s.inst n).state ∧ (t.inst n).gen = (s.inst n).gen

theorem StatesKept.refl (s : State) : StatesKept s s := fun _ => ⟨rfl, rfl⟩

theorem StatesKept.trans {a b c : State} (h : StatesKept a b) (k : StatesKept b c) : StatesKept a c :=
  fun n => ⟨(k n).1.trans (h n).1, (k n).2.trans (h n).2⟩

theorem statesKept_foldl {α : Type} (g : State → α → State) (hg : ∀ t x, StatesKept t (g t x)) (l : List α) (s : State) :
    StatesKept s (l.foldl g s) := by
  induction l generalizing s with
  | nil => exact .refl s
  | cons x l ih => exact (hg s x).trans (ih _)

theorem statesKept_of_boxes {s t : State} (h : SameInsts s t) : StatesKept s t := fun n => by
  rw [h.eq n]
  exact ⟨rfl, rfl⟩

theorem statesKept_of_insts {s t : State} (h : t.insts = s.insts) : StatesKept s t := fun n => by
  unfold State.inst
  rw [h]
  exact ⟨rfl, rfl⟩

theorem statesKept_updInst (s : State) (n : Nat) {f : Inst → Inst} (hf : ∀ i, (f i).state = i.state ∧ (f i).gen = i.gen) :
    StatesKept s (s.updInst n f) := fun m => by
  by_cases h : m = n
  · subst h
    rw [updInst_inst_same]
    exact hf _
  · rw [updInst_inst_other _ _ h]
    exact ⟨rfl, rfl⟩

theorem takenUp_event (s : State) (code subject : Nat) (a b : Bool) (payload : List Byte) :
    TakenUp s (s.event code subject a b payload) := by
  have hmgc := event_mgc s code subject a b payload
  refine ⟨?_, ?_⟩
  · rw [(toldOnly_event ..).2]
  · rw [hmgc]

theorem takenUp_of_told {s t : State} (h : t = { s with insts := t.insts, link := t.link, mgc := t.mgc }) (hmgc : t.mgc = s.mgc) :
    TakenUp s t := by
  refine ⟨?_, ?_⟩
  · rw [h]
  · rw [hmgc]

theorem takenUp_deliver (s : State) (e : HeldEvent) : TakenUp s (s.deliver e) :=
  takenUp_of_told (by apply state_ext <;> simp) (deliver_mgc ..)

theorem takenUp_ringEvent (s : State) (n code subject time : Nat) (payload : List Byte) :
    TakenUp s (s.ringEvent n code subject time payload) :=
  takenUp_of_told (by apply state_ext <;> simp) (ringEvent_mgc ..)

theorem takenUp_reply (s : State) (mb : Nat) (h : MsgHdr) (st : Status) (out : List Byte) : TakenUp s (s.reply mb h st out) :=
  takenUp_of_told (spokenOnly_reply ..).1 (reply_mgc ..)

theorem releaseEvents_taken (s : State) : TakenUp s s.releaseEvents ∧ StatesKept s s.releaseEvents := by
  have hempty : TakenUp s { s with mgc := { s.mgc with holdQueue := [], holdLost := 0 } } := ⟨rfl, rfl⟩
  have hfold := takenUp_foldl State.deliver takenUp_deliver s.mgc.holdQueue { s with mgc := { s.mgc with holdQueue := [], holdLost := 0 } }
  have hkept := statesKept_foldl State.deliver (fun t e => statesKept_of_boxes (deliver_insts t e)) s.mgc.holdQueue
    { s with mgc := { s.mgc with holdQueue := [], holdLost := 0 } }
  unfold State.releaseEvents
  dsimp only
  split
  · exact ⟨hempty.trans hfold, hkept⟩
  · exact ⟨(hempty.trans hfold).trans (takenUp_ringEvent ..), hkept.trans (statesKept_of_boxes (ringEvent_insts ..))⟩

theorem applyEmu_keeps (i : Inst) : (applyEmu i).state = i.state ∧ (applyEmu i).gen = i.gen := by
  unfold applyEmu
  split <;> exact ⟨rfl, rfl⟩

/-- The emulated writes that waited, applied. -/
def emuApplied (s : State) : State :=
  (List.range 33).foldl (fun t n => (List.range 8).foldl (fun t _ => t.updInst n applyEmu) t) s

theorem emuApplied_taken (s : State) : TakenUp s (emuApplied s) ∧ StatesKept s (emuApplied s) := by
  have hone (t : State) (n : Nat) (l : List Nat) : TakenUp t (l.foldl (fun t _ => t.updInst n applyEmu) t)
      ∧ StatesKept t (l.foldl (fun t _ => t.updInst n applyEmu) t) :=
    ⟨takenUp_foldl (fun u (_ : Nat) => u.updInst n applyEmu) (fun _ _ => ⟨rfl, rfl⟩) l t,
     statesKept_foldl (fun u (_ : Nat) => u.updInst n applyEmu) (fun u _ => statesKept_updInst u n applyEmu_keeps) l t⟩
  unfold emuApplied
  exact ⟨takenUp_foldl _ (fun t n => (hone t n _).1) _ s, statesKept_foldl _ (fun t n => (hone t n _).2) _ s⟩

theorem completeOpen_taken (s : State) (n : Nat) : TakenUp s (s.completeOpen n) ∧ StatesKept s (s.completeOpen n) := by
  have hput (b : Mailbox) : TakenUp s ((s.updInst n (fun i => { i with box := b })).msix n 1)
      ∧ StatesKept s ((s.updInst n (fun i => { i with box := b })).msix n 1) := by
    refine ⟨takenUp_of_told (by apply state_ext <;> simp) (by simp), ?_⟩
    exact (statesKept_updInst s n (f := fun i => { i with box := b }) fun _ => ⟨rfl, rfl⟩).trans (statesKept_of_insts (by simp))
  unfold State.completeOpen
  dsimp only
  split
  · exact ⟨.refl s, .refl s⟩
  · exact hput _

theorem endFreeze_taken (s : State) (n : Nat) (st : Status) (out : List Byte) :
    TakenUp s (s.endFreeze n st out) ∧ StatesKept s (s.endFreeze n st out) := by
  unfold State.endFreeze
  split
  · exact ⟨.refl s, .refl s⟩
  · split
    · exact ⟨TakenUp.trans (b := s.updInst n (fun i => { i with freezeReq := none, freezeOut := none })) ⟨rfl, rfl⟩ (takenUp_reply ..),
        (statesKept_updInst s n (f := fun i => { i with freezeReq := none, freezeOut := none }) fun _ => ⟨rfl, rfl⟩).trans
          (statesKept_of_boxes (reply_insts ..))⟩
    · exact ⟨⟨rfl, rfl⟩, statesKept_updInst s n fun _ => ⟨rfl, rfl⟩⟩

theorem flushFreeze_taken (s : State) : TakenUp s s.flushFreeze ∧ StatesKept s s.flushFreeze := by
  refine ⟨takenUp_foldl _ (fun t n => ?_) _ s, statesKept_foldl _ (fun t n => ?_) _ s⟩
  · split
    · exact (endFreeze_taken ..).1
    · exact .refl t
  · split
    · exact (endFreeze_taken ..).2
    · exact .refl t

theorem flushService_taken (s : State) : TakenUp s s.flushService ∧ StatesKept s s.flushService := by
  unfold State.flushService
  split
  · refine ⟨TakenUp.trans (b := { s with fep := { s.fep with service := s.fep.service.filter (·.out.isNone) } }) ⟨rfl, rfl⟩
      (takenUp_foldl _ (fun t r => ?_) _ _), statesKept_foldl _ (fun t r => ?_) _ { s with fep := { s.fep with
        service := s.fep.service.filter (·.out.isNone) } }⟩
    · split
      · exact takenUp_reply ..
      · exact .refl t
    · split
      · exact statesKept_of_boxes (reply_insts ..)
      · exact .refl t
  · exact ⟨.refl s, .refl s⟩

theorem takenUp_of_policy {s t : State} (h : PolicyOnly s t) : TakenUp s t := by
  obtain ⟨heq, hmgc⟩ := h
  refine ⟨?_, hmgc⟩
  rw [heq]

theorem repeatFreezes_taken (s : State) : TakenUp s s.repeatFreezes ∧ (s.mgc.orphan = false → s.repeatFreezes = s) := by
  have hfold (l : List Nat) (h : s.mgc.orphan = false) : l.foldl (fun t n =>
      if t.mgc.orphan && (t.inst n).state == .active && (t.inst n).haltFreeze then t.startFreeze n 10000 none true else t) s = s := by
    induction l with
    | nil => rfl
    | cons n l ih =>
      rw [List.foldl_cons, h]
      exact ih
  refine ⟨takenUp_foldl _ (fun t n => ?_) _ s, fun h => hfold _ h⟩
  split
  · exact takenUp_of_policy (policyOnly_startFreeze ..)
  · exact .refl t

theorem publish_taken (s : State) (n : Nat) : TakenUp s (s.publish n) ∧ StatesKept s (s.publish n) :=
  ⟨⟨rfl, rfl⟩, statesKept_updInst s n fun _ => ⟨rfl, rfl⟩⟩

theorem takeUp_taken (s : State) : TakenUp s s.takeUp ∧ (s.mgc.orphan = false → StatesKept s s.takeUp) := by
  obtain ⟨h1, k1⟩ := releaseEvents_taken s
  obtain ⟨h2, k2⟩ := emuApplied_taken s.releaseEvents
  have h3 := takenUp_foldl State.completeOpen (fun t n => (completeOpen_taken t n).1) (List.range 33) (emuApplied s.releaseEvents)
  have k3 := statesKept_foldl State.completeOpen (fun t n => (completeOpen_taken t n).2) (List.range 33) (emuApplied s.releaseEvents)
  obtain ⟨h4, k4⟩ := flushFreeze_taken ((List.range 33).foldl State.completeOpen (emuApplied s.releaseEvents))
  obtain ⟨h5, k5⟩ := flushService_taken ((List.range 33).foldl State.completeOpen (emuApplied s.releaseEvents)).flushFreeze
  have h := (((h1.trans h2).trans h3).trans h4).trans h5
  have k := (((k1.trans k2).trans k3).trans k4).trans k5
  have heq : s.takeUp = (List.range 33).foldl State.publish
      (if ((List.range 33).foldl State.completeOpen (emuApplied s.releaseEvents)).flushFreeze.flushService.mgc.orphan
          && decide (((List.range 33).foldl State.completeOpen (emuApplied s.releaseEvents)).flushFreeze.flushService.mgc.restartAt
            ≤ ((List.range 33).foldl State.completeOpen (emuApplied s.releaseEvents)).flushFreeze.flushService.mgc.orphanAt)
        then ((List.range 33).foldl State.completeOpen (emuApplied s.releaseEvents)).flushFreeze.flushService.applyPolicy
        else ((List.range 33).foldl State.completeOpen (emuApplied s.releaseEvents)).flushFreeze.flushService).repeatFreezes := by
    unfold State.takeUp emuApplied
    dsimp only
  rw [heq]
  generalize ((List.range 33).foldl State.completeOpen (emuApplied s.releaseEvents)).flushFreeze.flushService = u at *
  have hpublish (v : State) := takenUp_foldl State.publish (fun t n => (publish_taken t n).1) (List.range 33) v
  have kpublish (v : State) := statesKept_foldl State.publish (fun t n => (publish_taken t n).2) (List.range 33) v
  refine ⟨?_, fun horphan => ?_⟩
  · refine (h.trans ?_).trans (hpublish _)
    refine TakenUp.trans ?_ (repeatFreezes_taken _).1
    split
    · exact takenUp_of_policy (policyOnly_applyPolicy u)
    · exact .refl u
  · have hu : u.mgc.orphan = false := by
      rw [h.2]
      exact horphan
    rw [hu, Bool.false_and, if_neg Bool.false_ne_true, (repeatFreezes_taken u).2 hu]
    exact k.trans (kpublish u)

-- The starts (15 R320, R331) ----------------------------------------------------------------------------------------------

theorem verifyDone_still {s t : State} (h : exec .fwVerifyDone s = .next t) : Still s t :=
  still_of_view (view_execFwVerifyDone s h)

theorem primerStack_frame (s : State) : s.primerStack = { s with
    freeCount := s.primerStack.freeCount
    mgc := { s.mgc with
      stkLo := s.primerStack.mgc.stkLo
      stkHi := s.primerStack.mgc.stkHi
      sp := s.primerStack.mgc.sp } } := rfl

theorem bootEvents_frame (s : State) : s.bootEvents = { s with
      insts := s.bootEvents.insts
      link := s.bootEvents.link
      mgc := s.bootEvents.mgc
      cal := s.bootEvents.cal }
    ∧ SameMgc s.mgc s.bootEvents.mgc ∧ StatesKept s s.bootEvents := by
  have hevent (c : Prop) [Decidable c] (u : State) (code : Nat) (bs : List Byte) :
      SpokenOnly u (if c then u.event code 0 false true bs else u)
      ∧ StatesKept u (if c then u.event code 0 false true bs else u) := by
    split
    · exact ⟨⟨(toldOnly_event ..).2, event_mgc ..⟩, statesKept_of_boxes (event_insts ..)⟩
    · exact ⟨.refl u, .refl u⟩
  obtain ⟨h1, k1⟩ := hevent (s.cal.reason = 1) s Ev.keepStoreError (leBytes 1 7 ++ leBytes 3 ksCal)
  unfold State.bootEvents
  generalize (if s.cal.reason = 1 then s.event Ev.keepStoreError 0 false true (leBytes 1 7 ++ leBytes 3 ksCal) else s) = u at *
  obtain ⟨h2, k2⟩ := hevent (u.cal.reason ≠ 0) u Ev.calInvalid (leBytes 1 u.cal.reason)
  dsimp only
  generalize (if u.cal.reason ≠ 0 then u.event Ev.calInvalid 0 false true (leBytes 1 u.cal.reason) else u) = v at *
  obtain ⟨heq, hmgc⟩ := h1.trans h2
  have hkept := k1.trans k2
  split
  next bad now_ reason _ =>
    have htold := (toldOnly_event { v with cal := { v.cal with reverted := none } } Ev.patchReverted 0 false true
      (leBytes 1 bad ++ leBytes 1 now_ ++ leBytes 1 reason)).2
    have hsame := event_mgc { v with cal := { v.cal with reverted := none } } Ev.patchReverted 0 false true
      (leBytes 1 bad ++ leBytes 1 now_ ++ leBytes 1 reason)
    have hbox := statesKept_of_boxes (event_insts { v with cal := { v.cal with reverted := none } } Ev.patchReverted 0 false true
      (leBytes 1 bad ++ leBytes 1 now_ ++ leBytes 1 reason))
    refine ⟨?_, SameMgc.trans hmgc hsame, hkept.trans hbox⟩
    rw [htold]
    dsimp only
    rw [heq]
  next =>
    refine ⟨?_, hmgc, hkept⟩
    rw [heq]

/-- The first start after a reset: Topcoat runs, with nothing attached and no orphan mode. -/
def firstStarted (s : State) : State :=
  { s with
    mgc := { s.mgc with
      fw := .running
      started := true
      mgrGen := 1
      attached := false
      orphan := false
      armed := false
      loadResult := 1 }
    pins := { s.pins with devReady := true } }

theorem coldStart_frame (s : State) : s.coldStart.mgc.fw = .running ∧ s.coldStart.mgc.started = true
    ∧ s.coldStart.mgc.mgrGen = 1 ∧ s.coldStart.mgc.attached = false ∧ s.coldStart.mgc.orphan = false
    ∧ s.coldStart.mgc.digest = s.mgc.digest ∧ s.coldStart.mgc.loadResult = 1 ∧ s.coldStart.pins.devReady = true
    ∧ (s.coldStart.inst 0).state = .active
    ∧ (s.coldStart.inst 0).gen = (if (s.inst 0).gen = 0xFFFF then 1 else (s.inst 0).gen + 1)
    ∧ s.coldStart.queues = s.queues ∧ s.coldStart.cmds = s.cmds := by
  have heq : s.coldStart = ((((((firstStarted s).updInst 0 (fun i => { i with limits := (firstStarted s).dictLimits 0 })).advanceGen 0).setIState
    0 .active 0).takeUp).primerStack).bootEvents := by
    unfold State.coldStart firstStarted
    dsimp only
  rw [heq]
  generalize hu : (((firstStarted s).updInst 0 (fun i => { i with limits := (firstStarted s).dictLimits 0 })).advanceGen 0) = u
  have huframe : u = { firstStarted s with insts := u.insts } := by rw [← hu]; rfl
  have hugen : (u.inst 0).gen = (if (s.inst 0).gen = 0xFFFF then 1 else (s.inst 0).gen + 1) := by
    rw [← hu, State.advanceGen, updInst_inst_same, updInst_inst_same]
    rfl
  obtain ⟨hset, hsetMgc⟩ := spokenOnly_setIState u 0 .active 0
  have hactive := (setIState_frame u 0 .active 0).2.2
  generalize u.setIState 0 .active 0 = v at *
  obtain ⟨htaken, hstates⟩ := takeUp_taken v
  have horphan : v.mgc.orphan = false := by
    rw [hsetMgc, huframe]
    rfl
  have hkept := hstates horphan
  generalize v.takeUp = w at *
  obtain ⟨hboot, hbootMgc, hbootKept⟩ := bootEvents_frame w.primerStack
  have hstack : StatesKept w w.primerStack := statesKept_of_insts (by rw [primerStack_frame])
  have hall := (hkept.trans hstack).trans hbootKept
  have hmgc : w.primerStack.bootEvents.mgc = { (firstStarted s).mgc with
      stkLo := w.primerStack.bootEvents.mgc.stkLo
      stkHi := w.primerStack.bootEvents.mgc.stkHi
      sp := w.primerStack.bootEvents.mgc.sp
      halted := w.primerStack.bootEvents.mgc.halted
      holdQueue := w.primerStack.bootEvents.mgc.holdQueue
      holdLost := w.primerStack.bootEvents.mgc.holdLost } := by
    rw [hbootMgc]
    rw [primerStack_frame]
    dsimp only
    rw [htaken.2, hsetMgc, huframe]
  refine ⟨?_, ?_, ?_, ?_, ?_, ?_, ?_, ?_, ?_, ?_, ?_, ?_⟩
  case refine_8 =>
    rw [hboot]
    rw [primerStack_frame]
    dsimp only
    rw [htaken.1, hset, huframe]
    rfl
  case refine_9 => rw [(hall 0).1, hactive]
  case refine_10 =>
    rw [(hall 0).2, hactive]
    exact hugen
  case refine_11 =>
    rw [hboot]
    rw [primerStack_frame]
    dsimp only
    rw [htaken.1, hset, huframe]
    rfl
  case refine_12 =>
    rw [hboot]
    rw [primerStack_frame]
    dsimp only
    rw [htaken.1, hset, huframe]
    rfl
  all_goals
    rw [hmgc]
    rfl

theorem restartEvent_frame (s : State) : s.restartEvent = { s with
      insts := s.restartEvent.insts
      link := s.restartEvent.link
      mgc := s.restartEvent.mgc } ∧ SameMgc s.mgc s.restartEvent.mgc := by
  have hevent (u : State) (code n : Nat) (a b : Bool) (bs : List Byte) : SpokenOnly u (u.event code n a b bs) :=
    ⟨(toldOnly_event ..).2, event_mgc ..⟩
  have hfold (l : List Nat) (bs : List Byte) (u : State) :
      SpokenOnly u (l.foldl (fun t n => t.event Ev.mgcRestart n true false bs) u) := by
    induction l generalizing u with
    | nil => exact .refl u
    | cons n l ih => exact (hevent ..).trans (ih _)
  unfold State.restartEvent
  exact (hevent ..).trans (hfold ..)

/-- What a restart of the core leaves of the rest: the work and the pins. -/
theorem restartCore_keeps (s : State) (cause : Nat) : (s.restartCore cause).queues = s.queues
    ∧ (s.restartCore cause).cmds = s.cmds ∧ (s.restartCore cause).pins = s.pins
    ∧ (s.restartCore cause).mgc.lastCause = BitVec.ofNat 4 cause ∧ (s.restartCore cause).mgc.restarts = satInc s.mgc.restarts := by
  have hsame := (stopVerify_frame ((coreLinked (coreCounted s cause)).latchAlert alertRestarted)).2
  have hkeeps := stopVerify_keeps ((coreLinked (coreCounted s cause)).latchAlert alertRestarted)
  have hmgc := (coreLinked_frame (coreCounted s cause)).1
  have hlinked := coreLinked_keeps (coreCounted s cause)
  rw [restartCore_eq, alerted_eq]
  refine ⟨?_, ?_, ?_, ?_, ?_⟩
  case refine_4 =>
    dsimp only
    rw [hsame]
    dsimp only [State.latchAlert]
    rw [hmgc]
    rfl
  case refine_5 =>
    dsimp only
    rw [hsame]
    dsimp only [State.latchAlert]
    rw [hmgc]
    rfl
  all_goals
    dsimp only
    rw [hkeeps]
    dsimp only [State.latchAlert]
    rw [hlinked]
    rfl

theorem reload_frame (s : State) : s.reload.mgc.fw = .running ∧ s.reload.mgc.lastCause = 6
    ∧ s.reload.mgc.restarts = satInc s.mgc.restarts ∧ s.reload.mgc.digest = s.mgc.digest ∧ s.reload.pins.devReady = true
    ∧ s.reload.queues = s.queues ∧ s.reload.cmds = s.cmds := by
  obtain ⟨hqueues, hcmds, -, hcause, hrestarts⟩ := restartCore_keeps s 6
  have hdigest : (s.restartCore 6).mgc.digest = s.mgc.digest := by rw [restartCore_mgc]
  unfold State.reload
  dsimp only
  generalize s.restartCore 6 = u at *
  generalize hv : ({ u with mgc := { u.mgc with fw := .running, loadResult := 1, restartAt := s.mgc.restartAt }
                            pins := { u.pins with devReady := true } } : State) = v
  obtain ⟨htaken, htmgc⟩ := (takeUp_taken v).1
  generalize v.takeUp = w at *
  obtain ⟨hevent, hemgc⟩ := restartEvent_frame (State.primerStack { w with mgc := { w.mgc with restartAt := s.now } })
  rw [hevent]
  dsimp only
  rw [hemgc]
  rw [primerStack_frame]
  dsimp only
  rw [htmgc, htaken, ← hv]
  exact ⟨rfl, hcause, hrestarts, hdigest, rfl, hqueues, hcmds⟩

theorem serveHeld_none {s : State} (h : s.bus.held = []) : s.serveHeld = s := by
  unfold State.serveHeld
  rw [h, List.foldl_nil, ← h]

theorem restarted_frame {s : State} (h : s.bus.held = []) : s.restarted.mgc.fw = .running ∧ s.restarted.mem = s.mem
    ∧ s.restarted.queues = s.queues ∧ s.restarted.cmds = s.cmds ∧ s.restarted.pending = s.pending := by
  unfold State.restarted
  dsimp only
  generalize hu : (State.shiftSessions { s with mgc := { s.mgc with fw := .running } } (s.now - s.mgc.restartAt)).refreshMirror = u
  have hframe : u = { s with mgc := { s.mgc with fw := .running }, bus := u.bus, dict := u.dict } := by rw [← hu]; rfl
  have hheld : u.bus.held = [] := by rw [← hu]; exact h
  rw [serveHeld_none hheld]
  obtain ⟨htaken, htmgc⟩ := (takeUp_taken u).1
  generalize u.takeUp = w at *
  obtain ⟨hevent, hemgc⟩ := restartEvent_frame w.primerStack
  rw [hevent]
  dsimp only
  rw [hemgc]
  rw [primerStack_frame]
  dsimp only
  rw [htmgc, htaken, hframe]
  exact ⟨rfl, rfl, rfl, rfl, rfl⟩

/-- A state whose image passed its checks: the digest and the interface revision are the image's. -/
def verified (s : State) : State :=
  { s with mgc := { s.mgc with digest := s.sramDigest, ifRev := BitVec.ofNat 16 (field s.image 4 2) } }

theorem verified_frame (s : State) : (∀ n, (verified s).inst n = s.inst n) ∧ (verified s).queues = s.queues
    ∧ (verified s).cmds = s.cmds ∧ (verified s).mgc.digest = s.sramDigest ∧ (verified s).mgc.restarts = s.mgc.restarts := by
  dsimp only [verified, State.inst]
  exact ⟨fun _ => rfl, rfl, rfl, rfl, rfl⟩

theorem alerted_core (s t : State) : (alerted s t).mgc = t.mgc ∧ (alerted s t).pins = t.pins ∧ (alerted s t).inst = t.inst := by
  rw [alerted_eq]
  exact ⟨rfl, rfl, rfl⟩

/-- Settles O40: a verified image starts Topcoat, cold or again, and the end of a restart starts it unless it must be loaded. -/
theorem topcoatStartsAfterItsChecks : Obligations.TopcoatStartsAfterItsChecks := by
  refine ⟨fun s hverify => ⟨fun hfault => ?fault, fun hgood hfirst => ?cold, fun hgood hagain => ?reload⟩, fun s hno => ?idle,
    fun s hrestarting hheld => ⟨fun hdigest hthird => ?restart, fun hload => ?load⟩, fun s hno => ?none_⟩
  case fault =>
    have hno : (s.mgc.fw != .verify) = false := by rw [hverify]; rfl
    simp only [exec, execFwVerifyDone, hno, Bool.false_eq_true, if_false]
    exact congrArg _ (if_pos hfault)
  case cold =>
    have hno : (s.mgc.fw != .verify) = false := by rw [hverify]; rfl
    have hexec : exec .fwVerifyDone s = .next (alerted s (verified s).coldStart) := by
      refine congrArg _ ((if_neg (by rw [hno]; exact Bool.false_ne_true)).trans ((if_neg (not_not.2 hgood)).trans ?_))
      dsimp only [verified]
      rw [hfirst, if_neg Bool.false_ne_true]
    obtain ⟨vinst, vqueues, vcmds, vdigest, -⟩ := verified_frame s
    obtain ⟨hfw, hstarted, hgen, hattached, horphan, hdigest, hresult, hready, hstate, hinst, hqueues, hcmds⟩ :=
      coldStart_frame (verified s)
    obtain ⟨hmgc, hpins, hinsts⟩ := alerted_core s (verified s).coldStart
    have hcmdsAlerted : (alerted s (verified s).coldStart).cmds = (verified s).coldStart.cmds := by rw [alerted_eq]
    rw [vinst] at hinst
    rw [vqueues] at hqueues
    rw [vcmds] at hcmds
    rw [vdigest] at hdigest
    refine ⟨_, hexec, verifyDone_still hexec, ?_, ?_, ?_, ?_, ?_, ?_, ?_, ?_, ?_, ?_, ?_, ?_⟩
    · rw [hmgc, hfw]
    · rw [hmgc, hstarted]
    · rw [hmgc, hgen]
    · rw [hmgc, hattached]
    · rw [hmgc, horphan]
    · rw [hmgc, hdigest]
    · rw [hmgc, hresult]
    · rw [hpins, hready]
    · rw [hinsts, hstate]
    · rw [hinsts, hinst]
    · rw [alerted_queues, hqueues]
    · rw [hcmdsAlerted, hcmds]
  case reload =>
    have hno : (s.mgc.fw != .verify) = false := by rw [hverify]; rfl
    have hexec : exec .fwVerifyDone s = .next (alerted s (verified s).reload) := by
      refine congrArg _ ((if_neg (by rw [hno]; exact Bool.false_ne_true)).trans ((if_neg (not_not.2 hgood)).trans ?_))
      dsimp only [verified]
      rw [hagain, if_pos rfl]
    obtain ⟨-, vqueues, vcmds, vdigest, vrestarts⟩ := verified_frame s
    obtain ⟨hfw, hcause, hrestarts, hdigest, hready, hqueues, hcmds⟩ := reload_frame (verified s)
    obtain ⟨hmgc, hpins, -⟩ := alerted_core s (verified s).reload
    have hcmdsAlerted : (alerted s (verified s).reload).cmds = (verified s).reload.cmds := by rw [alerted_eq]
    rw [vqueues] at hqueues
    rw [vcmds] at hcmds
    rw [vdigest] at hdigest
    rw [vrestarts] at hrestarts
    refine ⟨_, hexec, verifyDone_still hexec, ?_, ?_, ?_, ?_, ?_, ?_, ?_⟩
    · rw [hmgc, hfw]
    · rw [hmgc, hcause]
    · rw [hmgc, hrestarts]
    · rw [hmgc, hdigest]
    · rw [hpins, hready]
    · rw [alerted_queues, hqueues]
    · rw [hcmdsAlerted, hcmds]
  case idle =>
    have hstop : (s.mgc.fw != .verify) = true := bne_iff_ne.2 hno
    simp only [exec, execFwVerifyDone, hstop, if_true]
  case restart =>
    have hno : (s.mgc.fw != .restarting) = false := by rw [hrestarting]; rfl
    have hgo : (s.mgc.digest != s.sramDigest || s.thirdRestart) = false := by
      rw [← hdigest, hthird, bne_self_eq_false]
      rfl
    refine ⟨s.restarted, ?_, restarted_frame hheld⟩
    simp only [exec, execMgcRestartComplete, hno, hgo, Bool.false_eq_true, if_false]
  case load =>
    have hno : (s.mgc.fw != .restarting) = false := by rw [hrestarting]; rfl
    have hstop : (s.mgc.digest != s.sramDigest || s.thirdRestart) = true := by
      rw [Bool.or_eq_true, bne_iff_ne]
      exact hload
    refine ⟨s.waitForLoad, ?_, ?_⟩
    · simp only [exec, execMgcRestartComplete, hno, hstop, Bool.false_eq_true, if_false, if_true]
    · have hwait : s.waitForLoad = { s with mgc := { s.mgc with fw := .loadWait }, pins := { s.pins with devReady := false } } :=
        serveHeld_none hheld
      rw [hwait]
      exact ⟨rfl, rfl, rfl, rfl, rfl⟩
  case none_ =>
    have hstop : (s.mgc.fw != .restarting) = true := bne_iff_ne.2 hno
    simp only [exec, execMgcRestartComplete, hstop, if_true]

end Sys2Proof.Proofs
end

section
/-! PROOFS. The mailbox messages (11 R243 to R246), and O41. -/

namespace Sys2Proof.Proofs
open Sys2Proof Sys2Proof.Machine Sys2Proof.Safety Sys2Proof.Laws

-- Taking a request and writing a reply (11 R245) --------------------------------------------------------------------------

theorem takeRequest_inst_self (s : State) (mb : Nat) (h : MsgHdr) : (s.takeRequest mb h).inst mb = { s.inst mb with
    box := { (s.inst mb).box with
      inCons := ((s.inst mb).box.inCons + takenCells (s.inst mb).box.format h) % inCells (s.inst mb).box.format } } :=
  updInst_inst_same ..

theorem takeRequest_inst_other (s : State) {mb n : Nat} (h : MsgHdr) (hn : n ≠ mb) : (s.takeRequest mb h).inst n = s.inst n :=
  updInst_inst_other _ _ hn

/-- A taken request leaves everything of an instance but its mailbox. -/
theorem takeRequest_inst (s : State) (mb : Nat) (h : MsgHdr) (n : Nat) :
    (s.takeRequest mb h).inst n = { s.inst n with box := ((s.takeRequest mb h).inst n).box } := by
  by_cases hn : n = mb
  · subst hn
    rw [takeRequest_inst_self]
  · rw [takeRequest_inst_other _ _ hn]

@[simp] theorem takeRequest_state (s : State) (mb : Nat) (h : MsgHdr) (n : Nat) :
    ((s.takeRequest mb h).inst n).state = (s.inst n).state := by rw [takeRequest_inst]

@[simp] theorem takeRequest_graph (s : State) (mb : Nat) (h : MsgHdr) (n g : Nat) :
    (s.takeRequest mb h).graph n g = s.graph n g := by
  unfold State.graph
  rw [takeRequest_inst]

@[simp] theorem takeRequest_freezes (s : State) (mb : Nat) (h : MsgHdr) (n : Nat) :
    (s.takeRequest mb h).freezes n = s.freezes n := by
  unfold State.freezes
  rw [takeRequest_state]

theorem putCells_frame (b : Mailbox) (bs : List Byte) (n : Nat) :
    b.putCells bs n = { b with outPage := (b.putCells bs n).outPage, outProd := (b.putCells bs n).outProd } := by
  induction n generalizing b bs with
  | zero => rfl
  | succ n ih =>
    unfold Mailbox.putCells
    dsimp only
    rw [ih]

theorem reply_frame (s : State) (mb : Nat) (h : MsgHdr) (st : Status) (out : List Byte) :
    s.reply mb h st out = { s with
      insts := (s.reply mb h st out).insts
      link := { s.link with funcs := (s.reply mb h st out).link.funcs, posted := (s.reply mb h st out).link.posted } }
    ∧ (∀ n, n ≠ mb → (s.reply mb h st out).inst n = s.inst n)
    ∧ (s.reply mb h st out).inst mb = { s.inst mb with box := { (s.inst mb).box with
        outPage := ((s.reply mb h st out).inst mb).box.outPage, outProd := ((s.reply mb h st out).inst mb).box.outProd } }
    ∧ (s.msixOpen mb 1 = true → (s.reply mb h st out).link.posted = s.link.posted ++
        [.msix mb 1 (s.vector mb 1).addr (s.vector mb 1).data])
    ∧ (s.msixOpen mb 1 = false → (s.reply mb h st out).link.posted = s.link.posted
        ∧ ((s.reply mb h st out).vector mb 1).pending = true) := by
  unfold State.reply
  dsimp only
  generalize hbox : (fun i : Inst => _) = f
  have hf (i : Inst) : ∃ bs n, f i = { i with box := i.box.putCells bs n } := by
    rw [← hbox]
    exact ⟨_, _, rfl⟩
  obtain ⟨hframe, hopen, hclosed⟩ := msix_frame (s.updInst mb f) mb 1
  have hinst (n : Nat) : ((s.updInst mb f).msix mb 1).inst n = (s.updInst mb f).inst n := msix_inst ..
  refine ⟨?_, fun n hn => ?_, ?_, fun h1 => (hopen h1).2, fun h0 => ⟨(hclosed h0).2, (hclosed h0).1⟩⟩
  · rw [hframe]
    rfl
  · rw [hinst, updInst_inst_other _ _ hn]
  · obtain ⟨bs, n, hfi⟩ := hf (s.inst mb)
    rw [hinst, updInst_inst_same, hfi]
    dsimp only
    rw [← putCells_frame]

-- One message (11 R245) -----------------------------------------------------------------------------------------------------

section
variable {s t : State} {mb : Nat} {h : MsgHdr} {p out : List Byte} {k : MsgKind} {body : Body} {st : Status}

/-- A message that Topcoat does not take yet does nothing. -/
theorem message_stays (htakes : s.takesRequest mb h = false) : s.message mb h p k body = s := by
  simp only [State.message, htakes, Bool.not_false, Bool.or_true, if_true]

/-- A message that fails a check of R245 is answered with that check's status. -/
theorem message_faults (hmsg : h.msg = k.code) (htakes : s.takesRequest mb h = true)
    (hfault : msgFault k mb (s.inst mb).box.format h p = some st) :
    s.message mb h p k body = (s.takeRequest mb h).reply mb h st [] := by
  simp only [State.message, hmsg, htakes, hfault, ne_eq, not_true_eq_false, decide_false, Bool.not_true, Bool.or_self,
    Bool.false_eq_true, if_false]

/-- A message that passes is answered with what its body answers. -/
theorem message_replies (hacc : Sys2Proof.Safety.Accepted s mb h p k) (hbody : body (s.takeRequest mb h) (carried s mb h p k) = (t, some (st, out))) :
    s.message mb h p k body = t.reply mb h st out := by
  obtain ⟨hmsg, htakes, hfault⟩ := hacc
  unfold carried at hbody
  simp only [State.message, hmsg, htakes, hfault, hbody, ne_eq, not_true_eq_false, decide_false, Bool.not_true, Bool.or_self,
    Bool.false_eq_true, if_false]

/-- A message whose body answers nothing leaves what the body leaves. -/
theorem message_silent (hacc : Sys2Proof.Safety.Accepted s mb h p k) (hbody : body (s.takeRequest mb h) (carried s mb h p k) = (t, none)) :
    s.message mb h p k body = t := by
  obtain ⟨hmsg, htakes, hfault⟩ := hacc
  unfold carried at hbody
  simp only [State.message, hmsg, htakes, hfault, hbody, ne_eq, not_true_eq_false, decide_false, Bool.not_true, Bool.or_self,
    Bool.false_eq_true, if_false]

theorem viaPort_open {host : List Byte} (hopen : s.portOpen = true) :
    s.viaPort mb h p host k body = s.message mb h p k (fun t b => body (t.rung true) b) := by
  simp only [State.viaPort, hopen, if_true]

/-- A message that passes and is executed at once at the service port is answered with what its body answers. -/
theorem port_replies {host : List Byte} (hport : AtPort s mb h p k)
    (hbody : body (asked s mb h) (carried s mb h p k) = (t, some (st, out))) :
    s.viaPort mb h p host k body = t.reply mb h st out :=
  (viaPort_open hport.2).trans (message_replies hport.1 hbody)

/-- A message that waits in the service port's ring, or finds it full. -/
theorem viaPort_waits {host : List Byte} (hopen : s.portOpen = false) :
    (64 ≤ s.fep.service.length → s.viaPort mb h p host k body = s)
    ∧ (s.fep.service.length < 64 → Sys2Proof.Safety.Accepted s mb h p k →
      s.viaPort mb h p host k body = (s.takeRequest mb h).appendService
        { code := k.code, mb := mb, hdr := h, payload := carried s mb h p k, host := host }) := by
  refine ⟨fun hfull => ?_, fun hroom hacc => ?_⟩
  · simp only [State.viaPort, hopen, hfull, Bool.false_eq_true, if_false, if_true]
  · have hroom' : ¬ 64 ≤ s.fep.service.length := Nat.not_le.2 hroom
    simp only [State.viaPort, hopen, hroom', Bool.false_eq_true, if_false]
    exact message_silent hacc rfl

end

theorem phase_of_portOpen {s : State} (h : s.portOpen = true) : s.fepRuns = true ∧ s.rst.phase = .none := by
  simp only [State.portOpen, Bool.and_eq_true] at h
  obtain ⟨hruns, -⟩ := h
  refine ⟨hruns, ?_⟩
  simp only [State.fepRuns, Bool.and_eq_true, beq_iff_eq] at hruns
  exact hruns.1.2

-- Every message of the catalogue (11 R245, R246) ----------------------------------------------------------------------------

/-- A command that is a message runs its body by the one rule of R245, at the service port where it needs the FEP. -/
theorem exec_message {c : Instr} {s : State} {k : MsgKind} {mb : Fin 33} {h : MsgHdr} {p : List Byte}
    (hc : messageOf c = some (k, mb, h, p)) (hopen : s.portOpen = true)
    (hread : ∀ host blob, c = .restore mb h p host blob → s.readDva 0 (field p 0 8) (field p 8 8) host ≠ .short) :
    ∃ body, exec c s = .next (s.message mb.val h p k body) := by
  obtain ⟨hruns, hphase⟩ := phase_of_portOpen hopen
  have hidle : ¬ ((s.rst.phase != .none) = true) := by rw [hphase]; decide
  have hready : ¬ ((!s.fepRuns) = true) := by rw [hruns]; decide
  have hshort (host : List Byte) (blob : Blob) (hrestore : c = .restore mb h p host blob) :
      ¬ ((!s.fepRuns || s.readDva 0 (field p 0 8) (field p 8 8) host == .short) = true) := by
    have hno : (s.readDva 0 (field p 0 8) (field p 8 8) host == .short) = false := beq_false_of_ne (hread host blob hrestore)
    rw [hruns, hno]
    decide
  unfold messageOf at hc
  split at hc
  case h_2 | h_3 | h_4 | h_5 | h_8 | h_9 | h_19 | h_20 =>
    cases hc
    exact ⟨_, congrArg _ (viaPort_open hopen)⟩
  case h_14 | h_16 =>
    cases hc
    exact ⟨_, congrArg _ (if_neg hidle)⟩
  case h_22 | h_24 =>
    cases hc
    exact ⟨_, congrArg _ (if_neg hready)⟩
  case h_23 =>
    cases hc
    exact ⟨_, congrArg _ (if_neg (hshort _ _ rfl))⟩
  case h_27 => cases hc
  all_goals
    cases hc
    exact ⟨_, rfl⟩

/-- Settles O41: a request is taken, checked and answered by one rule, which every message of the catalogue follows. -/
theorem requestsAreTakenCheckedAndAnswered : Obligations.RequestsAreTakenCheckedAndAnswered := by
  refine ⟨fun s mb h => ?take, fun s mb h st out => ?reply, fun s mb h p hno => ?undefined_,
    fun c s k mb h p hc hmsg hopen hread => ?all_, fun s mb h p host hmsg hopen hshort => ?register,
    fun c s k mb h p hck hclosed => ?wait, fun k mb fmt h p hk => ?checks, fun s mb h p => ?ask⟩
  case take => exact ⟨rfl, fun n hn => takeRequest_inst_other s h hn, takeRequest_inst_self s mb h⟩
  case reply => exact reply_frame s mb h st out
  case undefined_ =>
    have hnone : catalogue.any (fun k => k.code == h.msg) = false :=
      List.any_eq_false.2 fun k hk => by rw [beq_iff_eq]; exact hno k hk
    refine ⟨fun htakes => congrArg _ (if_neg ?_), fun htakes => congrArg _ (if_pos ?_)⟩
    · rw [hnone, htakes]
      decide
    · rw [hnone, htakes]
      rfl
  case all_ =>
    obtain ⟨body, hexec⟩ := exec_message hc hopen hread
    exact ⟨fun htakes => hexec.trans (congrArg _ (message_stays htakes)),
      fun st htakes hfault => hexec.trans (congrArg _ (message_faults hmsg htakes hfault))⟩
  case register =>
    have hexec : exec (.graphRegister mb h p host) s = .next (s.message mb.val h p kGraphRegister
        (fun t b => graphRegisterBody mb.val host (t.rung true) b)) :=
      congrArg _ ((if_neg (by rw [hshort]; exact Bool.false_ne_true)).trans (viaPort_open hopen))
    exact ⟨fun htakes => hexec.trans (congrArg _ (message_stays htakes)),
      fun st htakes hfault => hexec.trans (congrArg _ (message_faults hmsg htakes hfault))⟩
  case wait =>
    have hexec : ∃ body, exec c s = .next (s.viaPort mb.val h p [] k body) := by
      simp only [List.mem_cons, Prod.mk.injEq, List.not_mem_nil, or_false] at hck
      rcases hck with ⟨rfl, rfl⟩ | ⟨rfl, rfl⟩ | ⟨rfl, rfl⟩ | ⟨rfl, rfl⟩ | ⟨rfl, rfl⟩ | ⟨rfl, rfl⟩ | ⟨rfl, rfl⟩ | ⟨rfl, rfl⟩ <;>
        exact ⟨_, rfl⟩
    obtain ⟨body, hexec⟩ := hexec
    obtain ⟨hfull, hroom⟩ := viaPort_waits (s := s) (mb := mb.val) (h := h) (p := p) (k := k) (body := body) (host := []) hclosed
    refine ⟨fun h64 => hexec.trans (congrArg _ (hfull h64)), fun h64 hacc => ?_⟩
    exact hexec.trans (congrArg _ (hroom h64 hacc))
  case checks =>
    refine ⟨fun hlow => ?_, fun hmin hmgr hmb => ?_⟩
    · simp only [msgFault, hlow, if_true]
    · simp only [msgFault, Nat.not_lt.2 hmin, hmgr, hmb, if_false, ne_eq, not_false_eq_true, decide_true, Bool.and_self, if_true]
  case ask =>
    intro u
    refine ⟨fun hacc => ?nop, fun hacc => ?graph, fun hacc => ?contract, fun hacc => ?info⟩
    case nop => exact congrArg _ (message_replies hacc rfl)
    case graph =>
      intro id
      refine ⟨fun g v hg hv => congrArg _ (message_replies hacc ?_), fun hnone => congrArg _ (message_replies hacc ?_)⟩
      · have hcurrent : u.currentGraph mb.val (carried s mb.val h p kGraphQuery) = some (id, g, v) := by
          unfold State.currentGraph
          rw [takeRequest_graph, hg, Option.bind_some, hv]
          rfl
        simp only [hcurrent, u]
        rfl
      · have hcurrent : u.currentGraph mb.val (carried s mb.val h p kGraphQuery) = none := by
          unfold State.currentGraph
          rw [takeRequest_graph]
          cases hg : s.graph mb.val id with
          | none => rfl
          | some g => rw [Option.bind_some, hnone g hg]; rfl
        simp only [hcurrent, u]
        rfl
    case contract =>
      intro id
      refine ⟨fun k hk hinst hstate => congrArg _ (message_replies hacc ?_), fun hnone => congrArg _ (message_replies hacc ?_)⟩
      · have hown : u.ownContract mb.val (carried s mb.val h p kContractQuery) = some (id, k) := by
          have hk' : tabGet u.contracts (field (carried s mb.val h p kContractQuery) 0 2) = some k := hk
          simp only [State.ownContract, hk', hinst, hstate, ne_eq, not_false_eq_true, and_self, if_true]
          rfl
        simp only [hown, u]
        rfl
      · have hown : u.ownContract mb.val (carried s mb.val h p kContractQuery) = none := by
          cases hk : tabGet s.contracts id with
          | none =>
            have hk' : tabGet u.contracts (field (carried s mb.val h p kContractQuery) 0 2) = none := hk
            simp only [State.ownContract, hk']
          | some k =>
            have hk' : tabGet u.contracts (field (carried s mb.val h p kContractQuery) 0 2) = some k := hk
            have hno : ¬ (k.inst = mb.val ∧ k.state ≠ .released) := fun ⟨h1, h2⟩ => (hnone k hk).elim (fun h => h h1) h2
            simp only [State.ownContract, hk', hno, if_false]
        simp only [hown, u]
        rfl
    case info =>
      intro i
      refine congrArg _ (message_replies hacc ?_)
      have hinst : (s.takeRequest mb.val h).inst mb.val = { i with box := ((s.takeRequest mb.val h).inst mb.val).box } :=
        takeRequest_inst ..
      dsimp only
      rw [hinst]
      rfl

end Sys2Proof.Proofs
end

section
/-! PROOFS. O42: the messages of queues and semaphores. -/

namespace Sys2Proof.Proofs
open Sys2Proof Sys2Proof.Machine Sys2Proof.Safety Sys2Proof.Laws

-- What T7 is asked (08 R172) -----------------------------------------------------------------------------------------------

theorem rung_frame (s : State) (now_ : Bool) : s.rung now_ = { s with fep := { s.fep with
    threads := (s.rung now_).fep.threads
    serviceBell := (s.rung now_).fep.serviceBell
    serviceDone := (s.rung now_).fep.serviceDone } } := by
  unfold State.rung
  cases now_ <;> rfl

theorem asked_frame (s : State) (mb : Nat) (h : MsgHdr) : asked s mb h = { s with
    insts := (s.takeRequest mb h).insts
    fep := { s.fep with
      threads := (asked s mb h).fep.threads
      serviceBell := (asked s mb h).fep.serviceBell
      serviceDone := (asked s mb h).fep.serviceDone } } := by
  unfold asked
  rw [rung_frame]
  rfl

section
variable (s : State) (mb : Nat) (h : MsgHdr)

theorem asked_inst (n : Nat) : (asked s mb h).inst n = { s.inst n with box := ((s.takeRequest mb h).inst n).box } := by
  rw [← takeRequest_inst]
  unfold State.inst
  rw [asked_frame]

@[simp] theorem asked_queues : (asked s mb h).queues = s.queues := by rw [asked_frame]
@[simp] theorem asked_cmds : (asked s mb h).cmds = s.cmds := by rw [asked_frame]
@[simp] theorem asked_contracts : (asked s mb h).contracts = s.contracts := by rw [asked_frame]
@[simp] theorem asked_state (n : Nat) : ((asked s mb h).inst n).state = (s.inst n).state := by rw [asked_inst]
@[simp] theorem asked_limits (n : Nat) : ((asked s mb h).inst n).limits = (s.inst n).limits := by rw [asked_inst]

@[simp] theorem asked_freezes (n : Nat) : (asked s mb h).freezes n = s.freezes n := by
  unfold State.freezes
  rw [asked_state]

@[simp] theorem asked_sem (n i : Nat) : (asked s mb h).sem n i = s.sem n i := by
  unfold State.sem
  rw [asked_inst]

theorem asked_view : view (asked s mb h) = view s := by
  unfold asked
  simp

end

section
variable {s : State} {mb : Nat} {h : MsgHdr} {p : List Byte} {k : MsgKind} {host : List Byte} {body : Body} {st : Status}

/-- A body of an instance about itself, while the instance is not freezing. -/
theorem unfrozen_runs {t : State} (hthawed : t.freezes mb = false) (b : List Byte) : unfrozen mb body t b = body t b :=
  if_neg (by rw [hthawed]; exact Bool.false_ne_true)

/-- A body of an instance that freezes or is frozen is refused. -/
theorem port_freezes (hport : AtPort s mb h p k) (hfreezes : s.freezes mb = true) :
    s.viaPort mb h p host k (unfrozen mb body) = (asked s mb h).reply mb h St.instanceState [] :=
  port_replies hport (if_pos (by rw [asked_freezes]; exact hfreezes))

/-- A body that refuses. -/
theorem port_refuses (hport : AtPort s mb h p k) (hbody : body (asked s mb h) (carried s mb h p k) = refuseWith (asked s mb h) st) :
    s.viaPort mb h p host k body = (asked s mb h).reply mb h st [] :=
  port_replies hport hbody

end

-- Instances that ended commands leave (18 R387) -------------------------------------------------------------------------------

/-- Of the instances only semaphores and graphs differ. -/
def SemsGraphs (s t : State) : Prop := ∀ n, t.inst n = { s.inst n with sems := (t.inst n).sems, graphs := (t.inst n).graphs }

theorem SemsGraphs.refl (s : State) : SemsGraphs s s := fun _ => rfl

theorem SemsGraphs.trans {a b c : State} (h : SemsGraphs a b) (k : SemsGraphs b c) : SemsGraphs a c := fun n => by
  rw [k n, h n]

theorem semsGraphs_of_insts {s t : State} (h : t.insts = s.insts) : SemsGraphs s t := fun n => by
  unfold State.inst
  rw [h]

theorem semsGraphs_of_graphs {s t : State} (h : ∀ n, t.inst n = { s.inst n with graphs := (t.inst n).graphs }) : SemsGraphs s t :=
  fun n => by rw [h n]

theorem semsGraphs_setSem (s : State) (n i : Nat) (x : Sem) : SemsGraphs s (s.setSem n i x) := fun m => by
  unfold State.setSem
  by_cases hm : m = n
  · subst hm
    rw [updInst_inst_same]
  · rw [updInst_inst_other _ _ hm]

theorem semsGraphs_wake (s : State) (n i fuel : Nat) : SemsGraphs s (s.wake n i fuel) := by
  induction fuel generalizing s n i with
  | zero => exact .refl s
  | succ fuel ih =>
    unfold State.wake
    dsimp only
    split
    · exact .refl s
    · split
      · exact .refl s
      · split
        · exact (semsGraphs_of_insts (t := s.setCmd _) rfl).trans (ih _ _ _)
        · split
          · exact (((semsGraphs_of_insts (endCmd_insts ..)).trans (semsGraphs_setSem _ _ _ _)).trans (ih _ _ _)).trans (ih _ _ _)
          · exact (semsGraphs_of_insts (endCmd_insts ..)).trans (ih _ _ _)
        · exact .refl s

theorem semsGraphs_poisonOf (s : State) (c : Cmd) : SemsGraphs s (s.poisonOf c).1 := by
  unfold State.poisonOf
  split
  · split
    · exact (semsGraphs_setSem _ _ _ _).trans (semsGraphs_wake _ _ _ _)
    · exact .refl s
  · exact .refl s

theorem semsGraphs_freeEnded (s : State) (c : Cmd) : SemsGraphs s (s.freeEnded c) := by
  have hparts : SemsGraphs s ((s.freeCmdParts c.slot c.seq).freeSkims c.slot c.seq) := semsGraphs_of_insts (by
    unfold State.freeCmdParts State.freeSkims
    rw [mapParts_frame])
  exact (hparts.trans (semsGraphs_of_graphs (droppedOnly_dropBuild _ c).2)).trans (semsGraphs_of_graphs (givenBack _ c).insts)

theorem semsGraphs_endCmds (s : State) (cs : List Cmd) : SemsGraphs s (s.endCmds cs).1 := by
  have hpoison (l : List Cmd) (a : State × Nat) : SemsGraphs a.1 (poisoned a l).1 := by
    induction l generalizing a with
    | nil => exact .refl _
    | cons c l ih => exact (semsGraphs_poisonOf a.1 c).trans (ih _)
  have hfree (l : List Cmd) (u : State) : SemsGraphs u (l.foldl State.freeEnded u) := by
    induction l generalizing u with
    | nil => exact .refl u
    | cons c l ih => exact (semsGraphs_freeEnded u c).trans (ih _)
  exact (hpoison cs (s, 0)).trans (hfree cs _)

/-- Clearing a slot ends and drops commands; queues stay. -/
theorem clearSlot_frame (s : State) (slot : Nat) (sel : Cmd → Bool) : (s.clearSlot slot sel).queues = s.queues
    ∧ SemsGraphs s (s.clearSlot slot sel) := by
  have hdrop (l : List Cmd) (u : State) : DroppedOnly u (l.foldl (fun t c => (t.dropCmd c.slot c.seq).dropBuild c) u) :=
    droppedOnly_foldl _ (fun t c => (droppedOnly_dropCmd ..).trans (droppedOnly_dropBuild ..)) l u
  unfold State.clearSlot
  dsimp only
  obtain ⟨-, hqueues⟩ := booked_endCmds s
    ((((s.slotCmds slot).filter sel).filter (·.accepted)).mergeSort (fun a b => decide (a.order ≤ b.order)))
  have hinsts := semsGraphs_endCmds s
    ((((s.slotCmds slot).filter sel).filter (·.accepted)).mergeSort (fun a b => decide (a.order ≤ b.order)))
  generalize (s.endCmds ((((s.slotCmds slot).filter sel).filter (·.accepted)).mergeSort
    (fun a b => decide (a.order ≤ b.order)))).1 = u at *
  obtain ⟨hframe, hgraphs⟩ := hdrop (((s.slotCmds slot).filter sel).filter (fun c => !c.accepted)) u
  refine ⟨?_, hinsts.trans (semsGraphs_of_graphs hgraphs)⟩
  rw [hframe]
  exact hqueues

-- Queues (06 R116, R137) ----------------------------------------------------------------------------------------------------

/-- A queue as its message creates it. -/
def freshQueue (s : State) (n : Nat) (d : QDesc) : Queue :=
  { inst := n, desc := d, heldOrphan := decide (n = 0) && s.mgc.orphan, heldD3 := s.pwr.pf0D3 || (s.func n).d3hot, wbPending := true }

theorem createQueue_cases (s : State) (n : Nat) (b : List Byte) :
    ((s.slotOf n (parseDesc b).qid).isSome = true → s.createQueue n b = .error St.queueExists)
    ∧ (s.slotOf n (parseDesc b).qid = none →
      ((descReservedOk b = false ∨ descOk n (parseDesc b) = false) → s.createQueue n b = .error St.badField)
      ∧ (descReservedOk b = true → descOk n (parseDesc b) = true →
        ((s.inst n).limits.queueLimit ≤ (s.slotsOf n).length → s.createQueue n b = .error St.queueSlots)
        ∧ ∀ k, (s.slotsOf n).length < (s.inst n).limits.queueLimit → lowestFree (tabKeys s.queues) 0 512 = some k →
          s.createQueue n b = .ok ({ s with queues := tabSet s.queues k (freshQueue s n (parseDesc b)) }, k))) := by
  refine ⟨fun hsome => ?_, fun hnone => ⟨fun hbad => ?_, fun hres hdesc => ⟨fun hfull => ?_, fun k hroom hfree => ?_⟩⟩⟩
  · exact if_pos hsome
  all_goals
    have hno : ¬ ((s.slotOf n (parseDesc b).qid).isSome = true) := by rw [hnone]; decide
    refine (if_neg hno).trans ?_
  · refine if_pos ?_
    rcases hbad with h | h <;> rw [h] <;> simp
  all_goals
    have hgood : ¬ ((!descReservedOk b || !descOk n (parseDesc b)) = true) := by rw [hres, hdesc]; decide
    refine (if_neg hgood).trans ?_
  · exact if_pos hfull
  · refine (if_neg (Nat.not_le.2 hroom)).trans ?_
    rw [hfree]
    rfl

theorem queueCreateBody_runs {t : State} {mb : Nat} {b : List Byte} (hactive : (t.inst mb).state = .active) :
    (∀ u k, t.createQueue mb b = .ok (u, k) → queueCreateBody mb t b = okWith u (leBytes 2 k))
    ∧ ∀ st, t.createQueue mb b = .error st → queueCreateBody mb t b = refuseWith t st := by
  have hthawed : t.freezes mb = false := by simp only [State.freezes, hactive]
  have hgo : ((t.inst mb).state != .active) = false := by rw [hactive]; rfl
  unfold queueCreateBody
  rw [unfrozen_runs hthawed]
  refine ⟨fun u k h => ?_, fun st h => ?_⟩
  · simp only [hgo, h, Bool.false_eq_true, if_false]
  · simp only [hgo, h, Bool.false_eq_true, if_false]

theorem queueMessage_found {s : State} {n : Nat} {b : List Byte} {f : Nat → Queue → Except Status State} {k : Nat} {q : Queue}
    (hid : field b 0 1 ≤ 15) (hslot : s.slotOf n (field b 0 1) = some k) (hq : s.queue k = some q) : s.queueMessage n b f = f k q := by
  unfold State.queueMessage
  rw [if_neg (Nat.not_lt.2 hid), hslot, Option.bind_some, hq]
  rfl

/-- A slot given up: its queue is gone, with what the FEP holds for it. -/
def destroyedAt (s : State) (slot : Nat) (q : Queue) : State :=
  { s with
    queues := tabErase s.queues slot
    fep := { s.fep with
      sbFifo := s.fep.sbFifo.filter (fun e => e.1 != slot)
      heldBells := s.fep.heldBells.filter (fun e => !(e.1 == q.inst && e.2.1 == q.desc.qid)) } }

/-- A slot whose STOPPED queue is ACTIVE again, its commands cleared. -/
def restartedSlot (s : State) (slot : Nat) : State :=
  ((s.clearSlot slot (fun c => c.cancelled || !c.accepted)).mapCmds
    (fun c => if c.slot = slot then { c with resv := 0 } else c)).updQueue slot restartQueue

theorem restartedSlot_frame (s : State) (slot : Nat) : view (restartedSlot s slot) = view s
    ∧ (restartedSlot s slot).queue slot = (s.queue slot).map restartQueue
    ∧ (∀ j, j ≠ slot → (restartedSlot s slot).queue j = s.queue j)
    ∧ ∀ n, ((restartedSlot s slot).inst n).state = (s.inst n).state := by
  obtain ⟨hqueues, hinsts⟩ := clearSlot_frame s slot (fun c => c.cancelled || !c.accepted)
  have hview : view (restartedSlot s slot) = view s := by simp [restartedSlot]
  refine ⟨hview, ?_, fun j hj => ?_, fun n => ?_⟩
  all_goals unfold restartedSlot
  · rw [updQueue_queue_same]
    exact congrArg (fun q => (tabGet q slot).map restartQueue) hqueues
  · rw [updQueue_queue_other _ _ hj]
    exact congrArg (fun q => tabGet q j) hqueues
  · have hn := hinsts n
    show ((s.clearSlot slot _).inst n).state = _
    rw [hn]

theorem restartSlot_cases (s : State) (slot : Nat) (q : Queue) :
    (q.abortLatched = false → q.stateCode = 3 → s.restartSlot slot q = .ok (restartedSlot s slot))
    ∧ ((q.abortLatched = true ∨ q.stateCode ≠ 3) → s.restartSlot slot q = .error St.queueState) := by
  refine ⟨fun hlatch hstopped => if_neg ?_, fun hno => if_pos ?_⟩
  · rw [hlatch, hstopped]
    decide
  · rw [Bool.or_eq_true, decide_eq_true_eq]
    exact hno

/-- An instance whose queue has been reset: ACTIVE again where it was ABORTED. -/
def revived (u : State) (mb : Nat) : State := if (u.inst mb).state == .aborted then u.setIState mb .active 0 else u

theorem queueResetBody_runs {t : State} {mb : Nat} {b : List Byte} (hthawed : t.freezes mb = false) :
    (∀ u, t.queueMessage mb b t.restartSlot = .ok u → queueResetBody mb t b = okWith (revived u mb) [])
    ∧ ∀ st, t.queueMessage mb b t.restartSlot = .error st → queueResetBody mb t b = refuseWith t st := by
  unfold queueResetBody
  rw [unfrozen_runs hthawed]
  refine ⟨fun u h => ?_, fun st h => ?_⟩
  · simp only [h]
    rfl
  · simp only [h]

theorem revived_frame (u : State) (mb : Nat) : view (revived u mb) = view u ∧ (revived u mb).queues = u.queues
    ∧ ((revived u mb).inst mb).state = (if (u.inst mb).state = .aborted then .active else (u.inst mb).state) := by
  unfold revived
  by_cases h : (u.inst mb).state = .aborted
  · rw [if_pos (by rw [h]; rfl), if_pos h, (setIState_frame u mb .active 0).2.2]
    exact ⟨view_State_setIState .., (setIState_frame u mb .active 0).2.1, rfl⟩
  · rw [if_neg (by rw [beq_iff_eq]; exact h), if_neg h]
    exact ⟨rfl, rfl, rfl⟩

theorem slotOf_of_queues {s t : State} (h : t.queues = s.queues) : t.slotOf = s.slotOf := by
  funext n k
  unfold State.slotOf
  rw [h]

theorem queue_of_queues {s t : State} (h : t.queues = s.queues) : t.queue = s.queue := by
  funext k
  unfold State.queue
  rw [h]

-- Semaphores (06 R129, 11 R246) ----------------------------------------------------------------------------------------------

theorem semsKept_mmuFault (s : State) (n : Nat) (f : XFault) (write : Bool) (initiator part slot seq : Nat) :
    SemsKept s (s.mmuFault n f write initiator part slot seq) := by
  have hevent (u : State) (code src : Nat) (a b : Bool) (bs : List Byte) : SemsKept u (u.event code src a b bs) := fun m i => by
    unfold State.sem
    rw [(event_insts u code src a b bs).eq m]
    exact ⟨rfl, rfl⟩
  have hrecord (c : Prop) [Decidable c] (dva info : Nat) : SemsKept s (if c then s else s.updInst n (fun i => { i with
      mmu := { i.mmu with faultValid := true, faultDva := BitVec.ofNat 48 dva, faultInfo := BitVec.ofNat 31 info } })) := by
    split
    · exact fun _ _ => ⟨rfl, rfl⟩
    · refine semsKept_of_mmu fun m => ?_
      by_cases hm : m = n
      · subst hm
        rw [updInst_inst_same]
      · rw [updInst_inst_other _ _ hm]
  unfold State.mmuFault
  dsimp only
  split
  · split
    · exact hrecord _ _ _
    · exact (hrecord _ _ _).trans (hevent _ _ _ _ _ _)
  · exact fun _ _ => ⟨rfl, rfl⟩

theorem semsKept_writeMirror (s : State) (n i slot seq : Nat) : SemsKept s (s.writeMirror n i slot seq) := by
  unfold State.writeMirror
  split
  · exact fun _ _ => ⟨rfl, rfl⟩
  next dva _ =>
    have hwrite := semsKept_writeExtent s n dva (leBytes 8 (s.sem n i).value.toNat) (pagesOf (leBytes 8 (s.sem n i).value.toNat).length)
    split
    next t h =>
      rw [State.writeDva] at h
      rw [h] at hwrite
      exact hwrite
    next t f h =>
      rw [State.writeDva] at h
      rw [h] at hwrite
      exact hwrite.trans (semsKept_mmuFault _ _ _ _ _ _ _ _)

/-- A semaphore as SEM_SET's flags change it before its value is written. -/
def semFlagged (x : Sem) (f mirror : Nat) : Sem :=
  { x with mirror := if bit f 1 then some mirror else if bit f 2 then none else x.mirror
           poison := if bit f 3 then none else x.poison }

theorem semSet_keeps {s : State} {n i f : Nat} (hf : bit f 0 = false) (v mirror : Nat) :
    s.semSet n i f v mirror = s.setSem n i (semFlagged (s.sem n i) f mirror) := by
  unfold State.semSet
  dsimp only
  rw [hf, if_neg Bool.false_ne_true]
  rfl

theorem semSet_writes {s : State} {n i f : Nat} (hf : bit f 0 = true) (v mirror : Nat) :
    ((s.semSet n i f v mirror).sem n i).value = BitVec.ofNat 64 v
    ∧ ((s.sem n i).mirror = none → bit f 1 = false → view (s.semSet n i f v mirror) = view s) := by
  obtain ⟨hvalue, hmirror⟩ := writeSem_sem (s.setSem n i (semFlagged (s.sem n i) f mirror)) n i (BitVec.ofNat 64 v)
  rw [setSem_sem, if_pos ⟨rfl, rfl⟩] at hmirror
  have hview : view ((s.setSem n i (semFlagged (s.sem n i) f mirror)).writeSem n i (BitVec.ofNat 64 v)) = view s :=
    (view_State_writeSem ..).trans (view_State_setSem ..)
  have heq : s.semSet n i f v mirror
      = if (semFlagged (s.sem n i) f mirror).value.toNat = v then
          (s.setSem n i (semFlagged (s.sem n i) f mirror)).writeSem n i (BitVec.ofNat 64 v)
        else ((s.setSem n i (semFlagged (s.sem n i) f mirror)).writeSem n i (BitVec.ofNat 64 v)).writeMirror n i 0x3FF 0 := by
    unfold State.semSet
    dsimp only
    rw [hf, if_pos rfl]
    rfl
  rw [heq]
  generalize (s.setSem n i (semFlagged (s.sem n i) f mirror)).writeSem n i (BitVec.ofNat 64 v) = u at *
  refine ⟨?_, fun hnone hf1 => ?_⟩
  · split
    · exact hvalue
    · exact (semsKept_writeMirror u n i 0x3FF 0 n i).1.trans hvalue
  · have hno : (u.sem n i).mirror = none := by
      rw [hmirror]
      unfold semFlagged
      dsimp only
      rw [hf1, if_neg Bool.false_ne_true, hnone, ite_self]
    have hstay : u.writeMirror n i 0x3FF 0 = u := by rw [State.writeMirror, hno]
    rw [hstay, ite_self]
    exact hview

/-- Settles O42: each message runs at the service port and does what its queue or semaphore allows. -/
theorem queueAndSemaphoreMessages : Obligations.QueueAndSemaphoreMessages := by
  intro s mb h p
  refine ⟨fun hfreezes => ?freezes, fun hport hactive => ?create, fun hthawed hport k q => ?destroy, fun hthawed hport k q => ?reset,
    fun hthawed hport => ?sem⟩
  case freezes =>
    exact ⟨fun hport => congrArg _ (port_freezes hport hfreezes), fun hport => congrArg _ (port_freezes hport hfreezes),
      fun hport => congrArg _ (port_freezes hport hfreezes), fun hport => congrArg _ (port_freezes hport hfreezes)⟩
  case create =>
    intro b d
    obtain ⟨hok, herror⟩ := queueCreateBody_runs (t := asked s mb.val h) (mb := mb.val) (b := b) (by rw [asked_state]; exact hactive)
    obtain ⟨hexists, hnew⟩ := createQueue_cases (asked s mb.val h) mb.val b
    have hslots : (asked s mb.val h).slotOf = s.slotOf := slotOf_of_queues (asked_queues s mb.val h)
    have hof : (asked s mb.val h).slotsOf mb.val = s.slotsOf mb.val := by rw [State.slotsOf, asked_queues]; rfl
    rw [hslots] at hexists hnew
    rw [hof, asked_limits, asked_queues] at hnew
    refine ⟨fun k hnone hres hdesc hroom hfree => ?_, fun hsome => ?_, fun hnone hbad => ?_, fun hnone hres hdesc hfull => ?_⟩
    · have hcreated := ((hnew hnone).2 hres hdesc).2 k hroom hfree
      refine ⟨_, congrArg _ (port_replies hport (hok _ _ hcreated)), rfl, fun j hj => ?_, freshQueue (asked s mb.val h) mb.val d, ?_,
        rfl, rfl, rfl, rfl, rfl, rfl, rfl, ?_, ?_⟩
      · exact tabGet_set_other _ _ hj
      · exact tabGet_set_same ..
      · unfold freshQueue
        rw [asked_frame]
      · unfold freshQueue
        rw [asked_frame]
        rfl
    · exact congrArg _ (port_refuses hport (herror _ (hexists hsome)))
    · exact congrArg _ (port_refuses hport (herror _ ((hnew hnone).1 hbad)))
    · exact congrArg _ (port_refuses hport (herror _ (((hnew hnone).2 hres hdesc).1 hfull)))
  case destroy =>
    intro id hid hslot hq idle
    have hbody (r : Except Status State) (hr : (asked s mb.val h).destroyQueue k q = r) :
        queueDestroyBody mb.val (asked s mb.val h) (carried s mb.val h p kQueueDestroy)
          = applyOr (asked s mb.val h) r (fun _ => []) := by
      unfold queueDestroyBody
      rw [unfrozen_runs (by rw [asked_freezes]; exact hthawed), queueMessage_found hid, hr]
      · rw [slotOf_of_queues (asked_queues ..)]
        exact hslot
      · rw [queue_of_queues (asked_queues ..)]
        exact hq
    have hinflight : (asked s mb.val h).inflight k = s.inflight k := by
      simp only [State.inflight, State.accepted, State.slotCmds, asked_cmds]
    refine ⟨fun hlatch hidle => ?_, fun hno => ?_⟩
    · obtain ⟨hqueues, -⟩ := clearSlot_frame (asked s mb.val h) k (fun _ => true)
      have hview : view (((asked s mb.val h).clearSlot k (fun _ => true)).resetStream k) = view s := by
        simp [asked_view]
      have hdestroy : (asked s mb.val h).destroyQueue k q = .ok (destroyedAt
          (((asked s mb.val h).clearSlot k (fun _ => true)).resetStream k) k q) := by
        unfold State.destroyQueue
        rw [hlatch, if_neg Bool.false_ne_true, hinflight, if_pos hidle]
        rfl
      refine ⟨_, congrArg _ (port_replies hport (hbody _ hdestroy)), tabGet_erase_same .., still_of_view hview, fun j hj => ?_⟩
      refine (tabGet_erase_other _ hj).trans ?_
      show tabGet ((asked s mb.val h).clearSlot k (fun _ => true)).queues j = _
      rw [hqueues, asked_queues]
      rfl
    · have hdestroy : (asked s mb.val h).destroyQueue k q = .error St.queueState := by
        unfold State.destroyQueue
        rw [hinflight]
        rcases hno with h | h
        · rw [if_pos h]
        · rw [if_neg h, ite_self]
      exact congrArg _ (port_refuses hport (hbody _ hdestroy))
  case reset =>
    intro id hid hslot hq
    have hfound (f : Nat → Queue → Except Status State) :
        (asked s mb.val h).queueMessage mb.val (carried s mb.val h p kQueueReset) f = f k q := by
      refine queueMessage_found hid ?_ ?_
      · rw [slotOf_of_queues (asked_queues ..)]
        exact hslot
      · rw [queue_of_queues (asked_queues ..)]
        exact hq
    obtain ⟨hok, herror⟩ := queueResetBody_runs (t := asked s mb.val h) (mb := mb.val) (b := carried s mb.val h p kQueueReset)
      (by rw [asked_freezes]; exact hthawed)
    rw [hfound] at hok herror
    obtain ⟨hrestart, hrefuse⟩ := restartSlot_cases (asked s mb.val h) k q
    refine ⟨fun hlatch hstopped => ?_, fun hno => congrArg _ (port_refuses hport (herror _ (hrefuse hno)))⟩
    obtain ⟨hview, hqueue, hothers, hstates⟩ := restartedSlot_frame (asked s mb.val h) k
    obtain ⟨hlast, hqueues, hstate⟩ := revived_frame (restartedSlot (asked s mb.val h) k) mb.val
    refine ⟨_, restartQueue q, congrArg _ (port_replies hport (hok _ (hrestart hlatch hstopped))),
      still_of_view ((hlast.trans hview).trans (asked_view ..)), ?_, rfl, rfl, rfl, rfl, rfl, rfl, rfl, rfl, fun j hj => ?_, ?_⟩
    · rw [queue_of_queues hqueues, hqueue, queue_of_queues (asked_queues ..), hq]
      rfl
    · rw [queue_of_queues hqueues, hothers j hj, queue_of_queues (asked_queues ..)]
    · rw [hstate, hstates, asked_state]
  case sem =>
    intro b i f x
    have hrun (hroom : i < (s.inst mb.val).limits.semCount) :
        ((bit f 1 = false ∨ bit f 2 = false) → (bit f 1 = false ∨ field b 16 8 < 2 ^ 48) →
          semSetBody mb.val (asked s mb.val h) b = okWith ((asked s mb.val h).semSet mb.val i f (field b 8 8) (field b 16 8)) [])
        ∧ (bit f 1 = true → (bit f 2 = true ∨ 2 ^ 48 ≤ field b 16 8) →
          semSetBody mb.val (asked s mb.val h) b = refuseWith (asked s mb.val h) St.badField) := by
      unfold semSetBody
      rw [unfrozen_runs (by rw [asked_freezes]; exact hthawed)]
      dsimp only
      rw [asked_limits, if_neg (Nat.not_le.2 hroom)]
      refine ⟨fun h12 h1 => if_neg ?_, fun h1 h2 => if_pos ?_⟩
      · rw [Bool.or_eq_true, Bool.and_eq_true, Bool.and_eq_true, decide_eq_true_eq]
        rintro (⟨ha, hb⟩ | ⟨ha, hb⟩)
        · rcases h12 with h | h
          · exact absurd ha (by rw [h]; decide)
          · exact absurd hb (by rw [h]; decide)
        · rcases h1 with h | h
          · exact absurd ha (by rw [h]; decide)
          · exact absurd hb (Nat.not_le.2 h)
      · rw [Bool.or_eq_true, Bool.and_eq_true, Bool.and_eq_true, decide_eq_true_eq]
        exact h2.imp (fun h => ⟨h1, h⟩) (fun h => ⟨h1, h⟩)
    refine ⟨fun hroom h12 h1 => ⟨fun hf => ?_, fun hf => ?_⟩, fun hfull => ?_, fun hroom h1 hbad => ?_⟩
    · have hset := semSet_keeps (s := asked s mb.val h) (n := mb.val) (i := i) hf (field b 8 8) (field b 16 8)
      have hbody := (hrun hroom).1 h12 h1
      rw [hset, asked_sem] at hbody
      refine ⟨_, congrArg _ (port_replies hport hbody), rfl, ?_, ?_, ?_⟩
      all_goals
        rw [setSem_sem, if_pos ⟨rfl, rfl⟩]
        rfl
    · obtain ⟨hvalue, hview⟩ := semSet_writes (s := asked s mb.val h) (n := mb.val) (i := i) hf (field b 8 8) (field b 16 8)
      rw [asked_sem] at hview
      exact ⟨_, congrArg _ (port_replies hport ((hrun hroom).1 h12 h1)), hvalue,
        fun hnone hf1 => still_of_view ((hview hnone hf1).trans (asked_view ..))⟩
    · refine congrArg _ (port_refuses hport ?_)
      unfold semSetBody
      rw [unfrozen_runs (by rw [asked_freezes]; exact hthawed)]
      exact if_pos (by rw [asked_limits]; exact hfull)
    · exact congrArg _ (port_refuses hport ((hrun hroom).2 h1 hbad))

end Sys2Proof.Proofs
end

section
/-! PROOFS. O43: the messages of graphs and contracts. -/

namespace Sys2Proof.Proofs
open Sys2Proof Sys2Proof.Machine Sys2Proof.Safety Sys2Proof.Laws

-- Images (07 R143, R144) ----------------------------------------------------------------------------------------------------

theorem graph_setGraph_same (s : State) (n g : Nat) (x : Graph) : (s.setGraph n g x).graph n g = some x := by
  unfold State.graph State.setGraph
  rw [updInst_inst_same]
  exact tabGet_set_same ..

/-- An image that passes every check: its graph, stored under the lowest free identifier. -/
theorem registerImage_ok {s u : State} {n id : Nat} {img : List Byte} {len : Nat} (h : s.registerImage n img len = .ok (u, id)) :
    u = { s with insts := u.insts, pages := u.pages }
    ∧ ∃ g, u.graph n id = some g ∧ g.current = some 1 ∧ g.builder = none ∧ g.versions.map (·.num) = [1]
      ∧ (parseImage img len).map (·.1) = some g.fixed := by
  unfold State.registerImage at h
  split at h
  · cases h
  next f off hparse =>
    dsimp only at h
    split at h
    · cases h
    split at h
    · cases h
    split at h
    · cases h
    split at h
    · cases h
    split at h
    · cases h
    split at h
    · cases h
    split at h
    · cases h
    next ps _ =>
      split at h
      · cases h
      injection h with h
      obtain ⟨rfl, rfl⟩ := Prod.mk.inj h
      refine ⟨?_, _, graph_setGraph_same .., rfl, rfl, rfl, ?_⟩
      · unfold State.setGraph State.updInst
        dsimp only
        rw [(putPages_frame ..).1, (putPages_frame ..).1]
      · rw [hparse]
        rfl

theorem graphRegisterBody_cases {t : State} {n : Nat} {host b : List Byte} (hthawed : t.freezes n = false) :
    (BitVec.ofNat 32 (field b 0 4) = 0 → graphRegisterBody n host t b = refuseWith t St.nullHandle)
    ∧ (BitVec.ofNat 32 (field b 0 4) ≠ 0 →
      (∀ st, t.relocPair n (BitVec.ofNat 32 (field b 0 4)) (field b 8 8) (field b 16 4) true false = .error st →
        graphRegisterBody n host t b = refuseWith t st)
      ∧ ∀ dva, t.relocPair n (BitVec.ofNat 32 (field b 0 4)) (field b 8 8) (field b 16 4) true false = .ok dva →
        (∀ f, t.readDva n dva (field b 16 4) host = .fault f →
          graphRegisterBody n host t b = refuseWith (t.mmuFault n f false 0 0 0x3FF 0) f.status)
        ∧ ∀ img rest, t.readDva n dva (field b 16 4) host = .bytes img rest →
          (∀ st, (t.chargeRead n dva (field b 16 4)).registerImage n img (field b 16 4) = .error st →
            graphRegisterBody n host t b = refuseWith t st)
          ∧ ∀ u id, (t.chargeRead n dva (field b 16 4)).registerImage n img (field b 16 4) = .ok (u, id) →
            graphRegisterBody n host t b = okWith u (leBytes 2 id ++ leBytes 2 1)) := by
  unfold graphRegisterBody
  rw [unfrozen_runs hthawed]
  dsimp only
  refine ⟨fun h0 => if_pos h0, fun h0 => ⟨fun st hst => ?_, fun dva hdva => ⟨fun f hf => ?_, fun img rest himg =>
    ⟨fun st hst => ?_, fun u id hu => ?_⟩⟩⟩⟩
  all_goals rw [if_neg h0]
  · simp only [hst]
  · simp only [hdva, hf]
  · simp only [hdva, himg, hst]
  · simp only [hdva, himg, hu]

-- Graphs released (07 R145, R147) ---------------------------------------------------------------------------------------------

/-- Every graph of `t` stood in `s` with the same current version. -/
def CurrentsKept (s t : State) : Prop := ∀ n g x, t.graph n g = some x → ∃ y, s.graph n g = some y ∧ x.current = y.current

theorem CurrentsKept.refl (s : State) : CurrentsKept s s := fun _ _ x hx => ⟨x, hx, rfl⟩

theorem CurrentsKept.trans {a b c : State} (h : CurrentsKept a b) (k : CurrentsKept b c) : CurrentsKept a c := fun n g x hx => by
  obtain ⟨y, hy, hxy⟩ := k n g x hx
  obtain ⟨z, hz, hyz⟩ := h n g y hy
  exact ⟨z, hz, hxy.trans hyz⟩

theorem currentsKept_of_insts {s t : State} (h : t.insts = s.insts) : CurrentsKept s t := fun n g x hx =>
  ⟨x, by rw [← hx]; unfold State.graph State.inst; rw [h], rfl⟩

theorem setGraph_graph (s : State) (n g : Nat) (x : Graph) (m j : Nat) :
    (s.setGraph n g x).graph m j = if m = n ∧ j = g then some x else s.graph m j := by
  unfold State.graph State.setGraph
  by_cases hm : m = n
  · subst hm
    rw [updInst_inst_same]
    by_cases hj : j = g
    · rw [hj, if_pos ⟨rfl, rfl⟩]
      exact tabGet_set_same ..
    · rw [if_neg fun h => hj h.2]
      exact tabGet_set_other _ _ hj
  · rw [updInst_inst_other _ _ hm, if_neg fun h => hm h.1]

theorem currentsKept_setGraph {s : State} {n g : Nat} {x y : Graph} (hy : s.graph n g = some y) (hxy : x.current = y.current) :
    CurrentsKept s (s.setGraph n g x) := fun m j z hz => by
  rw [setGraph_graph] at hz
  split at hz
  next h =>
    cases hz
    exact ⟨y, by rw [h.1, h.2]; exact hy, hxy⟩
  next => exact ⟨z, hz, rfl⟩

theorem currentsKept_releaseVersions (s : State) (n g : Nat) : CurrentsKept s (s.releaseVersions n g) := by
  unfold State.releaseVersions
  split
  · exact .refl s
  next x hx =>
    dsimp only
    split
    · refine CurrentsKept.trans (b := s.updInst n (fun i => { i with graphs := tabErase i.graphs g })) (fun m j z hz => ⟨z, ?_, rfl⟩)
        (currentsKept_of_insts rfl)
      unfold State.graph at hz ⊢
      by_cases hm : m = n
      · subst hm
        rw [updInst_inst_same] at hz
        by_cases hj : j = g
        · subst hj
          exact absurd ((tabGet_erase_same (s.inst m).graphs j).symm.trans hz) (by simp)
        · exact (tabGet_erase_other _ hj).symm.trans hz
      · rw [updInst_inst_other _ _ hm] at hz
        exact hz
    · refine CurrentsKept.trans (currentsKept_setGraph (x := { x with
        versions := x.versions.filter (fun v => x.current == some v.num || s.pinned n g v.num) }) hx rfl) (currentsKept_of_insts ?_)
      rfl

theorem currentsKept_dropBuild (s : State) (c : Cmd) : CurrentsKept s (s.dropBuild c) := by
  unfold State.dropBuild
  split
  · exact .refl s
  next x hx =>
    dsimp only
    refine CurrentsKept.trans ?_ (currentsKept_releaseVersions _ _ _)
    split
    · exact fun m j z hz => currentsKept_setGraph hx (by rfl) m j z hz
    · exact currentsKept_setGraph hx (by rfl)

theorem settleRefused_insts (s : State) (slot : Nat) : (s.settleRefused slot).insts = s.insts := by
  have hone {s t : State} (h : s.settleOne slot = some t) : t.insts = s.insts := by
    unfold State.settleOne at h
    split at h
    · cases h
    · split at h
      · cases h
        rfl
      · split at h
        · cases h
        · split at h
          · cases h
            rfl
          · cases h
  have hall (fuel : Nat) (u : State) : (u.settle slot fuel).insts = u.insts := by
    induction fuel generalizing u with
    | zero => rfl
    | succ fuel ih =>
      unfold State.settle
      split
      · rfl
      next t ht => exact (ih t).trans (hone ht)
  exact hall ..

theorem currentsKept_endPatches (s : State) (n g : Nat) : CurrentsKept s (s.endPatches n g) := by
  have hfold (l : List Cmd) (u : State) : CurrentsKept u (l.foldl (fun t c => (t.dropBuild c).refuse { c with built := none } St.badGraph) u) := by
    induction l generalizing u with
    | nil => exact .refl u
    | cons c l ih =>
      refine CurrentsKept.trans ((currentsKept_dropBuild u c).trans (currentsKept_of_insts ?_)) (ih _)
      exact settleRefused_insts ..
  exact hfold _ _

-- Contracts (09 R192, R193, R199) ----------------------------------------------------------------------------------------------

theorem updContract_contract_other (s : State) {id j : Nat} (f : Contract → Contract) (hj : j ≠ id) :
    tabGet (s.updContract id f).contracts j = tabGet s.contracts j :=
  tabGet_modify_other _ _ hj

/-- A contract released: gone where no accepted launch needs it, and otherwise kept until the last has ended. -/
theorem releaseContract_frame {s : State} {id : Nat} {k : Contract} (hk : tabGet s.contracts id = some k) :
    s.releaseContract id = { s with contracts := (s.releaseContract id).contracts }
    ∧ (s.contractBusy id = true → tabGet (s.releaseContract id).contracts id = some { k with state := .released })
    ∧ (s.contractBusy id = false → tabGet (s.releaseContract id).contracts id = none)
    ∧ ∀ j, j ≠ id → tabGet (s.releaseContract id).contracts j = tabGet s.contracts j := by
  have hreleased : tabGet (s.updContract id (fun k => { k with state := .released })).contracts id = some { k with state := .released } := by
    rw [updContract_contract, hk]
    rfl
  have hothers (j : Nat) (hj : j ≠ id) : tabGet (s.updContract id (fun k => { k with state := .released })).contracts j
      = tabGet s.contracts j := updContract_contract_other s _ hj
  have hbusy : (s.updContract id (fun k => { k with state := .released })).contractBusy id = s.contractBusy id := rfl
  have hframe : s.updContract id (fun k => { k with state := .released })
      = { s with contracts := (s.updContract id (fun k => { k with state := .released })).contracts } := rfl
  unfold State.releaseContract
  generalize s.updContract id (fun k => { k with state := .released }) = u at *
  have hsweep : u.sweepContract id = if u.contractBusy id then u else { u with contracts := tabErase u.contracts id } := by
    unfold State.sweepContract
    rw [hreleased]
    cases u.contractBusy id <;> rfl
  rw [hsweep, hbusy]
  cases hb : s.contractBusy id with
  | true =>
    rw [if_pos rfl]
    exact ⟨hframe, fun _ => hreleased, (fun h => absurd h (by decide)), hothers⟩
  | false =>
    rw [if_neg Bool.false_ne_true]
    refine ⟨?_, (fun h => absurd h (by decide)), fun _ => tabGet_erase_same .., fun j hj => (tabGet_erase_other _ hj).trans (hothers j hj)⟩
    rw [hframe]

theorem contractAdmitBody_cases {t : State} {n : Nat} {b : List Byte} (hthawed : t.freezes n = false) :
    (t.contractFieldsOk n b = true →
      (∀ f, t.tryAdmit n (parseContract b) = .ok f → contractAdmitBody n t b
        = okWith (t.holdContract n t.freeContractId (parseContract b))
            (admitReply t.freeContractId { f with contract := t.freeContractId, term := 0 }))
      ∧ ∀ f, t.tryAdmit n (parseContract b) = .error f → contractAdmitBody n t b = (t, some (f.status, admitReply 0 f)))
    ∧ (t.contractFieldsOk n b = false → ∃ out, contractAdmitBody n t b = (t, some (St.badField, out))) := by
  unfold contractAdmitBody
  rw [unfrozen_runs hthawed]
  refine ⟨fun hok => ⟨fun f hf => ?_, fun f hf => ?_⟩, fun hno =>
    ⟨admitReply 0 ⟨St.badField, 0, 0xFF, 0, 0, 0, [0, 0, 0, 0]⟩, ?_⟩⟩
  · simp only [hok, hf, if_true]
  · simp only [hok, hf, if_true]
  · simp only [hno, Bool.false_eq_true, if_false]

/-- Settles O43: images are registered, versions released, contracts admitted and released as their checks allow. -/
theorem graphAndContractMessages : Obligations.GraphAndContractMessages := by
  intro s mb h p hthawed u0
  have hthawed' : u0.freezes mb.val = false := (asked_freezes ..).trans hthawed
  refine ⟨fun host hport hshort => ?register, fun hacc => ?release, fun hport => ?admission, fun hport => ?give⟩
  case register =>
    intro b hd len
    have hexec {t : State} {st : Status} {out : List Byte} (hbody : graphRegisterBody mb.val host u0 b = (t, some (st, out))) :
        exec (.graphRegister mb h p host) s = .next (t.reply mb.val h st out) :=
      congrArg _ ((if_neg (by rw [hshort]; exact Bool.false_ne_true)).trans (port_replies hport hbody))
    obtain ⟨hnull, hnamed⟩ := graphRegisterBody_cases (host := host) (b := b) hthawed'
    refine ⟨fun h0 => hexec (hnull h0), fun st h0 hst => hexec ((hnamed h0).1 st hst), fun dva f h0 hdva hf => ?_,
      fun dva img rest h0 hdva himg => ⟨fun st hst => ?_, fun u id hu => ?_⟩⟩
    · exact hexec (((hnamed h0).2 dva hdva).1 f hf)
    · exact hexec ((((hnamed h0).2 dva hdva).2 img rest himg).1 st hst)
    · obtain ⟨hframe, hgraph⟩ := registerImage_ok hu
      refine ⟨hexec ((((hnamed h0).2 dva hdva).2 img rest himg).2 u id hu), ?_, hgraph⟩
      have hcharge := (cachesOnly_chargeExtent u0 mb.val 19 dva len (pagesOf len)).1
      rw [hframe, State.chargeRead, hcharge]
  case release =>
    intro id
    refine ⟨fun g v hg hv => ?_, fun hnone => ?_⟩
    · have hcurrent : (s.takeRequest mb.val h).currentGraph mb.val (carried s mb.val h p kGraphRelease) = some (id, g, v) := by
        unfold State.currentGraph
        rw [takeRequest_graph, hg, Option.bind_some, hv]
        rfl
      have hexec : exec (.graphRelease mb h p) s = .next (((((s.takeRequest mb.val h).setGraph mb.val id
          { g with current := none }).endPatches mb.val id).releaseVersions mb.val id).reply mb.val h St.ok []) := by
        refine congrArg _ (message_replies hacc ?_)
        rw [unfrozen_runs (by rw [takeRequest_freezes]; exact hthawed)]
        simp only [hcurrent]
        rfl
      refine ⟨_, hexec, still_of_view (by simp), fun g' hg' => ?_⟩
      obtain ⟨y, hy, hcur⟩ := CurrentsKept.trans (currentsKept_endPatches _ _ _) (currentsKept_releaseVersions _ _ _) mb.val id g' hg'
      rw [setGraph_graph, if_pos ⟨rfl, rfl⟩] at hy
      cases hy
      exact hcur
    · have hcurrent : (s.takeRequest mb.val h).currentGraph mb.val (carried s mb.val h p kGraphRelease) = none := by
        unfold State.currentGraph
        rw [takeRequest_graph]
        cases hg : s.graph mb.val id with
        | none => rfl
        | some g => rw [Option.bind_some, hnone g hg]; rfl
      refine congrArg _ (message_replies hacc ?_)
      rw [unfrozen_runs (by rw [takeRequest_freezes]; exact hthawed)]
      simp only [hcurrent]
      rfl
  case admission =>
    intro b r
    have hid : u0.freeContractId = s.freeContractId := by unfold State.freeContractId; rw [asked_contracts]
    have hothers (j : Nat) (hj : j ≠ s.freeContractId) : tabGet (u0.holdContract mb.val s.freeContractId r).contracts j
        = tabGet s.contracts j := by
      refine (tabGet_set_other _ _ hj).trans ?_
      rw [asked_contracts]
    obtain ⟨hgood, hbad⟩ := contractAdmitBody_cases (b := b) hthawed'
    refine ⟨fun f hok hadmit => ?_, fun f hok hfail => ?_, fun hno => ?_⟩
    · have hbody := (hgood hok).1 f hadmit
      rw [hid] at hbody
      exact ⟨_, congrArg _ (port_replies hport hbody), rfl, ⟨_, tabGet_set_same .., rfl, rfl, rfl⟩, hothers⟩
    · exact congrArg _ (port_replies hport ((hgood hok).2 f hfail))
    · obtain ⟨out, hbody⟩ := hbad hno
      exact ⟨out, congrArg _ (port_replies hport hbody)⟩
  case give =>
    intro id
    refine ⟨fun k hk hinst hstate => ?_, fun hnone => ?_⟩
    · have hk' : tabGet u0.contracts id = some k := by rw [asked_contracts]; exact hk
      have hown : u0.ownContract mb.val (carried s mb.val h p kContractRelease) = some (id, k) := by
        unfold State.ownContract
        rw [hk']
        exact if_pos ⟨hinst, hstate⟩
      obtain ⟨hframe, hbusy, hfree, hothers⟩ := releaseContract_frame hk'
      have hsame : u0.contractBusy id = s.contractBusy id := by unfold State.contractBusy; rw [asked_cmds]
      rw [hsame] at hbusy hfree
      refine ⟨_, congrArg _ (port_replies hport ?_), hframe, hbusy, hfree, fun j hj => (hothers j hj).trans (by rw [asked_contracts])⟩
      unfold contractReleaseBody
      rw [unfrozen_runs hthawed']
      simp only [hown]
      rfl
    · have hown : u0.ownContract mb.val (carried s mb.val h p kContractRelease) = none := by
        unfold State.ownContract
        rw [asked_contracts]
        split
        next k hk => exact if_neg fun ⟨h1, h2⟩ => (hnone k hk).elim (fun h => h h1) h2
        next => rfl
      refine congrArg _ (port_refuses hport ?_)
      unfold contractReleaseBody
      rw [unfrozen_runs hthawed']
      simp only [hown]
      rfl

end Sys2Proof.Proofs
end

section
/-! PROOFS. O44: the messages of the life of an instance. -/

namespace Sys2Proof.Proofs
open Sys2Proof Sys2Proof.Machine Sys2Proof.Safety Sys2Proof.Laws

-- Generations and resets through the end of an instance's work (11 R239, R240) ------------------------------------------------

/-- The resets and the generations of the instances are as they were. -/
def GensKept (s t : State) : Prop := t.rst = s.rst ∧ ∀ n, (t.inst n).gen = (s.inst n).gen

theorem GensKept.refl (s : State) : GensKept s s := ⟨rfl, fun _ => rfl⟩

theorem GensKept.trans {a b c : State} (h : GensKept a b) (k : GensKept b c) : GensKept a c :=
  ⟨k.1.trans h.1, fun n => (k.2 n).trans (h.2 n)⟩

theorem gensKept_foldl {α : Type} (g : State → α → State) (hg : ∀ t x, GensKept t (g t x)) (l : List α) (s : State) :
    GensKept s (l.foldl g s) := by
  induction l generalizing s with
  | nil => exact .refl s
  | cons x l ih => exact (hg s x).trans (ih _)

theorem gensKept_of_insts {s t : State} (hrst : t.rst = s.rst) (h : t.insts = s.insts) : GensKept s t :=
  ⟨hrst, fun n => by unfold State.inst; rw [h]⟩

theorem gensKept_updInst (s : State) (n : Nat) {f : Inst → Inst} (hf : ∀ i, (f i).gen = i.gen) : GensKept s (s.updInst n f) := by
  refine ⟨rfl, fun m => ?_⟩
  by_cases h : m = n
  · subst h
    rw [updInst_inst_same, hf]
  · rw [updInst_inst_other _ _ h]

theorem gensKept_event (s : State) (code src : Nat) (a b : Bool) (bs : List Byte) : GensKept s (s.event code src a b bs) :=
  ⟨event_rst .., fun n => by rw [(event_insts ..).eq n]⟩

theorem gensKept_dropped {s t : State} (h : DroppedOnly s t) : GensKept s t :=
  ⟨by rw [h.1], fun n => by rw [h.2 n]⟩

theorem gensKept_endCmds (s : State) (cs : List Cmd) : GensKept s (s.endCmds cs).1 := by
  refine ⟨?_, fun n => by rw [semsGraphs_endCmds s cs n]⟩
  have hpoison (l : List Cmd) (a : State × Nat) : (poisoned a l).1.rst = a.1.rst := by
    induction l generalizing a with
    | nil => rfl
    | cons c l ih =>
      refine (ih ((a.1.poisonOf c).1, a.2 + (a.1.poisonOf c).2)).trans ?_
      unfold State.poisonOf
      split
      · split
        · dsimp only
          rw [(wakesOnly_setSem ..).trans (wakesOnly_wake ..)]
        · rfl
      · rfl
  have hfree (l : List Cmd) (u : State) : (l.foldl State.freeEnded u).rst = u.rst := by
    induction l generalizing u with
    | nil => rfl
    | cons c l ih =>
      refine (ih _).trans ?_
      unfold State.freeEnded
      rw [(givenBack _ c).only]
      dsimp only
      rw [(droppedOnly_dropBuild _ c).1]
      dsimp only [State.freeCmdParts, State.freeSkims]
      rw [mapParts_frame]
  exact (hfree cs _).trans (hpoison cs (s, 0))

theorem gensKept_stopGuilty (s : State) (slot : Nat) : GensKept s (s.stopGuilty slot) := by
  unfold State.stopGuilty
  repeat' split
  · exact .refl s
  · exact .refl s
  · exact .refl s
  · exact (gensKept_of_insts (t := s.updQueue slot _) rfl rfl).trans (gensKept_event ..)

theorem gensKept_breakQueue (s : State) (slot : Nat) (st : Status) : GensKept s (s.breakQueue slot st) := by
  unfold State.breakQueue
  repeat' split
  · exact .refl s
  · exact .refl s
  · exact (gensKept_of_insts (t := s.updQueue slot _) rfl rfl).trans (gensKept_event ..)

theorem gensKept_writeExtent (s : State) (n dva : Nat) (bs : List Byte) (fuel : Nat) : GensKept s (s.writeExtent n dva bs fuel).1 := by
  induction fuel generalizing s dva bs with
  | zero => exact .refl s
  | succ fuel ih =>
    obtain ⟨hxframe, hxinst⟩ := cachesOnly_xlated s n 19 dva
    have hx : GensKept s (s.xlated n 19 dva) := ⟨by rw [hxframe], fun m => by rw [hxinst m]⟩
    unfold State.writeExtent
    split
    · exact .refl s
    · dsimp only
      split
      · exact .refl s
      · refine (hx.trans ?_).trans (ih _ _ _)
        rw [(storePriv_frame ..).1]
        exact gensKept_of_insts rfl rfl
      · split
        · refine (hx.trans ?_).trans (ih _ _ _)
          rw [extentOnly_hostPost]
          exact gensKept_of_insts rfl (hostPost_insts ..)
        · exact .refl s

theorem gensKept_mmuFault (s : State) (n : Nat) (f : XFault) (write : Bool) (initiator part slot seq : Nat) :
    GensKept s (s.mmuFault n f write initiator part slot seq) := by
  unfold State.mmuFault
  dsimp only
  split
  · generalize hu : (if (s.inst n).mmu.faultValid then s else s.updInst n _) = u
    have hs : GensKept s u := by
      rw [← hu]
      split
      · exact .refl s
      · exact gensKept_updInst s n fun _ => rfl
    split
    · exact hs
    · exact hs.trans (gensKept_event ..)
  · exact .refl s

theorem gensKept_landRecord (s : State) (n a : Nat) (bs : List Byte) (st : Status) : GensKept s (s.landRecord n a bs st).1 := by
  unfold State.landRecord
  have hwrite := gensKept_writeExtent s n a bs (pagesOf bs.length)
  split
  · exact .refl s
  · split
    next t h =>
      rw [State.writeDva] at h
      rw [h] at hwrite
      exact hwrite
    next t f h =>
      rw [State.writeDva] at h
      rw [h] at hwrite
      exact hwrite.trans (gensKept_mmuFault ..)

theorem gensKept_resetRecord (s : State) (slot : Nat) (st : Status) : GensKept s (resetRecord slot st s) := by
  have hstop : GensKept s ((s.onThread 7 none).stopGuilty slot) :=
    (gensKept_of_insts (t := s.onThread 7 none) rfl rfl).trans (gensKept_stopGuilty ..)
  have hupd (u : State) (f : Queue → Queue) : GensKept u (u.updQueue slot f) := gensKept_of_insts rfl rfl
  have hirq (u : State) : GensKept u (u.queueIrq slot true) := by
    rw [queueIrq_frame]
    exact gensKept_of_insts rfl rfl
  unfold resetRecord
  dsimp only
  repeat' split
  · exact .refl s
  · exact .refl s
  · exact hstop.trans (hupd ..)
  · exact hstop
  · exact ((hstop.trans (gensKept_landRecord ..)).trans (hupd ..)).trans (hirq _)
  · exact ((hstop.trans (gensKept_landRecord ..)).trans (hupd ..)).trans (gensKept_breakQueue ..)
  · exact .refl s

theorem gensKept_bookAbort (s : State) (n : Nat) (q : Option Nat) : GensKept s (s.bookAbort n q).1 := by
  unfold State.bookAbort
  dsimp only
  exact ((gensKept_endCmds ..).trans (gensKept_foldl (fun t k => t.updQueue k stopQueue)
    (fun t k => gensKept_of_insts rfl rfl) _ _)).trans
    (gensKept_foldl (fun t k => resetRecord k St.ok (t.stopGuilty k))
      (fun t k => (gensKept_stopGuilty t k).trans (gensKept_resetRecord ..)) _ _)

theorem gensKept_abortDone (s : State) (n : Nat) (q : Option Nat) (by_ result at_ : Nat) (counts : Nat × Nat × Nat) :
    GensKept s (s.abortDone n q by_ result at_ counts) := by
  have hmsix (u : State) (fn v : Nat) : GensKept u (u.msix fn v) := gensKept_of_insts (by simp) (by simp)
  unfold State.abortDone
  dsimp only
  generalize hu : s.updInst n _ = u
  have hs : GensKept s u := by
    rw [← hu]
    exact gensKept_updInst s n fun _ => rfl
  refine (hs.trans (hmsix u n 2)).trans (GensKept.trans ?_ (gensKept_event ..))
  split
  · exact .refl _
  · exact hmsix ..

theorem gensKept_endInstance (s : State) (n by_ : Nat) : GensKept s (s.endInstance n by_) := by
  have hlatch (l : List Nat) (u : State) : GensKept u (l.foldl State.latchQueue u) :=
    gensKept_foldl _ (fun t slot => by
      obtain ⟨v, hv, h⟩ := latchQueue_eq t slot
      rw [h]
      exact (gensKept_dropped hv).trans (gensKept_of_insts rfl rfl)) l u
  have hstop (l : List Nat) (u : State) : GensKept u (l.foldl State.stopPart u) := by
    rw [(stopParts_frame u l).1]
    exact gensKept_of_insts rfl rfl
  have hmatch (u : State) (es : List DrainEntry) : GensKept u (u.endMatching es) := by
    have hframe : u.endMatching es = { u with net := (u.endMatching es).net } := (endedIn_frame es u u.net.reqs).1
    rw [hframe]
    exact gensKept_of_insts rfl rfl
  have hreassess (u : State) : GensKept u u.reassess := by
    obtain ⟨hframe, hinsts, -⟩ := powerOnly_reassess u
    exact ⟨by rw [hframe], fun m => by rw [hinsts.eq m]⟩
  unfold State.endInstance
  dsimp only
  generalize h2 : ((s.slotsOf n).foldl State.latchQueue s).markAborted n none = s2
  have k2 : GensKept s s2 := by
    rw [← h2]
    exact (hlatch _ s).trans (gensKept_of_insts rfl rfl)
  generalize h3 : List.foldl State.stopPart s2 _ = s3
  have k3 : GensKept s2 s3 := by
    rw [← h3]
    exact hstop _ s2
  generalize h4 : State.endMatching (State.drainTargets _) _ = s4
  have k4 : GensKept s3 s4 := by
    rw [← h4]
    refine GensKept.trans (gensKept_of_insts ?_ ?_) (hmatch _ _)
    · rfl
    · rfl
  generalize h5 : ({ s4 with abrt := _ } : State) = s5
  have k5 : GensKept s4 s5 := by
    rw [← h5]
    exact gensKept_of_insts rfl rfl
  have k6 := gensKept_bookAbort s5 n none
  generalize s5.bookAbort n none = b at *
  generalize h7 : List.foldl _ b.1 _ = s7
  have k7 : GensKept b.1 s7 := by
    rw [← h7]
    exact gensKept_foldl _ (fun t r => gensKept_abortDone ..) _ _
  have hdone := gensKept_abortDone s7 n none by_ 0 s.now b.2
  exact ((((k2.trans k3).trans k4).trans k5).trans (k6.trans k7)).trans (hdone.trans (hreassess _))

-- A mailbox stays open or closed through what is told (11 R243a) ---------------------------------------------------------------

theorem putEvent_state (b : Mailbox) (owner code subject time : Nat) (payload : List Byte) :
    (b.putEvent owner code subject time payload).state = b.state := by
  unfold Mailbox.putEvent
  dsimp only
  repeat' split
  all_goals rfl

/-- Every mailbox is open or closed as it was. -/
def BoxesKept (s t : State) : Prop := ∀ n, (t.inst n).box.state = (s.inst n).box.state

theorem BoxesKept.trans {a b c : State} (h : BoxesKept a b) (k : BoxesKept b c) : BoxesKept a c := fun n => (k n).trans (h n)

theorem boxesKept_updInst (s : State) (n : Nat) {f : Inst → Inst} (hf : (f (s.inst n)).box.state = (s.inst n).box.state) :
    BoxesKept s (s.updInst n f) := fun m => by
  by_cases h : m = n
  · subst h
    rw [updInst_inst_same, hf]
  · rw [updInst_inst_other _ _ h]

theorem boxesKept_ringEvent (s : State) (n code subject time : Nat) (payload : List Byte) :
    BoxesKept s (s.ringEvent n code subject time payload) := by
  have hput : BoxesKept s (s.updInst n (fun i => { i with box := (s.inst n).box.putEvent n code subject time payload })) :=
    boxesKept_updInst s n (putEvent_state ..)
  unfold State.ringEvent
  dsimp only
  split
  · exact hput.trans fun m => by rw [msix_inst]
  · exact hput

theorem boxesKept_event (s : State) (code subject : Nat) (a b : Bool) (payload : List Byte) :
    BoxesKept s (s.event code subject a b payload) := by
  have hdeliver (e : HeldEvent) : BoxesKept s (s.deliver e) := by
    have hstay : BoxesKept s s := fun _ => rfl
    unfold State.deliver
    dsimp only
    split <;> split
    · exact (boxesKept_ringEvent _ _ _ _ _ _).trans (boxesKept_ringEvent _ _ _ _ _ _)
    · exact boxesKept_ringEvent _ _ _ _ _ _
    · exact boxesKept_ringEvent _ _ _ _ _ _
    · exact hstay
  unfold State.event
  dsimp only
  split
  · exact hdeliver _
  · split <;> exact fun _ => rfl

theorem boxesKept_setIState (s : State) (n : Nat) (new : IState) (cause : Nat) : BoxesKept s (s.setIState n new cause) := by
  unfold State.setIState
  dsimp only
  split
  · exact fun _ => rfl
  · exact (boxesKept_updInst s n (f := fun i => { i with state := new }) rfl).trans (boxesKept_event _ _ _ _ _ _)

-- The sequences (11 R238 to R240) -------------------------------------------------------------------------------------------------

/-- An instance after its last step to `new`: nothing else of it has moved but what its events did to its mailbox. -/
theorem settledAs (s : State) (n : Nat) (new : IState) (cause : Nat) :
    (s.setIState n new cause).inst n = { s.inst n with state := new, box := ((s.setIState n new cause).inst n).box }
    ∧ ((s.setIState n new cause).inst n).box.state = (s.inst n).box.state
    ∧ (s.setIState n new cause).queues = s.queues ∧ (s.setIState n new cause).cmds = s.cmds
    ∧ (s.setIState n new cause).rst = s.rst := by
  obtain ⟨hspoken, -⟩ := spokenOnly_setIState s n new cause
  refine ⟨(setIState_frame ..).2.2, boxesKept_setIState s n new cause n, by rw [hspoken], by rw [hspoken], by rw [hspoken]⟩

theorem advanceGen_inst (s : State) (n : Nat) : (s.advanceGen n).inst n = { s.inst n with
    gen := if (s.inst n).gen = 0xFFFF then 1 else (s.inst n).gen + 1, genWait := genNodes.filter (fun k => !s.cutOff k) } :=
  updInst_inst_same ..

theorem closeBox_inst (s : State) (n : Nat) : (s.closeBox n).inst n
    = { s.inst n with box := { (s.inst n).box with state := 0, format := 0 } } :=
  updInst_inst_same ..

/-- What creating an instance leaves of it before it is ACTIVE. -/
theorem freshInstance_inst (s : State) (n : Nat) : (s.freshInstance n).inst n = { s.inst n with
    handles := []
    sems := []
    graphs := []
    bind := []
    owned := 0
    mmu := mmuReset n
    limits := s.dictLimits n
    box := { (s.inst n).box with state := 0, format := 0 }
    lost := []
    frozenAt := 0
    restored := false
    freezeUntil := 0
    haltFreeze := false
    gen := if (s.inst n).gen = 0xFFFF then 1 else (s.inst n).gen + 1
    genWait := ((s.freshInstance n).inst n).genWait } := by
  unfold State.freshInstance
  rw [advanceGen_inst, updInst_inst_same]

theorem releaseContracts_frame (s : State) (n : Nat) : s.releaseContracts n = { s with contracts := (s.releaseContracts n).contracts } := by
  have hone (u : State) (id : Nat) : u.releaseContract id = { u with contracts := (u.releaseContract id).contracts } := by
    unfold State.releaseContract
    rw [sweepContract_frame]
    rfl
  have hall (l : List Nat) (u : State) : l.foldl State.releaseContract u = { u with contracts := (l.foldl State.releaseContract u).contracts } := by
    induction l generalizing u with
    | nil => rfl
    | cons id l ih =>
      rw [List.foldl_cons, ih, hone u id]
  exact hall _ s

theorem dropQueues_queues (s : State) (n : Nat) : ∀ e ∈ (s.dropQueues n).queues, e.2.inst ≠ n := fun e he => by
  have := (List.mem_filter.1 he).2
  simpa using this

/-- An instance quiesced. -/
theorem quiesce_spec (s : State) (n : Nat) : ((s.quiesce n).inst n).state = .quiesced
    ∧ ((s.quiesce n).inst n).gen = (if (s.inst n).gen = 0xFFFF then 1 else (s.inst n).gen + 1)
    ∧ ((s.quiesce n).inst n).owned = 0 ∧ ((s.quiesce n).inst n).bind = [] ∧ ((s.quiesce n).inst n).graphs = []
    ∧ ((s.quiesce n).inst n).sems = [] ∧ ((s.quiesce n).inst n).box.state = 0 ∧ ∀ e ∈ (s.quiesce n).queues, e.2.inst ≠ n := by
  have hstart := (settledAs s n .quiescing 0).1
  have hend := (gensKept_endInstance (s.setIState n .quiescing 0) n 2).2 n
  unfold State.quiesce
  dsimp only
  generalize (s.setIState n .quiescing 0).endInstance n 2 = s1 at *
  have hgen1 : (s1.inst n).gen = (s.inst n).gen := by rw [hend, hstart]
  have hgen2 : ((s1.releaseContracts n).inst n).gen = (s.inst n).gen := by
    rw [releaseContracts_frame]
    exact hgen1
  generalize s1.releaseContracts n = s2 at *
  generalize h3 : s2.updInst n (fun i => { i with bind := [], owned := 0 }) = s3
  have hinst3 : s3.inst n = { s2.inst n with bind := [], owned := 0 } := by rw [← h3, updInst_inst_same]
  generalize h4 : (s3.dropQueues n).dropGraphs n = s4
  have hinst4 : s4.inst n = { s3.inst n with graphs := [] } := by
    rw [← h4]
    exact updInst_inst_same (s3.dropQueues n) n (fun i => { i with graphs := [] })
  have hqueues4 : s4.queues = (s3.dropQueues n).queues := by rw [← h4]; rfl
  generalize h5 : s4.updInst n (fun i => clearFreeze { i with handles := freeHandles i.handles, sems := [] }) = s5
  have hinst5 : s5.inst n = clearFreeze { s4.inst n with handles := freeHandles (s4.inst n).handles, sems := [] } := by
    rw [← h5, updInst_inst_same]
  have hqueues5 : s5.queues = s4.queues := by rw [← h5]; rfl
  obtain ⟨hlast, hbox, hqueues, -, -⟩ := settledAs ((s5.closeBox n).advanceGen n) n .quiesced 0
  rw [hlast]
  dsimp only
  rw [hbox, hqueues, advanceGen_inst, closeBox_inst, hinst5]
  unfold clearFreeze
  dsimp only
  rw [hinst4, hinst3]
  dsimp only
  rw [hgen2]
  refine ⟨rfl, rfl, rfl, rfl, rfl, rfl, rfl, fun e he => dropQueues_queues s3 n e ?_⟩
  rw [← hqueues4, ← hqueues5]
  exact he

/-- What the reset of an instance at level L3 does once its work has ended (17 R370). -/
def renewInstance (s1 : State) (n cause : Nat) : State :=
  let s2 := (s1.advanceGen n).releaseContracts n
  let s3 := s2.dropQueues n
  let s4 := (tabKeys (s3.inst n).graphs).foldl (State.releaseVersions · n) s3
  let s5 := s4.updInst n (fun i => clearEmu (clearFreeze { i with
    handles := freeHandles i.handles, sems := [], bind := [], mmu := mmuReset n }))
  let s6 := { (s5.closeBox n) with rst := { s5.rst with counts := bump s5.rst.counts 3 (· + 1) } }
  s6.setIState n .active cause

theorem resetInstance_eq {s : State} {n : Nat} (habsent : (s.inst n).state ≠ .absent) (cause : Nat) : s.resetInstance n cause
    = renewInstance (if (s.inst n).state == .resetting then s else s.beginReset n cause) n cause :=
  if_neg (by rw [beq_iff_eq]; exact habsent)

theorem renewInstance_spec (s1 : State) (n cause : Nat) : ((renewInstance s1 n cause).inst n).state = .active
    ∧ ((renewInstance s1 n cause).inst n).gen = (if (s1.inst n).gen = 0xFFFF then 1 else (s1.inst n).gen + 1)
    ∧ ((renewInstance s1 n cause).inst n).bind = [] ∧ ((renewInstance s1 n cause).inst n).mmu = mmuReset n
    ∧ ((renewInstance s1 n cause).inst n).box.state = 0 ∧ ((renewInstance s1 n cause).inst n).sems = []
    ∧ (∀ e ∈ (renewInstance s1 n cause).queues, e.2.inst ≠ n)
    ∧ (renewInstance s1 n cause).rst = { s1.rst with counts := bump s1.rst.counts 3 (· + 1) } := by
  unfold renewInstance
  dsimp only
  generalize h2 : (s1.advanceGen n).releaseContracts n = s2
  have hgen2 : (s2.inst n).gen = (if (s1.inst n).gen = 0xFFFF then 1 else (s1.inst n).gen + 1) := by
    rw [← h2, releaseContracts_frame]
    show ((s1.advanceGen n).inst n).gen = _
    rw [advanceGen_inst]
  have hrst2 : s2.rst = s1.rst := by
    rw [← h2, releaseContracts_frame]
    rfl
  have hreleased := droppedOnly_foldl (fun t g => t.releaseVersions n g) (fun t g => droppedOnly_releaseVersions ..)
    (tabKeys ((s2.dropQueues n).inst n).graphs) (s2.dropQueues n)
  generalize (tabKeys ((s2.dropQueues n).inst n).graphs).foldl (fun t g => t.releaseVersions n g) (s2.dropQueues n) = s4 at *
  obtain ⟨hframe4, hinst4⟩ := hreleased
  have hgen4 : (s4.inst n).gen = (if (s1.inst n).gen = 0xFFFF then 1 else (s1.inst n).gen + 1) := by
    rw [hinst4 n]
    exact hgen2
  have hrst4 : s4.rst = s1.rst := by
    rw [hframe4]
    exact hrst2
  have hqueues4 : s4.queues = (s2.dropQueues n).queues := by rw [hframe4]
  generalize h5 : s4.updInst n (fun i => clearEmu (clearFreeze { i with
    handles := freeHandles i.handles, sems := [], bind := [], mmu := mmuReset n })) = s5
  have hinst5 : s5.inst n = clearEmu (clearFreeze { s4.inst n with
      handles := freeHandles (s4.inst n).handles, sems := [], bind := [], mmu := mmuReset n }) := by
    rw [← h5, updInst_inst_same]
  have hqueues5 : s5.queues = s4.queues := by rw [← h5]; rfl
  have hrst5 : s5.rst = s1.rst := by rw [← h5]; exact hrst4
  obtain ⟨hlast, hbox, hqueues, -, hrst⟩ := settledAs { s5.closeBox n with rst := { s5.rst with counts := bump s5.rst.counts 3 (· + 1) } }
    n .active cause
  have hinst6 : ({ s5.closeBox n with rst := { s5.rst with counts := bump s5.rst.counts 3 (· + 1) } } : State).inst n
      = { s5.inst n with box := { (s5.inst n).box with state := 0, format := 0 } } := closeBox_inst s5 n
  rw [hlast]
  dsimp only
  rw [hbox, hqueues, hrst, hinst6, hinst5]
  unfold clearEmu clearFreeze
  dsimp only
  refine ⟨rfl, hgen4, rfl, rfl, rfl, rfl, fun e he => dropQueues_queues s2 n e ?_, ?_⟩
  · rw [← hqueues4, ← hqueues5]
    exact he
  · rw [hrst5]

/-- An instance reset at level L3, its work ended. -/
theorem resetInstance_spec {s : State} {n : Nat} (habsent : (s.inst n).state ≠ .absent) (cause : Nat) :
    ((s.resetInstance n cause).inst n).state = .active
    ∧ ((s.resetInstance n cause).inst n).gen = (if (s.inst n).gen = 0xFFFF then 1 else (s.inst n).gen + 1)
    ∧ ((s.resetInstance n cause).inst n).bind = [] ∧ ((s.resetInstance n cause).inst n).mmu = mmuReset n
    ∧ ((s.resetInstance n cause).inst n).box.state = 0 ∧ ((s.resetInstance n cause).inst n).sems = []
    ∧ (∀ e ∈ (s.resetInstance n cause).queues, e.2.inst ≠ n)
    ∧ (s.resetInstance n cause).rst = { s.rst with counts := bump s.rst.counts 3 (· + 1) } := by
  have hstart := (settledAs s n .resetting cause).1
  have hstartRst := (settledAs s n .resetting cause).2.2.2.2
  have hfreeze := (endFreeze_frame (s.setIState n .resetting cause) n St.instanceState []).2.2
  have hfreezeRst : ((s.setIState n .resetting cause).endFreeze n St.instanceState []).rst = s.rst := by
    rw [(spokenOnly_endFreeze ..).1]
    exact hstartRst
  have hend := gensKept_endInstance ((s.setIState n .resetting cause).endFreeze n St.instanceState []) n 3
  have hbegin : s.beginReset n cause = ((s.setIState n .resetting cause).endFreeze n St.instanceState []).endInstance n 3 := rfl
  have hended : ((s.beginReset n cause).inst n).gen = (s.inst n).gen ∧ (s.beginReset n cause).rst = s.rst :=
    ⟨by rw [hbegin, hend.2 n, hfreeze, hstart], (congrArg State.rst hbegin).trans (hend.1.trans hfreezeRst)⟩
  have hwork : ((if (s.inst n).state == .resetting then s else s.beginReset n cause).inst n).gen = (s.inst n).gen
      ∧ (if (s.inst n).state == .resetting then s else s.beginReset n cause).rst = s.rst := by
    split
    · exact ⟨rfl, rfl⟩
    · exact hended
  rw [resetInstance_eq habsent cause]
  generalize (if (s.inst n).state == .resetting then s else s.beginReset n cause) = s1 at *
  rw [← hwork.1, ← hwork.2]
  exact renewInstance_spec s1 n cause

theorem lifecycleFault_cases (s : State) (n : Nat) (states : List IState) :
    (n = 0 → s.lifecycleFault n states = some St.badInstance)
    ∧ (n ≠ 0 → (s.inst n).state ∈ states → s.lifecycleFault n states = none)
    ∧ (n ≠ 0 → (s.inst n).state ∉ states → s.lifecycleFault n states = some St.instanceState) := by
  unfold State.lifecycleFault
  refine ⟨fun hn => if_pos hn, fun hn hmem => ?_, fun hn hmem => ?_⟩
  · rw [if_neg hn, if_pos (List.contains_iff_mem.2 hmem)]
  · rw [if_neg hn, if_neg (fun h => hmem (List.contains_iff_mem.1 h))]

theorem takeRequest_createFault (s : State) (mb : Nat) (h : MsgHdr) (n : Nat) :
    (s.takeRequest mb h).createFault n = s.createFault n := by
  unfold State.createFault
  rw [takeRequest_state]
  rfl

/-- The reset of an instance that exists, behind the taken request. -/
theorem takenReset_spec {s : State} {mb : Nat} {h : MsgHdr}
    (hr : (s.inst h.target).state ∈ [IState.active, .aborted, .quiesced, .freezing, .frozen]) :
    let u := (s.takeRequest mb h).resetInstance h.target 0
    (u.inst h.target).state = .active
    ∧ (u.inst h.target).gen = (if (s.inst h.target).gen = 0xFFFF then 1 else (s.inst h.target).gen + 1)
    ∧ (u.inst h.target).bind = [] ∧ (u.inst h.target).mmu = mmuReset h.target
    ∧ (u.inst h.target).box.state = 0 ∧ (u.inst h.target).sems = []
    ∧ (∀ e ∈ u.queues, e.2.inst ≠ h.target)
    ∧ tabGetD u.rst.counts 3 0 = tabGetD s.rst.counts 3 0 + 1 := by
  have hstate : ((s.takeRequest mb h).inst h.target).state = (s.inst h.target).state := takeRequest_state ..
  have hgen : ((s.takeRequest mb h).inst h.target).gen = (s.inst h.target).gen := by rw [takeRequest_inst]
  have hrst : (s.takeRequest mb h).rst = s.rst := rfl
  obtain ⟨hactive, hnew, hbind, hmmu, hbox, hsems, hqueues, hcounts⟩ := resetInstance_spec (s := s.takeRequest mb h) (n := h.target)
    (by rw [hstate]; intro habsent; rw [habsent] at hr; simp at hr) 0
  rw [hgen] at hnew
  rw [hrst] at hcounts
  exact ⟨hactive, hnew, hbind, hmmu, hbox, hsems, hqueues, (congrArg (fun r : Rst => tabGetD r.counts 3 0) hcounts).trans
    (tabGetD_bump_same s.rst.counts 3 (· + 1))⟩

/-- INSTANCE_QUIESCE with its checks passed runs the sequence or answers the fault that its state gives. -/
theorem exec_instanceQuiesce {s : State} {mb : Fin 33} {h : MsgHdr} {p : List Byte}
    (hacc : Sys2Proof.Safety.Accepted s mb.val h p kInstanceQuiesce) (hphase : s.rst.phase = .none) :
    ((s.takeRequest mb.val h).lifecycleFault h.target [.active, .aborted, .frozen] = none →
      exec (.instanceQuiesce mb h p) s = .next (((s.takeRequest mb.val h).quiesce h.target).reply mb.val h St.ok []))
    ∧ (∀ st, (s.takeRequest mb.val h).lifecycleFault h.target [.active, .aborted, .frozen] = some st →
      exec (.instanceQuiesce mb h p) s = .next ((s.takeRequest mb.val h).reply mb.val h st [])) := by
  have hidle : ¬ ((s.rst.phase != .none) = true) := by rw [hphase]; decide
  refine ⟨fun hnone => ?_, fun st hsome => ?_⟩
  all_goals
    simp only [exec, execInstanceQuiesce]
    rw [if_neg hidle]
    refine congrArg _ (message_replies hacc ?_)
  · simp only [hnone]
    rfl
  · simp only [hsome]
    rfl

/-- INSTANCE_REMOVE with its checks passed. -/
theorem exec_instanceRemove {s : State} {mb : Fin 33} {h : MsgHdr} {p : List Byte}
    (hacc : Sys2Proof.Safety.Accepted s mb.val h p kInstanceRemove) :
    ((s.takeRequest mb.val h).lifecycleFault h.target [.quiesced] = none →
      exec (.instanceRemove mb h p) s = .next (((s.takeRequest mb.val h).setIState h.target .absent 0).reply mb.val h St.ok []))
    ∧ (∀ st, (s.takeRequest mb.val h).lifecycleFault h.target [.quiesced] = some st →
      exec (.instanceRemove mb h p) s = .next ((s.takeRequest mb.val h).reply mb.val h st [])) := by
  refine ⟨fun hnone => ?_, fun st hsome => ?_⟩
  all_goals
    simp only [exec, execInstanceRemove]
    refine congrArg _ (message_replies hacc ?_)
  · simp only [hnone]
    rfl
  · simp only [hsome]
    rfl

/-- INSTANCE_RESET with its checks passed; the reset of instance 0 answers nothing. -/
theorem exec_instanceReset {s : State} {mb : Fin 33} {h : MsgHdr} {p : List Byte} {resets : Bool}
    (hacc : Sys2Proof.Safety.Accepted s mb.val h p kInstanceReset) (hphase : s.rst.phase = .none)
    (hresets : [IState.active, .aborted, .quiesced, .freezing, .frozen].contains ((s.takeRequest mb.val h).inst h.target).state = resets) :
    (resets = true → h.target ≠ 0 → exec (.instanceReset mb h p) s = .next (((s.takeRequest mb.val h).resetInstance h.target 0).reply
      mb.val h St.ok (((s.takeRequest mb.val h).resetInstance h.target 0).genReply h.target)))
    ∧ (resets = true → h.target = 0 → exec (.instanceReset mb h p) s = .next ((s.takeRequest mb.val h).resetInstance h.target 0))
    ∧ (resets = false → exec (.instanceReset mb h p) s = .next ((s.takeRequest mb.val h).reply mb.val h St.instanceState [])) := by
  have hidle : ¬ ((s.rst.phase != .none) = true) := by rw [hphase]; decide
  refine ⟨fun hr hn => ?_, fun hr hn => ?_, fun hr => ?_⟩
  all_goals
    simp only [exec, execInstanceReset]
    rw [if_neg hidle]
  · refine congrArg _ (message_replies hacc ?_)
    rw [if_pos (hresets.trans hr), if_neg hn]
    rfl
  · refine congrArg _ (message_silent hacc ?_)
    rw [if_pos (hresets.trans hr), if_pos hn]
  · refine congrArg _ (message_replies hacc ?_)
    rw [if_neg (by rw [hresets, hr]; decide)]
    rfl

/-- Settles O44: each message of the life of an instance runs its sequence from the states it takes, and is refused in others. -/
theorem instanceLifecycleMessages : Obligations.InstanceLifecycleMessages := by
  intro s mb h p u0 n newGen
  have hgen : (u0.inst n).gen = (s.inst n).gen := by
    show ((s.takeRequest mb.val h).inst n).gen = _
    rw [takeRequest_inst]
  have hstate : (u0.inst n).state = (s.inst n).state := takeRequest_state ..
  refine ⟨fun hthawed hacc => ?close, fun hacc => ⟨fun hfault => ?create, fun st hfault => ?refused⟩, fun hacc hphase => ?quiesce_,
    fun hacc => ?remove, fun hacc hphase => ?reset⟩
  case close =>
    have hexec : exec (.mailboxClose mb h p) s = .next ((u0.reply mb.val h St.ok []).closeBox mb.val) := by
      refine congrArg _ (message_silent hacc ?_)
      exact unfrozen_runs (by rw [takeRequest_freezes]; exact hthawed) _
    have hinst := closeBox_inst (u0.reply mb.val h St.ok []) mb.val
    have hfep : (u0.reply mb.val h St.ok []).fep = s.fep := by
      rw [(reply_frame ..).1]
      rfl
    refine ⟨_, hexec, ?_, ?_, ?_, ?_⟩
    · unfold State.closeBox State.updInst
      rw [hfep]
    · rw [hinst]
    · rw [hinst]
    · rw [hinst]
  case create =>
    have hfault' : u0.createFault n = none := (takeRequest_createFault ..).trans hfault
    have hexec : exec (.instanceCreate mb h p) s = .next (((u0.freshInstance n).setIState n .active 0).reply mb.val h St.ok
        (((u0.freshInstance n).setIState n .active 0).genReply n)) := by
      refine congrArg _ (message_replies hacc ?_)
      simp only [u0, n] at hfault'
      simp only [hfault']
      rfl
    have hfresh := freshInstance_inst u0 n
    have hview : view ((u0.freshInstance n).setIState n .active 0) = view s := by simp [u0]
    obtain ⟨hlast, hbox, hqueues, hcmds, -⟩ := settledAs (u0.freshInstance n) n .active 0
    have hnew : (((u0.freshInstance n).setIState n .active 0).inst n).gen = newGen := by
      rw [hlast]
      dsimp only
      rw [hfresh]
      dsimp only
      rw [hgen]
    unfold State.genReply at hexec
    rw [hnew] at hexec
    refine ⟨_, hexec, still_of_view hview, ?_, hnew, ?_, ?_, ?_, ?_, ?_, ?_, ?_, hqueues, hcmds⟩
    case refine_8 => rw [hbox, hfresh]
    all_goals
      rw [hlast]
    all_goals
      dsimp only
      rw [hfresh]
    rfl
  case refused =>
    have hfault' : u0.createFault n = some st := (takeRequest_createFault ..).trans hfault
    refine congrArg _ (message_replies hacc ?_)
    simp only [u0, n] at hfault'
    simp only [hfault']
    rfl
  case quiesce_ =>
    obtain ⟨hruns, hrefused⟩ := exec_instanceQuiesce hacc hphase
    obtain ⟨hzero, htaken, hother⟩ := lifecycleFault_cases u0 n [.active, .aborted, .frozen]
    rw [hstate] at htaken hother
    refine ⟨fun hn hstates => ?_, fun hn => hrefused _ (hzero hn), fun hn h1 h2 h3 => hrefused _ (hother hn (by simp [h1, h2, h3]))⟩
    obtain ⟨hstate', hgen', hrest⟩ := quiesce_spec u0 n
    rw [hgen] at hgen'
    exact ⟨u0.quiesce n, hruns (htaken hn (by simpa using hstates)), hstate', hgen', hrest⟩
  case remove =>
    obtain ⟨hruns, hrefused⟩ := exec_instanceRemove hacc
    obtain ⟨-, htaken, hother⟩ := lifecycleFault_cases u0 n [.quiesced]
    rw [hstate] at htaken hother
    refine ⟨fun hn hq => ?_, fun hn hq => hrefused _ (hother hn (by rw [List.mem_singleton]; exact hq))⟩
    obtain ⟨hlast, -, hqueues, hcmds, -⟩ := settledAs u0 n .absent 0
    refine ⟨u0.setIState n .absent 0, hruns (htaken hn (by rw [hq]; decide)), still_of_view (by simp [u0]), ?_, hqueues, hcmds⟩
    rw [hlast]
  case reset =>
    intro resets
    have hcontains : [IState.active, .aborted, .quiesced, .freezing, .frozen].contains (u0.inst n).state = decide resets := by
      rw [hstate]
      exact List.contains_eq_mem ..
    obtain ⟨hruns, hsilent, hrefused⟩ := exec_instanceReset hacc hphase hcontains
    have hspec (hr : resets) := takenReset_spec (s := s) (mb := mb.val) (h := h) hr
    refine ⟨fun hr hn => ?_, fun hr hn => ?_, fun hr => hrefused (decide_eq_false hr)⟩
    · have hexec := hruns (decide_eq_true hr) hn
      unfold State.genReply at hexec
      rw [(hspec hr).2.1] at hexec
      exact ⟨u0.resetInstance n 0, hexec, hspec hr⟩
    · obtain ⟨h1, h2, -, -, h5, -, h7, -⟩ := hspec hr
      have hexec := hsilent (decide_eq_true hr) hn
      generalize (s.takeRequest mb.val h).resetInstance h.target 0 = t at *
      have hmanager (m : Nat) (hm : m = h.target) : (t.inst m).state = .active ∧ (t.inst m).gen = newGen
          ∧ (t.inst m).box.state = 0 ∧ ∀ e ∈ t.queues, e.2.inst ≠ m := by
        subst hm
        exact ⟨h1, h2, h5, h7⟩
      exact ⟨t, hexec, hmanager 0 hn.symm⟩

end Sys2Proof.Proofs
end

section
/-! PROOFS. Partition and binding messages (obligation O45). -/
namespace Sys2Proof.Proofs
open Sys2Proof Sys2Proof.Machine Sys2Proof.Safety Sys2Proof.Laws

@[simp] theorem takeRequest_bindable (s : State) (mb : Nat) (h : MsgHdr) (n : Nat) :
    (s.takeRequest mb h).bindable n = s.bindable n := by
  unfold State.bindable
  rw [takeRequest_state]

@[simp] theorem asked_bindable (s : State) (mb : Nat) (h : MsgHdr) (n : Nat) : (asked s mb h).bindable n = s.bindable n := by
  unfold State.bindable
  rw [asked_state]

@[simp] theorem takeRequest_owned (s : State) (mb : Nat) (h : MsgHdr) (n : Nat) :
    ((s.takeRequest mb h).inst n).owned = (s.inst n).owned := by rw [takeRequest_inst]

@[simp] theorem asked_bindWord (s : State) (mb : Nat) (h : MsgHdr) (n r : Nat) :
    (asked s mb h).bindWord n r = s.bindWord n r := by
  unfold State.bindWord
  rw [asked_inst]

theorem setBind_bindWord_same (s : State) (n r : Nat) (w : BitVec 32) : (s.setBind n r w).bindWord n r = w := by
  unfold State.bindWord State.setBind
  rw [updInst_inst_same]
  exact tabGetD_set_same ..

theorem setBind_bindWord_other (s : State) (n : Nat) {r j : Nat} (w : BitVec 32) (hj : j ≠ r) :
    (s.setBind n r w).bindWord n j = s.bindWord n j := by
  unfold State.bindWord State.setBind
  rw [updInst_inst_same]
  exact tabGetD_set_other _ _ _ hj

theorem setBind_owned (s : State) (n r m : Nat) (w : BitVec 32) : ((s.setBind n r w).inst m).owned = (s.inst m).owned := by
  unfold State.setBind
  by_cases hm : m = n
  · subst hm
    rw [updInst_inst_same]
  · rw [updInst_inst_other _ _ hm]

/-- A partition that is powered up again changes no instance. -/
theorem ungateNow_insts (s : State) (p : Nat) : (s.ungateNow p).insts = s.insts := by
  unfold State.ungateNow State.refillGens
  split <;> rfl

theorem ungateBound_insts (s : State) (n : Nat) : (s.ungateBound n).insts = s.insts := by
  unfold State.ungateBound
  refine List.foldlRecOn (motive := fun (t : State) => t.insts = s.insts) _ _ rfl (fun t ht p _ => ?_)
  rw [ungateNow_insts, ht]

/-- A role that is bound has its word, and no other word of the instance changes (07 R155). -/
theorem bindRole_words {s u : State} {n r : Nat} {w : BitVec 32} (hu : s.bindRole n r w = .ok u) :
    u.bindWord n r = w ∧ ∀ j, j ≠ r → u.bindWord n j = s.bindWord n j := by
  have hsame : ∀ j, (((s.setBind n r w).ungateBound n).bindWord n j) = (s.setBind n r w).bindWord n j := fun j => by
    unfold State.bindWord State.inst
    rw [ungateBound_insts]
  unfold State.bindRole at hu
  split at hu
  · exact absurd hu (by simp)
  · dsimp only at hu
    split at hu
    · exact absurd hu (by simp)
    · obtain rfl : (s.setBind n r w).ungateBound n = u := by simpa using hu
      exact ⟨(hsame r).trans (setBind_bindWord_same ..), fun j hj => (hsame j).trans (setBind_bindWord_other _ _ _ hj)⟩

theorem bindRole_fault {s : State} {n r : Nat} {w : BitVec 32} {st : Status} (hst : s.bindFault n r w = some st) :
    s.bindRole n r w = .error st := by
  unfold State.bindRole
  rw [hst]

theorem and_not_of_and_eq_zero {n : Nat} {a m : BitVec n} (h : a &&& m = 0) : a &&& ~~~ m = a := by
  ext i hi
  have hbit : (a &&& m)[i] = (0 : BitVec n)[i] := by rw [h]
  simp only [BitVec.getElem_and, BitVec.ofNat_eq_ofNat, BitVec.getElem_zero] at hbit
  rw [BitVec.getElem_and, BitVec.getElem_not]
  cases ha : a[i] <;> simp_all

/-- Partitions revoked are taken from the owned set (11 R242). -/
theorem revoke_owned {s u : State} {n : Nat} {m : BitVec 16} (hu : s.revoke n m = .ok u) :
    (u.inst n).owned = (s.inst n).owned &&& ~~~ m := by
  unfold State.revoke at hu
  dsimp only at hu
  split at hu
  · exact absurd hu (by simp)
  · split at hu
    · exact absurd hu (by simp)
    · generalize hhits : List.foldl _ s _ = s1 at hu
      have howned : (s1.inst n).owned = (s.inst n).owned := by
        rw [← hhits]
        refine List.foldlRecOn (motive := fun (t : State) => (t.inst n).owned = (s.inst n).owned) _ _ rfl (fun t ht e _ => ?_)
        rw [setBind_owned, ht]
      split at hu
      next hnone =>
        obtain rfl : s1 = u := by simpa using hu
        rw [howned]
        exact (and_not_of_and_eq_zero hnone).symm
      next =>
        obtain rfl : _ = u := by simpa using hu
        rw [(event_insts ..).eq n, updInst_inst_same]
        dsimp only
        rw [howned]

/-- Settles O45: each message about partitions and bindings acts in a state that takes bindings, and is refused in another. -/
theorem partitionAndBindingMessages : Obligations.PartitionAndBindingMessages := by
  intro s mb h p u0 u1 n
  refine ⟨fun hstate => ⟨fun hacc => ?_, fun hacc => ?_, fun hport => ?_, fun hport => ?_⟩, fun hstate hacc => ?assign,
    fun hstate hacc => ?revoke, fun hstate hport => ?bind, fun hstate hport => ?unbind⟩
  · refine congrArg _ (message_replies hacc ?_)
    dsimp only
    rw [takeRequest_bindable, hstate]
    rfl
  · refine congrArg _ (message_replies hacc ?_)
    rw [takeRequest_bindable, hstate]
    rfl
  · refine congrArg _ (port_refuses hport ?_)
    unfold roleBindBody
    rw [asked_bindable, hstate]
    rfl
  · refine congrArg _ (port_refuses hport ?_)
    unfold roleUnbindBody
    dsimp only
    rw [asked_bindable, hstate]
    rfl
  case assign =>
    intro m
    have hbindable : (!u0.bindable n) = false := by
      show (!(s.takeRequest mb.val h).bindable n) = false
      rw [takeRequest_bindable, hstate]
      rfl
    have hretired : (leadersOf (BitVec.ofNat 16 (field (carried s mb.val h p kPartAssign) 0 2))).any
        (fun k => ((s.takeRequest mb.val h).part k).retired) = (leadersOf m).any (fun k => (s.part k).retired) := rfl
    refine ⟨fun hin => ?_, fun hout => ?_⟩
    · have hexec : exec (.partAssign mb h p) s = .next ((u0.updInst n (fun i => { i with owned := i.owned ||| m })).reply mb.val h St.ok
          ((u0.updInst n (fun i => { i with owned := i.owned ||| m })).ownedReply n)) := by
        refine congrArg _ (message_replies hacc ?_)
        refine (if_neg (by rw [hbindable]; decide)).trans (if_neg ?_)
        rw [hretired, List.any_eq_true]
        rintro ⟨k, hk, hr⟩
        rw [hin k hk] at hr
        exact Bool.false_ne_true hr
      have hinst : (u0.updInst n (fun i => { i with owned := i.owned ||| m })).inst n = { u0.inst n with owned := (s.inst n).owned ||| m } := by
        rw [updInst_inst_same]
        show { u0.inst n with owned := ((s.takeRequest mb.val h).inst n).owned ||| m } = _
        rw [takeRequest_owned]
      unfold State.ownedReply at hexec
      rw [hinst] at hexec
      exact ⟨_, hexec, rfl, by rw [hinst], fun j hj => updInst_inst_other _ _ hj⟩
    · refine congrArg _ (message_replies hacc ?_)
      refine (if_neg (by rw [hbindable]; decide)).trans (if_pos ?_)
      rw [hretired, List.any_eq_true]
      exact hout
  case revoke =>
    intro m
    have hbindable : (!(s.takeRequest mb.val h).bindable h.target) = false := by
      rw [takeRequest_bindable, hstate]
      rfl
    refine ⟨fun u hu => ?_, fun st hst => ?_⟩
    · have howned := revoke_owned hu
      have hrequest : (u0.inst n).owned = (s.inst n).owned := takeRequest_owned ..
      rw [hrequest] at howned
      refine ⟨congrArg _ (message_replies hacc ?_), still_of_view ((view_State_revoke _ _ _ hu).trans (by simp [u0])), howned⟩
      refine (if_neg (by rw [hbindable]; decide)).trans ?_
      rw [← howned]
      exact congrArg (fun r => applyOr u0 r (fun u => u.ownedReply n)) hu
    · refine congrArg _ (message_replies hacc ?_)
      refine (if_neg (by rw [hbindable]; decide)).trans ?_
      exact congrArg (fun r => applyOr u0 r (fun u => u.ownedReply n)) hst
  case bind =>
    intro b r w
    have hbody (res : Except Status State) (hres : u1.bindRole n r w = res) : roleBindBody n u1 b = applyOr u1 res (fun _ => []) := by
      refine (if_neg (by rw [asked_bindable, hstate]; decide)).trans ?_
      rw [← hres]
    refine ⟨fun u hu => ?_, fun st hst => congrArg _ (port_replies hport (hbody _ hst)),
      fun st hst => congrArg _ (port_replies hport (hbody _ (bindRole_fault hst)))⟩
    obtain ⟨hsame, hother⟩ := bindRole_words hu
    refine ⟨congrArg _ (port_replies hport (hbody _ hu)), still_of_view ((view_State_bindRole _ _ _ _ hu).trans (asked_view ..)), hsame,
      fun j hj => ?_⟩
    rw [hother j hj]
    exact asked_bindWord ..
  case unbind =>
    intro r
    have hbindable : ¬ ((!u1.bindable n) = true) := by
      show ¬ ((!(asked s mb.val h).bindable n) = true)
      rw [asked_bindable, hstate]
      decide
    refine ⟨fun hr hfree => ?_, fun hr => ?_, fun hr hheld => ?_⟩
    · refine ⟨u1.setBind n r 0, congrArg _ (port_replies hport ?_), rfl, setBind_bindWord_same .., fun j hj => ?_⟩
      · refine (if_neg hbindable).trans ((if_neg (by omega)).trans (if_neg ?_))
        show ¬ ((!(u1.contractsOn n r).isEmpty) = true)
        rw [hfree]
        decide
      · rw [setBind_bindWord_other _ _ _ hj]
        exact asked_bindWord ..
    · exact congrArg _ (port_refuses hport ((if_neg hbindable).trans (if_pos hr)))
    · refine congrArg _ (port_refuses hport ((if_neg hbindable).trans ((if_neg (by omega)).trans (if_pos ?_))))
      simpa using hheld

end Sys2Proof.Proofs
end

section
/-! PROOFS. What the work of the FEP leaves of the instances and of Topcoat's own record. -/
namespace Sys2Proof.Proofs
open Sys2Proof Sys2Proof.Machine Sys2Proof.Safety Sys2Proof.Laws

/-- Of an instance only its mailbox, semaphores, graphs, translations and count of stale commands differ, and of Topcoat's record
only the events held. -/
def WorkOnly (s t : State) : Prop :=
  (∀ n, t.inst n = { s.inst n with
      box := (t.inst n).box
      sems := (t.inst n).sems
      graphs := (t.inst n).graphs
      mmu := (t.inst n).mmu
      stale := (t.inst n).stale })
  ∧ SameMgc s.mgc t.mgc

theorem WorkOnly.refl (s : State) : WorkOnly s s := ⟨fun _ => rfl, rfl⟩

theorem WorkOnly.trans {a b c : State} (h : WorkOnly a b) (k : WorkOnly b c) : WorkOnly a c :=
  ⟨fun n => by rw [k.1 n, h.1 n], SameMgc.trans h.2 k.2⟩

theorem workOnly_foldl {α : Type} (g : State → α → State) (hg : ∀ t x, WorkOnly t (g t x)) (l : List α) (s : State) :
    WorkOnly s (l.foldl g s) := by
  induction l generalizing s with
  | nil => exact .refl s
  | cons x l ih => exact (hg s x).trans (ih _)

theorem workOnly_ite {p : Prop} [Decidable p] {s a b : State} (ha : WorkOnly s a) (hb : WorkOnly s b) : WorkOnly s (if p then a else b) := by
  split
  · exact ha
  · exact hb

theorem workOnly_of_insts {s t : State} (h : t.insts = s.insts) (hmgc : t.mgc = s.mgc) : WorkOnly s t := by
  refine ⟨fun n => ?_, ?_⟩
  · unfold State.inst
    rw [h]
  · rw [hmgc]
    exact rfl

theorem workOnly_updInst (s : State) (n : Nat) {f : Inst → Inst} (hf : ∀ i, f i = { i with
    box := (f i).box, sems := (f i).sems, graphs := (f i).graphs, mmu := (f i).mmu, stale := (f i).stale }) :
    WorkOnly s (s.updInst n f) := by
  refine ⟨fun m => ?_, rfl⟩
  by_cases h : m = n
  · subst h
    rw [updInst_inst_same]
    exact hf _
  · rw [updInst_inst_other _ _ h]

theorem workOnly_event (s : State) (code subject : Nat) (a b : Bool) (payload : List Byte) :
    WorkOnly s (s.event code subject a b payload) :=
  ⟨fun n => by rw [(event_insts ..).eq n], event_mgc ..⟩

theorem workOnly_of_semsGraphs {s t : State} (h : SemsGraphs s t) (hmgc : t.mgc = s.mgc) : WorkOnly s t :=
  ⟨fun n => by rw [h n], by rw [hmgc]; exact rfl⟩

theorem GivenBack.work {c : Cmd} {s t : State} (h : GivenBack c s t) : WorkOnly s t :=
  ⟨fun n => by rw [h.insts n], by rw [h.only]; exact rfl⟩

theorem GuiltOnly.work {s t : State} (h : GuiltOnly s t) : WorkOnly s t :=
  ⟨fun n => by rw [h.2 n], by rw [h.1]; exact rfl⟩

theorem CachesOnly.work {s t : State} (h : CachesOnly s t) : WorkOnly s t :=
  ⟨fun n => by rw [h.2 n], by rw [h.1]; exact rfl⟩

theorem PowerOnly.work {s t : State} (h : PowerOnly s t) : WorkOnly s t := by
  obtain ⟨-, hinsts, -, hmgc⟩ := h
  exact ⟨fun n => by rw [hinsts.eq n], hmgc⟩

theorem workOnly_breakQueue (s : State) (slot : Nat) (st : Status) : WorkOnly s (s.breakQueue slot st) := by
  unfold State.breakQueue
  split
  · exact .refl s
  · split
    · exact .refl s
    · exact (workOnly_of_insts (t := s.updQueue slot _) rfl rfl).trans (workOnly_event ..)

theorem workOnly_writeExtent (s : State) (n dva : Nat) (bs : List Byte) (fuel : Nat) : WorkOnly s (s.writeExtent n dva bs fuel).1 := by
  induction fuel generalizing s dva bs with
  | zero => exact .refl s
  | succ fuel ih =>
    have hx := (cachesOnly_xlated s n 19 dva).work
    unfold State.writeExtent
    split
    · exact .refl s
    · dsimp only
      split
      · exact .refl s
      · refine (hx.trans ?_).trans (ih _ _ _)
        rw [(storePriv_frame ..).1]
        exact workOnly_of_insts rfl rfl
      · split
        · refine (hx.trans ?_).trans (ih _ _ _)
          rw [extentOnly_hostPost]
          exact workOnly_of_insts (hostPost_insts ..) rfl
        · exact .refl s

theorem workOnly_writeDva {s t : State} {n dva : Nat} {bs : List Byte} {f : Option XFault} (h : s.writeDva n dva bs = (t, f)) :
    WorkOnly s t := by
  have hwrite := workOnly_writeExtent s n dva bs (pagesOf bs.length)
  rw [State.writeDva] at h
  rw [h] at hwrite
  exact hwrite

theorem workOnly_mmuFault (s : State) (n : Nat) (f : XFault) (write : Bool) (initiator part slot seq : Nat) :
    WorkOnly s (s.mmuFault n f write initiator part slot seq) := by
  unfold State.mmuFault
  dsimp only
  split
  · generalize hu : (if (s.inst n).mmu.faultValid then s else s.updInst n _) = u
    have hs : WorkOnly s u := by
      rw [← hu]
      split
      · exact .refl s
      · exact workOnly_updInst s n fun _ => rfl
    split
    · exact hs
    · exact hs.trans (workOnly_event ..)
  · exact .refl s

theorem workOnly_landRecord (s : State) (n a : Nat) (bs : List Byte) (st : Status) : WorkOnly s (s.landRecord n a bs st).1 := by
  unfold State.landRecord
  split
  · exact .refl s
  · split
    next t h => exact workOnly_writeDva h
    next t f h => exact (workOnly_writeDva h).trans (workOnly_mmuFault ..)

theorem workOnly_writeMirror (s : State) (n i slot seq : Nat) : WorkOnly s (s.writeMirror n i slot seq) := by
  unfold State.writeMirror
  split
  · exact .refl s
  · split
    next t h => exact workOnly_writeDva h
    next t f h => exact (workOnly_writeDva h).trans (workOnly_mmuFault ..)

theorem workOnly_signalSem (s : State) (n i v slot seq : Nat) : WorkOnly s (s.signalSem n i v slot seq) := by
  have hwrite (v : BitVec 64) : WorkOnly s (s.writeSem n i v) :=
    workOnly_of_semsGraphs (SemsGraphs.trans (semsGraphs_setSem _ _ _ _) (semsGraphs_wake _ _ _ _)) (by rw [wakesOnly_writeSem])
  unfold State.signalSem
  split
  · exact (hwrite _).trans (workOnly_writeMirror ..)
  · exact .refl s

theorem workOnly_queueIrq (s : State) (slot : Nat) (flagged : Bool) : WorkOnly s (s.queueIrq slot flagged) := by
  rw [queueIrq_frame]
  exact workOnly_of_insts rfl rfl

/-- A command completed: signalled, its interrupt raised and what it held given back. -/
theorem workOnly_completeCmd (s : State) (c : Cmd) : WorkOnly s (s.completeCmd c) := by
  have hback (u : State) : WorkOnly u ((u.giveBack c).settleRefused c.slot) := (givenBack u c).work.trans (guiltOnly_settle _ c.slot _).work
  have hirq (u : State) : WorkOnly u (if c.recordLost then u else u.queueIrq c.slot c.irq) := workOnly_ite (.refl u) (workOnly_queueIrq ..)
  cases hsig : c.sigSem with
  | none =>
    rw [completeCmd_silent s hsig]
    exact (hirq s).trans (hback _)
  | some p =>
    unfold State.completeCmd
    simp only [hsig]
    exact ((workOnly_ite (.refl s) (workOnly_signalSem ..)).trans (hirq _)).trans (hback _)

theorem workOnly_logLate (s : State) (c : Cmd) : WorkOnly s (s.logLate c) := by
  rw [logLate_frame]
  exact workOnly_of_insts rfl rfl

theorem workOnly_completionRecordWrite (s : State) (slot seq : Nat) : WorkOnly s (completionRecordWrite slot seq s) := by
  unfold completionRecordWrite
  split
  · dsimp only
    split
    · exact .refl s
    · split
      · exact (givenBack s _).work.trans (workOnly_updInst _ _ fun _ => rfl)
      · split
        · exact (workOnly_logLate ..).trans (workOnly_completeCmd ..)
        · exact (workOnly_of_insts (t := s.onThread 6 _) rfl rfl).trans ((workOnly_logLate ..).trans (workOnly_of_insts rfl rfl))
  · exact .refl s

theorem workOnly_recordAck (s : State) (slot seq : Nat) (st : Status) : WorkOnly s (recordAck slot seq st s) := by
  unfold recordAck
  split
  · exact .refl s
  · split
    · exact .refl s
    · split
      · exact .refl s
      · dsimp only
        rename_i c _ _ a bs _ _
        have hland := workOnly_landRecord s c.inst a bs st
        generalize s.landRecord c.inst a bs st = r at *
        have hset (u : State) (x : Cmd) : WorkOnly u (u.setCmd x) := workOnly_of_insts rfl rfl
        have hacked (x : Cmd) := (hland.trans (workOnly_ite (p := decide (r.2 ≠ St.ok) = true) (workOnly_breakQueue r.1 slot r.2) (.refl r.1))).trans (hset _ x)
        exact workOnly_ite ((hacked _).trans (workOnly_completeCmd ..)) (hacked _)

theorem workOnly_writePending (s : State) (slot : Nat) : WorkOnly s (s.writePending slot) :=
  workOnly_foldl _ (fun _ _ => workOnly_foldl _ (fun _ _ => (workOnly_completionRecordWrite ..).trans (workOnly_recordAck ..)) _ _) _ _

end Sys2Proof.Proofs
end

section
/-! PROOFS. FREEZE and SAVE (12 R252, R253, R256, R257). -/
namespace Sys2Proof.Proofs
open Sys2Proof Sys2Proof.Machine Sys2Proof.Safety Sys2Proof.Laws

-- FREEZE (12 R252, R253) ------------------------------------------------------------------------------------------------------

theorem putEvent_outProd (b : Mailbox) (owner code subject time : Nat) (payload : List Byte) :
    (b.putEvent owner code subject time payload).outProd = b.outProd := by
  unfold Mailbox.putEvent
  dsimp only
  repeat' split
  all_goals rfl

/-- No reply ring has moved on. -/
def RingsKept (s t : State) : Prop := ∀ n, (t.inst n).box.outProd = (s.inst n).box.outProd

theorem RingsKept.trans {a b c : State} (h : RingsKept a b) (k : RingsKept b c) : RingsKept a c := fun n => (k n).trans (h n)

theorem ringsKept_updInst (s : State) (n : Nat) {f : Inst → Inst} (hf : (f (s.inst n)).box.outProd = (s.inst n).box.outProd) :
    RingsKept s (s.updInst n f) := fun m => by
  by_cases h : m = n
  · subst h
    rw [updInst_inst_same, hf]
  · rw [updInst_inst_other _ _ h]

theorem ringsKept_ringEvent (s : State) (n code subject time : Nat) (payload : List Byte) :
    RingsKept s (s.ringEvent n code subject time payload) := by
  have hput : RingsKept s (s.updInst n (fun i => { i with box := (s.inst n).box.putEvent n code subject time payload })) :=
    ringsKept_updInst s n (putEvent_outProd ..)
  unfold State.ringEvent
  dsimp only
  split
  · exact RingsKept.trans hput fun m => by rw [msix_inst]
  · exact hput

theorem ringsKept_event (s : State) (code subject : Nat) (a b : Bool) (payload : List Byte) :
    RingsKept s (s.event code subject a b payload) := by
  have hstay (t : State) : RingsKept t t := fun _ => rfl
  have hdeliver (e : HeldEvent) : RingsKept s (s.deliver e) := by
    unfold State.deliver
    dsimp only
    split <;> split
    · exact RingsKept.trans (ringsKept_ringEvent _ _ _ _ _ _) (ringsKept_ringEvent _ _ _ _ _ _)
    · exact ringsKept_ringEvent _ _ _ _ _ _
    · exact ringsKept_ringEvent _ _ _ _ _ _
    · exact hstay s
  unfold State.event
  dsimp only
  split
  · exact hdeliver _
  · split <;> exact fun _ => rfl

theorem ringsKept_setIState (s : State) (n : Nat) (new : IState) (cause : Nat) : RingsKept s (s.setIState n new cause) := by
  unfold State.setIState
  dsimp only
  split
  · exact fun _ => rfl
  · exact RingsKept.trans (ringsKept_updInst s n (f := fun i => { i with state := new }) rfl) (ringsKept_event _ _ _ _ _ _)

theorem ringsKept_startFreeze (s : State) (n ms : Nat) (req : Option (Nat × MsgHdr)) (halt : Bool) :
    RingsKept s (s.startFreeze n ms req halt) := by
  unfold State.startFreeze
  dsimp only
  rw [preemptParts_frame]
  refine RingsKept.trans (ringsKept_setIState s n .freezing 0) ?_
  exact ringsKept_updInst _ n (f := fun i => { i with freezeUntil := s.now + ms * 1000000, freezeReq := req, haltFreeze := halt }) rfl

/-- FREEZE with its checks passed. -/
theorem exec_freeze {s : State} {mb : Fin 33} {h : MsgHdr} {p : List Byte} (hacc : Sys2Proof.Safety.Accepted s mb.val h p kFreeze) :
    (∀ st, (s.takeRequest mb.val h).lifecycleFault h.target [.active] = some st →
      exec (.freeze mb h p) s = .next ((s.takeRequest mb.val h).reply mb.val h st []))
    ∧ ((s.takeRequest mb.val h).lifecycleFault h.target [.active] = none → ∀ ms, field (carried s mb.val h p kFreeze) 0 4 = ms →
      (10000 < ms → exec (.freeze mb h p) s = .next ((s.takeRequest mb.val h).reply mb.val h St.badField []))
      ∧ (ms ≤ 10000 → exec (.freeze mb h p) s
          = .next ((s.takeRequest mb.val h).startFreeze h.target (if ms = 0 then 100 else ms) (some (mb.val, h)) false))) := by
  refine ⟨fun st hst => ?_, fun hnone ms hms => ⟨fun hlong => ?_, fun hshort => ?_⟩⟩
  all_goals simp only [exec, execFreeze]
  · refine congrArg _ (message_replies hacc ?_)
    simp only [hst]
    rfl
  · refine congrArg _ (message_replies hacc ?_)
    simp only [hnone]
    rw [hms]
    exact if_pos hlong
  · refine congrArg _ (message_silent hacc ?_)
    simp only [hnone]
    rw [hms]
    exact if_neg (Nat.not_lt.2 hshort)

-- SAVE (12 R256, R257) ----------------------------------------------------------------------------------------------------------

/-- Of the instances only translations differ. -/
def WalksOnly (s t : State) : Prop := ∀ n, t.inst n = { s.inst n with mmu := (t.inst n).mmu }

theorem WalksOnly.trans {a b c : State} (h : WalksOnly a b) (k : WalksOnly b c) : WalksOnly a c := fun n => by rw [k n, h n]

theorem walksOnly_of_insts {s t : State} (h : t.insts = s.insts) : WalksOnly s t := fun n => by
  unfold State.inst
  rw [h]

theorem walksOnly_writeExtent (s : State) (n dva : Nat) (bs : List Byte) (fuel : Nat) : WalksOnly s (s.writeExtent n dva bs fuel).1 := by
  induction fuel generalizing s dva bs with
  | zero => exact fun _ => rfl
  | succ fuel ih =>
    have hx : WalksOnly s (s.xlated n 19 dva) := fun m => by rw [(cachesOnly_xlated s n 19 dva).2 m]
    unfold State.writeExtent
    split
    · exact fun _ => rfl
    · dsimp only
      split
      · exact fun _ => rfl
      · refine WalksOnly.trans (WalksOnly.trans hx ?_) (ih _ _ _)
        rw [(storePriv_frame ..).1]
        exact fun _ => rfl
      · split
        · refine WalksOnly.trans (WalksOnly.trans hx ?_) (ih _ _ _)
          exact walksOnly_of_insts (hostPost_insts ..)
        · exact fun _ => rfl

theorem extentOnly_writeExtent (s : State) (n dva : Nat) (bs : List Byte) (fuel : Nat) : ExtentOnly s (s.writeExtent n dva bs fuel).1 := by
  induction fuel generalizing s dva bs with
  | zero => exact rfl
  | succ fuel ih =>
    have hx := (cachesOnly_xlated s n 19 dva).extentOnly
    unfold State.writeExtent
    split
    · exact rfl
    · dsimp only
      split
      · exact rfl
      · exact (hx.trans (extentOnly_storePriv ..)).trans (ih _ _ _)
      · split
        · exact (hx.trans (extentOnly_hostPost ..)).trans (ih _ _ _)
        · exact rfl

/-- A write through a translation leaves queues, commands and all of the instances but translations. -/
theorem writeDva_work {s t : State} {n dva : Nat} {bs : List Byte} {f : Option XFault} (h : s.writeDva n dva bs = (t, f)) :
    t.queues = s.queues ∧ t.cmds = s.cmds ∧ WalksOnly s t := by
  have hwalks := walksOnly_writeExtent s n dva bs (pagesOf bs.length)
  have honly := extentOnly_writeExtent s n dva bs (pagesOf bs.length)
  rw [State.writeDva] at h
  rw [h] at hwalks honly
  unfold ExtentOnly at honly
  dsimp only at honly
  exact ⟨by rw [honly], by rw [honly], hwalks⟩

/-- One level of a walk: an error of its own, a leaf, or what the next level gives. -/
theorem walkLevel_status {c d p b : Prop} [Decidable c] [Decidable d] [Decidable p] [Decidable b] {lvl : Nat} {leaf : BitVec 64}
    {next : Except (Status × Nat) (BitVec 64)} {e : Status × Nat} (hnext : next = .error e → e.1 ≠ St.ok)
    (h : (if c then .error (St.memUncorrectable, lvl) else if d then .error (St.dvaUnmapped, lvl)
      else if p then .error (St.pteFormat, lvl) else if b then .ok leaf else next) = Except.error e) : e.1 ≠ St.ok := by
  have hformat : St.pteFormat ≠ St.ok := by decide
  have hunmapped : St.dvaUnmapped ≠ St.ok := by decide
  have huncorrectable : St.memUncorrectable ≠ St.ok := by decide
  split at h
  · obtain rfl := Except.error.inj h
    exact huncorrectable
  · split at h
    · obtain rfl := Except.error.inj h
      exact hunmapped
    · split at h
      · obtain rfl := Except.error.inj h
        exact hformat
      · split at h
        · exact absurd h (by simp)
        · exact hnext h

/-- A walk that finds no leaf ends with the status of a fault (04 R81, R84). -/
theorem walkFrom_status (s : State) (upper : Tab (BitVec 64)) (dva table lvl fuel : Nat) {e : Status × Nat}
    (h : walkFrom s upper dva table lvl fuel = .error e) : e.1 ≠ St.ok := by
  have hformat : St.pteFormat ≠ St.ok := by decide
  induction fuel generalizing table lvl with
  | zero =>
    obtain rfl := Except.error.inj h
    exact hformat
  | succ fuel ih =>
    unfold walkFrom at h
    exact walkLevel_status (ih _ _) h

theorem walk_status {s : State} {n dva : Nat} {e : Status × Nat} (h : s.walk n dva = .error e) : e.1 ≠ St.ok := by
  unfold State.walk at h
  split at h
  · obtain rfl := Except.error.inj h
    show St.pteFormat ≠ St.ok
    decide
  · exact walkFrom_status _ _ _ _ _ _ h

theorem leafOf_status {s : State} {n dva : Nat} {e : Status × Nat} (h : s.leafOf n dva = .error e) : e.1 ≠ St.ok := by
  unfold State.leafOf at h
  split at h
  · split at h
    · exact absurd h (by simp)
    · exact walk_status h
  · exact walk_status h

theorem xlate_fault_status {x st : Status} {k lvl : Nat} (hx : x ≠ St.ok) (h : Xlate.fault x k = .fault st lvl) : st ≠ St.ok := by
  obtain ⟨rfl, -⟩ := Xlate.fault.inj h
  exact hx

theorem applyLeaf_status {s : State} {l : BitVec 64} {dva lvl : Nat} {write : Bool} {st : Status}
    (h : s.applyLeaf l dva write = .fault st lvl) : st ≠ St.ok := by
  have hperm : St.dvaPerm ≠ St.ok := by decide
  unfold State.applyLeaf at h
  dsimp only at h
  generalize (if write = true then !bit l.toNat 3 else !bit l.toNat 2) = denied at h
  split at h
  · exact xlate_fault_status hperm h
  · split at h
    · exact absurd h (by simp)
    · split at h
      · exact xlate_fault_status hperm h
      · exact absurd h (by simp)

theorem translate_status {s : State} {n dva lvl : Nat} {write : Bool} {st : Status} (h : s.translate n dva write = .fault st lvl) : st ≠ St.ok := by
  have hunmapped : St.dvaUnmapped ≠ St.ok := by decide
  have hperm : St.dvaPerm ≠ St.ok := by decide
  unfold State.translate at h
  dsimp only at h
  split at h
  · exact xlate_fault_status hunmapped h
  · split at h
    · split at h
      · exact applyLeaf_status h
      next he => exact xlate_fault_status (leafOf_status he) h
    · split at h
      · split at h
        · exact absurd h (by simp)
        · split at h
          · exact xlate_fault_status hunmapped h
          · split at h
            · exact xlate_fault_status hunmapped h
            · split at h
              · exact xlate_fault_status hperm h
              · exact absurd h (by simp)
      · exact xlate_fault_status hunmapped h

theorem writeExtent_status {s : State} {n dva fuel : Nat} {bs : List Byte} {f : XFault} (h : (s.writeExtent n dva bs fuel).2 = some f) :
    f.status ≠ St.ok := by
  have hdown : St.hostLinkDown ≠ St.ok := by decide
  induction fuel generalizing s dva bs with
  | zero => exact absurd h (by simp [State.writeExtent])
  | succ fuel ih =>
    unfold State.writeExtent at h
    split at h
    · exact absurd h (by simp)
    · dsimp only at h
      split at h
      next hx =>
        obtain rfl := Option.some.inj h
        exact translate_status hx
      · exact ih h
      · split at h
        · exact ih h
        · obtain rfl := Option.some.inj h
          exact hdown

theorem writeDva_status {s t : State} {n dva : Nat} {bs : List Byte} {f : XFault} (h : s.writeDva n dva bs = (t, some f)) : f.status ≠ St.ok :=
  writeExtent_status (congrArg Prod.snd h)

theorem padTo_length (n : Nat) (bs : List Byte) : (padTo n bs).length = n := by
  simp [padTo]

theorem pieceBytes_frame (l : List Piece) (s : State) : (pieceBytes l s).2 = { s with freeCount := (pieceBytes l s).2.freeCount } := by
  induction l generalizing s with
  | nil => rfl
  | cons p l ih =>
    unfold pieceBytes
    dsimp only
    rw [ih, freeBytes_frame]

/-- The sections of a blob take their padded lengths, and only the count of free values moves. -/
theorem blobBodies_frame (n : Nat) (l : List (Nat × Nat × Nat)) (s : State) :
    (blobBodies n l s).2 = { s with freeCount := (blobBodies n l s).2.freeCount }
    ∧ ((blobBodies n l s).1.flatMap (·.2.2)).length = (l.map (fun e => pad256 e.2.2)).sum := by
  induction l generalizing s with
  | nil => exact ⟨rfl, rfl⟩
  | cons e l ih =>
    obtain ⟨ty, count, len⟩ := e
    obtain ⟨hframe, hlen⟩ := ih (pieceBytes (s.sectionPieces n ty len) s).2
    unfold blobBodies
    dsimp only
    refine ⟨by rw [hframe, pieceBytes_frame], ?_⟩
    rw [List.flatMap_cons, List.length_append, hlen, padTo_length]
    rfl

theorem saveBlob_saved {s u : State} {n dva cap : Nat} {out : List Byte} (h : s.saveBlob n dva cap = (u, St.ok, out)) (hcap : s.blobLen n ≤ cap) :
    out = leBytes 8 (s.blobLen n) ∧ u.queues = s.queues ∧ u.cmds = s.cmds ∧ WalksOnly s u := by
  unfold State.saveBlob at h
  rw [if_neg (Nat.not_lt.2 hcap)] at h
  dsimp only at h
  obtain ⟨hframe, hlen⟩ := blobBodies_frame n (s.blobSections n) s
  generalize blobBodies n (s.blobSections n) s = r at *
  split at h
  next t f hw => exact absurd (congrArg (·.2.1) h) (writeDva_status hw)
  next t hw =>
    split at h
    next v f hw' => exact absurd (congrArg (·.2.1) h) (writeDva_status hw')
    next v hw' =>
      obtain ⟨rfl, -, rfl⟩ : v = u ∧ True ∧ _ = out := by simpa using h
      obtain ⟨hq1, hc1, hi1⟩ := writeDva_work hw
      obtain ⟨hq2, hc2, hi2⟩ := writeDva_work hw'
      rw [hframe] at hq1 hc1 hi1
      refine ⟨?_, hq2.trans hq1, hc2.trans hc1, WalksOnly.trans (WalksOnly.trans (fun _ => rfl) hi1) hi2⟩
      rw [List.length_flatMap] at hlen
      rw [hlen]
      rfl

/-- SAVE with its checks passed. -/
theorem exec_save {s : State} {mb : Fin 33} {h : MsgHdr} {p : List Byte} (hacc : Sys2Proof.Safety.Accepted s mb.val h p kSave) (hruns : s.fepRuns = true) :
    let b := carried s mb.val h p kSave
    ((s.inst h.target).state ≠ .frozen → exec (.save mb h p) s = .next ((s.takeRequest mb.val h).reply mb.val h St.instanceState []))
    ∧ ((s.inst h.target).state = .frozen → field b 0 8 % 4096 ≠ 0 →
      exec (.save mb h p) s = .next ((s.takeRequest mb.val h).reply mb.val h St.badField []))
    ∧ ((s.inst h.target).state = .frozen → field b 0 8 % 4096 = 0 → ∀ u st out,
      (s.takeRequest mb.val h).saveBlob h.target (field b 0 8) (field b 8 8) = (u, st, out) →
      exec (.save mb h p) s = .next (u.reply mb.val h st out)) := by
  have hgo : ¬ ((!s.fepRuns) = true) := by rw [hruns]; decide
  intro b
  refine ⟨fun hstate => ?_, fun hstate hodd => ?_, fun hstate heven u st out hsave => ?_⟩
  all_goals
    simp only [exec, execSave]
    rw [if_neg hgo]
    refine congrArg _ (message_replies hacc ?_)
    rw [takeRequest_state]
  · exact if_pos (bne_iff_ne.2 hstate)
  · exact (if_neg (by rw [hstate]; decide)).trans (if_pos hodd)
  · refine (if_neg (by rw [hstate]; decide)).trans ((if_neg (not_not.2 heven)).trans ?_)
    exact congrArg (fun r : State × Status × List Byte => (r.1, some r.2)) hsave

end Sys2Proof.Proofs
end

section
/-! PROOFS. RESTORE (12 R262, R263). -/
namespace Sys2Proof.Proofs
open Sys2Proof Sys2Proof.Machine Sys2Proof.Safety Sys2Proof.Laws

-- RESTORE (12 R262, R263) -------------------------------------------------------------------------------------------------------

/-- The instances own the partitions that they owned. -/
def OwnersKept (s t : State) : Prop := ∀ n, (t.inst n).owned = (s.inst n).owned

theorem OwnersKept.trans {a b c : State} (h : OwnersKept a b) (k : OwnersKept b c) : OwnersKept a c := fun n => (k n).trans (h n)

theorem ownersKept_ite {p : Prop} [Decidable p] {s a b : State} (ha : OwnersKept s a) (hb : OwnersKept s b) :
    OwnersKept s (if p then a else b) := by
  split
  · exact ha
  · exact hb

theorem ownersKept_of_insts {s t : State} (h : t.insts = s.insts) : OwnersKept s t := fun n => by
  unfold State.inst
  rw [h]

theorem ownersKept_updInst (s : State) (n : Nat) {f : Inst → Inst} (hf : ∀ i, (f i).owned = i.owned) : OwnersKept s (s.updInst n f) := fun m => by
  by_cases h : m = n
  · subst h
    rw [updInst_inst_same, hf]
  · rw [updInst_inst_other _ _ h]

theorem WorkOnly.owners {s t : State} (h : WorkOnly s t) : OwnersKept s t := fun n => by rw [h.1 n]

theorem ownersKept_setIState (s : State) (n : Nat) (new : IState) (cause : Nat) : OwnersKept s (s.setIState n new cause) := by
  unfold State.setIState
  dsimp only
  split
  · exact fun _ => rfl
  · exact OwnersKept.trans (ownersKept_updInst s n (f := fun i => { i with state := new }) fun _ => rfl) (workOnly_event ..).owners

theorem setLimits_insts (s : State) (n : Nat) (l : Limits) : (s.setLimits n l).insts = (s.updInst n (fun i => { i with limits := l })).insts := by
  unfold State.setLimits
  exact List.foldlRecOn (motive := fun (t : State) => t.insts = (s.updInst n (fun i => { i with limits := l })).insts) _ _ rfl
    (fun t ht e _ => ht)

theorem placeGraphs_owners {s t : State} {n : Nat} {l : List BlobGraph} (h : s.placeGraphs n l = some t) : OwnersKept s t := by
  induction l generalizing s with
  | nil =>
    obtain rfl := Option.some.inj h
    exact fun _ => rfl
  | cons b l ih =>
    unfold State.placeGraphs at h
    split at h
    · exact absurd h (by simp)
    · dsimp only at h
      refine OwnersKept.trans ?_ (ih h)
      exact ownersKept_updInst _ n fun _ => rfl

theorem applyBinds_owners {s t : State} {n role : Nat} {l : List (BitVec 32)} (h : s.applyBinds n role l = .ok t) : OwnersKept s t := by
  induction l generalizing s role with
  | nil =>
    obtain rfl := Except.ok.inj h
    exact fun _ => rfl
  | cons w l ih =>
    unfold State.applyBinds at h
    split at h
    · exact ih h
    · split at h
      · exact absurd h (by simp)
      · exact OwnersKept.trans (fun m => setBind_owned s n role m w) (ih h)

theorem placeQueues_insts {s t : State} {n : Nat} {l : List BlobQueue} (h : s.placeQueues n l = some t) : t.insts = s.insts := by
  induction l generalizing s with
  | nil =>
    obtain rfl := Option.some.inj h
    rfl
  | cons b l ih =>
    unfold State.placeQueues at h
    split at h
    · exact absurd h (by simp)
    · dsimp only at h
      exact (ih h).trans rfl

theorem placeReplica_insts (s : State) (n : Nat) (c : Cmd) (live : Tab (List (List Byte))) (r : Replica) :
    (s.placeReplica n c live r).1.insts = s.insts := by
  unfold State.placeReplica
  split
  · rfl
  · dsimp only
    split
    · rfl
    · split
      · exact List.foldlRecOn (motive := fun (t : State) => t.insts = s.insts) _ _ rfl (fun t ht e _ => ht)
      · rfl

theorem placeReplicas_insts (s : State) (n : Nat) (c : Cmd) (live : Tab (List (List Byte))) (l : List Replica) :
    (s.placeReplicas n c live l).1.insts = s.insts := by
  induction l generalizing s with
  | nil => rfl
  | cons r l ih => exact (ih _).trans (placeReplica_insts ..)

theorem placeLaunch_insts (s : State) (n : Nat) (c : Cmd) (live : Tab (List (List Byte))) : (s.placeLaunch n c live).1.insts = s.insts := by
  unfold State.placeLaunch
  split
  · rfl
  · exact placeReplicas_insts ..

theorem endIfDone_insts (s : State) (slot seq : Nat) : (s.endIfDone slot seq).insts = s.insts := by
  have hsweep (u : State) : (u.sweepSkims slot seq).insts = u.insts := by
    unfold State.sweepSkims
    refine List.foldlRecOn (motive := fun (t : State) => t.insts = u.insts) _ _ rfl (fun t ht g _ => ?_)
    unfold State.sweepSkim
    split
    · split
      · exact ht
      · exact ht
    · exact ht
  unfold State.endIfDone
  split
  · split
    · exact endCmd_insts ..
    · exact hsweep s
  · rfl

theorem placeCmd_insts {s t : State} {n at_ : Nat} {b : BlobCmd} (h : s.placeCmd n at_ b = some t) : t.insts = s.insts := by
  unfold State.placeCmd at h
  split at h
  · exact absurd h (by simp)
  · dsimp only at h
    split at h
    · exact absurd h (by simp)
    · split at h
      · exact absurd h (by simp)
      · obtain rfl := Option.some.inj h
        exact (endIfDone_insts ..).trans (placeLaunch_insts ..)

theorem placeCmds_insts {s t : State} {n at_ : Nat} {l : List BlobCmd} (h : s.placeCmds n at_ l = some t) : t.insts = s.insts := by
  induction l generalizing s with
  | nil =>
    obtain rfl := Option.some.inj h
    rfl
  | cons b l ih =>
    unfold State.placeCmds at h
    split at h
    next hb => exact (ih h).trans (placeCmd_insts hb)
    · exact absurd h (by simp)

theorem readmit_owners (s : State) (n : Nat) (b : BlobContract) : OwnersKept s (s.readmit n b) := by
  have hlose (reason : Nat) (st : Status) (payload : List Byte) : OwnersKept s ((s.updInst n (fun i => { i with
      lost := i.lost ++ [⟨b.id, b.req, reason, st⟩] })).event Ev.contractLost n false true payload) :=
    OwnersKept.trans (ownersKept_updInst s n (f := fun i => { i with lost := i.lost ++ [⟨b.id, b.req, reason, st⟩] }) fun _ => rfl)
      (workOnly_event ..).owners
  unfold State.readmit
  dsimp only
  refine ownersKept_ite (hlose _ _ _) (ownersKept_ite (hlose _ _ _) ?_)
  split
  · exact hlose _ _ _
  · exact ownersKept_of_insts rfl

/-- The instance that a blob gives owns what RESTORE names. -/
theorem rebuildFrom_owned {s t : State} {n : Nat} {owned : BitVec 16} {binds : List (BitVec 32)} {b : Blob}
    (h : s.rebuildFrom n owned binds b = .ok t) : (t.inst n).owned = owned := by
  unfold State.rebuildFrom at h
  split at h
  · exact absurd h (by simp)
  · dsimp only at h
    generalize h1 : ((s.freshInstance n).setLimits n b.limits).updInst n _ = s1 at h
    have howned : (s1.inst n).owned = owned := by rw [← h1, updInst_inst_same]
    split at h
    · exact absurd h (by simp)
    next s2 h2 =>
      split at h
      · exact absurd h (by simp)
      next s3 h3 =>
        split at h
        · exact absurd h (by simp)
        next s4 h4 =>
          split at h
          · exact absurd h (by simp)
          next s5 h5 =>
            obtain rfl := Except.ok.inj h
            have k5 := (ownersKept_of_insts ((ungateBound_insts s5 n).trans ((placeCmds_insts h5).trans (placeQueues_insts h4)))) n
            rw [k5, applyBinds_owners h3 n, placeGraphs_owners h2 n, howned]

-- What a restore without live sets leaves of memory

theorem placeReplica_view {s : State} {n : Nat} {c : Cmd} {live : Tab (List (List Byte))} (hlive : live = []) (r : Replica) :
    view (s.placeReplica n c live r).1 = view s := by
  subst hlive
  unfold State.placeReplica
  split
  · rfl
  · dsimp only
    split
    · rfl
    · split
      · rw [show tabGetD ([] : Tab (List (List Byte))) r.idx [] = [] from rfl, List.zip_nil_right]
        simp
      · rfl

theorem placeReplicas_view {s : State} {n : Nat} {c : Cmd} {live : Tab (List (List Byte))} (hlive : live = []) (l : List Replica) :
    view (s.placeReplicas n c live l).1 = view s := by
  induction l generalizing s with
  | nil => rfl
  | cons r l ih => exact ih.trans (placeReplica_view hlive r)

theorem placeLaunch_view {s : State} {n : Nat} {c : Cmd} {live : Tab (List (List Byte))} (hlive : live = []) :
    view (s.placeLaunch n c live).1 = view s := by
  unfold State.placeLaunch
  split
  · rfl
  · exact placeReplicas_view hlive _

theorem placeCmd_view {s t : State} {n at_ : Nat} {b : BlobCmd} (hlive : b.live = []) (h : s.placeCmd n at_ b = some t) :
    view t = view s := by
  unfold State.placeCmd at h
  split at h
  · exact absurd h (by simp)
  · dsimp only at h
    split at h
    · exact absurd h (by simp)
    · split at h
      · exact absurd h (by simp)
      · obtain rfl := Option.some.inj h
        rw [view_State_endIfDone, view_State_setCmd]
        exact placeLaunch_view hlive

theorem placeCmds_view {s t : State} {n at_ : Nat} {l : List BlobCmd} (hlive : ∀ k ∈ l, k.live = []) (h : s.placeCmds n at_ l = some t) :
    view t = view s := by
  induction l generalizing s with
  | nil =>
    obtain rfl := Option.some.inj h
    rfl
  | cons b l ih =>
    unfold State.placeCmds at h
    split at h
    next hb => exact (ih (fun k hk => hlive k (List.mem_cons_of_mem _ hk)) h).trans (placeCmd_view (hlive b List.mem_cons_self) hb)
    · exact absurd h (by simp)

theorem rebuildFrom_view {s t : State} {n : Nat} {owned : BitVec 16} {binds : List (BitVec 32)} {b : Blob}
    (hlive : ∀ k ∈ b.cmds, k.live = []) (h : s.rebuildFrom n owned binds b = .ok t) : view t = view s := by
  unfold State.rebuildFrom at h
  split at h
  · exact absurd h (by simp)
  · dsimp only at h
    split at h
    · exact absurd h (by simp)
    next s2 h2 =>
      split at h
      · exact absurd h (by simp)
      next s3 h3 =>
        split at h
        · exact absurd h (by simp)
        next s4 h4 =>
          split at h
          · exact absurd h (by simp)
          next s5 h5 =>
            obtain rfl := Except.ok.inj h
            rw [view_State_ungateBound, placeCmds_view hlive h5, view_State_placeQueues _ _ _ h4, view_State_applyBinds _ _ _ _ h3,
              view_State_placeGraphs _ _ _ h2]
            simp

theorem leNat_lt (bs : List Byte) : leNat bs < 256 ^ bs.length := by
  induction bs with
  | nil => decide
  | cons b t ih =>
    have hb := b.isLt
    rw [List.length_cons, Nat.pow_succ, leNat]
    omega

theorem field_lt (bs : List Byte) (o n : Nat) : field bs o n < 256 ^ n := by
  refine Nat.lt_of_lt_of_le (leNat_lt _) (Nat.pow_le_pow_right (by decide) ?_)
  rw [List.length_take]
  exact Nat.min_le_left ..

/-- A blob whose magic or header CRC is wrong fails the check of its form (12 R263 step 1). -/
theorem blobFormOk_false {bs : List Byte} (h : field bs 0 4 ≠ 0x49424C5A ∨ field bs 0x1FC 4 ≠ (crc32 (bs.take 0x1FC)).toNat) :
    blobFormOk bs = false := by
  unfold blobFormOk
  rcases h with h | h
  · rw [beq_false_of_ne h]
    simp
  · rw [beq_false_of_ne h]
    simp

/-- The checks of a blob in their order (12 R263). -/
theorem restoreBlob_refuses (s : State) (n : Nat) (owned : BitVec 16) (binds : List (BitVec 32)) (b : Blob) :
    (b.crcGood = false → s.restoreBlob n owned binds b = (s, St.blobFormat, []))
    ∧ (b.crcGood = true → (b.major ≠ 1 ∨ 0 < b.minor ∨ b.unknownRequired = true) → s.restoreBlob n owned binds b = (s, St.blobVersion, []))
    ∧ (b.crcGood = true → b.major = 1 → b.minor = 0 → b.unknownRequired = false →
      (b.seqBase ≠ Config.seqBase → s.restoreBlob n owned binds b = (s, St.blobCompat, []))
      ∧ (b.seqBase = Config.seqBase → ∀ st, s.rebuildFrom n owned binds b = .error st → s.restoreBlob n owned binds b = (s, st, []))) := by
  unfold State.restoreBlob
  refine ⟨fun hcrc => if_pos (by rw [hcrc]; rfl), fun hcrc hver => ?_, fun hcrc hmajor hminor hknown => ⟨fun hseq => ?_, fun hseq st hst => ?_⟩⟩
  all_goals refine (if_neg (by rw [hcrc]; decide)).trans ?_
  · exact if_pos hver
  all_goals refine (if_neg (by simp [hmajor, hminor, hknown])).trans ?_
  · exact if_pos hseq
  · refine (if_neg (not_not.2 hseq)).trans ?_
    rw [hst]

/-- A good blob creates the instance, FROZEN, owning what RESTORE names; contracts that cannot be admitted again are lost. -/
theorem restoreBlob_creates {s u2 : State} {n : Nat} {owned : BitVec 16} {binds : List (BitVec 32)} {b : Blob} (hcrc : b.crcGood = true)
    (hmajor : b.major = 1) (hminor : b.minor = 0) (hknown : b.unknownRequired = false) (hseq : b.seqBase = Config.seqBase)
    (hu2 : s.rebuildFrom n owned binds b = .ok u2) :
    ∃ u st out, s.restoreBlob n owned binds b = (u, st, out) ∧ (u.inst n).state = .frozen ∧ (u.inst n).owned = owned
      ∧ (st = St.ok ↔ (u.inst n).lost = []) ∧ (st = St.ok ∨ st = St.contractLost)
      ∧ ((∀ k ∈ b.cmds, k.live = []) → view u = view s) := by
  unfold State.restoreBlob
  rw [if_neg (by rw [hcrc]; decide), if_neg (by simp [hmajor, hminor, hknown]), if_neg (not_not.2 hseq), hu2]
  dsimp only
  generalize hks : b.contracts.mergeSort _ = ks
  have howned : OwnersKept u2 (ks.foldl (fun t k => t.readmit n k) u2) := by
    exact List.foldlRecOn (motive := fun (t : State) => OwnersKept u2 t) _ _ (fun _ => rfl)
      (fun t ht k _ => OwnersKept.trans ht (readmit_owners t n k))
  have hview : view (ks.foldl (fun t k => t.readmit n k) u2) = view u2 := view_foldl _ (fun t k => view_State_readmit ..) _ _
  generalize ks.foldl (fun t k => t.readmit n k) u2 = s1 at *
  have hlast := (settledAs s1 n .frozen 0).1
  refine ⟨_, _, _, rfl, ?_, ?_, ?_, ?_, fun hlive => ?_⟩
  · rw [hlast]
  · rw [ownersKept_setIState s1 n .frozen 0 n, howned n, rebuildFrom_owned hu2]
  · have hne : St.contractLost ≠ St.ok := by decide
    cases hlost : ((s1.setIState n .frozen 0).inst n).lost with
    | nil => exact ⟨fun _ => rfl, fun _ => rfl⟩
    | cons x l => exact ⟨fun h => absurd h hne, fun h => absurd h (by simp)⟩
  · split
    · exact .inl rfl
    · exact .inr rfl
  · rw [view_State_setIState, hview, rebuildFrom_view hlive hu2]

end Sys2Proof.Proofs
end

section
/-! PROOFS. THAW and ATTACH (12 R265, R266, 15 R336, R337; obligation O46). -/
namespace Sys2Proof.Proofs
open Sys2Proof Sys2Proof.Machine Sys2Proof.Safety Sys2Proof.Laws

-- THAW (12 R265, R266) -----------------------------------------------------------------------------------------------------------

/-- Queues that a THAW lets run. -/
def releasedQueues (s : State) (l : List Nat) : State :=
  l.foldl (fun t k => t.updQueue k (fun q => Queue.touch { q with heldFrozen := false })) s

theorem releasedQueues_frame (s : State) (l : List Nat) : releasedQueues s l = { s with queues := (releasedQueues s l).queues } :=
  foldl_updQueue_frame ..

theorem releasedQueues_entry (s : State) (l : List Nat) : ∀ e ∈ (releasedQueues s l).queues, ∃ x ∈ s.queues, x.1 = e.1 ∧ x.2.inst = e.2.inst
    ∧ (e.1 ∈ l ∨ x.2.heldFrozen = false → e.2.heldFrozen = false) := by
  induction l generalizing s with
  | nil => exact fun e he => ⟨e, he, rfl, rfl, fun h => h.elim (fun h => absurd h (by simp)) id⟩
  | cons k l ih =>
    intro e he
    obtain ⟨y, hy, hkey, hinst, hfree⟩ := ih (s.updQueue k (fun q => Queue.touch { q with heldFrozen := false })) e he
    obtain ⟨x, hx, hxy⟩ := List.mem_map.1 hy
    subst hxy
    by_cases hk : x.1 = k
    · rw [if_pos hk] at hkey hinst hfree
      exact ⟨x, hx, hkey, hinst, fun _ => hfree (.inr rfl)⟩
    · rw [if_neg hk] at hkey hinst hfree
      refine ⟨x, hx, hkey, hinst, fun h => hfree ?_⟩
      rcases h with h | h
      · rcases List.mem_cons.1 h with h | h
        · exact absurd (hkey.trans h) hk
        · exact .inl h
      · exact .inr h

/-- Every queue of the instance runs once its slots are released. -/
theorem releasedQueues_run (s : State) (n : Nat) : ∀ e ∈ (releasedQueues s (s.slotsOf n)).queues, e.2.inst = n → e.2.heldFrozen = false := by
  intro e he hn
  obtain ⟨x, hx, hkey, hinst, hfree⟩ := releasedQueues_entry s (s.slotsOf n) e he
  exact hfree (.inl (hkey ▸ mem_slotsOf.2 ⟨x, hx, rfl, hinst.trans hn⟩))

/-- The instance ACTIVE again, with the records that waited written. -/
def thawed (s : State) (n : Nat) : State :=
  let s2 := (((s.dropLost n).shiftReleases n).restampQueues n).resumeProgress n
  let s3 := s2.setIState n .active 0
  (s3.slotsOf n).foldl State.writePending s3

theorem restampQueues_mgc (s : State) (n : Nat) : (s.restampQueues n).mgc = s.mgc := by
  unfold State.restampQueues
  dsimp only
  rw [foldl_updQueue_frame]
  rfl

theorem thawed_frame (s : State) (n : Nat) : ((thawed s n).inst n).state = .active ∧ SameMgc s.mgc (thawed s n).mgc := by
  have hmgc : ((((s.dropLost n).shiftReleases n).restampQueues n).resumeProgress n).mgc = s.mgc := restampQueues_mgc ..
  unfold thawed
  dsimp only
  generalize (((s.dropLost n).shiftReleases n).restampQueues n).resumeProgress n = s2 at *
  have hstate := (settledAs s2 n .active 0).1
  have hspoken := (spokenOnly_setIState s2 n .active 0).2
  generalize s2.setIState n .active 0 = s3 at *
  obtain ⟨hinst, hmgc3⟩ := workOnly_foldl State.writePending workOnly_writePending (s3.slotsOf n) s3
  refine ⟨?_, ?_⟩
  · rw [hinst n, hstate]
  · rw [← hmgc]
    exact SameMgc.trans hspoken hmgc3

theorem thawInst_thaws {s : State} {n : Nat} {retry drop : Bool} (hpass : ((if retry then s.retryLost n else s).inst n).lost.isEmpty = true ∨ drop = true) :
    s.thawInst n retry drop = (((releasedQueues (thawed (if retry then s.retryLost n else s) n)
      ((thawed (if retry then s.retryLost n else s) n).slotsOf n)).updInst n
      (fun i => { i with frozenAt := 0, restored := false, haltFreeze := false })).reassess, St.ok) := by
  unfold State.thawInst
  dsimp only
  refine if_neg ?_
  rcases hpass with h | h <;> rw [h] <;> simp

theorem retryLost_mgc (s : State) (n : Nat) : (s.retryLost n).mgc = s.mgc := by
  unfold State.retryLost
  refine List.foldlRecOn (motive := fun (t : State) => t.mgc = s.mgc) _ _ rfl (fun t ht x _ => ?_)
  split
  · split
    · exact ht
    · exact ht
  · exact ht

theorem retryLost_nil {s : State} {n : Nat} (h : (s.inst n).lost = []) : s.retryLost n = s := by
  unfold State.retryLost
  rw [h]
  rfl

theorem rerun_mgc (s : State) (n : Nat) (f : Inst → Inst) :
    SameMgc s.mgc (((releasedQueues s (s.slotsOf n)).updInst n f).reassess).mgc := by
  have hrel : ((releasedQueues s (s.slotsOf n)).updInst n f).mgc = s.mgc := by
    rw [releasedQueues_frame]
    rfl
  generalize (releasedQueues s (s.slotsOf n)).updInst n f = u at *
  rw [← hrel]
  exact (powerOnly_reassess u).2.2.2

/-- A THAW leaves Topcoat's record but for the events held. -/
theorem thawInst_mgc (s : State) (n : Nat) (retry drop : Bool) : SameMgc s.mgc (s.thawInst n retry drop).1.mgc := by
  by_cases hpass : ((if retry then s.retryLost n else s).inst n).lost.isEmpty = true ∨ drop = true
  · rw [thawInst_thaws hpass]
    have hretry : (if retry then s.retryLost n else s).mgc = s.mgc := by
      split
      · exact retryLost_mgc ..
      · rfl
    generalize (if retry then s.retryLost n else s) = s1 at *
    have hthawed := (thawed_frame s1 n).2
    rw [hretry] at hthawed
    generalize thawed s1 n = u at *
    dsimp only
    exact SameMgc.trans hthawed (rerun_mgc u n _)
  · have heq : s.thawInst n retry drop = (s, St.contractLost) := by
      unfold State.thawInst
      dsimp only
      refine if_pos ?_
      rw [not_or] at hpass
      simpa using hpass
    rw [heq]
    exact rfl

/-- A THAW with no contract lost: the instance is ACTIVE and its queues run. -/
theorem thawInst_spec {s : State} {n : Nat} (hlost : (s.inst n).lost = []) (retry drop : Bool) :
    (s.thawInst n retry drop).2 = St.ok ∧ ((s.thawInst n retry drop).1.inst n).state = .active
    ∧ ((s.thawInst n retry drop).1.inst n).frozenAt = 0
    ∧ ∀ e ∈ (s.thawInst n retry drop).1.queues, e.2.inst = n → e.2.heldFrozen = false := by
  have hretry : (if retry then s.retryLost n else s) = s := by
    rw [retryLost_nil hlost]
    exact ite_self _
  have heq := thawInst_thaws (s := s) (n := n) (retry := retry) (drop := drop) (.inl (by rw [hretry, hlost]; rfl))
  rw [hretry] at heq
  rw [heq]
  have hactive := (thawed_frame s n).1
  generalize thawed s n = s4 at *
  have hrun := releasedQueues_run s4 n
  have hframe := releasedQueues_frame s4 (s4.slotsOf n)
  have hinst : (releasedQueues s4 (s4.slotsOf n)).inst n = s4.inst n := by
    rw [hframe]
    rfl
  generalize releasedQueues s4 (s4.slotsOf n) = s5 at *
  generalize h6 : s5.updInst n (fun i => { i with frozenAt := 0, restored := false, haltFreeze := false }) = s6
  have hinst6 : s6.inst n = { s5.inst n with frozenAt := 0, restored := false, haltFreeze := false } := by rw [← h6, updInst_inst_same]
  have hqueues6 : s6.queues = s5.queues := by rw [← h6]; rfl
  obtain ⟨hreassess, hinsts, -⟩ := powerOnly_reassess s6
  have hqueues : s6.reassess.queues = s5.queues := by rw [hreassess, hqueues6]
  refine ⟨rfl, ?_, ?_, ?_⟩
  · show (s6.reassess.inst n).state = _
    rw [hinsts.eq n, hinst6, hinst]
    exact hactive
  · show (s6.reassess.inst n).frozenAt = _
    rw [hinsts.eq n, hinst6]
  · show ∀ e ∈ s6.reassess.queues, _
    rw [hqueues]
    exact hrun

/-- THAW with its checks passed. -/
theorem exec_thaw {s : State} {mb : Fin 33} {h : MsgHdr} {p : List Byte} (hacc : Sys2Proof.Safety.Accepted s mb.val h p kThaw)
    (hruns : s.fepRuns = true) :
    ((s.inst h.target).state ≠ .frozen → exec (.thaw mb h p) s = .next ((s.takeRequest mb.val h).reply mb.val h St.instanceState []))
    ∧ ((s.inst h.target).state = .frozen → ∃ retry drop, exec (.thaw mb h p) s
        = .next (((s.takeRequest mb.val h).thawInst h.target retry drop).1.reply mb.val h ((s.takeRequest mb.val h).thawInst h.target retry drop).2 [])) := by
  have hgo : ¬ ((!s.fepRuns) = true) := by rw [hruns]; decide
  refine ⟨fun hstate => ?_, fun hstate => ⟨bit (field (carried s mb.val h p kThaw) 0 1) 0, bit (field (carried s mb.val h p kThaw) 0 1) 1, ?_⟩⟩
  all_goals
    simp only [exec, execThaw]
    rw [if_neg hgo]
    refine congrArg _ (message_replies hacc ?_)
    rw [takeRequest_state]
  · exact if_pos (bne_iff_ne.2 hstate)
  · exact if_neg (by rw [hstate]; decide)

end Sys2Proof.Proofs
end

section
/-! PROOFS. ATTACH and the messages of saving and moving an instance (15 R336, R337; obligation O46). -/
namespace Sys2Proof.Proofs
open Sys2Proof Sys2Proof.Machine Sys2Proof.Safety Sys2Proof.Laws

-- ATTACH (15 R336, R337) ---------------------------------------------------------------------------------------------------------

theorem msixFlush_mgc (s : State) (fn : Nat) : (s.msixFlush fn).mgc = s.mgc := by
  unfold State.msixFlush
  refine List.foldlRecOn (motive := fun (t : State) => t.mgc = s.mgc) _ _ rfl (fun t ht v _ => ?_)
  split
  · rw [msix_mgc]
    exact ht
  · exact ht

/-- The end of orphan mode clears its flags and leaves the rest of Topcoat's record but for the events held. -/
theorem endOrphan_mgc (s : State) (thaw : Bool) : SameMgc { s.mgc with orphan := false, halted := false } (s.endOrphan thaw).mgc := by
  unfold State.endOrphan
  dsimp only
  refine SameMgc.trans ?_ (event_mgc ..)
  have hthaw (u : State) (l : List Nat) : SameMgc u.mgc (l.foldl (fun t n => (t.thawInst n false false).1) u).mgc :=
    List.foldlRecOn (motive := fun (t : State) => SameMgc u.mgc t.mgc) _ _ rfl (fun t ht n _ => SameMgc.trans ht (thawInst_mgc ..))
  generalize hflush : State.msixFlush _ 0 = s3
  have hmgc : s3.mgc = { s.mgc with orphan := false, halted := false } := by
    rw [← hflush, msixFlush_mgc, foldl_updQueue_frame]
  rw [← hmgc]
  split
  · exact hthaw ..
  · exact rfl

/-- The record of Topcoat as an ATTACH leaves it, before orphan mode ends or begins. -/
def attachedMgc (s : State) (detach : Bool) : Mgc :=
  { s.mgc with
    mgrGen := if s.mgc.mgrGen = 0xFFFFFFFF then 1 else s.mgc.mgrGen + 1
    attached := !detach
    armed := !detach
    beatBase := if detach then s.mgc.beatBase else s.now
    restartsSinceAttach := 0 }

theorem attachManager_attaches {s : State} {flags : Nat} (hstay : bit flags 0 = false) :
    let m := (s.attachManager flags).1.mgc
    m.mgrGen = (attachedMgc s false).mgrGen ∧ m.attached = true ∧ m.armed = true ∧ m.beatBase = s.now ∧ m.orphan = false
      ∧ m.restartsSinceAttach = 0 := by
  cases horphan : s.mgc.orphan with
  | true =>
    have heq : (s.attachManager flags).1 = State.endOrphan { s with mgc := attachedMgc s false } (bit flags 1) := by
      unfold State.attachManager
      rw [hstay, horphan]
      rfl
    have hend := endOrphan_mgc { s with mgc := attachedMgc s false } (bit flags 1)
    rw [heq]
    generalize State.endOrphan { s with mgc := attachedMgc s false } (bit flags 1) = t at *
    intro m
    simp only [m]
    rw [hend]
    exact ⟨rfl, rfl, rfl, rfl, rfl, rfl⟩
  | false =>
    have heq : (s.attachManager flags).1 = { s with mgc := attachedMgc s false } := by
      unfold State.attachManager
      rw [hstay, horphan]
      rfl
    rw [heq]
    exact ⟨rfl, rfl, rfl, rfl, horphan, rfl⟩

theorem attachManager_detaches {s : State} {flags : Nat} (hdetach : bit flags 0 = true) :
    view (s.attachManager flags).1 = view s ∧ (s.attachManager flags).1.mgc.mgrGen = (attachedMgc s true).mgrGen
    ∧ (s.attachManager flags).1.mgc.attached = false ∧ (s.attachManager flags).1.mgc.armed = false
    ∧ (s.attachManager flags).1.mgc.orphan = true := by
  have heq : (s.attachManager flags).1 = State.beginOrphan { s with mgc := attachedMgc s true } := by
    unfold State.attachManager
    rw [hdetach]
    rfl
  rw [heq]
  refine ⟨(view_State_beginOrphan _).trans (by simp), ?_⟩
  by_cases horphan : s.mgc.orphan = true
  · have hbegin : State.beginOrphan { s with mgc := attachedMgc s true } = { s with mgc := attachedMgc s true } :=
      if_pos horphan
    rw [hbegin]
    exact ⟨rfl, rfl, rfl, horphan⟩
  · obtain ⟨u, hu, -, hmgc⟩ := beginOrphan_frame (s := { s with mgc := attachedMgc s true })
      (show s.mgc.orphan = false by simpa using horphan)
    rw [hu, (alerted_core ..).1, hmgc]
    have hheld := heldQueues_frame { s with mgc := { attachedMgc s true with
      armed := false
      orphan := true
      orphanAt := s.now
      halted := false
      orphanCount := satInc s.mgc.orphanCount } } 0 (fun q => Queue.touch { q with heldOrphan := true })
    have horph : (orphaned { s with mgc := attachedMgc s true }).mgc = { attachedMgc s true with
      armed := false
      orphan := true
      orphanAt := s.now
      halted := false
      orphanCount := satInc s.mgc.orphanCount } := congrArg State.mgc hheld
    rw [horph]
    exact ⟨rfl, rfl, rfl, rfl⟩

/-- ATTACH with its checks passed. -/
theorem exec_attach {s : State} {mb : Fin 33} {h : MsgHdr} {p : List Byte} (hacc : Sys2Proof.Safety.Accepted s mb.val h p kAttach) :
    (BitVec.ofNat 32 (field (carried s mb.val h p kAttach) 0 4) ≠ s.mgc.mgrGen →
      exec (.attach mb h p) s = .next ((s.takeRequest mb.val h).reply mb.val h St.attachGen []))
    ∧ (BitVec.ofNat 32 (field (carried s mb.val h p kAttach) 0 4) = s.mgc.mgrGen → ∃ out, exec (.attach mb h p) s
        = .next (((s.takeRequest mb.val h).attachManager (field (carried s mb.val h p kAttach) 4 1)).1.reply mb.val h St.ok out)) := by
  refine ⟨fun hgen => ?_, fun hgen => ⟨((s.takeRequest mb.val h).attachManager (field (carried s mb.val h p kAttach) 4 1)).2, ?_⟩⟩
  all_goals
    simp only [exec, execAttach]
    refine congrArg _ (message_replies hacc ?_)
  · exact if_pos hgen
  · exact if_neg (not_not.2 hgen)

-- RESTORE (12 R262) ------------------------------------------------------------------------------------------------------------------

/-- RESTORE with its checks passed. -/
theorem exec_restore {s : State} {mb : Fin 33} {h : MsgHdr} {p host : List Byte} {sections : Blob}
    (hacc : Sys2Proof.Safety.Accepted s mb.val h p kRestore) (hruns : s.fepRuns = true)
    (hlong : s.readDva 0 (field p 0 8) (field p 8 8) host ≠ .short) :
    (∀ st, s.createFault h.target = some st → exec (.restore mb h p host sections) s = .next ((s.takeRequest mb.val h).reply mb.val h st []))
    ∧ (s.createFault h.target = none →
      (∀ f, (s.takeRequest mb.val h).readDva 0 (field (carried s mb.val h p kRestore) 0 8) (field (carried s mb.val h p kRestore) 8 8) host = .fault f →
        exec (.restore mb h p host sections) s = .next (((s.takeRequest mb.val h).mmuFault 0 f false 0 0 0x3FF 0).reply mb.val h f.status []))
      ∧ ∀ bs rest u st out,
        (s.takeRequest mb.val h).readDva 0 (field (carried s mb.val h p kRestore) 0 8) (field (carried s mb.val h p kRestore) 8 8) host = .bytes bs rest →
        ((s.takeRequest mb.val h).chargeRead 0 (field (carried s mb.val h p kRestore) 0 8) (field (carried s mb.val h p kRestore) 8 8)).restoreBlob
          h.target (BitVec.ofNat 16 (field (carried s mb.val h p kRestore) 16 2))
          ((List.range 16).map (fun r => BitVec.ofNat 32 (field (carried s mb.val h p kRestore) (24 + 4 * r) 4))) (readBlob bs sections) = (u, st, out) →
        exec (.restore mb h p host sections) s = .next (u.reply mb.val h st out)) := by
  have hgo : ¬ ((!s.fepRuns || s.readDva 0 (field p 0 8) (field p 8 8) host == .short) = true) := by
    rw [hruns, beq_false_of_ne hlong]
    decide
  refine ⟨fun st hst => ?_, fun hnone => ⟨fun f hf => ?_, fun bs rest u st out hbs hu => ?_⟩⟩
  all_goals
    simp only [exec, execRestore]
    rw [if_neg hgo]
    refine congrArg _ (message_replies hacc ?_)
  · have hst' := (takeRequest_createFault s mb.val h h.target).trans hst
    simp only [hst']
    rfl
  · have hnone' := (takeRequest_createFault s mb.val h h.target).trans hnone
    simp only [hnone', hf]
    rfl
  · have hnone' := (takeRequest_createFault s mb.val h h.target).trans hnone
    simp only [hnone', hbs, hu]

/-- Settles O46: each of the messages acts from the states it takes, and is refused in others. -/
theorem freezeSaveRestoreThawAndAttach : Obligations.FreezeSaveRestoreThawAndAttach := by
  intro s mb h p u0 n
  have hstate : (u0.inst n).state = (s.inst n).state := takeRequest_state ..
  have hview : view u0 = view s := by simp [u0]
  refine ⟨fun hacc => ?freeze, fun hacc hruns => ?save, fun host sections hacc hruns hlong => ?restore, fun hacc hruns => ?thaw,
    fun hacc => ?attach⟩
  case freeze =>
    intro ms
    obtain ⟨hrefused, hruns⟩ := exec_freeze hacc
    obtain ⟨hzero, htaken, hother⟩ := lifecycleFault_cases u0 n [.active]
    rw [hstate] at htaken hother
    refine ⟨fun hn hactive hms => ?_, fun hn => hrefused _ (hzero hn), fun hn hno => hrefused _ (hother hn (by simpa using hno)),
      fun hn hactive hms => (hruns (htaken hn (by rw [hactive]; decide)) ms rfl).1 hms⟩
    have hexec := (hruns (htaken hn (by rw [hactive]; decide)) ms rfl).2 hms
    obtain ⟨hframe, -, hfreezing, huntil, hreq, -⟩ := startFreeze_frame u0 n (if ms = 0 then 100 else ms) (some (mb.val, h)) false
    refine ⟨_, hexec, still_of_view ((view_State_startFreeze ..).trans hview), hfreezing, huntil, hreq, ?_, ?_, ?_⟩
    · rw [show (s.takeRequest mb.val h).startFreeze _ _ _ _ = _ from hframe]
      rfl
    · rw [show (s.takeRequest mb.val h).startFreeze _ _ _ _ = _ from hframe]
      rfl
    · refine (ringsKept_startFreeze u0 n (if ms = 0 then 100 else ms) (some (mb.val, h)) false mb.val).trans ?_
      show ((s.takeRequest mb.val h).inst mb.val).box.outProd = _
      rw [takeRequest_inst_self]
  case save =>
    intro b
    obtain ⟨hno, hodd, hruns'⟩ := exec_save hacc hruns
    refine ⟨hno, hodd, fun hfrozen heven => ⟨fun hspace => ?_, fun hspace u out hu => ?_⟩⟩
    · exact hruns' hfrozen heven u0 St.blobSpace [] (if_pos hspace)
    · obtain ⟨hout, hqueues, hcmds, hinsts⟩ := saveBlob_saved hu hspace
      have hexec := hruns' hfrozen heven u St.ok out hu
      rw [hout] at hexec
      exact ⟨hexec, hqueues, hcmds, hinsts⟩
  case restore =>
    intro b dva len op
    obtain ⟨hrefused, hgoes⟩ := exec_restore hacc hruns hlong
    refine ⟨hrefused, fun f hnone hf => (hgoes hnone).1 f hf, fun bs rest hnone hbs => ?_⟩
    intro u1 blob refused
    have hrun := fun u st out => (hgoes hnone).2 bs rest u st out hbs
    obtain ⟨hform, hversion, hrest⟩ := restoreBlob_refuses u1 n (BitVec.ofNat 16 (field b 16 2))
      ((List.range 16).map (fun r => BitVec.ofNat 32 (field b (24 + 4 * r) 4))) blob
    refine ⟨fun hmagic => hrun _ _ _ (hform (blobFormOk_false (.inl hmagic))), fun hcrc => hrun _ _ _ (hform (blobFormOk_false (.inr hcrc))),
      fun hcrc hver => hrun _ _ _ (hversion hcrc hver), fun hcrc hmajor hminor hknown => ?_⟩
    obtain ⟨hcompat, herror⟩ := hrest hcrc hmajor hminor hknown
    have hread : blob.seqBase.toNat = field bs 28 2 := Nat.mod_eq_of_lt (field_lt bs 28 2)
    refine ⟨fun hseq => hrun _ _ _ (hcompat fun hbase => hseq ?_), fun hseq => ?_⟩
    · rw [← hread, hbase]
    · have hbase : blob.seqBase = Config.seqBase := BitVec.eq_of_toNat_eq (hread.trans hseq)
      intro binds owned
      refine ⟨fun st hst => hrun _ _ _ (herror hbase st hst), fun u2 hu2 => ?_⟩
      obtain ⟨u, st, out, heq, hfrozen, howned, hok, hstatus, hsame⟩ := restoreBlob_creates hcrc hmajor hminor hknown hbase hu2
      exact ⟨u, st, out, hrun _ _ _ heq, hfrozen, fun hlive => still_of_view ((hsame hlive).trans (by simp [u1, u0])), howned, hok, hstatus⟩
  case thaw =>
    obtain ⟨hno, hgoes⟩ := exec_thaw hacc hruns
    refine ⟨hno, fun hfrozen hlost => ?_⟩
    obtain ⟨retry, drop, hexec⟩ := hgoes hfrozen
    obtain ⟨hok, hactive, hat, hqueues⟩ := thawInst_spec (s := u0) (n := n) (by
      show ((s.takeRequest mb.val h).inst n).lost = []
      rw [takeRequest_inst]
      exact hlost) retry drop
    rw [show ((s.takeRequest mb.val h).thawInst h.target retry drop).2 = St.ok from hok] at hexec
    exact ⟨_, hexec, hactive, hat, hqueues⟩
  case attach =>
    intro b gen
    obtain ⟨hwrong, hgoes⟩ := exec_attach hacc
    refine ⟨hwrong, fun hgen hstay => ?_, fun hgen hdetach => ?_⟩
    · obtain ⟨out, hexec⟩ := hgoes hgen
      exact ⟨_, out, hexec, attachManager_attaches (s := u0) hstay⟩
    · obtain ⟨out, hexec⟩ := hgoes hgen
      obtain ⟨hsame, hrest⟩ := attachManager_detaches (s := u0) hdetach
      exact ⟨_, out, hexec, still_of_view (hsame.trans hview), hrest⟩

end Sys2Proof.Proofs
end

section
/-! PROOFS. Reads and writes of the dictionary (obligation O47). -/
namespace Sys2Proof.Proofs
open Sys2Proof Sys2Proof.Machine Sys2Proof.Safety Sys2Proof.Laws

-- READ (13 R276, 14 R312) -----------------------------------------------------------------------------------------------------

theorem liveValue_mirrored {s : State} {i sub x : Nat} (h : s.mirrored i sub = some x) : s.liveValue i sub = x := by
  have hsub : sub ≠ 0 := by
    rintro rfl
    rw [mirrored_zero] at h
    exact absurd h (by simp)
  unfold State.liveValue
  rw [if_neg hsub, h]

/-- What a read of an entry returns: its length, and the value now or, for a mirrored entry, the one shown before. -/
theorem readValue_spec (s : State) (i sub size : Nat) : (s.readValue i sub size).1.length = size
    ∧ (s.readValue i sub size).2 = { s with freeCount := (s.readValue i sub size).2.freeCount }
    ∧ (s.mirrored i sub = none → s.readValue i sub size = (leBytes size (s.liveValue i sub), s))
    ∧ ∀ x, s.mirrored i sub = some x → (s.readValue i sub size).1 = leBytes size x
        ∨ (s.readValue i sub size).1 = leBytes size (tabGetD s.dict.mirror (dictKey i sub) x) := by
  have hsome (x : Nat) (hx : s.mirrored i sub = some x) : (s.mirrored i sub).isSome = true := by rw [hx]; rfl
  unfold State.readValue
  dsimp only
  refine ⟨?_, ?_, fun hno => ?_, fun x hx => ?_⟩
  · generalize (if (s.mirrored i sub).isSome = true then _ else _ : Nat) = old
    split
    · exact leBytes_length ..
    · exact leBytes_length ..
  · generalize (if (s.mirrored i sub).isSome = true then _ else _ : Nat) = old
    split
    · rfl
    · rfl
  · rw [hno]
    exact if_pos rfl
  · rw [if_pos (hsome x hx), liveValue_mirrored hx]
    split
    · exact .inl rfl
    · cases Config.freeBool s.freeCount with
      | true => exact .inl rfl
      | false => exact .inr rfl

theorem dictRead_found {i sub : Nat} {e : Entry} (s : State) (h : entryAt i sub = .ok e) :
    (e.acc = .wo → s.dictRead i sub false = .error abWriteOnly)
    ∧ (e.acc ≠ .wo → e.size = 0 → s.dictRead i sub false = .error abSegmentRequired)
    ∧ (e.acc ≠ .wo → e.size ≠ 0 → s.dictRead i sub false = .ok (s.readValue i sub e.size)) := by
  refine ⟨fun hwo => ?_, fun hno hsize => ?_, fun hno hsize => ?_⟩
  · simp [State.dictRead, h, hwo]
  · simp [State.dictRead, h, hno, hsize]
  · simp [State.dictRead, h, hno, hsize]

-- Writes and their checks (13 R287) -----------------------------------------------------------------------------------------------

theorem ocWriteCond_ne_ocRead : ocWriteCond ≠ ocRead := by decide
theorem ocWriteCond_ne_ocWrite : ocWriteCond ≠ ocWrite := by decide
theorem dataLenOk_writeCond (n : Nat) : dataLenOk ocWriteCond n = (decide (2 ≤ n) && decide (n ≤ 96)) := rfl

/-- The checks of a write to an entry that exists, in their order. -/
theorem writeFault_cases {i sub : Nat} {e : Entry} (s : State) (p : Path) (len : Nat) (h : entryAt i sub = .ok e) :
    let free := s.holder i = 0 ∨ s.holder i = pathValue p
    let may := e.path = .both ∨ (e.path = .link ∧ p = .link)
    (¬ may → s.writeFault p i sub len false = .error abPathDenied)
    ∧ (may → ¬ free → s.writeFault p i sub len false = .error abClaimedByOther)
    ∧ (may → free → (e.acc = .const ∨ e.acc = .ro) → s.writeFault p i sub len false = .error abReadOnly)
    ∧ (may → free → (e.acc = .rw ∨ e.acc = .wo) → e.size = 0 → s.writeFault p i sub len false = .error abSegmentRequired)
    ∧ (may → free → (e.acc = .rw ∨ e.acc = .wo) → e.size ≠ 0 → len ≠ e.size → s.writeFault p i sub len false = .error abTypeLength)
    ∧ (may → free → (e.acc = .rw ∨ e.acc = .wo) → e.size ≠ 0 → len = e.size → s.writeFault p i sub len false = .ok e) := by
  intro free may
  have hpath : (e.path = .none ∨ (e.path = .link ∧ p = .host)) ↔ ¬ may := by
    simp only [may]
    cases e.path <;> cases p <;> simp
  have hfree : (s.holder i ≠ 0 ∧ s.holder i ≠ pathValue p) ↔ ¬ free := not_or.symm
  have hacc (ha : e.acc = .rw ∨ e.acc = .wo) : ¬ (e.acc = .const ∨ e.acc = .ro) := by
    rcases ha with ha | ha <;> rw [ha] <;> decide
  unfold State.writeFault
  rw [h]
  dsimp only
  refine ⟨fun hmay => if_pos (hpath.2 hmay), fun hmay hno => ?_, fun hmay hf ha => ?_, fun hmay hf ha hsize => ?_,
    fun hmay hf ha hsize hlen => ?_, fun hmay hf ha hsize hlen => ?_⟩
  all_goals refine (if_neg (fun hno => hpath.1 hno hmay)).trans ?_
  · exact if_pos (hfree.2 hno)
  all_goals refine (if_neg (fun hno => hfree.1 hno hf)).trans ?_
  · exact if_pos ha
  all_goals refine (if_neg (hacc ha)).trans ?_
  · simp [hsize]
  · simp [hsize, hlen]
  · simp [hsize, hlen]

theorem writeFault_size {s : State} {p : Path} {i sub len : Nat} {e : Entry} (h : s.writeFault p i sub len false = .ok e) : e.size ≠ 0 := by
  have hno {a : Abort} (ha : s.writeFault p i sub len false = .error a) : False := by
    rw [h] at ha
    exact absurd ha (by simp)
  cases he : entryAt i sub with
  | error a => exact (hno (writeFault_of_entryAt_error s p len false he)).elim
  | ok x =>
    obtain ⟨hpath, hclaim, hread, hdomain, hlength, hok⟩ := writeFault_cases s p len he
    by_cases hmay : x.path = .both ∨ (x.path = .link ∧ p = .link)
    · by_cases hfree : s.holder i = 0 ∨ s.holder i = pathValue p
      · by_cases hacc : x.acc = .const ∨ x.acc = .ro
        · exact (hno (hread hmay hfree hacc)).elim
        · have hwrites : x.acc = .rw ∨ x.acc = .wo := by
            cases hx : x.acc <;> simp [hx] at hacc ⊢
          by_cases hsize : x.size = 0
          · exact (hno (hdomain hmay hfree hwrites hsize)).elim
          · by_cases hlen : len = x.size
            · obtain rfl := Except.ok.inj (h.symm.trans (hok hmay hfree hwrites hsize hlen))
              exact hsize
            · exact (hno (hlength hmay hfree hwrites hsize hlen)).elim
      · exact (hno (hclaim hmay hfree)).elim
    · exact (hno (hpath hmay)).elim

section
variable {s : State} {p : Path} {f : UFrame} (hr : Reaches s p) (hres : f.reservedSet = false)
include hr hres

/-- A WRITE is answered with what the dictionary makes of it. -/
theorem exec_write_of_dictWrite {t : State} {a : Abort} (hlen : f.data.length ≤ 96)
    (h : (arrive s p).dictWrite p f.index f.sub f.data none false = (t, a)) : exec (.write p f) s = .next (respond t p ocWrite f a []) := by
  have hs : (arrive s p).serve p ocWrite f = (t, a, []) := by
    simp [State.serve, hres, server_of_reaches hr, hlen, h, ocWrite_ne_ocRead]
  exact congrArg _ (umner_of_serve hr hs)

/-- A WRITE_COND is answered with what the dictionary makes of it. -/
theorem exec_writeCond_of_dictWrite {t : State} {a : Abort} (hmin : 2 ≤ f.data.length) (hlen : f.data.length ≤ 96)
    (h : (arrive s p).dictWrite p f.index f.sub (f.data.drop 2) (some (BitVec.ofNat 16 (field f.data 0 2))) false = (t, a)) :
    exec (.writeCond p f) s = .next (respond t p ocWriteCond f a []) := by
  have hdefined : ocDefined ocWriteCond = true := rfl
  have hs : (arrive s p).serve p ocWriteCond f = (t, a, []) := by
    simp [State.serve, hres, hdefined, server_of_reaches hr, dataLenOk_writeCond, hmin, hlen, h, ocWriteCond_ne_ocRead, ocWriteCond_ne_ocWrite]
  exact congrArg _ (umner_of_serve hr hs)

end

/-- A write whose entry takes it: out of range, of another epoch, refused by the device, or done. -/
theorem dictWrite_passed {s : State} {p : Path} {i sub : Nat} {data : List Byte} {e : Entry} {expect : Option (BitVec 16)}
    (hfault : s.writeFault p i sub data.length false = .ok e) :
    (s.rangeFault p i sub (leNat data) e ≠ 0 → s.dictWrite p i sub data expect false = (s, s.rangeFault p i sub (leNat data) e))
    ∧ (s.rangeFault p i sub (leNat data) e = 0 → (i ≠ 0x2004 ∨ sub ≠ 2) →
      (∀ x, expect = some x → tabGetD s.bus.epochs i 0 ≠ x → s.dictWrite p i sub data expect false = (s, abEpochMismatch))
      ∧ ((∀ x, expect = some x → tabGetD s.bus.epochs i 0 = x) →
        (∀ a, s.writeEffect p i sub (leNat data) true = .error a → s.dictWrite p i sub data expect false = (s, a))
        ∧ ∀ u, s.writeEffect p i sub (leNat data) true = .ok u →
            s.dictWrite p i sub data expect false = (alerted s (u.bumpEpoch p i), 0))) := by
  have hsize := writeFault_size hfault
  have hplain (h : i ≠ 0x2004 ∨ sub ≠ 2) : ¬ (i = 0x2004 ∧ sub = 2) := fun ⟨hi, hs⟩ => h.elim (· hi) (· hs)
  refine ⟨fun hrange => ?_, fun hrange hother => ⟨fun x hx hepoch => ?_, fun hepoch => ⟨fun a ha => ?_, fun u hu => ?_⟩⟩⟩
  · simp [State.dictWrite, hfault, hsize]
    exact fun h => absurd h hrange
  · simp [State.dictWrite, hfault, hsize, hrange, hx]
    exact fun h => absurd h hepoch
  all_goals
    cases expect with
    | none => simp_all [State.dictWrite, hplain hother]
    | some x => simp_all [State.dictWrite, hplain hother]

/-- What a write that took effect leaves of the serialiser's record (13 R285). -/
theorem written_bus (s1 u : State) (p : Path) (f : UFrame) :
    written s1 u p f = { u with bus := { u.bus with
      epochs := tabSet u.bus.epochs f.index (if tabGetD u.bus.epochs f.index 0 = 0xFFFF then 1 else tabGetD u.bus.epochs f.index 0 + 1)
      lastPath := tabSet u.bus.lastPath f.index (pathValue p - 1)
      ibis := (written s1 u p f).bus.ibis
      response := (written s1 u p f).bus.response
      hostResponse := (written s1 u p f).bus.hostResponse } } := by
  have halert := alerted_eq s1 (u.bumpEpoch p f.index)
  unfold written
  generalize alerted s1 (u.bumpEpoch p f.index) = t at *
  cases p with
  | link =>
    unfold respond
    dsimp only
    rw [halert]
    rfl
  | host =>
    unfold respond
    dsimp only
    rw [halert]
    rfl

/-- Settles O47: reads, writes and conditional writes of an entry, what a write leaves of its index, and who does not answer. -/
theorem dictionaryReadsAndWrites : Obligations.DictionaryReadsAndWrites := by
  refine ⟨fun s p f hr hres => ⟨fun hdata => ?read, fun hlen => ?write, fun hmin hlen => ?cond⟩, fun s p i sub len e he => ?checks,
    fun s1 u p f => ?written_, fun s f hres hlen hon => ?unserved, fun s f => ?unreachable⟩
  case read =>
    refine ⟨fun e he hacc hsize => ?_, fun e he hacc => ?_, fun e he hacc hsize => ?_, fun a ha => exec_read_of_entryAt_error hr hres ha hdata⟩
    · obtain ⟨hlen, hframe, hplain, hmirror⟩ := readValue_spec (arrive s p) f.index f.sub e.size
      refine ⟨((arrive s p).readValue f.index f.sub e.size).2, ((arrive s p).readValue f.index f.sub e.size).1,
        exec_read_of_dictRead_ok hr hres hdata ((dictRead_found _ he).2.2 hacc hsize), hlen, hframe, fun hno => ?_, hmirror⟩
      rw [hplain hno]
      exact ⟨rfl, rfl⟩
    · exact exec_read_of_dictRead_error hr hres hdata ((dictRead_found _ he).1 hacc)
    · exact exec_read_of_dictRead_error hr hres hdata ((dictRead_found _ he).2.1 hacc hsize)
  case write =>
    refine ⟨fun a ha => exec_write_of_writeFault hr hres hlen ha, fun e he => ?_⟩
    intro v
    obtain ⟨hrange, hpassed⟩ := dictWrite_passed (expect := none) he
    refine ⟨fun hbad => exec_write_of_dictWrite hr hres hlen (hrange hbad), fun hgood hplain => ?_⟩
    obtain ⟨herror, hok⟩ := (hpassed hgood hplain).2 (fun _ h => absurd h (by simp))
    exact ⟨fun a ha => exec_write_of_dictWrite hr hres hlen (herror a ha), fun u hu => exec_write_of_dictWrite hr hres hlen (hok u hu)⟩
  case cond =>
    intro d
    refine ⟨fun a ha => exec_writeCond_of_dictWrite hr hres hmin hlen (dictWrite_of_writeFault _ ha), fun e he hgood hplain => ?_⟩
    obtain ⟨hother, hsame⟩ := (dictWrite_passed (expect := some (BitVec.ofNat 16 (field f.data 0 2))) he).2 hgood hplain
    refine ⟨fun hepoch => exec_writeCond_of_dictWrite hr hres hmin hlen (hother _ rfl hepoch), fun hepoch u hu =>
      exec_writeCond_of_dictWrite hr hres hmin hlen ((hsame fun x hx => ?_).2 u hu)⟩
    obtain rfl := Option.some.inj hx
    exact hepoch
  case checks => exact writeFault_cases s p len he
  case written_ =>
    intro t e
    have hbus := written_bus s1 u p f
    refine ⟨?_, ?_, fun j hj => ?_, ?_⟩
    · rw [show t = _ from hbus]
      exact tabGetD_set_same ..
    · rw [show t = _ from hbus]
      exact tabGetD_set_same ..
    · rw [show t = _ from hbus]
      exact tabGetD_set_other _ _ _ hj
    · rw [show t = _ from hbus]
  case unserved =>
    refine ⟨fun hprimer hother => ?_, fun hwait => ?_⟩
    · have hserver : s.goodFrame.server = .primer := (goodFrame_server s).trans hprimer
      have hserves : primerServes ocWrite f.index f.sub = false := by
        have hne : ¬ (ocWrite = ocRead ∨ ocWrite = ocSegReadStart ∨ ocWrite = ocSegRead ∨ ocWrite = ocSegAbort) := by decide
        unfold primerServes
        rw [if_neg hne]
        rcases hother with h | h <;> simp [h]
      have hserve : s.goodFrame.serve .link ocWrite f = (s.goodFrame, abNotAvailable, []) := by
        simp [State.serve, hres, hlen, hserver, hserves]
      have humner : s.umner .link ocWrite f = respond s.goodFrame .link ocWrite f abNotAvailable [] := by
        simp [State.umner, hon, hprimer, State.answerFrame, hserve, respond]
      exact congrArg _ humner
    · have hon' : ¬ ((!s.busOn) = true) := by rw [hon]; decide
      exact congrArg _ ((if_neg hon').trans (if_pos hwait))
  case unreachable =>
    refine ⟨fun hoff => ?_, fun hoff => ?_, fun hon => ?_⟩
    · have hstay (opc : Nat) : s.umner .link opc f = s := if_pos (by rw [hoff]; rfl)
      exact ⟨congrArg _ (hstay _), congrArg _ (hstay _), congrArg _ (hstay _), congrArg _ (if_pos (by rw [hoff]; rfl))⟩
    · have hstay (opc : Nat) : s.umner .host opc f = s := if_pos (by rw [hoff]; rfl)
      exact ⟨congrArg _ (hstay _), congrArg _ (hstay _), congrArg _ (hstay _)⟩
    · exact congrArg _ (if_neg (by rw [hon]; decide))

end Sys2Proof.Proofs
end

section
/-! PROOFS. Segmented transfers of the dictionary and their sessions (obligation O48). -/
namespace Sys2Proof.Proofs
open Sys2Proof Sys2Proof.Machine Sys2Proof.Safety Sys2Proof.Laws

-- Sessions (13 R277) --------------------------------------------------------------------------------------------------------------

@[simp] theorem setSession_server (s : State) (p : Path) (x : Option Session) : (s.setSession p x).server = s.server := by cases p <;> rfl
@[simp] theorem setSession_now (s : State) (p : Path) (x : Option Session) : (s.setSession p x).now = s.now := by cases p <;> rfl
@[simp] theorem setSession_epochs (s : State) (p : Path) (x : Option Session) : (s.setSession p x).bus.epochs = s.bus.epochs := by cases p <;> rfl
@[simp] theorem arrive_now (s : State) (p : Path) : (arrive s p).now = s.now := by
  cases p with
  | link =>
    unfold arrive State.goodFrame
    dsimp only
    split
    · simp [State.now]
    · rfl
  | host => rfl

theorem setEnded_same {s : State} {p : Path} {a : Abort} (h : s.sessionEnded p = a) : s.setEnded p a = s := by
  subst h
  cases p <;> rfl

section
variable {s : State} {p : Path} (hfresh : s.sessionStale p = false) (hended : s.sessionEnded p = 0)
include hfresh hended

/-- A segmented request of a path that is told nothing about an earlier session, and has none. -/
theorem segmented_none (hnone : s.session p = none) (opc : Nat) (f : UFrame) : s.segmented p opc f =
    (if opc = ocSegReadStart then (s.setSession p none).segReadStart p f
     else if opc = ocSegWriteStart then (s.setSession p none).segWriteStart p f
     else (s, abSegNoSession, [])) := by
  have htold (start : Bool) : ¬ ((0 : Abort) = abSegTimeout ∨ (0 : Abort) ≠ 0 ∧ start = false) := by
    rintro (h | h)
    · exact absurd h (by decide)
    · exact h.1 rfl
  unfold State.segmented
  simp only [hfresh, Bool.false_eq_true, if_false]
  rw [setEnded_same hended, hended, if_neg (htold _), hnone]

/-- The same with a session open. -/
theorem segmented_open {x : Session} (hx : s.session p = some x) (opc : Nat) (f : UFrame) : s.segmented p opc f =
    (if opc = ocSegReadStart then (s.setSession p none).segReadStart p f
     else if opc = ocSegWriteStart then (s.setSession p none).segWriteStart p f
     else if opc = ocSegAbort then (s.setSession p none, 0, [])
     else if x.index ≠ f.index ∨ x.sub ≠ f.sub ∨ x.write ≠ (opc == ocSegWrite) then (s, abSegNoSession, [])
     else if x.write then s.segWrite p x f
     else s.segRead p x f) := by
  have htold (start : Bool) : ¬ ((0 : Abort) = abSegTimeout ∨ (0 : Abort) ≠ 0 ∧ start = false) := by
    rintro (h | h)
    · exact absurd h (by decide)
    · exact h.1 rfl
  unfold State.segmented
  simp only [hfresh, Bool.false_eq_true, if_false]
  rw [setEnded_same hended, hended, if_neg (htold _), hx]

theorem segmented_start (f : UFrame) : s.segmented p ocSegReadStart f = (s.setSession p none).segReadStart p f
    ∧ s.segmented p ocSegWriteStart f = (s.setSession p none).segWriteStart p f := by
  cases hx : s.session p with
  | none => exact ⟨segmented_none hfresh hended hx .., segmented_none hfresh hended hx ..⟩
  | some x => exact ⟨segmented_open hfresh hended hx .., segmented_open hfresh hended hx ..⟩

/-- SEG_READ and SEG_WRITE find the session that is open, if it is of their kind and entry. -/
theorem segmented_transfer {x : Session} (hx : s.session p = some x) {opc : Nat} (hopc : opc = ocSegRead ∨ opc = ocSegWrite) (f : UFrame) :
    ((x.index ≠ f.index ∨ x.sub ≠ f.sub ∨ x.write ≠ (opc == ocSegWrite)) → s.segmented p opc f = (s, abSegNoSession, []))
    ∧ (x.index = f.index → x.sub = f.sub → x.write = (opc == ocSegWrite) →
      s.segmented p opc f = if x.write then s.segWrite p x f else s.segRead p x f) := by
  have hother : opc ≠ ocSegReadStart ∧ opc ≠ ocSegWriteStart ∧ opc ≠ ocSegAbort := by rcases hopc with rfl | rfl <;> decide
  obtain ⟨hread, hwrite, habort⟩ := hother
  rw [segmented_open hfresh hended hx, if_neg hread, if_neg hwrite, if_neg habort]
  refine ⟨fun hbad => if_pos hbad, fun hindex hsub hkind => if_neg ?_⟩
  rintro (h | h | h)
  · exact h hindex
  · exact h hsub
  · exact h hkind

end

/-- A path whose session timed out is told so once. -/
theorem segmented_told {s : State} {p : Path} (hfresh : s.sessionStale p = false) (hended : s.sessionEnded p = abSegTimeout) (opc : Nat)
    (f : UFrame) : s.segmented p opc f = (s.setEnded p 0, abSegTimeout, []) := by
  unfold State.segmented
  simp only [hfresh, Bool.false_eq_true, if_false]
  rw [hended]
  exact if_pos (.inl rfl)

/-- Opcodes of segmented transfers, with the lengths of DATA that they take. -/
def SegmentOp (opc len : Nat) : Prop :=
  (opc = ocSegReadStart ∨ opc = ocSegRead ∨ opc = ocSegWriteStart ∨ opc = ocSegWrite ∨ opc = ocSegAbort) ∧ dataLenOk opc len = true

theorem umner_segmented {s t : State} {p : Path} {f : UFrame} {opc : Nat} {a : Abort} {out : List Byte} (hr : Reaches s p)
    (hres : f.reservedSet = false) (hop : SegmentOp opc f.data.length) (h : (arrive s p).segmented p opc f = (t, a, out)) :
    s.umner p opc f = respond t p opc f a out := by
  obtain ⟨hopc, hlen⟩ := hop
  have hserve : (arrive s p).serve p opc f = (arrive s p).segmented p opc f := by
    have hdefined : ocDefined opc = true := by rcases hopc with rfl | rfl | rfl | rfl | rfl <;> rfl
    have hread : opc ≠ ocRead ∧ opc ≠ ocWrite ∧ opc ≠ ocWriteCond := by rcases hopc with rfl | rfl | rfl | rfl | rfl <;> decide
    simp [State.serve, hres, hdefined, hlen, server_of_reaches hr, hread]
  exact umner_of_serve hr (hserve.trans h)

-- A whole value written (13 R277, 14 R307) -----------------------------------------------------------------------------------------

theorem writeFault_domain {s : State} {p : Path} {i sub len : Nat} {e : Entry} (h : s.writeFault p i sub len true = .ok e) : e.size = 0 := by
  cases he : entryAt i sub with
  | error a => exact absurd (h.symm.trans (writeFault_of_entryAt_error s p len true he)) (by simp)
  | ok x =>
    unfold State.writeFault at h
    rw [he] at h
    dsimp only at h
    split at h
    · exact absurd h (by simp)
    · split at h
      · exact absurd h (by simp)
      · split at h
        · exact absurd h (by simp)
        · split at h
          · exact absurd h (by simp)
          next hdomain =>
            have hsize : x.size = 0 := by simpa using hdomain
            split at h
            · exact absurd h (by simp)
            · split at h
              · exact absurd h (by simp)
              · obtain rfl := Except.ok.inj h
                exact hsize

/-- A whole value whose entry takes it: of another epoch, refused by the device, or taken. -/
theorem dictWrite_domain {s : State} {p : Path} {i sub : Nat} {data : List Byte} {e : Entry} {expect : Option (BitVec 16)}
    (hfault : s.writeFault p i sub data.length true = .ok e) :
    (∀ x, expect = some x → tabGetD s.bus.epochs i 0 ≠ x → s.dictWrite p i sub data expect true = (s, abEpochMismatch))
    ∧ ((∀ x, expect = some x → tabGetD s.bus.epochs i 0 = x) →
      (∀ a, s.writeDomain i data = .error a → s.dictWrite p i sub data expect true = (s, a))
      ∧ ∀ u, s.writeDomain i data = .ok u → s.dictWrite p i sub data expect true = (alerted s (u.bumpEpoch p i), 0)) := by
  have hsize := writeFault_domain hfault
  refine ⟨fun x hx hepoch => ?_, fun hepoch => ⟨fun a ha => ?_, fun u hu => ?_⟩⟩
  · simp [State.dictWrite, hfault, hsize, hx]
    exact fun h => absurd h hepoch
  all_goals
    cases expect with
    | none => simp_all [State.dictWrite]
    | some x => simp_all [State.dictWrite]

/-- The answers to SEG_WRITE of an open write session. -/
theorem segWrite_cases (s : State) (p : Path) (x : Session) (f : UFrame) :
    let d := x.data ++ f.data.drop 4
    ((field f.data 0 4 ≠ x.data.length ∨ x.total < d.length) → s.segWrite p x f = (s.setSession p none, abSegOffset, []))
    ∧ (field f.data 0 4 = x.data.length →
      (d.length < x.total → s.segWrite p x f = (s.setSession p (some { x with data := d, lastAt := s.now }), 0, []))
      ∧ (d.length = x.total →
        (crc32 d ≠ x.crc → s.segWrite p x f = (s.setSession p none, abSegCrc, []))
        ∧ ∀ u a, crc32 d = x.crc → (s.setSession p none).dictWrite p x.index x.sub d (if x.expect = 0 then none else some x.expect) true = (u, a) →
            s.segWrite p x f = (u, a, []))) := by
  intro d
  unfold State.segWrite
  refine ⟨fun hoff => if_pos hoff, fun hoff => ⟨fun hshort => ?_, fun hfull => ⟨fun hcrc => ?_, fun u a hcrc hw => ?_⟩⟩⟩
  · exact (if_neg (by rintro (h | h); exacts [h hoff, Nat.lt_asymm h hshort])).trans (if_pos hshort)
  all_goals
    refine (if_neg (by rintro (h | h); exacts [h hoff, absurd h (hfull ▸ Nat.lt_irrefl _)])).trans
      ((if_neg (hfull ▸ Nat.lt_irrefl _)).trans ?_)
  · exact if_pos hcrc
  · refine (if_neg (not_not.2 hcrc)).trans ?_
    exact congrArg (fun r : State × Abort => (r.1, r.2, ([] : List Byte))) hw

/-- The answers to SEG_READ of an open read session. -/
theorem segRead_cases (s : State) (p : Path) (x : Session) (f : UFrame) :
    let n := field f.data 4 1
    let t := s.setSession p (some { x with lastAt := s.now })
    (1 ≤ n → n ≤ 96 → s.segRead p x f = (t, 0, (x.data.drop (field f.data 0 4)).take n))
    ∧ ((n = 0 ∨ 96 < n) → s.segRead p x f = (t, abValueRange, [])) := by
  intro n t
  exact ⟨fun hmin hmax => if_neg (by omega), fun hbad => if_pos hbad⟩

-- The commands ---------------------------------------------------------------------------------------------------------------------

section
variable {s : State} {p : Path} {f : UFrame} (hr : Reaches s p) (hres : f.reservedSet = false)
include hr hres

/-- The segmented requests of a path, each with the length of DATA that it takes, are answered with what the session gives. -/
theorem exec_segmented {t : State} {a : Abort} {out : List Byte} :
    (f.data = [] → (arrive s p).segmented p ocSegReadStart f = (t, a, out) → exec (.segReadStart p f) s = .next (respond t p ocSegReadStart f a out))
    ∧ (f.data = [] → (arrive s p).segmented p ocSegAbort f = (t, a, out) → exec (.segAbort p f) s = .next (respond t p ocSegAbort f a out))
    ∧ (f.data.length = 5 → (arrive s p).segmented p ocSegRead f = (t, a, out) → exec (.segRead p f) s = .next (respond t p ocSegRead f a out))
    ∧ (f.data.length = 10 → (arrive s p).segmented p ocSegWriteStart f = (t, a, out) →
        exec (.segWriteStart p f) s = .next (respond t p ocSegWriteStart f a out))
    ∧ (4 ≤ f.data.length → f.data.length ≤ 96 → (arrive s p).segmented p ocSegWrite f = (t, a, out) →
        exec (.segWrite p f) s = .next (respond t p ocSegWrite f a out)) := by
  have hgo {opc : Nat} (hop : SegmentOp opc f.data.length) (h : (arrive s p).segmented p opc f = (t, a, out)) := umner_segmented hr hres hop h
  refine ⟨fun hlen h => congrArg _ (hgo ⟨.inl rfl, ?_⟩ h), fun hlen h => congrArg _ (hgo ⟨by simp, ?_⟩ h),
    fun hlen h => congrArg _ (hgo ⟨by simp, ?_⟩ h), fun hlen h => congrArg _ (hgo ⟨by simp, ?_⟩ h),
    fun hmin hmax h => congrArg _ (hgo ⟨by simp, ?_⟩ h)⟩
  · rw [hlen]
    decide
  · rw [hlen]
    decide
  · rw [hlen]
    decide
  · rw [hlen]
    decide
  · show (decide (4 ≤ f.data.length) && decide (f.data.length ≤ 96)) = true
    rw [decide_eq_true hmin, decide_eq_true hmax]
    rfl

end

/-- A whole value written as one command (log entry 42). -/
theorem domainWrite_answers {s t : State} {p : Path} {i : Nat} {value : List Byte} {a : Abort} (hr : Reaches s p)
    (h : (((arrive s p).setSession p none).setEnded p 0).dictWrite p i 1 value none true = (t, a)) :
    s.domainWrite p i value = respond t p ocSegWrite { reservedSet := false, tid := 0, index := i, sub := 1, data := [] } a [] := by
  obtain ⟨-, hserving, hbus⟩ := hr
  cases p with
  | link =>
    have h' : ((s.goodFrame.setSession .link none).setEnded .link 0).dictWrite .link i 1 value none true = (t, a) := h
    unfold State.domainWrite
    rw [if_neg (by rw [hserving, hbus rfl]; decide)]
    dsimp only
    rw [h']
    rfl
  | host =>
    have h' : ((s.setSession .host none).setEnded .host 0).dictWrite .host i 1 value none true = (t, a) := h
    unfold State.domainWrite
    rw [if_neg (by rw [hserving]; simp)]
    dsimp only
    rw [h']
    rfl

theorem writeDomain_download {s : State} {b : List Byte} (hlen : 544 ≤ b.length) (hbusy : s.keepBusy [1, 2, 3, 4] = false)
    (hfitted : s.keep.fitted = true) (htrial : s.inTrial = false) : s.writeDomain 0x9001 b = .ok (s.startOp 1 (s.downloadSteps b)) := by
  simp [State.writeDomain, hbusy, hfitted, htrial, Nat.not_lt.2 hlen]

theorem writeDomain_calRecord (s : State) (b : List Byte) :
    ((b.length ≠ 4096 ∨ calReason b ≠ 0) → s.writeDomain 0x6000 b = .error abValueRange)
    ∧ (b.length = 4096 → calReason b = 0 →
      (s.keepBusy [5] = true → s.writeDomain 0x6000 b = .error (abStatus St.busy))
      ∧ (s.keepBusy [5] = false → s.writeDomain 0x6000 b = .ok (s.startOp 5 (s.calSteps b)))) := by
  have hindex : ¬ (0x6000 = 0x9001) := by decide
  unfold State.writeDomain
  refine ⟨fun hbad => (if_neg hindex).trans (if_pos hbad), fun hlen hgood => ⟨fun hbusy => ?_, fun hfree => ?_⟩⟩
  all_goals refine (if_neg hindex).trans ((if_neg (by rintro (h | h); exacts [h hlen, h hgood])).trans ?_)
  · exact if_pos hbusy
  · exact if_neg (by rw [hfree]; decide)

theorem segReadStart_cases {s : State} {f : UFrame} {e : Entry} (p : Path) (he : entryAt f.index f.sub = .ok e) (hacc : e.acc ≠ .wo) :
    (e.size = 0 → ∀ v t, s.readDomain = (v, t) → s.segReadStart p f = (t.setSession p (some {
        write := false, index := f.index, sub := f.sub, total := v.length, crc := crc32 v, expect := 0, data := v,
        lastAt := s.now }), 0, leBytes 4 v.length ++ leBytes 4 (crc32 v).toNat))
    ∧ (e.size ≠ 0 → s.segReadStart p f = (s, abSegmentRequired, [])) := by
  refine ⟨fun hsize v t hv => ?_, fun hsize => ?_⟩
  · have hread : s.dictRead f.index f.sub true = .ok (v, t) := by simp [State.dictRead, he, hacc, hsize, hv]
    unfold State.segReadStart
    rw [hread]
  · have hread : s.dictRead f.index f.sub true = .error abSegmentRequired := by simp [State.dictRead, he, hacc, hsize]
    unfold State.segReadStart
    rw [hread]

theorem segWriteStart_cases {s : State} {f : UFrame} {e : Entry} (p : Path) (he : entryAt f.index f.sub = .ok e) (hsize : e.size = 0) :
    let total := field f.data 0 4
    (1 ≤ total → total ≤ 65536 → s.segWriteStart p f = (s.setSession p (some {
        write := true, index := f.index, sub := f.sub, total := total, crc := BitVec.ofNat 32 (field f.data 4 4),
        expect := BitVec.ofNat 16 (field f.data 8 2), data := [], lastAt := s.now }), 0, []))
    ∧ ((total = 0 ∨ 65536 < total) → s.segWriteStart p f = (s, abValueRange, [])) := by
  intro total
  unfold State.segWriteStart
  rw [he]
  dsimp only
  rw [if_neg (not_not.2 hsize)]
  exact ⟨fun hmin hmax => if_neg (by omega), fun hbad => if_pos hbad⟩

theorem sessionStale_iff {s : State} {p : Path} {x : Session} (hx : s.session p = some x) :
    s.sessionStale p = decide (x.lastAt + 1000000000 ≤ s.now) := by
  unfold State.sessionStale
  rw [hx]

/-- Settles O48: sessions open, read, write and end; a whole value written as one command. -/
theorem segmentedTransfersMoveWholeValues : Obligations.SegmentedTransfersMoveWholeValues := by
  refine ⟨fun s p f hr hres hfresh => ?session, fun s p x hx => ⟨fun hlate hserver => ?late, fun hno => ?kept⟩,
    fun s p value hr => ?whole⟩
  case session =>
    intro s1 tells
    refine ⟨fun hended => ⟨fun hdata e he hacc => ?start, fun hdata e he => ?wstart, fun x hx => ?opened, fun hnone => ?shut_⟩,
      fun hended => ?told⟩
    case start =>
      have hstart := (segmented_start hfresh hended f).1
      obtain ⟨hdomain, hplain⟩ := segReadStart_cases (s := s1.setSession p none) p he hacc
      have hnow : (s1.setSession p none).now = s.now := (setSession_now ..).trans (arrive_now s p)
      rw [hnow] at hdomain
      exact ⟨fun hsize v t hv => (exec_segmented hr hres).1 hdata (hstart.trans (hdomain hsize v t hv)),
        fun hsize => (exec_segmented hr hres).1 hdata (hstart.trans (hplain hsize))⟩
    case wstart =>
      intro total
      have hstart := (segmented_start hfresh hended f).2
      have hnow : (s1.setSession p none).now = s.now := (setSession_now ..).trans (arrive_now s p)
      have hcases := segWriteStart_cases (s := s1.setSession p none) p he
      rw [hnow] at hcases
      refine ⟨fun hsize hmin hmax => (exec_segmented hr hres).2.2.2.1 hdata (hstart.trans (((hcases hsize).1 hmin hmax).trans ?_)),
        fun hsize hbad => (exec_segmented hr hres).2.2.2.1 hdata (hstart.trans ((hcases hsize).2 hbad))⟩
      cases p <;> rfl
    case opened =>
      have hseg (opc : Nat) := segmented_open hfresh hended hx opc f
      have hnow : s1.now = s.now := arrive_now s p
      have hreads := segmented_transfer hfresh hended hx (.inl rfl) f
      have hwrites := segmented_transfer hfresh hended hx (.inr rfl) f
      refine ⟨fun hdata => (exec_segmented hr hres).2.1 hdata (hseg _), fun hlen hindex hsub hread => ?read, fun hmin hmax hindex hsub hwrite => ?write,
        fun hlen hother => (exec_segmented hr hres).2.2.1 hlen (hreads.1 (hother.imp_right (Or.imp_right fun h => by rw [h]; decide)))⟩
      case read =>
        intro n t
        have hrun : s1.segmented p ocSegRead f = s1.segRead p x f :=
          (hreads.2 hindex hsub hread).trans (if_neg (by rw [hread]; decide))
        obtain ⟨hgood, hbad⟩ := segRead_cases s1 p x f
        rw [hnow] at hgood hbad
        exact ⟨fun hmin hmax => (exec_segmented hr hres).2.2.1 hlen (hrun.trans (hgood hmin hmax)),
          fun hout => (exec_segmented hr hres).2.2.1 hlen (hrun.trans (hbad hout))⟩
      case write =>
        intro d shut
        have hrun : s1.segmented p ocSegWrite f = s1.segWrite p x f :=
          (hwrites.2 hindex hsub hwrite).trans (if_pos hwrite)
        have htell {t : State} {a : Abort} (h : s1.segWrite p x f = (t, a, [])) := (exec_segmented hr hres).2.2.2.2 hmin hmax (hrun.trans h)
        obtain ⟨hoff, hat⟩ := segWrite_cases s1 p x f
        rw [hnow] at hat
        refine ⟨fun hbad => htell (hoff hbad), fun hplace => ?_⟩
        obtain ⟨hshort, hfull⟩ := hat hplace
        refine ⟨fun hless => htell (hshort hless), fun hall hcrc => htell ((hfull hall).1 hcrc), fun hall hcrc e he => ?_⟩
        have hepochs : shut.bus.epochs = s1.bus.epochs := setSession_epochs ..
        obtain ⟨hother, hsame⟩ := dictWrite_domain (expect := if x.expect = 0 then none else some x.expect) he
        rw [hepochs] at hother hsame
        refine ⟨fun hexpect hepoch => htell ((hfull hall).2 _ _ hcrc (hother x.expect (if_neg hexpect) hepoch)), fun hepoch => ?_⟩
        obtain ⟨herror, hok⟩ := hsame fun y hy => by
          rcases hepoch with hepoch | hepoch
          · rw [if_pos hepoch] at hy
            exact absurd hy (by simp)
          · split at hy
            · exact absurd hy (by simp)
            · rw [← Option.some.inj hy]
              exact hepoch
        exact ⟨fun a ha => htell ((hfull hall).2 _ _ hcrc (herror a ha)), fun u hu => htell ((hfull hall).2 _ _ hcrc (hok u hu))⟩
    case shut_ =>
      have hseg (opc : Nat) := segmented_none hfresh hended hnone opc f
      exact ⟨fun hlen => (exec_segmented hr hres).2.2.1 hlen (hseg _), fun hmin hmax => (exec_segmented hr hres).2.2.2.2 hmin hmax (hseg _),
        fun hdata => (exec_segmented hr hres).2.1 hdata (hseg _)⟩
    case told =>
      have hseg (opc : Nat) := segmented_told hfresh hended opc f
      exact ⟨fun hdata => ⟨(exec_segmented hr hres).2.1 hdata (hseg _), (exec_segmented hr hres).1 hdata (hseg _)⟩,
        fun hlen => (exec_segmented hr hres).2.2.1 hlen (hseg _)⟩
  case late =>
    have hgo : (s.sessionStale p && s.server != .waiting) = true := by
      rw [sessionStale_iff hx, decide_eq_true hlate, bne_iff_ne.2 hserver]
      rfl
    have hend : s.endSession p abSegTimeout = (s.setSession p none).setEnded p abSegTimeout := by
      unfold State.endSession
      rw [hx]
    exact congrArg _ ((if_pos hgo).trans hend)
  case kept =>
    have hstay : ¬ ((s.sessionStale p && s.server != .waiting) = true) := by
      rw [sessionStale_iff hx]
      rcases hno with h | h
      · rw [decide_eq_false (Nat.not_le.2 h)]
        simp
      · rw [h]
        simp
    exact congrArg _ (if_neg hstay)
  case whole =>
    intro s1 f
    refine ⟨fun e he => ?download, fun e he => ?cal⟩
    case download =>
      have hwrite := (dictWrite_domain (expect := none) he).2 (fun _ h => absurd h (by simp))
      exact ⟨fun a ha => congrArg _ (domainWrite_answers hr (hwrite.1 a ha)), fun hlen hbusy hfitted htrial =>
        congrArg _ (domainWrite_answers hr (hwrite.2 _ (writeDomain_download hlen hbusy hfitted htrial)))⟩
    case cal =>
      have hwrite := (dictWrite_domain (expect := none) he).2 (fun _ h => absurd h (by simp))
      obtain ⟨hbad, hgood⟩ := writeDomain_calRecord s1 value
      exact ⟨fun h => congrArg _ (domainWrite_answers hr (hwrite.1 _ (hbad h))),
        fun hlen hcal hbusy => congrArg _ (domainWrite_answers hr (hwrite.1 _ ((hgood hlen hcal).1 hbusy))),
        fun hlen hcal hfree => congrArg _ (domainWrite_answers hr (hwrite.2 _ ((hgood hlen hcal).2 hfree)))⟩

end Sys2Proof.Proofs
end

section
/-! PROOFS. Settings, claims and requests with rows of their own (obligation O49). -/
namespace Sys2Proof.Proofs
open Sys2Proof Sys2Proof.Machine Sys2Proof.Safety Sys2Proof.Laws

-- Rows of their own (13 R286, 14 R293, R298) --------------------------------------------------------------------------------------

section
variable {s : State} {p : Path} {f : UFrame} {v : Nat} (hw : WriteGood s p f v) (hplain : ¬(f.index = 0x2004 ∧ f.sub = 2))
include hw hplain

/-- A row's write whose checks have passed: what the device refuses, and what it takes. -/
theorem entryWrite_good {ok : Bool} (hok : ok = true) :
    (∀ a, (arrive s p).writeEffect p f.index f.sub v true = .error a → s.entryWrite p f ok = respond (arrive s p) p ocWrite f a [])
    ∧ ∀ u, (arrive s p).writeEffect p f.index f.sub v true = .ok u → s.entryWrite p f ok = written (arrive s p) u p f := by
  have hgo : s.entryWrite p f ok = s.umner p ocWrite f := if_pos hok
  rw [hgo]
  exact ⟨fun a ha => umner_write_of_writeEffect_error hw hplain ha, fun u hu => umner_write_of_writeEffect_ok hw hplain hu⟩

end

@[simp] theorem arrive_keep (s : State) (p : Path) : (arrive s p).keep = s.keep := by
  cases p with
  | link =>
    unfold arrive State.goodFrame
    dsimp only
    split
    · rw [event_keep]
    · rfl
  | host => rfl

/-- A frame's arrival leaves Topcoat's record but for the events held. -/
theorem arrive_mgc (s : State) (p : Path) : SameMgc s.mgc (arrive s p).mgc := by
  cases p with
  | link =>
    unfold arrive State.goodFrame
    dsimp only
    split
    · exact event_mgc ..
    · exact rfl
  | host => exact rfl

/-- The management link's request acts as a source, whatever its level is. -/
theorem actSource_request {s : State} (hphase : s.rst.phase = .none) : s.actSource 7 0 = withActing s 7 0 := by
  have hwide : s.wideRuns = false := by simp [State.wideRuns, hphase]
  have hl2 : s.l2Runs = false := by simp [State.l2Runs, hphase]
  have hlevel : s.levelOf 7 = 0 ∨ s.levelOf 7 = 1 ∨ s.levelOf 7 = 2 := by
    unfold State.levelOf
    dsimp only
    split
    next hmem => simpa [allowedLevels] using List.contains_iff_mem.1 hmem
    next => simp [allowedLevels]
  rcases hlevel with h | h | h <;> simp [State.actSource, hwide, hl2, h, State.pushActing, withActing]

theorem setting_setSetting_same (s : State) (i k v : Nat) : (s.setSetting i k v).setting i k = v := tabGetD_set_same ..

theorem setting_setSetting_other (s : State) {i k j l : Nat} (v : Nat) (h : dictKey j l ≠ dictKey i k) :
    (s.setSetting i k v).setting j l = s.setting j l := tabGetD_set_other _ _ _ h

/-- What the range check of a claim leaves: a path claims a group for itself while no other holds it, and gives back its own. -/
theorem claim_range {s : State} {p : Path} {f : UFrame} {v : Nat} (hw : WriteGood s p f v) (hi : f.index = 0x2010) :
    (v = 0 ∨ v = pathValue p)
    ∧ (v ≠ 0 → tabGetD (arrive s p).bus.claims (f.sub - 1) 0 = 0 ∨ tabGetD (arrive s p).bus.claims (f.sub - 1) 0 = pathValue p)
    ∧ (v = 0 → tabGetD (arrive s p).bus.claims (f.sub - 1) 0 = pathValue p) := by
  obtain ⟨-, -, -, -, e, -, -, hrange⟩ := hw
  have hpath : abClaimPath ≠ 0 := by decide
  have hother : abClaimedByOther ≠ 0 := by decide
  unfold State.rangeFault at hrange
  rw [if_pos hi] at hrange
  dsimp only at hrange
  split at hrange
  next hv =>
    split at hrange
    next hheld => exact ⟨.inl hv, fun h => absurd hv h, fun _ => hheld⟩
    next => exact absurd hrange hpath
  next hv =>
    split at hrange
    next => exact absurd hrange hpath
    next hvalue =>
      split at hrange
      next => exact absurd hrange hother
      next hfree => exact ⟨.inr (not_not.1 hvalue), fun _ => by omega, fun h => absurd h hv⟩

/-- RESTORE_DEFAULT's row. -/
theorem exec_restoreDefault {s : State} {p : Path} {f : UFrame} {v : Nat} (hw : WriteGood s p f v) (hi : f.index = 0x2004) (hsub : f.sub = 2) :
    (∀ a, (arrive s p).restoreDefaults p v = .error a → exec (.restoreDefault p f) s = .next (respond (arrive s p) p ocWrite f a []))
    ∧ ∀ u, (arrive s p).restoreDefaults p v = .ok u → exec (.restoreDefault p f) s = .next (written (arrive s p) u p f) := by
  have hgo : s.entryWrite p f (f.index == 0x2004 && f.sub == 2) = s.umner p ocWrite f := if_pos (by rw [hi, hsub]; rfl)
  have hdict {r : State × Abort} (hr : Except.casesOn ((arrive s p).restoreDefaults p v) (fun a => (arrive s p, a))
      (fun u => (alerted (arrive s p) (u.bumpEpoch p f.index), (0 : Abort))) = r) :
      (arrive s p).dictWrite p f.index f.sub f.data none false = r := by
    obtain ⟨-, -, -, hv, e, hfault, hsize, hrange⟩ := hw
    subst hr
    unfold State.dictWrite
    rw [hfault]
    dsimp only
    rw [if_neg hsize, hv, hrange, if_neg (not_not.2 rfl), if_neg Bool.false_ne_true, if_neg hsize, if_pos ⟨hi, hsub⟩]
    cases (arrive s p).restoreDefaults p v <;> rfl
  exact ⟨fun a ha => congrArg _ (hgo.trans (umner_of_dictWrite hw (hdict (by rw [ha])))),
    fun u hu => congrArg _ (hgo.trans (umner_of_dictWrite hw (hdict (by rw [hu]))))⟩

-- RESTORE_DEFAULT (14 R293) ---------------------------------------------------------------------------------------------------------

theorem restoreDefaults_claimed {s : State} {p : Path} {v g : Nat} (hg : g < 7) (hbit : bit v g = true)
    (hheld : tabGetD s.bus.claims g 0 ≠ 0) (hother : tabGetD s.bus.claims g 0 ≠ pathValue p) :
    s.restoreDefaults p v = .error abClaimedByOther := by
  unfold State.restoreDefaults
  refine if_pos (List.any_eq_true.2 ⟨g, ?_, ?_⟩)
  · simp [hg, hbit]
  · simp [hheld, hother]

/-- One setting put to its default, unless an earlier one was refused. -/
def defaulted (p : Path) (r : Written) (k : Nat × Nat) : Written :=
  r.bind fun t => t.writeEffect p k.1 k.2 (dictDefault k.1 k.2) false

/-- Settings of the host-loss group changed: memory and other settings stay. -/
def HostLossOnly (s u : State) : Prop :=
  view u = view s ∧ ∀ i k, i ≠ 0x2100 → k < 256 → u.setting i k = s.setting i k

theorem HostLossOnly.trans {a b c : State} (h : HostLossOnly a b) (k : HostLossOnly b c) : HostLossOnly a c :=
  ⟨k.1.trans h.1, fun i j hi hj => (k.2 i j hi hj).trans (h.2 i j hi hj)⟩

theorem dictKey_ne {i j k l : Nat} (hk : k < 256) (hl : l < 256) (h : i ≠ j ∨ k ≠ l) : dictKey i k ≠ dictKey j l := by
  unfold dictKey
  omega

/-- A setting of the host-loss group written. -/
theorem writeEffect_hostLoss (s : State) (p : Path) {k : Nat} (hk : k < 256) (v : Nat) (sums : Bool) :
    ∃ u, s.writeEffect p 0x2100 k v sums = .ok u ∧ HostLossOnly s u ∧ u.setting 0x2100 k = v
      ∧ ∀ j, j < 256 → j ≠ k → u.setting 0x2100 j = s.setting 0x2100 j := by
  have hset (u : State) (hu : u.dict = (s.setSetting 0x2100 k v).dict) (hview : view u = view (s.setSetting 0x2100 k v)) :
      HostLossOnly s u ∧ u.setting 0x2100 k = v ∧ ∀ j, j < 256 → j ≠ k → u.setting 0x2100 j = s.setting 0x2100 j := by
    unfold State.setting
    rw [hu]
    refine ⟨⟨hview.trans (by simp), fun i j hi hj => ?_⟩, tabGetD_set_same .., fun j hj hne => ?_⟩
    · unfold State.setting
      rw [hu]
      exact tabGetD_set_other _ _ _ (dictKey_ne hj hk (.inl hi))
    · exact tabGetD_set_other _ _ _ (dictKey_ne hj hk (.inr hne))
  obtain ⟨u, heffect, hdict, hview⟩ : ∃ u, s.writeEffect p 0x2100 k v sums = .ok u ∧ u.dict = (s.setSetting 0x2100 k v).dict
      ∧ view u = view (s.setSetting 0x2100 k v) := by
    unfold State.writeEffect
    rw [if_neg (by decide), if_neg (by decide), if_neg (by decide), if_neg (by decide), if_neg (by decide), if_pos rfl]
    refine ⟨_, rfl, ?_, ?_⟩
    all_goals dsimp only
    · split
      · split <;> rfl
      · rfl
      · rfl
    · split
      · split <;> simp
      · simp
      · rfl
  obtain ⟨honly, hsame, hother⟩ := hset u hdict hview
  exact ⟨u, heffect, honly, hsame, hother⟩

/-- Settings of the host-loss group put to their defaults one after another. -/
theorem defaulted_hostLoss (p : Path) (keys : List (Nat × Nat)) (hkeys : ∀ x ∈ keys, x.1 = 0x2100 ∧ x.2 < 256) (s : State) :
    ∃ u, keys.foldl (defaulted p) (.ok s) = .ok u ∧ HostLossOnly s u
      ∧ ∀ k, k < 256 → u.setting 0x2100 k = if (0x2100, k) ∈ keys then dictDefault 0x2100 k else s.setting 0x2100 k := by
  induction keys generalizing s with
  | nil => exact ⟨s, rfl, ⟨rfl, fun _ _ _ _ => rfl⟩, fun k _ => (if_neg (by simp)).symm⟩
  | cons x keys ih =>
    obtain ⟨i, k⟩ := x
    obtain ⟨rfl, hk⟩ := hkeys (i, k) List.mem_cons_self
    obtain ⟨t, ht, honly, hsame, hother⟩ := writeEffect_hostLoss s p hk (dictDefault 0x2100 k) false
    obtain ⟨u, hu, huonly, hsetting⟩ := ih (fun x hx => hkeys x (List.mem_cons_of_mem _ hx)) t
    refine ⟨u, ?_, honly.trans huonly, fun j hj => ?_⟩
    · rw [List.foldl_cons]
      have hstep : defaulted p (.ok s) (0x2100, k) = .ok t := ht
      rw [hstep, hu]
    · rw [hsetting j hj]
      by_cases hjk : j = k
      · subst hjk
        rw [if_pos List.mem_cons_self, hsame]
        exact ite_self _
      · have hmem : ((0x2100, j) ∈ (0x2100, k) :: keys) ↔ (0x2100, j) ∈ keys := by simp [hjk]
        rw [hother j hj hjk]
        simp only [hmem]

/-- RESTORE_DEFAULT of the host-loss group alone. -/
theorem restoreDefaults_hostLoss {s : State} {p : Path} (hfree : tabGetD s.bus.claims 3 0 = 0 ∨ tabGetD s.bus.claims 3 0 = pathValue p)
    (hidle : s.keepBusy [6] = false) : ∃ u, s.restoreDefaults p 8 = .ok u ∧ HostLossOnly s u
      ∧ ∀ k, 1 ≤ k → k ≤ 4 → u.setting 0x2100 k = dictDefault 0x2100 k := by
  have hgroups : (List.range 7).filter (fun g => bit 8 g) = [3] := by decide
  have hgroup : ([3] : List Nat).flatMap groupKeys = [(0x2100, 1), (0x2100, 2), (0x2100, 3), (0x2100, 4)] := by decide
  have hclaim : ¬ (([3] : List Nat).any (fun g => tabGetD s.bus.claims g 0 != 0 && tabGetD s.bus.claims g 0 != pathValue p) = true) := by
    rcases hfree with h | h <;> simp [h]
  have hbusy : ¬ (s.keepBusy [6] = true) := by rw [hidle]; decide
  generalize hkeys : (([3] : List Nat).flatMap groupKeys).filter (fun k => s.liveValue k.1 k.2 != dictDefault k.1 k.2) = keys
  have hkey (x : Nat × Nat) (hx : x ∈ keys) : x.1 = 0x2100 ∧ 1 ≤ x.2 ∧ x.2 ≤ 4 := by
    rw [← hkeys, hgroup] at hx
    have hmem := (List.mem_filter.1 hx).1
    simp only [List.mem_cons, List.not_mem_nil, or_false] at hmem
    rcases hmem with rfl | rfl | rfl | rfl <;> decide
  have hshares : ¬ (keys.any (fun k => k.1 == 0x2000 || k.2 == 6) = true) := by
    rw [List.any_eq_true]
    rintro ⟨x, hx, hbad⟩
    obtain ⟨hindex, hmin, hmax⟩ := hkey x hx
    simp only [Bool.or_eq_true, beq_iff_eq] at hbad
    omega
  obtain ⟨t, hfold, honly, hsetting⟩ := defaulted_hostLoss p keys (fun x hx => ⟨(hkey x hx).1, by have := hkey x hx; omega⟩) s
  generalize ht1 : ((keys.map (·.1)).eraseDups).foldl (fun t i => t.bumpEpoch p i) t = t1
  have hkept : t1.dict = t.dict ∧ view t1 = view t := by
    rw [← ht1]
    exact List.foldlRecOn (motive := fun (u : State) => u.dict = t.dict ∧ view u = view t) _ _ ⟨rfl, rfl⟩
      (fun u hu i _ => ⟨hu.1, (view_State_bumpEpoch ..).trans hu.2⟩)
  have hvals (i k : Nat) : ({ t1 with dict := { t1.dict with cmdResult := tabSet t1.dict.cmdResult (dictKey 0x2004 2) 0 } } : State).setting i k
      = t.setting i k := by
    show tabGetD t1.dict.vals (dictKey i k) (dictDefault i k) = _
    rw [hkept.1]
    rfl
  refine ⟨{ t1 with dict := { t1.dict with cmdResult := tabSet t1.dict.cmdResult (dictKey 0x2004 2) 0 } }, ?_, ?_, ?_⟩
  · unfold State.restoreDefaults
    rw [hgroups]
    refine (if_neg hclaim).trans ((if_neg hbusy).trans ?_)
    dsimp only
    rw [hkeys]
    generalize hr : List.foldl _ (Except.ok s) keys = r
    obtain rfl : r = .ok t := by
      rw [← hr, ← hfold]
      congr 1
      funext x k
      cases x <;> rfl
    dsimp only
    rw [ht1]
    exact if_neg (by rw [Bool.and_eq_true]; exact fun h => hshares h.1)
  · exact honly.trans ⟨hkept.2, fun i k _ _ => hvals i k⟩
  · intro k hmin hmax
    have hk : k < 256 := by omega
    refine (hvals ..).trans ((hsetting k hk).trans ?_)
    split
    · rfl
    next hout =>
      have hlisted : (0x2100, k) ∈ ([3] : List Nat).flatMap groupKeys := by
        rw [hgroup]
        have hcases : k = 1 ∨ k = 2 ∨ k = 3 ∨ k = 4 := by omega
        rcases hcases with rfl | rfl | rfl | rfl <;> decide
      have hdefault : s.liveValue 0x2100 k = dictDefault 0x2100 k := by
        rw [← hkeys, List.mem_filter] at hout
        simpa using not_and.1 hout hlisted
      refine Eq.trans ?_ hdefault
      have hcases : k = 1 ∨ k = 2 ∨ k = 3 ∨ k = 4 := by omega
      rcases hcases with rfl | rfl | rfl | rfl <;> rfl

/-- Settles O49: each row's write, its checks passed, takes effect as its entry says. -/
theorem settingsAndRequestsByWrite : Obligations.SettingsAndRequestsByWrite := by
  intro s p f v hw s1 takes fails
  have hnow : s1.now = s.now := arrive_now s p
  refine ⟨fun hi hsub hphase => ?reset, fun hi hsub => ?ack, fun hi => ?claim, fun hi hsub => ?store, fun hi hsub => ?restore,
    fun hi hsub => ?host, fun hi hsub => ?link⟩
  case reset =>
    have hplain : ¬(f.index = 0x2004 ∧ f.sub = 2) := by omega
    have hphase' : ({ s1 with dict := { s1.dict with cmdResult := tabSet s1.dict.cmdResult (dictKey 0x2002 1) 0 } } : State).rst.phase = .none :=
      (congrArg Rst.phase (arrive_rst s p)).trans hphase
    have heffect : s1.writeEffect p f.index f.sub v true = .ok (withActing { s1 with dict := { s1.dict with
        cmdResult := tabSet s1.dict.cmdResult (dictKey 0x2002 1) 0 } } 7 0) := by
      rw [hi, ← actSource_request hphase']
      rfl
    exact congrArg _ ((entryWrite_good hw hplain (by rw [hi, hsub]; rfl)).2 _ heffect)
  case ack =>
    have hplain : ¬(f.index = 0x2004 ∧ f.sub = 2) := by omega
    refine congrArg _ ((entryWrite_good hw hplain (by rw [hi, hsub]; rfl)).2 _ ?_)
    rw [hi]
    rfl
  case claim =>
    have hplain : ¬(f.index = 0x2004 ∧ f.sub = 2) := by omega
    obtain ⟨hzero, hheld, hmine⟩ := claim_range hw hi
    refine ⟨hzero, hheld, hmine, congrArg _ ((entryWrite_good hw hplain (by rw [hi]; rfl)).2 _ ?_)⟩
    rw [hi]
    rcases hzero with h | h
    · rw [h]
      rfl
    · have hne : v ≠ 0 := by
        rw [h]
        cases p <;> decide
      have hvalue : (if v = 0 then 0 else pathValue p) = v := (if_neg hne).trans h.symm
      refine Eq.trans (b := .ok { s1 with bus := { s1.bus with claims := tabSet s1.bus.claims (f.sub - 1) (if v = 0 then 0 else pathValue p) } }) rfl ?_
      rw [hvalue]
  case store =>
    have hplain : ¬(f.index = 0x2004 ∧ f.sub = 2) := by omega
    obtain ⟨hfails, htakes⟩ := entryWrite_good hw hplain (ok := f.index == 0x2004 && f.sub == 1) (by rw [hi, hsub]; rfl)
    have heffect : s1.writeEffect p f.index f.sub v true = s1.writeStore := by rw [hi]; rfl
    refine ⟨fun hbusy => congrArg _ (hfails _ (heffect.trans (if_pos hbusy))), fun hidle hfit => congrArg _ (hfails _ (heffect.trans ?_)),
      fun hidle hfit => ⟨(s1.storeSteps s1.settingsArea).2, congrArg _ (htakes _ (heffect.trans ?_))⟩⟩
    · exact (if_neg (by rw [hidle]; decide)).trans (if_pos (by rw [hfit]; rfl))
    · exact (if_neg (by rw [hidle]; decide)).trans (if_neg (by rw [hfit]; decide))
  case restore =>
    obtain ⟨hfails, htakes⟩ := exec_restoreDefault hw hi hsub
    refine ⟨hfails, htakes, fun g hg hbit hheld hother => hfails _ (restoreDefaults_claimed hg hbit hheld hother), fun hv hfree hidle => ?_⟩
    obtain ⟨u, hu, ⟨hview, hothers⟩, hdefaults⟩ := restoreDefaults_hostLoss hfree hidle
    exact ⟨u, htakes u (hv ▸ hu), still_of_view hview, hdefaults, hothers⟩
  case host =>
    have hplain : ¬(f.index = 0x2004 ∧ f.sub = 2) := by omega
    intro t
    refine ⟨congrArg _ ((entryWrite_good hw hplain (by rw [hi, hsub]; rfl)).2 _ ?_), setting_setSetting_same ..⟩
    have harrive := arrive_mgc s p
    have harmed : t.mgc.armed = s.mgc.armed := by
      show s1.mgc.armed = _
      rw [show s1.mgc = _ from harrive]
    have hbase : t.mgc.beatBase = s.mgc.beatBase := by
      show s1.mgc.beatBase = _
      rw [show s1.mgc = _ from harrive]
    have heffect : s1.writeEffect p f.index f.sub v true
        = .ok (if t.mgc.armed then { t with mgc := { t.mgc with beatBase := t.now } } else t) := by
      rw [hi, hsub]
      rfl
    rw [heffect, ← harmed]
    split
    · exact congrArg (fun n => Except.ok { t with mgc := { t.mgc with beatBase := n } }) hnow
    · rw [← hbase]
  case link =>
    have hplain : ¬(f.index = 0x2004 ∧ f.sub = 2) := by omega
    intro t
    refine ⟨congrArg _ ((entryWrite_good hw hplain (by rw [hi, hsub]; rfl)).2 _ ?_), setting_setSetting_same ..⟩
    have heffect : s1.writeEffect p f.index f.sub v true = .ok { t with bus := { t.bus with goodAt := t.now } } := by
      rw [hi, hsub]
      rfl
    rw [heffect]
    exact congrArg (fun n => Except.ok { t with bus := { t.bus with goodAt := n } }) hnow

end Sys2Proof.Proofs
end

section
/-! PROOFS. Entries of partitions, instances, power and updates (obligation O51). -/
namespace Sys2Proof.Proofs
open Sys2Proof Sys2Proof.Machine Sys2Proof.Safety Sys2Proof.Laws

-- A frame that has arrived (13 R288) ------------------------------------------------------------------------------------------------

theorem arrive_frame (s : State) (p : Path) : arrive s p = { s with
    insts := (arrive s p).insts
    link := (arrive s p).link
    mgc := (arrive s p).mgc
    bus := (arrive s p).bus } := by
  cases p with
  | link =>
    unfold arrive State.goodFrame
    dsimp only
    split
    · rw [(toldOnly_event ..).2]
    · rfl
  | host => rfl

theorem arrive_link (s : State) (p : Path) : SameLink s.link (arrive s p).link := by
  cases p with
  | link =>
    unfold arrive State.goodFrame
    dsimp only
    split
    · exact event_link ..
    · exact .refl _
  | host => exact .refl _

theorem arrive_insts (s : State) (p : Path) : SameInsts s (arrive s p) := by
  cases p with
  | link =>
    unfold arrive State.goodFrame
    dsimp only
    split
    · exact SameInsts.trans (b := { s with bus := { s.bus with goodAt := s.now, lost := false } }) ⟨fun _ => rfl⟩ (event_insts ..)
    · exact ⟨fun _ => rfl⟩
  | host => exact .refl _

-- ENABLE, RETIRE and the budget (14 R302, R303, R306) -----------------------------------------------------------------------------------

/-- Only contracts and what is told of them differ. -/
def RiskOnly (s t : State) : Prop := t = { s with contracts := t.contracts, insts := t.insts, link := t.link, mgc := t.mgc }

theorem RiskOnly.trans {a b c : State} (h : RiskOnly a b) (k : RiskOnly b c) : RiskOnly a c := by
  unfold RiskOnly at *
  rw [k, h]

theorem riskOnly_told (s : State) (id : Nat) (f : Contract → Contract) (code subject : Nat) (a b : Bool) (payload : List Byte) :
    RiskOnly s ((s.updContract id f).event code subject a b payload) := by
  unfold RiskOnly
  rw [(toldOnly_event ..).2]
  rfl

theorem riskOnly_missRisk (s : State) (id reason part : Nat) : RiskOnly s (s.missRisk id reason part) := by
  unfold State.missRisk
  split
  · split
    · exact riskOnly_told ..
    · exact rfl
  · exact rfl

theorem riskOnly_missClear (s : State) (id : Nat) : RiskOnly s (s.missClear id) := by
  unfold State.missClear
  split
  · split
    · exact riskOnly_told ..
    · exact rfl
  · exact rfl

theorem riskOnly_foldl {α : Type} (g : State → α → State) (hg : ∀ t x, RiskOnly t (g t x)) (l : List α) (s : State) :
    RiskOnly s (l.foldl g s) := by
  induction l generalizing s with
  | nil => exact rfl
  | cons x l ih => exact RiskOnly.trans (hg s x) (ih _)

theorem riskOnly_riskOffline (s : State) (p : Nat) : RiskOnly s (s.riskOffline p) :=
  riskOnly_foldl _ (fun t id => by
    split
    · exact riskOnly_missRisk ..
    · exact rfl) _ s

theorem riskOnly_riskScan (s : State) : RiskOnly s s.riskScan :=
  riskOnly_foldl _ (fun t id => by
    split
    · split
      · exact rfl
      · exact riskOnly_missRisk ..
    · exact riskOnly_missClear ..) _ s

theorem RiskOnly.part {s t : State} (h : RiskOnly s t) (q : Nat) : t.part q = s.part q := by
  unfold State.part
  rw [h]

theorem RiskOnly.setting {s t : State} (h : RiskOnly s t) (i k : Nat) : t.setting i k = s.setting i k := by
  unfold State.setting
  rw [h]

theorem writeEffect_part (s : State) (p : Path) {i : Nat} (v : Nat) (hi : i / 16 = 0x300) :
    s.writeEffect p i 1 v true = s.writeEnable (i % 16) v ∧ s.writeEffect p i 7 v true = s.writeRetire (i % 16) v := by
  have below : ∀ j, j < 0x3000 → i ≠ j := by omega
  constructor <;> simp [State.writeEffect, hi, below]

theorem writeEffect_instance (s : State) (p : Path) {i : Nat} (sub v : Nat) (hmin : 0x4000 ≤ i) (hmax : i ≤ 0x4020) :
    s.writeEffect p i sub v true = s.writeInstance (i - 0x4000) sub v true := by
  have below : ∀ j, j < 0x4000 → i ≠ j := by omega
  have hpart : i / 16 ≠ 0x300 := by omega
  simp [State.writeEffect, hpart, below, hmin, hmax]

/-- ENABLE written: the partition is in service or not, and the others stay. -/
theorem writeEnable_spec (s : State) (k : Nat) :
    (s.leavesUnserved k = true → s.writeEnable k 0 = .error (abStatus St.contractBound))
    ∧ (s.leavesUnserved k = false → ∃ u, s.writeEnable k 0 = .ok u ∧ view u = view s ∧ (u.part k).enabled = false ∧ ∀ q, q ≠ k → u.part q = s.part q)
    ∧ ∃ u, s.writeEnable k 1 = .ok u ∧ view u = view s ∧ (u.part k).enabled = true ∧ ∀ q, q ≠ k → u.part q = s.part q := by
  refine ⟨fun hbound => (if_pos rfl).trans (if_pos hbound), fun hfree => ⟨_, (if_pos rfl).trans (if_neg (by rw [hfree]; decide)), ?_, ?_, fun q hq => ?_⟩,
    ⟨_, if_neg (by decide), ?_, ?_, fun q hq => ?_⟩⟩
  · simp
  · rw [(riskOnly_riskOffline ..).part, updPart_part_same]
  · rw [(riskOnly_riskOffline ..).part, updPart_part_other _ _ hq]
  · simp
  · rw [(riskOnly_riskScan ..).part, updPart_part_same]
  · rw [(riskOnly_riskScan ..).part, updPart_part_other _ _ hq]

theorem gateRetired_retired (s : State) (k : Nat) : ((s.gateRetired k).part k).retired = (s.part k).retired := by
  unfold State.gateRetired State.gateIfIdle
  split
  · rfl
  · dsimp only
    split
    · rw [updPart_part_same]
      rfl
    · rfl

theorem retired_of_stepped {a b : Part} (h : Stepped a b) : b.retired = a.retired := by rw [h]

/-- A partition that resets keeps whether it is retired. -/
theorem startL5_retired (s : State) (k : Nat) : ((s.startL5 k).part k).retired = (s.part k).retired := by
  unfold State.startL5
  dsimp only
  split
  · rfl
  · split
    · rw [updPart_part_same]
    · rw [retired_of_stepped (reassess_partsStepped _ k), alerted_part, updPart_part_same]
      rfl

theorem actSource_retired (s : State) (k : Nat) : ((s.actSource 13 k).part k).retired = (s.part k).retired := by
  have hlevel := levelOf_partReset s
  unfold State.actSource
  rw [hlevel]
  dsimp only
  split
  · split <;> rfl
  · split
    · rfl
    · exact startL5_retired s k

/-- RETIRE written. -/
theorem writeRetire_spec (s : State) (k : Nat) :
    ((s.part k).retired = false → (∀ st, s.revokeAll k = .error st → s.writeRetire k 1 = .error (abStatus st))
      ∧ ∀ t, s.revokeAll k = .ok t → ∃ u, s.writeRetire k 1 = .ok u ∧ (u.part k).retired = true)
    ∧ ((s.part k).retired = true → s.writeRetire k 1 = .ok s)
    ∧ ((s.part k).retired = true → ∃ u, s.writeRetire k 0 = .ok u ∧ (u.part k).retired = false)
    ∧ ((s.part k).retired = false → s.writeRetire k 0 = .ok s) := by
  unfold State.writeRetire
  refine ⟨fun hin => ⟨fun st hst => ?_, fun t ht => ?_⟩, fun hout => ?_, fun hout => ?_, fun hin => ?_⟩
  · refine (if_pos rfl).trans ((if_neg (by rw [hin]; decide)).trans ?_)
    rw [hst]
    rfl
  · refine ⟨(t.updPart k (fun x => { x with retired := true })).gateRetired k,
      (if_pos rfl).trans ((if_neg (by rw [hin]; decide)).trans ?_), ?_⟩
    · rw [ht]
    · rw [gateRetired_retired, updPart_part_same]
  · exact (if_pos rfl).trans (if_pos hout)
  · refine ⟨_, (if_neg (by decide)).trans (if_pos hout), ?_⟩
    rw [actSource_retired, updPart_part_same]
  · exact (if_neg (by decide)).trans (if_neg (by rw [hin]; decide))

-- PRIV_SHARE_MBPS (14 R305) ----------------------------------------------------------------------------------------------------------

/-- Limits taken over from the dictionary: the shares of the window that runs stay. -/
theorem syncLimits_spec (t : State) (n : Nat) : view (t.syncLimits n) = view t ∧ (t.syncLimits n).dict = t.dict
    ∧ ((t.inst n).state ≠ .absent → ((t.syncLimits n).inst n).limits = t.dictLimits n ∧ (t.syncLimits n).sharesNow n = t.sharesNow n) := by
  unfold State.syncLimits
  split
  next habsent => exact ⟨rfl, rfl, fun h => absurd (eq_of_beq habsent) h⟩
  next =>
    refine ⟨by simp, rfl, fun _ => ⟨?_, tabGetD_set_same ..⟩⟩
    rw [updInst_inst_same]

theorem writeInstance_share (s : State) (n v : Nat) :
    (s.freezes n = true → s.writeInstance n 6 v true = .error (abStatus St.instanceState))
    ∧ (s.freezes n = false → (s.setSetting (0x4000 + n) 6 v).sharesFit = false → s.writeInstance n 6 v true = .error (abStatus St.shareSum))
    ∧ (s.freezes n = false → (s.setSetting (0x4000 + n) 6 v).sharesFit = true →
      ∃ u, s.writeInstance n 6 v true = .ok u ∧ view u = view s ∧ u.setting (0x4000 + n) 6 = v
        ∧ ((s.inst n).state ≠ .absent → (u.inst n).limits.privShare = v ∧ u.sharesNow n = s.sharesNow n)) := by
  have hlimit : ¬ (s.limitInUse n 6 v = true) := by simp [State.limitInUse]
  unfold State.writeInstance
  refine ⟨fun hfreeze => if_pos hfreeze, fun hthaw hfit => ?_, fun hthaw hfit => ?_⟩
  · refine (if_neg (by rw [hthaw]; decide)).trans ((if_neg hlimit).trans (if_pos ?_))
    rw [hfit]
    rfl
  · refine ⟨_, (if_neg (by rw [hthaw]; decide)).trans ((if_neg hlimit).trans (if_neg (by rw [hfit]; decide))), ?_⟩
    have hsetting : (s.setSetting (0x4000 + n) 6 v).setting (0x4000 + n) 6 = v := setting_setSetting_same ..
    have hview : view (s.setSetting (0x4000 + n) 6 v) = view s := by simp
    have hstate : ((s.setSetting (0x4000 + n) 6 v).inst n).state = (s.inst n).state := rfl
    have hshares : (s.setSetting (0x4000 + n) 6 v).sharesNow n = s.sharesNow n := rfl
    generalize s.setSetting (0x4000 + n) 6 v = t at *
    obtain ⟨hsview, hdict, hsync⟩ := syncLimits_spec t n
    generalize t.syncLimits n = w at *
    obtain ⟨hframe, hinsts, -⟩ := powerOnly_reassess w
    refine ⟨(view_State_reassess _).trans (hsview.trans hview), ?_, fun hexists => ?_⟩
    · unfold State.setting
      rw [hframe]
      show tabGetD w.dict.vals _ _ = v
      rw [hdict]
      exact hsetting
    · obtain ⟨hlimits, hnow⟩ := hsync (by rw [hstate]; exact hexists)
      refine ⟨?_, ?_⟩
      · rw [hinsts.eq n]
        show (w.inst n).limits.privShare = v
        rw [hlimits]
        exact hsetting
      · rw [← hshares, ← hnow]
        unfold State.sharesNow
        rw [hinsts.eq n, hframe]

-- POWER_STATE_REQ (16 R347, R348) ----------------------------------------------------------------------------------------------------------

theorem preemptParts_state (s : State) (sel : Nat → Bool) (q : Nat) : ((s.preemptParts sel).part q).state = (s.part q).state := by
  unfold State.preemptParts
  refine List.foldlRecOn (motive := fun (t : State) => (t.part q).state = (s.part q).state) _ _ rfl (fun t ht k _ => ?_)
  split
  · split
    · exact ht
    · by_cases hq : q = k
      · subst hq
        rw [updPart_part_same]
        exact ht
      · rw [updPart_part_other _ _ hq]
        exact ht
  · exact ht

/-- A request to wake the host (20 R439). -/
def wakes (s : State) (v : Nat) : Bool := decide (v = 0) && s.pins.modeP && s.link.l2

/-- The request stored, with the host woken where it asks so. -/
def requested (s : State) (v : Nat) : State :=
  let t := s.setSetting 0x5000 1 v
  { t with pins := { t.pins with wakeN := if wakes s v then false else t.pins.wakeN } }

/-- The power controller with a request taken up. -/
def aimed (u : State) (trickle v : Nat) : State :=
  { u with pwr := { u.pwr with
      target := some v
      tricklePart := if v = 1 then trickle else u.pwr.tricklePart } }

theorem writePowerState_cases (s : State) (v : Nat) :
    (v ≠ 0 → s.powerContract v = true → s.writePowerState v = .error (abStatus St.powerContract))
    ∧ ((v = 0 ∨ s.powerContract v = false) →
      (s.pwr.target.getD s.pwr.pstate = v → s.writePowerState v = .ok (requested s v))
      ∧ (s.pwr.target.getD s.pwr.pstate ≠ v → 
        s.writePowerState v = .ok ((aimed (requested s v) s.trickleFor v).preemptParts (aimed (requested s v) s.trickleFor v).powerGates))) := by
  have hstored : (if wakes s v = true then { s.setSetting 0x5000 1 v with pins := { (s.setSetting 0x5000 1 v).pins with wakeN := false } }
      else s.setSetting 0x5000 1 v) = requested s v := by
    unfold requested
    dsimp only
    split <;> rfl
  unfold State.writePowerState
  refine ⟨fun hv hbound => if_pos (by rw [hbound, decide_eq_true hv]; rfl), fun hgood => ?_⟩
  have hpass : ¬ ((decide (v ≠ 0) && s.powerContract v) = true) := by
    rcases hgood with h | h <;> simp [h]
  refine ⟨fun hsame => (if_neg hpass).trans ((if_pos hsame).trans (congrArg Except.ok hstored)), fun hother =>
    (if_neg hpass).trans ((if_neg hother).trans ?_)⟩
  exact congrArg (fun u => Except.ok ((aimed u s.trickleFor v).preemptParts (aimed u s.trickleFor v).powerGates)) hstored

-- The stages of an update (19 R415 to R419) -------------------------------------------------------------------------------------------------

theorem writeStage_cases (s : State) (sub : Nat) :
    (s.keepBusy [1, 2, 3, 4] = true → s.writeStage sub = .error (abStatus St.busy))
    ∧ (s.keepBusy [1, 2, 3, 4] = false → s.keep.fitted = false → s.writeStage sub = .error (abStatus St.keepStoreFail))
    ∧ (s.keepBusy [1, 2, 3, 4] = false → s.keep.fitted = true →
      s.writeStage 2 = s.writeVerify ∧ s.writeStage 3 = s.writeActivate ∧ s.writeStage 4 = s.writeConfirm) := by
  unfold State.writeStage
  refine ⟨fun hbusy => if_pos hbusy, fun hidle hfit => ?_, fun hidle hfit => ?_⟩
  · exact (if_neg (by rw [hidle]; decide)).trans (if_pos (by rw [hfit]; rfl))
  · have h1 : ¬ (s.keepBusy [1, 2, 3, 4] = true) := by rw [hidle]; decide
    have h2 : ¬ ((!s.keep.fitted) = true) := by rw [hfit]; decide
    exact ⟨(if_neg h1).trans (if_neg h2), (if_neg h1).trans (if_neg h2), (if_neg h1).trans (if_neg h2)⟩

theorem writeVerify_cases (s : State) : let b := s.bankState s.inactive
    ((b = 1 ∨ b = 2 ∨ b = 4) → ∃ steps, s.writeVerify = .ok (s.startOp 2 steps))
    ∧ (b ≠ 1 → b ≠ 2 → b ≠ 4 → s.writeVerify = .error (abStatus St.updateState)) := by
  intro b
  unfold State.writeVerify
  refine ⟨fun hb => ⟨_, if_neg ?_⟩, fun h1 h2 h4 => if_pos ?_⟩
  · show ¬ ((!([1, 2, 4].contains b)) = true)
    rcases hb with h | h | h <;> rw [h] <;> decide
  · show (!([1, 2, 4].contains b)) = true
    simp [h1, h2, h4]

theorem writeActivate_cases (s : State) : let b := s.bankState s.inactive
    (s.inTrial = false → (b = 2 ∨ b = 4) → ∃ steps, s.writeActivate = .ok (s.startOp 3 steps))
    ∧ ((s.inTrial = true ∨ (b ≠ 2 ∧ b ≠ 4)) → s.writeActivate = .error (abStatus St.updateState)) := by
  intro b
  unfold State.writeActivate
  refine ⟨fun htrial hb => ⟨_, if_neg ?_⟩, fun hbad => if_pos ?_⟩
  · show ¬ ((s.inTrial || !([2, 4].contains b)) = true)
    rw [htrial]
    rcases hb with h | h <;> rw [h] <;> decide
  · show (s.inTrial || !([2, 4].contains b)) = true
    rcases hbad with h | ⟨h2, h4⟩
    · rw [h]
      rfl
    · simp [h2, h4]

theorem writeConfirm_cases (s : State) :
    (s.inTrial = true → s.selected = some s.cal.activeBank → ∃ steps, s.writeConfirm = .ok (s.startOp 4 steps))
    ∧ ((s.inTrial = false ∨ s.selected ≠ some s.cal.activeBank) → s.writeConfirm = .error (abStatus St.updateState)) := by
  unfold State.writeConfirm
  refine ⟨fun htrial hsel => ⟨_, if_pos ?_⟩, fun hbad => if_neg ?_⟩
  · rw [htrial, hsel]
    simp
  · rcases hbad with h | h
    · rw [h]
      simp
    · simp [h]

end Sys2Proof.Proofs
end

section
/-! PROOFS. The entries of partitions, instances, power and updates, settled (obligation O51). -/
namespace Sys2Proof.Proofs
open Sys2Proof Sys2Proof.Machine Sys2Proof.Safety Sys2Proof.Laws

/-- The three later stages of an update have one row each. -/
def stageCmd (p : Path) (f : UFrame) : Instr := if f.sub = 2 then .verify p f else if f.sub = 3 then .activate p f else .confirm p f

theorem exec_stageCmd {s : State} {p : Path} {f : UFrame} {v : Nat} (hw : WriteGood s p f v) (hi : f.index = 0x9001) (hmin : 2 ≤ f.sub)
    (hmax : f.sub ≤ 4) :
    (∀ a, (arrive s p).writeStage f.sub = .error a → exec (stageCmd p f) s = .next (respond (arrive s p) p ocWrite f a []))
    ∧ ∀ u, (arrive s p).writeStage f.sub = .ok u → exec (stageCmd p f) s = .next (written (arrive s p) u p f) := by
  have hplain : ¬(f.index = 0x2004 ∧ f.sub = 2) := by omega
  have heffect : (arrive s p).writeEffect p f.index f.sub v true = (arrive s p).writeStage f.sub := by rw [hi]; rfl
  have hexec : exec (stageCmd p f) s = .next (s.entryWrite p f true) := by
    have hcases : f.sub = 2 ∨ f.sub = 3 ∨ f.sub = 4 := by omega
    unfold stageCmd
    rcases hcases with h | h | h <;> simp [h, hi, exec, execVerify, execActivate, execConfirm]
  obtain ⟨hfails, htakes⟩ := entryWrite_good hw hplain (ok := true) rfl
  rw [hexec]
  exact ⟨fun a ha => congrArg _ (hfails a (heffect.trans ha)), fun u hu => congrArg _ (htakes u (heffect.trans hu))⟩

/-- Settles O51: each row's write, its checks passed, takes effect or is refused by the conditions of its entry. -/
theorem partitionInstancePowerAndUpdateEntries : Obligations.PartitionInstancePowerAndUpdateEntries := by
  intro s p f v hw s1 takes fails starts
  have hparts (q : Nat) : s1.part q = s.part q := arrive_part ..
  refine ⟨fun hi hsub => ?enable, fun hi hsub => ?retire, fun hmin hmax hsub => ?share, fun hi hsub => ?power, fun hi hsub => ?budget,
    fun hi hmin hmax => ?stage⟩
  case enable =>
    have hplain : ¬(f.index = 0x2004 ∧ f.sub = 2) := by omega
    obtain ⟨hfails, htakes⟩ := entryWrite_good hw hplain (ok := f.index / 16 == 0x300 && f.sub == 1) (by rw [hi, hsub]; rfl)
    have heffect : s1.writeEffect p f.index f.sub v true = s1.writeEnable (f.index % 16) v := by
      rw [hsub]
      exact (writeEffect_part s1 p v hi).1
    obtain ⟨hbound, hoff, hon⟩ := writeEnable_spec s1 (f.index % 16)
    refine ⟨fun hv hserves => congrArg _ (hfails _ (heffect.trans (hv ▸ hbound hserves))), fun hv hfree => ?_, fun hv => ?_⟩
    · obtain ⟨u, hu, hview, hset, hothers⟩ := hoff hfree
      exact ⟨u, congrArg _ (htakes _ (heffect.trans (hv ▸ hu))), still_of_view hview, hset, fun q hq => (hothers q hq).trans (hparts q)⟩
    · obtain ⟨u, hu, hview, hset, hothers⟩ := hon
      exact ⟨u, congrArg _ (htakes _ (heffect.trans (hv ▸ hu))), still_of_view hview, hset, fun q hq => (hothers q hq).trans (hparts q)⟩
  case retire =>
    have hplain : ¬(f.index = 0x2004 ∧ f.sub = 2) := by omega
    obtain ⟨hfails, htakes⟩ := entryWrite_good hw hplain (ok := f.index / 16 == 0x300 && f.sub == 7) (by rw [hi, hsub]; rfl)
    have heffect : s1.writeEffect p f.index f.sub v true = s1.writeRetire (f.index % 16) v := by
      rw [hsub]
      exact (writeEffect_part s1 p v hi).2
    have hspec := writeRetire_spec s1 (f.index % 16)
    rw [hparts] at hspec
    obtain ⟨hnew, hagain, hback, hstays⟩ := hspec
    refine ⟨fun hv hin => ⟨fun st hst => congrArg _ (hfails _ (heffect.trans (hv ▸ (hnew hin).1 st hst))), fun t ht => ?_⟩,
      fun hv hout => congrArg _ (htakes _ (heffect.trans (hv ▸ hagain hout))), fun hv hout => ?_,
      fun hv hin => congrArg _ (htakes _ (heffect.trans (hv ▸ hstays hin)))⟩
    · obtain ⟨u, hu, hset⟩ := (hnew hin).2 t ht
      exact ⟨u, congrArg _ (htakes _ (heffect.trans (hv ▸ hu))), hset⟩
    · obtain ⟨u, hu, hset⟩ := hback hout
      exact ⟨u, congrArg _ (htakes _ (heffect.trans (hv ▸ hu))), hset⟩
  case share =>
    intro n
    have hplain : ¬(f.index = 0x2004 ∧ f.sub = 2) := by omega
    obtain ⟨hfails, htakes⟩ := entryWrite_good hw hplain (ok := decide (0x4000 ≤ f.index ∧ f.index ≤ 0x4020) && f.sub == 6)
      (by rw [decide_eq_true ⟨hmin, hmax⟩, hsub]; rfl)
    have heffect : s1.writeEffect p f.index f.sub v true = s1.writeInstance n 6 v true := by
      rw [hsub]
      exact writeEffect_instance s1 p 6 v hmin hmax
    have hindex : 0x4000 + n = f.index := by omega
    have hspec := writeInstance_share s1 n v
    rw [hindex] at hspec
    obtain ⟨hfreeze, hsum, hgood⟩ := hspec
    refine ⟨fun h => congrArg _ (hfails _ (heffect.trans (hfreeze h))), fun h hfit => congrArg _ (hfails _ (heffect.trans (hsum h hfit))),
      fun h hfit => ?_⟩
    obtain ⟨u, hu, hview, hset, hlimits⟩ := hgood h hfit
    refine ⟨u, congrArg _ (htakes _ (heffect.trans hu)), still_of_view hview, hset, fun hexists => hlimits ?_⟩
    rw [(arrive_insts s p).eq n]
    exact hexists
  case power =>
    have hplain : ¬(f.index = 0x2004 ∧ f.sub = 2) := by omega
    obtain ⟨hfails, htakes⟩ := entryWrite_good hw hplain (ok := f.index == 0x5000 && f.sub == 1) (by rw [hi, hsub]; rfl)
    have heffect : s1.writeEffect p f.index f.sub v true = s1.writePowerState v := by rw [hi]; rfl
    obtain ⟨hbound, hgood⟩ := writePowerState_cases s1 v
    have hpwr : s1.pwr = s.pwr := by rw [show s1 = _ from arrive_frame s p]
    have hpins : s1.pins = s.pins := by rw [show s1 = _ from arrive_frame s p]
    have hl2 : s1.link.l2 = s.link.l2 := by
      rw [show s1.link = _ from arrive_link s p]
    refine ⟨fun hv hcontract => congrArg _ (hfails _ (heffect.trans (hbound hv hcontract))), fun hv => ?_⟩
    intro wakes_
    have hwakes : wakes s1 v = decide wakes_ := by
      unfold wakes
      rw [hpins, hl2, Bool.eq_iff_iff]
      simp [wakes_, and_assoc]
    obtain ⟨hsame, hother⟩ := hgood hv
    rw [hpwr] at hsame hother
    refine ⟨fun htarget => congrArg _ (htakes _ (heffect.trans ((hsame htarget).trans ?_))), fun htarget => ?_⟩
    · have hwaken : (if wakes s1 v = true then false else s1.pins.wakeN) = if wakes_ then false else s.pins.wakeN := by
        rw [hwakes, hpins]
        by_cases h : wakes_
        · rw [if_pos h, if_pos (decide_eq_true h)]
        · rw [if_neg h, if_neg (by rw [decide_eq_false h]; decide)]
      refine congrArg Except.ok ?_
      unfold requested
      rw [← hwaken]
      rfl
    · refine ⟨_, congrArg _ (htakes _ (heffect.trans (hother htarget))), ?_, ?_, ?_, ?_, fun hw => ?_, fun q => ?_⟩
      · refine still_of_view ((view_State_preemptParts ..).trans ?_)
        rfl
      · rw [preemptParts_frame]
        rfl
      · rw [preemptParts_frame]
        exact setting_setSetting_same ..
      · rw [preemptParts_frame]
        show s1.pwr.pstate = _
        rw [hpwr]
      · rw [preemptParts_frame]
        show (if wakes s1 v = true then false else s1.pins.wakeN) = false
        rw [hwakes, decide_eq_true hw]
        rfl
      · rw [preemptParts_state]
        exact congrArg Part.state (hparts q)
  case budget =>
    have hplain : ¬(f.index = 0x2004 ∧ f.sub = 2) := by omega
    obtain ⟨-, htakes⟩ := entryWrite_good hw hplain (ok := f.index == 0x5001 && f.sub == 1) (by rw [hi, hsub]; rfl)
    have heffect : s1.writeEffect p f.index f.sub v true = .ok ((s1.setSetting 0x5001 1 v).reassess).riskScan := by rw [hi, hsub]; rfl
    refine ⟨_, congrArg _ (htakes _ heffect), still_of_view (by simp), ?_, fun q => ?_⟩
    · rw [(riskOnly_riskScan _).setting]
      obtain ⟨hframe, -⟩ := powerOnly_reassess (s1.setSetting 0x5001 1 v)
      unfold State.setting
      rw [hframe]
      exact setting_setSetting_same ..
    · rw [(riskOnly_riskScan _).part]
      have hstep := reassess_partsStepped (s1.setSetting 0x5001 1 v) q
      rw [← hparts q]
      exact hstep
  case stage =>
    intro c
    obtain ⟨hfails, htakes⟩ := exec_stageCmd hw hi hmin hmax
    obtain ⟨hbusy, hmissing, hrun⟩ := writeStage_cases s1 f.sub
    refine ⟨fun h => hfails _ (hbusy h), fun hidle hfit => hfails _ (hmissing hidle hfit), fun hidle hfit => ?_⟩
    obtain ⟨hverify, hactivate, hconfirm⟩ := hrun hidle hfit
    have hcmd2 (h : f.sub = 2) : stageCmd p f = .verify p f := if_pos h
    have hcmd3 (h : f.sub = 3) : stageCmd p f = .activate p f := by unfold stageCmd; rw [h]; rfl
    have hcmd4 (h : f.sub = 4) : stageCmd p f = .confirm p f := by unfold stageCmd; rw [h]; rfl
    refine ⟨fun hsub => ?_, fun hsub => ?_, fun hsub => ?_⟩
    · rw [hsub, hverify] at hfails htakes
      rw [hcmd2 hsub] at htakes
      obtain ⟨hstarts, hrefused⟩ := writeVerify_cases s1
      refine ⟨fun hb => ?_, fun h1 h2 h4 => hfails _ (hrefused h1 h2 h4)⟩
      obtain ⟨steps, hsteps⟩ := hstarts hb
      exact ⟨steps, htakes _ hsteps⟩
    · rw [hsub, hactivate] at hfails htakes
      rw [hcmd3 hsub] at htakes
      obtain ⟨hstarts, hrefused⟩ := writeActivate_cases s1
      refine ⟨fun htrial hb => ?_, fun hbad => hfails _ (hrefused hbad)⟩
      obtain ⟨steps, hsteps⟩ := hstarts htrial hb
      exact ⟨steps, htakes _ hsteps⟩
    · rw [hsub, hconfirm] at hfails htakes
      rw [hcmd4 hsub] at htakes
      obtain ⟨hstarts, hrefused⟩ := writeConfirm_cases s1
      refine ⟨fun htrial hsel => ?_, fun hbad => hfails _ (hrefused hbad)⟩
      obtain ⟨steps, hsteps⟩ := hstarts htrial hsel
      exact ⟨steps, htakes _ hsteps⟩

end Sys2Proof.Proofs
end

section
/-! PROOFS. The bus, the tunnel of the mailbox, silence on the management link and the keep-store engine (obligation O52). -/
namespace Sys2Proof.Proofs
open Sys2Proof Sys2Proof.Machine Sys2Proof.Safety Sys2Proof.Laws

-- Command codes of the bus (13 R270, R272 to R275) --------------------------------------------------------------------------

theorem ccc_on {s : State} (hon : s.busOn = true) (out : List Byte) (f : Link → Link) :
    s.ccc out f = { s with bus := { f s.bus with busOut := out } } := if_pos hon

theorem ccc_off {s : State} (hoff : s.busOn = false) (out : List Byte) (f : Link → Link) : s.ccc out f = s :=
  if_neg (by rw [hoff]; exact Bool.false_ne_true)

theorem server_of_busOn {s : State} (hon : s.busOn = true) : s.server ≠ .off := by
  simp only [State.busOn, Bool.and_eq_true, bne_iff_ne] at hon
  exact hon.1

theorem exec_getStatus_on {s : State} (hon : s.busOn = true) : ∃ t, exec .getStatus s = .next t ∧ t.bus.busOut.length = 2
    ∧ t = { s with freeCount := t.freeCount, bus := { s.bus with busOut := t.bus.busOut } } := by
  have hframe := freeBytes_frame 2 s
  have hon' : (freeBytes 2 s).2.busOn = true := by rw [hframe]; exact hon
  have hexec : exec .getStatus s
      = .next { (freeBytes 2 s).2 with bus := { (freeBytes 2 s).2.bus with busOut := (freeBytes 2 s).1 } } :=
    congrArg _ ((if_pos hon).trans (ccc_on hon' _ id))
  refine ⟨_, hexec, rfl, ?_⟩
  rw [hframe]

theorem exec_addresses_on {s : State} (hon : s.busOn = true) (a : BitVec 7) :
    (s.bus.dynAddr = none →
      exec (.setdasa a) s = .next { s with bus := { s.bus with dynAddr := some a, busOut := [] } }
      ∧ exec (.entdaa a) s = .next { s with bus := { s.bus with dynAddr := some a, busOut := pidBytes ++ [0x06, 0x00] } }
      ∧ exec (.setnewda a) s = .next s)
    ∧ (s.bus.dynAddr.isSome = true →
      exec (.setnewda a) s = .next { s with bus := { s.bus with dynAddr := some a, busOut := [] } }
      ∧ exec (.setdasa a) s = .next s ∧ exec (.entdaa a) s = .next s) := by
  refine ⟨fun hnone => ?_, fun hsome => ?_⟩
  · have hunset : ¬ s.bus.dynAddr.isSome = true := by rw [hnone]; exact Bool.false_ne_true
    have hnone' : s.bus.dynAddr.isNone = true := by rw [hnone]; rfl
    exact ⟨congrArg _ ((if_neg hunset).trans (ccc_on hon ..)), congrArg _ ((if_neg hunset).trans (ccc_on hon ..)),
      congrArg _ (if_pos hnone')⟩
  · have hset : ¬ s.bus.dynAddr.isNone = true := by
      rw [← Option.not_isSome, hsome]
      exact Bool.false_ne_true
    exact ⟨congrArg _ ((if_neg hset).trans (ccc_on hon ..)), congrArg _ (if_pos hsome), congrArg _ (if_pos hsome)⟩

/-- While the target does not answer, an address command finds either its own refusal or a bus that is off. -/
theorem exec_addresses_off {s : State} (hoff : s.busOn = false) (a : BitVec 7) :
    exec (.setnewda a) s = .next s ∧ exec (.setdasa a) s = .next s ∧ exec (.entdaa a) s = .next s := by
  simp only [exec, execSetnewda, execSetdasa, execEntdaa, ccc_off hoff, ite_self, and_self]

-- Frames that fail (13 R279 to R281) ----------------------------------------------------------------------------------------

theorem exec_requestFrameError_length {s : State} {b : List Byte} (hon : s.busOn = true) (hlen : b.length < 10 ∨ 106 < b.length) :
    exec (.requestFrameError b) s
      = .next { s with bus := { s.bus with response := s.responseFrame 0 0 0 0 abFrameLength [] } } := by
  simp only [exec, execRequestFrameError, hon, Bool.not_true, Bool.false_eq_true, if_false, if_pos hlen]

theorem frameFault_crc {b : List Byte} (hcrc : frameCrcOk b = false) : frameFault b = abFrameCrc := by
  simp only [frameFault, hcrc, Bool.not_false, if_true]

theorem frameFault_length {b : List Byte} (hcrc : frameCrcOk b = true) (hlen : b.length ≠ 10 + field b 5 1 ∨ 96 < field b 5 1) :
    frameFault b = abFrameLength := by
  simp only [frameFault, hcrc, Bool.not_true, Bool.false_eq_true, if_false, if_pos hlen]

theorem frameFault_none {b : List Byte} (hcrc : frameCrcOk b = true) (hlen : b.length = 10 + field b 5 1) (hmax : b.length ≤ 106) :
    frameFault b = 0 := by
  have hgood : ¬ (b.length ≠ 10 + field b 5 1 ∨ 96 < field b 5 1) := by omega
  simp only [frameFault, hcrc, Bool.not_true, Bool.false_eq_true, if_false, if_neg hgood]

section
variable {s : State} {b : List Byte} (hon : s.busOn = true) (hmin : 10 ≤ b.length) (hmax : b.length ≤ 106)
include hon hmin hmax

theorem exec_requestFrameError_fault {a : Abort} (hfault : frameFault b = a) (hne : a ≠ 0) :
    exec (.requestFrameError b) s
      = .next (respond (if a = abFrameCrc then s else s.goodFrame) .link (parseFrame b).1 (parseFrame b).2 a []) := by
  have hlen : ¬ (b.length < 10 ∨ 106 < b.length) := by omega
  simp only [exec, execRequestFrameError, hon, Bool.not_true, Bool.false_eq_true, if_false, if_neg hlen]
  split
  next hzero => exact absurd (hfault.symm.trans hzero) hne
  next => rw [hfault]; rfl

theorem exec_requestFrameError_good (hfault : frameFault b = 0) :
    exec (.requestFrameError b) s = .next (s.umner .link (parseFrame b).1 (parseFrame b).2) := by
  have hlen : ¬ (b.length < 10 ∨ 106 < b.length) := by omega
  simp only [exec, execRequestFrameError, hon, Bool.not_true, Bool.false_eq_true, if_false, if_neg hlen]
  split
  next => rfl
  next hne => exact absurd hfault hne

end

theorem exec_requestFrameError {s : State} (b : List Byte) :
    (s.busOn = false → exec (.requestFrameError b) s = .next s)
    ∧ (s.busOn = true → (b.length < 10 ∨ 106 < b.length) → exec (.requestFrameError b) s =
        .next { s with bus := { s.bus with response := s.responseFrame 0 0 0 0 abFrameLength [] } })
    ∧ (s.busOn = true → 10 ≤ b.length → b.length ≤ 106 →
      (frameCrcOk b = false →
        exec (.requestFrameError b) s = .next (respond s .link (parseFrame b).1 (parseFrame b).2 abFrameCrc []))
      ∧ (frameCrcOk b = true → (b.length ≠ 10 + field b 5 1 ∨ 96 < field b 5 1) → exec (.requestFrameError b) s =
          .next (respond s.goodFrame .link (parseFrame b).1 (parseFrame b).2 abFrameLength []))
      ∧ (frameCrcOk b = true → b.length = 10 + field b 5 1 → (parseFrame b).1 = ocRead →
        exec (.requestFrameError b) s = exec (.read .link (parseFrame b).2) s)) := by
  refine ⟨fun hoff => congrArg _ (if_pos (by rw [hoff]; rfl)), exec_requestFrameError_length, fun hon hmin hmax =>
    ⟨fun hcrc => ?_, fun hcrc hlen => ?_, fun hcrc hlen hread => ?_⟩⟩
  · exact exec_requestFrameError_fault hon hmin hmax (frameFault_crc hcrc) (by decide)
  · exact exec_requestFrameError_fault hon hmin hmax (frameFault_length hcrc hlen) (by decide)
  · rw [exec_requestFrameError_good hon hmin hmax (frameFault_none hcrc hlen hmax), hread]
    rfl

-- The tunnel of the mailbox (13 R283) ---------------------------------------------------------------------------------------

/-- What a tunnelled frame of a good length is answered with: the fault of the frame, or the answer of the dictionary. -/
theorem tunnel_answers {u : State} {b : List Byte} (hlen : b.length = 10 + field b 5 1) :
    (∀ a, frameFault b = a → a ≠ 0 → ∀ s mb h p, Safety.Accepted s mb.val h p kDictTunnel → s.takeRequest mb.val h = u →
      carried s mb.val h p kDictTunnel = b →
      RepliesFrom (.dictTunnel mb h p) s (respond u .host (parseFrame b).1 (parseFrame b).2 a []) mb h St.ok
        (u.responseFrame (parseFrame b).1 (parseFrame b).2.tid.toNat (parseFrame b).2.index (parseFrame b).2.sub a []))
    ∧ (frameFault b = 0 → ∀ r, u.serve .host (parseFrame b).1 (parseFrame b).2 = r → ∀ s mb h p,
      Safety.Accepted s mb.val h p kDictTunnel → s.takeRequest mb.val h = u → carried s mb.val h p kDictTunnel = b →
      RepliesFrom (.dictTunnel mb h p) s (respond r.1 .host (parseFrame b).1 (parseFrame b).2 r.2.1 r.2.2) mb h St.ok
        (r.1.responseFrame (parseFrame b).1 (parseFrame b).2.tid.toNat (parseFrame b).2.index (parseFrame b).2.sub r.2.1
          r.2.2)) := by
  have hgood : ¬ b.length ≠ 10 + field b 5 1 := not_not_intro hlen
  refine ⟨fun a hfault hne s mb h p hacc hu hb => ?_, fun hfault r hr s mb h p hacc hu hb => ?_⟩
  · refine congrArg _ (message_replies hacc ?_)
    rw [hu, hb]
    refine (if_neg hgood).trans ?_
    dsimp only
    split
    next hzero => exact absurd (hfault.symm.trans hzero) hne
    next => rw [hfault]; rfl
  · refine congrArg _ (message_replies hacc ?_)
    rw [hu, hb]
    refine (if_neg hgood).trans ?_
    dsimp only
    split
    next => rw [← hr]; rfl
    next hne => exact absurd hfault hne

-- Silence on the link (13 R286, 15 R330) ------------------------------------------------------------------------------------

theorem exec_mgmtLinkLost (s : State) :
    (s.setting 0x2100 3 ≠ 0 ∧ s.bus.lost = false ∧ s.server ≠ .off ∧ s.bus.goodAt + s.setting 0x2100 3 * 1000000 ≤ s.now →
      ∃ t, exec .mgmtLinkLost s = .next t ∧ Still s t
        ∧ t.bus = { s.bus with lost := true, claims := t.bus.claims, ibis := t.bus.ibis }
        ∧ (s.setting 0x2100 4 ≠ 1 → t.bus.claims = s.bus.claims)
        ∧ (s.setting 0x2100 4 = 1 → ∀ g, tabGetD t.bus.claims g 0 =
            (if tabGetD s.bus.claims g 0 = 1 then 0 else tabGetD s.bus.claims g 0)))
    ∧ (¬ (s.setting 0x2100 3 ≠ 0 ∧ s.bus.lost = false ∧ s.server ≠ .off
        ∧ s.bus.goodAt + s.setting 0x2100 3 * 1000000 ≤ s.now) → exec .mgmtLinkLost s = .next s) := by
  have hguard : (s.setting 0x2100 3 ≠ 0 && !s.bus.lost && s.server != .off
      && decide (s.bus.goodAt + s.setting 0x2100 3 * 1000000 ≤ s.now)) = true
      ↔ (s.setting 0x2100 3 ≠ 0 ∧ s.bus.lost = false ∧ s.server ≠ .off
        ∧ s.bus.goodAt + s.setting 0x2100 3 * 1000000 ≤ s.now) := by
    simp [and_assoc]
  refine ⟨fun hdue => ?_, fun hdue => ?_⟩
  case refine_2 =>
    simp only [exec, execMgmtLinkLost, if_neg fun h => hdue (hguard.1 h)]
  simp only [exec, execMgmtLinkLost, if_pos (hguard.2 hdue)]
  refine ⟨_, rfl, still_of_view (by simp), ?_, fun hkeep => ?_, fun hfree g => ?_⟩
  · rw [alerted_eq]
    simp
  · have hkeep' : (s.setting 0x2100 4 == 1) = false := by simpa using hkeep
    rw [alerted_eq]
    simp [hkeep']
  · have hfree' : (s.setting 0x2100 4 == 1) = true := by simpa using hfree
    rw [alerted_eq]
    simp only [hfree', if_true, event_bus]
    rw [tabGetD, tabGetD, tabGet_map]
    cases tabGet s.bus.claims g <;> rfl

-- The keep-store engine (19 R400 to R402) -----------------------------------------------------------------------------------

theorem stageDone_keep (s : State) (stage : Nat) (result : Abort) :
    (s.stageDone stage result).keep = s.keep
    ∧ (stage ≠ 1 → tabGetD (s.stageDone stage result).dict.cmdResult (dictKey 0x9001 stage) 0 = result) := by
  unfold State.stageDone
  refine ⟨?_, fun hne => ?_⟩
  · rw [event_keep]
    split <;> rfl
  · simp only [event_dict, if_neg hne, tabGetD_set_same]

/-- The end of a keep-store operation records its status where its code says. -/
theorem opEnded_spec (s : State) (op : KOp) (st : Status) :
    (s.opEnded op st).keep = s.keep
    ∧ ((op.code = 3 ∨ op.code = 4) → tabGetD (s.opEnded op st).dict.cmdResult (dictKey 0x9001 op.code) 0 = abStatus st)
    ∧ (op.code = 6 → tabGetD (s.opEnded op st).dict.cmdResult (dictKey 0x2004 1) 0 = abStatus st)
    ∧ (op.code = 5 → (s.opEnded op st).cal.written = true) := by
  unfold State.opEnded
  split
  next h => exact ⟨(stageDone_keep ..).1, by omega, by omega, by omega⟩
  next h => exact ⟨by rw [event_keep], by omega, by omega, fun _ => by rw [event_cal]⟩
  next h => exact ⟨rfl, by omega, fun _ => tabGetD_set_same .., by omega⟩
  next h =>
    exact ⟨(stageDone_keep ..).1, fun hcode => (stageDone_keep ..).2 (by omega), fun hcode => absurd hcode ‹_›,
      fun hcode => absurd hcode ‹_›⟩

theorem alerted_kept (s t : State) : (alerted s t).keep = t.keep ∧ (alerted s t).dict = t.dict ∧ (alerted s t).cal = t.cal := by
  rw [alerted_eq]
  exact ⟨rfl, rfl, rfl⟩

theorem exec_keepStoreOpDone_ok {s : State} {op : KOp} {rest : List KOp} {ok : Bool} {a : Nat} (hops : s.keep.ops = op :: rest)
    (hok : ok = true ∨ op.steps = []) :
    exec (.keepStoreOpDone ok a) s = .next (alerted s
      (State.opEnded { s with keep := { s.keep with ops := rest }.doSteps op.steps } op St.ok)) := by
  have hok' : (ok || op.steps.isEmpty) = true := by simpa using hok
  simp only [exec, execKeepStoreOpDone, hops, hok', if_true]

theorem exec_keepStoreOpDone_failed {s : State} {op : KOp} {rest : List KOp} {a : Nat} (hops : s.keep.ops = op :: rest)
    (hsteps : op.steps ≠ []) :
    exec (.keepStoreOpDone false a) s = .next (alerted s (State.opEnded
      (State.event { s with keep := { s.keep with ops := rest }.failAt op.steps a } Ev.keepStoreError 0 false true
        (leBytes 1 op.code ++ leBytes 3 (sectorOf a * 4096))) op St.keepStoreFail)) := by
  have hne : ¬ (false || op.steps.isEmpty) = true := by simpa using hsteps
  simp only [exec, execKeepStoreOpDone, hops, if_neg hne]

theorem exec_keepStoreOpDone {s : State} {op : KOp} {rest : List KOp} (ok : Bool) (a : Nat) (hops : s.keep.ops = op :: rest) :
    ((ok = true ∨ op.steps = []) → ∃ t, exec (.keepStoreOpDone ok a) s = .next t
        ∧ t.keep = { s.keep with ops := rest }.doSteps op.steps
        ∧ ((op.code = 3 ∨ op.code = 4) → tabGetD t.dict.cmdResult (dictKey 0x9001 op.code) 0 = 0)
        ∧ (op.code = 6 → tabGetD t.dict.cmdResult (dictKey 0x2004 1) 0 = 0)
        ∧ (op.code = 5 → t.cal.written = true) ∧ ∀ x, t.readPriv x = s.readPriv x)
    ∧ (ok = false → op.steps ≠ [] → ∃ t, exec (.keepStoreOpDone ok a) s = .next t
        ∧ t.keep = { s.keep with ops := rest }.failAt op.steps a
        ∧ ((op.code = 3 ∨ op.code = 4) →
            tabGetD t.dict.cmdResult (dictKey 0x9001 op.code) 0 = abStatus St.keepStoreFail)
        ∧ (op.code = 6 → tabGetD t.dict.cmdResult (dictKey 0x2004 1) 0 = abStatus St.keepStoreFail)) := by
  refine ⟨fun hok => ⟨_, exec_keepStoreOpDone_ok hops hok, ?_⟩, fun hfail hsteps => ?_⟩
  · obtain ⟨hkeep, hcode, hstore, hcal⟩ := opEnded_spec { s with keep := { s.keep with ops := rest }.doSteps op.steps } op St.ok
    have hview : (view (alerted s (State.opEnded { s with keep := { s.keep with ops := rest }.doSteps op.steps } op St.ok))).priv
        = s.mem.cells := by rw [view_alerted, view_State_opEnded]; rfl
    obtain ⟨akeep, adict, acal⟩ := alerted_kept s
      (State.opEnded { s with keep := { s.keep with ops := rest }.doSteps op.steps } op St.ok)
    rw [akeep, adict, acal]
    exact ⟨hkeep, hcode, hstore, hcal, fun x => congrArg (cellRead privUnlisted · x) hview⟩
  · subst hfail
    refine ⟨_, exec_keepStoreOpDone_failed hops hsteps, ?_⟩
    obtain ⟨akeep, adict, -⟩ := alerted_kept s (State.opEnded
      (State.event { s with keep := { s.keep with ops := rest }.failAt op.steps a } Ev.keepStoreError 0 false true
        (leBytes 1 op.code ++ leBytes 3 (sectorOf a * 4096))) op St.keepStoreFail)
    rw [akeep, adict]
    obtain ⟨hkeep, hcode, hstore, -⟩ := opEnded_spec (State.event { s with keep := { s.keep with ops := rest }.failAt op.steps a }
      Ev.keepStoreError 0 false true (leBytes 1 op.code ++ leBytes 3 (sectorOf a * 4096))) op St.keepStoreFail
    exact ⟨hkeep.trans (event_keep ..), hcode, hstore⟩

theorem doStep_spec (k : Keep) (a d : Nat) (bs : List Byte) :
    k.doStep (.erase a) = { k with cells := (k.doStep (.erase a)).cells, torn := (k.doStep (.erase a)).torn }
    ∧ (∀ x, x ∈ (k.doStep (.erase a)).torn ↔ x ∈ k.torn ∧ x ≠ sectorOf a)
    ∧ k.doStep (.program d bs) = { k with cells := (k.doStep (.program d bs)).cells } :=
  ⟨rfl, fun x => by simp [Keep.doStep], rfl⟩

/-- Settles O52: the commands of the bus by whether the target answers, a frame and a tunnelled frame by their fault, and the
keep store by the code of its operation. -/
theorem theBusTheTunnelAndTheKeepStore : Obligations.TheBusTheTunnelAndTheKeepStore := by
  refine ⟨?busCommands, fun s b => exec_requestFrameError b, ?tunnel, exec_mgmtLinkLost, ?keepStore,
    fun k a d bs => doStep_spec k a d bs⟩
  case busCommands =>
    refine fun s a => ⟨fun hon => ?_, rfl, fun hoff => ?_⟩
    · obtain ⟨hfree, hset⟩ := exec_addresses_on hon a
      exact ⟨congrArg _ (ccc_on hon ..), congrArg _ (ccc_on hon ..), congrArg _ (ccc_on hon ..), hfree, hset,
        congrArg _ (ccc_on hon _ id), congrArg _ (ccc_on hon _ id), congrArg _ (ccc_on hon _ id), congrArg _ (ccc_on hon _ id),
        congrArg _ (ccc_on hon _ id), exec_getStatus_on hon, congrArg _ (if_pos hon), congrArg _ (if_neg (server_of_busOn hon))⟩
    · have hoff' : ¬ s.busOn = true := by rw [hoff]; exact Bool.false_ne_true
      obtain ⟨hnew, hdasa, hdaa⟩ := exec_addresses_off hoff a
      exact ⟨congrArg _ (ccc_off hoff ..), congrArg _ (ccc_off hoff ..), congrArg _ (ccc_off hoff ..), congrArg _ (ccc_off hoff ..),
        congrArg _ (ccc_off hoff ..), congrArg _ (ccc_off hoff ..), congrArg _ (if_neg hoff'), congrArg _ (ccc_off hoff ..),
        congrArg _ (ccc_off hoff ..), hnew, hdasa, hdaa, congrArg _ (if_neg hoff')⟩
  case tunnel =>
    refine fun s mb h p hacc => ⟨fun hlen => ?_, fun hlen => ⟨fun a hfault hne => ?_, fun hfault r hr => ?_⟩⟩
    · exact congrArg _ (message_replies hacc (if_pos hlen))
    · exact (tunnel_answers hlen).1 a hfault hne s mb h p hacc rfl rfl
    · exact (tunnel_answers hlen).2 hfault r hr s mb h p hacc rfl rfl
  case keepStore =>
    refine fun s ok a => ⟨fun hops => ?_, fun op rest hops => exec_keepStoreOpDone ok a hops⟩
    simp only [exec, execKeepStoreOpDone, hops]

end Sys2Proof.Proofs
end

section
/-! PROOFS. The host link: what a translation's completion does to the access that waits for it (obligation O53). -/
namespace Sys2Proof.Proofs
open Sys2Proof Sys2Proof.Machine Sys2Proof.Safety Sys2Proof.Laws

/-- A completion of a translation request with good data ends the translation, and the requests that waited go on (04 R72, R73). -/
theorem exec_hostCompletion_translation {s : State} {tag : Nat} {data : List Byte} {r : HostReq} {w : Waiting}
    (hup : s.link.up = true) (hreq : tabGet s.link.outstanding tag = some r) (hxlat : r.xlat = some w) :
    exec (.hostCompletion tag 0 false data) s = .next ((s.endXlat tag r w 0 data).releaseWaiting) := by
  simp only [exec, execHostCompletion, hup, hreq, hxlat, Bool.not_true, Bool.and_false, Bool.false_eq_true, if_false]

/-- A write of one byte by instance 1 at the first memory controller. -/
def memoryWrite : Waiting :=
  { write := true, data := [7],
    pkt := { typ := 1, urg := 0, src := 0, dst := 17, mask := 0, inst := 1, gen := 0, slot := 0, tag := 0, tgen := 0, len := 1,
             status := 0, addr := 0x1000, hostSpace := false, bytes := 0 } }

/-- Function 0 has a translation request under tag 5 for a write of instance 1, whose function uses ATS and has no translation of
the page; 512 other requests hold the tags. -/
def crossedTranslation : State :=
  { insts := [(1, { mmu := { ats := true } })]
    mem := { oldShares := [(1, (1, 0))] }
    link := { up := true, funcs := [(1, { atsEnable := true })]
              outstanding := (5, { fn := 0, pkt := memoryWrite.pkt, sentAt := 0, xlat := some memoryWrite })
                :: List.replicate 512 (6, { fn := 0, pkt := memoryWrite.pkt, sentAt := 0 }) } }

/-- The write finds no translation for its own instance and no free tag, waits, and is performed at the controller when the
waiting requests go on. -/
theorem crossedTranslation_writes : ((crossedTranslation.endXlat 5
    { fn := 0, pkt := memoryWrite.pkt, sentAt := 0, xlat := some memoryWrite } memoryWrite 0 [2]).releaseWaiting).readPriv 0x1000
      = 7 := by decide +kernel

/-- Refutes O53: the clause of a translation's completion lets the waiting access belong to another instance than the request's
function and be bound for a memory controller; with every tag taken it is released at once and writes private memory, while the
clause says that memory is still. -/
theorem not_theHostLinkAndItsFunctions : ¬ Obligations.TheHostLinkAndItsFunctions := by
  intro h
  obtain ⟨-, -, -, -, -, hcompletion, -⟩ := h
  obtain ⟨-, -, -, htranslated, -⟩ := hcompletion crossedTranslation 5 0 false [2]
  have hreq : tabGet crossedTranslation.link.outstanding 5
      = some { fn := 0, pkt := memoryWrite.pkt, sentAt := 0, xlat := some memoryWrite } := rfl
  obtain ⟨t, hexec, hstill, -⟩ := htranslated _ memoryWrite rfl hreq rfl rfl rfl rfl rfl (by decide +kernel)
  rw [exec_hostCompletion_translation rfl hreq rfl] at hexec
  injection hexec with hsame
  have hkept : t.readPriv 0x1000 = crossedTranslation.readPriv 0x1000 := hstill.1 0x1000
  have hbefore : crossedTranslation.readPriv 0x1000 = 0 := by decide +kernel
  rw [← hsame, crossedTranslation_writes, hbefore] at hkept
  exact absurd hkept (by decide)

end Sys2Proof.Proofs
end

section
/-! PROOFS. The LDO of a partition that has settled (obligation O54). -/
namespace Sys2Proof.Proofs
open Sys2Proof Sys2Proof.Machine Sys2Proof.Safety Sys2Proof.Laws

/-- The state once the LDO of a partition has settled for a step. -/
def ldoAt (s : State) (p k : Nat) : State :=
  s.updPart p (fun x => { x with ldoMv := (s.setpoint p k).toNat, ldoSettled := true, downAt := none })

/-- The end of an LDO's settling orders the step again only where a member of the group wants one. -/
theorem exec_ldoSettled_single {s : State} {p : Fin 16} {k j q : Nat} (hwanted : (s.part p.val).stepWanted = some k)
    (hgroup : (ldoAt s p.val k).groupOf p.val = [p.val, q])
    (hp : ((ldoAt s p.val k).part p.val).stepWanted = some j)
    (hq : (((ldoAt s p.val k).orderStep p.val j).part q).stepWanted = none) :
    exec (.ldoSettled p) s = .next ((ldoAt s p.val k).orderStep p.val j) := by
  simp only [ldoAt] at hgroup hp hq ⊢
  simp only [exec, execLdoSettled, hwanted, hgroup, List.foldl_cons, List.foldl_nil, hp, hq]

/-- Two idle partitions that their cluster's shape fuses; the LDO of the first is settling for step 1, and the second's has no
output yet. -/
def fusedPair : State :=
  { parts := [(0, { state := .idle, stepWanted := some 1 }), (1, { state := .idle })], clusters := [(0, { shape := 1 })] }

/-- Refutes O54: a partition without a launch stands in its cluster's group all the same, so its step waits for the LDO of every
member, while the clause has it take the step at once. -/
theorem not_powerStatesRailsAndClocks : ¬ Obligations.PowerStatesRailsAndClocks := by
  intro h
  obtain ⟨-, -, -, hldo, -⟩ := h
  obtain ⟨-, hidle, -⟩ := hldo fusedPair 0
  have hstated := hidle 1 (by decide +kernel) (by decide +kernel) (by decide +kernel)
  rw [exec_ldoSettled_single (s := fusedPair) (p := 0) (k := 1) (j := 1) (q := 1) (by decide +kernel) (by decide +kernel)
    (by decide +kernel) (by decide +kernel)] at hstated
  injection hstated with hsame
  have hstill : (((ldoAt fusedPair 0 1).orderStep 0 1).part 0).stepWanted = some 1 := by decide +kernel
  rw [show ((ldoAt fusedPair (0 : Fin 16).val 1).orderStep (0 : Fin 16).val 1) = (ldoAt fusedPair 0 1).orderStep 0 1 from rfl]
    at hsame
  rw [hsame] at hstill
  exact absurd (hstill.symm.trans (congrArg Part.stepWanted (updPart_part_same fusedPair 0 _))) (Option.some_ne_none 1)

end Sys2Proof.Proofs
end

section
/-! PROOFS. What suspending contracts, moving clock steps and the device's own power words leave alone, for the statements on
temperature and on the wide resets (09 R198, 16 R354 to R362, 17 R364). -/
namespace Sys2Proof.Proofs
open Sys2Proof Sys2Proof.Machine Sys2Proof.Safety Sys2Proof.Laws

-- Suspended contracts (09 R198) ---------------------------------------------------------------------------------------------

/-- A contract that reserves nothing any more or is suspended. -/
def ContractIdle (t : State) (i : Nat) : Prop := ∀ k, tabGet t.contracts i = some k → k.state ≠ .admitted ∧ k.state ≠ .atRisk

theorem riskOnly_event (s : State) (code subject : Nat) (a b : Bool) (payload : List Byte) :
    RiskOnly s (s.event code subject a b payload) := by
  unfold RiskOnly
  rw [(toldOnly_event ..).2]

theorem riskOnly_suspend (s : State) (id cause : Nat) : RiskOnly s (s.suspend id cause) := by
  unfold State.suspend
  split
  · split
    · exact riskOnly_told ..
    · exact rfl
  · exact rfl

theorem riskOnly_suspendAll (s : State) (cause : Nat) : RiskOnly s (s.suspendAll cause) :=
  riskOnly_foldl (fun t id => t.suspend id cause) (fun t id => riskOnly_suspend t id cause) _ s

theorem suspend_other (s : State) {id i : Nat} (cause : Nat) (h : i ≠ id) :
    tabGet (s.suspend id cause).contracts i = tabGet s.contracts i := by
  unfold State.suspend
  split
  · split
    · rw [event_contracts]
      exact tabGet_modify_other s.contracts (fun k => { k with state := .suspended }) h
    · rfl
  · rfl

theorem suspend_idle (s : State) (id cause : Nat) : ContractIdle (s.suspend id cause) id := by
  unfold State.suspend
  split
  next k hk =>
    split
    next =>
      intro k' hk'
      rw [event_contracts] at hk'
      rw [updContract_contract, hk] at hk'
      obtain rfl := Option.some.inj hk'
      exact ⟨nofun, nofun⟩
    next hactive =>
      intro k' hk'
      rw [hk] at hk'
      obtain rfl := Option.some.inj hk'
      simpa using hactive
  next hnone =>
    intro k' hk'
    rw [hnone] at hk'
    cases hk'

theorem suspend_keeps_idle {s : State} {i : Nat} (id cause : Nat) (h : ContractIdle s i) : ContractIdle (s.suspend id cause) i := by
  by_cases hi : i = id
  · subst hi
    exact suspend_idle s i cause
  · intro k hk
    exact h k ((suspend_other s cause hi).symm.trans hk)

theorem suspendAll_idle (s : State) (cause i : Nat) : ContractIdle (s.suspendAll cause) i := by
  have hfold (l : List Nat) (u : State) (h : i ∈ l ∨ ContractIdle u i) :
      ContractIdle (l.foldl (fun t id => t.suspend id cause) u) i := by
    induction l generalizing u with
    | nil => simpa using h
    | cons id l ih =>
      refine ih _ ?_
      rcases h with hmem | hidle
      · rcases List.mem_cons.1 hmem with rfl | hmem
        · exact .inr (suspend_idle u i cause)
        · exact .inl hmem
      · exact .inr (suspend_keeps_idle id cause hidle)
  refine hfold _ s ?_
  by_cases hmem : i ∈ tabKeys s.contracts
  · exact .inl hmem
  · refine .inr fun k hk => ?_
    rw [tabGet_eq_none_of_not_mem hmem] at hk
    cases hk

/-- The trip suspends every contract that is admitted or at risk, with or without an event. -/
theorem tripContracts_spec (s : State) : RiskOnly s s.tripContracts ∧ ∀ i, ContractIdle s.tripContracts i := by
  unfold State.tripContracts
  split
  · exact ⟨riskOnly_suspendAll s 1, suspendAll_idle s 1⟩
  · refine ⟨rfl, fun i k hk => ?_⟩
    rw [tabGet_map] at hk
    obtain ⟨k0, -, hk0⟩ := Option.map_eq_some_iff.1 hk
    subst hk0
    split
    · exact ⟨nofun, nofun⟩
    next h => simpa using h

-- Clock steps (16 R352 to R355) ---------------------------------------------------------------------------------------------

/-- Only the partitions differ. -/
def PartsOnly (s t : State) : Prop := t = { s with parts := t.parts }

theorem PartsOnly.trans {a b c : State} (h : PartsOnly a b) (k : PartsOnly b c) : PartsOnly a c := by
  unfold PartsOnly at *
  rw [k, h]

theorem partsOnly_foldl {α : Type} (g : State → α → State) (hg : ∀ t x, PartsOnly t (g t x)) (l : List α) (s : State) :
    PartsOnly s (l.foldl g s) := by
  induction l generalizing s with
  | nil => exact rfl
  | cons x l ih => exact (hg s x).trans (ih _)

theorem partsOnly_orderStep (s : State) (p k : Nat) : PartsOnly s (s.orderStep p k) := by
  unfold State.orderStep
  dsimp only
  split
  · exact rfl
  · split
    · exact rfl
    · split <;> exact rfl

theorem orderStep_other (s : State) {p q : Nat} (k : Nat) (h : q ≠ p) : (s.orderStep p k).part q = s.part q := by
  unfold State.orderStep
  dsimp only
  split
  · exact updPart_part_other _ _ h
  · split
    · exact updPart_part_other _ _ h
    · split <;> exact updPart_part_other _ _ h

theorem orderStep_zero (s : State) (p : Nat) : ((s.orderStep p 0).part p).step = 0 := by
  unfold State.orderStep
  dsimp only
  split
  · rw [updPart_part_same]
  next hpos =>
    have hzero : (s.part p).step = 0 := by omega
    rw [if_pos hzero.symm, updPart_part_same]
    exact hzero

/-- A partition that is not gated goes to step 0. -/
def stopClock (t : State) (p : Nat) : State := if (t.part p).state == .gated then t else t.orderStep p 0

theorem partsOnly_stopClock (t : State) (p : Nat) : PartsOnly t (stopClock t p) := by
  unfold stopClock
  split
  · exact rfl
  · exact partsOnly_orderStep t p 0

theorem stopClock_other (t : State) {p q : Nat} (h : q ≠ p) : (stopClock t p).part q = t.part q := by
  unfold stopClock
  split
  · rfl
  · exact orderStep_other t 0 h

theorem stopClock_step {t : State} {p : Nat} (h : (t.part p).state ≠ .gated) :
    ((stopClock t p).part p).step = 0 := by
  rw [stopClock, if_neg (by simpa using h)]
  exact orderStep_zero t p

theorem foldl_stopClock (l : List Nat) (s : State) {q : Nat} (hq : q ∈ l) (h : (s.part q).state ≠ .gated) :
    ((l.foldl stopClock s).part q).step = 0 := by
  induction l generalizing s with
  | nil => cases hq
  | cons p l ih =>
    have hstate : ((stopClock s p).part q).state = (s.part q).state := by
      unfold stopClock
      split
      · rfl
      · exact state_of_stepped (orderStep_partsStepped s p 0 q)
    by_cases hrest : q ∈ l
    · exact ih _ hrest (hstate ▸ h)
    · obtain rfl : q = p := (List.mem_cons.1 hq).resolve_right hrest
      have hkept : ((l.foldl stopClock (stopClock s q)).part q) = (stopClock s q).part q := by
        refine List.foldlRecOn (motive := fun (t : State) => t.part q = (stopClock s q).part q) l _ rfl (fun t ht p hp => ?_)
        have hne : q ≠ p := fun heq => hrest (heq ▸ hp)
        rw [stopClock_other t hne, ht]
      rw [List.foldl_cons, hkept, stopClock_step h]

-- The power's own books (16 R359, R360) -------------------------------------------------------------------------------------

/-- Only the event limiter and the mark of an unmet budget differ. -/
def PwrBooked (w x : Power) : Prop :=
  x = { w with limiter := x.limiter, suppressed := x.suppressed, budgetUnmet := x.budgetUnmet }

theorem PwrBooked.trans {a b c : Power} (h : PwrBooked a b) (k : PwrBooked b c) : PwrBooked a c := by
  unfold PwrBooked at *
  rw [k, h]

theorem pwrBooked_powerEvent (s : State) (code subject : Nat) (head : List Byte) (supp : Bool) :
    PwrBooked s.pwr (s.powerEvent code subject head supp).pwr := by
  unfold State.powerEvent
  extract_lets k late n
  split
  · rw [event_pwr]
    exact rfl
  · exact rfl

theorem pwrBooked_reassess (s : State) : PwrBooked s.pwr s.reassess.pwr := by
  unfold State.reassess
  extract_lets js jobsOrdered e capped unmet booked s3
  have hjobs : PartsOnly s jobsOrdered :=
    partsOnly_foldl _ (fun t j => partsOnly_foldl _ (fun u q => partsOnly_orderStep u q _) _ t) js s
  have hcapped : PartsOnly jobsOrdered capped := by
    dsimp only [capped]
    split
    · exact rfl
    · refine partsOnly_foldl _ (fun t p => ?_) _ _
      split
      · exact partsOnly_orderStep t p e
      · exact rfl
  have hpwr : capped.pwr = s.pwr := (congrArg State.pwr (hjobs.trans hcapped) :)
  have hdecided : PwrBooked s.pwr s3.pwr := by
    rw [← hpwr]
    exact rfl
  split
  · exact PwrBooked.trans hdecided (pwrBooked_powerEvent ..)
  · exact hdecided

-- Reset sources (17 R364) ---------------------------------------------------------------------------------------------------

theorem levelOf_mem (s : State) {source : Nat} (h : (allowedLevels source).isEmpty = false) :
    s.levelOf source ∈ allowedLevels source := by
  unfold State.levelOf
  dsimp only
  split
  next hin => exact List.contains_iff_mem.1 hin
  next =>
    cases hlist : allowedLevels source with
    | nil => rw [hlist] at h; cases h
    | cons l ls => exact List.mem_cons_self

/-- A source of one of the three wide levels is put down for the FEP while no reset runs. -/
theorem actSource_wide {s : State} {source : Nat} (hphase : s.rst.phase = .none) (hlevel : s.levelOf source ≤ 2) (arg : Nat) :
    s.actSource source arg = withActing s source arg := by
  have hwide : s.wideRuns = false := by simp [State.wideRuns, hphase]
  have hl2 : s.l2Runs = false := by simp [State.l2Runs, hphase]
  have h3 : s.levelOf source ≠ 3 := by omega
  have h4 : s.levelOf source ≠ 4 := by omega
  have h5 : s.levelOf source ≠ 5 := by omega
  simp only [State.actSource, hwide, hl2, h3, h4, h5, decide_false, Bool.false_eq_true, Bool.false_and, if_false]
  rfl

theorem levelOf_trip (s : State) : s.levelOf 11 ≤ 2 := by
  have h : s.levelOf 11 ∈ [0, 1, 2] := levelOf_mem s rfl
  simp only [List.mem_cons, List.not_mem_nil, or_false] at h
  omega

end Sys2Proof.Proofs
end

section
/-! PROOFS. Temperature, PWR_CAP_N, the telemetry mirror and Topcoat's reads (obligation O55). -/
namespace Sys2Proof.Proofs
open Sys2Proof Sys2Proof.Machine Sys2Proof.Safety Sys2Proof.Laws

-- The thermal trip (16 R354) ------------------------------------------------------------------------------------------------

/-- The sensors as a sample leaves them. -/
def sampled (s : State) (ts : List Int) : State :=
  { s with pwr := { s.pwr with sensors := ts, lastHot := ts.any (fun x => decide (1100 ≤ x)) } }

theorem exec_thermalSample {s : State} {ts : List Int} (hlen : ts.length = 24) : exec (.thermalSample ts) s =
    .next (if s.pwr.tripped then (if ts.all (fun x => decide (x < 1000)) then (sampled s ts).releaseTrip else sampled s ts)
      else if ts.any (fun x => decide (1100 ≤ x)) && s.pwr.lastHot then (sampled s ts).trip
      else sampled s ts) :=
  congrArg _ (if_neg (not_not_intro hlen))

/-- The trip: every clock at step 0, no contract in force, THERM_TRIP_N low and source 11 put down. -/
theorem trip_spec {s : State} (hphase : s.rst.phase = .none) :
    view s.trip = view s
    ∧ s.trip.pwr = { s.pwr with tripped := true, tripAt := s.now }
    ∧ s.trip.pins = { s.pins with thermTripN := false }
    ∧ s.trip.rst = { s.rst with acting := s.rst.acting ++ [⟨11, s.now, 0⟩] }
    ∧ (∀ p, p < 16 → (s.part p).state ≠ .gated → (s.trip.part p).step = 0)
    ∧ ∀ i, ContractIdle s.trip i := by
  let s1 : State := { s with pwr := { s.pwr with tripped := true, tripAt := s.now }, pins := { s.pins with thermTripN := false } }
  obtain ⟨hrisk, hidle⟩ := tripContracts_spec s1
  have hview1 : view s1.tripContracts = view s := view_State_tripContracts s1
  have hparts := partsOnly_foldl stopClock partsOnly_stopClock (List.range 16) s1.tripContracts
  have hsteps (p : Nat) (hp : p < 16) (h : (s.part p).state ≠ .gated) :
      (((List.range 16).foldl stopClock s1.tripContracts).part p).step = 0 :=
    foldl_stopClock _ _ (List.mem_range.2 hp) (by rw [hrisk.part p]; exact h)
  have htrip : s.trip = alerted s ((((List.range 16).foldl stopClock s1.tripContracts).latchAlert alertTrip).actSource 11 0) := rfl
  generalize (List.range 16).foldl stopClock s1.tripContracts = s2 at *
  have hview2 : view s2 = view s := (congrArg view hparts :).trans hview1
  have hcontracts : s2.contracts = s1.tripContracts.contracts := (congrArg State.contracts hparts :)
  have hpwr : s2.pwr = s1.pwr := (congrArg State.pwr hparts :).trans (congrArg State.pwr hrisk :)
  have hpins : s2.pins = s1.pins := (congrArg State.pins hparts :).trans (congrArg State.pins hrisk :)
  have hrst : s2.rst = s.rst := (congrArg State.rst hparts :).trans (congrArg State.rst hrisk :)
  have hnow : s2.now = s.now := (congrArg State.now hparts :).trans (congrArg State.now hrisk :)
  rw [actSource_wide (s := s2.latchAlert alertTrip) (by rw [← hphase]; exact congrArg Rst.phase hrst) (levelOf_trip _)] at htrip
  rw [htrip]
  refine ⟨(view_alerted ..).trans hview2, ?_, ?_, ?_, fun p hp h => ?_, fun i k hk => ?_⟩
  · rw [alerted_eq]; exact hpwr
  · rw [alerted_eq]; exact hpins
  · rw [alerted_eq, ← hrst, ← hnow]; rfl
  · rw [alerted_part]; exact hsteps p hp h
  · rw [alerted_eq] at hk
    exact hidle i k (by rw [← hcontracts]; exact hk)

theorem sampled_cold {s : State} {ts : List Int} (h : (sampled s ts).pwr.lastHot = false) :
    sampled s ts = { s with pwr := { s.pwr with sensors := ts, lastHot := false } } := by
  rw [← h]
  rfl

theorem thermalSample_spec {s : State} {ts : List Int} (hlen : ts.length = 24) :
    (s.pwr.tripped = false → (∃ x ∈ ts, 1100 ≤ x) → s.pwr.lastHot = true → s.rst.phase = .none →
      ∃ t, exec (.thermalSample ts) s = .next t ∧ Still s t ∧ t.pwr.tripped = true ∧ t.pwr.tripAt = s.now
        ∧ t.pwr.sensors = ts ∧ t.pins.thermTripN = false
        ∧ t.rst = { s.rst with acting := s.rst.acting ++ [⟨11, s.now, 0⟩] }
        ∧ (∀ p, p < 16 → (s.part p).state ≠ .gated → (t.part p).step = 0)
        ∧ (∀ i k, tabGet t.contracts i = some k → k.state ≠ .admitted ∧ k.state ≠ .atRisk))
    ∧ (s.pwr.tripped = false → (¬ (∃ x ∈ ts, 1100 ≤ x) ∨ s.pwr.lastHot = false) →
      ∃ t, exec (.thermalSample ts) s = .next t
        ∧ t = { s with pwr := { s.pwr with sensors := ts, lastHot := t.pwr.lastHot } }
        ∧ (t.pwr.lastHot = true ↔ ∃ x ∈ ts, 1100 ≤ x))
    ∧ (s.pwr.tripped = true → (∀ x ∈ ts, x < 1000) →
      ∃ t, exec (.thermalSample ts) s = .next t
        ∧ t = { s with pwr := { s.pwr with sensors := ts, lastHot := false, tripped := false },
                       pins := { s.pins with thermTripN := true }, bus := { s.bus with ibis := t.bus.ibis } })
    ∧ (s.pwr.tripped = true → (∃ x ∈ ts, 1000 ≤ x) →
      ∃ t, exec (.thermalSample ts) s = .next t
        ∧ t = { s with pwr := { s.pwr with sensors := ts, lastHot := t.pwr.lastHot } }) := by
  have hhot : ts.any (fun x => decide (1100 ≤ x)) = true ↔ ∃ x ∈ ts, 1100 ≤ x := by simp
  have hcool : ts.all (fun x => decide (x < 1000)) = true ↔ ∀ x ∈ ts, x < 1000 := by simp
  refine ⟨fun htripped hany hlast hphase => ?_, fun htripped hno => ?_, fun htripped hall => ?_, fun htripped hany => ?_⟩
  · have hnew : (ts.any (fun x => decide (1100 ≤ x)) && s.pwr.lastHot) = true := by rw [hhot.2 hany, hlast]; rfl
    have hexec := exec_thermalSample (s := s) hlen
    rw [if_neg (by rw [htripped]; exact Bool.false_ne_true), if_pos hnew] at hexec
    obtain ⟨hview, hpwr, hpins, hrst, hstep, hidle⟩ := trip_spec (s := sampled s ts) hphase
    refine ⟨_, hexec, still_of_view hview, ?_, ?_, ?_, ?_, hrst, hstep, hidle⟩
    · rw [hpwr]
    · rw [hpwr]; rfl
    · rw [hpwr]; rfl
    · rw [hpins]
  · have hnew : ¬ (ts.any (fun x => decide (1100 ≤ x)) && s.pwr.lastHot) = true := by
      rw [Bool.and_eq_true, hhot]
      rintro ⟨hany, hlast⟩
      exact hno.elim (absurd hany) fun h => Bool.false_ne_true (h.symm.trans hlast)
    have hexec := exec_thermalSample (s := s) hlen
    rw [if_neg (by rw [htripped]; exact Bool.false_ne_true), if_neg hnew] at hexec
    exact ⟨_, hexec, rfl, hhot⟩
  · have hexec := exec_thermalSample (s := s) hlen
    rw [if_pos htripped, if_pos (hcool.2 hall)] at hexec
    refine ⟨_, hexec, ?_⟩
    have hcold : (sampled s ts).pwr.lastHot = false := by
      refine Bool.eq_false_iff.2 fun h => ?_
      obtain ⟨x, hx, hge⟩ := hhot.1 h
      have := hall x hx
      omega
    rw [sampled_cold hcold, State.releaseTrip, alerted_eq]
  · have hexec := exec_thermalSample (s := s) hlen
    have hwarm : ¬ ts.all (fun x => decide (x < 1000)) = true := by
      obtain ⟨x, hx, hge⟩ := hany
      intro h
      have := hcool.1 h x hx
      omega
    rw [if_pos htripped, if_neg hwarm] at hexec
    exact ⟨_, hexec, rfl⟩

-- The ceilings (16 R355) ----------------------------------------------------------------------------------------------------

theorem holdEvent_spec (s : State) (c : Nat) (held : Bool) :
    (s.holdEvent c held).parts = s.parts
    ∧ ∀ d, (s.holdEvent c held).cluster d = { s.cluster d with held := ((s.holdEvent c held).cluster d).held } := by
  have hupd (d : Nat) : (s.updCluster c (fun x => { x with held := held })).cluster d
      = { s.cluster d with held := ((s.updCluster c (fun x => { x with held := held })).cluster d).held } := by
    by_cases hd : d = c
    · subst hd
      rw [updCluster_cluster_same]
    · rw [updCluster_cluster_other _ _ hd]
  have htold (code : Nat) (head : List Byte) (supp : Bool) (d : Nat) :
      ((s.updCluster c (fun x => { x with held := held })).powerEvent code c head supp).cluster d
        = (s.updCluster c (fun x => { x with held := held })).cluster d := by
    have hframe := (powerOnly_powerEvent (s.updCluster c (fun x => { x with held := held })) code c head supp).1
    exact (congrArg (fun t => State.cluster t d) hframe :)
  unfold State.holdEvent
  dsimp only
  split
  · exact ⟨rfl, fun _ => rfl⟩
  · split
    · exact ⟨powerEvent_parts .., fun d => by rw [htold]; exact hupd d⟩
    · exact ⟨powerEvent_parts .., fun d => by rw [htold]; exact hupd d⟩

theorem foldl_holdEvent (h : Nat → Bool) (l : List Nat) (s : State) :
    (l.foldl (fun t c => t.holdEvent c (h c)) s).parts = s.parts
    ∧ ∀ d, ∃ b, (l.foldl (fun t c => t.holdEvent c (h c)) s).cluster d = { s.cluster d with held := b } := by
  induction l generalizing s with
  | nil => exact ⟨rfl, fun d => ⟨_, rfl⟩⟩
  | cons c l ih =>
    obtain ⟨hparts, hcluster⟩ := holdEvent_spec s c (h c)
    obtain ⟨iparts, icluster⟩ := ih (s.holdEvent c (h c))
    refine ⟨iparts.trans hparts, fun d => ?_⟩
    obtain ⟨b, hb⟩ := icluster d
    exact ⟨b, by rw [List.foldl_cons, hb, hcluster d]⟩

/-- The clusters after a change of each by its own rule. -/
theorem foldl_updCluster (f : Nat → Cluster → Cluster) {l : List Nat} (hl : l.Nodup) (s : State) :
    (l.foldl (fun t c => t.updCluster c (f c)) s).parts = s.parts
    ∧ ∀ d, (l.foldl (fun t c => t.updCluster c (f c)) s).cluster d = if d ∈ l then f d (s.cluster d) else s.cluster d := by
  induction l generalizing s with
  | nil => exact ⟨rfl, fun _ => rfl⟩
  | cons c l ih =>
    obtain ⟨hc, hl⟩ := List.nodup_cons.1 hl
    obtain ⟨iparts, icluster⟩ := ih hl (s.updCluster c (f c))
    refine ⟨iparts, fun d => ?_⟩
    rw [List.foldl_cons, icluster d]
    by_cases hd : d = c
    · subst hd
      rw [if_neg hc, if_pos List.mem_cons_self, updCluster_cluster_same]
    · rw [updCluster_cluster_other _ _ hd]
      exact if_congr (by rw [List.mem_cons, or_iff_right hd]) rfl rfl

/-- A reassessment of the clocks with the risk scan behind it leaves the clusters, and moves clock steps alone. -/
theorem reassessed_spec (s u : State) :
    (alerted s u.reassess.riskScan).clusters = u.clusters
    ∧ (alerted s u.reassess.riskScan).pins = u.pins
    ∧ ∀ q, Stepped (u.part q) ((alerted s u.reassess.riskScan).part q) := by
  have hpower := (powerOnly_reassess u).1
  have hrisk := riskOnly_riskScan u.reassess
  refine ⟨?_, ?_, fun q => ?_⟩
  · rw [alerted_eq]
    exact (congrArg State.clusters hrisk :).trans (congrArg State.clusters hpower :)
  · rw [alerted_eq]
    exact (congrArg State.pins hrisk :).trans (congrArg State.pins hpower :)
  · rw [alerted_part, hrisk.part]
    exact reassess_partsStepped u q

theorem thermalLoops_spec (s : State) :
    (∀ q, Stepped (s.part q) (s.thermalLoops.part q))
    ∧ ∀ c, c < 4 → ∃ b, s.thermalLoops.cluster c
        = { s.cluster c with ceiling := ceilingMoved (s.setting 0x5002 1) (s.clusterMax c) (s.cluster c).ceiling, held := b } := by
  unfold State.thermalLoops
  extract_lets cs limit s1 free s2 held booked s3
  obtain ⟨hparts1, hcluster1⟩ : s1.parts = s.parts ∧ ∀ c, s1.cluster c = if c ∈ cs
      then { s.cluster c with ceiling := ceilingMoved limit (s.clusterMax c) (s.cluster c).ceiling } else s.cluster c :=
    foldl_updCluster (fun c x => { x with ceiling := ceilingMoved limit (s.clusterMax c) x.ceiling }) List.nodup_range s
  obtain ⟨hparts2, hcluster2⟩ : s2.parts = s1.parts ∧ ∀ c, ∃ b, s2.cluster c = { s1.cluster c with held := b } :=
    foldl_holdEvent (fun c => s1.isHeld free c) cs s1
  obtain ⟨hparts3, hclusters3⟩ : s3.parts = s2.parts ∧ s3.clusters = s2.clusters := ⟨rfl, rfl⟩
  obtain ⟨hclusters, -, hsteps⟩ := reassessed_spec s s3
  have hcs (c : Nat) (hc : c < 4) : c ∈ cs := List.mem_range.2 hc
  clear_value s3 s2 s1 cs
  refine ⟨fun q => ?_, fun c hc => ?_⟩
  · have hq : s3.part q = s.part q :=
      congrArg (fun t => tabGetD t q ({} : Part)) (hparts3.trans (hparts2.trans hparts1))
    rw [← hq]
    exact hsteps q
  · obtain ⟨b, hb⟩ := hcluster2 c
    have hlast : (alerted s s3.reassess.riskScan).cluster c = s2.cluster c :=
      congrArg (fun t => tabGetD t c ({} : Cluster)) (hclusters.trans hclusters3)
    exact ⟨b, by rw [hlast, hb, hcluster1, if_pos (hcs c hc)]⟩

theorem ceilingMoved_cases (limit h : Int) (old : Nat) :
    (limit + 50 ≤ h → ceilingMoved limit h old = max 300 (old - 200))
    ∧ (limit ≤ h → h < limit + 50 → ceilingMoved limit h old = max 300 (old - 50))
    ∧ (limit - 30 < h → h < limit → ceilingMoved limit h old = old)
    ∧ (h ≤ limit - 30 → ceilingMoved limit h old = min 1600 (old + 25)) := by
  unfold ceilingMoved
  refine ⟨fun h1 => if_pos h1, fun h1 h2 => ?_, fun h1 h2 => ?_, fun h1 => ?_⟩
  · rw [if_neg (by omega), if_pos h1]
  · rw [if_neg (by omega), if_neg (by omega), if_neg (by omega)]
  · rw [if_neg (by omega), if_neg (by omega), if_pos h1]

-- PWR_CAP_N (16 R360, 20 R434) ----------------------------------------------------------------------------------------------

theorem setCap_spec (s : State) (high : Bool) :
    Still s (s.setCap high) ∧ (s.setCap high).pins = { s.pins with pwrCapN := high }
    ∧ ∀ q, Stepped (s.part q) ((s.setCap high).part q) := by
  obtain ⟨-, hpins, hsteps⟩ := reassessed_spec s { s with pins := { s.pins with pwrCapN := high } }
  exact ⟨still_of_view (view_State_setCap s high), hpins, hsteps⟩

theorem exec_pwrCapNFall (s : State) (ns : Nat) :
    ((s.pins.pwrGood = false ∨ s.pins.pwrCapN = false) → exec (.pwrCapNFall ns) s = .next s)
    ∧ (s.pins.pwrGood = true → s.pins.pwrCapN = true →
      (ns < 20 → exec (.pwrCapNFall ns) s = .next s)
      ∧ (50 ≤ ns → exec (.pwrCapNFall ns) s = .next (s.setCap false))
      ∧ (20 ≤ ns → ns < 50 → exec (.pwrCapNFall ns) s = .next s.useFree
          ∨ exec (.pwrCapNFall ns) s = .next (s.useFree.setCap false))) := by
  refine ⟨fun hoff => ?_, fun hgood hcap => ?_⟩
  · have hguard : (!s.pins.pwrGood || !s.pins.pwrCapN) = true := by simpa using hoff
    exact congrArg _ (if_pos hguard)
  · have hguard : ¬ (!s.pins.pwrGood || !s.pins.pwrCapN) = true := by simp [hgood, hcap]
    refine ⟨fun hshort => ?_, fun hlong => ?_, fun hmin hmax => ?_⟩
    · simp only [exec, execPwrCapNFall, if_neg hguard, State.pulseActs, if_pos hshort, Bool.false_eq_true, if_false]
    · simp only [exec, execPwrCapNFall, if_neg hguard, State.pulseActs, if_neg (show ¬ ns < 20 by omega), if_pos hlong, if_true]
    · simp only [exec, execPwrCapNFall, if_neg hguard, State.pulseActs, if_neg (Nat.not_lt.2 hmin), if_neg (Nat.not_le.2 hmax)]
      cases Config.freeBool s.freeCount
      · exact .inl rfl
      · exact .inr rfl

-- The telemetry mirror (16 R362) --------------------------------------------------------------------------------------------

/-- The word that a table of words gives an offset, where every word for it is the same. -/
theorem foldl_words {l : List (Nat × Nat)} (t : Tab Nat) {k v : Nat} (hall : ∀ e ∈ l, e.1 = k → e.2 = v)
    (hsome : (k, v) ∈ l ∨ tabGetD t k 0 = v % 4294967296) :
    tabGetD (l.foldl (fun t e => tabSet t e.1 (e.2 % 4294967296)) t) k 0 = v % 4294967296 := by
  induction l generalizing t with
  | nil => simpa using hsome
  | cons e l ih =>
    obtain ⟨hhead, htail⟩ := List.forall_mem_cons.1 hall
    refine ih _ htail ?_
    by_cases he : e.1 = k
    · exact .inr (by rw [← he, ← hhead he]; exact tabGetD_set_same ..)
    · refine hsome.imp (fun hmem => ?_) (fun hold => ?_)
      · exact (List.mem_cons.1 hmem).resolve_left fun h => he (congrArg Prod.fst h.symm)
      · exact (tabGetD_set_other _ _ _ (Ne.symm he)).trans hold

/-- The words of an update: those of the control loops, the draw and those that are measured. -/
def telemetryWords (s : State) (m : List Nat) : List (Nat × Nat) := s.loopWords ++ [(0x8, mwOf s.drawNow)] ++ measWords m

theorem mem_telemetryWords {s : State} {m : List Nat} {e : Nat × Nat} : e ∈ telemetryWords s m ↔
    e = (0x4, s.budgetInForce) ∨ e = (0xC, s.limitsWord) ∨ e = (0x10, s.pwr.energy.toNat % 4294967296)
    ∨ e = (0x14, s.pwr.energy.toNat / 4294967296)
    ∨ (∃ c < 4, (0x40 + 4 * c, s.ceilWord c) = e) ∨ (∃ k < 24, (0x80 + 4 * k, i16 (s.pwr.sensors.getD k 0)) = e)
    ∨ (∃ p < 16, (0x100 + 4 * p, s.partPower p) = e)
    ∨ (∃ p < 16, (0x140 + 4 * p, (s.part p).boosts + (s.part p).maxStretch * 65536) = e)
    ∨ e = (0x8, mwOf s.drawNow) ∨ e = (0x0, m.getD 0 0) ∨ (∃ c < 4, (0x20 + 4 * c, m.getD (1 + c) 0) = e)
    ∨ e = (0x30, m.getD 5 0) ∨ ∃ n < 33, (0x180 + 4 * n, m.getD (6 + n) 0) = e := by
  simp only [telemetryWords, State.loopWords, measWords, List.mem_append, List.mem_cons, List.not_mem_nil, or_false, List.mem_map,
    List.mem_range, or_assoc]

/-- The word of an offset (16 R362). -/
def telemetryWord (s : State) (m : List Nat) (o : Nat) : Nat :=
  if o < 0x4 then m.getD 0 0 else if o < 0x8 then s.budgetInForce else if o < 0xC then mwOf s.drawNow
  else if o < 0x10 then s.limitsWord else if o < 0x14 then s.pwr.energy.toNat % 4294967296
  else if o < 0x20 then s.pwr.energy.toNat / 4294967296 else if o < 0x30 then m.getD (1 + (o - 0x20) / 4) 0
  else if o < 0x40 then m.getD 5 0 else if o < 0x80 then s.ceilWord ((o - 0x40) / 4)
  else if o < 0x100 then i16 (s.pwr.sensors.getD ((o - 0x80) / 4) 0) else if o < 0x140 then s.partPower ((o - 0x100) / 4)
  else if o < 0x180 then (s.part ((o - 0x140) / 4)).boosts + (s.part ((o - 0x140) / 4)).maxStretch * 65536
  else m.getD (6 + (o - 0x180) / 4) 0

/-- An update gives every offset one word. -/
theorem word_of_mem {s : State} {m : List Nat} {e : Nat × Nat} (h : e ∈ telemetryWords s m) : e.2 = telemetryWord s m e.1 := by
  rcases mem_telemetryWords.1 h with rfl | rfl | rfl | rfl | ⟨i, hi, rfl⟩ | ⟨i, hi, rfl⟩ | ⟨i, hi, rfl⟩ | ⟨i, hi, rfl⟩ | rfl | rfl
    | ⟨i, hi, rfl⟩ | rfl | ⟨i, hi, rfl⟩
  all_goals simp (disch := omega) only [telemetryWord, if_neg, if_pos, Nat.add_sub_cancel_left,
    Nat.mul_div_cancel_left]

theorem telemetryUpdate_word {s : State} {m : List Nat} (t : Tab Nat) {k v : Nat} (h : (k, v) ∈ telemetryWords s m) :
    tabGetD ((telemetryWords s m).foldl (fun t e => tabSet t e.1 (e.2 % 4294967296)) t) k 0 = v % 4294967296 :=
  foldl_words t (fun _ he hk => (word_of_mem he).trans ((congrArg _ hk).trans (word_of_mem h).symm)) (.inl h)

/-- The energy counter as an update leaves it. -/
def energized (s : State) (m : List Nat) : State :=
  { s with pwr := { s.pwr with energy := s.pwr.energy + BitVec.ofNat 64 (m.getD 39 0) } }

theorem execTelemetryUpdate_eq {s : State} {m : List Nat} (hlen : m.length = 40) :
    execTelemetryUpdate m s = .next { energized s m with
      freeCount := (energized s m).freeCount + 16
      pwr := { (energized s m).pwr with
        mirror := (telemetryWords (energized s m) m).foldl (fun t e => tabSet t e.1 (e.2 % 4294967296))
          (energized s m).pwr.mirror } } := by
  unfold execTelemetryUpdate
  rw [if_neg (not_not_intro hlen)]
  extract_lets pwr s1 words
  have hs1 : s1 = energized s m := rfl
  have hwords : words = telemetryWords (energized s m) m := rfl
  clear_value words
  subst hwords
  clear_value s1
  subst hs1
  rfl

theorem exec_telemetryUpdate {s : State} {m : List Nat} (hlen : m.length = 40) :
    ∃ t, exec (.telemetryUpdate m) s = .next t
      ∧ t = { s with freeCount := t.freeCount, pwr := { s.pwr with energy := t.pwr.energy, mirror := t.pwr.mirror } }
      ∧ t.pwr.energy = s.pwr.energy + BitVec.ofNat 64 (m.getD 39 0)
      ∧ t.telemetry 0 = m.getD 0 0 % 2 ^ 32 ∧ (∀ c, c < 4 → t.telemetry (0x20 + 4 * c) = m.getD (1 + c) 0 % 2 ^ 32)
      ∧ t.telemetry 0x30 = m.getD 5 0 % 2 ^ 32
      ∧ (∀ n, n < 33 → t.telemetry (0x180 + 4 * n) = m.getD (6 + n) 0 % 2 ^ 32)
      ∧ t.telemetry 4 = s.budgetInForce % 2 ^ 32 ∧ t.telemetry 0x10 = t.pwr.energy.toNat % 2 ^ 32 := by
  have hexec := (rfl : exec (.telemetryUpdate m) s = execTelemetryUpdate m s).trans (execTelemetryUpdate_eq hlen)
  have hword (k v : Nat) (h : (k, v) ∈ telemetryWords (energized s m) m) :=
    telemetryUpdate_word (energized s m).pwr.mirror h
  generalize (telemetryWords (energized s m) m).foldl (fun t e => tabSet t e.1 (e.2 % 4294967296)) (energized s m).pwr.mirror
    = mirror at hexec hword
  generalize hs1 : energized s m = s1 at hexec hword
  have hbudget : s1.budgetInForce = s.budgetInForce := by rw [← hs1]; rfl
  refine ⟨_, hexec, by rw [← hs1]; rfl, by rw [← hs1]; rfl, hword _ _ ?_, fun c hc => hword _ _ ?_, hword _ _ ?_,
    fun n hn => hword _ _ ?_, hword _ _ ?_, (hword _ (s1.pwr.energy.toNat % 4294967296) ?_).trans (Nat.mod_mod _ _)⟩ <;>
    rw [mem_telemetryWords]
  · simp
  · simp [hc]
  · simp
  · simp [hn]
  · exact .inl (by rw [hbudget])
  · simp

-- What Topcoat reads (14 R312, 09 R198) -------------------------------------------------------------------------------------

/-- One entry of the mirror refreshed. -/
def mirrorEntry (s : State) (t : Tab Nat) (e : Nat × Nat) : Tab Nat :=
  match s.mirrored e.1 e.2 with
  | some v => tabSet t (dictKey e.1 e.2) v
  | none => t

theorem refreshMirror_eq (s : State) : ∃ m, m = mirroredKeys.foldl (mirrorEntry s) s.dict.mirror
    ∧ s.refreshMirror = { s with dict := { s.dict with mirror := m } } := ⟨_, rfl, rfl⟩

theorem mirrorEntry_same {s : State} (t : Tab Nat) {e : Nat × Nat} {x : Nat} (h : s.mirrored e.1 e.2 = some x) :
    tabGet (mirrorEntry s t e) (dictKey e.1 e.2) = some x := by
  simp only [mirrorEntry, h, tabGet_set_same]

theorem mirrorEntry_other {s : State} (t : Tab Nat) {e : Nat × Nat} {j : Nat} (h : j ≠ dictKey e.1 e.2) :
    tabGet (mirrorEntry s t e) j = tabGet t j := by
  unfold mirrorEntry
  split
  · exact tabGet_set_other _ _ h
  · rfl

/-- A mirror refreshed over a list of entries with different keys holds what each of them shows. -/
theorem foldl_mirrorEntry (s : State) {l : List (Nat × Nat)} (t : Tab Nat) {i k x : Nat} (hx : s.mirrored i k = some x)
    (hl : ∀ e ∈ l, dictKey e.1 e.2 = dictKey i k → e = (i, k)) (h : (i, k) ∈ l ∨ tabGet t (dictKey i k) = some x) :
    tabGet (l.foldl (mirrorEntry s) t) (dictKey i k) = some x := by
  induction l generalizing t with
  | nil => simpa using h
  | cons e l ih =>
    obtain ⟨hhead, htail⟩ := List.forall_mem_cons.1 hl
    refine ih _ htail ?_
    by_cases he : dictKey e.1 e.2 = dictKey i k
    · obtain rfl := hhead he
      exact .inr (mirrorEntry_same t hx)
    · refine h.imp (fun hmem => ?_) (fun hold => (mirrorEntry_other t (Ne.symm he)).trans hold)
      exact (List.mem_cons.1 hmem).resolve_left fun heq => he (by rw [← heq])

theorem mirroredKeys_sub {e : Nat × Nat} (h : e ∈ mirroredKeys) : e.2 < 256 := by
  simp only [mirroredKeys, List.mem_append, List.mem_flatMap, List.mem_map, List.mem_range, List.mem_cons, List.not_mem_nil,
    or_false] at h
  rcases h with (⟨p, -, k, hk, rfl⟩ | ⟨n, -, k, hk, rfl⟩) | rfl | rfl | rfl | rfl
  · dsimp only
    omega
  · dsimp only
    omega
  all_goals decide

theorem refreshMirror_mirror (s : State) {i k x : Nat} (hmem : (i, k) ∈ mirroredKeys) (hx : s.mirrored i k = some x) :
    tabGet s.refreshMirror.dict.mirror (dictKey i k) = some x := by
  obtain ⟨m, hm, heq⟩ := refreshMirror_eq s
  rw [heq]
  dsimp only
  rw [hm]
  refine foldl_mirrorEntry s (l := mirroredKeys) _ hx (fun e he hkey => ?_) (.inl hmem)
  by_contra hne
  refine dictKey_ne (mirroredKeys_sub he) (mirroredKeys_sub hmem) ?_ hkey
  by_contra hsame
  rw [not_or, not_ne_iff, not_ne_iff] at hsame
  exact hne (Prod.ext hsame.1 hsame.2)

theorem riskOnly_missedEvent (s : State) (log : List LogEntry) (id : Nat) : RiskOnly s (s.missedEvent log id) := by
  unfold State.missedEvent
  dsimp only
  split
  · exact rfl
  · exact rfl
  · exact riskOnly_event ..

theorem riskOnly_earlyEvent (s : State) (e : LogEntry) : RiskOnly s (s.earlyEvent e) := by
  unfold State.earlyEvent
  split
  · exact riskOnly_event ..
  · exact rfl

/-- Topcoat's reading of the contract log empties it, and tells what it found. -/
theorem readLog_riskOnly (s : State) : RiskOnly { s with fep := { s.fep with log := [] } } s.readLog :=
  ((riskOnly_foldl (fun t id => t.missedEvent s.fep.log id) (fun t id => riskOnly_missedEvent t s.fep.log id) _ _).trans
    (riskOnly_foldl State.earlyEvent riskOnly_earlyEvent _ _)).trans (riskOnly_riskScan _)

theorem exec_topcoatReads (s : State) :
    (s.serving = false → exec .dictRefresh s = .next s ∧ exec .contractLogRead s = .next s)
    ∧ (s.serving = true →
      (∃ t, exec .dictRefresh s = .next t ∧ t = { s with dict := { s.dict with mirror := t.dict.mirror } }
        ∧ ∀ i k x, (i, k) ∈ mirroredKeys → s.mirrored i k = some x → tabGet t.dict.mirror (dictKey i k) = some x)
      ∧ (∃ t, exec .contractLogRead s = .next t ∧ Still s t ∧ t.fep = { s.fep with log := [] } ∧ t.cmds = s.cmds
          ∧ t.queues = s.queues ∧ t.parts = s.parts)) := by
  refine ⟨fun hoff => ?_, fun hon => ⟨?_, ?_⟩⟩
  · have hoff' : ¬ s.serving = true := by rw [hoff]; exact Bool.false_ne_true
    exact ⟨congrArg _ (if_neg hoff'), congrArg _ (if_neg hoff')⟩
  · obtain ⟨m, -, heq⟩ := refreshMirror_eq s
    exact ⟨s.refreshMirror, congrArg _ (if_pos hon), by rw [heq], fun i k x hmem hx => refreshMirror_mirror s hmem hx⟩
  · have hrisk := readLog_riskOnly s
    exact ⟨s.readLog, congrArg _ (if_pos hon), still_of_view (view_State_readLog s), (congrArg State.fep hrisk :),
      (congrArg State.cmds hrisk :), (congrArg State.queues hrisk :), (congrArg State.parts hrisk :)⟩

/-- Settles O55: the four outcomes of a temperature sample, the ceilings by their rule, and the telemetry words by offset. -/
theorem temperatureCapAndTelemetry : Obligations.TemperatureCapAndTelemetry := by
  refine ⟨fun s ts => ⟨fun hlen => congrArg _ (if_pos hlen), thermalSample_spec⟩, ?ceilings, ?cap, fun s m =>
    ⟨fun hlen => congrArg _ (if_pos hlen), exec_telemetryUpdate⟩, exec_topcoatReads⟩
  case ceilings =>
    intro s
    obtain ⟨hsteps, hclusters⟩ := thermalLoops_spec s
    refine ⟨s.thermalLoops, rfl, still_of_view (view_State_thermalLoops s), hsteps, fun c hc => ?_⟩
    obtain ⟨b, hb⟩ := hclusters c hc
    obtain ⟨hfar, hover, hkept, hunder⟩ := ceilingMoved_cases (s.setting 0x5002 1) (s.clusterMax c) (s.cluster c).ceiling
    rw [hb]
    exact ⟨hfar, hover, hkept, hunder, rfl, rfl⟩
  case cap =>
    intro s ns
    obtain ⟨hoff, hon⟩ := exec_pwrCapNFall s ns
    refine ⟨hoff, fun hgood hcap => ⟨(hon hgood hcap).1, fun hlong => ?_, fun hmin hmax => ?_⟩, fun hhigh => ?_, fun hlow => ?_⟩
    · exact ⟨_, (hon hgood hcap).2.1 hlong, setCap_spec s false⟩
    · rcases (hon hgood hcap).2.2 hmin hmax with hexec | hexec
      · exact ⟨_, hexec, still_of_view (by simp), .inl rfl⟩
      · obtain ⟨hstill, hpins, -⟩ := setCap_spec s.useFree false
        exact ⟨_, hexec, hstill, .inr hpins⟩
    · exact congrArg _ (if_pos hhigh)
    · exact ⟨s.setCap true, congrArg _ (if_neg (by rw [hlow]; exact Bool.false_ne_true)), setCap_spec s true⟩

end Sys2Proof.Proofs
end

section
/-! PROOFS. Resets at L0 and L1, their pins and their exits (obligation O56). -/
namespace Sys2Proof.Proofs
open Sys2Proof Sys2Proof.Machine Sys2Proof.Safety Sys2Proof.Laws

-- The sources that act (17 R364, R365) --------------------------------------------------------------------------------------

theorem actingAt_nil {s : State} (h : s.rst.acting = []) (lvl : Nat) : s.actingAt lvl = [] := by
  simp only [State.actingAt, h, List.filter_nil, List.mergeSort_nil]

theorem actingAt_single {s : State} {a : Acting} (h : s.rst.acting = [a]) (lvl : Nat) :
    s.actingAt lvl = if s.levelOf a.source = lvl then [a] else [] := by
  simp only [State.actingAt, h, List.filter_cons, List.filter_nil, beq_iff_eq]
  split
  · exact List.mergeSort_singleton a
  · exact List.mergeSort_nil

theorem wideSource_single {s : State} {a : Acting} (h : s.rst.acting = [a]) (hlevel : s.levelOf a.source = 0 ∨ s.levelOf a.source = 1) :
    s.wideSource = some (s.levelOf a.source, a) := by
  unfold State.wideSource
  rw [actingAt_single h 0, actingAt_single h 1]
  rcases hlevel with hlevel | hlevel <;> rw [hlevel] <;> rfl

-- What a wide reset leaves (17 R366) ----------------------------------------------------------------------------------------

theorem tearOp_frame (s : State) : ∃ k n, s.tearOp = { s with keep := k, freeCount := n } := by
  unfold State.tearOp
  split
  · exact ⟨_, _, rfl⟩
  · exact ⟨_, _, rfl⟩

theorem wiped_part (t : Tab Part) (l0 : Bool) (p : Nat) :
    (tabGetD (tabMap t (fun _ x => x.wiped l0)) p ({} : Part)).state = .gated := by
  rw [tabGetD, tabGet_map]
  cases tabGet t p with
  | none => rfl
  | some x => cases l0 <;> rfl

theorem wiped_cluster (t : Tab Cluster) (l0 : Bool) (c : Nat) :
    (tabGetD (tabMap t (fun _ x => x.wiped l0)) c ({} : Cluster)).shape = 0 := by
  rw [tabGetD, tabGet_map]
  cases tabGet t c with
  | none => rfl
  | some x => cases l0 <;> rfl

theorem wiped_inst (n : Nat) :
    (tabGetD [(0, ({ mmu := { bypass := true } } : Inst))] n ({} : Inst)).state = .absent := by
  rw [tabGetD, tabGet, tabGet]
  split <;> rfl

/-- A wide reset: the record of it, what it clears at either level, and what L1 keeps. -/
theorem enterWide_spec (s : State) {lvl : Nat} (source at_ absorbed : Nat) (hlevel : lvl = 0 ∨ lvl = 1) :
    ∃ t, s.enterWide lvl source at_ absorbed = t ∧ t.rst.phase = .hold ∧ t.rst.level = lvl ∧ t.rst.source = source
      ∧ t.rst.lastSource = BitVec.ofNat 8 source ∧ t.rst.acting = [] ∧ t.pins.devReady = false ∧ t.link.up = false
      ∧ t.queues = [] ∧ t.cmds = [] ∧ t.contracts = [] ∧ t.mem.cells = [] ∧ t.net.reqs = [] ∧ t.mgc.fw = .reset
      ∧ t.pending = s.pending ∧ (∀ n, (t.inst n).state = .absent) ∧ (t.inst 0).mmu.bypass = true
      ∧ (∀ p, (t.part p).state = .gated) ∧ (∀ c, (t.cluster c).shape = 0)
      ∧ (lvl = 1 → t.clk = s.clk ∧ t.bus.epochs = s.bus.epochs ∧ t.bus.claims = s.bus.claims
          ∧ t.bus.dynAddr = s.bus.dynAddr ∧ t.pwr.energy = s.pwr.energy
          ∧ tabGetD t.rst.counts 1 0 = tabGetD s.rst.counts 1 0 + 1)
      ∧ (lvl = 0 → t.clk = { s.clk with alive := false } ∧ t.pins = { s.pins with devReady := false, wakeN := true }
          ∧ t.bus.epochs = [] ∧ t.bus.claims = [] ∧ t.bus.dynAddr = none ∧ t.pwr.energy = 0) := by
  obtain ⟨k, n, htear⟩ := tearOp_frame s
  unfold State.enterWide
  rw [htear]
  rcases hlevel with rfl | rfl
  · exact ⟨_, rfl, rfl, rfl, rfl, rfl, rfl, rfl, rfl, rfl, rfl, rfl, rfl, rfl, rfl, rfl, wiped_inst, rfl, wiped_part _ _,
      wiped_cluster _ _, nofun, fun _ => ⟨rfl, rfl, rfl, rfl, rfl, rfl⟩⟩
  · exact ⟨_, rfl, rfl, rfl, rfl, rfl, rfl, rfl, rfl, rfl, rfl, rfl, rfl, rfl, rfl, rfl, wiped_inst, rfl, wiped_part _ _,
      wiped_cluster _ _, fun _ => ⟨rfl, rfl, rfl, rfl, rfl, tabGetD_bump_same s.rst.counts 1 (· + 1)⟩, nofun⟩

theorem exec_l1Reset_starts {s : State} {a : Acting} (h : s.rst.acting = [a]) (hwide : s.wideRuns = false)
    (hlevel : s.levelOf a.source = 0 ∨ s.levelOf a.source = 1) :
    exec .l1Reset s = .next (s.enterWide (s.levelOf a.source) a.source a.at_ 0) := by
  have hgives : s.givesWay (s.levelOf a.source) = true := by
    unfold State.givesWay
    rw [hwide]
    rfl
  simp only [exec, execL1Reset, wideSource_single h hlevel, hgives, if_true, h]
  rfl

theorem exec_l1Reset_none {s : State} (h : s.rst.acting = []) : exec .l1Reset s = .next s := by
  simp only [exec, execL1Reset, State.wideSource, actingAt_nil h]

-- The pins (17 R367, R368, 20 R433) -----------------------------------------------------------------------------------------

/-- Power or the reference clock is lost: a reset at L0 by source 1. -/
structure PowerLost (s t : State) : Prop where
  phase : t.rst.phase = .hold
  level : t.rst.level = 0
  source : t.rst.source = 1
  alive : t.clk.alive = false
  queues : t.queues = []
  cmds : t.cmds = []
  pending : t.pending = s.pending
  pins : t.pins.pwrGood = s.pins.pwrGood
  refclk : t.clk.refclk = s.clk.refclk

theorem powerLost_spec (s : State) : PowerLost s s.powerLost := by
  obtain ⟨t, ht, hphase, hlvl, hsource, -, -, -, -, hqueues, hcmds, -, -, -, -, hpending, -, -, -, -, -, hl0⟩ :=
    enterWide_spec s 1 s.now 0 (.inl rfl : (0 : Nat) = 0 ∨ (0 : Nat) = 1)
  obtain ⟨hclk, hpins, -⟩ := hl0 rfl
  rw [show s.powerLost = t from ht]
  exact ⟨hphase, hlvl, hsource, by rw [hclk], hqueues, hcmds, hpending, by rw [hpins], by rw [hclk]⟩

theorem pulseActs_short {ns lo : Nat} (s : State) (hi : Nat) (h : ns < lo) : s.pulseActs ns lo hi = (false, s) := if_pos h

theorem pulseActs_long {ns lo hi : Nat} (s : State) (h : hi ≤ ns) (hlo : lo ≤ ns) : s.pulseActs ns lo hi = (true, s) :=
  (if_neg (Nat.not_lt.2 hlo)).trans (if_pos h)

theorem pulseActs_between {ns lo hi : Nat} (s : State) (hlo : lo ≤ ns) (h : ns < hi) :
    s.pulseActs ns lo hi = (true, s.useFree) ∨ s.pulseActs ns lo hi = (false, s.useFree) := by
  have heq : s.pulseActs ns lo hi = (Config.freeBool s.freeCount, s.useFree) :=
    (if_neg (Nat.not_lt.2 hlo)).trans (if_neg (Nat.not_le.2 h))
  rw [heq]
  cases Config.freeBool s.freeCount
  · exact .inr rfl
  · exact .inl rfl

section
variable {s : State} {ns : Nat}

theorem exec_pins_unpowered (hoff : s.pins.pwrGood = false) : exec (.pwrGoodFall ns) s = .next s ∧ exec .refclkLoss s = .next s
    ∧ exec (.rstNAssert ns) s = .next s ∧ exec (.perstNAssert ns) s = .next s := by
  simp only [exec, execPwrGoodFall, execRefclkLoss, execRstNAssert, execPerstNAssert, hoff, Bool.not_false, Bool.true_or,
    Bool.false_and, Bool.false_eq_true, if_true, if_false, and_self]

theorem exec_pwrGoodFall {b : Bool} {u : State} (hon : s.pins.pwrGood = true) (hpulse : s.pulseActs ns 1000 5000 = (b, u)) :
    exec (.pwrGoodFall ns) s
      = .next (if b = true then (State.powerLost { u with pins := { u.pins with pwrGood := false } }) else u) := by
  simp only [exec, execPwrGoodFall, hon, hpulse, Bool.not_true, Bool.false_eq_true, if_false]

theorem exec_pwrGoodFall_acts {u : State} (hon : s.pins.pwrGood = true) (hpulse : s.pulseActs ns 1000 5000 = (true, u))
    (hpending : u.pending = s.pending) : ∃ t, exec (.pwrGoodFall ns) s = .next t ∧ t.pins.pwrGood = false
      ∧ t.rst.phase = .hold ∧ t.rst.level = 0 ∧ t.rst.source = 1 ∧ t.clk.alive = false
      ∧ t.queues = [] ∧ t.cmds = [] ∧ t.pending = s.pending := by
  have hlost := powerLost_spec { u with pins := { u.pins with pwrGood := false } }
  exact ⟨_, exec_pwrGoodFall hon hpulse, hlost.pins, hlost.phase, hlost.level, hlost.source, hlost.alive, hlost.queues, hlost.cmds,
    hlost.pending.trans hpending⟩

theorem exec_refclkLoss_acts (hon : s.pins.pwrGood = true) (hclk : s.clk.refclk = true) :
    ∃ t, exec .refclkLoss s = .next t ∧ t.clk.refclk = false ∧ t.rst.phase = .hold ∧ t.rst.level = 0 ∧ t.rst.source = 1
      ∧ t.clk.alive = false ∧ t.queues = [] ∧ t.cmds = [] ∧ t.pending = s.pending := by
  have hlost := powerLost_spec { s with clk := { s.clk with refclk := false } }
  have hexec : exec .refclkLoss s = .next (State.powerLost { s with clk := { s.clk with refclk := false } }) := by
    simp only [exec, execRefclkLoss, hon, hclk, Bool.and_self, if_true]
  exact ⟨_, hexec, hlost.refclk, hlost.phase, hlost.level, hlost.source, hlost.alive,
    hlost.queues, hlost.cmds, hlost.pending⟩

theorem exec_resetPins_short (h : ns < 1000) : exec (.rstNAssert ns) s = .next s ∧ exec (.perstNAssert ns) s = .next s := by
  simp only [exec, execRstNAssert, execPerstNAssert, pulseActs_short s 10000 h, Bool.false_eq_true, if_false, ite_self, and_self]

theorem levelOf_resetPins (s : State) : s.levelOf 2 ≤ 2 ∧ s.levelOf 4 ≤ 2 := by
  have h2 : s.levelOf 2 ∈ [0, 1] := levelOf_mem s rfl
  have h4 : s.levelOf 4 ∈ [0, 1] := levelOf_mem s rfl
  simp only [List.mem_cons, List.not_mem_nil, or_false] at h2 h4
  omega

theorem exec_rstNAssert_acts (hlong : 10000 ≤ ns) (hon : s.pins.pwrGood = true) (hhigh : s.pins.rstN = true)
    (hphase : s.rst.phase = .none) : exec (.rstNAssert ns) s = .next (withActing { s with pins := { s.pins with rstN := false } } 2 0) := by
  have hguard : ¬ (!s.pins.pwrGood || !s.pins.rstN) = true := by rw [hon, hhigh]; decide
  simp only [exec, execRstNAssert, if_neg hguard, pulseActs_long s hlong (by omega : 1000 ≤ ns), if_true]
  exact congrArg _ (actSource_wide (s := { s with pins := { s.pins with rstN := false } }) hphase (levelOf_resetPins _).1 0)

theorem exec_perstNAssert_acts (hlong : 10000 ≤ ns) (hon : s.pins.pwrGood = true) (hmode : s.pins.modeP = true)
    (hhigh : s.pins.perstN = true) (hphase : s.rst.phase = .none) : exec (.perstNAssert ns) s
      = .next (withActing { s with pins := { s.pins with perstN := false, wakeN := true } } 4 0) := by
  have hguard : ¬ (!s.pins.pwrGood || !s.pins.modeP || !s.pins.perstN) = true := by rw [hon, hmode, hhigh]; decide
  simp only [exec, execPerstNAssert, if_neg hguard, pulseActs_long s hlong (by omega : 1000 ≤ ns), if_true]
  exact congrArg _ (actSource_wide (s := { s with pins := { s.pins with perstN := false, wakeN := true } }) hphase
    (levelOf_resetPins _).2 0)

end

theorem beginL0Exit_eq (s : State) : s.beginL0Exit
    = if s.rst.phase = .hold ∧ s.rst.level = 0 ∧ s.pins.pwrGood = true ∧ s.clk.refclk = true then
      { s with rst := { s.rst with phase := .l0Exiting } } else s := by
  unfold State.beginL0Exit
  exact if_congr (by simp [and_assoc]) rfl rfl

-- The hold (17 R369) --------------------------------------------------------------------------------------------------------

theorem holdOver_iff (s : State) : s.holdOver = true ↔ (s.pins.pwrGood = true ∧ s.clk.refclk = true ∧ s.pins.thermTripN = true)
    ∧ (¬ (s.rst.source ≠ 2 ∧ s.rst.source ≠ 3 ∧ s.rst.source ≠ 4 ∧ s.rst.source ≠ 11 ∧ s.rst.level ≠ 0)
      ∨ s.rst.startedAt + 20000 ≤ s.now) := by
  simp only [State.holdOver, Bool.and_eq_true, Bool.or_eq_true, List.contains_iff_mem, List.mem_cons, List.not_mem_nil, or_false,
    beq_iff_eq, decide_eq_true_eq]
  tauto

theorem exec_resetHoldEnd_over {s : State} (hphase : s.rst.phase = .hold) (hover : s.holdOver = true) :
    exec .resetHoldEnd s = .next s.releaseHold :=
  congrArg _ (if_pos (by rw [hphase, hover]; rfl))

theorem exec_resetHoldEnd_waits {s : State} (h : s.rst.phase ≠ .hold ∨ s.holdOver = false) : exec .resetHoldEnd s = .next s := by
  refine congrArg _ (if_neg fun hc => ?_)
  rw [Bool.and_eq_true, beq_iff_eq] at hc
  exact h.elim (absurd hc.1) fun hover => Bool.false_ne_true (hover.symm.trans hc.2)

theorem releaseHold_l0 {s : State} (h : s.rst.level = 0) : s.releaseHold
    = { s with pins := { s.pins with rstN := true, perstN := true }, rst := { s.rst with phase := .l0Exiting } } := if_pos h

theorem releaseHold_l1 {s : State} (h : s.rst.level ≠ 0) (hheld : s.bus.held = []) : s.releaseHold
    = { s with pins := { s.pins with rstN := true, perstN := true }, rst := { s.rst with phase := .l1Exiting } } :=
  (if_neg h).trans (serveHeld_none (s := { s with
    pins := { s.pins with rstN := true, perstN := true }, rst := { s.rst with phase := .l1Exiting } }) hheld)

-- The exits (17 R372 to R376) -----------------------------------------------------------------------------------------------

/-- What the boot selection, the calibration and the settings change. -/
def BootOnly (s t : State) : Prop := t = { s with fep := t.fep, dict := t.dict, keep := t.keep, cal := t.cal }

theorem BootOnly.trans {a b c : State} (h : BootOnly a b) (k : BootOnly b c) : BootOnly a c := by
  unfold BootOnly at *
  rw [k, h]

theorem bootOnly_of (s : State) (fep : Fep) (dict : Dict) (keep : Keep) (cal : Cal) :
    BootOnly s { s with fep := fep, dict := dict, keep := keep, cal := cal } := rfl

theorem bootOnly_loadBank (s : State) (bank : Option Nat) (result : Nat) : BootOnly s (s.loadBank bank result) := by
  unfold State.loadBank
  split <;> exact bootOnly_of ..

theorem bootOnly_revert (s : State) (reason : Nat) : BootOnly s (s.revert reason) := by
  unfold State.revert
  extract_lets bad p s1 s2
  have h1 : BootOnly s s1 := bootOnly_of ..
  have h2 : BootOnly s1 s2 := bootOnly_loadBank s1 p 3
  exact (h1.trans h2).trans (bootOnly_of ..)

theorem bootOnly_bootSteps (s : State) (l : List KStep) : BootOnly s (s.bootSteps l) := bootOnly_of ..

theorem bootOnly_useTrial (s : State) : BootOnly s s.useTrial := by
  cases htrial : s.trialCount with
  | none =>
    simp only [State.useTrial, htrial]
    exact (bootOnly_bootSteps s _).trans (bootOnly_bootSteps _ _)
  | some c =>
    simp only [State.useTrial, htrial]
    exact bootOnly_bootSteps s _

theorem bootOnly_bootSelect (s : State) : BootOnly s s.bootSelect := by
  unfold State.bootSelect
  split
  · exact bootOnly_loadBank ..
  · split
    · exact bootOnly_loadBank ..
    · split
      · exact bootOnly_revert ..
      · split
        · split
          · exact bootOnly_revert ..
          · exact (bootOnly_useTrial s).trans (bootOnly_loadBank ..)
        · exact bootOnly_loadBank ..

theorem bootOnly_loadCal (s : State) : BootOnly s s.loadCal := by
  unfold State.loadCal
  split
  · exact bootOnly_of ..
  · extract_lets r
    exact bootOnly_of ..

theorem bootOnly_takeSetting (s : State) (e : Nat × Nat × List Byte) : BootOnly s (s.takeSetting e) := by
  unfold State.takeSetting
  split
  · exact bootOnly_of ..
  · dsimp only
    split <;> exact bootOnly_of ..

theorem bootOnly_loadSettings (s : State) : BootOnly s s.loadSettings := by
  unfold State.loadSettings
  split
  · exact bootOnly_of ..
  · refine List.foldlRecOn (motive := fun (t : State) => BootOnly s t) _ _ (bootOnly_of ..) (fun t ht e _ => ?_)
    exact ht.trans (bootOnly_takeSetting t e)

/-- A partition that a setting retires. -/
def retireBySetting (s t : State) (p : Nat) : State :=
  if s.setting (0x3000 + p) 7 = 1 then t.updPart p (fun x => { x with retired := true }) else t

theorem partsOnly_retireBySetting (s t : State) (p : Nat) : PartsOnly t (retireBySetting s t p) := by
  unfold retireBySetting
  split <;> exact rfl

theorem retireBySetting_state (s t : State) (p q : Nat) :
    ((retireBySetting s t p).part q).state = (t.part q).state
    ∧ ((t.part q).retired = true → ((retireBySetting s t p).part q).retired = true)
    ∧ (q = p → s.setting (0x3000 + p) 7 = 1 → ((retireBySetting s t p).part q).retired = true) := by
  unfold retireBySetting
  split
  next hset =>
    by_cases hq : q = p
    · subst hq
      rw [updPart_part_same]
      exact ⟨rfl, fun _ => rfl, fun _ _ => rfl⟩
    · rw [updPart_part_other _ _ hq]
      exact ⟨rfl, id, fun h => absurd h hq⟩
  next hset => exact ⟨rfl, id, fun _ h => absurd h hset⟩

theorem foldl_retireBySetting (s : State) (l : List Nat) (t : State) (q : Nat) :
    ((l.foldl (retireBySetting s) t).part q).state = (t.part q).state
    ∧ ((q ∈ l ∧ s.setting (0x3000 + q) 7 = 1) ∨ (t.part q).retired = true →
      ((l.foldl (retireBySetting s) t).part q).retired = true) := by
  induction l generalizing t with
  | nil => exact ⟨rfl, fun h => h.elim (fun h => nomatch h.1) id⟩
  | cons p l ih =>
    obtain ⟨hstate, hkeeps, hsets⟩ := retireBySetting_state s t p q
    obtain ⟨istate, iretired⟩ := ih (retireBySetting s t p)
    refine ⟨istate.trans hstate, fun h => iretired ?_⟩
    rcases h with ⟨hmem, hset⟩ | hold
    · rcases List.mem_cons.1 hmem with rfl | hmem
      · exact .inr (hsets rfl hset)
      · exact .inl ⟨hmem, hset⟩
    · exact .inr (hkeeps hold)

/-- The settings applied to the memory and the partitions. -/
theorem applySettings_spec (s : State) :
    s.applySettings = { s with mem := s.applySettings.mem, parts := s.applySettings.parts }
    ∧ s.applySettings.mem = { s.mem with
        memType := s.setting 0x2000 1, rate := s.setting 0x2000 2, ranks := s.setting 0x2000 3, capGiB := s.setting 0x2000 4,
        ecc := s.setting 0x2000 5 == 1, storeMiB := s.setting 0x2000 6 }
    ∧ (∀ q, (s.applySettings.part q).state = (s.part q).state)
    ∧ ∀ q, q < 16 → s.setting (0x3000 + q) 7 = 1 → (s.applySettings.part q).retired = true := by
  let s1 : State := { s with mem := { s.mem with
    memType := s.setting 0x2000 1, rate := s.setting 0x2000 2, ranks := s.setting 0x2000 3, capGiB := s.setting 0x2000 4,
    ecc := s.setting 0x2000 5 == 1, storeMiB := s.setting 0x2000 6 } }
  have heq : s.applySettings = (List.range 16).foldl (retireBySetting s) s1 := rfl
  have honly := partsOnly_foldl (retireBySetting s) (partsOnly_retireBySetting s) (List.range 16) s1
  have hparts := foldl_retireBySetting s (List.range 16) s1
  have hrange (q : Nat) (hq : q < 16) : q ∈ List.range 16 := List.mem_range.2 hq
  rw [← heq] at honly hparts
  generalize s.applySettings = t at *
  refine ⟨?_, (congrArg State.mem honly :), fun q => (hparts q).1, fun q hq hset => (hparts q).2 (.inl ⟨hrange q hq, hset⟩)⟩
  rw [honly]

/-- The end of a wide reset. -/
def exitedL1 (s : State) : State := { s with rst := { s.rst with phase := .none, level := 9 } }

theorem badStores_frame (s : State) (bad : BitVec 16) : PartsOnly s (s.badStores bad) := mapParts_frame s _

theorem badStores_part (s : State) (bad : BitVec 16) {p : Nat} (hp : p < 16) : (s.badStores bad).part p
    = if bad.getLsbD p then { s.part p with state := .offline, mcCause := 5 } else s.part p := mapParts_part s _ hp

theorem exitedL1_spec {s u t : State} (bad : BitVec 16) (hboot : BootOnly s u)
    (ht : t = alerted s (exitedL1 (u.applySettings.badStores bad))) : t.rst.phase = .none ∧ t.queues = s.queues
      ∧ (∀ p, (tabGet s.parts p).isSome = true → bad.getLsbD p = true → (t.part p).state = .offline ∧ (t.part p).mcCause = 5)
      ∧ (∀ p, p < 16 → bad.getLsbD p = false → (t.part p).state = (s.part p).state)
      ∧ t.mem.cells = s.mem.cells ∧ t.mem.rate = t.setting 0x2000 2 ∧ t.mem.capGiB = t.setting 0x2000 4
      ∧ t.mem.ecc = (t.setting 0x2000 5 == 1) ∧ t.mem.storeMiB = t.setting 0x2000 6
      ∧ (∀ p, p < 16 → t.setting (0x3000 + p) 7 = 1 → (t.part p).retired = true) := by
  obtain ⟨hframe, hmem, hstate, hretired⟩ := applySettings_spec u
  generalize u.applySettings = v at *
  have hbad (p : Nat) (hp : p < 16) := badStores_part v bad hp
  have hpart (p : Nat) : s.part p = u.part p := (congrArg (fun t => State.part t p) hboot :).symm
  have hdict : (v.badStores bad).dict = u.dict := (congrArg State.dict (badStores_frame v bad) :).trans (congrArg State.dict hframe :)
  have hset (i k : Nat) : (v.badStores bad).setting i k = u.setting i k := by
    unfold State.setting
    rw [hdict]
  have hmem' : (v.badStores bad).mem = v.mem := (congrArg State.mem (badStores_frame v bad) :)
  have hcells : u.mem.cells = s.mem.cells := (congrArg (fun t => t.mem.cells) hboot :)
  have hqueues : (v.badStores bad).queues = s.queues :=
    ((congrArg State.queues (badStores_frame v bad) :).trans (congrArg State.queues hframe :)).trans (congrArg State.queues hboot :)
  generalize v.badStores bad = w at *
  subst ht
  rw [alerted_eq]
  refine ⟨rfl, hqueues, fun p _ hp => ?_, fun p hp16 hp => ?_, ?_, ?_, ?_, ?_, ?_, fun p hp hp7 => ?_⟩
  · have hp16 : p < 16 := by
      by_contra hge
      rw [BitVec.getLsbD_of_ge bad p (by omega)] at hp
      cases hp
    have := hbad p hp16
    rw [if_pos hp] at this
    exact ⟨congrArg Part.state this, congrArg Part.mcCause this⟩
  · have := hbad p hp16
    rw [if_neg (by rw [hp]; exact Bool.false_ne_true)] at this
    exact (congrArg Part.state this).trans ((hstate p).trans (congrArg Part.state (hpart p).symm))
  · exact (congrArg PrivMem.cells hmem').trans ((congrArg PrivMem.cells hmem).trans hcells)
  · exact ((congrArg PrivMem.rate hmem').trans (congrArg PrivMem.rate hmem)).trans (hset _ _).symm
  · exact ((congrArg PrivMem.capGiB hmem').trans (congrArg PrivMem.capGiB hmem)).trans (hset _ _).symm
  · exact ((congrArg PrivMem.ecc hmem').trans (congrArg PrivMem.ecc hmem)).trans (congrArg (· == 1) (hset _ _).symm)
  · exact ((congrArg PrivMem.storeMiB hmem').trans (congrArg PrivMem.storeMiB hmem)).trans (hset _ _).symm
  · have hold := hretired p hp ((hset _ _).symm.trans hp7)
    have := congrArg Part.retired (hbad p hp)
    refine this.trans ?_
    split <;> exact hold

theorem exec_l1Exit {s : State} (hphase : s.rst.phase = .l1Exiting) (bad : BitVec 16) :
    ∃ t, exec (.l1Exit bad) s = .next t ∧ t.rst.phase = .none ∧ t.queues = s.queues
      ∧ (∀ p, (tabGet s.parts p).isSome = true → bad.getLsbD p = true → (t.part p).state = .offline ∧ (t.part p).mcCause = 5)
      ∧ (∀ p, p < 16 → bad.getLsbD p = false → (t.part p).state = (s.part p).state)
      ∧ t.mem.cells = s.mem.cells ∧ t.mem.rate = t.setting 0x2000 2 ∧ t.mem.capGiB = t.setting 0x2000 4
      ∧ t.mem.ecc = (t.setting 0x2000 5 == 1) ∧ t.mem.storeMiB = t.setting 0x2000 6
      ∧ (∀ p, p < 16 → t.setting (0x3000 + p) 7 = 1 → (t.part p).retired = true) := by
  have hguard : ¬ (s.rst.phase != .l1Exiting) = true := by rw [hphase]; decide
  have hboot : BootOnly s s.bootSelect.loadCal.loadSettings :=
    ((bootOnly_bootSelect s).trans (bootOnly_loadCal _)).trans (bootOnly_loadSettings _)
  have hexec : exec (.l1Exit bad) s
      = .next (alerted s (exitedL1 ((s.bootSelect.loadCal.loadSettings).applySettings.badStores bad))) := by
    simp only [exec, execL1Exit, if_neg hguard, exitedL1]
  exact ⟨_, hexec, exitedL1_spec bad hboot rfl⟩

theorem exec_l0Exit_starts {s : State} (hphase : s.rst.phase = .l0Exiting) (hgood : s.pins.pwrGood = true)
    (hclk : s.clk.refclk = true) : ∃ t, exec .l0Exit s = .next t ∧ t.clk.alive = true ∧ t.clk.phase = 0 ∧ t.tap.ir = 2
      ∧ t.rst.phase = .l1Exiting ∧ t.bus.staticAddr = 0x3A + s.pins.mgmtAddrStrap.setWidth 7 ∧ t.keep = s.keep := by
  have hguard : ¬ (s.rst.phase != .l0Exiting || !s.pins.pwrGood || !s.clk.refclk) = true := by
    rw [hphase, hgood, hclk]
    decide
  simp only [exec, execL0Exit, if_neg hguard]
  exact ⟨_, rfl, rfl, rfl, rfl, rfl, rfl, rfl⟩

theorem exec_l0Exit_waits {s : State} (h : s.rst.phase ≠ .l0Exiting ∨ s.pins.pwrGood = false ∨ s.clk.refclk = false) :
    exec .l0Exit s = .next s := by
  have hguard : (s.rst.phase != .l0Exiting || !s.pins.pwrGood || !s.clk.refclk) = true := by
    simpa [or_assoc] using h
  simp only [exec, execL0Exit, if_pos hguard]

/-- Settles O56: every wide reset is one entry, `enterWide`, and the exit of L1 leaves what the boot selection and the settings
put there. -/
theorem wideResetsAndTheirPins : Obligations.WideResetsAndTheirPins := by
  refine ⟨?starts, fun s hnone => exec_l1Reset_none hnone, ?pins, ?rises, ?hold, ?exits⟩
  case starts =>
    intro s a hacting hwide hlevel
    obtain ⟨t, ht, hphase, hlvl, hsource, hlast, hnone, hready, hup, hqueues, hcmds, hcontracts, hcells, hreqs, hfw, hpending,
      hinsts, hbypass, hparts, hclusters, hl1, hl0⟩ := enterWide_spec s a.source a.at_ 0 hlevel
    refine ⟨t, ht ▸ exec_l1Reset_starts hacting hwide hlevel, hphase, hlvl, hsource, hlast, hnone, hready, hup, hqueues, hcmds,
      hcontracts, hcells, hreqs, hfw, hpending, hinsts, hbypass, hparts, hclusters, hl1, fun h => ?_⟩
    obtain ⟨hclk, -, hepochs, hclaims, haddr, henergy⟩ := hl0 h
    exact ⟨by rw [hclk], hepochs, hclaims, haddr, henergy⟩
  case pins =>
    refine fun s ns => ⟨exec_pins_unpowered, fun hon => ⟨fun h => ?_, fun h => ?_, fun hmin hmax => ?_, exec_refclkLoss_acts hon,
      fun h => ?_, exec_resetPins_short, fun hlong hhigh => exec_rstNAssert_acts hlong hon hhigh,
      fun hlong hmode hhigh => exec_perstNAssert_acts hlong hon hmode hhigh, fun h => ?_⟩⟩
    · exact exec_pwrGoodFall hon (pulseActs_short s 5000 h)
    · exact exec_pwrGoodFall_acts hon (pulseActs_long s h (by omega)) rfl
    · rcases pulseActs_between s hmin hmax with hpulse | hpulse
      · obtain ⟨t, hexec, hlost⟩ := exec_pwrGoodFall_acts hon hpulse rfl
        exact ⟨t, hexec, .inr hlost⟩
      · exact ⟨_, exec_pwrGoodFall hon hpulse, .inl rfl⟩
    · exact congrArg _ (if_neg (by rw [h, Bool.and_false]; exact Bool.false_ne_true))
    · exact congrArg _ (if_pos (by rw [h, Bool.not_false, Bool.or_true, Bool.true_or]))
  case rises => exact fun s => ⟨congrArg _ (beginL0Exit_eq _), congrArg _ (beginL0Exit_eq _)⟩
  case hold =>
    refine fun s => ⟨fun h => exec_resetHoldEnd_waits (.inl h), fun h => exec_resetHoldEnd_waits (.inr ?_),
      fun hphase hready htime => ?_⟩
    · refine Bool.eq_false_iff.2 fun hover => ?_
      obtain ⟨hready, htime⟩ := (holdOver_iff s).1 hover
      rcases h with h | ⟨htimed, hearly⟩
      · exact h hready
      · rcases htime with hfree | hlate
        · exact hfree htimed
        · omega
    · have hexec := exec_resetHoldEnd_over hphase ((holdOver_iff s).2 ⟨hready, htime⟩)
      exact ⟨fun h => hexec.trans (congrArg _ (releaseHold_l0 h)), fun h hheld => hexec.trans (congrArg _ (releaseHold_l1 h hheld))⟩
  case exits =>
    refine fun s => ⟨exec_l0Exit_starts, exec_l0Exit_waits, fun hphase bad => exec_l1Exit hphase bad, fun hphase bad => ?_,
      fun hrel => congrArg _ (if_pos hrel), fun hrel => ?_, fun hrel htrained hfilled => ?_, fun h => ?_⟩
    · exact congrArg _ (if_pos (bne_iff_ne.2 hphase))
    · have hrel' : ¬ s.released = true := by rw [hrel]; exact Bool.false_ne_true
      exact ⟨congrArg _ (if_neg hrel'), congrArg _ (if_neg fun h => hrel' (by
        rw [Bool.and_eq_true, Bool.and_eq_true] at h
        exact h.1.1))⟩
    · exact congrArg _ (if_pos (by rw [hrel, htrained, hfilled]; rfl))
    · refine congrArg _ (if_neg fun hc => ?_)
      simp only [Bool.and_eq_true, Bool.not_eq_true'] at hc
      obtain ⟨⟨-, htrained⟩, hfilled⟩ := hc
      rcases h with h | h
      · exact Bool.false_ne_true (h.symm.trans htrained)
      · exact Bool.false_ne_true (hfilled.symm.trans h)

end Sys2Proof.Proofs
end

section
/-! PROOFS. Resets at L3 and L5 (02 R51, 11 R240, 17 R370) and the errors of the FEP that stop it (08 R173, R178 to R183). -/
namespace Sys2Proof.Proofs
open Sys2Proof Sys2Proof.Machine Sys2Proof.Safety Sys2Proof.Laws

-- Instances (11 R240) -------------------------------------------------------------------------------------------------------

theorem anyReset_of_phase {s : State} (h : s.rst.phase ≠ .none) : (s.l2Runs || s.wideRuns) = true := by
  unfold State.l2Runs State.wideRuns
  cases hphase : s.rst.phase with
  | none => exact absurd hphase h
  | hold => rfl
  | l0Exiting => rfl
  | l1Exiting => rfl
  | l2Preempt => rfl
  | l2Stopped => rfl

theorem noReset_of_phase {s : State} (h : s.rst.phase = .none) : (s.l2Runs || s.wideRuns) = false := by
  simp only [State.l2Runs, State.wideRuns, h, Bool.or_self]

section
variable {s : State} {n : Fin 33}

theorem exec_l3Reset_none (h : s.rst.acting = []) : exec (.l3Reset n) s = .next s := by
  simp only [exec, execL3Reset, h, List.find?_nil]

theorem exec_l3Reset {a : Acting} (h : s.rst.acting = [a]) (hlevel : s.levelOf a.source = 3) (harg : a.arg = n.val) :
    exec (.l3Reset n) s = .next (if s.l2Runs || s.wideRuns || (s.inst n.val).state == .aborting then s
      else State.resetInstance { s with rst := { s.rst with acting := [] } } n.val a.source) := by
  have hfound : s.rst.acting.find? (fun a => s.levelOf a.source == 3 && a.arg == n.val) = some a := by
    rw [h]
    exact List.find?_cons_of_pos (by rw [hlevel, harg]; simp)
  have herase : s.rst.acting.erase a = [] := by rw [h]; exact List.erase_cons_head ..
  simp only [exec, execL3Reset, hfound, herase]

theorem exec_l3Reset_runs {a : Acting} (h : s.rst.acting = [a]) (hlevel : s.levelOf a.source = 3) (harg : a.arg = n.val)
    (hphase : s.rst.phase = .none) (haborting : (s.inst n.val).state ≠ .aborting) (habsent : (s.inst n.val).state ≠ .absent) :
    ∃ t, exec (.l3Reset n) s = .next t ∧ (t.inst n.val).state = .active ∧ t.rst.acting = []
      ∧ (t.inst n.val).gen = (if (s.inst n.val).gen = 0xFFFF then 1 else (s.inst n.val).gen + 1)
      ∧ (t.inst n.val).sems = [] ∧ (t.inst n.val).bind = [] ∧ (t.inst n.val).mmu = mmuReset n.val
      ∧ (t.inst n.val).box.state = 0 ∧ (∀ e ∈ t.queues, e.2.inst ≠ n.val)
      ∧ tabGetD t.rst.counts 3 0 = tabGetD s.rst.counts 3 0 + 1 := by
  have hexec := exec_l3Reset h hlevel harg
  rw [noReset_of_phase hphase, if_neg (by rw [Bool.false_or, beq_iff_eq]; exact haborting)] at hexec
  obtain ⟨hactive, hgen, hbind, hmmu, hbox, hsems, hqueues, hrst⟩ :=
    resetInstance_spec (s := { s with rst := { s.rst with acting := [] } }) (n := n.val) habsent a.source
  refine ⟨_, hexec, hactive, ?_, hgen, hsems, hbind, hmmu, hbox, hqueues, ?_⟩
  · rw [hrst]
  · rw [hrst]
    exact tabGetD_bump_same s.rst.counts 3 (· + 1)

theorem exec_l3Reset_waits {a : Acting} (h : s.rst.acting = [a]) (hlevel : s.levelOf a.source = 3) (harg : a.arg = n.val)
    (hbusy : s.rst.phase ≠ .none ∨ (s.inst n.val).state = .aborting) : exec (.l3Reset n) s = .next s := by
  rw [exec_l3Reset h hlevel harg, if_pos]
  rcases hbusy with hphase | haborting
  · rw [anyReset_of_phase hphase, Bool.true_or]
  · rw [haborting]
    simp

end

-- Partitions (02 R51) -------------------------------------------------------------------------------------------------------

/-- A partition as its good reset leaves it. -/
def servedPart (now : Nat) (x : Part) : Part :=
  { x with state := .idle, mcCause := 0, seq := [], faultPending := false, rstBusy := false, rstResult := 0, idleSince := now }

/-- A partition and its bridge back in service, before its contracts are cleared of their risk. -/
def servedAgain (s : State) (p : Nat) : State :=
  ((s.updPart p (servedPart s.now)).updBridge p (fun b => { b with fatal := false })).refillGens p

theorem servedAgain_spec (s : State) {p : Nat} (hp : p ≠ 19) :
    (servedAgain s p).part p = servedPart s.now (s.part p)
    ∧ ((servedAgain s p).bridge p).fatal = false ∧ (servedAgain s p).rst = s.rst ∧ (servedAgain s p).cal = s.cal
    ∧ (∀ q, q ≠ p → (servedAgain s p).part q = s.part q)
    ∧ ∀ n, n < 33 → (servedAgain s p).nodeGen p n = (s.inst n).gen := by
  unfold servedAgain
  generalize hu : (s.updPart p (servedPart s.now)).updBridge p (fun b => { b with fatal := false }) = u
  have hgens (n : Nat) (hn : n < 33) := refillGens_nodeGen u hn hp
  obtain ⟨gens, hframe⟩ := refillGens_frame u p
  have hpart (q : Nat) : (u.refillGens p).part q = (s.updPart p (servedPart s.now)).part q := by rw [hframe, ← hu]; rfl
  have hbridge : (u.refillGens p).bridge p = u.bridge p := by rw [hframe]; rfl
  refine ⟨(hpart p).trans (updPart_part_same ..), ?_, ?_, ?_, fun q hq => (hpart q).trans (updPart_part_other _ _ hq), fun n hn => ?_⟩
  · rw [hbridge, ← hu, updBridge_bridge_same]
  · rw [hframe, ← hu]; rfl
  · rw [hframe, ← hu]; rfl
  · rw [hgens n hn, ← hu]; rfl

theorem nodeGen_net {s t : State} {node : Nat} (hnode : node ≠ 19) (hnet : t.net = s.net) (n : Nat) :
    t.nodeGen node n = s.nodeGen node n :=
  (if_neg hnode).trans ((congrArg (fun m : Net => tabGetD m.gens (node * 64 + n) 0) hnet).trans (if_neg hnode).symm)

theorem backInService_eq (s : State) (p : Nat) : s.backInService p
    = ((servedAgain s p).contractsAt p).foldl State.missClear (servedAgain s p) := rfl

theorem exec_l5ResetDone_good {s : State} {p : Fin 16} (hstate : (s.part p.val).state = .resetting) (hcal : s.cal.seqBad = false) :
    ∃ t, exec (.l5ResetDone p true true) s = .next t ∧ Still s t
      ∧ t.cal = s.cal ∧ t.part p.val = { s.part p.val with
          state := .idle, mcCause := 0, seq := [], faultPending := false, rstBusy := false, rstResult := 0, idleSince := s.now }
      ∧ (t.bridge p.val).fatal = false ∧ tabGetD t.rst.counts 5 0 = tabGetD s.rst.counts 5 0 + 1
      ∧ (∀ q, q ≠ p.val → t.part q = s.part q) ∧ ∀ n, n < 33 → t.nodeGen p.val n = (s.inst n).gen := by
  have hguard : ¬ ((s.part p.val).state != .resetting) = true := by rw [hstate]; decide
  have hexec : exec (.l5ResetDone p true true) s = .next (alerted s ((s.countReset 5).backInService p.val)) := by
    simp only [exec, execL5ResetDone, if_neg hguard, hcal, Bool.not_true, Bool.or_self, Bool.false_eq_true, if_false]
  obtain ⟨hpart, hfatal, hrst, hkeptCal, hothers, hgens⟩ := servedAgain_spec (s.countReset 5) (p := p.val) (by omega)
  have hrisk := riskOnly_foldl State.missClear riskOnly_missClear ((servedAgain (s.countReset 5) p.val).contractsAt p.val)
    (servedAgain (s.countReset 5) p.val)
  rw [← backInService_eq] at hrisk
  refine ⟨_, hexec, still_of_view (by simp), ?_, ?_, ?_, ?_, fun q hq => ?_, fun n hn => ?_⟩
  · rw [alerted_eq]
    exact (congrArg State.cal hrisk :).trans hkeptCal
  · rw [alerted_part, hrisk.part, hpart]
    rfl
  · rw [alerted_eq]
    exact (congrArg (fun t => (State.bridge t p.val).fatal) hrisk :).trans hfatal
  · rw [alerted_eq]
    exact ((congrArg (fun t => tabGetD t.rst.counts 5 0) hrisk :).trans (congrArg (fun r : Rst => tabGetD r.counts 5 0) hrst)).trans
      (tabGetD_bump_same s.rst.counts 5 (· + 1))
  · rw [alerted_part, hrisk.part, hothers q hq]
    rfl
  · have hnet : (alerted s ((s.countReset 5).backInService p.val)).net = (servedAgain (s.countReset 5) p.val).net :=
      (alerted_net ..).trans (congrArg State.net hrisk :)
    exact (nodeGen_net (by omega) hnet n).trans (hgens n hn)

/-- A partition kept offline by what its reset finds. -/
theorem keptOffline_spec {s u : State} {p c : Nat} (hparts : u.parts = s.parts) :
    ((u.keptOffline p c).part p = { s.part p with
      state := .offline, mcCause := BitVec.ofNat 4 c, rstBusy := false, rstResult := 0x06004001 })
    ∧ ∀ q, q ≠ p → (u.keptOffline p c).part q = s.part q := by
  have hpart (q : Nat) : u.part q = s.part q := congrArg (fun t => tabGetD t q ({} : Part)) hparts
  refine ⟨?_, fun q hq => ?_⟩
  · rw [State.keptOffline, updPart_part_same, hpart]
    rfl
  · rw [State.keptOffline, updPart_part_other _ _ hq, hpart]

theorem exec_l5ResetDone_bad {s : State} {p : Fin 16} {store buffer : Bool} (hstate : (s.part p.val).state = .resetting)
    (hbad : buffer = false ∨ s.cal.seqBad = true ∨ store = false) :
    ∃ t, exec (.l5ResetDone p store buffer) s = .next t ∧ Still s t
      ∧ t.cal.seqBad = (s.cal.seqBad || !buffer)
      ∧ t.part p.val = { s.part p.val with
          state := .offline, mcCause := if buffer && !s.cal.seqBad then 5 else 6, rstBusy := false, rstResult := 0x06004001 }
      ∧ ∀ q, q ≠ p.val → t.part q = s.part q := by
  have hguard : ¬ ((s.part p.val).state != .resetting) = true := by rw [hstate]; decide
  by_cases himage : (!buffer || s.cal.seqBad) = true
  · let u : State := { s.countReset 5 with cal := { s.cal with seqBad := true } }
    have hexec : exec (.l5ResetDone p store buffer) s = .next (alerted s (u.keptOffline p.val 6)) := by
      simp only [exec, execL5ResetDone, if_neg hguard, if_pos himage]
      rfl
    obtain ⟨hpart, hothers⟩ := keptOffline_spec (s := s) (u := u) (p := p.val) (c := 6) rfl
    have hcause : ¬ (buffer && !s.cal.seqBad) = true := by
      cases buffer <;> cases hs : s.cal.seqBad <;> simp_all
    refine ⟨_, hexec, still_of_view (by simp [u]), ?_, ?_, fun q hq => ?_⟩
    · rw [Bool.or_comm, himage, alerted_eq]
      rfl
    · rw [alerted_part, hpart, if_neg hcause]
      rfl
    · rw [alerted_part, hothers q hq]
  · obtain ⟨hbuffer, hcal⟩ : buffer = true ∧ s.cal.seqBad = false := by simpa using himage
    have hstore : store = false := by simpa [hbuffer, hcal] using hbad
    have hexec : exec (.l5ResetDone p store buffer) s = .next (alerted s ((s.countReset 5).keptOffline p.val 5)) := by
      simp only [exec, execL5ResetDone, if_neg hguard, if_neg himage, hstore, Bool.not_false, if_true]
    obtain ⟨hpart, hothers⟩ := keptOffline_spec (s := s) (u := s.countReset 5) (p := p.val) (c := 5) rfl
    refine ⟨_, hexec, still_of_view (by simp), ?_, ?_, fun q hq => ?_⟩
    · rw [alerted_eq, hbuffer, hcal]
      exact hcal
    · rw [alerted_part, hpart, hbuffer, hcal]
      rfl
    · rw [alerted_part, hothers q hq]

-- The control store (08 R163, R173, R178 to R183) ---------------------------------------------------------------------------

theorem phase_of_fepRuns {s : State} (h : s.fepRuns = true) : s.rst.phase = .none := by
  simp only [State.fepRuns, Bool.and_eq_true, beq_iff_eq] at h
  exact h.1.2

theorem levelOf_fepErrors (s : State) : s.levelOf 9 ≤ 2 ∧ s.levelOf 10 ≤ 2 := by
  have h9 : s.levelOf 9 ∈ [1, 2] := levelOf_mem s rfl
  have h10 : s.levelOf 10 ∈ [1, 2] := levelOf_mem s rfl
  simp only [List.mem_cons, List.not_mem_nil, or_false] at h9 h10
  omega

theorem onesOf_zero (n : Nat) : onesOf 0 n = 0 := by
  induction n with
  | zero => rfl
  | succ n ih => simp only [onesOf, Nat.zero_mod, Nat.zero_div, ih]

theorem errors_rewrite (f : Fep) (a : Nat) : (f.rewrite a).errors a = 0 := by
  unfold Fep.errors Fep.rewrite
  rw [tabGet_erase_same]
  exact onesOf_zero 137

theorem word_upset (f : Fep) (a b : Nat) (flips : BitVec 137) : (f.upset a flips).word b = f.word b := rfl

/-- A fatal error of the FEP while no reset runs: source 10 is put down, and AER may tell it. -/
theorem fatalCheck_spec {s : State} (hphase : s.rst.phase = .none) : view s.fatalCheck = view s ∧ s.fatalCheck.fep = s.fep
    ∧ s.fatalCheck.rst = { s.rst with acting := s.rst.acting ++ [⟨10, s.now, 0⟩] } := by
  unfold State.fatalCheck
  have haer : AerOnly s (if s.levelOf 10 ≤ 1 then s.aerFn false aerInternal 0 else s) := by
    split
    · exact aerOnly_aerFn ..
    · exact rfl
  have hview : view (if s.levelOf 10 ≤ 1 then s.aerFn false aerInternal 0 else s) = view s := by
    split
    · exact view_State_aerFn ..
    · rfl
  generalize (if s.levelOf 10 ≤ 1 then s.aerFn false aerInternal 0 else s) = u at *
  have hrst : u.rst = s.rst := (congrArg State.rst haer :)
  have hnow : u.now = s.now := (congrArg State.now haer :)
  rw [actSource_wide (by rw [hrst]; exact hphase) (levelOf_fepErrors u).2]
  refine ⟨hview, (congrArg State.fep haer :), ?_⟩
  rw [← hrst, ← hnow]
  rfl

section
variable {s : State} {addr : BitVec 12} {th : Fin 8} {flips : BitVec 137}

theorem fetchUpset_spec (s : State) (k a : Nat) (flips : BitVec 137) :
    s.fetchUpset k a flips = { s with fep := { s.fep with
      upsets := (s.fep.upset a flips).upsets, threads := (s.fetchUpset k a flips).fep.threads } } := rfl

theorem failsAgain_iff (s : State) (addr : BitVec 12) :
    s.failsAgain addr = true ↔ ∃ u, s.fep.lastRecovered = some (addr, u) ∧ s.now < u + 10000000 := by
  unfold State.failsAgain
  cases hlast : s.fep.lastRecovered with
  | none => simp
  | some e =>
    obtain ⟨a, u⟩ := e
    simp only [Bool.and_eq_true, beq_iff_eq, decide_eq_true_eq, Option.some.injEq, Prod.mk.injEq]
    constructor
    · rintro ⟨rfl, hu⟩
      exact ⟨u, ⟨rfl, rfl⟩, hu⟩
    · rintro ⟨v, ⟨rfl, rfl⟩, hv⟩
      exact ⟨rfl, hv⟩

theorem exec_fep_stopped (h : s.fepRuns = false) (good : Bool) : exec (.controlStoreError addr th flips) s = .next s
    ∧ exec (.scrub flips good) s = .next s ∧ ∀ stall, exec (.fepHangWatchdog stall th addr) s = .next s := by
  simp only [exec, execControlStoreError, execScrub, execFepHangWatchdog, h, Bool.not_false, if_true, true_and, implies_true]

theorem haltFep_spec (s : State) (addr : BitVec 12) (cause : Nat) : view (s.haltFep addr cause) = view s
    ∧ (s.haltFep addr cause).fep = { s.fep with halted := true } ∧ (s.haltFep addr cause).rst = s.rst := by
  refine ⟨view_State_haltFep .., ?_, ?_⟩
  · unfold State.haltFep
    rw [alerted_eq]
    exact event_fep ..
  · unfold State.haltFep
    rw [alerted_eq]
    exact event_rst ..

/-- What the FEP does at an address of its control store that it reads, by the errors that it meets there. -/
def storeMet (u : State) (addr : BitVec 12) (th : BitVec 3) : State :=
  if u.fep.errors addr.toNat = 0 then u
  else if u.fep.errors addr.toNat = 1 then u.correctWord addr.toNat
  else if u.failsAgain addr then (u.stopFep 5 addr th).haltFep addr 5
  else State.fatalCheck { u.stopFep 1 addr th with fep := { (u.stopFep 1 addr th).fep with lastError := some addr } }

theorem exec_controlStoreError (h : s.fepRuns = true) : exec (.controlStoreError addr th flips) s
    = .next (storeMet (s.fetchUpset th.val addr.toNat flips) addr (BitVec.ofNat 3 th.val)) := by
  simp only [exec, execControlStoreError, h, Bool.not_true, Bool.false_eq_true, if_false, storeMet]

theorem controlStoreError_spec (h : s.fepRuns = true) :
    let again := ∃ u, s.fep.lastRecovered = some (addr, u) ∧ s.now < u + 10000000
    let met (a : Nat) : Fep := s.fep.upset a flips
    let wrong (a : Nat) : Nat := (met a).errors a
    let op := Instr.controlStoreError addr th flips
    (wrong addr.toNat = 0 → ∃ t, exec op s = .next t
        ∧ t = { s with fep := { s.fep with upsets := (met addr.toNat).upsets, threads := t.fep.threads } })
      ∧ (wrong addr.toNat = 1 → ∃ t, exec op s = .next t ∧ t = { s with fep := { s.fep with
            upsets := t.fep.upsets, threads := t.fep.threads, ceCount := satInc s.fep.ceCount } }
        ∧ t.fep.errors addr.toNat = 0)
      ∧ (2 ≤ wrong addr.toNat → again → ∃ t, exec op s = .next t ∧ Still s t ∧ t.fep.halted = true
        ∧ t.fep.stopped = true ∧ t.fep.mcCause = 5 ∧ t.fep.mcAddr = addr ∧ t.rst = s.rst)
      ∧ (2 ≤ wrong addr.toNat → ¬ again → ∃ t, exec op s = .next t ∧ Still s t
        ∧ t.fep = { s.fep with stopped := true, mcCause := 1, mcAddr := addr, mcThread := BitVec.ofNat 3 th.val,
                               mcCount := satInc s.fep.mcCount, lastError := some addr,
                               upsets := (met addr.toNat).upsets, threads := t.fep.threads }
        ∧ t.rst = { s.rst with acting := s.rst.acting ++ [⟨10, s.now, 0⟩] }) := by
  intro again met wrong op
  have hexec : exec op s = _ := exec_controlStoreError h
  have hwrong : wrong addr.toNat = (s.fetchUpset th.val addr.toNat flips).fep.errors addr.toNat := rfl
  have hagain : (s.fetchUpset th.val addr.toNat flips).failsAgain addr = true ↔ again := failsAgain_iff s addr
  have hview : view (s.fetchUpset th.val addr.toNat flips) = view s := view_State_fetchUpset ..
  have hfetch := fetchUpset_spec s th.val addr.toNat flips
  have hphase : (s.fetchUpset th.val addr.toNat flips).rst.phase = .none := phase_of_fepRuns h
  rw [hwrong]
  generalize s.fetchUpset th.val addr.toNat flips = u at *
  refine ⟨fun hzero => ?_, fun hone => ?_, fun htwo hmet => ?_, fun htwo hnew => ?_⟩
  · rw [storeMet, if_pos hzero] at hexec
    exact ⟨u, hexec, hfetch⟩
  · rw [storeMet, if_neg (by omega), if_pos hone] at hexec
    refine ⟨_, hexec, ?_, errors_rewrite u.fep addr.toNat⟩
    unfold State.correctWord
    rw [hfetch]
    rfl
  · rw [storeMet, if_neg (by omega), if_neg (by omega), if_pos (hagain.2 hmet)] at hexec
    obtain ⟨hhaltView, hfep, hrst⟩ := haltFep_spec (u.stopFep 5 addr (BitVec.ofNat 3 th.val)) addr 5
    refine ⟨_, hexec, still_of_view (hhaltView.trans ((view_State_stopFep ..).trans hview)), ?_, ?_, ?_, ?_, ?_⟩
    · rw [hfep]
    · rw [hfep]; rfl
    · rw [hfep]; rfl
    · rw [hfep]; rfl
    · rw [hrst, show (u.stopFep 5 addr (BitVec.ofNat 3 th.val)).rst = u.rst from rfl, hfetch]
  · rw [storeMet, if_neg (by omega), if_neg (by omega), if_neg (fun h => hnew (hagain.1 h))] at hexec
    obtain ⟨hfatalView, hfep, hrst⟩ := fatalCheck_spec (s := { u.stopFep 1 addr (BitVec.ofNat 3 th.val) with
      fep := { (u.stopFep 1 addr (BitVec.ofNat 3 th.val)).fep with lastError := some addr } }) hphase
    refine ⟨_, hexec, still_of_view (hfatalView.trans hview), ?_, ?_⟩
    · rw [hfep, hfetch]
      rfl
    · rw [hrst, hfetch]
      rfl

theorem fepHangWatchdog_spec (h : s.fepRuns = true) :
    exec (.fepHangWatchdog false th addr) s = .next (withActing { s with fep := { s.fep with
        stopped := true, mcCause := 2, mcAddr := addr, mcThread := BitVec.ofNat 3 th.val,
        mcCount := satInc s.fep.mcCount } } 9 0)
    ∧ ∃ t, exec (.fepHangWatchdog true th addr) s = .next t
      ∧ t = { s with
          freeCount := s.freeCount + 1, rst := { s.rst with acting := s.rst.acting ++ [⟨9, s.now, 0⟩] },
          fep := { s.fep with
            stopped := true, mcCause := 3, mcAddr := t.fep.mcAddr, mcThread := t.fep.mcThread,
            mcCount := satInc s.fep.mcCount } } := by
  have hphase := phase_of_fepRuns h
  refine ⟨?_, ?_⟩
  · simp only [exec, execFepHangWatchdog, h, Bool.not_true, Bool.false_eq_true, if_false]
    exact congrArg _ (actSource_wide (s := s.stopFep 2 addr (BitVec.ofNat 3 th.val)) hphase (levelOf_fepErrors _).1 0)
  · simp only [exec, execFepHangWatchdog, h, Bool.not_true, Bool.false_eq_true, if_false, if_true]
    refine ⟨_, congrArg _ (actSource_wide (s := s.useFree.stopFep 3 _ _) hphase (levelOf_fepErrors _).1 0), rfl⟩

/-- What the scrubber does at the word that it has read. -/
def scrubMet (t : State) (good : Bool) : State :=
  if t.fep.errors t.fep.scrubPtr.toNat = 0 then t
  else if t.fep.errors t.fep.scrubPtr.toNat = 1 then t.correctWord t.fep.scrubPtr.toNat
  else (t.bufferRead good).scrubRepair

theorem exec_scrub (h : s.fepRuns = true) (good : Bool) : exec (.scrub flips good) s
    = .next (scrubMet { s with fep := s.fep.upset s.fep.scrubPtr.toNat flips } good).nextScrub := by
  simp only [exec, execScrub, h, Bool.not_true, Bool.false_eq_true, if_false, scrubMet]

theorem nextScrub_spec (s : State) : view s.nextScrub = view s
    ∧ s.nextScrub.fep = { s.fep with scrubPtr := s.fep.scrubPtr + 1 } ∧ s.nextScrub.rst = s.rst := ⟨rfl, rfl, rfl⟩

/-- The repair of a word that the buffer holds good, told. -/
theorem scrubRepair_good {s : State} (h : s.fep.bufferBad = false) : view s.scrubRepair = view s
    ∧ s.scrubRepair.fep = { s.fep.rewrite s.fep.scrubPtr.toNat with repaired := satInc s.fep.repaired } := by
  have hbad : ¬ s.fep.bufferBad = true := by rw [h]; exact Bool.false_ne_true
  rw [State.scrubRepair, if_neg hbad]
  exact ⟨(view_State_event ..), event_fep ..⟩

/-- The word cannot be repaired: the FEP stops with cause 4. -/
theorem scrubRepair_bad {s : State} (hphase : s.rst.phase = .none) (h : s.fep.bufferBad = true) : view s.scrubRepair = view s
    ∧ s.scrubRepair.fep.stopped = true ∧ s.scrubRepair.fep.mcCause = 4 ∧ s.scrubRepair.fep.bufferBad = true
    ∧ s.scrubRepair.fep.mcCount = satInc s.fep.mcCount
    ∧ s.scrubRepair.rst = { s.rst with acting := s.rst.acting ++ [⟨10, s.now, 0⟩] } := by
  rw [State.scrubRepair, if_pos h]
  obtain ⟨hview, hfep, hrst⟩ := fatalCheck_spec (s := s.useFree.stopFep 4 ((Config.freeWord s.freeCount).setWidth 12)
    (BitVec.ofNat 3 ((Config.freeWord s.freeCount).toNat / 4096))) hphase
  dsimp only
  rw [hfep, hrst]
  exact ⟨hview, rfl, rfl, h, rfl, rfl⟩

theorem scrub_spec (h : s.fepRuns = true) (good : Bool) :
    let met (a : Nat) : Fep := s.fep.upset a flips
    let wrong (a : Nat) : Nat := (met a).errors a
    let ptr := s.fep.scrubPtr.toNat
    let scrubs := exec (.scrub flips good) s
    (wrong ptr = 0 → scrubs = .next { s with fep := { met ptr with scrubPtr := s.fep.scrubPtr + 1 } })
      ∧ (wrong ptr = 1 → scrubs = .next { s with fep := { (met ptr).rewrite ptr with
          ceCount := satInc s.fep.ceCount, scrubPtr := s.fep.scrubPtr + 1 } })
      ∧ (2 ≤ wrong ptr → s.fep.bufferBad = false → good = true → ∃ t, scrubs = .next t ∧ Still s t
        ∧ t.fep = { (met ptr).rewrite ptr with repaired := satInc s.fep.repaired, scrubPtr := s.fep.scrubPtr + 1 })
      ∧ (2 ≤ wrong ptr → (s.fep.bufferBad = true ∨ good = false) → ∃ t, scrubs = .next t ∧ Still s t
        ∧ t.fep.stopped = true ∧ t.fep.mcCause = 4 ∧ t.fep.bufferBad = true ∧ t.fep.mcCount = satInc s.fep.mcCount
        ∧ t.rst = { s.rst with acting := s.rst.acting ++ [⟨10, s.now, 0⟩] }) := by
  intro met wrong ptr scrubs
  have hphase := phase_of_fepRuns h
  have hexec : scrubs = .next (scrubMet { s with fep := met ptr } good).nextScrub := exec_scrub h good
  have hwrong : wrong ptr = (met ptr).errors (met ptr).scrubPtr.toNat := rfl
  rw [hwrong, hexec]
  refine ⟨fun hzero => ?_, fun hone => ?_, fun htwo hbad hgood => ?_, fun htwo hbad => ?_⟩
  · rw [scrubMet, if_pos hzero]
    rfl
  · rw [scrubMet, if_neg (by rw [hone]; decide), if_pos hone]
    rfl
  · subst hgood
    have hbuffer : (State.bufferRead { s with fep := met ptr } true).fep.bufferBad = false :=
      (congrArg (· || false) hbad : (s.fep.bufferBad || false) = (false || false))
    obtain ⟨hview, hfep⟩ := scrubRepair_good hbuffer
    rw [scrubMet, if_neg (show ¬ (met ptr).errors (met ptr).scrubPtr.toNat = 0 by omega),
      if_neg (show ¬ (met ptr).errors (met ptr).scrubPtr.toNat = 1 by omega)]
    refine ⟨_, rfl, still_of_view hview, ?_⟩
    rw [(nextScrub_spec _).2.1, hfep]
    have hkept : (s.fep.bufferBad || !true) = s.fep.bufferBad := by rw [hbad]; rfl
    unfold State.bufferRead
    dsimp only [met, Fep.upset, Fep.rewrite]
    rw [hkept]
  · have hbuffer : (State.bufferRead { s with fep := met ptr } good).fep.bufferBad = true := by
      show (s.fep.bufferBad || !good) = true
      simpa using hbad
    obtain ⟨hview, hstopped, hcause, hkept, hcount, hrst⟩ :=
      scrubRepair_bad (s := State.bufferRead { s with fep := met ptr } good) hphase hbuffer
    rw [scrubMet, if_neg (show ¬ (met ptr).errors (met ptr).scrubPtr.toNat = 0 by omega),
      if_neg (show ¬ (met ptr).errors (met ptr).scrubPtr.toNat = 1 by omega)]
    exact ⟨_, rfl, still_of_view hview, hstopped, hcause, hkept, hcount, hrst⟩

end

end Sys2Proof.Proofs
end

section
/-! PROOFS. The reset at L2 (08 R182, R183, 17 R377) and the narrow resets settled (obligation O59). -/
namespace Sys2Proof.Proofs
open Sys2Proof Sys2Proof.Machine Sys2Proof.Safety Sys2Proof.Laws

-- The start (17 R377, step 1) -----------------------------------------------------------------------------------------------

/-- A partition asked to be pre-empted before an L2 reset. -/
def preemptAsked (x : Part) : Part := if x.run.isSome && x.preempt.isNone then { x with preempt := some 0 } else x

/-- The record of an L2 reset that begins. -/
def l2Begun (s : State) (a : Acting) : State :=
  { s with rst := { s.rst with
      acting := [], phase := .l2Preempt, level := 2, source := a.source, startedAt := a.at_,
      lastSource := BitVec.ofNat 8 a.source, lastLevel := 2, absorbed := BitVec.ofNat 8 (min ([] : List Acting).length 255),
      rstTime := BitVec.ofNat 64 a.at_ } }

theorem foldl_l3Waiting_nil {u : State} (h : u.rst.acting = []) (g : State → Acting → State) : u.l3Waiting.foldl g u = u := by
  rw [State.l3Waiting, h]
  rfl

section
variable {s : State} {a : Acting}

theorem exec_l2Reset_none (h : s.rst.acting = []) : exec .l2Reset s = .next s := by
  simp only [exec, execL2Reset, State.wideSource, actingAt_nil h]

theorem exec_l2Reset (h : s.rst.acting = [a]) (hlevel : s.levelOf a.source = 2) : exec .l2Reset s
    = .next (if s.rst.phase != .none then s else ((l2Begun s a).countReset 2).mapParts (fun _ => preemptAsked)) := by
  have h0 : s.actingAt 0 = [] := by rw [actingAt_single h, if_neg (by rw [hlevel]; decide)]
  have h1 : s.actingAt 1 = [] := by rw [actingAt_single h, if_neg (by rw [hlevel]; decide)]
  have h2 : s.actingAt 2 = [a] := by rw [actingAt_single h, if_pos hlevel]
  have hleft : s.rst.acting.filter (fun a => s.levelOf a.source != 2) = [] := by
    rw [h, List.filter_cons_of_neg (by rw [hlevel]; decide), List.filter_nil]
  have hacting : (((l2Begun s a).countReset 2).mapParts (fun _ => preemptAsked)).rst.acting = [] := by
    rw [mapParts_frame]
    rfl
  simp only [exec, execL2Reset, State.wideSource, h0, h1, h2, hleft]
  split
  · rfl
  · exact congrArg _ (foldl_l3Waiting_nil hacting _)

theorem exec_l2Reset_begins (h : s.rst.acting = [a]) (hlevel : s.levelOf a.source = 2) (hphase : s.rst.phase = .none) :
    ∃ t, exec .l2Reset s = .next t ∧ t = { s with rst := t.rst, parts := t.parts }
      ∧ t.rst.phase = .l2Preempt ∧ t.rst.level = 2 ∧ t.rst.source = a.source ∧ t.rst.startedAt = a.at_
      ∧ t.rst.acting = [] ∧ t.rst.lastLevel = 2 ∧ tabGetD t.rst.counts 2 0 = tabGetD s.rst.counts 2 0 + 1
      ∧ ∀ p, p < 16 → t.part p = { s.part p with preempt :=
          if (s.part p).run.isSome && (s.part p).preempt.isNone then some 0 else (s.part p).preempt } := by
  have hguard : ¬ (s.rst.phase != .none) = true := by rw [hphase]; decide
  have hexec := exec_l2Reset h hlevel
  rw [if_neg hguard] at hexec
  have hframe := mapParts_frame ((l2Begun s a).countReset 2) (fun _ => preemptAsked)
  have hpart (p : Nat) (hp : p < 16) := mapParts_part ((l2Begun s a).countReset 2) (fun _ => preemptAsked) hp
  generalize ((l2Begun s a).countReset 2).mapParts (fun _ => preemptAsked) = t at *
  have hrst : t.rst = ((l2Begun s a).countReset 2).rst := (congrArg State.rst hframe :)
  refine ⟨t, hexec, ?_, ?_, ?_, ?_, ?_, ?_, ?_, ?_, fun p hp => ?_⟩
  · rw [hframe]
    rfl
  · rw [hrst]; rfl
  · rw [hrst]; rfl
  · rw [hrst]; rfl
  · rw [hrst]; rfl
  · rw [hrst]; rfl
  · rw [hrst]; rfl
  · rw [hrst]
    exact tabGetD_bump_same s.rst.counts 2 (· + 1)
  · refine (hpart p hp).trans ?_
    show preemptAsked (s.part p) = _
    unfold preemptAsked
    split <;> rfl

end

-- The stop (17 R377, steps 2 to 4) ------------------------------------------------------------------------------------------

theorem rebuilt_released (x : Part) (now : Nat) (fatal bad : Bool) :
    (x.rebuilt now fatal bad).run = none ∧ (x.rebuilt now fatal bad).grant = none ∧ (x.rebuilt now fatal bad).residency = none
    ∧ (x.rebuilt now fatal bad).resume = x.resume := by
  unfold Part.rebuilt
  dsimp only
  split
  · exact ⟨rfl, rfl, rfl, rfl⟩
  · split <;> exact ⟨rfl, rfl, rfl, rfl⟩

theorem rebuilt_offline {x : Part} (now : Nat) (fatal : Bool) (hgated : x.state ≠ .gated) (hoffline : x.state ≠ .offline) :
    (x.rebuilt now fatal true).state = .offline ∧ (x.rebuilt now fatal true).mcCause = 6 := by
  have hbad : (true && x.state != .gated && !(x.state == .offline && (fatal || x.mcCause == 5))) = true := by
    simp [hgated, hoffline]
  unfold Part.rebuilt
  dsimp only
  rw [if_pos hbad]
  exact ⟨rfl, rfl⟩

/-- What reloading the patch buffer changes; the errors of the control store and its threads stay as they are. -/
def ReloadedOnly (s t : State) : Prop :=
  t = { s with fep := t.fep, freeCount := t.freeCount, insts := t.insts, link := t.link, mgc := t.mgc, bus := t.bus }
  ∧ t.fep.upsets = s.fep.upsets ∧ t.fep.threads = s.fep.threads

theorem reloadedOnly_haltFep (s : State) (addr : BitVec 12) (cause : Nat) : ReloadedOnly s (s.haltFep addr cause) := by
  obtain ⟨-, hfep, -⟩ := haltFep_spec s addr cause
  refine ⟨?_, by rw [hfep], by rw [hfep]⟩
  unfold State.haltFep
  rw [alerted_eq, (toldOnly_event ..).2]

theorem reloadedOnly_reloadBuffer (s : State) : ReloadedOnly s s.reloadBuffer := by
  unfold State.reloadBuffer
  split
  · exact ⟨rfl, rfl, rfl⟩
  · split
    · exact ⟨rfl, rfl, rfl⟩
    · dsimp only
      obtain ⟨hframe, hupsets, hthreads⟩ := reloadedOnly_haltFep (s.useFree.stopFep 4 ((Config.freeWord s.freeCount).setWidth 12)
        (BitVec.ofNat 3 ((Config.freeWord s.freeCount).toNat / 4096))) ((Config.freeWord s.freeCount).setWidth 12) 4
      refine ⟨?_, hupsets, hthreads⟩
      rw [hframe]
      rfl

/-- A command as the stop of an L2 reset leaves it. -/
def stoppedCmd (c : Cmd) : Cmd :=
  if c.cancelled then { c with pqEntry := none } else { c with replicas := c.replicas.map Replica.restart, pqEntry := none }

theorem stoppedCmd_spec (c : Cmd) : stoppedCmd c = { c with replicas := (stoppedCmd c).replicas, pqEntry := none } := by
  unfold stoppedCmd
  split <;> rfl

/-- The device stopped by an L2 reset, before the stores are reloaded. -/
def stopped (s : State) : State :=
  let s2 := (s.mapCmds stoppedCmd).drained.mapParts (fun p x => x.rebuilt s.now (s.bridge p).fatal s.cal.seqBad)
  { s2 with
    clusters := tabMap s2.clusters (fun _ c => { c with shape := 0, changing := none })
    skims := tabMap s2.skims (fun _ g => freeSkim g)
    rst := { s2.rst with phase := .l2Stopped } }

theorem l2Stop_eq (s : State) : s.l2Stop = (alerted s (stopped s).rebuildStore.reloadBuffer).reassess := rfl

theorem stopped_spec (s : State) :
    (stopped s).rst.phase = .l2Stopped ∧ (stopped s).net.reqs = [] ∧ (stopped s).net.out = []
    ∧ (∀ p, p < 16 → (stopped s).part p = (s.part p).rebuilt s.now (s.bridge p).fatal s.cal.seqBad)
    ∧ (stopped s).cal = s.cal ∧ (∀ c, ((stopped s).cluster c).shape = 0) ∧ (stopped s).queues = s.queues
    ∧ (stopped s).cmds = tabMap s.cmds (fun _ c => stoppedCmd c) := by
  unfold stopped
  have hframe := mapParts_frame (s.mapCmds stoppedCmd).drained (fun p x => x.rebuilt s.now (s.bridge p).fatal s.cal.seqBad)
  have hpart (p : Nat) (hp : p < 16) := mapParts_part (s.mapCmds stoppedCmd).drained
    (fun p x => x.rebuilt s.now (s.bridge p).fatal s.cal.seqBad) hp
  generalize (s.mapCmds stoppedCmd).drained.mapParts (fun p x => x.rebuilt s.now (s.bridge p).fatal s.cal.seqBad) = u at *
  refine ⟨rfl, ?_, ?_, hpart, (congrArg State.cal hframe :), fun c => ?_, (congrArg State.queues hframe :),
    (congrArg State.cmds hframe :)⟩
  · exact (congrArg (fun t => t.net.reqs) hframe :)
  · exact (congrArg (fun t => t.net.out) hframe :)
  · show (tabGetD (tabMap u.clusters (fun _ c => { c with shape := 0, changing := none })) c ({} : Cluster)).shape = 0
    rw [tabGetD, tabGet_map]
    cases tabGet u.clusters c <;> rfl

theorem l2Stop_spec (s : State) :
    s.l2Stop.rst.phase = .l2Stopped ∧ s.l2Stop.net.reqs = [] ∧ s.l2Stop.net.out = []
    ∧ (∀ p, p < 16 → Stepped ((s.part p).rebuilt s.now (s.bridge p).fatal s.cal.seqBad) (s.l2Stop.part p))
    ∧ s.l2Stop.fep.upsets = [] ∧ s.l2Stop.fep.threads = [] ∧ s.l2Stop.cal = s.cal ∧ (∀ c, (s.l2Stop.cluster c).shape = 0)
    ∧ s.l2Stop.queues = s.queues ∧ s.l2Stop.cmds = tabMap s.cmds (fun _ c => stoppedCmd c) := by
  obtain ⟨hphase, hreqs, hout, hparts, hcal, hclusters, hqueues, hcmds⟩ := stopped_spec s
  have heq := l2Stop_eq s
  generalize stopped s = w at *
  obtain ⟨hframe, hupsets, hthreads⟩ := reloadedOnly_reloadBuffer w.rebuildStore
  have hpower := (powerOnly_reassess (alerted s w.rebuildStore.reloadBuffer)).1
  have hsteps := reassess_partsStepped (alerted s w.rebuildStore.reloadBuffer)
  rw [← heq] at hpower hsteps
  generalize w.rebuildStore.reloadBuffer = u at *
  generalize s.l2Stop = t at *
  have halert := alerted_eq s u
  generalize alerted s u = v at *
  have hfep : t.fep = u.fep := (congrArg State.fep hpower :).trans (congrArg State.fep halert :)
  have hrst : t.rst = w.rst :=
    ((congrArg State.rst hpower :).trans (congrArg State.rst halert :)).trans (congrArg State.rst hframe :)
  have hnet : t.net = w.net :=
    ((congrArg State.net hpower :).trans (congrArg State.net halert :)).trans (congrArg State.net hframe :)
  have hcal' : t.cal = w.cal :=
    ((congrArg State.cal hpower :).trans (congrArg State.cal halert :)).trans (congrArg State.cal hframe :)
  have hclusters' : t.clusters = w.clusters :=
    ((congrArg State.clusters hpower :).trans (congrArg State.clusters halert :)).trans (congrArg State.clusters hframe :)
  have hqueues' : t.queues = w.queues :=
    ((congrArg State.queues hpower :).trans (congrArg State.queues halert :)).trans (congrArg State.queues hframe :)
  have hcmds' : t.cmds = w.cmds :=
    ((congrArg State.cmds hpower :).trans (congrArg State.cmds halert :)).trans (congrArg State.cmds hframe :)
  have hparts' : v.parts = w.parts := (congrArg State.parts halert :).trans (congrArg State.parts hframe :)
  refine ⟨by rw [hrst, hphase], by rw [hnet, hreqs], by rw [hnet, hout], fun p hp => ?_, by rw [hfep, hupsets]; rfl,
    by rw [hfep, hthreads]; rfl, hcal'.trans hcal, fun c => ?_, hqueues'.trans hqueues, hcmds'.trans hcmds⟩
  · have hp' : v.part p = w.part p := congrArg (fun t => tabGetD t p ({} : Part)) hparts'
    rw [← hparts p hp, ← hp']
    exact hsteps p
  · rw [← hclusters c]
    exact congrArg (fun t => (tabGetD t c ({} : Cluster)).shape) hclusters'

theorem exec_l2PreemptDeadline {s : State} (patch image : Bool) (hphase : s.rst.phase = .l2Preempt)
    (hlate : s.rst.startedAt + 40000 ≤ s.now) :
    ∃ t, exec (.l2PreemptDeadline patch image) s = .next t ∧ Still s t ∧ t.rst.phase = .l2Stopped ∧ t.net.reqs = [] ∧ t.net.out = []
      ∧ (∀ p, p < 16 → (t.part p).run = none ∧ (t.part p).grant = none ∧ (t.part p).residency = none
          ∧ (t.part p).resume = (s.part p).resume)
      ∧ (∀ p, p < 16 → (s.part p).state ≠ .gated → (s.part p).state ≠ .offline → (image = false ∨ s.cal.seqBad = true) →
          (t.part p).state = .offline ∧ (t.part p).mcCause = 6)
      ∧ t.fep.upsets = [] ∧ t.fep.threads = [] ∧ t.cal.seqBad = (s.cal.seqBad || !image)
      ∧ (∀ c, (t.cluster c).shape = 0) ∧ t.queues = s.queues
      ∧ ∀ k c, tabGet s.cmds k = some c → ∃ x, tabGet t.cmds k = some x
          ∧ x = { c with replicas := x.replicas, pqEntry := none } := by
  let u : State := { s.bufferRead patch with cal := { s.cal with seqBad := s.cal.seqBad || !image } }
  have hguard : (s.rst.phase == .l2Preempt && decide (s.rst.startedAt + 40000 ≤ s.now)) = true := by
    rw [hphase, decide_eq_true hlate]
    rfl
  have hexec : exec (.l2PreemptDeadline patch image) s = .next u.l2Stop := by
    simp only [exec, execL2PreemptDeadline, if_pos hguard]
    rfl
  have hview : view u.l2Stop = view s := view_State_l2Stop u
  obtain ⟨hstopped, hreqs, hout, hparts, hupsets, hthreads, hcal, hclusters, hqueues, hcmds⟩ := l2Stop_spec u
  generalize u.l2Stop = t at *
  refine ⟨t, hexec, still_of_view hview, hstopped, hreqs, hout, fun p hp => ?_, fun p hp hgated hoffline hbad => ?_, hupsets, hthreads,
    by rw [hcal], hclusters, hqueues, fun k c hk => ?_⟩
  · obtain ⟨hrun, hgrant, hresidency, hresume⟩ := rebuilt_released (u.part p) u.now (u.bridge p).fatal u.cal.seqBad
    rw [hparts p hp]
    exact ⟨hrun, hgrant, hresidency, hresume⟩
  · have hseq : u.cal.seqBad = true := by
      show (s.cal.seqBad || !image) = true
      rcases hbad with h | h <;> simp [h]
    have hstep := hparts p hp
    rw [hseq] at hstep
    rw [hstep]
    exact rebuilt_offline (x := s.part p) u.now (u.bridge p).fatal hgated hoffline
  · refine ⟨stoppedCmd c, ?_, stoppedCmd_spec c⟩
    rw [hcmds, tabGet_map]
    exact congrArg (Option.map stoppedCmd) hk

-- The end (08 R182, 17 R377, step 5) ----------------------------------------------------------------------------------------

/-- What rebuilding the commands after an L2 reset changes. -/
def RebuiltOnly (s t : State) : Prop := t = { s with insts := t.insts, cmds := t.cmds, pages := t.pages, parts := t.parts }

theorem RebuiltOnly.trans {a b c : State} (h : RebuiltOnly a b) (k : RebuiltOnly b c) : RebuiltOnly a c := by
  unfold RebuiltOnly at *
  rw [k, h]

theorem rebuiltOnly_setCmd (s : State) (c : Cmd) : RebuiltOnly s (s.setCmd c) := rfl

theorem rebuiltOnly_rebuildCmd (s : State) (c : Cmd) : RebuiltOnly s (s.rebuildCmd c) := by
  unfold State.rebuildCmd
  split
  · exact rfl
  · split
    · split
      · exact rfl
      · have hdropped := ((droppedOnly_dropCmd s c.slot c.seq).trans (droppedOnly_dropBuild _ c)).1
        unfold RebuiltOnly
        rw [hdropped]
    · split
      · exact rfl
      · extract_lets fmt s1
        have h1 : RebuiltOnly s s1 := by
          unfold RebuiltOnly
          rw [show s1 = { s with parts := s1.parts } from mapParts_frame s _]
        exact h1.trans (rebuiltOnly_setCmd s1 _)

theorem rebuilt_frame (s : State) :
    s.rebuilt.rst = s.rst ∧ s.rebuilt.pins = s.pins ∧ s.rebuilt.fep = { s.fep with rrNext := 0, stopped := false }
    ∧ s.rebuilt.queues = tabMap s.queues (fun _ q => q.resumed) := by
  have hcmds : RebuiltOnly s ((tabVals s.cmds).foldl State.rebuildCmd s) :=
    List.foldlRecOn (motive := fun (t : State) => RebuiltOnly s t) _ _ rfl fun t ht c _ => ht.trans (rebuiltOnly_rebuildCmd t c)
  unfold State.rebuilt
  generalize (tabVals s.cmds).foldl State.rebuildCmd s = u at *
  dsimp only
  refine ⟨(congrArg State.rst hcmds :), (congrArg State.pins hcmds :), ?_, ?_⟩
  · rw [show u.fep = s.fep from (congrArg State.fep hcmds :)]
  · rw [show u.queues = s.queues from (congrArg State.queues hcmds :)]

theorem riskOnly_retest (s : State) (cause id : Nat) : RiskOnly s (s.retest cause id) := by
  unfold State.retest
  split
  · split
    · split
      · exact riskOnly_told ..
      · exact riskOnly_event ..
    · exact rfl
  · exact rfl

theorem riskOnly_recoveryEvents (s : State) (counts : Nat × Nat × Nat) : RiskOnly s (s.recoveryEvents counts) :=
  (riskOnly_event ..).trans (riskOnly_foldl _ (fun t _ => riskOnly_event t _ _ _ _ _) _ _)

theorem l5Waiting_nil {s : State} (h : s.rst.acting = []) : s.l5Waiting = [] := by
  rw [State.l5Waiting, h]
  rfl

/-- The FEP once its L2 reset has ended. -/
def l2Ended (s : State) : State :=
  { s.rebuilt with
    rst := { s.rebuilt.rst with
      phase := .none, level := 9, acting := s.rebuilt.rst.acting.filter (fun a => s.rebuilt.levelOf a.source != 5) }
    fep := { s.rebuilt.fep with
      heldBells := [], lastError := none
      lastRecovered := match s.rebuilt.fep.lastError with
        | some a => some (a, s.rebuilt.now)
        | none => s.rebuilt.fep.lastRecovered } }

theorem l2End_riskOnly {s : State} (hacting : s.rst.acting = []) (hbells : s.fep.heldBells = []) : RiskOnly (l2Ended s) s.l2End := by
  obtain ⟨hrst, -, hfep, -⟩ := rebuilt_frame s
  have hbells' : s.rebuilt.fep.heldBells = [] := by rw [hfep]; exact hbells
  have hwaiting : s.rebuilt.l5Waiting = [] := l5Waiting_nil (by rw [hrst]; exact hacting)
  have heq : s.l2End = if s.rst.source = 11 then ((l2Ended s).recoveryEvents s.recoveryCounts).retestAll 1
      else ((l2Ended s).recoveryEvents s.recoveryCounts).riskScan := by
    unfold State.l2End
    dsimp only
    rw [hbells', hwaiting]
    rfl
  rw [heq]
  split
  · exact (riskOnly_recoveryEvents ..).trans (riskOnly_foldl (State.retest · 1) (fun t id => riskOnly_retest t 1 id) _ _)
  · exact (riskOnly_recoveryEvents ..).trans (riskOnly_riskScan _)

theorem exec_l2Rebuild {s : State} (hphase : s.rst.phase = .l2Stopped) (hcool : s.rst.source ≠ 11 ∨ s.pins.thermTripN = true) :
    exec .l2Rebuild s = .next (if s.fep.halted then s.l2Halted else s.l2End) := by
  have hguard : ¬ (s.rst.phase != .l2Stopped || (s.rst.source == 11 && !s.pins.thermTripN)) = true := by
    rw [hphase]
    rcases hcool with h | h <;> simp [h]
  simp only [exec, execL2Rebuild, if_neg hguard]

theorem l2Halted_eq {s : State} (hacting : s.rst.acting = []) : s.l2Halted = { s with rst := { s.rst with phase := .none, level := 9 } } := by
  have hfilter : s.rst.acting.filter (fun a => s.levelOf a.source != 5) = s.rst.acting := by
    rw [hacting]
    rfl
  unfold State.l2Halted
  rw [l5Waiting_nil hacting, hfilter]
  rfl

theorem exec_l2Rebuild_ends {s : State} (hphase : s.rst.phase = .l2Stopped) (hcool : s.rst.source ≠ 11 ∨ s.pins.thermTripN = true)
    (hacting : s.rst.acting = []) (hhalted : s.fep.halted = false) (hbells : s.fep.heldBells = []) :
    ∃ t, exec .l2Rebuild s = .next t ∧ Still s t ∧ t.rst.phase = .none ∧ t.fep.stopped = false
      ∧ ∀ k q, s.queue k = some q → ∃ x, t.queue k = some x ∧ x = { q with nextFetch := q.read, reads := 0, need := none } := by
  have hexec := exec_l2Rebuild hphase hcool
  rw [if_neg (by rw [hhalted]; exact Bool.false_ne_true)] at hexec
  have hrisk := l2End_riskOnly hacting hbells
  obtain ⟨-, -, hfep, hqueues⟩ := rebuilt_frame s
  refine ⟨s.l2End, hexec, still_of_view (view_State_l2End s), ?_, ?_, fun k q hk => ?_⟩
  · rw [show s.l2End.rst = (l2Ended s).rst from (congrArg State.rst hrisk :)]
    rfl
  · rw [show s.l2End.fep = (l2Ended s).fep from (congrArg State.fep hrisk :)]
    exact congrArg Fep.stopped hfep
  · refine ⟨q.resumed, ?_, rfl⟩
    have hq : s.l2End.queues = tabMap s.queues (fun _ q => q.resumed) := (congrArg State.queues hrisk :).trans hqueues
    rw [State.queue, hq, tabGet_map]
    exact congrArg (Option.map Queue.resumed) hk

/-- Settles O59: the three resets by their own sequences, and the errors of the FEP by what the control store shows. -/
theorem narrowResetsAndFepErrors : Obligations.NarrowResetsAndFepErrors := by
  refine ⟨?instances, ?partitions, ?errors, ?l2⟩
  case instances =>
    exact fun s n => ⟨exec_l3Reset_none, fun a hacting hlevel harg => ⟨exec_l3Reset_waits hacting hlevel harg,
      exec_l3Reset_runs hacting hlevel harg⟩⟩
  case partitions =>
    refine fun s p store buffer => ⟨fun h => congrArg _ (if_pos (bne_iff_ne.2 h)), fun h => ⟨fun hbuffer hstore hcal => ?_,
      exec_l5ResetDone_bad h⟩⟩
    subst hbuffer hstore
    exact exec_l5ResetDone_good h hcal
  case errors =>
    intro s addr th flips good
    refine ⟨fun h => exec_fep_stopped h good, fun h => ?_⟩
    obtain ⟨hnone, hone, hagain, hnew⟩ := controlStoreError_spec (addr := addr) (th := th) (flips := flips) h
    obtain ⟨hhang, hstall⟩ := fepHangWatchdog_spec (addr := addr) (th := th) h
    obtain ⟨hclean, hfixed, hrepaired, hbad⟩ := scrub_spec (flips := flips) h good
    exact ⟨hnone, hone, hagain, hnew, hhang, hstall, hclean, hfixed, hrepaired, hbad,
      fun a b => ⟨errors_rewrite _ a, word_upset s.fep a b flips⟩⟩
  case l2 =>
    refine fun s => ⟨exec_l2Reset_none, fun a hacting hlevel => ⟨fun hphase => ?_, exec_l2Reset_begins hacting hlevel⟩,
      fun patch image hearly => ?_, fun patch image => exec_l2PreemptDeadline patch image, fun hwait => ?_,
      fun hphase hcool hacting => ⟨fun hhalted => ?_, exec_l2Rebuild_ends hphase hcool hacting⟩⟩
    · exact (exec_l2Reset hacting hlevel).trans (congrArg _ (if_pos (bne_iff_ne.2 hphase)))
    · refine congrArg _ (if_neg fun hdue => ?_)
      rw [Bool.and_eq_true, beq_iff_eq, decide_eq_true_eq] at hdue
      rcases hearly with hphase | hearly
      · exact hphase hdue.1
      · omega
    · have hguard : (s.rst.phase != .l2Stopped || (s.rst.source == 11 && !s.pins.thermTripN)) = true := by
        simpa using hwait
      exact congrArg _ (if_pos hguard)
    · exact (exec_l2Rebuild hphase hcool).trans (congrArg _ ((if_pos hhalted).trans (l2Halted_eq hacting)))

end Sys2Proof.Proofs
end
